-- ==== Sys2Proof/Word.lean ====
section
/-! DEFINITION.
The word, byte and line types of the package (spec/00 R5–R7, R10) and their plainest arithmetic. -/

namespace Sys2Proof

/-- A 64-bit register or general-register value (R10, R43). -/
abbrev Word := BitVec 64
/-- One byte of memory. -/
abbrev Byte := BitVec 8
/-- A 64-byte coherence line, byte 0 in bits 7:0 (R7, R22). -/
abbrev Line := BitVec 512
/-- A 5-bit general-register number (R44). -/
abbrev Reg := BitVec 5
/-- A 4-bit predicate number (R43). -/
abbrev PReg := BitVec 4
/-- A 128-byte Sceuc flit, byte 0 in bits 7:0 (R215). -/
abbrev Flit := BitVec 1024

/-- Saturating subtraction-free addition with a ceiling, used by saturating counts. -/
def satAdd (a b ceiling : Nat) : Nat := min (a + b) ceiling

/-- Ceiling division of naturals (R8, R496). -/
def ceilDiv (a b : Nat) : Nat := (a + b - 1) / b

end Sys2Proof
end

