-- ==== Sys2Proof/Syntax.lean ====
section
/-! DEFINITION.
The commands of the block: one constructor of `Instr` per row of spec/opcode_table.json, with the
row's operands.  The structures before it are the operands that are more than a number. -/

namespace Sys2Proof

/-- The agent that makes a Package Control Space access (Table 14-5, R441). -/
inductive Agent where
  /-- compute core n, or service core n − 216 for n = 216–219; its world is the core's own. -/
  | core (n : Nat)
  /-- a device, the Lend endpoint or a remote host: cannot reach the space (R441). -/
  | device
  deriving DecidableEq, Repr

/-- How the fetch of an instruction ended.  The model takes no instruction from memory (the
block cut): what was fetched arrives with the command, and with it the fetch's outcome, or that the core fetches here and
finds the outcome (log 11). -/
inductive Fetch where
  /-- the core fetches here: it translates its pc and takes the lines of the instruction through the L1I. -/
  | here
  /-- fetched from the L1I. -/
  | ok
  /-- fetched by filling the L1I with this line (line number, key ID). -/
  | fill (line key : Nat)
  /-- the fetch faulted in translation: syndrome, faulting address, IPA (R136, R137). -/
  | fault (syn eva ipa : Word)
  /-- the fetched line is poisoned (R157). -/
  | poison
  deriving DecidableEq, Repr

/-- An error that a cache array detects (R164–R167, R534): the parity of a data word or of a tag in an L1
structure (0 L1I, 1 L1D, 2 victim cache, 3 side buffer), the code of a data word or of a tag in the L2 or in an
L3 slice of the die, one bit or more, or an uncorrectable error of a service core. -/
inductive ArrayFault where
  | l1Data (str line : Nat)
  | l1Tag (str set way : Nat)
  | l2Data (line : Nat) (single : Bool)
  | l2Tag (way : Nat) (single : Bool)
  | l3Data (line : Nat) (single : Bool)
  | l3Tag (slice way : Nat) (single : Bool)
  | logic
  deriving DecidableEq, Repr

/-- An array error, and the core whose arrays or whose die's slices detect it. -/
structure ArrayErr where
  core : Nat
  what : ArrayFault
  deriving DecidableEq, Repr

/-- What every instruction of a core carries: the core (0–215 compute, 216–219 SP0–SP3), its
guard (R55), its window prefix (R72: bit 0 destination, bit 1 sources), its ordering prefix
(Table 2-8), its length in bytes, whether its encoding is valid (R70), its fetch, and the array error
that is detected as it begins, if any. -/
structure Insn where
  core  : Nat
  pred  : PReg
  neg   : Bool
  win   : BitVec 2
  kind  : BitVec 2
  scope : BitVec 2
  len   : Nat
  valid : Bool
  fetch : Fetch
  err   : Option ArrayErr := none
  deriving DecidableEq, Repr

/-- The operands of a load or store of the Deckai Architecture Reference: base register, byte
offset, size in bytes (1, 2, 4, 8, or 64 for a vector), sign extension, the data register, and
whether the access is speculative (R114). -/
structure MemOp where
  ra     : Reg
  off    : Word
  size   : Nat
  signed : Bool
  vec    : Bool
  reg    : Reg
  spec   : Bool
  deriving DecidableEq, Repr

/-- What a computational instruction is (R2, R69, R71): the opcode byte or MAJOR, the OPS field, and the immediate as
extended. -/
structure CompOp where
  code : Nat
  ops  : Nat
  imm  : Word
  deriving DecidableEq, Repr

/-- The destinations of a computational instruction: general registers, vector registers and predicates. -/
structure CompDst where
  gpr  : List Reg
  vec  : List Reg
  pred : List PReg
  deriving DecidableEq, Repr

/-- The AMO operations, CAS and CAS128 (R75). -/
inductive AmoOp where
  | swap | add | and | or | xor | min | max | umin | umax | cas | cas128
  deriving DecidableEq, Repr

/-- Where a hardware prefetch fills (R114, R162). -/
inductive PfTarget where
  | l1d | sideBuffer | l2
  deriving DecidableEq, Repr

/-- The request kinds a core sends to its L3 slice (R182). -/
inductive L3Kind where
  | read | write | upgrade
  deriving DecidableEq, Repr

/-- An inbound request at a root port (R103, R147–R149): Flexible I/O group, port of the group,
requester ID, address, length in bytes, the RO and IDO attributes, and whether it is marked as
translated or carries a PASID. -/
structure Dma where
  group : Nat
  port  : Nat
  rid   : Nat
  addr  : Word
  len   : Nat
  ro    : Bool
  ido   : Bool
  ats   : Bool
  deriving DecidableEq, Repr

/-- An error that a home detects as it takes a request: in an entry of the directory or a transaction
entry (R209), or in the buffer that holds the request's data (Table 9-10), one bit or two; each names a logic or buffer Element. -/
inductive HomeErr where
  | entry (dir : Bool) (index : Nat)
  | buffer (index : Nat) (double : Bool)
  deriving DecidableEq, Repr

/-- A coherence request at a home (Table 6-5): requesting agent (Table 6-1), requesting core,
line number (HPA bits 51:6), key ID, Darkroom attribute, speculation attribute, real-time mark,
whether an RdO or Upg is made for a store or an atomic (R290, R426), the SOURCE code and AGENT of
a refusal (WLD_REFLOG0), write data with byte mask and poison, the atomic's operation, byte
offset, size and operands, and the error that the home detects, if any. -/
structure HomeReq where
  agent    : Nat
  core     : Nat
  line     : Nat
  key      : Nat
  dark     : Bool
  spec     : Bool
  rt       : Bool
  forStore : Bool
  src      : Nat
  srcAgent : Nat
  data     : Line
  mask     : BitVec 64
  poison   : Bool
  op       : AmoOp
  offset   : Nat
  size     : Nat
  operand  : BitVec 128
  compare  : BitVec 128
  posted   : Bool
  err      : Option HomeErr := none
  deriving DecidableEq, Repr

/-- HOLD of a snoop answer (R184). -/
inductive Hold where
  | none | shared | owned
  deriving DecidableEq, Repr

/-- A snoop answer (R184, R194, R203): HOLD, WB, the dirty data with its poison and key ID, and
the result LOST. -/
structure SnoopAns where
  hold   : Hold
  wb     : Bool
  data   : Option Line
  poison : Bool
  key    : Nat
  lost   : Bool
  deriving DecidableEq, Repr

/-- A grant (R186, R290): the requesting core, line, whether M, E or S is granted, the data if the
grant carries any, poison, NOFILL, the Darkroom mark (R427), key ID, and whether a copy was found
in another agent (R111). -/
structure GrantMsg where
  core    : Nat
  line    : Nat
  m       : Bool
  e       : Bool
  data    : Option Line
  poison  : Bool
  noFill  : Bool
  dark    : Bool
  key     : Nat
  shared  : Bool
  deriving DecidableEq, Repr

/-- One end of a Sceuc link: the IOD end or the compute-die end of link 0–11 (R21). -/
structure LinkEnd where
  iod  : Bool
  link : Nat
  deriving DecidableEq, Repr

/-- The up, down and spare masks of one link end (R212). -/
structure Masks where
  up   : BitVec 64
  down : BitVec 64
  upSp : BitVec 4
  dnSp : BitVec 4
  deriving DecidableEq, Repr

/-- What a training measured and exchanged: the lanes each receiving end found bad in step 2, the
capability word received, whether full training (all steps) or a retrain, and whether the digests
of step 6 were equal (R230–R232). -/
structure Training where
  full    : Bool
  iodBad  : Masks
  cdBad   : Masks
  capWord : Word
  equal   : Bool
  deriving DecidableEq, Repr

/-- A received stream burst (R242): the header bytes, the lines and the CRC-32C bytes. -/
structure BurstMsg where
  tag   : BitVec 8
  use   : BitVec 8
  lines : List Line
  crc   : BitVec 32
  deriving DecidableEq, Repr

/-- A read or write that a home issues to the Enlarger (R255); `ctxErr`: the key context it names shows an
uncorrectable error (R292). -/
structure TierAccess where
  line   : Nat
  key    : Nat
  dark   : Bool
  spec   : Bool
  rt     : Bool
  write  : Bool
  data   : Line
  poison : Bool
  ctxErr : Bool := false
  deriving DecidableEq, Repr

/-- An access to a channel controller: channel address of the line, the real-time mark (R329). -/
structure ChanAccess where
  addr : Nat
  rt   : Bool
  deriving DecidableEq, Repr

/-- What the DRAM returned for a read and for its reread (R323, R326): clean, corrected at a
device, or uncorrectable. -/
inductive ReadOutcome where
  | clean
  | corrected (device : Nat)
  | rereadClean
  | uncorrectable (device : Nat)
  deriving DecidableEq, Repr

/-- One lane's sweep in a re-measurement step (R336, R337): the passing steps of the read and the
write sweep over the current delay ± 16, lowest first. -/
structure LaneSweep where
  read  : List Bool
  write : List Bool
  deriving DecidableEq, Repr

/-- An access through the fabric aperture (R350–R355). -/
structure FabricAccess where
  hpa   : Nat
  write : Bool
  atom  : Bool
  data  : Line
  tag   : Nat
  deriving DecidableEq, Repr

/-- A scratch access at a port (R482–R488): the service core (0–3) or the DMA port, the offset,
size, whether it writes, the data, the Darkroom attribute, and the SCLK cycles a DMA request has
waited at the bank, the other service cores that request the bank, and what the check bits found:
an uncorrectable error, or a corrected one in this column (R485, R523). -/
structure ScratchAccess where
  sp       : Option Nat
  offset   : Nat
  size     : Nat
  write    : Bool
  data     : Word
  amo      : Option AmoOp
  dark     : Bool
  waited   : Nat
  rivals   : List Nat
  uncorrectable : Bool
  corrected : Option Nat
  deriving DecidableEq, Repr

/-- A unit of Table 18-4: die, and block or 0xFF for a whole compute die. -/
structure UnitId where
  die   : Nat
  block : Nat
  deriving DecidableEq, Repr

/-- A Test Strip result entry (R560). -/
structure TestEntry where
  element : BitVec 32
  address : BitVec 32
  bit     : BitVec 16
  kind    : BitVec 8
  deriving DecidableEq, Repr

/-- The remote host's writes to a Lend function's configuration space and BAR0 (R364–R370). -/
inductive LendCfg where
  | memEnable (on : Bool)
  | romEnable (on : Bool)
  | decoder (i : Nat) (base size : Nat) (ways gran : Nat) (dpaSkip : Nat) (commit : Bool)
  | completionTimeout (v : Nat)
  | maxReadRequest (v : Nat)
  | d3hot (on : Bool)
  deriving DecidableEq, Repr

/-- A ZCI command as it stands in a ring or a boot-mailbox request: the queue pair it was
submitted on, its 64 bytes (byte 0 in bits 7:0) and the request attachment (R393, R406). -/
structure ZCmd where
  qp     : Nat
  cmd    : BitVec 512
  attach : List Byte
  deriving DecidableEq, Repr

/-- The commands, in the order of the opcode table. Each docstring is the row's summary. -/
inductive Instr where
  /-- REGISTER_WRITE (R13). A write to a Package Control Space register that has no behaviour of its own sets its fields according to their access codes, after the write-admission check of R441. -/
  | registerWrite (agent : Agent) (off : BitVec 26) (size : Nat) (value : Word)
  /-- COMPUTATIONAL_INSTRUCTION (R2). A computational integer, floating-point or vector instruction executes as the Deckai Architecture Reference defines. -/
  | computationalInstruction (x : Insn) (op : CompOp) (rd : CompDst) (ra : List Reg) (rb : List PReg) (vec : List Reg)
  /-- LOAD (R88). A load is translated, looked up in the caches and performed under the ordering rules. -/
  | loadInsn (x : Insn) (m : MemOp)
  /-- STORE (R88). A store is translated, buffered and made visible under the ordering rules. -/
  | storeInsn (x : Insn) (m : MemOp)
  /-- MFSR (R66). MFSR reads a state register after the level check. -/
  | mfsr (x : Insn) (rd : Reg) (sr : BitVec 12)
  /-- MTSR (R66). MTSR writes a state register after the level check. -/
  | mtsr (x : Insn) (rs : Reg) (sr : BitVec 12)
  /-- ERET (R65). ERET returns to the level and address saved in ESTAT and EPC, filling a frame if needed. -/
  | eret (x : Insn)
  /-- WFI (R504). WFI waits for an interrupt, entering the core state that PWR_CCTL.WFIC selects in Daylight. -/
  | wfi (x : Insn)
  /-- ISYNC (R75). ISYNC makes later fetches observe earlier state register writes, ICINV and TLB operations. -/
  | isync (x : Insn)
  /-- RET (R46). RET jumps to n7 and slides the window back, filling the parent frame if it is not resident. -/
  | ret (x : Insn)
  /-- WKEEP (R50). WKEEP spills the oldest frames until at least two frames are free. -/
  | wkeep (x : Insn)
  /-- TLBSYNC (R143). TLBSYNC waits until every earlier TLBI and TLBIR of the core is complete. -/
  | tlbsync (x : Insn)
  /-- SCALL (R60). TRAP kind 0 raises a supervisor call taken at S. -/
  | scall (x : Insn) (imm : BitVec 16)
  /-- HCALL (R60). TRAP kind 1 raises a hypervisor call taken at H. -/
  | hcall (x : Insn) (imm : BitVec 16)
  /-- DCALL (R430). TRAP kind 2 raises a Darkroom monitor call taken at M, entering the Darkroom world from Daylight. -/
  | dcall (x : Insn) (imm : BitVec 16)
  /-- BRK (R59). TRAP kind 3 raises a breakpoint exception with EPC at the BRK. -/
  | brk (x : Insn) (imm : BitVec 16)
  /-- RDTIME (R75). RDTIME copies TIME into a register. -/
  | rdtime (x : Insn) (rd : Reg)
  /-- CALL (R46). CALL spills until three frames are free, slides the window and jumps PC-relative with the return address in n7. -/
  | call (x : Insn) (disp : Word)
  /-- CALLR (R46). CALLR slides the window as CALL and jumps to the address in a register. -/
  | callr (x : Insn) (rs : Reg)
  /-- WFLUSH (R79). WFLUSH spills frames until no resident frame is owned by the named level. -/
  | wflush (x : Insn) (level : BitVec 2) (upto : Option Nat)
  /-- WPMOV (R72). WPMOV moves a value between a current register and a parent-window register, filling the parent frame if needed. -/
  | wpmov (x : Insn) (rd : Reg) (rs : Reg) (dir : Bool)
  /-- PCMP (R75). PCMP compares two registers and writes the result and its complement to two predicates. -/
  | pcmp (x : Insn) (pd : PReg) (pe : PReg) (ra : Reg) (rb : Reg) (cc : BitVec 4)
  /-- PCMPI (R75). PCMPI compares a register with an immediate into two predicates. -/
  | pcmpi (x : Insn) (pd : PReg) (pe : PReg) (ra : Reg) (imm : Word) (cc : BitVec 4)
  /-- PLOG (R75). PLOG combines two predicates with AND, OR, XOR or ANDN. -/
  | plog (x : Insn) (pd : PReg) (pa : PReg) (pb : PReg) (op : BitVec 2)
  /-- PMOVR (R75). PMOVR copies the predicates into a register. -/
  | pmovr (x : Insn) (rd : Reg)
  /-- PMOVP (R75). PMOVP sets masked predicates from a register. -/
  | pmovp (x : Insn) (rs : Reg) (mask : BitVec 16)
  /-- FENCE (R92). FENCE orders earlier accesses of the selected kinds before later ones for the observers of its scope. -/
  | fence (x : Insn) (set : BitVec 4) (scope : BitVec 2)
  /-- FABRIC_FENCE_COMPLETE (R95). A fabric-scope FENCE completes at the later of the last acknowledgement and the last completion-timer expiry it awaits. -/
  | fabricFenceComplete (core : Nat)
  /-- AMO_SWAP (R105). AMO with OP SWAP atomically exchanges memory with a register, near or far. -/
  | amoSwap (x : Insn) (rd : Reg) (ra : Reg) (rv : Reg) (hint : BitVec 2) (sz : Bool)
  /-- AMO_ADD (R105). AMO with OP ADD atomically adds a register to memory, near or far. -/
  | amoAdd (x : Insn) (rd : Reg) (ra : Reg) (rv : Reg) (hint : BitVec 2) (sz : Bool)
  /-- AMO_AND (R105). AMO with OP AND atomically ANDs a register into memory. -/
  | amoAnd (x : Insn) (rd : Reg) (ra : Reg) (rv : Reg) (hint : BitVec 2) (sz : Bool)
  /-- AMO_OR (R105). AMO with OP OR atomically ORs a register into memory. -/
  | amoOr (x : Insn) (rd : Reg) (ra : Reg) (rv : Reg) (hint : BitVec 2) (sz : Bool)
  /-- AMO_XOR (R105). AMO with OP XOR atomically XORs a register into memory. -/
  | amoXor (x : Insn) (rd : Reg) (ra : Reg) (rv : Reg) (hint : BitVec 2) (sz : Bool)
  /-- AMO_MIN (R105). AMO with OP MIN atomically stores the signed minimum. -/
  | amoMin (x : Insn) (rd : Reg) (ra : Reg) (rv : Reg) (hint : BitVec 2) (sz : Bool)
  /-- AMO_MAX (R105). AMO with OP MAX atomically stores the signed maximum. -/
  | amoMax (x : Insn) (rd : Reg) (ra : Reg) (rv : Reg) (hint : BitVec 2) (sz : Bool)
  /-- AMO_UMIN (R105). AMO with OP UMIN atomically stores the unsigned minimum. -/
  | amoUmin (x : Insn) (rd : Reg) (ra : Reg) (rv : Reg) (hint : BitVec 2) (sz : Bool)
  /-- AMO_UMAX (R105). AMO with OP UMAX atomically stores the unsigned maximum. -/
  | amoUmax (x : Insn) (rd : Reg) (ra : Reg) (rv : Reg) (hint : BitVec 2) (sz : Bool)
  /-- CAS (R105). CAS compares 64 bits of memory with a register and conditionally stores a new value. -/
  | cas (x : Insn) (rd : Reg) (ra : Reg) (rexp : Reg) (rnew : Reg) (hint : BitVec 2)
  /-- CAS128 (R105). CAS128 performs a 16-byte compare-and-swap when PK_WIDE_CAS is effective. -/
  | cas128 (x : Insn) (rd : Reg) (ra : Reg) (rexp : Reg) (rnew : Reg) (hint : BitVec 2)
  /-- CMO_CLEAN (R171). CMO CLEAN writes dirty data of one line to memory and leaves the copies clean. -/
  | cmoClean (x : Insn) (ra : Reg)
  /-- CMO_INVAL (R172). CMO INVAL removes every copy of one line, discarding the executing core's own dirty data. -/
  | cmoInval (x : Insn) (ra : Reg)
  /-- CMO_CLEANINV (R171). CMO CLEANINV writes back and removes every copy of one line. -/
  | cmoCleaninv (x : Insn) (ra : Reg)
  /-- CMO_ZERO (R173). CMO ZERO obtains ownership without a read and writes 64 zero bytes as one store. -/
  | cmoZero (x : Insn) (ra : Reg)
  /-- CMOR_CLEAN (R78). CMOR CLEAN cleans each line of a range, interruptible between lines. -/
  | cmorClean (x : Insn) (ra : Reg) (rn : Reg) (upto : Option Nat)
  /-- CMOR_INVAL (R78). CMOR INVAL invalidates each line of a range, interruptible between lines. -/
  | cmorInval (x : Insn) (ra : Reg) (rn : Reg) (upto : Option Nat)
  /-- CMOR_CLEANINV (R78). CMOR CLEANINV cleans and invalidates each line of a range, interruptible between lines. -/
  | cmorCleaninv (x : Insn) (ra : Reg) (rn : Reg) (upto : Option Nat)
  /-- ICINV (R174). ICINV invalidates the L1I line that holds a VA. -/
  | icinv (x : Insn) (ra : Reg)
  /-- ICINV_ALL (R174). ICINV with ALL set invalidates the whole L1I of the core. -/
  | icinvAll (x : Insn)
  /-- TLBI_VA_ASID (R142). TLBI kind 0 removes translations of a VA under the current ASID or global. -/
  | tlbiVaAsid (x : Insn) (ra : Reg) (locked : Bool)
  /-- TLBI_VA_ALL_ASID (R142). TLBI kind 1 removes translations of a VA under every ASID. -/
  | tlbiVaAllAsid (x : Insn) (ra : Reg) (locked : Bool)
  /-- TLBI_ASID (R142). TLBI kind 2 removes every lower-half translation of an ASID. -/
  | tlbiAsid (x : Insn) (ra : Reg) (locked : Bool)
  /-- TLBI_STAGE1_VM (R142). TLBI kind 3 removes every stage-1 translation of the current virtual machine. -/
  | tlbiStage1Vm (x : Insn) (ra : Reg) (locked : Bool)
  /-- TLBI_IPA (R142). TLBI kind 4 removes stage-2 translations of an IPA and every combined entry of the current VMID. -/
  | tlbiIpa (x : Insn) (ra : Reg) (locked : Bool)
  /-- TLBI_VMID (R142). TLBI kind 5 removes every translation of a VMID. -/
  | tlbiVmid (x : Insn) (ra : Reg) (locked : Bool)
  /-- TLBI_ALL (R142). TLBI kind 6 removes every translation reachable from Daylight in the core. -/
  | tlbiAll (x : Insn) (ra : Reg) (locked : Bool)
  /-- TLBIR (R142). TLBIR with IPA 0 invalidates the VA translations of a range page by page. -/
  | tlbir (x : Insn) (ra : Reg) (rn : Reg) (locked : Bool) (upto : Option Nat)
  /-- TLBIR_IPA (R142). TLBIR with IPA 1 invalidates the stage-2 translations of an IPA range. -/
  | tlbirIpa (x : Insn) (ra : Reg) (rn : Reg) (locked : Bool) (upto : Option Nat)
  /-- TLBLOCK (R140). TLBLOCK walks a VA and places its translation in the locked set if there is room. -/
  | tlblock (x : Insn) (pd : PReg) (ra : Reg)
  /-- TLBUNLOCK (R141). TLBUNLOCK releases the locked translation of one VA. -/
  | tlbunlock (x : Insn) (ra : Reg)
  /-- TLBUNLOCK_ALL (R141). TLBUNLOCK with ALL set releases every locked translation of the current regime, world and VMID. -/
  | tlbunlockAll (x : Insn)
  /-- INTERRUPT (R64). A pending interrupt that the level and IE permit is taken at an instruction boundary. -/
  | interrupt (core : Nat)
  /-- TIMER_INTERRUPT (R67). TIME reaching TIMECMP makes a timer interrupt pending. -/
  | timerInterrupt (core : Nat)
  /-- IPI_SEND (R68). An MTSR to IPI_SEND orders earlier accesses and sends an interrupt with a tag to one or all cores. -/
  | ipiSend (x : Insn) (rs : Reg)
  /-- IPI_ARRIVAL (R68). An arriving IPI sets its tag bit in IPI_PEND of the target core. -/
  | ipiArrival (core : Nat) (tag : BitVec 6)
  /-- EXTCLAIM (R357). MFSR of EXTCLAIM returns and clears the lowest pending external vector. -/
  | extclaim (x : Insn) (rd : Reg)
  /-- INTERRUPT_WINDOW_WRITE (R356). An aligned 4-byte write to the interrupt window makes a vector pending on a local core. -/
  | interruptWindowWrite (off : Nat) (size : Nat) (data : Word)
  /-- ATOMCTL_CLR (R113). Writing 1 to ATOMCTL.CLR sets every contention predictor counter to 1. -/
  | atomctlClr (x : Insn) (rs : Reg)
  /-- HARDWARE_PREFETCH (R114). A hardware prefetcher issues a speculative fill into the L1D, side buffer or L2. -/
  | hardwarePrefetch (core : Nat) (hpa : Nat) (key : Nat) (target : PfTarget)
  /-- DEMAND_REISSUE (R117). An access deferred while speculative is reissued as a demand request once it is non-speculative. -/
  | demandReissue (core : Nat) (line : Nat)
  /-- DMA_WRITE (R103). An inbound DMA write is translated by the IOTU and performed at the home under the PCIe ordering attributes. -/
  | dmaWrite (d : Dma) (data : Line) (mask : BitVec 64)
  /-- DMA_READ (R197). An inbound DMA read is translated by the IOTU and served at the home as RdC. -/
  | dmaRead (d : Dma)
  /-- MSI_WRITE (R103). An MSI or MSI-X write is delivered after earlier writes of its requester are visible. -/
  | msiWrite (d : Dma) (data : Word)
  /-- IOTU_INV_DEVICE (R151). The command removes a device context and every translation made under it. -/
  | iotuInvDevice (z : ZCmd)
  /-- IOTU_INV_VA (R151). The command removes IOTU translations of a VA range. -/
  | iotuInvVa (z : ZCmd)
  /-- IOTU_INV_IPA (R151). The command removes IOTU translations of an IPA range. -/
  | iotuInvIpa (z : ZCmd)
  /-- IOTU_INV_VMID (R151). The command removes every IOTU translation of a VMID. -/
  | iotuInvVmid (z : ZCmd)
  /-- IOTU_INV_ALL (R151). The command removes every IOTU context and translation. -/
  | iotuInvAll (z : ZCmd)
  /-- IOTU_FSTAT_POP (R149). Writing 1 to IOTU_FSTAT.POP discards the oldest fault log entry. -/
  | iotuFstatPop (agent : Agent)
  /-- L3_SLICE_REQUEST (R182). An L2 miss or upgrade goes to the die's L3 slice, which serves it on the die or forwards it to the home. -/
  | l3SliceRequest (core : Nat) (line : Nat) (kind : L3Kind) (key : Nat) (world : Bool) (spec : Bool)
  /-- L1C_CTL_WRITE (R163). A write to L1C_CTL that clears VCEN or SBEN first empties the disabled structure. -/
  | l1cCtlWrite (agent : Agent) (core : Nat) (value : Word)
  /-- L3C_LOCK_WRITE (R168). A write to L3C_LOCK changes locked ways and owners, or is ignored and sets REJ when more than 8 ways are set. -/
  | l3cLockWrite (agent : Agent) (slice : Nat) (value : Word)
  /-- RDS (R186). The home performs a shared read request on the directory. -/
  | rds (r : HomeReq)
  /-- RDO (R186). The home performs a read-for-ownership, invalidating every listed agent. -/
  | rdo (r : HomeReq)
  /-- UPG (R187). The home performs an upgrade, or an RdO if the requester is no longer listed. -/
  | upg (r : HomeReq)
  /-- RDC (R197). The home serves a read of current data from an uncached agent without changing cache state. -/
  | rdc (r : HomeReq)
  /-- WRF (R196). The home performs a full-line invalidating write. -/
  | wrf (r : HomeReq)
  /-- WRP (R196). The home merges a partial invalidating write into owner data or memory. -/
  | wrp (r : HomeReq)
  /-- ATF (R107). The home performs a far atomic after removing every cached copy. -/
  | atf (r : HomeReq)
  /-- CMC (R186). The home performs a clean request with SnpC to the owner. -/
  | cmc (r : HomeReq)
  /-- CMI (R186). The home performs an invalidate request with SnpI to every listed agent. -/
  | cmi (r : HomeReq)
  /-- CMCI (R186). The home performs a clean-and-invalidate request. -/
  | cmci (r : HomeReq)
  /-- CMZ (R186). The home grants M without data for a CMO ZERO. -/
  | cmz (r : HomeReq)
  /-- EVC (R183). The home takes a clean eviction notice of an owner copy. -/
  | evc (r : HomeReq)
  /-- EVD (R194). The home takes a dirty eviction with data and writes it. -/
  | evd (r : HomeReq)
  /-- SNPS (R184). A die's L3 slice handles a shared snoop and answers for the whole die. -/
  | snps (die : Nat) (line : Nat) (excl : Option Nat) (err : Option ArrayErr)
  /-- SNPI (R184). A die's L3 slice handles an invalidating snoop and answers for the whole die. -/
  | snpi (die : Nat) (line : Nat) (excl : Option Nat) (err : Option ArrayErr)
  /-- SNPC (R184). A die's L3 slice handles a clean snoop and answers for the whole die. -/
  | snpc (die : Nat) (line : Nat) (excl : Option Nat) (err : Option ArrayErr)
  /-- SNPCUR (R184). A die's L3 slice supplies current data without changing state. -/
  | snpcur (die : Nat) (line : Nat) (excl : Option Nat) (err : Option ArrayErr)
  /-- SNOOP_ANSWER (R194). The home takes a snoop answer, with HOLD, WB and any data, and continues the transaction. -/
  | snoopAnswer (line : Nat) (agent : Nat) (a : SnoopAns)
  /-- GRANT (R188). A requester installs or discards a grant and returns CmpAck. -/
  | grant (g : GrantMsg)
  /-- CMPACK (R188). CmpAck releases the busy directory entry of a granting transaction. -/
  | cmpack (agent : Nat) (line : Nat)
  /-- EVACK (R190). EvAck frees the evicting cache's write-back buffer and returns the eviction credit. -/
  | evack (agent : Nat) (line : Nat)
  /-- DEF (R201). A Def reply tells a speculative requester that nothing is filled. -/
  | defReply (core : Nat) (line : Nat) (key : Nat)
  /-- WAITING_REQUEST_RESUME (R191). A request waiting on a busy entry or in the parked queue proceeds once the entry is no longer busy. -/
  | waitingRequestResume (slice : Nat)
  /-- SNOOP_TIMEOUT (R205). A snoop timer expires, taking the domain down in native mode or losing the agent in Cydric mode. -/
  | snoopTimeout (line : Nat) (agent : Nat)
  /-- MEMORY_TIMEOUT (R207). A memory timer expires, taking the domain down or returning poison in Cydric mode. -/
  | memoryTimeout (line : Nat)
  /-- REQUEST_TIMEOUT (R209). A request timer at a die or proxy expires and takes the domain down. -/
  | requestTimeout (agent : Nat) (line : Nat)
  /-- DOMAIN_DOWN_NOTICE (R205). A domain-down notice from another socket takes this package down with cause REMOTE. -/
  | domainDownNotice (socket : BitVec 2)
  /-- DOMAIN_DOWN_EXTENSION (R206). Safelight extends the DOMAIN_DOWN event with HA_DDREC0-2 into the Exposure Record. -/
  | domainDownExtension
  /-- SWEEP_SET_VISIT (R208). A lost-agent sweep visits one directory set every 64 FCLK cycles. -/
  | sweepSetVisit (slice : Nat)
  /-- PROT (R219). A received sequenced PROT flit is accepted, dropped as duplicate or discarded with a NAK, and its header fields taken. -/
  | prot (e : LinkEnd) (flit : Flit)
  /-- NULL (R216). A received NULL flit contributes its header fields only. -/
  | nullFlit (e : LinkEnd) (flit : Flit)
  /-- NAK (R223). A received NAK acknowledges earlier flits and starts a replay from the named flit. -/
  | nak (e : LinkEnd) (flit : Flit)
  /-- WIDTH_REQ (R236). A received WIDTH_REQ stops PROT flits and is answered with WIDTH_ACK, or ignored at the IOD under a crossing. -/
  | widthReq (e : LinkEnd) (flit : Flit) (masks : Masks)
  /-- WIDTH_ACK (R236). A received WIDTH_ACK stops the requester's PROT flits for the width change. -/
  | widthAck (e : LinkEnd) (flit : Flit) (masks : Masks)
  /-- WIDTH_WDRAW (R237). A received WIDTH_WDRAW withdraws the compute die's crossing width request. -/
  | widthWdraw (e : LinkEnd) (flit : Flit) (seq : BitVec 12)
  /-- MAPSWITCH (R236). Once MAPSWITCH is both sent and accepted, each end computes new maps and retrains. -/
  | mapswitch (e : LinkEnd) (flit : Flit)
  /-- REPLAY_BUFFER_DRAINED (R236). During a width change, an end whose replay buffer empties sends MAPSWITCH. -/
  | replayBufferDrained (e : LinkEnd)
  /-- AUDIT (R228). An accepted AUDIT computes credit deficits, possibly forcing a retrain. -/
  | audit (e : LinkEnd) (flit : Flit) (shared : BitVec 32) (reserved : List (BitVec 32))
  /-- AUDIT_SEND (R227). Every 65,536 LCLK cycles each end sends an AUDIT of its cumulative credit returns. -/
  | auditSend (e : LinkEnd)
  /-- PM_REQ (R246). A received PM_REQ is answered PM_ACK if idle and PM_NAK otherwise. -/
  | pmReq (e : LinkEnd) (flit : Flit)
  /-- PM_ACK (R246). A received PM_ACK lets an idle end begin entry to LP2. -/
  | pmAck (e : LinkEnd) (flit : Flit)
  /-- PM_NAK (R246). A received PM_NAK keeps both ends in LP0. -/
  | pmNak (e : LinkEnd) (flit : Flit)
  /-- LP2_IDLE (R246). An end idle for IDLE2 × 64 LCLK cycles with an empty replay buffer sends PM_REQ. -/
  | lp2Idle (e : LinkEnd)
  /-- LP1_ENTRY (R245). A stream direction idle for STRIDLE × 16 LCLK cycles places its stream lanes in electrical idle. -/
  | lp1Entry (e : LinkEnd)
  /-- WAKE_PATTERN (R247). A detected wake pattern wakes a die or link and starts a retrain. -/
  | wakePattern (e : LinkEnd)
  /-- REPLAY_TIMEOUT (R222). The replay timer expires and the sender replays from the oldest unacknowledged flit. -/
  | replayTimeout (e : LinkEnd)
  /-- FULL_TRAINING (R230). A link runs the full training steps from DETECT, exchanging masks and capability words. -/
  | fullTraining (e : LinkEnd)
  /-- TRAINING_PATTERN_DETECT (R233). The IOD end seeing the training pattern while ACTIVE enters full training and discards its sequence state. -/
  | trainingPatternDetect (e : LinkEnd)
  /-- TRAINING_COMPLETE (R230). Training completes when both ends confirm the same map and advertise credits, and the link becomes ACTIVE. -/
  | trainingComplete (link : Nat) (t : Training)
  /-- TRAINING_TIMEOUT (R231). A training that exceeds its bound after boot takes the link down. -/
  | trainingTimeout (e : LinkEnd)
  /-- RETRAIN (R231). Writing 1 to SCL_CTL.RETRAIN starts a retrain. -/
  | retrain (agent : Agent) (e : LinkEnd)
  /-- LOCK_LOSS (R238). Loss of symbol lock starts a retrain and the lock timer. -/
  | lockLoss (e : LinkEnd)
  /-- LOCK_REGAINED (R231). Regained symbol lock starts a retrain. -/
  | lockRegained (e : LinkEnd)
  /-- LOCK_TIMEOUT (R238). The lock timer expires before lock returns and the link is down. -/
  | lockTimeout (e : LinkEnd)
  /-- BURST (R243). A received stream burst is accepted if TAG, USE and CRC match, then SBA is sent; otherwise discarded. -/
  | burst (e : LinkEnd) (b : BurstMsg)
  /-- SBA (R242). A received SBA frees the burst tag for reuse. -/
  | sba (e : LinkEnd) (tag : BitVec 6)
  /-- SBR (R243). A received SBR makes the sender resend the burst, or fall back to the packet role on the third. -/
  | sbr (e : LinkEnd) (tag : BitVec 6)
  /-- BURST_TIMEOUT (R243). The burst timer expires and the receiver sends SBR. -/
  | burstTimeout (e : LinkEnd) (tag : BitVec 6)
  /-- COMPUTE_DIE_PHASE_END (R36). The compute-die phase ends and MGT_EFFCAP is fixed from the dies that trained. -/
  | computeDiePhaseEnd
  /-- TIERED_ACCESS (R255). The Enlarger resolves a home's read or write to a frame entry and serves it by frame state through the Darkslide. -/
  | tieredAccess (a : TierAccess)
  /-- DECOMPRESSED_LINE (R266). A line expanded by the Condenser is encrypted, written, marked moved and serves waiting requests; the last line switches the frame. -/
  | decompressedLine (slot : Nat) (checkFails : Bool)
  /-- STARVED_REQUEST_RESUME (R258). A request waiting for media proceeds when a frame it may use is freed. -/
  | starvedRequestResume
  /-- HEAT_DECAY_VISIT (R259). The decay sweep visits a frame and halves its HEAT. -/
  | heatDecayVisit
  /-- DECAY_WRITE (R259). A write to ENL_HEAT.DECAY ends the running sweep and starts a new one, or stops decay. -/
  | decayWrite (agent : Agent) (value : Word)
  /-- MIGRATION_COPY (R260). The home performs one line copy of a move and sets the line's moved-map bit. -/
  | migrationCopy (slot : Nat) (line : Nat) (parity : Bool)
  /-- SOURCE_FRAME_FREE (R260). The source frame returns to the free pool once every access to it has completed. -/
  | sourceFrameFree (slot : Nat)
  /-- COMPRESSION_COMPLETE (R263). The Condenser finishes a staged frame and the blob is placed in tier 2, or the frame is found incompressible or without space. -/
  | compressionComplete (slot : Nat)
  /-- MIGRATION_SLOT_FREE (R299). A free migration slot is given to an evacuation, then a rotation, then queued command frames. -/
  | migrationSlotFree
  /-- EVACUATION_RESUME (R276). A stalled evacuation resumes when space is freed. -/
  | evacuationResume
  /-- EVACUATION_COMPLETE (R275). An evacuation sets ENL_EVAC.DONE, is extended as CONFIG subtype 3, and retirement proceeds. -/
  | evacuationComplete
  /-- TIER_QUERY (R278). The command writes a 64-byte accounting record for the package or a group. -/
  | tierQuery (z : ZCmd)
  /-- TIER_REPORT (R280). The command writes placement records for a range of regions. -/
  | tierReport (z : ZCmd)
  /-- TIER_MOVE (R279). The command moves frames toward a target tier. -/
  | tierMove (z : ZCmd)
  /-- TIER_PIN (R272). The command moves frames to tier 0 or 1 and pins them. -/
  | tierPin (z : ZCmd)
  /-- TIER_UNPIN (R277). The command clears PIN on frames. -/
  | tierUnpin (z : ZCmd)
  /-- TIER_DISCARD (R281). The command returns frames to zero frames by invalidating writes of zeros. -/
  | tierDiscard (z : ZCmd)
  /-- TIER_SET_QUOTA (R270). The command sets T0MAX and T1MAX of a key-context group. -/
  | tierSetQuota (z : ZCmd)
  /-- TIER_EVACUATE (R278). The command evacuates an interleave set or tier-1 range. -/
  | tierEvacuate (z : ZCmd)
  /-- TIER_CANCEL (R281). The command drops the not-yet-started frames of a named outstanding command. -/
  | tierCancel (z : ZCmd)
  /-- KEY_TRANSPORT (R294). The command writes the SM2 transport public key and a quote over it. -/
  | keyTransport (z : ZCmd)
  /-- KEY_LOAD (R296). The command makes an EMPTY context LOADED with a generated or unwrapped key. -/
  | keyLoad (z : ZCmd)
  /-- KEY_ROTATE (R297). The command makes a context ROTATING with a new key and starts rekeying a range. -/
  | keyRotate (z : ZCmd)
  /-- KEY_ERASE (R302). The command zeroes a context's keys and makes it EMPTY. -/
  | keyErase (z : ZCmd)
  /-- KEY_QUERY (R303). The command returns a context's STATE, ALG, WORLD and GEN. -/
  | keyQuery (z : ZCmd)
  /-- REKEY_TRANSACTION (R299). The home rewrites one line under the new key and sets its moved-map bit. -/
  | rekeyTransaction (slot : Nat) (line : Nat)
  /-- CDN_COMPRESS (R310). The command compresses a buffer into DEFLATE or Zstandard. -/
  | cdnCompress (z : ZCmd)
  /-- CDN_DECOMPRESS (R310). The command expands a DEFLATE or Zstandard stream. -/
  | cdnDecompress (z : ZCmd)
  /-- SEGMENT_COMPLETE (R305). A Condenser lane finishes a service segment and takes its next work by priority. -/
  | segmentComplete (compress : Bool)
  /-- MC_READ (R326). A channel controller reads a line, rereading once and poisoning on an uncorrectable error. -/
  | mcRead (ch : Nat) (a : ChanAccess) (o : ReadOutcome)
  /-- MC_WRITE (R332). A channel controller writes a line in receipt order for that line. -/
  | mcWrite (ch : Nat) (a : ChanAccess) (data : Line) (poison : Bool)
  /-- ALERT (R327). ALERT_n stops new commands while the controller waits for it to clear. -/
  | alert (ch : Nat)
  /-- ALERT_CLEAR (R327). ALERT_n clears and the controller precharges and reissues the commands of the last 256 QCLK cycles. -/
  | alertClear (ch : Nat)
  /-- ALERT_TIMEOUT (R327). ALERT_n fails to clear within 2,000 QCLK cycles and the channel goes down. -/
  | alertTimeout (ch : Nat)
  /-- REFRESH (R333). The refresh interval elapses and REFab or REFsb is issued or postponed. -/
  | refresh (ch : Nat) (rank : Nat)
  /-- MR4_POLL (R333). Every 16 ms the controller reads MR4 of every rank to set the refresh rate. -/
  | mr4Poll (ch : Nat) (hot : List Bool)
  /-- PANIC_AGE (R330). The oldest real-time entry waits AGE × 10 ns and panic is asserted. -/
  | panicAge (ch : Nat)
  /-- SCRUB_READ (R335). Patrol scrub reads the next line, writing back a corrected line or the poison mark. -/
  | scrubRead (ch : Nat) (o : ReadOutcome)
  /-- REMEASUREMENT_STEP (R336). Every PERIOD ms a rank's delays are re-swept and re-centred. -/
  | remeasurementStep (ch : Nat) (sweeps : List LaneSweep)
  /-- CONFIG_REQUEST (R342). A configuration request through ECAM is decoded to a group's bus range or completes as Unsupported Request. -/
  | configRequest (bus : Nat) (dev : Nat) (off : Nat) (write : Bool) (data : Word)
  /-- COMPLETION_TIMEOUT (R343). A root port completion timer expires and the request completes with poison or all 0xFF. -/
  | completionTimeout (port : Nat) (tag : Nat)
  /-- DPC_TRIGGER (R344). Downstream port containment takes the link down and the port enters CONTAINED. -/
  | dpcTrigger (port : Nat) (reason : BitVec 8)
  /-- DPC_RELEASE (R344). Clearing DPC Trigger Status releases the port from CONTAINED. -/
  | dpcRelease (port : Nat) (retrigger : Option (BitVec 8))
  /-- IDE_KEY_INSTALL (R346). Writing 1 to COMMIT installs KEY and IV into the selected IDE slot. -/
  | ideKeyInstall (port : Nat) (slot : BitVec 6) (key : BitVec 256) (iv : BitVec 64)
  /-- IDE_KEY_CLEAR (R346). Writing 2 to COMMIT clears the selected IDE slot. -/
  | ideKeyClear (port : Nat) (slot : BitVec 6)
  /-- T1_RANGE_ACTIVATE (R348). Setting a bit of FIO_T1ACT brings a tier-1 range under management, all free. -/
  | t1RangeActivate (agent : Agent) (value : Word)
  /-- FWT_COMMIT (R351). A write to FWT_DATA1 commits both words to the selected Fabric Window Table entry and clears FAIL. -/
  | fwtCommit (agent : Agent) (word1 : Word)
  /-- FABRIC_WINDOW_ACCESS (R352). The home checks the window entry and carries an access to its fabric endpoint, or refuses it. -/
  | fabricWindowAccess (a : FabricAccess)
  /-- FABRIC_COMPLETION (R355). A fabric completion arrives; an error or Viral fails the window. -/
  | fabricCompletion (tag : Nat) (data : Line) (err : Bool)
  /-- FABRIC_COMPLETION_TIMEOUT (R355). A fabric completion timer expires, poisoning reads, losing writes and failing the window. -/
  | fabricCompletionTimeout (tag : Nat)
  /-- SCEUC_X_JOIN (R360). A trained Sceuc-X link is checked on socket numbers, capability and mode, and joins or is held down. -/
  | sceucXJoin (group : Nat) (peerSocket : BitVec 2) (peerPeer : BitVec 2) (peerCap : Word) (peerMode : Bool) (peerRange : Word)
  /-- SCEUC_X_LANE_FAIL (R362). A joined Sceuc-X link with failed lanes retrains at x8 or goes down. -/
  | sceucXLaneFail (group : Nat) (lowGood : Bool) (highGood : Bool)
  /-- SCEUC_X_LOCK_TIMEOUT (R362). A Sceuc-X link without lock for 4 µs goes down and expires the timers waiting on the peer. -/
  | sceucXLockTimeout (group : Nat)
  /-- MEMRD (R371). A Lend MemRd is decoded to an HPA and served at its home as a real-time RdC. -/
  | memrd (fn : Nat) (addr : Nat) (tag : Nat)
  /-- MEMWR (R371). A Lend full-line MemWr is performed as WrF and receives Cmp once visible. -/
  | memwr (fn : Nat) (addr : Nat) (tag : Nat) (data : Line) (poison : Bool)
  /-- MEMWRPTL (R371). A Lend MemWrPtl is performed as WrP and receives Cmp once visible. -/
  | memwrptl (fn : Nat) (addr : Nat) (tag : Nat) (data : Line) (mask : BitVec 64)
  /-- LEND_ANSWER_TIMEOUT (R377). The answer timer expires, answering with poison or Cmp and possibly freezing the port. -/
  | lendAnswerTimeout (fn : Nat) (tag : Nat)
  /-- EXPANSION_ROM_READ (R366). A read of the expansion ROM window returns the ROM store or completes as Unsupported Request. -/
  | expansionRomRead (fn : Nat) (off : Nat)
  /-- IDENTIFY (R380). The Lend mailbox Identify command returns the device identity. -/
  | identify (fn : Nat)
  /-- BACKGROUND_OPERATION_STATUS (R380). The mailbox command returns the status of a background operation. -/
  | backgroundOperationStatus (fn : Nat)
  /-- GET_EVENT_RECORDS (R380). The mailbox command returns held event records. -/
  | getEventRecords (fn : Nat)
  /-- CLEAR_EVENT_RECORDS (R380). The mailbox command clears event records. -/
  | clearEventRecords (fn : Nat) (handles : List Nat)
  /-- GET_EVENT_INTERRUPT_POLICY (R380). The mailbox command returns the event interrupt policy. -/
  | getEventInterruptPolicy (fn : Nat)
  /-- SET_EVENT_INTERRUPT_POLICY (R380). The mailbox command sets the event interrupt policy. -/
  | setEventInterruptPolicy (fn : Nat) (policy : BitVec 32)
  /-- GET_SUPPORTED_LOGS (R380). The mailbox command lists the supported logs. -/
  | getSupportedLogs (fn : Nat)
  /-- GET_LOG (R380). The mailbox command returns the Command Effects Log. -/
  | getLog (fn : Nat)
  /-- IDENTIFY_MEMORY_DEVICE (R380). The mailbox command reports the lent capacity as volatile memory. -/
  | identifyMemoryDevice (fn : Nat)
  /-- GET_PARTITION_INFO (R380). The mailbox command reports volatile capacity only. -/
  | getPartitionInfo (fn : Nat)
  /-- GET_HEALTH_INFO (R380). The mailbox command returns health information. -/
  | getHealthInfo (fn : Nat)
  /-- GET_POISON_LIST (R380). The mailbox command returns the poison list in its payload. -/
  | getPoisonList (fn : Nat) (dpa : Nat) (len : Nat)
  /-- SANITIZE (R380). The mailbox command discards every lent range in the background as TIER_DISCARD. -/
  | sanitize (fn : Nat)
  /-- GET_POISON_LIST_DMA (R381). The vendor command writes the full poison list by DMA to the remote host. -/
  | getPoisonListDma (fn : Nat) (addr : Nat) (len : Nat)
  /-- GET_EVENT_RECORDS_DMA (R381). The vendor command writes every held event record by DMA. -/
  | getEventRecordsDma (fn : Nat) (addr : Nat) (len : Nat)
  /-- DISCARD_RANGES_DMA (R381). The vendor command reads a list of DPA ranges by DMA and discards each. -/
  | discardRangesDma (fn : Nat) (addr : Nat) (len : Nat)
  /-- MAILBOX_DMA_COMPLETION (R382). A completion for a mailbox DMA read is taken, or discarded after a Bus Master Enable clear. -/
  | mailboxDmaCompletion (fn : Nat) (tag : Nat) (bytes : List Byte)
  /-- MAILBOX_DMA_TIMEOUT (R381). A mailbox DMA read's completion timer expires and the command returns Internal Error. -/
  | mailboxDmaTimeout (fn : Nat) (tag : Nat)
  /-- BUS_MASTER_ENABLE_CLEAR (R382). Clearing Bus Master Enable stops DMA and MSI-X and holds cut-short commands. -/
  | busMasterEnableClear (fn : Nat)
  /-- BUS_MASTER_ENABLE_SET (R382). Setting Bus Master Enable ends held commands with ABORTED_MASTER and starts held unstarted ones. -/
  | busMasterEnableSet (fn : Nat)
  /-- FUNCTION_LEVEL_RESET (R383). FLR discards mailbox commands, empties the ROM store and resets CXL.io state. -/
  | functionLevelReset (fn : Nat)
  /-- CXL_RESET (R384). CXL Reset stops CXL.mem, answers outstanding requests and optionally clears lent memory. -/
  | cxlReset (fn : Nat) (memoryClear : Bool)
  /-- LEND_PERST (R592). PERST_N assertion on a Lend group freezes the port and resets CXL.io state and decoders. -/
  | lendPerst (fn : Nat)
  /-- LEND_SET_RANGE (R368). The command sets or clears a lent range. -/
  | lendSetRange (z : ZCmd)
  /-- LEND_QUERY (R385). The command returns a Lend function's state, cause and counts. -/
  | lendQuery (z : ZCmd)
  /-- LEND_FREEZE (R378). The command freezes a Lend port with cause MANUAL. -/
  | lendFreeze (z : ZCmd)
  /-- LEND_RELEASE (R379). The command releases a freeze where its cause permits. -/
  | lendRelease (z : ZCmd)
  /-- LEND_ROM_LOAD (R366). The command copies 64 KiB into the ROM store and extends its digest. -/
  | lendRomLoad (z : ZCmd)
  /-- SQTAIL (R391). A doorbell write of SQTAIL updates the submission tail of a queue pair. -/
  | sqtail (agent : Agent) (qp : Nat) (value : BitVec 32)
  /-- RQHEAD (R391). A doorbell write of RQHEAD records the replies consumed. -/
  | rqhead (agent : Agent) (qp : Nat) (value : BitVec 32)
  /-- COMMAND_TAKE (R395). The ZCI takes a command from a ready queue pair when reply room and MAXOUT permit, and checks it. -/
  | commandTake (qp : Nat)
  /-- FENCE_BEFORE_RELEASE (R398). A fence-before or chained command begins once its predecessors have written final replies. -/
  | fenceBeforeRelease (qp : Nat)
  /-- SF_ACCEPT (R405). The service firmware accepts a command passed to it. -/
  | sfAccept (id : Nat)
  /-- SF_ACCEPTANCE_TIMEOUT (R404). The acceptance timer expires and the command is withdrawn with BUSY, SF_TIMEOUT. -/
  | sfAcceptanceTimeout (id : Nat)
  /-- FIRMWARE_REPLY (R405). Safelight or the service firmware returns a reply, which the ZCI writes into the submitting ring. -/
  | firmwareReply (id : Nat) (status : BitVec 16) (detail : BitVec 32) (result : BitVec 184)
  /-- BOOT_MAILBOX_REQUEST (R407). An MCTP request on the boot mailbox runs one command or receives BUSY. -/
  | bootMailboxRequest (cmd : BitVec 512) (attach : List Byte)
  /-- HQEN_ENABLE (R390). Writing 1 to ZCI_CTL.HQEN enables queue pair 2 from its context. -/
  | hqenEnable (agent : Agent)
  /-- HQEN_DISABLE (R390). Writing 0 to ZCI_CTL.HQEN disables queue pair 2. -/
  | hqenDisable (agent : Agent)
  /-- ZCI_IDENTIFY (R411). The command returns MGT_EFFCAP, the queue pair, source and instance. -/
  | zciIdentify (z : ZCmd)
  /-- ZCI_NOP (R411). The command completes at once with DONE. -/
  | zciNop (z : ZCmd)
  /-- ZCI_QUEUE_SET_ENABLE (R411). ZCI_QUEUE_SET OP 0 enables queue pairs from their contexts. -/
  | zciQueueSetEnable (z : ZCmd)
  /-- ZCI_QUEUE_SET_DISABLE (R411). ZCI_QUEUE_SET OP 1 stops taking from queue pairs and disables them once drained. -/
  | zciQueueSetDisable (z : ZCmd)
  /-- QUEUE_DRAIN_COMPLETE (R415). A stopping queue pair whose taken commands have all replied becomes DISABLED. -/
  | queueDrainComplete (qp : Nat)
  /-- SVI_CONFIG (R415). The command creates or resizes a service instance. -/
  | sviConfig (z : ZCmd)
  /-- SVI_RESET_DRAIN (R416). SVI_RESET MODE 0 stops taking and lets taken commands complete. -/
  | sviResetDrain (z : ZCmd)
  /-- SVI_RESET_SQUASH (R416). SVI_RESET MODE 1 stops running commands at their next transfer boundary. -/
  | sviResetSquash (z : ZCmd)
  /-- SVI_RESET_RELEASE (R416). SVI_RESET MODE 2 squashes and then frees the instance. -/
  | sviResetRelease (z : ZCmd)
  /-- SVI_RESET_COMPLETE (R417). Once every command and transfer has ended, the reset re-enables or frees the queue pairs and replies. -/
  | sviResetComplete (inst : Nat)
  /-- SVI_QUERY (R414). The command reports a service instance's state. -/
  | sviQuery (z : ZCmd)
  /-- SVI_LOG_START (R418). SVI_LOG OP 0 starts the written-page log for an instance. -/
  | sviLogStart (z : ZCmd)
  /-- SVI_LOG_READ (R418). SVI_LOG OP 1 moves logged page addresses to a buffer. -/
  | sviLogRead (z : ZCmd)
  /-- SVI_LOG_STOP (R418). SVI_LOG OP 2 stops logging and empties the instance's entries. -/
  | sviLogStop (z : ZCmd)
  /-- SVI_FREEZE (R420). The command stops an instance at Unit level, pausing running commands. -/
  | sviFreeze (z : ZCmd)
  /-- SVI_FREEZE_COMPLETE (R420). When no transfer of the instance is in flight it becomes FROZEN and the final reply is written. -/
  | sviFreezeComplete (inst : Nat)
  /-- SVI_SAVE (R421). The command writes a frozen instance's 4 KiB state image. -/
  | sviSave (z : ZCmd)
  /-- SVI_RESTORE (R422). The command checks and loads a state image into a frozen instance. -/
  | sviRestore (z : ZCmd)
  /-- SVI_THAW (R420). The command resumes paused commands and makes the instance ACTIVE. -/
  | sviThaw (z : ZCmd)
  /-- WLD_HOLD_WRITE (R442). A write to WLD_HOLD sets or clears explicit Darkroom holds. -/
  | wldHoldWrite (agent : Agent) (index : Nat) (w : Nat) (value : Word)
  /-- PLANNED_RETIREMENT_START (R531). A RETIRING unit whose hold has ended begins the steps of its planned retirement. -/
  | plannedRetirementStart (u : UnitId)
  /-- RETIREMENT_COMPLETE (R533). A finished retirement makes the unit RETIRED, extends CONFIG subtype 4 and adds a Wear Log record. -/
  | retirementComplete (u : UnitId)
  /-- TAMPER (R585). TAMPER_N low for 1,000 TCLK cycles wipes keys and the secure partition and applies a warm reset. -/
  | tamper
  /-- WATCHDOG_KICK (R450). Writing 1 to WLD_WDOG.KICK from SP0 restarts the secure watchdog. -/
  | watchdogKick (agent : Agent)
  /-- WATCHDOG_WARNING (R450). At 7/8 of the watchdog period vector 5 is raised on SP0. -/
  | watchdogWarning
  /-- WATCHDOG_EXPIRY (R450). The secure watchdog expires, records WDOG and applies a warm reset. -/
  | watchdogExpiry
  /-- PDB_BEGIN (R466). The command starts receiving a Platform Description Block of a given length. -/
  | pdbBegin (z : ZCmd)
  /-- PDB_DATA (R466). The command appends a piece of the Platform Description Block. -/
  | pdbData (z : ZCmd)
  /-- PDB_COMMIT (R471). The command validates the block, extends it, and applies it or rejects it. -/
  | pdbCommit (z : ZCmd)
  /-- PDB_STATUS (R466). The command returns the stage, lifecycle state, last rejection and challenge. -/
  | pdbStatus (z : ZCmd)
  /-- FW_LOAD (R461). The command writes a chunk of a firmware image to its placement. -/
  | fwLoad (z : ZCmd)
  /-- FW_ACTIVATE_SAFELIGHT (R461). FW_ACTIVATE of component 0 checks the image and starts Safelight on SP0. -/
  | fwActivateSafelight (z : ZCmd)
  /-- FW_ACTIVATE_SERVICE_FW (R465). FW_ACTIVATE of component 1 checks the image and starts or replaces the service firmware. -/
  | fwActivateServiceFw (z : ZCmd)
  /-- FW_ACTIVATE_MONITOR (R462). FW_ACTIVATE of component 2 checks the image and marks the Darkroom monitor ready. -/
  | fwActivateMonitor (z : ZCmd)
  /-- FW_ACTIVATE_HOST_FW (R464). FW_ACTIVATE of component 3 checks the image and releases the compute cores. -/
  | fwActivateHostFw (z : ZCmd)
  /-- FW_QUERY (R461). The command returns the boot stage and image status. -/
  | fwQuery (z : ZCmd)
  /-- BOOT_WINDOW_CLOSE (R458). The boot training window closes and stage 3 begins, or the package halts on an absent socket. -/
  | bootWindowClose
  /-- REMAP_STORE_TAKEN (R454). The Enlarger takes its remap store and the boot moves to stage LOAD. -/
  | remapStoreTaken (ok : Bool) (failing : List Nat)
  /-- XR_READ_REGISTERS (R480). XR_READ OP 0 writes XR0-XR31. -/
  | xrReadRegisters (z : ZCmd)
  /-- XR_READ_LOG (R480). XR_READ OP 1 writes log entries from a SEQ. -/
  | xrReadLog (z : ZCmd)
  /-- XR_READ_IDENTITY (R480). XR_READ OP 2 writes the identity public key and SERIAL. -/
  | xrReadIdentity (z : ZCmd)
  /-- XR_QUOTE (R481). The command writes an SM2-signed quote over selected exposure registers. -/
  | xrQuote (z : ZCmd)
  /-- XR_EXTEND (R478). The command extends a SOFTWARE event into XR16-XR31. -/
  | xrExtend (z : ZCmd)
  /-- SCRATCH_ACCESS (R487). A scratch access is granted at its bank by rotating priority with the DMA forcing limit. -/
  | scratchAccess (a : ScratchAccess)
  /-- CORRECTED_WORD_WRITEBACK (R485). A corrected scratch word is written back in the bank's next idle cycle. -/
  | correctedWordWriteback (off : Nat)
  /-- SSM_CTL_LOCK (R490). Setting SSM_CTL.LOCK fixes the secure partition and opens scratch to every port. -/
  | ssmCtlLock (agent : Agent)
  /-- SSM_BANKPWR_WRITE (R492). A write to SSM_BANKPWR requests bank power states, refused under a hold. -/
  | ssmBankpwrWrite (agent : Agent) (r : Nat) (value : Word)
  /-- BANK_RETENTION_ENTRY (R492). An ON bank idle for RETIDLE × 1,024 SCLK cycles enters RETENTION when AUTO is 1. -/
  | bankRetentionEntry (bank : Nat)
  /-- BANK_WAKE (R492). A bank woken from RETENTION or OFF finishes waking and serves the waiting access. -/
  | bankWake (bank : Nat)
  /-- SCRATCH_WIPE_COMPLETE (R491). The reset wipe of scratch memory ends and SP0 leaves reset into stage 0. -/
  | scratchWipeComplete
  /-- TARGET_WRITE (R497). A write to CLK_CDCTL.TARGET changes NEFF and starts a transition. -/
  | targetWrite (agent : Agent) (die : Nat) (value : BitVec 8)
  /-- GUARD_WRITE (R515). A write to PWR_DCTL.GUARD or PWR_IODV.GUARD changes the guard, at least GFLOOR. -/
  | guardWrite (agent : Agent) (die : Nat) (value : BitVec 16)
  /-- AVSBUS_COMPLETE (R498). An AVSBus command completes and the transition continues with the clock change. -/
  | avsbusComplete (rail : Nat)
  /-- AVSBUS_TIMEOUT (R500). An AVSBus command's timer expires, leaving the raise unconfirmed and retiring on the third. -/
  | avsbusTimeout (rail : Nat)
  /-- POWER_MANAGER_SAMPLE (R502). Every 100,000 TCLK cycles power is read and NCAP adjusted. -/
  | powerManagerSample (mw1 : Nat) (mwTau : Nat)
  /-- THERMAL_SAMPLE (R503). Each die's junction temperature adjusts its TCAP. -/
  | thermalSample (die : Nat) (tenths : Int)
  /-- THERMTRIP (R587). A junction reaching 115 °C asserts THERMTRIP_N, stops every core and stops the clocks. -/
  | thermtrip (die : Nat)
  /-- CORE_WAKE (R504). A core leaves C1, C3 or C6 when its wake condition holds and records the cause. -/
  | coreWake (core : Nat)
  /-- DIE_STATE_ENTRY (R505). A compute die whose cores are all deep enough enters DS1 or DS3 by itself. -/
  | dieStateEntry (die : Nat)
  /-- DIE_WAKE (R505). A die leaves DS1 or DS3 on a wake source and records it. -/
  | dieWake (die : Nat) (codes : List (Nat × Nat))
  /-- PACKAGE_STATE_ENTRY (R507). The package enters PS1 or PS2 by itself when its conditions hold. -/
  | packageStateEntry
  /-- PACKAGE_STATE_EXIT (R507). An access, link activity or die wake returns the package toward PS0. -/
  | packageStateExit (codes : List (Nat × Nat))
  /-- PWR_QUERY (R509). The command returns package and per-die power state. -/
  | pwrQuery (z : ZCmd)
  /-- PWR_SET_LIMIT (R509). The command sets PL1, PL2 and TAU. -/
  | pwrSetLimit (z : ZCmd)
  /-- PWR_SET_MAXPS (R509). PWR_SET_STATE OP 0 sets the deepest package state. -/
  | pwrSetMaxps (z : ZCmd)
  /-- PWR_SET_TARGET (R509). PWR_SET_STATE OP 1 sets a die's TARGET. -/
  | pwrSetTarget (z : ZCmd)
  /-- PARK (R506). PWR_SET_STATE OP 2 puts a die in DS3 and keeps it there. -/
  | park (z : ZCmd)
  /-- UNPARK (R506). PWR_SET_STATE OP 3 wakes a parked die. -/
  | unpark (z : ZCmd)
  /-- GRC_READ_SENSORS (R509). GRC_READ OP 0 writes the Grey Card sensor values. -/
  | grcReadSensors (z : ZCmd)
  /-- GRC_READ_WEAR_LOG (R520). GRC_READ OP 1 writes the current Wear Log with GEN advanced. -/
  | grcReadWearLog (z : ZCmd)
  /-- GREY_CARD_SAMPLE (R511). Every PERIOD ms each monitor is sampled, updating CUR and EXT. -/
  | greyCardSample (die : Nat) (index : Nat) (value : BitVec 16)
  /-- BRACKETING_PASS (R514). A Bracketing pass raises GFLOOR from CPR margins and raises retirement requests. -/
  | bracketingPass (bootPass : Bool) (margins : List (List Int))
  /-- RAS_RECORDS (R542). The command writes error records from a SEQ. -/
  | rasRecords (z : ZCmd)
  /-- RAS_UNIT_STATE (R542). The command returns a unit's STATE, GEN and latest permanent Element. -/
  | rasUnitState (z : ZCmd)
  /-- RAS_RETIRE (R542). RAS_RETIRE OP 0 checks GEN and makes a unit RETIRING. -/
  | rasRetire (z : ZCmd)
  /-- RAS_RETIRE_DIE_RESET (R538). RAS_RETIRE OP 1 resets a stopped or parked compute die and releases its cores. -/
  | rasRetireDieReset (z : ZCmd)
  /-- RAS_CLEAR_RECORDS (R542). RAS_CLEAR OP 0 discards records below a SEQ. -/
  | rasClearRecords (z : ZCmd)
  /-- RAS_CLEAR_ELEMENT (R542). RAS_CLEAR OP 1 discards the tracked history of a non-permanent Element. -/
  | rasClearElement (z : ZCmd)
  /-- DIE_SELF_RESET (R535). A compute die resets itself, expiring waiting timers and becoming LOST. -/
  | dieSelfReset (die : Nat)
  /-- ERR_N_RELEASE (R586). ERR_N is released 100,000 TCLK cycles after the last Deferred or Contained record. -/
  | errNRelease
  /-- EVT_CNT_WRITE (R546). A write to EVT_CNT sets the counter, discarding that cycle's increment. -/
  | evtCntWrite (agent : Agent) (off : BitVec 26) (value : Word)
  /-- CONTACT_SHEET_SAMPLE (R549). A due sample copies every counter into the shadow copy in one TCLK cycle, or is lost. -/
  | contactSheetSample
  /-- SHEET_WRITTEN (R551). A sheet finishes writing, WRITTEN increments and half-full or full signals are raised. -/
  | sheetWritten
  /-- CSH_START (R550). The command starts a periodic Contact Sheet. -/
  | cshStart (z : ZCmd)
  /-- CSH_STOP (R550). The command stops the Contact Sheet after its last sheet. -/
  | cshStop (z : ZCmd)
  /-- EVT_SNAPSHOT (R554). The command writes one full sheet of selected counters. -/
  | evtSnapshot (z : ZCmd)
  /-- TST_RUN (R556). The command starts a MARCH, SCAN or LANE test on an isolated target. -/
  | tstRun (z : ZCmd)
  /-- TEST_TIMEOUT (R560). The test timer expires and the test is abandoned with its results so far. -/
  | testTimeout (found : List TestEntry)
  /-- TEST_END (R561). A test ends, its target is re-initialised by BLOCK resets and TEST_STRIP is extended. -/
  | testEnd (found : List TestEntry)
  /-- TST_RESULT (R560). The command writes held test result entries. -/
  | tstResult (z : ZCmd)
  /-- AGT_SET (R565). The command extends an AGITATION event and sets an Agitation slot. -/
  | agtSet (z : ZCmd)
  /-- AGT_CLEAR (R566). The command extends an AGITATION event and clears one or all slots. -/
  | agtClear (z : ZCmd)
  /-- POWER_ON (R581). Supplies ramp in order and PWRGOOD rises, starting the package. -/
  | powerOn
  /-- COLD_RESET (R582). PWRGOOD or COLD_RST_N low holds the whole package in cold reset. -/
  | coldReset
  /-- COLD_RESET_END (R582). Cold reset ends 50,000 REFCLK cycles after both inputs are high, zeroing TIME and starting the scratch wipe. -/
  | coldResetEnd (testen : Bool)
  /-- WARM_RST_N (R584). WARM_RST_N low for 1,000 REFCLK cycles starts a warm reset. -/
  | warmRstN
  /-- SUPPLY_FAULT (R583). A supply leaving tolerance while PWRGOOD is high causes a cold reset. -/
  | supplyFault
  /-- ENTDAA (R588). The I3C target takes its dynamic address by ENTDAA with its provisioned ID. -/
  | entdaa (addr : BitVec 7)
  /-- FLIT_CRC_FAILURE (R216). A received Sceuc flit whose CRC-64 fails is discarded whole, its credit returns are lost, and a NAK naming E is sent. -/
  | flitCrcFailure (e : LinkEnd) (flit : Flit)
  /-- RESERVED_TYPE_FLIT (R216). A received flit with a reserved TYPE whose CRC passes is discarded and the link retrains. -/
  | reservedTypeFlit (e : LinkEnd) (flit : Flit)
  /-- CLOCK_HOP_COMPLETE (R499). A CCLK hop ends, the die's cores resume, and the transition continues with the rail lowering or completes and recomputes NEFF and GUARD. -/
  | clockHopComplete (die : Nat)
  /-- PCIE_COMPLETION (R343). A completion from a PCIe or CXL.io device for a core's non-posted request arrives and completes the request, or is discarded if late. -/
  | pcieCompletion (port : Nat) (tag : Nat) (data : Word) (status : Bool)
  /-- TIER1_MEMORY_COMPLETION (R348). A CXL.mem completion from a tier-1 device arrives for an Enlarger read or write, carrying data or poison. -/
  | tier1MemoryCompletion (tag : Nat) (data : Line) (poison : Bool)
  /-- UNIT_COPY_COMPLETE (R275). A ciphertext copy of a tier-2 blob's units to another pool frame ends and the frame entry is switched to the new units. -/
  | unitCopyComplete (slot : Nat)
  /-- BLOB_REKEY_COMPLETE (R299). A rekey slot finishes rewriting a tier-2 blob's units under the new key and opens the frame, releasing waiting requests. -/
  | blobRekeyComplete (slot : Nat)
  /-- PORT_LINK_UP (R340). A Flexible I/O root port or Lend function link finishes training and comes up. -/
  | portLinkUp (port : Nat) (width : BitVec 8) (gen : BitVec 4)
  /-- PORT_LINK_DOWN (R378). A Flexible I/O or Lend link goes down, freezing a Lend port with cause LINK_DOWN when requests are outstanding. -/
  | portLinkDown (port : Nat)
  /-- SCEUC_X_REPLAY (R362). A flit replay on a Sceuc-X link occurs, and the eighth without progress takes the link down. -/
  | sceucXReplay (group : Nat) (progress : Bool)
  /-- DMA_ATOMICOP (R148). An inbound PCIe AtomicOp is translated by the IOTU as a read-modify-write and performed at the home as AtF. -/
  | dmaAtomicop (d : Dma) (op : AmoOp) (size : Nat) (operand : BitVec 128) (compare : BitVec 128)
  /-- LEND_CONFIG_ACCESS (R369). The remote host writes the Lend function's configuration space or BAR registers, such as Mem_Enable, the ROM enable bit or an HDM decoder commit. -/
  | lendConfigAccess (fn : Nat) (w : LendCfg)
  /-- TAMPER_N_RELEASE (R585). TAMPER_N returns high, ending the low period so that a later assertion counts as a new event and FW_ACTIVATE of component 0 is no longer refused. -/
  | tamperNRelease
  deriving DecidableEq, Repr

end Sys2Proof
end

