-- ==== Sys2Proof/Decode.lean ====
section
/-! DEFINITION.
The words of the commands.  No row of the opcode table has bits (the block takes commands, not
encoded instructions), so no word spells a command. -/

namespace Sys2Proof

/-- The command that a word spells by the table's bits: none, since the table gives no row bits. -/
def decodeTableWord (_nbits _w : Nat) : Option Instr := none

end Sys2Proof
end

