-- ==== Sys2Proof/Machine/Bytes.lean ====
section
/-! DEFINITION.
Byte strings and the layouts of R7: little-endian numbers, and lines as 64 bytes. -/

namespace Sys2Proof.Machine

/-- The `n` bytes of a number, least significant first (R7). -/
def leBytes (n : Nat) (v : Nat) : List Byte :=
  match n with
  | 0 => []
  | k + 1 => BitVec.ofNat 8 v :: leBytes k (v / 256)

/-- The number that bytes spell, least significant first. -/
def leNat : List Byte → Nat
  | [] => 0
  | b :: r => b.toNat + 256 * leNat r

/-- The `n` bytes of a number, most significant first (the byte order of GB/T 32918). -/
def beBytes (n v : Nat) : List Byte := (leBytes n v).reverse

/-- The number that bytes spell, most significant first. -/
def beNat (l : List Byte) : Nat := leNat l.reverse

/-- Bytes `lo` to `lo + n - 1` of a byte string, zero past its end. -/
def sliceB (l : List Byte) (lo n : Nat) : List Byte :=
  let t := (l.drop lo).take n
  t ++ List.replicate (n - t.length) 0

/-- The field of `n` bytes at byte `lo` of a wide word whose byte 0 is in bits 7:0. -/
def fieldAt {w : Nat} (v : BitVec w) (lo n : Nat) : Nat := (v.toNat >>> (8 * lo)) % 2 ^ (8 * n)

/-- A wide word with the field of `n` bytes at byte `lo` replaced. -/
def setAt {w : Nat} (v : BitVec w) (lo n x : Nat) : BitVec w :=
  let m := (2 ^ (8 * n) - 1) <<< (8 * lo)
  (v &&& ~~~ BitVec.ofNat w m) ||| BitVec.ofNat w ((x % 2 ^ (8 * n)) <<< (8 * lo))

/-- The bytes of a line. -/
def lineBytes (l : Line) : List Byte := leBytes 64 l.toNat

/-- The line that up to 64 bytes spell. -/
def lineOf (b : List Byte) : Line := BitVec.ofNat 512 (leNat (b.take 64))

/-- The bit mask of 512 bits that a byte mask selects. -/
def maskBits (m : BitVec 64) : Line :=
  BitVec.ofNat 512 (leNat ((List.range 64).map fun i => if m.getLsbD i then 255 else 0))

/-- A line with the masked bytes replaced (R196). -/
def mergeLine (old new : Line) (m : BitVec 64) : Line :=
  (old &&& ~~~ maskBits m) ||| (new &&& maskBits m)

/-- The byte mask of `size` bytes at offset `off` in a line. -/
def maskAt (off size : Nat) : BitVec 64 := BitVec.ofNat 64 ((2 ^ size - 1) <<< off)

/-- The `size` bytes at `off` of a line, as a number. -/
def lineField (l : Line) (off size : Nat) : Nat := fieldAt l off size

/-- A line with the `size` bytes at `off` set. -/
def lineSet (l : Line) (off size v : Nat) : Line := setAt l off size v

/-- Cut bytes into pieces of `n`, with fuel for the number of pieces. -/
def chunks (fuel n : Nat) (l : List Byte) : List (List Byte) :=
  match fuel with
  | 0 => []
  | k + 1 => if l.isEmpty then [] else l.take n :: chunks k n (l.drop n)

/-- Sign extension of the low `bits` bits of a number into a word. -/
def sextW (bits v : Nat) : Word :=
  let t := v % 2 ^ bits
  if t ≥ 2 ^ (bits - 1) then BitVec.ofInt 64 ((t : Int) - (2 : Int) ^ bits) else BitVec.ofNat 64 t

end Sys2Proof.Machine
end

