-- ==== Sys2Proof/Machine/Crypto.lean ====
section
/-! DEFINITION.
SM3 (GB/T 32905), SM2 signatures and public-key encryption (GB/T 32918), and the checks of the
links and blobs: CRC-64 (ECMA-182), CRC-32C in its reflected (R306) and plain (R242) forms.
PRESUMED (log 15): the constants and steps of the named standards, which the spec cites and does
not reproduce. -/

namespace Sys2Proof.Machine

/-- A rotation of a 32-bit word to the left. -/
def rl (x : BitVec 32) (n : Nat) : BitVec 32 := x.rotateLeft n

/-- P0 of SM3. -/
def sm3P0 (x : BitVec 32) : BitVec 32 := x ^^^ rl x 9 ^^^ rl x 17
/-- P1 of SM3. -/
def sm3P1 (x : BitVec 32) : BitVec 32 := x ^^^ rl x 15 ^^^ rl x 23

/-- Message expansion, newest word first: `n` further words. -/
def sm3Expand (n : Nat) (w : List (BitVec 32)) : List (BitVec 32) :=
  match n with
  | 0 => w
  | k + 1 =>
    let g (i : Nat) := w.getD i 0
    let x := sm3P1 (g 15 ^^^ g 8 ^^^ rl (g 2) 15) ^^^ rl (g 12) 7 ^^^ g 5
    sm3Expand k (x :: w)

/-- The working registers of SM3. -/
structure Sm3St where
  a : BitVec 32
  b : BitVec 32
  c : BitVec 32
  d : BitVec 32
  e : BitVec 32
  f : BitVec 32
  g : BitVec 32
  h : BitVec 32

/-- One round of the compression function. -/
def sm3Round (j : Nat) (w w4 : BitVec 32) (s : Sm3St) : Sm3St :=
  let t : BitVec 32 := if j < 16 then 0x79cc4519 else 0x7a879d8a
  let ss1 := rl (rl s.a 12 + s.e + rl t (j % 32)) 7
  let ss2 := ss1 ^^^ rl s.a 12
  let ff := if j < 16 then s.a ^^^ s.b ^^^ s.c else (s.a &&& s.b) ||| (s.a &&& s.c) ||| (s.b &&& s.c)
  let gg := if j < 16 then s.e ^^^ s.f ^^^ s.g else (s.e &&& s.f) ||| (~~~ s.e &&& s.g)
  let tt1 := ff + s.d + ss2 + (w ^^^ w4)
  let tt2 := gg + s.h + ss1 + w
  ⟨tt1, s.a, rl s.b 9, s.c, sm3P0 tt2, s.e, rl s.f 19, s.g⟩

/-- Rounds `j`, `j + 1`, … over the expanded words, oldest first. -/
def sm3Rounds (n j : Nat) (w : List (BitVec 32)) (s : Sm3St) : Sm3St :=
  match n with
  | 0 => s
  | k + 1 => sm3Rounds k (j + 1) (w.drop 1) (sm3Round j (w.getD 0 0) (w.getD 4 0) s)

/-- One block of 64 bytes. -/
def sm3Block (s : Sm3St) (b : List Byte) : Sm3St :=
  let ws := (chunks 16 4 b).map fun c => BitVec.ofNat 32 (beNat c)
  let w := (sm3Expand 52 ws.reverse).reverse
  let t := sm3Rounds 64 0 w s
  ⟨t.a ^^^ s.a, t.b ^^^ s.b, t.c ^^^ s.c, t.d ^^^ s.d, t.e ^^^ s.e, t.f ^^^ s.f, t.g ^^^ s.g, t.h ^^^ s.h⟩

/-- The initial value of SM3. -/
def sm3Iv : Sm3St :=
  ⟨0x7380166f, 0x4914b2b9, 0x172442d7, 0xda8a0600, 0xa96f30bc, 0x163138aa, 0xe38dee4d, 0xb0fb0e4e⟩

/-- The padded message. -/
def sm3Pad (m : List Byte) : List Byte :=
  let z := (119 - m.length % 64) % 64
  m ++ [0x80] ++ List.replicate z 0 ++ beBytes 8 (8 * m.length)

/-- SM3 as its 32 bytes, in the byte order of GB/T 32905. -/
def sm3 (m : List Byte) : List Byte :=
  let p := sm3Pad m
  let s := (chunks (p.length / 64) 64 p).foldl sm3Block sm3Iv
  [s.a, s.b, s.c, s.d, s.e, s.f, s.g, s.h].flatMap fun x => beBytes 4 x.toNat

/-! ### SM2 -/

/-- The prime, order, coefficients and base point of the SM2 curve. -/
def sm2P : Nat := 0xFFFFFFFEFFFFFFFFFFFFFFFFFFFFFFFFFFFFFFFF00000000FFFFFFFFFFFFFFFF
def sm2N : Nat := 0xFFFFFFFEFFFFFFFFFFFFFFFFFFFFFFFF7203DF6B21C6052B53BBF40939D54123
def sm2A : Nat := 0xFFFFFFFEFFFFFFFFFFFFFFFFFFFFFFFFFFFFFFFF00000000FFFFFFFFFFFFFFFC
def sm2B : Nat := 0x28E9FA9E9D9F5E344D5A9E4BCF6509A7F39789F515AB8F92DDBCBD414D940E93
def sm2Gx : Nat := 0x32C4AE2C1F1981195F9904466A39C9948FE30BBFF2660BE1715A4589334C74C7
def sm2Gy : Nat := 0xBC3736A2F4F6779C59BDCEE36B692153D0A9877CC62A474002DF32E52139F0A0

/-- Modular exponentiation over the low `n` bits of the exponent. -/
def powMod (n b e m : Nat) : Nat :=
  match n with
  | 0 => 1
  | k + 1 => let r := powMod k (b * b % m) (e / 2) m
             if e % 2 = 1 then b * r % m else r

/-- Inverse modulo a prime of at most 256 bits. -/
def invMod (a m : Nat) : Nat := powMod 256 (a % m) (m - 2) m

/-- An affine point, none at infinity. -/
abbrev Pt := Option (Nat × Nat)

/-- Addition on the curve. -/
def ptAdd : Pt → Pt → Pt
  | none, q => q
  | p, none => p
  | some (x1, y1), some (x2, y2) =>
    if x1 = x2 ∧ (y1 + y2) % sm2P = 0 then none
    else
      let num := if x1 = x2 then 3 * x1 * x1 + sm2A else y2 + (sm2P - y1)
      let den := if x1 = x2 then 2 * y1 else x2 + (sm2P - x1)
      let l := (num % sm2P) * invMod (den % sm2P) sm2P % sm2P
      let x3 := (l * l + 2 * sm2P - x1 - x2) % sm2P
      some (x3, (l * (x1 + sm2P - x3) + sm2P - y1) % sm2P)

/-- Scalar multiplication over the low `n` bits of the scalar. -/
def ptMul (n k : Nat) (p : Pt) : Pt :=
  match n with
  | 0 => none
  | m + 1 => let h := ptMul m (k / 2) (ptAdd p p)
             if k % 2 = 1 then ptAdd p h else h

/-- The base point. -/
def sm2G : Pt := some (sm2Gx, sm2Gy)

/-- Whether a pair lies on the curve. -/
def onCurve (x y : Nat) : Bool :=
  decide (x < sm2P ∧ y < sm2P ∧ y * y % sm2P = (x * x * x + sm2A * x + sm2B) % sm2P)

/-- The digest of a message that SM2 signs, with the default distinguishing identifier. -/
def sm2Digest (pub : List Byte) (m : List Byte) : Nat :=
  let ident : List Byte := [0x31,0x32,0x33,0x34,0x35,0x36,0x37,0x38,0x31,0x32,0x33,0x34,0x35,0x36,0x37,0x38]
  let za := sm3 ([0x00, 0x80] ++ ident ++ beBytes 32 sm2A ++ beBytes 32 sm2B ++ beBytes 32 sm2Gx ++
    beBytes 32 sm2Gy ++ pub)
  beNat (sm3 (za ++ m))

/-- SM2 verification: 64-byte public key, message, 64-byte signature (r then s, big-endian). -/
def sm2Verify (pub m sig : List Byte) : Bool :=
  let x := beNat (pub.take 32); let y := beNat (sliceB pub 32 32)
  let r := beNat (sliceB sig 0 32); let s := beNat (sliceB sig 32 32)
  let t := (r + s) % sm2N
  if onCurve x y && decide (0 < r ∧ r < sm2N ∧ 0 < s ∧ s < sm2N ∧ t ≠ 0) then
    match ptAdd (ptMul 256 s sm2G) (ptMul 256 t (some (x, y))) with
    | some (x1, _) => decide ((sm2Digest pub m + x1) % sm2N = r)
    | none => false
  else false

/-- The public key of a private key, x then y, big-endian. -/
def sm2Pub (d : Nat) : List Byte :=
  match ptMul 256 d sm2G with
  | some (x, y) => beBytes 32 x ++ beBytes 32 y
  | none => List.replicate 64 0

/-- An SM2 signature with the random value `k`. -/
def sm2Sign (d k : Nat) (m : List Byte) : List Byte :=
  match ptMul 256 (k % sm2N) sm2G with
  | none => List.replicate 64 0
  | some (x1, _) =>
    let r := (sm2Digest (sm2Pub d) m + x1) % sm2N
    let s := invMod (1 + d) sm2N * ((k % sm2N + sm2N * sm2N - r * d) % sm2N) % sm2N
    beBytes 32 r ++ beBytes 32 s

/-- The key derivation function of GB/T 32918.4: `n` blocks from counter `i`. -/
def sm2Kdf (n i : Nat) (z : List Byte) : List Byte :=
  match n with
  | 0 => []
  | k + 1 => sm3 (z ++ beBytes 4 i) ++ sm2Kdf k (i + 1) z

/-- SM2 decryption of C1 ‖ C3 ‖ C2; none when a check fails (R295). -/
def sm2Decrypt (d : Nat) (c : List Byte) : Option (List Byte) :=
  let x := beNat (sliceB c 1 32); let y := beNat (sliceB c 33 32)
  let c3 := sliceB c 65 32; let c2 := c.drop 97
  if decide (c.getD 0 0 = 4) && onCurve x y then
    match ptMul 256 d (some (x, y)) with
    | none => none
    | some (x2, y2) =>
      let k := sm2Kdf (c2.length / 32 + 1) 1 (beBytes 32 x2 ++ beBytes 32 y2)
      let m := List.zipWith (fun a b : Byte => a ^^^ b) c2 k
      if sm3 (beBytes 32 x2 ++ m ++ beBytes 32 y2) = c3 then some m else none
  else none

/-! ### Cyclic redundancy checks -/

/-- `n` steps of a left-shifting CRC of 64 bits. -/
def crc64Bits (n : Nat) (c : BitVec 64) : BitVec 64 :=
  match n with
  | 0 => c
  | k + 1 => crc64Bits k (if c.getLsbD 63 then (c <<< 1) ^^^ 0x42F0E1EBA9EA3693 else c <<< 1)

/-- CRC-64 with the ECMA-182 polynomial, register from all ones, each byte taken most
significant bit first, the result inverted (R216). -/
def crc64 (m : List Byte) : BitVec 64 :=
  ~~~ (m.foldl (fun c b => crc64Bits 8 (c ^^^ BitVec.ofNat 64 (b.toNat * 2 ^ 56))) (BitVec.allOnes 64))

/-- `n` steps of the reflected CRC-32C. -/
def crc32cBits (n : Nat) (c : BitVec 32) : BitVec 32 :=
  match n with
  | 0 => c
  | k + 1 => crc32cBits k (if c.getLsbD 0 then (c >>> 1) ^^^ 0x82F63B78 else c >>> 1)

/-- CRC-32C in the reflected form of RFC 3720 (R306). -/
def crc32c (m : List Byte) : BitVec 32 :=
  ~~~ (m.foldl (fun c b => crc32cBits 8 (c ^^^ b.zeroExtend 32)) (BitVec.allOnes 32))

/-- `n` steps of the plain CRC-32C. -/
def crc32pBits (n : Nat) (c : BitVec 32) : BitVec 32 :=
  match n with
  | 0 => c
  | k + 1 => crc32pBits k (if c.getLsbD 31 then (c <<< 1) ^^^ 0x1EDC6F41 else c <<< 1)

/-- CRC-32C without reflection, most significant bit first (R242). -/
def crc32p (m : List Byte) : BitVec 32 :=
  ~~~ (m.foldl (fun c b => crc32pBits 8 (c ^^^ BitVec.ofNat 32 (b.toNat * 2 ^ 24))) (BitVec.allOnes 32))

end Sys2Proof.Machine
end

