-- ==== Sys2Proof/Config.lean ====
section
/-! DEFINITION.
The free values of the model: values the spec leaves open, or that come from a computation the
spec takes from another document.  Each is an opaque constant without a body, so nothing in Lean
can evaluate it or prove anything of it. -/

namespace Sys2Proof.Config

/-- UNVERIFIED (log 3). What a computational instruction of the Deckai Architecture Reference writes to its general
destinations (R2): a function of its opcode byte, OPS field and immediate and of the values of its general, vector and
predicate sources; the last argument counts the destinations. -/
opaque deckai : Nat → Nat → Word → List Word → List Line → List Bool → Nat → Word
/-- UNVERIFIED (log 3). What it writes to its vector destinations (R2). -/
opaque deckaiVec : Nat → Nat → Word → List Word → List Line → List Bool → Nat → Line
/-- UNVERIFIED (log 3). What it writes to its predicate destinations (R2). -/
opaque deckaiPred : Nat → Nat → Word → List Word → List Line → List Bool → Nat → Bool
/-- A fresh unspecified value per use, by counter (log 4). -/
opaque freeValue : Nat → Word
/-- The package random source (R285, R296, R447, R588), one draw per counter value (log 5). -/
opaque random : Nat → BitVec 512
/-- What a line decrypts to under a seal other than the one it was written under
(R300, R306, Table 9-10): unrelated data.  Arguments: stored data, a code of the seal it was
written under, a code of the seal it is read under (log 6). -/
opaque garble : Line → Nat → Nat → Line
/-- The ciphertext of a line under a seal, as it leaves on a memory device's wires (R27, R283): the data and a code of the
seal (log 6). -/
opaque cipher : Line → Nat → Line
/-- The payload length in bytes of the tier-internal compressed form of a frame's 64 lines,
poisoned lines taken as zeros (R263, R306; the format is not architectural, log 7). -/
opaque blobPayload : List Line → Nat
/-- The CRC-32C of the tier-internal payload of a frame's 64 lines (R306, log 7). -/
opaque blobCrc : List Line → BitVec 32
/-- The output bytes of a service compression: FMT, LEVEL, WLOG, FLAGS, dictionary, input
(R307–R309, log 8). -/
opaque compress : Nat → Nat → Nat → Nat → List Byte → List Byte → List Byte
/-- The outcome of a service decompression: FMT, dictionary, input; the DETAIL code of Table 9-8
(0 when the stream is good), the input bytes consumed and the output (R307–R311, log 8). -/
opaque decompress : Nat → List Byte → List Byte → Nat × Nat × List Byte
/-- The unspecified contents a failed service command leaves in its destination (R311). -/
opaque failedOutput : List Byte → Nat → Byte
/-- The 4,032 bytes of non-architectural state of a service-instance image (R421), as a function
of a code of the saved state (log 9). -/
opaque imageState : List Nat → Nat → Byte
/-- Whether the state bytes of an image that this package did not make pass the package's own consistency checks (R422,
log 9). -/
opaque imageOk : List Byte → Bool
/-- The bytes of a Lend function's identity, health and event records that no rule gives, by mailbox
opcode and byte (R380, log 28). -/
opaque lendField : Nat → Nat → Byte
/-- The placement of a channel address on its DRAM devices (R326: not architectural): channel,
channel address; the packed RANK, SUB, BG, BANK, ROW, COL fields of MC_ERRLOG0 (log 10). -/
opaque dramPlace : Nat → Nat → BitVec 59
/-- The content of the slots of a flit that carries a message (R217: the encoding is not architectural), by a
counter of the messages sent (log 26). -/
opaque slotBits : Nat → BitVec 896
/-- What a received slot says of itself (R217, R225: the encoding is not architectural): the class of its message and
whether its credit came from the shared pool (log 26). -/
opaque slotClass : BitVec 128 → Nat × Bool
/-- The burst tag and its USE that a received slot names, if it is the slot of a message whose data travels in a burst
(R241, R243; log 26). -/
opaque slotTag : BitVec 128 → Option (BitVec 6 × BitVec 4)

end Sys2Proof.Config
end

