-- ==== Sys2Proof/Machine/SMap.lean ====
section
/-! DEFINITION.
Sparse maps: lists of key and value in one canonical form (keys strictly rising, no entry equal to
the default of its key), so that equal maps are equal data. -/

namespace Sys2Proof.Machine

/-- A sparse map from natural keys; a key that is not listed holds the map's default. -/
abbrev SMap (α : Type) := List (Nat × α)

/-- The value at a key, `d k` where the key is not listed. -/
def SMap.get {α : Type} (d : Nat → α) (m : SMap α) (k : Nat) : α :=
  match m with
  | [] => d k
  | (j, v) :: r => if j = k then v else SMap.get d r k

/-- The value at a key if it is listed. -/
def SMap.find {α : Type} (m : SMap α) (k : Nat) : Option α :=
  match m with
  | [] => none
  | (j, v) :: r => if j = k then some v else SMap.find r k

/-- Remove a key. -/
def SMap.del {α : Type} (m : SMap α) (k : Nat) : SMap α := m.filter (fun p => p.1 ≠ k)

/-- Insert an entry before the first larger key. -/
def SMap.ins {α : Type} (m : SMap α) (k : Nat) (v : α) : SMap α :=
  match m with
  | [] => [(k, v)]
  | (j, w) :: r => if k < j then (k, v) :: (j, w) :: r else (j, w) :: SMap.ins r k v

/-- Write a value; writing the default removes the entry. -/
def SMap.put {α : Type} [DecidableEq α] (d : Nat → α) (m : SMap α) (k : Nat) (v : α) : SMap α :=
  if v = d k then m.del k else (m.del k).ins k v

/-- Write a value into a map whose keys mean presence (no default). -/
def SMap.set {α : Type} (m : SMap α) (k : Nat) (v : α) : SMap α := (m.del k).ins k v

/-- Keys strictly rising from `lo`. -/
def SMap.risesFrom {α : Type} : Nat → SMap α → Bool
  | _, [] => true
  | lo, (k, _) :: r => decide (lo ≤ k) && SMap.risesFrom (k + 1) r

/-- The canonical form. -/
def SMap.wf {α : Type} [DecidableEq α] (d : Nat → α) (m : SMap α) : Bool :=
  SMap.risesFrom 0 m && m.all (fun p => decide (p.2 ≠ d p.1))

end Sys2Proof.Machine
end

