-- ==== Sys2Proof/Machine/Regs.lean ====
section
/-! DEFINITION.
The registers of the Package Control Space (spec/20, R9–R15, R569–R574): every register definition
of the chapters, its address, its access masks and its reset value, and the names of its fields. -/

namespace Sys2Proof.Machine

/-- A field of a register word: its lowest bit and its width (R6). -/
structure Fld where
  lo : Nat
  w  : Nat
  deriving DecidableEq, Repr

/-- The value of a field. -/
def Fld.get (f : Fld) (v : Word) : Nat := (v.toNat >>> f.lo) % 2 ^ f.w

/-- A one-bit field as a Boolean. -/
def Fld.on (f : Fld) (v : Word) : Bool := decide (f.get v ≠ 0)

/-- The bits of a field. -/
def Fld.mask (f : Fld) : Word := BitVec.ofNat 64 ((2 ^ f.w - 1) <<< f.lo)

/-- A word with a field replaced. -/
def Fld.put (f : Fld) (v : Word) (n : Nat) : Word :=
  (v &&& ~~~ f.mask) ||| (BitVec.ofNat 64 ((n % 2 ^ f.w) <<< f.lo))

/-- The reset domains of Table 0-2. -/
inductive Dom where
  | cold | warm | die | block
  deriving DecidableEq, Repr

/-- A register definition: which kind of die, its blocks, its offsets, its reset domain, the bits
of each access code (Table 0-1), its LOCK bit and its reset value. Bits in no mask are RO, WO or
RSV and keep their value on a write. -/
structure RegDef where
  name   : String
  iod    : Bool
  block  : Nat
  blocks : Nat
  off    : Nat
  stride : Nat
  count  : Nat
  dom    : Dom
  rw     : Nat := 0
  w1c    : Nat := 0
  w1s    : Nat := 0
  rwl    : Nat := 0
  rws    : Nat := 0
  lock   : Nat := 0
  reset  : Nat := 0
  deriving DecidableEq, Repr

/-- The address of a register as an offset in the space (R9). -/
def pcsKey (die block off : Nat) : Nat := (die <<< 22) + (block <<< 14) + off

/-- The die field of an address (R9). -/
def pcsDie (k : Nat) : Nat := k >>> 22
/-- The block field of an address (R9). -/
def pcsBlock (k : Nat) : Nat := (k >>> 14) % 256
/-- The offset field of an address (R9). -/
def pcsOff (k : Nat) : Nat := k % 16384

/-- The bits of a field of width `w` at `lo`. -/
def mk (lo w : Nat) : Nat := (2 ^ w - 1) <<< lo

/-- Address of SCL_LOCALCAP. -/
def kSclLocalcap (die : Nat) : Nat := pcsKey die 0x30 0x0
/-- Address of MGT_IODCAP. -/
def kMgtIodcap : Nat := pcsKey 15 0x1 0x100
/-- Address of SCL_PEERCAP. -/
def kSclPeercap (b : Nat) : Nat := pcsKey 15 (0x30 + b) 0x8
/-- Address of SCL_LINKCAP. -/
def kSclLinkcap (b : Nat) : Nat := pcsKey 15 (0x30 + b) 0x10
/-- Address of MGT_EFFCAP. -/
def kMgtEffcap : Nat := pcsKey 15 0x1 0x108
/-- Address of MGT_CAPMASK. -/
def kMgtCapmask : Nat := pcsKey 15 0x1 0x110
/-- Address of CORE_ID. -/
def kCoreId (core : Nat) : Nat := pcsKey (core / 18) (0x0 + core % 18) 0x0
/-- Address of CORE_STOP. -/
def kCoreStop (core : Nat) : Nat := pcsKey (core / 18) (0x0 + core % 18) 0x8
/-- Address of IOTU_CTL. -/
def kIotuCtl : Nat := pcsKey 15 0x48 0x0
/-- Address of IOTU_DCTBASE. -/
def kIotuDctbase (i : Nat) : Nat := pcsKey 15 0x48 (0x100 + 8 * i)
/-- Address of IOTU_SICTBASE. -/
def kIotuSictbase : Nat := pcsKey 15 0x48 0x140
/-- Address of IOTU_FSTAT. -/
def kIotuFstat : Nat := pcsKey 15 0x48 0x200
/-- Address of IOTU_FLOGA. -/
def kIotuFloga : Nat := pcsKey 15 0x48 0x210
/-- Address of IOTU_FLOGB. -/
def kIotuFlogb : Nat := pcsKey 15 0x48 0x218
/-- Address of L1C_CTL. -/
def kL1cCtl (core : Nat) : Nat := pcsKey (core / 18) (0x40 + core % 18) 0x0
/-- Address of L1C_LFSR. -/
def kL1cLfsr (core : Nat) : Nat := pcsKey (core / 18) (0x40 + core % 18) 0x8
/-- Address of L2C_CTL. -/
def kL2cCtl (core : Nat) : Nat := pcsKey (core / 18) (0x58 + core % 18) 0x0
/-- Address of L3C_LOCK. -/
def kL3cLock (slice : Nat) : Nat := pcsKey (slice / 16) (0x70 + slice % 16) 0x0
/-- Address of L3C_LFSR. -/
def kL3cLfsr (slice : Nat) : Nat := pcsKey (slice / 16) (0x70 + slice % 16) 0x8
/-- Address of HA_GCTL. -/
def kHaGctl : Nat := pcsKey 15 0x80 0x0
/-- Address of HA_GSTAT. -/
def kHaGstat : Nat := pcsKey 15 0x80 0x8
/-- Address of HA_DDREC0. -/
def kHaDdrec0 : Nat := pcsKey 15 0x80 0x10
/-- Address of HA_DDREC1. -/
def kHaDdrec1 : Nat := pcsKey 15 0x80 0x18
/-- Address of HA_DDREC2. -/
def kHaDdrec2 : Nat := pcsKey 15 0x80 0x20
/-- Address of DIR_STAT. -/
def kDirStat (b : Nat) : Nat := pcsKey 15 (0xa0 + b) 0x0
/-- Address of DIR_LFSR. -/
def kDirLfsr (b : Nat) : Nat := pcsKey 15 (0xa0 + b) 0x8
/-- Address of SCL_CTL. -/
def kSclCtl (e : LinkEnd) : Nat := pcsKey (if e.iod then 15 else e.link) (if e.iod then 0x30 + e.link else 0x30) 0x20
/-- Address of SCL_SPLIT. -/
def kSclSplit (b : Nat) : Nat := pcsKey 15 (0x30 + b) 0x28
/-- Address of SCL_STAT. -/
def kSclStat (e : LinkEnd) : Nat := pcsKey (if e.iod then 15 else e.link) (if e.iod then 0x30 + e.link else 0x30) 0x30
/-- Address of SCL_UPMASK. -/
def kSclUpmask (e : LinkEnd) : Nat := pcsKey (if e.iod then 15 else e.link) (if e.iod then 0x30 + e.link else 0x30) 0x40
/-- Address of SCL_DNMASK. -/
def kSclDnmask (e : LinkEnd) : Nat := pcsKey (if e.iod then 15 else e.link) (if e.iod then 0x30 + e.link else 0x30) 0x48
/-- Address of SCL_SPMASK. -/
def kSclSpmask (e : LinkEnd) : Nat := pcsKey (if e.iod then 15 else e.link) (if e.iod then 0x30 + e.link else 0x30) 0x50
/-- Address of SCL_CREDIT. -/
def kSclCredit (e : LinkEnd) : Nat := pcsKey (if e.iod then 15 else e.link) (if e.iod then 0x30 + e.link else 0x30) 0x60
/-- Address of SCL_PM. -/
def kSclPm (e : LinkEnd) : Nat := pcsKey (if e.iod then 15 else e.link) (if e.iod then 0x30 + e.link else 0x30) 0x70
/-- Address of SCL_WDLOG0. -/
def kSclWdlog0 (b : Nat) : Nat := pcsKey 15 (0x30 + b) 0x80
/-- Address of SCL_WDLOG1. -/
def kSclWdlog1 (b : Nat) : Nat := pcsKey 15 (0x30 + b) 0x88
/-- Address of SCL_WDLOG2. -/
def kSclWdlog2 (b : Nat) : Nat := pcsKey 15 (0x30 + b) 0x90
/-- Address of ENL_CTL. -/
def kEnlCtl : Nat := pcsKey 15 0x50 0x0
/-- Address of ENL_HEAT. -/
def kEnlHeat : Nat := pcsKey 15 0x50 0x8
/-- Address of ENL_STAT. -/
def kEnlStat : Nat := pcsKey 15 0x50 0x10
/-- Address of ENL_T0. -/
def kEnlT0 : Nat := pcsKey 15 0x50 0x20
/-- Address of ENL_T1TOTAL. -/
def kEnlT1total : Nat := pcsKey 15 0x50 0x28
/-- Address of ENL_T1FREE. -/
def kEnlT1free : Nat := pcsKey 15 0x50 0x30
/-- Address of ENL_T2. -/
def kEnlT2 : Nat := pcsKey 15 0x50 0x38
/-- Address of ENL_OVH. -/
def kEnlOvh : Nat := pcsKey 15 0x50 0x40
/-- Address of ENL_PINLIM. -/
def kEnlPinlim : Nat := pcsKey 15 0x50 0x48
/-- Address of ENL_EVAC. -/
def kEnlEvac : Nat := pcsKey 15 0x50 0x50
/-- Address of CDN_CTL. -/
def kCdnCtl : Nat := pcsKey 15 0x51 0x0
/-- Address of CDN_STAT. -/
def kCdnStat : Nat := pcsKey 15 0x51 0x8
/-- Address of DKS_CTL. -/
def kDksCtl : Nat := pcsKey 15 0x52 0x0
/-- Address of DKS_STAT. -/
def kDksStat : Nat := pcsKey 15 0x52 0x8
/-- Address of DKS_DROP. -/
def kDksDrop : Nat := pcsKey 15 0x52 0x10
/-- Address of DKS_REFLOG0. -/
def kDksReflog0 : Nat := pcsKey 15 0x52 0x20
/-- Address of DKS_REFLOG1. -/
def kDksReflog1 : Nat := pcsKey 15 0x52 0x28
/-- Address of DKS_ROTSTAT. -/
def kDksRotstat (i : Nat) : Nat := pcsKey 15 0x52 (0x100 + 8 * i)
/-- Address of MC_CTL. -/
def kMcCtl (b : Nat) : Nat := pcsKey 15 (0x60 + b) 0x0
/-- Address of MC_STAT. -/
def kMcStat (b : Nat) : Nat := pcsKey 15 (0x60 + b) 0x8
/-- Address of MC_RTCTL. -/
def kMcRtctl (b : Nat) : Nat := pcsKey 15 (0x60 + b) 0x10
/-- Address of MC_SCRUB. -/
def kMcScrub (b : Nat) : Nat := pcsKey 15 (0x60 + b) 0x18
/-- Address of MC_REMEAS. -/
def kMcRemeas (b : Nat) : Nat := pcsKey 15 (0x60 + b) 0x20
/-- Address of MC_FOCUS. -/
def kMcFocus (b i : Nat) : Nat := pcsKey 15 (0x60 + b) (0x400 + 8 * i)
/-- Address of MC_ERRLOG0. -/
def kMcErrlog0 (b : Nat) : Nat := pcsKey 15 (0x60 + b) 0x100
/-- Address of MC_ERRLOG1. -/
def kMcErrlog1 (b : Nat) : Nat := pcsKey 15 (0x60 + b) 0x108
/-- Address of FIO_GCFG. -/
def kFioGcfg (b : Nat) : Nat := pcsKey 15 (0x10 + b) 0x0
/-- Address of FIO_PSTAT. -/
def kFioPstat (b i : Nat) : Nat := pcsKey 15 (0x10 + b) (0x100 + 8 * i)
/-- Address of FIO_FCTL. -/
def kFioFctl (b : Nat) : Nat := pcsKey 15 (0x10 + b) 0x200
/-- Address of FIO_T1ACT. -/
def kFioT1act : Nat := pcsKey 15 0x10 0x300
/-- Address of FIO_XSTAT. -/
def kFioXstat (b : Nat) : Nat := pcsKey 15 (0x10 + b) 0x400
/-- Address of FWT_APER. -/
def kFwtAper : Nat := pcsKey 15 0x18 0x0
/-- Address of FWT_SEL. -/
def kFwtSel : Nat := pcsKey 15 0x18 0x8
/-- Address of FWT_DATA0. -/
def kFwtData0 : Nat := pcsKey 15 0x18 0x10
/-- Address of FWT_DATA1. -/
def kFwtData1 : Nat := pcsKey 15 0x18 0x18
/-- Address of FWT_STAT. -/
def kFwtStat : Nat := pcsKey 15 0x18 0x20
/-- Address of LND_CTL. -/
def kLndCtl (b : Nat) : Nat := pcsKey 15 (0x1a + b) 0x0
/-- Address of LND_STAT. -/
def kLndStat (b : Nat) : Nat := pcsKey 15 (0x1a + b) 0x8
/-- Address of LND_BUDGET. -/
def kLndBudget (b : Nat) : Nat := pcsKey 15 (0x1a + b) 0x10
/-- Address of LND_RANGEA. -/
def kLndRangea (b i : Nat) : Nat := pcsKey 15 (0x1a + b) (0x100 + 16 * i)
/-- Address of LND_RANGEB. -/
def kLndRangeb (b i : Nat) : Nat := pcsKey 15 (0x1a + b) (0x108 + 16 * i)
/-- Address of ZCI_CTL. -/
def kZciCtl : Nat := pcsKey 15 0x1c 0x0
/-- Address of ZCI_QCTBASE. -/
def kZciQctbase : Nat := pcsKey 15 0x1c 0x8
/-- Address of ZCI_DBWIN. -/
def kZciDbwin : Nat := pcsKey 15 0x1c 0x10
/-- Address of ZCI_QSTAT. -/
def kZciQstat (q : Nat) : Nat := pcsKey 15 (0xC0 + q / 256) (8 * (q % 256))
/-- Address of SVI_GSTAT. -/
def kSviGstat : Nat := pcsKey 15 0x1d 0x0
/-- Address of WLD_CTL. -/
def kWldCtl : Nat := pcsKey 15 0x2 0x0
/-- Address of WLD_LIFE. -/
def kWldLife : Nat := pcsKey 15 0x2 0x8
/-- Address of WLD_CHAL. -/
def kWldChal : Nat := pcsKey 15 0x2 0x10
/-- Address of WLD_WDOG. -/
def kWldWdog : Nat := pcsKey 15 0x2 0x18
/-- Address of WLD_RSTCAUSE. -/
def kWldRstcause : Nat := pcsKey 15 0x2 0x20
/-- Address of WLD_SEAL. -/
def kWldSeal : Nat := pcsKey 15 0x2 0x28
/-- Address of WLD_REFLOG0. -/
def kWldReflog0 : Nat := pcsKey 15 0x2 0x30
/-- Address of WLD_REFLOG1. -/
def kWldReflog1 : Nat := pcsKey 15 0x2 0x38
/-- Address of WLD_HOLDLOG. -/
def kWldHoldlog : Nat := pcsKey 15 0x2 0x40
/-- Address of WLD_PCSREF. -/
def kWldPcsref : Nat := pcsKey 15 0x2 0x48
/-- Address of WLD_DRRANGE. -/
def kWldDrrange (i : Nat) : Nat := pcsKey 15 0x2 (0x100 + 8 * i)
/-- Address of WLD_HOLD. -/
def kWldHold (i w : Nat) : Nat := pcsKey 15 0x2 (0x200 + 32 * i + 8 * w)
/-- Address of WLD_EHOLD. -/
def kWldEhold (i w : Nat) : Nat := pcsKey 15 0x2 (0x400 + 32 * i + 8 * w)
/-- Address of MGT_BOOT. -/
def kMgtBoot : Nat := pcsKey 15 0x1 0x0
/-- Address of XRC_XR. -/
def kXrcXr (n w : Nat) : Nat := pcsKey 15 0x3 (32 * n + 8 * w)
/-- Address of XRC_STAT. -/
def kXrcStat : Nat := pcsKey 15 0x3 0x400
/-- Address of SSM_CTL. -/
def kSsmCtl : Nat := pcsKey 15 0x4 0x0
/-- Address of SSM_ARB. -/
def kSsmArb : Nat := pcsKey 15 0x4 0x8
/-- Address of SSM_PWRCTL. -/
def kSsmPwrctl : Nat := pcsKey 15 0x4 0x10
/-- Address of SSM_BANKPWR. -/
def kSsmBankpwr (i : Nat) : Nat := pcsKey 15 0x4 (0x20 + 8 * i)
/-- Address of SSM_BANKSTAT. -/
def kSsmBankstat (i : Nat) : Nat := pcsKey 15 0x4 (0x30 + 8 * i)
/-- Address of SSM_REPAIR. -/
def kSsmRepair (i : Nat) : Nat := pcsKey 15 0x4 (0x40 + 8 * i)
/-- Address of SSM_ERR. -/
def kSsmErr : Nat := pcsKey 15 0x4 0x50
/-- Address of PWR_VF. -/
def kPwrVf (die i : Nat) : Nat := pcsKey die 0x20 (0x0 + 8 * i)
/-- Address of PWR_DCTL. -/
def kPwrDctl (die : Nat) : Nat := pcsKey die 0x20 0x40
/-- Address of PWR_DSTAT. -/
def kPwrDstat (die : Nat) : Nat := pcsKey die 0x20 0x48
/-- Address of PWR_CCTL. -/
def kPwrCctl (core : Nat) : Nat := pcsKey (core / 18) 0x20 (0x100 + 8 * (core % 18))
/-- Address of CLK_CDCTL. -/
def kClkCdctl (die : Nat) : Nat := pcsKey die 0x21 0x0
/-- Address of PWR_LIMIT. -/
def kPwrLimit : Nat := pcsKey 15 0x5 0x0
/-- Address of PWR_PKG. -/
def kPwrPkg : Nat := pcsKey 15 0x5 0x8
/-- Address of PWR_LASTWAKE0. -/
def kPwrLastwake0 : Nat := pcsKey 15 0x5 0x10
/-- Address of PWR_LASTWAKE1. -/
def kPwrLastwake1 : Nat := pcsKey 15 0x5 0x18
/-- Address of PWR_IODV. -/
def kPwrIodv : Nat := pcsKey 15 0x5 0x20
/-- Address of GRC_SENS. -/
def kGrcSens (die i : Nat) : Nat := pcsKey die (if die = 15 then 0x7 else 0x22) (0x100 + 8 * i)
/-- Address of GRC_CTL. -/
def kGrcCtl : Nat := pcsKey 15 0x7 0x0
/-- Address of GRC_BRK. -/
def kGrcBrk : Nat := pcsKey 15 0x7 0x8
/-- Address of RAS_CTL. -/
def kRasCtl : Nat := pcsKey 15 0x8 0x0
/-- Address of RAS_LOGSTAT. -/
def kRasLogstat : Nat := pcsKey 15 0x8 0x8
/-- Address of RAS_NEXTSEQ. -/
def kRasNextseq : Nat := pcsKey 15 0x8 0x10
/-- Address of CSH_STAT. -/
def kCshStat : Nat := pcsKey 15 0xa 0x0
/-- Address of CSH_HEAD. -/
def kCshHead : Nat := pcsKey 15 0xa 0x8
/-- Address of TST_STAT. -/
def kTstStat : Nat := pcsKey 15 0xb 0x0
/-- Address of AGT_CTL. -/
def kAgtCtl : Nat := pcsKey 15 0xc 0x0
/-- Address of AGT_SLOT. -/
def kAgtSlot (i : Nat) : Nat := pcsKey 15 0xc (0x100 + 8 * i)

/-- SCL_LOCALCAP.KIND. -/
def fSclLocalcap_KIND : Fld := ⟨60, 4⟩
/-- SCL_LOCALCAP.STEP_MAJOR. -/
def fSclLocalcap_STEP_MAJOR : Fld := ⟨56, 4⟩
/-- SCL_LOCALCAP.STEP_MINOR. -/
def fSclLocalcap_STEP_MINOR : Fld := ⟨52, 4⟩
/-- SCL_LOCALCAP.FORMAT. -/
def fSclLocalcap_FORMAT : Fld := ⟨48, 4⟩
/-- SCL_LOCALCAP.PKG_FEAT. -/
def fSclLocalcap_PKG_FEAT : Fld := ⟨16, 16⟩
/-- SCL_LOCALCAP.LINK_FEAT. -/
def fSclLocalcap_LINK_FEAT : Fld := ⟨0, 16⟩
/-- MGT_IODCAP.KIND. -/
def fMgtIodcap_KIND : Fld := ⟨60, 4⟩
/-- MGT_IODCAP.STEP_MAJOR. -/
def fMgtIodcap_STEP_MAJOR : Fld := ⟨56, 4⟩
/-- MGT_IODCAP.STEP_MINOR. -/
def fMgtIodcap_STEP_MINOR : Fld := ⟨52, 4⟩
/-- MGT_IODCAP.FORMAT. -/
def fMgtIodcap_FORMAT : Fld := ⟨48, 4⟩
/-- MGT_IODCAP.PKG_FEAT. -/
def fMgtIodcap_PKG_FEAT : Fld := ⟨16, 16⟩
/-- MGT_IODCAP.LINK_FEAT. -/
def fMgtIodcap_LINK_FEAT : Fld := ⟨0, 16⟩
/-- SCL_PEERCAP.KIND. -/
def fSclPeercap_KIND : Fld := ⟨60, 4⟩
/-- SCL_PEERCAP.STEP_MAJOR. -/
def fSclPeercap_STEP_MAJOR : Fld := ⟨56, 4⟩
/-- SCL_PEERCAP.STEP_MINOR. -/
def fSclPeercap_STEP_MINOR : Fld := ⟨52, 4⟩
/-- SCL_PEERCAP.FORMAT. -/
def fSclPeercap_FORMAT : Fld := ⟨48, 4⟩
/-- SCL_PEERCAP.PKG_FEAT. -/
def fSclPeercap_PKG_FEAT : Fld := ⟨16, 16⟩
/-- SCL_PEERCAP.LINK_FEAT. -/
def fSclPeercap_LINK_FEAT : Fld := ⟨0, 16⟩
/-- SCL_LINKCAP.KIND. -/
def fSclLinkcap_KIND : Fld := ⟨60, 4⟩
/-- SCL_LINKCAP.STEP_MAJOR. -/
def fSclLinkcap_STEP_MAJOR : Fld := ⟨56, 4⟩
/-- SCL_LINKCAP.STEP_MINOR. -/
def fSclLinkcap_STEP_MINOR : Fld := ⟨52, 4⟩
/-- SCL_LINKCAP.FORMAT. -/
def fSclLinkcap_FORMAT : Fld := ⟨48, 4⟩
/-- SCL_LINKCAP.PKG_FEAT. -/
def fSclLinkcap_PKG_FEAT : Fld := ⟨16, 16⟩
/-- SCL_LINKCAP.LINK_FEAT. -/
def fSclLinkcap_LINK_FEAT : Fld := ⟨0, 16⟩
/-- MGT_EFFCAP.KIND. -/
def fMgtEffcap_KIND : Fld := ⟨60, 4⟩
/-- MGT_EFFCAP.STEP_MAJOR. -/
def fMgtEffcap_STEP_MAJOR : Fld := ⟨56, 4⟩
/-- MGT_EFFCAP.STEP_MINOR. -/
def fMgtEffcap_STEP_MINOR : Fld := ⟨52, 4⟩
/-- MGT_EFFCAP.FORMAT. -/
def fMgtEffcap_FORMAT : Fld := ⟨48, 4⟩
/-- MGT_EFFCAP.PKG_FEAT. -/
def fMgtEffcap_PKG_FEAT : Fld := ⟨16, 16⟩
/-- MGT_EFFCAP.LINK_FEAT. -/
def fMgtEffcap_LINK_FEAT : Fld := ⟨0, 16⟩
/-- MGT_CAPMASK.PKG_FEAT. -/
def fMgtCapmask_PKG_FEAT : Fld := ⟨16, 16⟩
/-- CORE_ID.RETIRED. -/
def fCoreId_RETIRED : Fld := ⟨24, 1⟩
/-- CORE_ID.SOCKET. -/
def fCoreId_SOCKET : Fld := ⟨20, 2⟩
/-- CORE_ID.DIE. -/
def fCoreId_DIE : Fld := ⟨16, 4⟩
/-- CORE_ID.LOCAL. -/
def fCoreId_LOCAL : Fld := ⟨8, 5⟩
/-- CORE_ID.CORE. -/
def fCoreId_CORE : Fld := ⟨0, 8⟩
/-- CORE_STOP.WORLD. -/
def fCoreStop_WORLD : Fld := ⟨10, 1⟩
/-- CORE_STOP.LEVEL. -/
def fCoreStop_LEVEL : Fld := ⟨8, 2⟩
/-- CORE_STOP.REASON. -/
def fCoreStop_REASON : Fld := ⟨0, 8⟩
/-- IOTU_CTL.EN. -/
def fIotuCtl_EN : Fld := ⟨16, 1⟩
/-- IOTU_CTL.FVEC. -/
def fIotuCtl_FVEC : Fld := ⟨0, 16⟩
/-- IOTU_DCTBASE.BASE. -/
def fIotuDctbase_BASE : Fld := ⟨21, 31⟩
/-- IOTU_DCTBASE.V. -/
def fIotuDctbase_V : Fld := ⟨0, 1⟩
/-- IOTU_SICTBASE.BASE. -/
def fIotuSictbase_BASE : Fld := ⟨16, 36⟩
/-- IOTU_SICTBASE.V. -/
def fIotuSictbase_V : Fld := ⟨0, 1⟩
/-- IOTU_FSTAT.POP. -/
def fIotuFstat_POP : Fld := ⟨63, 1⟩
/-- IOTU_FSTAT.LOST. -/
def fIotuFstat_LOST : Fld := ⟨16, 16⟩
/-- IOTU_FSTAT.PEND. -/
def fIotuFstat_PEND : Fld := ⟨8, 1⟩
/-- IOTU_FSTAT.COUNT. -/
def fIotuFstat_COUNT : Fld := ⟨0, 5⟩
/-- IOTU_FLOGA.ADDR. -/
def fIotuFloga_ADDR : Fld := ⟨0, 64⟩
/-- IOTU_FLOGB.RID. -/
def fIotuFlogb_RID : Fld := ⟨32, 16⟩
/-- IOTU_FLOGB.SOURCE. -/
def fIotuFlogb_SOURCE : Fld := ⟨28, 4⟩
/-- IOTU_FLOGB.INSTANCE. -/
def fIotuFlogb_INSTANCE : Fld := ⟨16, 12⟩
/-- IOTU_FLOGB.SYN. -/
def fIotuFlogb_SYN : Fld := ⟨0, 12⟩
/-- L1C_CTL.VCEN. -/
def fL1cCtl_VCEN : Fld := ⟨2, 1⟩
/-- L1C_CTL.SBEN. -/
def fL1cCtl_SBEN : Fld := ⟨1, 1⟩
/-- L1C_CTL.PFEN. -/
def fL1cCtl_PFEN : Fld := ⟨0, 1⟩
/-- L1C_LFSR.ISTATE. -/
def fL1cLfsr_ISTATE : Fld := ⟨16, 16⟩
/-- L1C_LFSR.DSTATE. -/
def fL1cLfsr_DSTATE : Fld := ⟨0, 16⟩
/-- L2C_CTL.PFDIST. -/
def fL2cCtl_PFDIST : Fld := ⟨4, 2⟩
/-- L2C_CTL.PFEN. -/
def fL2cCtl_PFEN : Fld := ⟨0, 1⟩
/-- L3C_LOCK.REJ. -/
def fL3cLock_REJ : Fld := ⟨63, 1⟩
/-- L3C_LOCK.OWNER. -/
def fL3cLock_OWNER : Fld := ⟨24, 18⟩
/-- L3C_LOCK.WAYS. -/
def fL3cLock_WAYS : Fld := ⟨0, 16⟩
/-- L3C_LFSR.STATE. -/
def fL3cLfsr_STATE : Fld := ⟨0, 16⟩
/-- HA_GCTL.LOCK. -/
def fHaGctl_LOCK : Fld := ⟨63, 1⟩
/-- HA_GCTL.MEMTMO. -/
def fHaGctl_MEMTMO : Fld := ⟨32, 16⟩
/-- HA_GCTL.SNPTMO. -/
def fHaGctl_SNPTMO : Fld := ⟨16, 16⟩
/-- HA_GCTL.MODE. -/
def fHaGctl_MODE : Fld := ⟨0, 1⟩
/-- HA_GSTAT.DOWN. -/
def fHaGstat_DOWN : Fld := ⟨63, 1⟩
/-- HA_GSTAT.SWEEP. -/
def fHaGstat_SWEEP : Fld := ⟨52, 1⟩
/-- HA_GSTAT.LOSTSOCK. -/
def fHaGstat_LOSTSOCK : Fld := ⟨48, 4⟩
/-- HA_GSTAT.LOSTDIE. -/
def fHaGstat_LOSTDIE : Fld := ⟨32, 12⟩
/-- HA_DDREC0.VALID. -/
def fHaDdrec0_VALID : Fld := ⟨63, 1⟩
/-- HA_DDREC0.ORIGIN. -/
def fHaDdrec0_ORIGIN : Fld := ⟨32, 2⟩
/-- HA_DDREC0.MSGTYPE. -/
def fHaDdrec0_MSGTYPE : Fld := ⟨24, 8⟩
/-- HA_DDREC0.AGENT. -/
def fHaDdrec0_AGENT : Fld := ⟨16, 5⟩
/-- HA_DDREC0.SLICE. -/
def fHaDdrec0_SLICE : Fld := ⟨8, 5⟩
/-- HA_DDREC0.CAUSE. -/
def fHaDdrec0_CAUSE : Fld := ⟨0, 8⟩
/-- HA_DDREC1.LINE. -/
def fHaDdrec1_LINE : Fld := ⟨6, 46⟩
/-- HA_DDREC2.TIME. -/
def fHaDdrec2_TIME : Fld := ⟨0, 64⟩
/-- DIR_STAT.PROXY. -/
def fDirStat_PROXY : Fld := ⟨40, 20⟩
/-- DIR_STAT.PARKED. -/
def fDirStat_PARKED : Fld := ⟨32, 6⟩
/-- DIR_STAT.BUSY. -/
def fDirStat_BUSY : Fld := ⟨20, 9⟩
/-- DIR_STAT.VALID. -/
def fDirStat_VALID : Fld := ⟨0, 20⟩
/-- DIR_LFSR.STATE. -/
def fDirLfsr_STATE : Fld := ⟨0, 16⟩
/-- SCL_CTL.RETRAIN. -/
def fSclCtl_RETRAIN : Fld := ⟨63, 1⟩
/-- SCL_CTL.LEAKRT. -/
def fSclCtl_LEAKRT : Fld := ⟨32, 8⟩
/-- SCL_CTL.REPLIM. -/
def fSclCtl_REPLIM : Fld := ⟨24, 4⟩
/-- SCL_CTL.LOCKTMO. -/
def fSclCtl_LOCKTMO : Fld := ⟨16, 7⟩
/-- SCL_CTL.STREN. -/
def fSclCtl_STREN : Fld := ⟨0, 1⟩
/-- SCL_SPLIT.LOCK. -/
def fSclSplit_LOCK : Fld := ⟨63, 1⟩
/-- SCL_SPLIT.PKTDN. -/
def fSclSplit_PKTDN : Fld := ⟨8, 8⟩
/-- SCL_SPLIT.PKTUP. -/
def fSclSplit_PKTUP : Fld := ⟨0, 8⟩
/-- SCL_STAT.STATE. -/
def fSclStat_STATE : Fld := ⟨60, 4⟩
/-- SCL_STAT.PWR. -/
def fSclStat_PWR : Fld := ⟨58, 2⟩
/-- SCL_STAT.STRDISDN. -/
def fSclStat_STRDISDN : Fld := ⟨49, 1⟩
/-- SCL_STAT.STRDISUP. -/
def fSclStat_STRDISUP : Fld := ⟨48, 1⟩
/-- SCL_STAT.WDN. -/
def fSclStat_WDN : Fld := ⟨40, 8⟩
/-- SCL_STAT.PDN. -/
def fSclStat_PDN : Fld := ⟨32, 8⟩
/-- SCL_STAT.WUP. -/
def fSclStat_WUP : Fld := ⟨24, 8⟩
/-- SCL_STAT.PUP. -/
def fSclStat_PUP : Fld := ⟨16, 8⟩
/-- SCL_STAT.RETRAINS. -/
def fSclStat_RETRAINS : Fld := ⟨8, 8⟩
/-- SCL_UPMASK.GOOD. -/
def fSclUpmask_GOOD : Fld := ⟨0, 64⟩
/-- SCL_DNMASK.GOOD. -/
def fSclDnmask_GOOD : Fld := ⟨0, 64⟩
/-- SCL_SPMASK.DN. -/
def fSclSpmask_DN : Fld := ⟨4, 4⟩
/-- SCL_SPMASK.UP. -/
def fSclSpmask_UP : Fld := ⟨0, 4⟩
/-- SCL_CREDIT.SHAVAIL. -/
def fSclCredit_SHAVAIL : Fld := ⟨32, 10⟩
/-- SCL_CREDIT.RESDEF. -/
def fSclCredit_RESDEF : Fld := ⟨16, 5⟩
/-- SCL_CREDIT.SHDEF. -/
def fSclCredit_SHDEF : Fld := ⟨0, 10⟩
/-- SCL_PM.STRIDLE. -/
def fSclPm_STRIDLE : Fld := ⟨32, 16⟩
/-- SCL_PM.IDLE2. -/
def fSclPm_IDLE2 : Fld := ⟨16, 16⟩
/-- SCL_PM.LP2EN. -/
def fSclPm_LP2EN : Fld := ⟨1, 1⟩
/-- SCL_PM.LP1EN. -/
def fSclPm_LP1EN : Fld := ⟨0, 1⟩
/-- SCL_WDLOG0.VALID. -/
def fSclWdlog0_VALID : Fld := ⟨63, 1⟩
/-- SCL_WDLOG0.DIR. -/
def fSclWdlog0_DIR : Fld := ⟨62, 1⟩
/-- SCL_WDLOG0.CDSP. -/
def fSclWdlog0_CDSP : Fld := ⟨4, 4⟩
/-- SCL_WDLOG0.IODSP. -/
def fSclWdlog0_IODSP : Fld := ⟨0, 4⟩
/-- SCL_WDLOG1.IODMASK. -/
def fSclWdlog1_IODMASK : Fld := ⟨0, 64⟩
/-- SCL_WDLOG2.CDMASK. -/
def fSclWdlog2_CDMASK : Fld := ⟨0, 64⟩
/-- ENL_CTL.RESERVE. -/
def fEnlCtl_RESERVE : Fld := ⟨32, 32⟩
/-- ENL_CTL.EVSLOTS. -/
def fEnlCtl_EVSLOTS : Fld := ⟨24, 6⟩
/-- ENL_CTL.AUTOEVAC. -/
def fEnlCtl_AUTOEVAC : Fld := ⟨16, 1⟩
/-- ENL_CTL.SPILL. -/
def fEnlCtl_SPILL : Fld := ⟨1, 1⟩
/-- ENL_HEAT.DECAY. -/
def fEnlHeat_DECAY : Fld := ⟨32, 16⟩
/-- ENL_HEAT.IOEN. -/
def fEnlHeat_IOEN : Fld := ⟨4, 1⟩
/-- ENL_HEAT.RATE. -/
def fEnlHeat_RATE : Fld := ⟨0, 4⟩
/-- ENL_STAT.STARVED. -/
def fEnlStat_STARVED : Fld := ⟨63, 1⟩
/-- ENL_STAT.SLOTS. -/
def fEnlStat_SLOTS : Fld := ⟨48, 7⟩
/-- ENL_STAT.QCMD. -/
def fEnlStat_QCMD : Fld := ⟨32, 9⟩
/-- ENL_STAT.SAMPDROP. -/
def fEnlStat_SAMPDROP : Fld := ⟨0, 32⟩
/-- ENL_T0.FREE. -/
def fEnlT0_FREE : Fld := ⟨32, 32⟩
/-- ENL_T0.TOTAL. -/
def fEnlT0_TOTAL : Fld := ⟨0, 32⟩
/-- ENL_T1TOTAL.FRAMES. -/
def fEnlT1total_FRAMES : Fld := ⟨0, 34⟩
/-- ENL_T1FREE.FRAMES. -/
def fEnlT1free_FRAMES : Fld := ⟨0, 34⟩
/-- ENL_T2.UNITS. -/
def fEnlT2_UNITS : Fld := ⟨0, 40⟩
/-- ENL_OVH.FRAMES. -/
def fEnlOvh_FRAMES : Fld := ⟨0, 32⟩
/-- ENL_PINLIM.PINNED. -/
def fEnlPinlim_PINNED : Fld := ⟨32, 32⟩
/-- ENL_PINLIM.LIMIT. -/
def fEnlPinlim_LIMIT : Fld := ⟨0, 32⟩
/-- ENL_EVAC.ACTIVE. -/
def fEnlEvac_ACTIVE : Fld := ⟨63, 1⟩
/-- ENL_EVAC.STALL. -/
def fEnlEvac_STALL : Fld := ⟨62, 1⟩
/-- ENL_EVAC.DONE. -/
def fEnlEvac_DONE : Fld := ⟨61, 1⟩
/-- ENL_EVAC.TIER. -/
def fEnlEvac_TIER : Fld := ⟨52, 1⟩
/-- ENL_EVAC.SET. -/
def fEnlEvac_SET : Fld := ⟨32, 16⟩
/-- ENL_EVAC.REMAIN. -/
def fEnlEvac_REMAIN : Fld := ⟨0, 32⟩
/-- CDN_CTL.SVCDEC. -/
def fCdnCtl_SVCDEC : Fld := ⟨16, 5⟩
/-- CDN_CTL.SVCCMP. -/
def fCdnCtl_SVCCMP : Fld := ⟨8, 5⟩
/-- CDN_CTL.SVCEN. -/
def fCdnCtl_SVCEN : Fld := ⟨0, 1⟩
/-- CDN_STAT.SVCQ. -/
def fCdnStat_SVCQ : Fld := ⟨32, 16⟩
/-- CDN_STAT.CHKFAIL. -/
def fCdnStat_CHKFAIL : Fld := ⟨0, 32⟩
/-- DKS_CTL.ROTSLOTS. -/
def fDksCtl_ROTSLOTS : Fld := ⟨0, 5⟩
/-- DKS_STAT.ROTATING. -/
def fDksStat_ROTATING : Fld := ⟨48, 5⟩
/-- DKS_STAT.LOADED. -/
def fDksStat_LOADED : Fld := ⟨32, 15⟩
/-- DKS_STAT.REFUSED. -/
def fDksStat_REFUSED : Fld := ⟨0, 32⟩
/-- DKS_DROP.WBDROP. -/
def fDksDrop_WBDROP : Fld := ⟨0, 32⟩
/-- DKS_REFLOG0.VALID. -/
def fDksReflog0_VALID : Fld := ⟨63, 1⟩
/-- DKS_REFLOG0.REASON. -/
def fDksReflog0_REASON : Fld := ⟨61, 2⟩
/-- DKS_REFLOG0.WRITE. -/
def fDksReflog0_WRITE : Fld := ⟨60, 1⟩
/-- DKS_REFLOG0.DARKROOM. -/
def fDksReflog0_DARKROOM : Fld := ⟨59, 1⟩
/-- DKS_REFLOG0.KEYID. -/
def fDksReflog0_KEYID : Fld := ⟨32, 14⟩
/-- DKS_REFLOG1.LINE. -/
def fDksReflog1_LINE : Fld := ⟨6, 46⟩
/-- DKS_ROTSTAT.ACTIVE. -/
def fDksRotstat_ACTIVE : Fld := ⟨63, 1⟩
/-- DKS_ROTSTAT.KEYID. -/
def fDksRotstat_KEYID : Fld := ⟨36, 14⟩
/-- DKS_ROTSTAT.REMAIN. -/
def fDksRotstat_REMAIN : Fld := ⟨0, 34⟩
/-- MC_CTL.SBREF. -/
def fMcCtl_SBREF : Fld := ⟨1, 1⟩
/-- MC_STAT.STATE. -/
def fMcStat_STATE : Fld := ⟨61, 3⟩
/-- MC_STAT.PANIC. -/
def fMcStat_PANIC : Fld := ⟨60, 1⟩
/-- MC_STAT.ERASED. -/
def fMcStat_ERASED : Fld := ⟨52, 4⟩
/-- MC_STAT.OWED. -/
def fMcStat_OWED : Fld := ⟨48, 4⟩
/-- MC_STAT.RTQ. -/
def fMcStat_RTQ : Fld := ⟨32, 6⟩
/-- MC_STAT.RETRIES. -/
def fMcStat_RETRIES : Fld := ⟨0, 32⟩
/-- MC_RTCTL.AGE. -/
def fMcRtctl_AGE : Fld := ⟨0, 16⟩
/-- MC_SCRUB.HOURS. -/
def fMcScrub_HOURS : Fld := ⟨48, 16⟩
/-- MC_SCRUB.POS. -/
def fMcScrub_POS : Fld := ⟨0, 40⟩
/-- MC_REMEAS.SHIFT. -/
def fMcRemeas_SHIFT : Fld := ⟨32, 4⟩
/-- MC_REMEAS.PERIOD. -/
def fMcRemeas_PERIOD : Fld := ⟨0, 32⟩
/-- MC_FOCUS.WRVREF. -/
def fMcFocus_WRVREF : Fld := ⟨48, 7⟩
/-- MC_FOCUS.WRWIN. -/
def fMcFocus_WRWIN : Fld := ⟨40, 8⟩
/-- MC_FOCUS.WRDLY. -/
def fMcFocus_WRDLY : Fld := ⟨32, 8⟩
/-- MC_FOCUS.RDVREF. -/
def fMcFocus_RDVREF : Fld := ⟨16, 7⟩
/-- MC_FOCUS.RDWIN. -/
def fMcFocus_RDWIN : Fld := ⟨8, 8⟩
/-- MC_FOCUS.RDDLY. -/
def fMcFocus_RDDLY : Fld := ⟨0, 8⟩
/-- MC_ERRLOG0.VALID. -/
def fMcErrlog0_VALID : Fld := ⟨63, 1⟩
/-- MC_ERRLOG0.KIND. -/
def fMcErrlog0_KIND : Fld := ⟨60, 3⟩
/-- MC_ERRLOG0.RANK. -/
def fMcErrlog0_RANK : Fld := ⟨58, 2⟩
/-- MC_ERRLOG0.SUB. -/
def fMcErrlog0_SUB : Fld := ⟨57, 1⟩
/-- MC_ERRLOG0.DEVICE. -/
def fMcErrlog0_DEVICE : Fld := ⟨53, 4⟩
/-- MC_ERRLOG0.BG. -/
def fMcErrlog0_BG : Fld := ⟨50, 3⟩
/-- MC_ERRLOG0.BANK. -/
def fMcErrlog0_BANK : Fld := ⟨48, 2⟩
/-- MC_ERRLOG0.ROW. -/
def fMcErrlog0_ROW : Fld := ⟨30, 18⟩
/-- MC_ERRLOG0.COL. -/
def fMcErrlog0_COL : Fld := ⟨19, 11⟩
/-- MC_ERRLOG1.MA. -/
def fMcErrlog1_MA : Fld := ⟨6, 37⟩
/-- FIO_GCFG.LOCK. -/
def fFioGcfg_LOCK : Fld := ⟨63, 1⟩
/-- FIO_GCFG.PEER. -/
def fFioGcfg_PEER : Fld := ⟨32, 2⟩
/-- FIO_GCFG.BUSBASE. -/
def fFioGcfg_BUSBASE : Fld := ⟨24, 8⟩
/-- FIO_GCFG.BUSLIM. -/
def fFioGcfg_BUSLIM : Fld := ⟨16, 8⟩
/-- FIO_GCFG.CTOPOIS. -/
def fFioGcfg_CTOPOIS : Fld := ⟨12, 1⟩
/-- FIO_GCFG.BIF. -/
def fFioGcfg_BIF : Fld := ⟨8, 4⟩
/-- FIO_GCFG.ROLE. -/
def fFioGcfg_ROLE : Fld := ⟨0, 3⟩
/-- FIO_PSTAT.STATE. -/
def fFioPstat_STATE : Fld := ⟨60, 4⟩
/-- FIO_PSTAT.WIDTH. -/
def fFioPstat_WIDTH : Fld := ⟨48, 8⟩
/-- FIO_PSTAT.GEN. -/
def fFioPstat_GEN : Fld := ⟨44, 4⟩
/-- FIO_PSTAT.CTO. -/
def fFioPstat_CTO : Fld := ⟨0, 32⟩
/-- FIO_FCTL.CMPTMO. -/
def fFioFctl_CMPTMO : Fld := ⟨32, 16⟩
/-- FIO_FCTL.OWNID. -/
def fFioFctl_OWNID : Fld := ⟨0, 12⟩
/-- FIO_T1ACT.ACT. -/
def fFioT1act_ACT : Fld := ⟨0, 64⟩
/-- FIO_XSTAT.STATE. -/
def fFioXstat_STATE : Fld := ⟨60, 4⟩
/-- FIO_XSTAT.REASON. -/
def fFioXstat_REASON : Fld := ⟨56, 4⟩
/-- FIO_XSTAT.WIDTH. -/
def fFioXstat_WIDTH : Fld := ⟨48, 8⟩
/-- FWT_APER.SLOTLOG. -/
def fFwtAper_SLOTLOG : Fld := ⟨52, 6⟩
/-- FWT_APER.BASE. -/
def fFwtAper_BASE : Fld := ⟨30, 22⟩
/-- FWT_APER.LOCK. -/
def fFwtAper_LOCK : Fld := ⟨0, 1⟩
/-- FWT_SEL.INDEX. -/
def fFwtSel_INDEX : Fld := ⟨0, 14⟩
/-- FWT_DATA0.V. -/
def fFwtData0_V : Fld := ⟨63, 1⟩
/-- FWT_DATA0.FAIL. -/
def fFwtData0_FAIL : Fld := ⟨62, 1⟩
/-- FWT_DATA0.RD. -/
def fFwtData0_RD : Fld := ⟨61, 1⟩
/-- FWT_DATA0.WR. -/
def fFwtData0_WR : Fld := ⟨60, 1⟩
/-- FWT_DATA0.ATOM. -/
def fFwtData0_ATOM : Fld := ⟨59, 1⟩
/-- FWT_DATA0.ATT. -/
def fFwtData0_ATT : Fld := ⟨54, 2⟩
/-- FWT_DATA0.DPID. -/
def fFwtData0_DPID : Fld := ⟨40, 12⟩
/-- FWT_DATA0.LIMIT. -/
def fFwtData0_LIMIT : Fld := ⟨0, 16⟩
/-- FWT_DATA1.FABASE. -/
def fFwtData1_FABASE : Fld := ⟨21, 43⟩
/-- FWT_STAT.FAILED. -/
def fFwtStat_FAILED : Fld := ⟨63, 1⟩
/-- FWT_STAT.FIRST. -/
def fFwtStat_FIRST : Fld := ⟨32, 14⟩
/-- FWT_STAT.NFAIL. -/
def fFwtStat_NFAIL : Fld := ⟨0, 15⟩
/-- LND_CTL.FVEC. -/
def fLndCtl_FVEC : Fld := ⟨48, 16⟩
/-- LND_CTL.DECFRZ. -/
def fLndCtl_DECFRZ : Fld := ⟨33, 1⟩
/-- LND_CTL.TMOFRZ. -/
def fLndCtl_TMOFRZ : Fld := ⟨32, 1⟩
/-- LND_CTL.ANSTMO. -/
def fLndCtl_ANSTMO : Fld := ⟨16, 16⟩
/-- LND_CTL.PANICLVL. -/
def fLndCtl_PANICLVL : Fld := ⟨0, 10⟩
/-- LND_STAT.STATE. -/
def fLndStat_STATE : Fld := ⟨60, 4⟩
/-- LND_STAT.CAUSE. -/
def fLndStat_CAUSE : Fld := ⟨56, 4⟩
/-- LND_STAT.PANIC. -/
def fLndStat_PANIC : Fld := ⟨55, 1⟩
/-- LND_STAT.OCC. -/
def fLndStat_OCC : Fld := ⟨40, 10⟩
/-- LND_STAT.DECERR. -/
def fLndStat_DECERR : Fld := ⟨16, 16⟩
/-- LND_STAT.FROZANS. -/
def fLndStat_FROZANS : Fld := ⟨0, 16⟩
/-- LND_BUDGET.MISS2. -/
def fLndBudget_MISS2 : Fld := ⟨32, 32⟩
/-- LND_BUDGET.MISS01. -/
def fLndBudget_MISS01 : Fld := ⟨0, 32⟩
/-- LND_RANGEA.V. -/
def fLndRangea_V : Fld := ⟨63, 1⟩
/-- LND_RANGEA.BASE. -/
def fLndRangea_BASE : Fld := ⟨21, 31⟩
/-- LND_RANGEA.KEYID. -/
def fLndRangea_KEYID : Fld := ⟨0, 14⟩
/-- LND_RANGEB.SIZE. -/
def fLndRangeb_SIZE : Fld := ⟨21, 25⟩
/-- ZCI_CTL.HQEN. -/
def fZciCtl_HQEN : Fld := ⟨0, 1⟩
/-- ZCI_QCTBASE.BASE. -/
def fZciQctbase_BASE : Fld := ⟨19, 33⟩
/-- ZCI_QCTBASE.KEYID. -/
def fZciQctbase_KEYID : Fld := ⟨5, 14⟩
/-- ZCI_QCTBASE.V. -/
def fZciQctbase_V : Fld := ⟨0, 1⟩
/-- ZCI_DBWIN.BASE. -/
def fZciDbwin_BASE : Fld := ⟨25, 27⟩
/-- ZCI_DBWIN.LOCK. -/
def fZciDbwin_LOCK : Fld := ⟨0, 1⟩
/-- ZCI_QSTAT.STATE. -/
def fZciQstat_STATE : Fld := ⟨61, 3⟩
/-- ZCI_QSTAT.DBERR. -/
def fZciQstat_DBERR : Fld := ⟨60, 1⟩
/-- ZCI_QSTAT.CTXERR. -/
def fZciQstat_CTXERR : Fld := ⟨59, 1⟩
/-- ZCI_QSTAT.OUT. -/
def fZciQstat_OUT : Fld := ⟨39, 13⟩
/-- ZCI_QSTAT.RTAIL. -/
def fZciQstat_RTAIL : Fld := ⟨24, 12⟩
/-- ZCI_QSTAT.TAIL. -/
def fZciQstat_TAIL : Fld := ⟨12, 12⟩
/-- ZCI_QSTAT.HEAD. -/
def fZciQstat_HEAD : Fld := ⟨0, 12⟩
/-- SVI_GSTAT.LOGUSED. -/
def fSviGstat_LOGUSED : Fld := ⟨32, 17⟩
/-- SVI_GSTAT.LOGGING. -/
def fSviGstat_LOGGING : Fld := ⟨24, 5⟩
/-- SVI_GSTAT.FROZEN. -/
def fSviGstat_FROZEN : Fld := ⟨12, 12⟩
/-- SVI_GSTAT.ACTIVE. -/
def fSviGstat_ACTIVE : Fld := ⟨0, 12⟩
/-- WLD_CTL.LOCK. -/
def fWldCtl_LOCK : Fld := ⟨63, 1⟩
/-- WLD_CTL.MONEN. -/
def fWldCtl_MONEN : Fld := ⟨0, 1⟩
/-- WLD_LIFE.DBGAUTH. -/
def fWldLife_DBGAUTH : Fld := ⟨8, 1⟩
/-- WLD_LIFE.STATE. -/
def fWldLife_STATE : Fld := ⟨0, 3⟩
/-- WLD_CHAL.CHALLENGE. -/
def fWldChal_CHALLENGE : Fld := ⟨0, 64⟩
/-- WLD_WDOG.KICK. -/
def fWldWdog_KICK : Fld := ⟨63, 1⟩
/-- WLD_WDOG.LOCK. -/
def fWldWdog_LOCK : Fld := ⟨62, 1⟩
/-- WLD_WDOG.PERIOD. -/
def fWldWdog_PERIOD : Fld := ⟨32, 16⟩
/-- WLD_WDOG.ELAPSED. -/
def fWldWdog_ELAPSED : Fld := ⟨0, 32⟩
/-- WLD_RSTCAUSE.CAUSE. -/
def fWldRstcause_CAUSE : Fld := ⟨56, 8⟩
/-- WLD_RSTCAUSE.TAMPERS. -/
def fWldRstcause_TAMPERS : Fld := ⟨48, 8⟩
/-- WLD_RSTCAUSE.TIME. -/
def fWldRstcause_TIME : Fld := ⟨0, 48⟩
/-- WLD_SEAL.ACTIVE. -/
def fWldSeal_ACTIVE : Fld := ⟨63, 1⟩
/-- WLD_SEAL.SET. -/
def fWldSeal_SET : Fld := ⟨32, 16⟩
/-- WLD_SEAL.DIES. -/
def fWldSeal_DIES : Fld := ⟨0, 12⟩
/-- WLD_REFLOG0.VALID. -/
def fWldReflog0_VALID : Fld := ⟨63, 1⟩
/-- WLD_REFLOG0.WRITE. -/
def fWldReflog0_WRITE : Fld := ⟨62, 1⟩
/-- WLD_REFLOG0.SPACE. -/
def fWldReflog0_SPACE : Fld := ⟨61, 1⟩
/-- WLD_REFLOG0.SOURCE. -/
def fWldReflog0_SOURCE : Fld := ⟨57, 4⟩
/-- WLD_REFLOG0.AGENT. -/
def fWldReflog0_AGENT : Fld := ⟨32, 10⟩
/-- WLD_REFLOG1.LINE. -/
def fWldReflog1_LINE : Fld := ⟨6, 46⟩
/-- WLD_HOLDLOG.VALID. -/
def fWldHoldlog_VALID : Fld := ⟨63, 1⟩
/-- WLD_HOLDLOG.KIND. -/
def fWldHoldlog_KIND : Fld := ⟨60, 3⟩
/-- WLD_HOLDLOG.DIE. -/
def fWldHoldlog_DIE : Fld := ⟨56, 4⟩
/-- WLD_HOLDLOG.BLOCK. -/
def fWldHoldlog_BLOCK : Fld := ⟨48, 8⟩
/-- WLD_HOLDLOG.CODE. -/
def fWldHoldlog_CODE : Fld := ⟨32, 16⟩
/-- WLD_HOLDLOG.COUNT. -/
def fWldHoldlog_COUNT : Fld := ⟨0, 32⟩
/-- WLD_PCSREF.VALID. -/
def fWldPcsref_VALID : Fld := ⟨63, 1⟩
/-- WLD_PCSREF.AGENT. -/
def fWldPcsref_AGENT : Fld := ⟨60, 3⟩
/-- WLD_PCSREF.DIE. -/
def fWldPcsref_DIE : Fld := ⟨56, 4⟩
/-- WLD_PCSREF.BLOCK. -/
def fWldPcsref_BLOCK : Fld := ⟨48, 8⟩
/-- WLD_PCSREF.OFFSET. -/
def fWldPcsref_OFFSET : Fld := ⟨34, 14⟩
/-- WLD_PCSREF.COUNT. -/
def fWldPcsref_COUNT : Fld := ⟨0, 32⟩
/-- WLD_DRRANGE.V. -/
def fWldDrrange_V : Fld := ⟨63, 1⟩
/-- WLD_DRRANGE.TOP. -/
def fWldDrrange_TOP : Fld := ⟨32, 31⟩
/-- WLD_DRRANGE.BASE. -/
def fWldDrrange_BASE : Fld := ⟨0, 31⟩
/-- WLD_HOLD.HOLD. -/
def fWldHold_HOLD : Fld := ⟨0, 64⟩
/-- WLD_EHOLD.HOLD. -/
def fWldEhold_HOLD : Fld := ⟨0, 64⟩
/-- MGT_BOOT.REJECT. -/
def fMgtBoot_REJECT : Fld := ⟨32, 32⟩
/-- MGT_BOOT.COMPS. -/
def fMgtBoot_COMPS : Fld := ⟨8, 4⟩
/-- MGT_BOOT.STAGE. -/
def fMgtBoot_STAGE : Fld := ⟨0, 4⟩
/-- XRC_XR.DIGEST. -/
def fXrcXr_DIGEST : Fld := ⟨0, 64⟩
/-- XRC_STAT.TRUNC. -/
def fXrcStat_TRUNC : Fld := ⟨63, 1⟩
/-- XRC_STAT.FULL. -/
def fXrcStat_FULL : Fld := ⟨62, 1⟩
/-- XRC_STAT.USED. -/
def fXrcStat_USED : Fld := ⟨32, 19⟩
/-- XRC_STAT.COUNT. -/
def fXrcStat_COUNT : Fld := ⟨0, 32⟩
/-- SSM_CTL.LOCK. -/
def fSsmCtl_LOCK : Fld := ⟨63, 1⟩
/-- SSM_CTL.SECURE. -/
def fSsmCtl_SECURE : Fld := ⟨0, 4⟩
/-- SSM_ARB.DMAMAX. -/
def fSsmArb_DMAMAX : Fld := ⟨0, 16⟩
/-- SSM_PWRCTL.AUTO. -/
def fSsmPwrctl_AUTO : Fld := ⟨16, 1⟩
/-- SSM_PWRCTL.RETIDLE. -/
def fSsmPwrctl_RETIDLE : Fld := ⟨0, 16⟩
/-- SSM_BANKPWR.REQ. -/
def fSsmBankpwr_REQ : Fld := ⟨0, 64⟩
/-- SSM_BANKSTAT.STATE. -/
def fSsmBankstat_STATE : Fld := ⟨0, 64⟩
/-- SSM_REPAIR.USED. -/
def fSsmRepair_USED : Fld := ⟨0, 64⟩
/-- SSM_ERR.VALID. -/
def fSsmErr_VALID : Fld := ⟨63, 1⟩
/-- SSM_ERR.PORT. -/
def fSsmErr_PORT : Fld := ⟨62, 1⟩
/-- SSM_ERR.BANK. -/
def fSsmErr_BANK : Fld := ⟨25, 6⟩
/-- SSM_ERR.OFFSET. -/
def fSsmErr_OFFSET : Fld := ⟨0, 25⟩
/-- PWR_VF.N. -/
def fPwrVf_N : Fld := ⟨16, 8⟩
/-- PWR_VF.MV. -/
def fPwrVf_MV : Fld := ⟨0, 16⟩
/-- PWR_DCTL.PARKED. -/
def fPwrDctl_PARKED : Fld := ⟨63, 1⟩
/-- PWR_DCTL.MAXDS. -/
def fPwrDctl_MAXDS : Fld := ⟨32, 2⟩
/-- PWR_DCTL.GUARD. -/
def fPwrDctl_GUARD : Fld := ⟨0, 16⟩
/-- PWR_DSTAT.DSTATE. -/
def fPwrDstat_DSTATE : Fld := ⟨62, 2⟩
/-- PWR_DSTAT.VOLT. -/
def fPwrDstat_VOLT : Fld := ⟨32, 16⟩
/-- PWR_DSTAT.GFLOOR. -/
def fPwrDstat_GFLOOR : Fld := ⟨16, 16⟩
/-- PWR_DSTAT.VMAX. -/
def fPwrDstat_VMAX : Fld := ⟨0, 16⟩
/-- PWR_CCTL.WAKE. -/
def fPwrCctl_WAKE : Fld := ⟨60, 4⟩
/-- PWR_CCTL.CSTATE. -/
def fPwrCctl_CSTATE : Fld := ⟨32, 2⟩
/-- PWR_CCTL.WFIC. -/
def fPwrCctl_WFIC : Fld := ⟨0, 2⟩
/-- CLK_CDCTL.VFAIL. -/
def fClkCdctl_VFAIL : Fld := ⟨63, 1⟩
/-- CLK_CDCTL.BUSY. -/
def fClkCdctl_BUSY : Fld := ⟨62, 1⟩
/-- CLK_CDCTL.TCAP. -/
def fClkCdctl_TCAP : Fld := ⟨48, 8⟩
/-- CLK_CDCTL.NCAP. -/
def fClkCdctl_NCAP : Fld := ⟨40, 8⟩
/-- CLK_CDCTL.FMAX. -/
def fClkCdctl_FMAX : Fld := ⟨32, 8⟩
/-- CLK_CDCTL.NEFF. -/
def fClkCdctl_NEFF : Fld := ⟨16, 8⟩
/-- CLK_CDCTL.TARGET. -/
def fClkCdctl_TARGET : Fld := ⟨0, 8⟩
/-- PWR_LIMIT.TAU. -/
def fPwrLimit_TAU : Fld := ⟨48, 16⟩
/-- PWR_LIMIT.PL2. -/
def fPwrLimit_PL2 : Fld := ⟨16, 16⟩
/-- PWR_LIMIT.PL1. -/
def fPwrLimit_PL1 : Fld := ⟨0, 16⟩
/-- PWR_PKG.PS. -/
def fPwrPkg_PS : Fld := ⟨62, 2⟩
/-- PWR_PKG.MAXPS. -/
def fPwrPkg_MAXPS : Fld := ⟨56, 2⟩
/-- PWR_PKG.NCAP. -/
def fPwrPkg_NCAP : Fld := ⟨32, 8⟩
/-- PWR_PKG.POWER. -/
def fPwrPkg_POWER : Fld := ⟨0, 32⟩
/-- PWR_LASTWAKE0.VALID. -/
def fPwrLastwake0_VALID : Fld := ⟨63, 1⟩
/-- PWR_LASTWAKE0.CODE. -/
def fPwrLastwake0_CODE : Fld := ⟨44, 4⟩
/-- PWR_LASTWAKE0.DETAIL. -/
def fPwrLastwake0_DETAIL : Fld := ⟨32, 8⟩
/-- PWR_LASTWAKE0.PEND. -/
def fPwrLastwake0_PEND : Fld := ⟨0, 16⟩
/-- PWR_LASTWAKE1.TIME. -/
def fPwrLastwake1_TIME : Fld := ⟨0, 64⟩
/-- PWR_IODV.VMAX. -/
def fPwrIodv_VMAX : Fld := ⟨48, 16⟩
/-- PWR_IODV.VOLT. -/
def fPwrIodv_VOLT : Fld := ⟨32, 16⟩
/-- PWR_IODV.GFLOOR. -/
def fPwrIodv_GFLOOR : Fld := ⟨16, 16⟩
/-- PWR_IODV.GUARD. -/
def fPwrIodv_GUARD : Fld := ⟨0, 16⟩
/-- GRC_SENS.TYPE. -/
def fGrcSens_TYPE : Fld := ⟨63, 1⟩
/-- GRC_SENS.FLAG. -/
def fGrcSens_FLAG : Fld := ⟨62, 1⟩
/-- GRC_SENS.EXT. -/
def fGrcSens_EXT : Fld := ⟨32, 16⟩
/-- GRC_SENS.CUR. -/
def fGrcSens_CUR : Fld := ⟨0, 16⟩
/-- GRC_CTL.ROWARN. -/
def fGrcCtl_ROWARN : Fld := ⟨48, 16⟩
/-- GRC_CTL.CPRWARN. -/
def fGrcCtl_CPRWARN : Fld := ⟨24, 8⟩
/-- GRC_CTL.PERIOD. -/
def fGrcCtl_PERIOD : Fld := ⟨0, 16⟩
/-- GRC_BRK.HOURS. -/
def fGrcBrk_HOURS : Fld := ⟨48, 16⟩
/-- GRC_BRK.MTARGET. -/
def fGrcBrk_MTARGET : Fld := ⟨40, 8⟩
/-- GRC_BRK.NRET. -/
def fGrcBrk_NRET : Fld := ⟨32, 8⟩
/-- GRC_BRK.CORESLACK. -/
def fGrcBrk_CORESLACK : Fld := ⟨24, 8⟩
/-- GRC_BRK.PASSES. -/
def fGrcBrk_PASSES : Fld := ⟨0, 16⟩
/-- RAS_CTL.LOCK. -/
def fRasCtl_LOCK : Fld := ⟨63, 1⟩
/-- RAS_CTL.MERGEMS. -/
def fRasCtl_MERGEMS : Fld := ⟨32, 16⟩
/-- RAS_CTL.THRESH. -/
def fRasCtl_THRESH : Fld := ⟨16, 4⟩
/-- RAS_CTL.WINDOW. -/
def fRasCtl_WINDOW : Fld := ⟨0, 8⟩
/-- RAS_LOGSTAT.PERMHI. -/
def fRasLogstat_PERMHI : Fld := ⟨48, 5⟩
/-- RAS_LOGSTAT.PERMLO. -/
def fRasLogstat_PERMLO : Fld := ⟨42, 6⟩
/-- RAS_LOGSTAT.HELD. -/
def fRasLogstat_HELD : Fld := ⟨29, 13⟩
/-- RAS_LOGSTAT.LOST. -/
def fRasLogstat_LOST : Fld := ⟨0, 29⟩
/-- RAS_NEXTSEQ.SEQ. -/
def fRasNextseq_SEQ : Fld := ⟨0, 32⟩
/-- CSH_STAT.RUN. -/
def fCshStat_RUN : Fld := ⟨63, 1⟩
/-- CSH_STAT.DELTA. -/
def fCshStat_DELTA : Fld := ⟨62, 1⟩
/-- CSH_STAT.ERR. -/
def fCshStat_ERR : Fld := ⟨61, 1⟩
/-- CSH_STAT.LOST. -/
def fCshStat_LOST : Fld := ⟨32, 16⟩
/-- CSH_STAT.WRITTEN. -/
def fCshStat_WRITTEN : Fld := ⟨0, 32⟩
/-- CSH_HEAD.CONSUMED. -/
def fCshHead_CONSUMED : Fld := ⟨0, 32⟩
/-- TST_STAT.RUN. -/
def fTstStat_RUN : Fld := ⟨63, 1⟩
/-- TST_STAT.COMPLETE. -/
def fTstStat_COMPLETE : Fld := ⟨62, 1⟩
/-- TST_STAT.TRUNC. -/
def fTstStat_TRUNC : Fld := ⟨61, 1⟩
/-- TST_STAT.DIE. -/
def fTstStat_DIE : Fld := ⟨52, 4⟩
/-- TST_STAT.BLOCK. -/
def fTstStat_BLOCK : Fld := ⟨44, 8⟩
/-- TST_STAT.KIND. -/
def fTstStat_KIND : Fld := ⟨40, 2⟩
/-- TST_STAT.FAILS. -/
def fTstStat_FAILS : Fld := ⟨0, 32⟩
/-- AGT_CTL.DRCOUNT. -/
def fAgtCtl_DRCOUNT : Fld := ⟨7, 1⟩
/-- AGT_CTL.ACTIVE. -/
def fAgtCtl_ACTIVE : Fld := ⟨0, 7⟩
/-- AGT_SLOT.V. -/
def fAgtSlot_V : Fld := ⟨63, 1⟩
/-- AGT_SLOT.SUSP. -/
def fAgtSlot_SUSP : Fld := ⟨62, 1⟩
/-- AGT_SLOT.KIND. -/
def fAgtSlot_KIND : Fld := ⟨56, 3⟩
/-- AGT_SLOT.DIE. -/
def fAgtSlot_DIE : Fld := ⟨52, 4⟩
/-- AGT_SLOT.BLOCK. -/
def fAgtSlot_BLOCK : Fld := ⟨44, 8⟩
/-- AGT_SLOT.CLASS. -/
def fAgtSlot_CLASS : Fld := ⟨32, 8⟩
/-- AGT_SLOT.EVERY. -/
def fAgtSlot_EVERY : Fld := ⟨16, 12⟩
/-- AGT_SLOT.VALUE. -/
def fAgtSlot_VALUE : Fld := ⟨0, 12⟩

/-- Register definitions of spec/01. -/
def regDefs01 : List RegDef :=
  [ { name := "SCL_LOCALCAP", iod := false, block := 0x30, blocks := 1, off := 0x0, stride := 8, count := 1, dom := .cold }
  , { name := "MGT_IODCAP", iod := true, block := 0x1, blocks := 1, off := 0x100, stride := 8, count := 1, dom := .cold }
  , { name := "SCL_PEERCAP", iod := true, block := 0x30, blocks := 12, off := 0x8, stride := 8, count := 1, dom := .cold }
  , { name := "SCL_LINKCAP", iod := true, block := 0x30, blocks := 12, off := 0x10, stride := 8, count := 1, dom := .cold }
  , { name := "MGT_EFFCAP", iod := true, block := 0x1, blocks := 1, off := 0x108, stride := 8, count := 1, dom := .cold }
  , { name := "MGT_CAPMASK", iod := true, block := 0x1, blocks := 1, off := 0x110, stride := 8, count := 1, dom := .cold, reset := 0xffff <<< 16 } ]

/-- Register definitions of spec/02. -/
def regDefs02 : List RegDef :=
  [ { name := "CORE_ID", iod := false, block := 0x0, blocks := 18, off := 0x0, stride := 8, count := 1, dom := .cold }
  , { name := "CORE_STOP", iod := false, block := 0x0, blocks := 18, off := 0x8, stride := 8, count := 1, dom := .die } ]

/-- Register definitions of spec/04. -/
def regDefs04 : List RegDef :=
  [ { name := "IOTU_CTL", iod := true, block := 0x48, blocks := 1, off := 0x0, stride := 8, count := 1, dom := .warm, rw := mk 16 1 + mk 0 16 }
  , { name := "IOTU_DCTBASE", iod := true, block := 0x48, blocks := 1, off := 0x100, stride := 8, count := 8, dom := .warm, rw := mk 21 31 + mk 0 1 }
  , { name := "IOTU_SICTBASE", iod := true, block := 0x48, blocks := 1, off := 0x140, stride := 8, count := 1, dom := .warm, rw := mk 16 36 + mk 0 1 }
  , { name := "IOTU_FSTAT", iod := true, block := 0x48, blocks := 1, off := 0x200, stride := 8, count := 1, dom := .warm, w1c := mk 8 1 }
  , { name := "IOTU_FLOGA", iod := true, block := 0x48, blocks := 1, off := 0x210, stride := 8, count := 1, dom := .warm }
  , { name := "IOTU_FLOGB", iod := true, block := 0x48, blocks := 1, off := 0x218, stride := 8, count := 1, dom := .warm } ]

/-- Register definitions of spec/05. -/
def regDefs05 : List RegDef :=
  [ { name := "L1C_CTL", iod := false, block := 0x40, blocks := 18, off := 0x0, stride := 8, count := 1, dom := .die, rw := mk 2 1 + mk 1 1 + mk 0 1, reset := 0x1 <<< 2 + 0x1 <<< 1 + 0x1 }
  , { name := "L1C_LFSR", iod := false, block := 0x40, blocks := 18, off := 0x8, stride := 8, count := 1, dom := .die, rw := mk 16 16 + mk 0 16 }
  , { name := "L2C_CTL", iod := false, block := 0x58, blocks := 18, off := 0x0, stride := 8, count := 1, dom := .die, rw := mk 4 2 + mk 0 1, reset := 0x1 <<< 4 + 0x1 }
  , { name := "L3C_LOCK", iod := false, block := 0x70, blocks := 16, off := 0x0, stride := 8, count := 1, dom := .die, rw := mk 24 18 + mk 0 16, w1c := mk 63 1 }
  , { name := "L3C_LFSR", iod := false, block := 0x70, blocks := 16, off := 0x8, stride := 8, count := 1, dom := .die, rw := mk 0 16 } ]

/-- Register definitions of spec/06. -/
def regDefs06 : List RegDef :=
  [ { name := "HA_GCTL", iod := true, block := 0x80, blocks := 1, off := 0x0, stride := 8, count := 1, dom := .warm, w1s := mk 63 1, rwl := mk 32 16 + mk 16 16 + mk 0 1, lock := mk 63 1, reset := 0xfa0 <<< 32 + 0x3e8 <<< 16 }
  , { name := "HA_GSTAT", iod := true, block := 0x80, blocks := 1, off := 0x8, stride := 8, count := 1, dom := .warm }
  , { name := "HA_DDREC0", iod := true, block := 0x80, blocks := 1, off := 0x10, stride := 8, count := 1, dom := .cold, rws := mk 63 1 + mk 32 2 + mk 24 8 + mk 16 5 + mk 8 5 + mk 0 8 }
  , { name := "HA_DDREC1", iod := true, block := 0x80, blocks := 1, off := 0x18, stride := 8, count := 1, dom := .cold, rws := mk 6 46 }
  , { name := "HA_DDREC2", iod := true, block := 0x80, blocks := 1, off := 0x20, stride := 8, count := 1, dom := .cold, rws := mk 0 64 }
  , { name := "DIR_STAT", iod := true, block := 0xa0, blocks := 32, off := 0x0, stride := 8, count := 1, dom := .die }
  , { name := "DIR_LFSR", iod := true, block := 0xa0, blocks := 32, off := 0x8, stride := 8, count := 1, dom := .die, rw := mk 0 16 } ]

/-- Register definitions of spec/07. -/
def regDefs07 : List RegDef :=
  [ { name := "SCL_CTL", iod := false, block := 0x30, blocks := 1, off := 0x20, stride := 8, count := 1, dom := .warm, rw := mk 32 8 + mk 24 4 + mk 16 7 + mk 0 1, reset := 0x40 <<< 32 + 0x8 <<< 24 + 0x4 <<< 16 + 0x1 }
  , { name := "SCL_CTL", iod := true, block := 0x30, blocks := 12, off := 0x20, stride := 8, count := 1, dom := .warm, rw := mk 32 8 + mk 24 4 + mk 16 7 + mk 0 1, reset := 0x40 <<< 32 + 0x8 <<< 24 + 0x4 <<< 16 + 0x1 }
  , { name := "SCL_SPLIT", iod := true, block := 0x30, blocks := 12, off := 0x28, stride := 8, count := 1, dom := .warm, w1s := mk 63 1, rwl := mk 8 8 + mk 0 8, lock := mk 63 1 }
  , { name := "SCL_STAT", iod := false, block := 0x30, blocks := 1, off := 0x30, stride := 8, count := 1, dom := .die }
  , { name := "SCL_STAT", iod := true, block := 0x30, blocks := 12, off := 0x30, stride := 8, count := 1, dom := .die }
  , { name := "SCL_UPMASK", iod := false, block := 0x30, blocks := 1, off := 0x40, stride := 8, count := 1, dom := .die, reset := 0xffffffffffffffff }
  , { name := "SCL_UPMASK", iod := true, block := 0x30, blocks := 12, off := 0x40, stride := 8, count := 1, dom := .die, reset := 0xffffffffffffffff }
  , { name := "SCL_DNMASK", iod := false, block := 0x30, blocks := 1, off := 0x48, stride := 8, count := 1, dom := .die, reset := 0xffffffffffffffff }
  , { name := "SCL_DNMASK", iod := true, block := 0x30, blocks := 12, off := 0x48, stride := 8, count := 1, dom := .die, reset := 0xffffffffffffffff }
  , { name := "SCL_SPMASK", iod := false, block := 0x30, blocks := 1, off := 0x50, stride := 8, count := 1, dom := .die, reset := 0xf <<< 4 + 0xf }
  , { name := "SCL_SPMASK", iod := true, block := 0x30, blocks := 12, off := 0x50, stride := 8, count := 1, dom := .die, reset := 0xf <<< 4 + 0xf }
  , { name := "SCL_CREDIT", iod := false, block := 0x30, blocks := 1, off := 0x60, stride := 8, count := 1, dom := .die }
  , { name := "SCL_CREDIT", iod := true, block := 0x30, blocks := 12, off := 0x60, stride := 8, count := 1, dom := .die }
  , { name := "SCL_PM", iod := false, block := 0x30, blocks := 1, off := 0x70, stride := 8, count := 1, dom := .warm, rw := mk 32 16 + mk 16 16 + mk 1 1 + mk 0 1, reset := 0x40 <<< 32 + 0x200 <<< 16 + 0x1 <<< 1 + 0x1 }
  , { name := "SCL_PM", iod := true, block := 0x30, blocks := 12, off := 0x70, stride := 8, count := 1, dom := .warm, rw := mk 32 16 + mk 16 16 + mk 1 1 + mk 0 1, reset := 0x40 <<< 32 + 0x200 <<< 16 + 0x1 <<< 1 + 0x1 }
  , { name := "SCL_WDLOG0", iod := true, block := 0x30, blocks := 12, off := 0x80, stride := 8, count := 1, dom := .die, w1c := mk 63 1 }
  , { name := "SCL_WDLOG1", iod := true, block := 0x30, blocks := 12, off := 0x88, stride := 8, count := 1, dom := .die }
  , { name := "SCL_WDLOG2", iod := true, block := 0x30, blocks := 12, off := 0x90, stride := 8, count := 1, dom := .die } ]

/-- Register definitions of spec/08. -/
def regDefs08 : List RegDef :=
  [ { name := "ENL_CTL", iod := true, block := 0x50, blocks := 1, off := 0x0, stride := 8, count := 1, dom := .warm, rw := mk 32 32 + mk 24 6 + mk 16 1 + mk 1 1, reset := 0x1000 <<< 32 + 0x20 <<< 24 + 0x1 <<< 16 + 0x1 <<< 1 }
  , { name := "ENL_HEAT", iod := true, block := 0x50, blocks := 1, off := 0x8, stride := 8, count := 1, dom := .warm, rw := mk 32 16 + mk 4 1 + mk 0 4, reset := 0x64 <<< 32 + 0x4 }
  , { name := "ENL_STAT", iod := true, block := 0x50, blocks := 1, off := 0x10, stride := 8, count := 1, dom := .warm }
  , { name := "ENL_T0", iod := true, block := 0x50, blocks := 1, off := 0x20, stride := 8, count := 1, dom := .warm }
  , { name := "ENL_T1TOTAL", iod := true, block := 0x50, blocks := 1, off := 0x28, stride := 8, count := 1, dom := .warm }
  , { name := "ENL_T1FREE", iod := true, block := 0x50, blocks := 1, off := 0x30, stride := 8, count := 1, dom := .warm }
  , { name := "ENL_T2", iod := true, block := 0x50, blocks := 1, off := 0x38, stride := 8, count := 1, dom := .warm }
  , { name := "ENL_OVH", iod := true, block := 0x50, blocks := 1, off := 0x40, stride := 8, count := 1, dom := .warm }
  , { name := "ENL_PINLIM", iod := true, block := 0x50, blocks := 1, off := 0x48, stride := 8, count := 1, dom := .warm, rw := mk 0 32, reset := 0x1000000 }
  , { name := "ENL_EVAC", iod := true, block := 0x50, blocks := 1, off := 0x50, stride := 8, count := 1, dom := .warm, w1c := mk 61 1 } ]

/-- Register definitions of spec/09. -/
def regDefs09 : List RegDef :=
  [ { name := "CDN_CTL", iod := true, block := 0x51, blocks := 1, off := 0x0, stride := 8, count := 1, dom := .warm, rw := mk 16 5 + mk 8 5 + mk 0 1, reset := 0xc <<< 16 + 0x8 <<< 8 + 0x1 }
  , { name := "CDN_STAT", iod := true, block := 0x51, blocks := 1, off := 0x8, stride := 8, count := 1, dom := .warm }
  , { name := "DKS_CTL", iod := true, block := 0x52, blocks := 1, off := 0x0, stride := 8, count := 1, dom := .warm, rw := mk 0 5, reset := 0x8 }
  , { name := "DKS_STAT", iod := true, block := 0x52, blocks := 1, off := 0x8, stride := 8, count := 1, dom := .warm }
  , { name := "DKS_DROP", iod := true, block := 0x52, blocks := 1, off := 0x10, stride := 8, count := 1, dom := .warm }
  , { name := "DKS_REFLOG0", iod := true, block := 0x52, blocks := 1, off := 0x20, stride := 8, count := 1, dom := .warm, w1c := mk 63 1 }
  , { name := "DKS_REFLOG1", iod := true, block := 0x52, blocks := 1, off := 0x28, stride := 8, count := 1, dom := .warm }
  , { name := "DKS_ROTSTAT", iod := true, block := 0x52, blocks := 1, off := 0x100, stride := 8, count := 16, dom := .warm } ]

/-- Register definitions of spec/10. -/
def regDefs10 : List RegDef :=
  [ { name := "MC_CTL", iod := true, block := 0x60, blocks := 16, off := 0x0, stride := 8, count := 1, dom := .warm, rw := mk 1 1 }
  , { name := "MC_STAT", iod := true, block := 0x60, blocks := 16, off := 0x8, stride := 8, count := 1, dom := .warm }
  , { name := "MC_RTCTL", iod := true, block := 0x60, blocks := 16, off := 0x10, stride := 8, count := 1, dom := .warm, rw := mk 0 16, reset := 0x64 }
  , { name := "MC_SCRUB", iod := true, block := 0x60, blocks := 16, off := 0x18, stride := 8, count := 1, dom := .warm, rw := mk 48 16, reset := 0x18 <<< 48 }
  , { name := "MC_REMEAS", iod := true, block := 0x60, blocks := 16, off := 0x20, stride := 8, count := 1, dom := .warm, rw := mk 32 4 + mk 0 32, reset := 0x2 <<< 32 + 0x3e8 }
  , { name := "MC_FOCUS", iod := true, block := 0x60, blocks := 16, off := 0x400, stride := 8, count := 40, dom := .warm }
  , { name := "MC_ERRLOG0", iod := true, block := 0x60, blocks := 16, off := 0x100, stride := 8, count := 1, dom := .warm, w1c := mk 63 1 }
  , { name := "MC_ERRLOG1", iod := true, block := 0x60, blocks := 16, off := 0x108, stride := 8, count := 1, dom := .warm } ]

/-- Register definitions of spec/11. -/
def regDefs11 : List RegDef :=
  [ { name := "FIO_GCFG", iod := true, block := 0x10, blocks := 8, off := 0x0, stride := 8, count := 1, dom := .warm, rw := mk 12 1, w1s := mk 63 1, rwl := mk 32 2 + mk 24 8 + mk 16 8 + mk 8 4 + mk 0 3, lock := mk 63 1, reset := 0x1 <<< 12 }
  , { name := "FIO_PSTAT", iod := true, block := 0x10, blocks := 8, off := 0x100, stride := 8, count := 4, dom := .warm }
  , { name := "FIO_FCTL", iod := true, block := 0x10, blocks := 8, off := 0x200, stride := 8, count := 1, dom := .warm, rw := mk 32 16, rwl := mk 0 12, reset := 0x64 <<< 32 }
  , { name := "FIO_T1ACT", iod := true, block := 0x10, blocks := 1, off := 0x300, stride := 8, count := 1, dom := .warm, w1s := mk 0 64 }
  , { name := "FIO_XSTAT", iod := true, block := 0x10, blocks := 8, off := 0x400, stride := 8, count := 1, dom := .warm }
  , { name := "FWT_APER", iod := true, block := 0x18, blocks := 1, off := 0x0, stride := 8, count := 1, dom := .warm, w1s := mk 0 1, rwl := mk 52 6 + mk 30 22, lock := mk 0 1 }
  , { name := "FWT_SEL", iod := true, block := 0x18, blocks := 1, off := 0x8, stride := 8, count := 1, dom := .warm, rw := mk 0 14 }
  , { name := "FWT_DATA0", iod := true, block := 0x18, blocks := 1, off := 0x10, stride := 8, count := 1, dom := .warm, rw := mk 63 1 + mk 61 1 + mk 60 1 + mk 59 1 + mk 54 2 + mk 40 12 + mk 0 16 }
  , { name := "FWT_DATA1", iod := true, block := 0x18, blocks := 1, off := 0x18, stride := 8, count := 1, dom := .warm, rw := mk 21 43 }
  , { name := "FWT_STAT", iod := true, block := 0x18, blocks := 1, off := 0x20, stride := 8, count := 1, dom := .warm, w1c := mk 63 1 } ]

/-- Register definitions of spec/12. -/
def regDefs12 : List RegDef :=
  [ { name := "LND_CTL", iod := true, block := 0x1a, blocks := 2, off := 0x0, stride := 8, count := 1, dom := .warm, rw := mk 48 16 + mk 33 1 + mk 32 1 + mk 16 16 + mk 0 10, reset := 0x1 <<< 32 + 0x14 <<< 16 + 0x100 }
  , { name := "LND_STAT", iod := true, block := 0x1a, blocks := 2, off := 0x8, stride := 8, count := 1, dom := .warm }
  , { name := "LND_BUDGET", iod := true, block := 0x1a, blocks := 2, off := 0x10, stride := 8, count := 1, dom := .warm }
  , { name := "LND_RANGEA", iod := true, block := 0x1a, blocks := 2, off := 0x100, stride := 16, count := 16, dom := .warm }
  , { name := "LND_RANGEB", iod := true, block := 0x1a, blocks := 2, off := 0x108, stride := 16, count := 16, dom := .warm } ]

/-- Register definitions of spec/13. -/
def regDefs13 : List RegDef :=
  [ { name := "ZCI_CTL", iod := true, block := 0x1c, blocks := 1, off := 0x0, stride := 8, count := 1, dom := .warm, rw := mk 0 1 }
  , { name := "ZCI_QCTBASE", iod := true, block := 0x1c, blocks := 1, off := 0x8, stride := 8, count := 1, dom := .warm, rw := mk 19 33 + mk 5 14 + mk 0 1 }
  , { name := "ZCI_DBWIN", iod := true, block := 0x1c, blocks := 1, off := 0x10, stride := 8, count := 1, dom := .warm, w1s := mk 0 1, rwl := mk 25 27, lock := mk 0 1 }
  , { name := "ZCI_QSTAT", iod := true, block := 0xc0, blocks := 32, off := 0x0, stride := 8, count := 256, dom := .warm, w1c := mk 60 1 + mk 59 1 }
  , { name := "SVI_GSTAT", iod := true, block := 0x1d, blocks := 1, off := 0x0, stride := 8, count := 1, dom := .warm } ]

/-- Register definitions of spec/14. -/
def regDefs14 : List RegDef :=
  [ { name := "WLD_CTL", iod := true, block := 0x2, blocks := 1, off := 0x0, stride := 8, count := 1, dom := .warm, w1s := mk 63 1, rwl := mk 0 1, lock := mk 63 1 }
  , { name := "WLD_LIFE", iod := true, block := 0x2, blocks := 1, off := 0x8, stride := 8, count := 1, dom := .warm }
  , { name := "WLD_CHAL", iod := true, block := 0x2, blocks := 1, off := 0x10, stride := 8, count := 1, dom := .warm }
  , { name := "WLD_WDOG", iod := true, block := 0x2, blocks := 1, off := 0x18, stride := 8, count := 1, dom := .warm, w1s := mk 62 1, rwl := mk 32 16, lock := mk 62 1, reset := 0x3e8 <<< 32 }
  , { name := "WLD_RSTCAUSE", iod := true, block := 0x2, blocks := 1, off := 0x20, stride := 8, count := 1, dom := .cold, rws := mk 56 8 + mk 48 8 + mk 0 48 }
  , { name := "WLD_SEAL", iod := true, block := 0x2, blocks := 1, off := 0x28, stride := 8, count := 1, dom := .warm }
  , { name := "WLD_REFLOG0", iod := true, block := 0x2, blocks := 1, off := 0x30, stride := 8, count := 1, dom := .warm, w1c := mk 63 1 }
  , { name := "WLD_REFLOG1", iod := true, block := 0x2, blocks := 1, off := 0x38, stride := 8, count := 1, dom := .warm }
  , { name := "WLD_HOLDLOG", iod := true, block := 0x2, blocks := 1, off := 0x40, stride := 8, count := 1, dom := .warm, w1c := mk 63 1 }
  , { name := "WLD_PCSREF", iod := true, block := 0x2, blocks := 1, off := 0x48, stride := 8, count := 1, dom := .warm, w1c := mk 63 1 }
  , { name := "WLD_DRRANGE", iod := true, block := 0x2, blocks := 1, off := 0x100, stride := 8, count := 4, dom := .warm }
  , { name := "WLD_HOLD", iod := true, block := 0x2, blocks := 1, off := 0x200, stride := 8, count := 52, dom := .warm, rw := mk 0 64 }
  , { name := "WLD_EHOLD", iod := true, block := 0x2, blocks := 1, off := 0x400, stride := 8, count := 52, dom := .warm } ]

/-- Register definitions of spec/15. -/
def regDefs15 : List RegDef :=
  [ { name := "MGT_BOOT", iod := true, block := 0x1, blocks := 1, off := 0x0, stride := 8, count := 1, dom := .warm }
  , { name := "XRC_XR", iod := true, block := 0x3, blocks := 1, off := 0x0, stride := 8, count := 128, dom := .warm }
  , { name := "XRC_STAT", iod := true, block := 0x3, blocks := 1, off := 0x400, stride := 8, count := 1, dom := .warm } ]

/-- Register definitions of spec/16. -/
def regDefs16 : List RegDef :=
  [ { name := "SSM_CTL", iod := true, block := 0x4, blocks := 1, off := 0x0, stride := 8, count := 1, dom := .warm, w1s := mk 63 1, rwl := mk 0 4, lock := mk 63 1 }
  , { name := "SSM_ARB", iod := true, block := 0x4, blocks := 1, off := 0x8, stride := 8, count := 1, dom := .warm, rw := mk 0 16, reset := 0x40 }
  , { name := "SSM_PWRCTL", iod := true, block := 0x4, blocks := 1, off := 0x10, stride := 8, count := 1, dom := .warm, rw := mk 16 1 + mk 0 16, reset := 0x1 <<< 16 + 0x40 }
  , { name := "SSM_BANKPWR", iod := true, block := 0x4, blocks := 1, off := 0x20, stride := 8, count := 2, dom := .warm, rw := mk 0 64 }
  , { name := "SSM_BANKSTAT", iod := true, block := 0x4, blocks := 1, off := 0x30, stride := 8, count := 2, dom := .warm }
  , { name := "SSM_REPAIR", iod := true, block := 0x4, blocks := 1, off := 0x40, stride := 8, count := 2, dom := .cold }
  , { name := "SSM_ERR", iod := true, block := 0x4, blocks := 1, off := 0x50, stride := 8, count := 1, dom := .warm, w1c := mk 63 1 } ]

/-- Register definitions of spec/17. -/
def regDefs17 : List RegDef :=
  [ { name := "PWR_VF", iod := false, block := 0x20, blocks := 1, off := 0x0, stride := 8, count := 8, dom := .cold }
  , { name := "PWR_DCTL", iod := false, block := 0x20, blocks := 1, off := 0x40, stride := 8, count := 1, dom := .warm, rw := mk 32 2 + mk 0 16, reset := 0x2 <<< 32 }
  , { name := "PWR_DSTAT", iod := false, block := 0x20, blocks := 1, off := 0x48, stride := 8, count := 1, dom := .warm }
  , { name := "PWR_CCTL", iod := false, block := 0x20, blocks := 1, off := 0x100, stride := 8, count := 18, dom := .die, rw := mk 0 2, reset := 0x1 }
  , { name := "CLK_CDCTL", iod := false, block := 0x21, blocks := 1, off := 0x0, stride := 8, count := 1, dom := .warm, rw := mk 0 8, w1c := mk 63 1, reset := 0xa8 <<< 48 + 0xa8 <<< 40 + 0xa8 <<< 32 + 0x78 }
  , { name := "PWR_LIMIT", iod := true, block := 0x5, blocks := 1, off := 0x0, stride := 8, count := 1, dom := .warm, rw := mk 48 16 + mk 16 16 + mk 0 16, reset := 0x3e8 <<< 48 + 0x2f8 <<< 16 + 0x280 }
  , { name := "PWR_PKG", iod := true, block := 0x5, blocks := 1, off := 0x8, stride := 8, count := 1, dom := .warm, rw := mk 56 2, reset := 0x2 <<< 56 + 0xa8 <<< 32 }
  , { name := "PWR_LASTWAKE0", iod := true, block := 0x5, blocks := 1, off := 0x10, stride := 8, count := 1, dom := .warm, w1c := mk 63 1 }
  , { name := "PWR_LASTWAKE1", iod := true, block := 0x5, blocks := 1, off := 0x18, stride := 8, count := 1, dom := .warm }
  , { name := "PWR_IODV", iod := true, block := 0x5, blocks := 1, off := 0x20, stride := 8, count := 1, dom := .warm, rw := mk 0 16 }
  , { name := "GRC_SENS", iod := false, block := 0x22, blocks := 1, off := 0x100, stride := 8, count := 64, dom := .warm, w1c := mk 62 1 }
  , { name := "GRC_SENS", iod := true, block := 0x7, blocks := 1, off := 0x100, stride := 8, count := 64, dom := .warm, w1c := mk 62 1 }
  , { name := "GRC_CTL", iod := true, block := 0x7, blocks := 1, off := 0x0, stride := 8, count := 1, dom := .warm, rw := mk 48 16 + mk 24 8 + mk 0 16, reset := 0x7530 <<< 48 + 0x1e <<< 24 + 0x3e8 }
  , { name := "GRC_BRK", iod := true, block := 0x7, blocks := 1, off := 0x8, stride := 8, count := 1, dom := .warm, rw := mk 48 16 + mk 40 8 + mk 32 8 + mk 24 8, reset := 0xa8 <<< 48 + 0x32 <<< 40 + 0x60 <<< 32 + 0x1e <<< 24 } ]

/-- Register definitions of spec/18. -/
def regDefs18 : List RegDef :=
  [ { name := "RAS_CTL", iod := true, block := 0x8, blocks := 1, off := 0x0, stride := 8, count := 1, dom := .warm, w1s := mk 63 1, rwl := mk 32 16 + mk 16 4 + mk 0 8, lock := mk 63 1, reset := 0x3e8 <<< 32 + 0x3 <<< 16 + 0x18 }
  , { name := "RAS_LOGSTAT", iod := true, block := 0x8, blocks := 1, off := 0x8, stride := 8, count := 1, dom := .cold }
  , { name := "RAS_NEXTSEQ", iod := true, block := 0x8, blocks := 1, off := 0x10, stride := 8, count := 1, dom := .cold } ]

/-- Register definitions of spec/19. -/
def regDefs19 : List RegDef :=
  [ { name := "CSH_STAT", iod := true, block := 0xa, blocks := 1, off := 0x0, stride := 8, count := 1, dom := .warm, w1c := mk 61 1 }
  , { name := "CSH_HEAD", iod := true, block := 0xa, blocks := 1, off := 0x8, stride := 8, count := 1, dom := .warm, rw := mk 0 32 }
  , { name := "TST_STAT", iod := true, block := 0xb, blocks := 1, off := 0x0, stride := 8, count := 1, dom := .warm }
  , { name := "AGT_CTL", iod := true, block := 0xc, blocks := 1, off := 0x0, stride := 8, count := 1, dom := .warm, rw := mk 7 1 }
  , { name := "AGT_SLOT", iod := true, block := 0xc, blocks := 1, off := 0x100, stride := 8, count := 64, dom := .warm } ]

/-- Every register definition but EVT_CNT and EVT_THR, which sit in every counted block. -/
def regDefs : List RegDef :=
  regDefs01 ++ regDefs02 ++ regDefs04 ++ regDefs05 ++ regDefs06 ++ regDefs07 ++ regDefs08 ++ regDefs09 ++ regDefs10 ++ regDefs11 ++ regDefs12 ++ regDefs13 ++ regDefs14 ++ regDefs15 ++ regDefs16 ++ regDefs17 ++ regDefs18 ++ regDefs19

/-- How many event counters a block holds (Table 19-1); 0 where the block is not counted. -/
def evtCount (die block : Nat) : Nat :=
  if die < 12 then
    if block ≤ 0x11 then 12
    else if 0x40 ≤ block ∧ block ≤ 0x51 then 8
    else if 0x58 ≤ block ∧ block ≤ 0x69 then 8
    else if 0x88 ≤ block ∧ block ≤ 0x99 then 4
    else if 0x70 ≤ block ∧ block ≤ 0x7F then 8
    else if block = 0x30 then 16
    else if block = 0x20 then 8
    else if block = 0x22 then 4
    else 0
  else if die = 15 then
    if 0x30 ≤ block ∧ block ≤ 0x3B then 16
    else if 0x80 ≤ block ∧ block ≤ 0x9F then 16
    else if 0xA0 ≤ block ∧ block ≤ 0xBF then 8
    else if 0x60 ≤ block ∧ block ≤ 0x6F then 16
    else if 0x10 ≤ block ∧ block ≤ 0x17 then 16
    else if block = 0x18 then 8
    else if block = 0x1A ∨ block = 0x1B then 8
    else if block = 0x48 then 8
    else if block = 0x50 then 32
    else if block = 0x51 ∨ block = 0x52 then 16
    else if block = 0x1C then 16
    else if block = 0x1D ∨ block = 0x04 ∨ block = 0x02 ∨ block = 0x08 then 8
    else if block = 0x05 then 8
    else if block = 0x07 then 4
    else 0
  else 0

/-- Whether a block number is assigned on a die (R574). -/
def blockAssigned (die block : Nat) : Bool :=
  if die < 12 then
    decide (block ≤ 0x11 ∨ block = 0x20 ∨ block = 0x21 ∨ block = 0x22 ∨ block = 0x30 ∨
      (0x40 ≤ block ∧ block ≤ 0x51) ∨ (0x58 ≤ block ∧ block ≤ 0x69) ∨
      (0x70 ≤ block ∧ block ≤ 0x7F) ∨ (0x88 ≤ block ∧ block ≤ 0x99))
  else if die = 15 then
    decide ((1 ≤ block ∧ block ≤ 0x08) ∨ (0x0A ≤ block ∧ block ≤ 0x0C) ∨
      (0x10 ≤ block ∧ block ≤ 0x18) ∨ (0x1A ≤ block ∧ block ≤ 0x1D) ∨
      (0x30 ≤ block ∧ block ≤ 0x3B) ∨ block = 0x48 ∨ (0x50 ≤ block ∧ block ≤ 0x52) ∨
      (0x60 ≤ block ∧ block ≤ 0x6F) ∨ (0x80 ≤ block ∧ block ≤ 0xDF))
  else false

/-- The EVT_CNT address of a counter (R570). -/
def kEvt (die block i : Nat) : Nat := pcsKey die block (0x3000 + 8 * i)
/-- The EVT_THR address of a block (R570). -/
def kEvtThr (die block : Nat) : Nat := pcsKey die block 0x3100

/-- EVT_CNT.SAT. -/
def fEvtCnt_SAT : Fld := ⟨63, 1⟩
/-- EVT_CNT.COUNT. -/
def fEvtCnt_COUNT : Fld := ⟨0, 48⟩

/-- The definition of EVT_CNT (spec/19). -/
def evtCntDef : RegDef :=
  { name := "EVT_CNT", iod := true, block := 0, blocks := 0, off := 0x3000, stride := 8,
    count := 32, dom := .die, rw := mk 0 48, w1c := mk 63 1 }
/-- The definition of EVT_THR (spec/19). -/
def evtThrDef : RegDef :=
  { name := "EVT_THR", iod := true, block := 0, blocks := 0, off := 0x3100, stride := 8,
    count := 1, dom := .die, rw := mk 0 64, reset := mk 0 64 }

/-- Whether an address is an instance of a definition. -/
def RegDef.hits (d : RegDef) (die block off : Nat) : Bool :=
  decide (die ≤ 15) && (if d.iod then decide (die = 15) else decide (die < 12)) &&
  decide (d.block ≤ block ∧ block < d.block + d.blocks) &&
  decide (d.off ≤ off ∧ (off - d.off) % d.stride = 0 ∧ (off - d.off) / d.stride < d.count)

/-- The definition of the register at an address; none where the address is unassigned (R11). -/
def regDefAt (k : Nat) : Option RegDef :=
  let die := pcsDie k; let block := pcsBlock k; let off := pcsOff k
  if off ≥ 0x3000 then
    let n := evtCount die block
    if n = 0 then none
    else if off = 0x3100 then some evtThrDef
    else if off % 8 = 0 ∧ (off - 0x3000) / 8 < n then some evtCntDef
    else none
  else regDefs.find? (fun d => d.hits die block off)

/-- The seed of a replacement register (R160, R192): the registers whose reset value depends on
their instance. -/
def lfsrSeed (base i : Nat) : Nat := base ^^^ ((i <<< 4) % 65536)

/-- Whether monitor `i` of a die is a critical-path replica (Table 17-7). -/
def isCpr (die i : Nat) : Bool :=
  if die = 15 then decide (32 ≤ i ∧ i < 48) else decide (i < 36 ∧ i % 2 = 1 ∨ 52 ≤ i ∧ i < 60)

/-- The value of the register at an address after a cold reset. -/
def pcsReset (k : Nat) : Word :=
  let die := pcsDie k; let block := pcsBlock k; let off := pcsOff k
  if die < 12 ∧ 0x40 ≤ block ∧ block ≤ 0x51 ∧ off = 8 then
    let c := 18 * die + (block - 0x40)
    BitVec.ofNat 64 ((lfsrSeed 0xA5A5 c <<< 16) + lfsrSeed 0x5A5A c)
  else if die < 12 ∧ 0x70 ≤ block ∧ block ≤ 0x7F ∧ off = 8 then
    BitVec.ofNat 64 (lfsrSeed 0x5A5A (16 * die + (block - 0x70)))
  else if die = 15 ∧ 0xA0 ≤ block ∧ block ≤ 0xBF ∧ off = 8 then
    BitVec.ofNat 64 (lfsrSeed 0x5A5A (block - 0xA0))
  else if (die < 12 ∧ block = 0x22 ∨ die = 15 ∧ block = 7) ∧ 0x100 ≤ off ∧ off < 0x300 ∧ off % 8 = 0 then
    if isCpr die ((off - 0x100) / 8) then 0x80007FFF00000000#64 else 0
  else match regDefAt k with
    | some d => BitVec.ofNat 64 d.reset
    | none => 0

end Sys2Proof.Machine
end

