-- ==== Sys2Proof/WellFormed.lean ====
section
/-! DEFINITION.
Which commands are well-formed: each names a unit, register or size that the package has.  A
command that is not well-formed has no meaning in the spec; `exec` faults on it. -/

namespace Sys2Proof

/-- A compute core (0–215) or a service core (216–219) (R22, R23). -/
def wfCore (n : Nat) : Bool := decide (n < 220)
/-- A compute core (R23). -/
def wfCompute (n : Nat) : Bool := decide (n < 216)
/-- A compute die (R21). -/
def wfCd (n : Nat) : Bool := decide (n < 12)
/-- A die number of R9: a compute die or the IOD. -/
def wfDie (n : Nat) : Bool := decide (n < 12 ∨ n = 15)
/-- A line number: HPA bits 51:6 (R28). -/
def wfLine (n : Nat) : Bool := decide (n < 2 ^ 46)
/-- A key ID (R123). -/
def wfKey (n : Nat) : Bool := decide (n < 16384)
/-- A coherence agent of Table 6-1. -/
def wfAgent (n : Nat) : Bool := decide (n < 17)
/-- A Sceuc link (R21). -/
def wfLink (n : Nat) : Bool := decide (n < 12)
/-- A DDR5 channel (R22). -/
def wfChan (n : Nat) : Bool := decide (n < 16)
/-- A Flexible I/O group (R22). -/
def wfGroup (n : Nat) : Bool := decide (n < 8)
/-- A port of a Flexible I/O group, 4 × group + port (R591). -/
def wfPort (n : Nat) : Bool := decide (n < 32)
/-- A Lend function (Table 1-3). -/
def wfFn (n : Nat) : Bool := decide (n < 2)
/-- A queue pair (R22). -/
def wfQp (n : Nat) : Bool := decide (n < 8192)
/-- A service instance (R22). -/
def wfInst (n : Nat) : Bool := decide (n < 2048)
/-- A migration slot (R260). -/
def wfSlot (n : Nat) : Bool := decide (n < 64)
/-- The agent of a Package Control Space access. -/
def Agent.wf : Agent → Bool
  | .core n => wfCore n
  | .device => true
/-- An array error: a structure, set, way, entry or slice that the core or its die has (Table 5-1), or an error of
a service core. -/
def ArrayErr.wf (e : ArrayErr) : Bool :=
  match e.what with
  | .l1Data str line => wfCompute e.core && decide (str < 4) && wfLine line
  | .l1Tag str set way => wfCompute e.core && decide (str < 4 ∧ set < (if str = 0 then 64 else 32) ∧ way < (if str = 3 then 32 else 16))
  | .l2Data line _ => wfCompute e.core && wfLine line
  | .l2Tag way _ => wfCompute e.core && decide (way < 16)
  | .l3Data line _ => wfCompute e.core && wfLine line
  | .l3Tag slice way _ => wfCompute e.core && decide (slice < 16 ∧ way < 16)
  | .logic => decide (216 ≤ e.core ∧ e.core < 220)
/-- The array error that a command detects, if any: well-formed, and of a core that the command concerns. -/
def wfErr (o : Option ArrayErr) (p : Nat → Bool) : Bool :=
  match o with
  | some e => e.wf && p e.core
  | none => true
/-- An instruction: an existing core, a length of 2 to 16 bytes, 4 on a service core (R69, R74). -/
def Insn.wf (x : Insn) : Bool :=
  wfCore x.core && (if x.core < 216 then decide (2 ≤ x.len ∧ x.len ≤ 16) else decide (x.len = 4)) &&
  wfErr x.err (fun n => n = x.core)
/-- A load or store: a size of the Deckai Architecture Reference (R85). -/
def MemOp.wf (m : MemOp) : Bool :=
  if m.vec then decide (m.size = 64) else decide (m.size = 1 ∨ m.size = 2 ∨ m.size = 4 ∨ m.size = 8)
/-- A coherence request: agent, line, key ID and core exist; an atomic lies in its line. -/
def HomeReq.wf (r : HomeReq) : Bool :=
  wfAgent r.agent && wfLine r.line && wfKey r.key && decide (r.offset + r.size ≤ 64) &&
  (match r.err with | some (.entry _ i) => decide (i < 65536) | some (.buffer i _) => decide (i < 65536) | none => true)
/-- A request that carries no data meets no error of a data buffer. -/
def HomeReq.bufferOk (r : HomeReq) : Bool :=
  match r.err with
  | some (.buffer _ _) => false
  | _ => true
/-- A link end. -/
def LinkEnd.wf (e : LinkEnd) : Bool := wfLink e.link
/-- An inbound request: group and port exist, at most a line long within one line. -/
def Dma.wf (d : Dma) : Bool :=
  wfGroup d.group && decide (d.port < 4) && decide (d.rid < 65536) &&
  decide (1 ≤ d.len ∧ d.addr.toNat % 64 + d.len ≤ 64)
/-- A ZCI command: its queue pair exists and its attachment fits a request (R406). -/
def ZCmd.wf (z : ZCmd) : Bool := wfQp z.qp && decide (z.attach.length ≤ 4096)
/-- A byte of a ZCI command. -/
def ZCmd.byte (z : ZCmd) (i : Nat) : Nat := z.cmd.toNat / 2 ^ (8 * i) % 256
/-- The command of a row: it carries the row's OPCODE (Table 13-9). -/
def ZCmd.is (z : ZCmd) (op : Nat) : Bool := z.wf && decide (z.byte 0 + 256 * z.byte 1 = op)
/-- The command of a row for one OP of its opcode, which stands in a byte of the parameters. -/
def ZCmd.isOp (z : ZCmd) (op i v : Nat) : Bool := z.is op && decide (z.byte i = v)
/-- The command of the row for the first OP of its opcode, or for an OP that no row names. -/
def ZCmd.isFirst (z : ZCmd) (op i : Nat) (rest : List Nat) : Bool := z.is op && !rest.contains (z.byte i)
/-- A unit of Table 18-4. -/
def UnitId.wf (u : UnitId) : Bool := wfDie u.die && decide (u.block < 256)
/-- A scratch access: an existing service core, a power-of-two size in one word or line, an offset
inside the aperture (R482–R484). -/
def ScratchAccess.wf (a : ScratchAccess) : Bool :=
  (match a.sp with | some n => decide (n < 4) | none => true) &&
  decide (a.size = 1 ∨ a.size = 2 ∨ a.size = 4 ∨ a.size = 8) &&
  decide (a.offset + a.size ≤ 33554432 ∧ a.offset % a.size = 0) &&
  a.rivals.all (fun n => decide (n < 4)) &&
  (match a.corrected with | some c => decide (c < 72) | none => true)
/-- An access to a tier (R255). -/
def TierAccess.wf (a : TierAccess) : Bool := wfLine a.line && wfKey a.key
/-- A channel access (R316): a line of the channel address space. -/
def ChanAccess.wf (a : ChanAccess) : Bool := decide (a.addr % 64 = 0 ∧ a.addr < 2 ^ 46)
/-- A fabric access (R350). -/
def FabricAccess.wf (a : FabricAccess) : Bool := decide (a.hpa < 2 ^ 52)
/-- A grant. -/
def GrantMsg.wf (g : GrantMsg) : Bool := wfCore g.core && wfLine g.line && wfKey g.key

/-- Whether a command is well-formed. -/
def Instr.wf : Instr → Bool
  | .registerWrite agent _ _ _ => agent.wf
  | .computationalInstruction x _ _ _ _ _ => x.wf
  | .loadInsn x m => x.wf && m.wf
  | .storeInsn x m => x.wf && m.wf
  | .mfsr x _ _ => x.wf
  | .mtsr x _ _ => x.wf
  | .eret x => x.wf
  | .wfi x => x.wf
  | .isync x => x.wf
  | .ret x => x.wf
  | .wkeep x => x.wf
  | .tlbsync x => x.wf
  | .scall x _ => x.wf
  | .hcall x _ => x.wf
  | .dcall x _ => x.wf
  | .brk x _ => x.wf
  | .rdtime x _ => x.wf
  | .call x _ => x.wf
  | .callr x _ => x.wf
  | .wflush x _ _ => x.wf
  | .wpmov x _ _ _ => x.wf
  | .pcmp x _ _ _ _ _ => x.wf
  | .pcmpi x _ _ _ _ _ => x.wf
  | .plog x _ _ _ _ => x.wf
  | .pmovr x _ => x.wf
  | .pmovp x _ _ => x.wf
  | .fence x _ _ => x.wf
  | .fabricFenceComplete core => wfCore core
  | .amoSwap x _ _ _ _ _ => x.wf
  | .amoAdd x _ _ _ _ _ => x.wf
  | .amoAnd x _ _ _ _ _ => x.wf
  | .amoOr x _ _ _ _ _ => x.wf
  | .amoXor x _ _ _ _ _ => x.wf
  | .amoMin x _ _ _ _ _ => x.wf
  | .amoMax x _ _ _ _ _ => x.wf
  | .amoUmin x _ _ _ _ _ => x.wf
  | .amoUmax x _ _ _ _ _ => x.wf
  | .cas x _ _ _ _ _ => x.wf
  | .cas128 x _ _ _ _ _ => x.wf
  | .cmoClean x _ => x.wf
  | .cmoInval x _ => x.wf
  | .cmoCleaninv x _ => x.wf
  | .cmoZero x _ => x.wf
  | .cmorClean x _ _ _ => x.wf
  | .cmorInval x _ _ _ => x.wf
  | .cmorCleaninv x _ _ _ => x.wf
  | .icinv x _ => x.wf
  | .icinvAll x => x.wf
  | .tlbiVaAsid x _ _ => x.wf
  | .tlbiVaAllAsid x _ _ => x.wf
  | .tlbiAsid x _ _ => x.wf
  | .tlbiStage1Vm x _ _ => x.wf
  | .tlbiIpa x _ _ => x.wf
  | .tlbiVmid x _ _ => x.wf
  | .tlbiAll x _ _ => x.wf
  | .tlbir x _ _ _ _ => x.wf
  | .tlbirIpa x _ _ _ _ => x.wf
  | .tlblock x _ _ => x.wf
  | .tlbunlock x _ => x.wf
  | .tlbunlockAll x => x.wf
  | .interrupt core => wfCore core
  | .timerInterrupt core => wfCore core
  | .ipiSend x _ => x.wf
  | .ipiArrival core _ => wfCore core
  | .extclaim x _ => x.wf
  | .interruptWindowWrite _ _ _ => true
  | .atomctlClr x _ => x.wf
  | .hardwarePrefetch core hpa key _ => wfCompute core && decide (hpa < 2 ^ 52) && wfKey key
  | .demandReissue core line => wfCompute core && wfLine line
  | .dmaWrite d _ _ => d.wf
  | .dmaRead d => d.wf
  | .msiWrite d _ => d.wf
  | .iotuInvDevice z => z.is 0x0401
  | .iotuInvVa z => z.is 0x0402
  | .iotuInvIpa z => z.is 0x0403
  | .iotuInvVmid z => z.is 0x0404
  | .iotuInvAll z => z.is 0x0405
  | .iotuFstatPop agent => agent.wf
  | .l3SliceRequest core line _ key _ _ => wfCompute core && wfLine line && wfKey key
  | .l1cCtlWrite agent core _ => agent.wf && wfCompute core
  | .l3cLockWrite agent slice _ => agent.wf && decide (slice < 192)
  | .rds r => r.wf && r.bufferOk
  | .rdo r => r.wf && r.bufferOk
  | .upg r => r.wf && r.bufferOk
  | .rdc r => r.wf && r.bufferOk
  | .wrf r => r.wf
  | .wrp r => r.wf
  | .atf r => r.wf && r.bufferOk
  | .cmc r => r.wf && r.bufferOk
  | .cmi r => r.wf && r.bufferOk
  | .cmci r => r.wf && r.bufferOk
  | .cmz r => r.wf && r.bufferOk
  | .evc r => r.wf && r.bufferOk
  | .evd r => r.wf
  | .snps die line _ err => wfAgent die && wfLine line && wfErr err (fun n => n / 18 = die)
  | .snpi die line _ err => wfAgent die && wfLine line && wfErr err (fun n => n / 18 = die)
  | .snpc die line _ err => wfAgent die && wfLine line && wfErr err (fun n => n / 18 = die)
  | .snpcur die line _ err => wfAgent die && wfLine line && wfErr err (fun n => n / 18 = die)
  | .snoopAnswer line agent _ => wfLine line && wfAgent agent
  | .grant g => g.wf
  | .cmpack agent line => wfAgent agent && wfLine line
  | .evack agent line => wfAgent agent && wfLine line
  | .defReply core line key => wfCore core && wfLine line && wfKey key
  | .waitingRequestResume slice => decide (slice < 32)
  | .snoopTimeout line agent => wfLine line && wfAgent agent
  | .memoryTimeout line => wfLine line
  | .requestTimeout agent line => wfAgent agent && wfLine line
  | .domainDownNotice _ => true
  | .domainDownExtension => true
  | .sweepSetVisit slice => decide (slice < 32)
  | .prot e _ => e.wf
  | .nullFlit e _ => e.wf
  | .nak e _ => e.wf
  | .widthReq e _ _ => e.wf
  | .widthAck e _ _ => e.wf
  | .widthWdraw e _ _ => e.wf
  | .mapswitch e _ => e.wf
  | .replayBufferDrained e => e.wf
  | .audit e _ _ _ => e.wf
  | .auditSend e => e.wf
  | .pmReq e _ => e.wf
  | .pmAck e _ => e.wf
  | .pmNak e _ => e.wf
  | .lp2Idle e => e.wf
  | .lp1Entry e => e.wf
  | .wakePattern e => e.wf
  | .replayTimeout e => e.wf
  | .fullTraining e => e.wf
  | .trainingPatternDetect e => e.wf
  | .trainingComplete link _ => wfLink link
  | .trainingTimeout e => e.wf
  | .retrain agent e => agent.wf && e.wf
  | .lockLoss e => e.wf
  | .lockRegained e => e.wf
  | .lockTimeout e => e.wf
  | .burst e _ => e.wf
  | .sba e _ => e.wf
  | .sbr e _ => e.wf
  | .burstTimeout e _ => e.wf
  | .computeDiePhaseEnd => true
  | .tieredAccess a => a.wf
  | .decompressedLine slot _ => wfSlot slot
  | .starvedRequestResume => true
  | .heatDecayVisit => true
  | .decayWrite agent _ => agent.wf
  | .migrationCopy slot line _ => wfSlot slot && decide (line < 64)
  | .sourceFrameFree slot => wfSlot slot
  | .compressionComplete slot => wfSlot slot
  | .migrationSlotFree => true
  | .evacuationResume => true
  | .evacuationComplete => true
  | .tierQuery z => z.is 0x1001
  | .tierReport z => z.is 0x1002
  | .tierMove z => z.is 0x1003
  | .tierPin z => z.is 0x1004
  | .tierUnpin z => z.is 0x1005
  | .tierDiscard z => z.is 0x1006
  | .tierSetQuota z => z.is 0x1007
  | .tierEvacuate z => z.is 0x1008
  | .tierCancel z => z.is 0x1009
  | .keyTransport z => z.is 0x1201
  | .keyLoad z => z.is 0x1202
  | .keyRotate z => z.is 0x1203
  | .keyErase z => z.is 0x1204
  | .keyQuery z => z.is 0x1205
  | .rekeyTransaction slot line => wfSlot slot && decide (line < 64)
  | .cdnCompress z => z.is 0x1101
  | .cdnDecompress z => z.is 0x1102
  | .segmentComplete _ => true
  | .mcRead ch a _ => wfChan ch && a.wf
  | .mcWrite ch a _ _ => wfChan ch && a.wf
  | .alert ch => wfChan ch
  | .alertClear ch => wfChan ch
  | .alertTimeout ch => wfChan ch
  | .refresh ch rank => wfChan ch && decide (rank < 4)
  | .mr4Poll ch _ => wfChan ch
  | .panicAge ch => wfChan ch
  | .scrubRead ch _ => wfChan ch
  | .remeasurementStep ch _ => wfChan ch
  | .configRequest bus dev off _ _ => decide (bus < 256) && decide (dev < 256) && decide (off < 4096)
  | .completionTimeout port _ => wfPort port
  | .dpcTrigger port _ => wfPort port
  | .dpcRelease port _ => wfPort port
  | .ideKeyInstall port _ _ _ => wfPort port
  | .ideKeyClear port _ => wfPort port
  | .t1RangeActivate agent _ => agent.wf
  | .fwtCommit agent _ => agent.wf
  | .fabricWindowAccess a => a.wf
  | .fabricCompletion _ _ _ => true
  | .fabricCompletionTimeout _ => true
  | .sceucXJoin group _ _ _ _ _ => wfGroup group
  | .sceucXLaneFail group _ _ => wfGroup group
  | .sceucXLockTimeout group => wfGroup group
  | .memrd fn _ _ => wfFn fn
  | .memwr fn _ _ _ _ => wfFn fn
  | .memwrptl fn _ _ _ _ => wfFn fn
  | .lendAnswerTimeout fn _ => wfFn fn
  | .expansionRomRead fn off => wfFn fn && decide (off < 65536)
  | .identify fn => wfFn fn
  | .backgroundOperationStatus fn => wfFn fn
  | .getEventRecords fn => wfFn fn
  | .clearEventRecords fn _ => wfFn fn
  | .getEventInterruptPolicy fn => wfFn fn
  | .setEventInterruptPolicy fn _ => wfFn fn
  | .getSupportedLogs fn => wfFn fn
  | .getLog fn => wfFn fn
  | .identifyMemoryDevice fn => wfFn fn
  | .getPartitionInfo fn => wfFn fn
  | .getHealthInfo fn => wfFn fn
  | .getPoisonList fn _ _ => wfFn fn
  | .sanitize fn => wfFn fn
  | .getPoisonListDma fn _ _ => wfFn fn
  | .getEventRecordsDma fn _ _ => wfFn fn
  | .discardRangesDma fn _ _ => wfFn fn
  | .mailboxDmaCompletion fn _ _ => wfFn fn
  | .mailboxDmaTimeout fn _ => wfFn fn
  | .busMasterEnableClear fn => wfFn fn
  | .busMasterEnableSet fn => wfFn fn
  | .functionLevelReset fn => wfFn fn
  | .cxlReset fn _ => wfFn fn
  | .lendPerst fn => wfFn fn
  | .lendSetRange z => z.is 0x1801
  | .lendQuery z => z.is 0x1802
  | .lendFreeze z => z.is 0x1803
  | .lendRelease z => z.is 0x1804
  | .lendRomLoad z => z.is 0x1805
  | .sqtail agent qp _ => agent.wf && wfQp qp
  | .rqhead agent qp _ => agent.wf && wfQp qp
  | .commandTake qp => wfQp qp
  | .fenceBeforeRelease qp => wfQp qp
  | .sfAccept _ => true
  | .sfAcceptanceTimeout _ => true
  | .firmwareReply _ _ _ _ => true
  | .bootMailboxRequest _ _ => true
  | .hqenEnable agent => agent.wf
  | .hqenDisable agent => agent.wf
  | .zciIdentify z => z.is 0x0001
  | .zciNop z => z.is 0x0002
  | .zciQueueSetEnable z => z.isFirst 0x0003 20 [1]
  | .zciQueueSetDisable z => z.isOp 0x0003 20 1
  | .queueDrainComplete qp => wfQp qp
  | .sviConfig z => z.is 0x0801
  | .sviResetDrain z => z.isFirst 0x0802 16 [1, 2]
  | .sviResetSquash z => z.isOp 0x0802 16 1
  | .sviResetRelease z => z.isOp 0x0802 16 2
  | .sviResetComplete inst => wfInst inst
  | .sviQuery z => z.is 0x0803
  | .sviLogStart z => z.isFirst 0x0804 16 [1, 2]
  | .sviLogRead z => z.isOp 0x0804 16 1
  | .sviLogStop z => z.isOp 0x0804 16 2
  | .sviFreeze z => z.is 0x0805
  | .sviFreezeComplete inst => wfInst inst
  | .sviSave z => z.is 0x0806
  | .sviRestore z => z.is 0x0807
  | .sviThaw z => z.is 0x0808
  | .wldHoldWrite agent i w _ => agent.wf && decide (i < 13) && decide (w < 4)
  | .plannedRetirementStart u => u.wf
  | .retirementComplete u => u.wf
  | .tamper => true
  | .watchdogKick agent => agent.wf
  | .watchdogWarning => true
  | .watchdogExpiry => true
  | .pdbBegin z => z.is 0x0101
  | .pdbData z => z.is 0x0102
  | .pdbCommit z => z.is 0x0103
  | .pdbStatus z => z.is 0x0104
  | .fwLoad z => z.is 0x7F01
  | .fwActivateSafelight z => z.isFirst 0x7F02 16 [1, 2, 3]
  | .fwActivateServiceFw z => z.isOp 0x7F02 16 1
  | .fwActivateMonitor z => z.isOp 0x7F02 16 2
  | .fwActivateHostFw z => z.isOp 0x7F02 16 3
  | .fwQuery z => z.is 0x7F03
  | .bootWindowClose => true
  | .remapStoreTaken _ _ => true
  | .xrReadRegisters z => z.isFirst 0x3001 16 [1, 2]
  | .xrReadLog z => z.isOp 0x3001 16 1
  | .xrReadIdentity z => z.isOp 0x3001 16 2
  | .xrQuote z => z.is 0x3002
  | .xrExtend z => z.is 0x3003
  | .scratchAccess a => a.wf
  | .correctedWordWriteback off => decide (off < 33554432 ∧ off % 8 = 0)
  | .ssmCtlLock agent => agent.wf
  | .ssmBankpwrWrite agent r _ => agent.wf && decide (r < 2)
  | .bankRetentionEntry bank => decide (bank < 64)
  | .bankWake bank => decide (bank < 64)
  | .scratchWipeComplete => true
  | .targetWrite agent die _ => agent.wf && wfCd die
  | .guardWrite agent die _ => agent.wf && wfDie die
  | .avsbusComplete rail => decide (rail < 13)
  | .avsbusTimeout rail => decide (rail < 13)
  | .powerManagerSample _ _ => true
  | .thermalSample die _ => wfDie die
  | .thermtrip die => wfDie die
  | .coreWake core => wfCore core
  | .dieStateEntry die => wfCd die
  | .dieWake die _ => wfCd die
  | .packageStateEntry => true
  | .packageStateExit _ => true
  | .pwrQuery z => z.is 0x2001
  | .pwrSetLimit z => z.is 0x2002
  | .pwrSetMaxps z => z.isFirst 0x2003 16 [1, 2, 3]
  | .pwrSetTarget z => z.isOp 0x2003 16 1
  | .park z => z.isOp 0x2003 16 2
  | .unpark z => z.isOp 0x2003 16 3
  | .grcReadSensors z => z.isFirst 0x2004 16 [1]
  | .grcReadWearLog z => z.isOp 0x2004 16 1
  | .greyCardSample die i _ => wfDie die && decide (i < 64)
  | .bracketingPass _ _ => true
  | .rasRecords z => z.is 0x2801
  | .rasUnitState z => z.is 0x2802
  | .rasRetire z => z.isFirst 0x2803 16 [1]
  | .rasRetireDieReset z => z.isOp 0x2803 16 1
  | .rasClearRecords z => z.isFirst 0x2804 16 [1]
  | .rasClearElement z => z.isOp 0x2804 16 1
  | .dieSelfReset die => wfCd die
  | .errNRelease => true
  | .evtCntWrite agent _ _ => agent.wf
  | .contactSheetSample => true
  | .sheetWritten => true
  | .cshStart z => z.is 0x4002
  | .cshStop z => z.is 0x4003
  | .evtSnapshot z => z.is 0x4001
  | .tstRun z => z.is 0x3801
  | .testTimeout _ => true
  | .testEnd _ => true
  | .tstResult z => z.is 0x3802
  | .agtSet z => z.is 0x3C01
  | .agtClear z => z.is 0x3C02
  | .powerOn => true
  | .coldReset => true
  | .coldResetEnd _ => true
  | .warmRstN => true
  | .supplyFault => true
  | .entdaa _ => true
  | .flitCrcFailure e _ => e.wf
  | .reservedTypeFlit e _ => e.wf
  | .clockHopComplete die => wfCd die
  | .pcieCompletion port _ _ _ => wfPort port
  | .tier1MemoryCompletion _ _ _ => true
  | .unitCopyComplete slot => wfSlot slot
  | .blobRekeyComplete slot => wfSlot slot
  | .portLinkUp port _ _ => wfPort port
  | .portLinkDown port => wfPort port
  | .sceucXReplay group _ => wfGroup group
  | .dmaAtomicop d _ _ _ _ => d.wf
  | .lendConfigAccess fn _ => wfFn fn
  | .tamperNRelease => true

end Sys2Proof
end

