-- ==== Sys2Proof/Machine/State.lean ====
section
/-! DEFINITION.
The state of the block as plain data: every register, memory, buffer, queue and mode the spec gives
the package, the faults and refusals, and the state right after reset. -/

namespace Sys2Proof.Machine
/-! ### Platform, fuses, trust and boot -/

/-- A MEMMAP record of the Platform Description Block (R469). -/
structure MapRec where
  base    : Nat
  size    : Nat
  kind    : Nat
  slotLog : Nat
  group   : Nat
  socket  : Nat
  deriving DecidableEq, Repr

/-- An INTERLEAVE record: the channels of the set, its MA base and size (R315, Table 15-5). -/
structure SetRec where
  chans  : List Nat
  maBase : Nat
  size   : Nat
  deriving DecidableEq, Repr

/-- A TIER1 record (Table 11-5). -/
structure T1Rec where
  group   : Nat
  port    : Nat
  cxlBase : Nat
  size    : Nat
  maBase  : Nat
  deriving DecidableEq, Repr

/-- A CHANNELS record (Table 10-3): its 64 bytes as one number, byte 0 lowest. -/
abbrev ChanRec := BitVec 512

/-- A GROUPS record (Table 15-5). -/
structure GroupRec where
  role    : Nat
  bifur   : Nat
  peer    : Nat
  busBase : Nat
  busLim  : Nat
  pipe    : Nat
  ownId   : Nat
  deriving DecidableEq, Repr

/-- A Wear Log record (R518): TYPE, DIE, INDEX and data. -/
structure WearRec where
  typ   : Nat
  die   : Nat
  index : Nat
  data  : List Byte
  deriving DecidableEq, Repr

/-- What the accepted Platform Description Block supplied (R20, R466–R472). -/
structure Plat where
  accepted : Bool
  socket   : Nat
  memmap   : List MapRec
  sets     : List SetRec
  t1       : List T1Rec
  chans    : List ChanRec
  groups   : List GroupRec
  ownerKey : BitVec 256
  monKey   : Nat
  monBase  : Nat
  monSize  : Nat
  wearGen  : Nat
  wear     : List WearRec
  /-- the SOCKET and CAPMASK of the block accepted at the last cold boot (R472). -/
  coldKey  : Option (Nat × Nat)
  deriving DecidableEq, Repr

/-- The fuses of the package (R33, R445, R459, R474, R486, R517), with the eight points and the ceiling of each compute
die (R496). -/
structure Fuses where
  cdWord    : List Word
  iodWord   : Word
  lifecycle : Nat
  serial    : Word
  authority : BitVec 256
  romDigest : BitVec 256
  vf        : List (List (Nat × Nat))
  vmax      : List Nat
  iodMv     : Nat
  iodVmax   : Nat
  repair    : List Nat
  deriving DecidableEq, Repr

/-- A firmware image that the boot mailbox loads (R459–R461). -/
structure Image where
  bytes    : List Byte
  received : Nat
  deriving DecidableEq, Repr

/-- An activated component: the SVN and SIZE of its header (R461). -/
structure Active where
  svn   : Nat
  size  : Nat
  entry : Nat
  load  : Nat
  deriving DecidableEq, Repr

/-- An entry of the Exposure Record log (R476): the bytes it holds and the event's SEQ. -/
structure LogEnt where
  seq   : Nat
  bytes : List Byte
  deriving DecidableEq, Repr

/-- The boot sequence and the Exposure Record (spec/15). STAGE, COMPS, XR0–XR31 and XRC_STAT are
PCS registers. -/
structure BootSt where
  /-- SP0 has left reset (R491). -/
  sp0Up      : Bool
  released   : Bool
  /-- LENGTH of the block being staged and the bytes received, if PDB_BEGIN has run (R466). -/
  pdb        : Option (Nat × List Byte)
  images     : List (Option Image)
  active     : List (Option Active)
  log        : List LogEnt
  windowOpen : Bool
  cdPhase    : Bool
  windowTime : Nat
  /-- the PDB or warm reset has fixed the effective set this cold boot (R36, R37). -/
  effFixed   : Bool
  /-- the authority public key, as the activated Safelight image carried it (R447, R459; log 32). -/
  authKey    : List Byte
  /-- the monitor entry point of the activated component 2 (R462). -/
  monEntry   : Nat
  /-- a warm reset runs: SP0 has not entered stage 0 since (R589). -/
  warm       : Bool
  deriving DecidableEq, Repr

/-- World state outside the registers: the SM2 identity key pair (R448, R479), the last watchdog
kick and whether the tamper input's present low period has already counted (R450, R585). -/
structure WldSt where
  idPriv     : Option (BitVec 256)
  kicked     : Nat
  warned     : Bool
  tamperLow  : Bool
  tamperUsed : Bool
  /-- the state that a lifecycle change left, until the next boot has extended it (R448). -/
  oldLife    : Option Nat
  deriving DecidableEq, Repr

/-! ### Scratch memory, power, errors, observation, pins -/

/-- Scratch memory (spec/16): its words (by offset / 8), the poisoned words, the banks' last
granted service core, corrected words waiting for write-back and whether the reset wipe runs. -/
structure SsmSt where
  words     : SMap Word
  poison    : SMap Bool
  lastGrant : SMap Nat
  pendingWb : List Nat
  waking    : List Nat
  /-- accesses that wait for their bank to wake or for the wipe to end, oldest first. -/
  waiting   : List ScratchAccess
  wiping    : Bool
  deriving DecidableEq, Repr

/-- The transition of one rail (R498, R501). -/
inductive RailTrans where
  | idle
  /-- waiting for the AVSBus raise to the point N. -/
  | raising (n guard : Nat)
  /-- CCLK hops to N with the rail already high enough. -/
  | hopUp (n guard : Nat)
  /-- CCLK hops down to N; the guard then comes into force and the rail is lowered. -/
  | hopDown (n guard : Nat)
  /-- waiting for the AVSBus lower. -/
  | lowering (n guard : Nat)
  deriving DecidableEq, Repr

/-- The power state of one rail: the guard in force, the transition, the AVSBus voltage commanded,
the consecutive expiries, and whether the rail is stopped (R500). -/
structure RailSt where
  guard    : Nat
  trans    : RailTrans
  target   : Nat
  expiries : Nat
  frozen   : Bool
  deriving DecidableEq, Repr

/-- Power management state outside the registers (spec/17). -/
structure PwrSt where
  rails    : SMap RailSt
  /-- the smallest margin each CPR ever showed, by die × 64 + monitor (Table 17-9). -/
  cprMin   : SMap Int
  mw1      : Nat
  mwTau    : Nat
  junction : SMap Int
  /-- the receiver lane margins that each Flexible I/O group in L0 measured at the last Bracketing pass (R511, log 35). -/
  laneMargins : SMap Word
  /-- consecutive Bracketing passes with a narrow window, by channel (Table 17-8). -/
  passes   : SMap Nat
  /-- when NCAP, and each die's TCAP, last changed or stopped being free to rise (R502, R503). -/
  ncapAt   : Nat
  tcapAt   : SMap Nat
  deriving DecidableEq, Repr

/-- An error record (Table 18-8). -/
structure ErrRec where
  seq     : Nat
  element : Nat
  time    : Nat
  cls     : Nat
  flags   : BitVec 8
  kind    : Nat
  count   : Nat
  hpa     : Nat
  ma      : Word
  key     : Nat
  agent   : Nat
  detail  : Nat
  syn0    : Word
  syn1    : Word
  deriving DecidableEq, Repr

/-- The states of Table 18-4. -/
inductive UnitState where
  | online | degraded | retiring | retired | lost
  deriving DecidableEq, Repr

/-- A unit (R529): its state, GEN, its most recent permanent Element, the Element that caused its
retirement, and whether a LOST unit stays out until the next cold reset (R595). -/
structure UnitSt where
  st     : UnitState
  gen    : BitVec 16
  perm   : Option Nat
  cause  : Option Nat
  sticky : Bool
  started : Bool
  deriving DecidableEq, Repr

/-- The errors and retirement state (spec/18): the log, oldest first; the tracked Elements with the
times of their counted errors, newest first; the permanent Elements; the units by die × 256 + block
(block 0xFF a whole die); the retirements whose CONFIG event and Wear Log record are due (R595); the PC
ENTRY at which the cores of a die that has been reset are released once its link has trained (R538). -/
structure RasSt where
  log     : List ErrRec
  tracked : List (Nat × List Nat)
  perm    : List Nat
  units   : SMap UnitSt
  retired : List (Nat × Nat)
  due     : List (Nat × Nat × Nat)
  entry   : SMap Word
  deriving DecidableEq, Repr

/-- A sample of a Contact Sheet in the shadow copy (R549): its number, its T and every counter. -/
structure Sample where
  k      : Nat
  t      : Nat
  values : List Nat
  deriving DecidableEq, Repr

/-- A running Contact Sheet (R550–R553): its command, T0, the next sample, the previous sheet written,
the samples lost, whether the next sheet carries GAP, the CSH_STOP commands that wait, and the sample that
is being written. -/
structure SheetRun where
  z       : ZCmd
  t0      : Nat
  next    : Nat
  last    : Option Sample
  lost    : Nat
  gap     : Bool
  stops   : List Nat
  stopped : Bool
  writing : Option Sample
  deriving DecidableEq, Repr

/-- A running Test Strip (R556–R563): the command that started it, its target and kind, and N and
VOFF as the command gave them. -/
structure TestRun where
  id    : Nat
  die   : Nat
  block : Nat
  kind  : Nat
  n     : Nat
  voff  : Nat
  deriving DecidableEq, Repr

/-- Observation and test state outside the registers (spec/19). -/
structure CntSt where
  sheet   : Option SheetRun
  test    : Option TestRun
  results : List TestEntry
  /-- messages counted against each Agitation slot. -/
  agt     : SMap Nat
  deriving DecidableEq, Repr

/-- The package signals (spec/21): inputs as last driven (true is high), outputs as asserted
(true is asserted), the time ERR_N was last asserted and the I3C identity. -/
structure PinSt where
  pwrgood   : Bool
  coldRstN  : Bool
  warmRstN  : Bool
  tamperN   : Bool
  testen    : Bool
  fatal     : Bool
  err       : Bool
  errTime   : Nat
  thermtrip : Bool
  pid       : BitVec 48
  i3cAddr   : Option (BitVec 7)
  /-- a cold reset holds the package (R582). -/
  inCold    : Bool
  /-- the standby logic holds a thermal trip that no boot has recorded (R587). -/
  tripped   : Bool
  /-- the root ports whose PERST_N is released (R591). -/
  perst     : List Nat
  deriving DecidableEq, Repr
/-! ### Media, Darkslide, Condenser, Enlarger, DDR5 channels -/

/-- What a data unit on media was encrypted under (R284): algorithm, key pair, tweak. -/
structure Seal where
  alg   : Nat
  k1    : BitVec 256
  k2    : BitVec 256
  tweak : Nat
  deriving DecidableEq, Repr

/-- A 64-byte line of media: the data, the seal it was written under (none: raw bytes that no
seal produced) and the poison mark (R325).  The ciphertext itself is not modelled: reading under
the same seal gives the data, reading under another gives `Config.garble`. -/
structure MLine where
  data   : Line
  sealed : Option Seal
  poison : Bool
  deriving DecidableEq, Repr

/-- A tier-2 blob (R263, R306): the 64 lines it expands to, its poison map, its units, the seal of
its unit 0 and whether its stored check is bad. -/
structure Blob where
  lines  : List Line
  poison : BitVec 64
  units  : Nat
  sealed : Seal
  bad    : Bool
  deriving DecidableEq, Repr

/-- A frame entry (Table 8-3). `tier` 3 is a zero frame; `unit` is MA[44:9]. -/
structure FrameEnt where
  tier   : Nat
  move   : Bool
  pin    : Bool
  incomp : Bool
  mixed  : Bool
  heat   : Nat
  units  : Nat
  pool   : Nat
  fkey   : Nat
  unit   : Nat
  deriving DecidableEq, Repr

/-- The entry of every frame after reset (R250). -/
def FrameEnt.zero : FrameEnt := ⟨3, false, false, false, false, 0, 0, 0, 0, 0⟩

/-- The place a media frame is in besides the free pool (R273). -/
inductive MediaUse where
  | remap
  | frame (f : Nat)
  | slot (n : Nat)
  | pool
  deriving DecidableEq, Repr

/-- What a migration slot does. -/
inductive SlotKind where
  /-- uncompressed move (R260). -/
  | copy
  /-- compressing move into pool frames of a tier (R263). -/
  | compress (pool : Nat)
  /-- decompression, on touch or by TIER_MOVE (R266). -/
  | decompress
  /-- ciphertext copy of a blob's units (R275 step 4, Table 8-8). -/
  | unitCopy
  /-- rekeying a tier-0 or tier-1 frame (R299). -/
  | rekey (engine : Nat)
  /-- rekeying a blob in place (R299). -/
  | rekeyBlob (engine : Nat)
  deriving DecidableEq, Repr

/-- A line of the 4 KiB staging buffer: its data, poison, and whether it was written after its
copy (R264, R265). -/
structure Staged where
  data   : Line
  poison : Bool
  dirty  : Bool
  deriving DecidableEq, Repr

/-- A migration slot (R260): the frame's HPA >> 12, source and destination media frames (key of
`MediaUse`) or first unit, the moved-map, the staging buffer, the closed flag, its owner and
whether it only awaits the drain of R260 step 6. -/
structure Slot where
  kind     : SlotKind
  frame    : Nat
  src      : Nat
  dst      : Nat
  moved    : BitVec 64
  staging  : SMap Staged
  closed   : Bool
  cmd      : Option Nat
  pinAfter : Bool
  touch    : Bool
  evac     : Bool
  draining : Bool
  /-- the source holds units of a blob (true) or a frame (false). -/
  srcUnits : Bool
  /-- the blob failed its check twice (R268). -/
  bad      : Bool
  deriving DecidableEq, Repr

/-- The kinds of class 0x10 commands that queue frames. -/
inductive TierKind where
  | move (target : Nat) (force : Bool)
  | pin (target : Nat) (key : Nat)
  | discard
  | report (buffer : Nat)
  | evacuate
  deriving DecidableEq, Repr

/-- An outstanding class 0x10 command: the outstanding-command id, the frames (or regions) not yet
started, and the counts of its final reply (R279). -/
structure TierCmd where
  id      : Nat
  kind    : TierKind
  next    : Nat
  left    : Nat
  active  : Nat
  moved   : Nat
  skipped : Nat
  nospace : Nat
  incomp  : Nat
  aborted : Nat
  deriving DecidableEq, Repr

/-- An evacuation (R274): tier, set or range, the command ids that wait for it, whether a retirement
follows it and whether it has stalled. -/
structure Evac where
  tier   : Nat
  set    : Nat
  cmds   : List Nat
  retire : Bool
  stall  : Bool
  deriving DecidableEq, Repr

/-- The Enlarger (spec/08). -/
structure EnlSt where
  /-- the Enlarger has taken its remap store (R252, R454). -/
  up        : Bool
  frames    : SMap FrameEnt
  /-- frame table of each FRAMED region: region number to tier-0 frame (R252). -/
  tables    : SMap Nat
  /-- the frames of the region table, in the order of its descriptors (R252). -/
  regTab    : List Nat
  /-- every media frame that is not free, by `mediaKey` (R273). -/
  used      : SMap MediaUse
  /-- pool frames: the frame that occupies each of the eight units (R249). -/
  pools     : SMap (List (Option Nat))
  /-- interleave sets withheld or withdrawn, tier-1 ranges withdrawn, as tier × 256 + number. -/
  withheld  : List Nat
  withdrawn : List Nat
  /-- tier-1 ranges behind a contained host root port (R345). -/
  dead      : List Nat
  slots     : SMap Slot
  cmds      : List TierCmd
  /-- T0MAX and T1MAX of each group that has a quota (R270). -/
  quotas    : SMap (Nat × Nat)
  overq     : SMap Nat
  evacs     : List Evac
  /-- eligible misses counted by each home slice since its last sample (R259). -/
  samples   : SMap Nat
  decayPos  : Nat
  decayOn   : Bool
  /-- the lines whose request waits for media (R258), and the accesses that wait without a transaction of a home. -/
  starved   : List Nat
  held      : List TierAccess
  /-- the remap cache, newest first: the regions whose descriptors it holds, and the groups of eight frames whose entries
  it holds (R254). -/
  rdesc     : List Nat
  rents     : List Nat
  deriving DecidableEq, Repr

/-- A key context (Table 9-3). -/
structure KeyCtx where
  st   : Nat
  alg  : Nat
  dark : Bool
  k1   : BitVec 256
  k2   : BitVec 256
  oalg : Nat
  o1   : BitVec 256
  o2   : BitVec 256
  gen  : BitVec 16
  deriving DecidableEq, Repr

/-- A running rotation (R297–R300): key ID, range, P, the next frame to start, the finished frames
at or above P, the counts and the command it answers. -/
structure Rot where
  key      : Nat
  first    : Nat
  count    : Nat
  p        : Nat
  next     : Nat
  finished : List Nat
  frames   : Nat
  blobs    : Nat
  skipped  : Nat
  mixed    : Nat
  cmd      : Nat
  order    : Nat
  deriving DecidableEq, Repr

/-- The Darkslide (spec/09): contexts, internal key pair, transport key pair, rotation engines. -/
structure DksSt where
  ctx   : SMap KeyCtx
  ik1   : BitVec 256
  ik2   : BitVec 256
  tpriv : BitVec 256
  rots  : SMap Rot
  deriving DecidableEq, Repr

/-- A service compression in the Condenser (R305, R310): the command's id, whether it compresses,
the input bytes still to process, and its outcome. -/
structure CdnJob where
  id       : Nat
  compress : Bool
  left     : Nat
  lane     : Bool
  status   : Nat
  detail   : Nat
  out      : List Byte
  dest     : Nat
  used     : Nat
  crc      : BitVec 32
  deriving DecidableEq, Repr

/-- A command waiting in a channel controller while ALERT_n holds it (R327, R329), with what its read finds. -/
structure ChanCmd where
  addr   : Nat
  rt     : Bool
  write  : Bool
  data   : Line
  poison : Bool
  found  : ReadOutcome
  deriving DecidableEq, Repr

/-- A channel controller's state outside its registers (spec/10): ALERT_n recovery, the commands
held, refresh intervals owed by rank, ranks at halved interval, activation counts by bank, the rank
that re-measurement takes next, the narrowest window of the last re-measurement (R511), and whether the Lend endpoint signals panic. -/
structure Chan where
  alerted   : Bool
  attempts  : Nat
  queue     : List ChanCmd
  owed      : SMap Nat
  hot       : SMap Bool
  raa       : SMap Nat
  rank      : Nat
  window    : Option Nat
  lendPanic : Bool
  agePanic  : Bool
  erased    : List Nat
  deriving DecidableEq, Repr
/-! ### Cores and caches -/

/-- Cache line states (Table 6-2). -/
inductive CSt where
  | i | s | e | o | m
  deriving DecidableEq, Repr

/-- A line of an L2, an L3 slice or the service cores' caches (R156, R157, R181, R427). -/
structure CLine where
  line   : Nat
  st     : CSt
  data   : Line
  poison : Bool
  key    : Nat
  dark   : Bool
  deriving DecidableEq, Repr

/-- A 64-byte sector of the L1D, the victim cache or the side buffer (R153, R162, R163). -/
structure Sector where
  line   : Nat
  data   : Line
  poison : Bool
  dirty  : Bool
  key    : Nat
  dark   : Bool
  deriving DecidableEq, Repr

/-- A way of the L1D: the 128-byte tag (HPA >> 7) and its two sectors (R153). -/
structure L1Way where
  tag : Nat
  s0  : Option Sector
  s1  : Option Sector
  deriving DecidableEq, Repr

/-- A line of the L1I. -/
structure L1ILine where
  line   : Nat
  key    : Nat
  dark   : Bool
  poison : Bool
  deriving DecidableEq, Repr

/-- A TLB entry (R138, R139). `asid` none is global; `s2only` entries map IPA to HPA; `root1` and `root2` are the
level-0 tables of the stages under which it was made, none for a stage that was disabled (R121, R146). -/
structure TlbEnt where
  regime : Nat
  vmid   : Nat
  asid   : Option Nat
  root1  : Option Nat
  root2  : Option Nat
  s2only : Bool
  base   : Nat
  size   : Nat
  pa     : Nat
  key    : Nat
  attr1  : Option Nat
  attr2  : Option Nat
  u      : Bool
  x      : Bool
  w      : Bool
  d      : Bool
  s2     : Bool
  r2     : Bool
  w2     : Bool
  x2     : Bool
  d2     : Bool
  /-- the level of the stage-1 and stage-2 leaves, for the syndrome. -/
  lv1    : Nat
  lv2    : Nat
  /-- the IPA of the first byte, which a stage-2 fault reports (R137). -/
  ipa    : Nat
  deriving DecidableEq, Repr

/-- A walk-cache entry (Table 4-5): the table that the entry of `level` for this input prefix
names, on walks from the level-0 table `root`. -/
structure WalkEnt where
  regime : Nat
  vmid   : Nat
  asid   : Option Nat
  root   : Nat
  stage2 : Bool
  level  : Nat
  prefx  : Nat
  table  : Nat
  deriving DecidableEq, Repr

/-- A store in the store buffer (R87): line-contained bytes at an HPA, its type (Table 3-3), key ID
and world.  An entry with `amo` is a posted far AMO (R108); `rel` marks release kind, `fab` its fabric scope (R84, R88);
`trains` says that a posted AMO still updates the contention predictor (R112, R113). -/
structure SbEnt where
  hpa    : Nat
  size   : Nat
  data   : Line
  type   : Nat
  key    : Nat
  dark   : Bool
  amo    : Option (AmoOp × Nat)
  rel    : Bool
  fab    : Bool
  trains : Bool
  deriving DecidableEq, Repr

/-- The L1 structure that has a miss entry open for a line of the L2's (R153, R162). -/
inductive L1Of where
  | none | l1i | l1d
  deriving DecidableEq, Repr

/-- An open miss entry of a core (R153, R175): the fill that its L2 awaits, the L1 that awaits it too, and the
maintenance-pending flag. -/
structure Miss where
  line  : Nat
  write : Bool
  maint : Bool
  spec  : Bool
  key   : Nat
  l1    : L1Of
  deriving DecidableEq, Repr

/-- A device load outstanding at a root port (R101, R343): its port, tag, address and size, and the
data once its completion has arrived. -/
structure DevWait where
  port : Nat
  tag  : Nat
  hpa  : Nat
  size : Nat
  done : Option (Line × Bool)
  deriving DecidableEq, Repr

/-- The caches of one compute core (spec/05). Keys of `l1i`, `l1d` and `l2` are set × 16 + way. -/
structure CoreCaches where
  l1i    : SMap L1ILine
  l1d    : SMap L1Way
  vc     : List Sector
  sbuf   : List Sector
  l2     : SMap CLine
  plru   : SMap (BitVec 15)
  misses : List Miss
  deriving DecidableEq, Repr

/-- The translation caches of one core (Table 4-5), newest first. -/
structure CoreTlbs where
  itlb   : List TlbEnt
  dtlb   : List TlbEnt
  l2tlb  : List TlbEnt
  locked : List TlbEnt
  walk1  : List WalkEnt
  walk2  : List WalkEnt
  deriving DecidableEq, Repr

/-- A compute core (0–215) or a service core (216–219). -/
structure Core where
  c        : SMap Word
  win      : SMap Word
  preds    : BitVec 16
  v        : SMap Line
  pc       : Word
  /-- state registers by number (Table 2-5, Table 14-2). -/
  sr       : SMap Word
  cwp      : Nat
  oldest   : Nat
  /-- owner of each frame: level × 2 + world (R48). -/
  owners   : SMap Nat
  released : Bool
  /-- WFI waits (in the Darkroom, or before the low-power state is left). -/
  waiting  : Bool
  sb       : List SbEnt
  /-- fabric stores and far atomics not yet acknowledged by their endpoint, by tag (R94). -/
  fabric   : List Nat
  /-- lines whose speculative access received Def (R117). -/
  deferred : List (Nat × Nat)
  /-- the device loads of the running instruction (R101). -/
  dev      : List DevWait
  /-- a near atomic that waits for its line: the line, and whether its request found another copy (R111). -/
  nearTry  : Option (Nat × Bool)
  ext      : BitVec 256
  /-- SXG of TGUARD_S and of its Darkroom copy as the last ISYNC found it: it governs fetches (R126). -/
  sxgS     : Bool
  sxgD     : Bool
  /-- contention predictor counters (R110). -/
  pred     : SMap Nat
  caches   : CoreCaches
  tlbs     : CoreTlbs
  deriving DecidableEq, Repr

/-! ### Home-agent slices and directory -/

/-- Directory states (Table 6-3); an absent entry is I. -/
inductive DSt where
  | s | x | o
  deriving DecidableEq, Repr

/-- A directory entry (R180): `sharers` has one bit per agent of Table 6-1. -/
structure DirEnt where
  line    : Nat
  st      : DSt
  owner   : Nat
  sharers : BitVec 32
  proxy   : Bool
  busy    : Bool
  dark    : Bool
  deriving DecidableEq, Repr

/-- The requests of Table 6-5, and the directory eviction. -/
inductive ReqKind where
  | rds | rdo | upg | rdc | wrf | wrp | atf | cmc | cmi | cmci | cmz | evc | evd | evict
  deriving DecidableEq, Repr

/-- The snoops of Table 6-4. -/
inductive SnpKind where
  | s | i | c | cur
  deriving DecidableEq, Repr

/-- What a requester receives. -/
inductive HomeAns where
  | wait
  | deferred
  | granted (g : GrantMsg)
  | reply (data : Line) (poison contended noFill : Bool)
  | done
  deriving DecidableEq, Repr

/-- How a requester learns the end of its request: by a message, by an answer that is kept until it takes it, by a
completion at its root port, or not at all. -/
inductive ReqMode where
  | msg | held | post
  | port (d : Dma)
  deriving DecidableEq, Repr

/-- A request that waits at a slice, or that a requester has outstanding (R175, R191, R192, R204). -/
structure Pend where
  kind   : ReqKind
  req    : HomeReq
  mode   : ReqMode
  /-- the directory key of the victim that is being evicted for it (R192). -/
  victim : Option Nat
  deriving DecidableEq, Repr

/-- An open transaction at a home (R186, R188, R191). -/
structure Trans where
  kind      : ReqKind
  req       : HomeReq
  /-- agents whose snoop answer is awaited. -/
  await     : List Nat
  snp       : SnpKind
  /-- owner data taken, with its poison and key ID. -/
  data      : Option (Line × Bool × Nat)
  /-- agents that keep a copy (HOLD ≠ NONE). -/
  keep      : BitVec 32
  /-- a dirty answer carried WB = 1 (R194), and HOLD of the owner's answer. -/
  wb        : Bool
  hold      : Hold
  /-- the owner's copy is lost (R203, R207), and its line has been written poisoned. -/
  lost      : Bool
  poisoned  : Bool
  /-- an agent other than the requester was listed when the transaction opened (R112). -/
  removed   : Bool
  contended : Bool
  /-- an eviction notice that crossed: the agent to which EvAck is owed (R194). -/
  evFrom    : Option Nat
  /-- the grant has been sent and CmpAck is awaited. -/
  granted   : Bool
  /-- the line as a fabric endpoint returned it. -/
  mem       : Option (Line × Bool)
  /-- a fabric access of the transaction is outstanding; for a write, the old value it answers. -/
  fabric    : Bool
  old       : Option (Line × Bool)
  /-- its memory timer has expired in Cydric poison mode: its write is dropped (R207). -/
  dropped   : Bool
  mode      : ReqMode
  deriving DecidableEq, Repr

/-- A dirty or clean eviction waiting in a die's write-back buffer for EvAck (R194). -/
structure WbEnt where
  agent  : Nat
  line   : Nat
  data   : Option Line
  poison : Bool
  key    : Nat
  dark   : Bool
  /-- the notice has been sent, with a credit of the slice (R190). -/
  sent   : Bool
  /-- the core whose CMO wrote the line back: its fabric-scope FENCE awaits the endpoint (R94). -/
  core   : Option Nat
  deriving DecidableEq, Repr

/-- The result of a request that waited on another agent, kept until its requester takes it. -/
structure HeldReply where
  kind : ReqKind
  req  : HomeReq
  ans  : HomeAns
  deriving DecidableEq, Repr

/-- A home-agent slice (R190–R192, R112, R208). -/
structure Slice where
  trans   : List Trans
  parked  : List Pend
  waiting : List Pend
  /-- eviction credits in use, by agent. -/
  evUsed  : SMap Nat
  /-- eviction notices whose data a snoop answer has already supplied: agent and line (R194). -/
  crossed : List (Nat × Nat)
  /-- the 64 most recent far atomics: line, SOURCE and number of the requester, newest first. -/
  history : List (Nat × Nat × Nat)
  /-- sweep position and passes left; 0 passes: no sweep. -/
  sweep   : Nat
  passes  : Nat
  deriving DecidableEq, Repr

/-- The coherence state of the IOD (spec/06). `dir` is keyed by (slice × 32,768 + set) × 16 + way. -/
structure HomeSt where
  dir    : SMap DirEnt
  slices : SMap Slice
  wbuf   : List WbEnt
  /-- eviction notices that have arrived and wait for the transaction on their line (R194). -/
  evq    : List WbEnt
  /-- L3 slices lost or retired (R203), by global slice number. -/
  lostL3 : List Nat
  /-- L2s lost with an uncorrectable tag error (R203), by core. -/
  lostL2 : List Nat
  /-- agents lost (R207) whose lines the sweep or an opening transaction poisons. -/
  lost   : List Nat
  replies : List HeldReply
  /-- requests outstanding at a die, the service cores or a proxy (R188, R204). -/
  asked  : List Pend
  deriving DecidableEq, Repr
/-! ### Outputs -/

/-- What the block sends to the outside, in order. -/
inductive Out where
  /-- the home snoops an agent: kind, agent, line, EXCL. -/
  | snoop (k : SnpKind) (agent line : Nat) (excl : Option Nat)
  /-- the home grants (R186). -/
  | grant (g : GrantMsg)
  /-- data, an old value or a completion goes to an uncached requester: agent, line, data, poison. -/
  | reply (agent line : Nat) (data : Line) (poison : Bool) (contended : Bool)
  /-- a Def reply (R201). -/
  | defr (core line : Nat)
  /-- a snoop answer (R184). -/
  | answer (agent line : Nat) (a : SnoopAns)
  | cmpAck (agent line : Nat)
  | evAck (agent line : Nat)
  /-- a request forwarded to the home of another socket (R178, R198). -/
  | forward (socket : Nat) (k : ReqKind) (r : HomeReq)
  /-- a CTL notice to a socket or die (R205). -/
  | domainDown (agent : Nat)
  /-- a read completion to a device: group, port, requester ID, data, poison, status (0 success, 1 UR, 2 CA). -/
  | completion (group port rid : Nat) (data : Line) (poison : Bool) (status : Nat)
  /-- a request leaving a root port: port, tag, address, write, data. -/
  | portReq (port tag addr : Nat) (write : Bool) (data : Line) (ro : Bool)
  /-- what a channel controller returns for a read: channel, address, the stored bits and poison (R326). -/
  | chanData (ch addr : Nat) (bits : Line) (poison : Bool)
  /-- an access leaving through a fabric attachment: tag, endpoint × 2^64 + FA, write, atomic, the
  line, the bytes written and poison (R352). -/
  | fabricReq (tag fa : Nat) (write atom : Bool) (data : Line) (mask : BitVec 64) (poison : Bool)
  /-- a ZCI reply (R395): queue pair, 32 bytes. -/
  | zciReply (qp : Nat) (bytes : BitVec 256)
  /-- a boot-mailbox response with its attachment (R406). -/
  | mailbox (bytes : BitVec 256) (attach : List Byte)
  /-- a flit on a Sceuc link (R215). -/
  | flit (iod : Bool) (link : Nat) (f : Flit)
  /-- a stream burst (R242): TAG, USE, the lines and their CRC-32C. -/
  | burst (iod : Bool) (link : Nat) (tag use : Nat) (lines : List Line) (crc : BitVec 32)
  /-- a line that the third failed re-request of its burst sends as a DAT message (R243). -/
  | burstData (iod : Bool) (link : Nat) (data : Line)
  /-- training, wake and width-message patterns of a link end: a code and two masks. -/
  | linkMsg (iod : Bool) (link code : Nat) (a b : Word)
  /-- an IPI to another socket: system core number, or 1024 + socket for every core of it, and tag. -/
  | ipi (target tag : Nat)
  /-- an AVSBus command: rail and millivolts (R498). -/
  | avs (rail mv : Nat)
  /-- a Lend answer: function, tag, data, poison, error (R371). -/
  | lend (fn tag : Nat) (data : Line) (poison : Bool) (err : Bool)
  /-- a Lend mailbox result: function, opcode, return code, payload. -/
  | lendMbox (fn op code : Nat) (payload : List Byte)
  /-- a Lend bus-master write: function, address, bytes. -/
  | lendWrite (fn addr : Nat) (bytes : List Byte)
  /-- an MSI-X write of a Lend function: its vector. -/
  | lendMsix (fn vec : Nat)
  /-- a Lend function reports a reset done: 1 function level, 2 CXL Reset; 3 request retry. -/
  | lendMsg (fn code : Nat)
  /-- a Lend bus-master read request: function, tag, address, length. -/
  | lendDma (fn tag addr len : Nat)
  /-- a message over a Sceuc-X link: its group, 1 and MGT_EFFCAP (R41), or 2 and the Darkroom range (R425). -/
  | socketMsg (group code : Nat) (a b : Word)
  /-- an MSI delivered to a core or service core: target and vector (R356). -/
  | vector (target vec : Nat)
  /-- data returned to a service core or DMA port by a scratch access (R485). -/
  | scratch (port : Nat) (off : Nat) (data : Word) (poison : Bool)
  /-- a value read through ECAM (R342). -/
  | config (bus dev off : Nat) (data : Word) (ur : Bool)
  /-- a status output changed. -/
  | pin (name : String) (on : Bool)
  deriving DecidableEq, Repr

/-! ### Links, Flexible I/O, Lend, ZCI, IOTU -/

/-- A sequenced flit in a replay buffer (R221): its SEQ, TYPE, the content of its slots (for link control the
command), the class of each slot with whether its credit came from the shared pool (R225), and whether its credits
are drawn: a retrain resets credits, and a flit that is replayed after it draws them again (R229). -/
structure LinkFlit where
  seq     : Nat
  typ     : Nat
  body    : Nat
  slots   : List (Nat × Bool)
  charged : Bool
  deriving DecidableEq, Repr

/-- What waits at a link end to be sent: a message of a class of Table 6-6 with the slots it occupies (R217), or in
class 5 a link-control command; and what leaves the block when it is sent. -/
structure LinkMsg where
  cls   : Nat
  slots : Nat
  body  : Nat
  out   : Option Out
  deriving DecidableEq, Repr

/-- A burst tag in use at a sending engine (R242, R243): its USE, the copy of its lines and the
re-requests it has met. -/
structure TagUse where
  tag   : Nat
  use   : Nat
  lines : List Line
  asked : Nat
  deriving DecidableEq, Repr

/-- One end of a Sceuc link outside its registers (spec/07): the sequence state (R218–R224), reserved
credits held, credit returns not yet formed and the cumulative counts since training (R225–R228), the
width change that runs (0 none, 1 WIDTH_REQ sent, 2 PROT flits stopped, 3 MAPSWITCH sent), the LP2
handshake, symbol lock, confirmations, and the burst tags of the sending and the receiving engine. -/
structure LinkSt where
  next     : Nat
  replay   : List LinkFlit
  /-- what waits to be sent, oldest first; each class keeps its order (R217, R236). -/
  queue    : List LinkMsg
  /-- the replay in progress: the flits not yet sent again, and its first SEQ (R223). -/
  resend   : List LinkFlit
  resendAt : Nat
  expect   : Nat
  nakFor   : Option Nat
  replays  : Nat
  attr     : Bool
  res      : List Nat
  retSh    : Nat
  retRes   : List Nat
  sentSh   : Nat
  sentRes  : List Nat
  gotSh    : Nat
  gotRes   : List Nat
  width    : Nat
  reqSeq   : Nat
  switched : Bool
  recheck  : Bool
  pmSent   : Bool
  pmOk     : Bool
  /-- the stream lanes of the direction that the end sends are in LP1 (R245). -/
  lp1      : Bool
  lockLost : Bool
  unequal  : Nat
  /-- the link has been declared down (R239). -/
  dead     : Bool
  tags     : List TagUse
  /-- USE of the next burst of a tag at the sender, and the USE that the receiver expects. -/
  txUse    : SMap Nat
  rxUse    : SMap Nat
  /-- the receiving engine: the lines it buffers for each tag (R240) and the tags whose first slot has arrived and
  whose burst has not (R243). -/
  rxBuf    : SMap (List Line)
  rxOpen   : List Nat
  /-- at the IOD end: the lanes of the up and the down map in force since the last completed training,
  empty before one (R212, R235). -/
  mapUp    : List Nat
  mapDn    : List Nat
  deriving DecidableEq, Repr

/-- A link end that has not trained.  USE of a tag's first burst is 0 at both ends (DESIGN CHOICE, log 27: R242 gives
only the increment). -/
def LinkSt.reset : LinkSt :=
  { next := 0, replay := [], queue := [], resend := [], resendAt := 0, expect := 0, nakFor := none, replays := 0, attr := false,
    res := [0, 0, 0, 0, 0], retSh := 0, retRes := [0, 0, 0, 0, 0], sentSh := 0, sentRes := [0, 0, 0, 0, 0],
    gotSh := 0, gotRes := [0, 0, 0, 0, 0], width := 0, reqSeq := 0, switched := false, recheck := false,
    pmSent := false, pmOk := false, lp1 := false, lockLost := false, unequal := 0, dead := false, tags := [], txUse := [],
    rxUse := [], rxBuf := [], rxOpen := [], mapUp := [], mapDn := [] }

/-- An access outstanding at a fabric attachment (R352–R355): its tag, HPA, table entry and how many
commits the entry had then, whether it writes or is an atomic's write, whether a home transaction
waits for it, and the core whose fabric-scope FENCE awaits it. -/
structure FabOut where
  tag   : Nat
  hpa   : Nat
  entry : Nat
  gen   : Nat
  write : Bool
  atom  : Bool
  home  : Bool
  core  : Option Nat
  deriving DecidableEq, Repr

/-- A tier-1 access outstanding at a host root port (R347, R348): its tag, the access, its frame, and the seal of the line
as it was issued (R284, R302). -/
structure T1Pend where
  tag    : Nat
  a      : TierAccess
  k      : Nat
  sealed : Option Seal
  deriving DecidableEq, Repr

/-- What an inbound request asks of the home. -/
inductive InKind where
  | write (data : Line) (mask : BitVec 64)
  | read
  | atomic (op : AmoOp) (size : Nat) (operand compare : BitVec 128)
  | msi (data : Word)
  deriving DecidableEq, Repr

/-- An inbound request that a root port has taken and that is not performed yet (R103, R152): its HPA and key ID once
translated, and its request once the home has it. -/
structure Inbound where
  dma  : Dma
  kind : InKind
  at'  : Option (Nat × Nat)
  sent : Option (ReqKind × HomeReq)
  deriving DecidableEq, Repr

/-- Flexible I/O state outside the registers (spec/11): the Fabric Window Table and the commits of
each entry, the accesses outstanding at the attachments and at tier-1 ports, the IDE keys by port × 64
+ slot (R346), the containment reason of each contained port (R344), the replays without progress of
each Sceuc-X link (R362), the inbound requests not performed yet, oldest first (R103), and Enable Relaxed Ordering, IDO
Request Enable and IDO Completion Enable of each root port, from bit 0 (R102), and the groups whose Sceuc-X link has gone
down since reset (R362). -/
structure FioSt where
  fwt    : SMap (Word × Word)
  gens   : SMap Nat
  outs   : List FabOut
  tag    : Nat
  t1     : List T1Pend
  ide    : SMap (BitVec 256 × BitVec 64)
  dpc    : SMap Nat
  xreps  : SMap Nat
  xdown  : List Nat
  inq    : List Inbound
  ctl    : SMap (BitVec 3)
  deriving DecidableEq, Repr

/-- A committed HDM decoder of a Lend function (R370): host base, size, ways, granularity, DPA skip. -/
structure LendDec where
  base : Nat
  size : Nat
  ways : Nat
  gran : Nat
  skip : Nat
  deriving DecidableEq, Repr

/-- An M2S request in the input buffer (R374): its tag, host address, line number and key ID here,
0 MemRd, 1 MemWr or 2 MemWrPtl, a write's data, byte mask and poison, and the TIME at which it arrived (R375). -/
structure LendReq where
  tag    : Nat
  line   : Nat
  key    : Nat
  dpa    : Nat
  kind   : Nat
  data   : Line
  mask   : BitVec 64
  poison : Bool
  since  : Nat
  deriving DecidableEq, Repr

/-- An outstanding DMA read of the mailbox (R381): its tag, offset in the list, length, and whether its
completion is to be discarded (R382). -/
structure LendRead where
  tag   : Nat
  off   : Nat
  len   : Nat
  stale : Bool
  deriving DecidableEq, Repr

/-- The DMA command of the mailbox (R381, R382): opcode, buffer, the pieces read, and its phase: 0 held
unstarted, 1 reading, 2 cut short, 3 discarding. -/
structure LendCmd where
  op    : Nat
  addr  : Nat
  len   : Nat
  got   : SMap (List Byte)
  phase : Nat
  deriving DecidableEq, Repr

/-- A Lend function outside its registers (spec/12): link state (0 down, 1 training, 2 up), Mem_Enable,
the ROM enable bit, Bus Master Enable, D3hot, completion timeout value and Max_Read_Request_Size, HDM
decoders, ROM store (empty: zeros), input buffer, DMA reads and command, event records (handle, cause,
time), event interrupt policy, poisoned DPAs, the background operation (opcode, running), a function
level or CXL reset that has not reported done. -/
structure LendFn where
  link   : Nat
  memEn  : Bool
  romEn  : Bool
  bme    : Bool
  d3     : Bool
  cto    : Nat
  mrrs   : Nat
  decs   : SMap LendDec
  rom    : List Byte
  reqs   : List LendReq
  reads  : List LendRead
  rtag   : Nat
  cmd    : Option LendCmd
  events : List (Nat × Nat × Nat)
  handle : Nat
  policy : BitVec 32
  poison : List Nat
  bgOp   : Nat
  bgRuns : Bool
  flr    : Bool
  cxr    : Bool
  /-- discards queued by the function so far. -/
  disc   : Nat
  deriving DecidableEq, Repr

/-- A Lend function after reset (R363, R366; log 28). -/
def LendFn.reset : LendFn :=
  { link := 0, memEn := false, romEn := false, bme := false, d3 := false, cto := 0, mrrs := 512, decs := [],
    rom := [], reqs := [], reads := [], rtag := 0, cmd := none, events := [], handle := 1, policy := 0,
    poison := [], bgOp := 0, bgRuns := false, flr := false, cxr := false, disc := 0 }

/-- A command taken and not finished: its id, whether it has begun or is held by fence-before or a
chain (R398, R400), its chain predecessor, whether it may write two replies, whether it waits for the
service firmware's acceptance (R404), and whether a freeze has paused it (R420). -/
structure ZOut where
  id     : Nat
  z      : ZCmd
  begun  : Bool
  prev   : Option Nat
  two    : Bool
  sfWait : Bool
  paused : Bool
  deriving DecidableEq, Repr

/-- A final reply that a class handler owes (R395): outstanding id, status, detail, result bytes. -/
structure ZFinal where
  id     : Nat
  status : Nat
  detail : Nat
  result : List Byte
  deriving DecidableEq, Repr

/-- An enabled queue pair (R390, R411, ZCI_QSTAT): its state, ring positions, reply phase, the
context it keeps, the id of the last command taken when that one had the chain flag, and the command
that waits for the pair to drain. -/
structure QPair where
  st     : Nat
  head   : Nat
  tail   : Nat
  rtail  : Nat
  rqhead : Nat
  phase  : Bool
  qlog   : Nat
  ie     : Bool
  vec    : Nat
  key    : Nat
  sq     : Nat
  rq     : Nat
  chain  : Option Nat
  stopBy : Option Nat
  /-- the instance for which a pair of source I was enabled. -/
  owner  : Option Nat
  deriving DecidableEq, Repr

/-- A service instance that is not FREE (R412): 1 ACTIVE or 2 FROZEN, its range, limits, the "A+F"
command that runs for it with its id and mode, what a reset has counted, and its log flags. -/
structure Inst where
  st     : Nat
  qfirst : Nat
  qcount : Nat
  maxout : Nat
  weight : Nat
  op     : Nat
  opId   : Nat
  mode   : Nat
  count  : Nat
  logging  : Bool
  overflow : Bool
  deriving DecidableEq, Repr

/-- A reply that waits to be written into its ring (R396). -/
structure ZRep where
  qp     : Nat
  tag    : Nat
  status : Nat
  detail : Nat
  result : List Byte
  intr   : Bool
  deriving DecidableEq, Repr

/-- What a saved state image stands for (R421; its bytes are not architectural, log 9): the digest of
its state bytes, the first pair, the pairs, the paused commands and their Condenser jobs. -/
structure SvImage where
  digest : List Byte
  first  : Nat
  pairs  : List QPair
  outs   : List ZOut
  jobs   : List CdnJob
  deriving DecidableEq, Repr

/-- The command interface (spec/13): the enabled queue pairs, the commands taken and not finished,
final replies owed and replies waiting to be written, the statuses of ended chain members by id, the
service instances, the written-page log, and the response attachment of the boot-mailbox command. -/
structure ZciSt where
  finals  : List ZFinal
  nextId  : Nat
  pairs   : SMap QPair
  outs    : List ZOut
  reps    : List ZRep
  chains  : SMap Nat
  insts   : SMap Inst
  wlog    : List (Nat × Nat)
  mailOut : List Byte
  images  : List SvImage
  deriving DecidableEq, Repr

/-- An entry of the IOTU fault log (R149). -/
structure IotuFault where
  addr : Word
  info : Word
  deriving DecidableEq, Repr

/-- A cached device context (R150): source × 65,536 + RID or instance, and its four words. -/
structure DevCtx where
  src : Nat
  w0  : Word
  w1  : Word
  w2  : Word
  deriving DecidableEq, Repr

/-- The I/O translation unit (R147–R152): contexts and translations cached, newest first, each
translation with the source it was made for, and the fault log, oldest first. -/
structure IotuSt where
  ctxs   : List DevCtx
  tlb    : List (Nat × TlbEnt)
  log    : List IotuFault
  deriving DecidableEq, Repr

def FioSt.reset : FioSt := ⟨[], [], [], 0, [], [], [], [], [], [], []⟩
def ZciSt.reset : ZciSt := ⟨[], 0, [], [], [], [], [], [], [], []⟩
/-! ### The whole block -/

/-- The HR-2160 package as this model holds it. -/
structure State where
  /-- the commands that wait, first in first out. -/
  pending : List Instr
  /-- TIME, in TCLK (R495). -/
  time    : Nat
  /-- the Package Control Space by offset, `pcsReset` where unlisted (R9–R15). -/
  pcs     : SMap Word
  fuses   : Fuses
  plat    : Plat
  cores   : SMap Core
  /-- L3 slices 0–191: lines by set × 16 + way (R153). -/
  l3      : SMap (SMap CLine)
  /-- the service cores' coherent cache, by line number (R181). -/
  spCache : SMap CLine
  home    : HomeSt
  links   : SMap LinkSt
  enl     : EnlSt
  dks     : DksSt
  cdn     : List CdnJob
  chans   : SMap Chan
  media   : SMap MLine
  blobs   : SMap Blob
  fio     : FioSt
  lend    : SMap LendFn
  zci     : ZciSt
  iotu    : IotuSt
  wld     : WldSt
  boot    : BootSt
  ssm     : SsmSt
  pwr     : PwrSt
  ras     : RasSt
  cnt     : CntSt
  pins    : PinSt
  /-- DESIGN CHOICE (log 4): how many free values have been drawn. -/
  free    : Nat
  /-- DESIGN CHOICE (log 5): how many random values have been drawn. -/
  rnd     : Nat
  out     : List Out
  deriving DecidableEq, Repr

/-! ### Faults and refusals -/

/-- The faults of a step. -/
inductive Fault where
  /-- Raised by every meaning on a command that is not well-formed (`Instr.wf`): it names a core,
  die, link, channel or other unit that the package does not have, so the spec gives it no
  meaning.  Safe: the hardware has no such unit to command. -/
  | illFormed
  deriving DecidableEq, Repr

/-- The refusals of a step. -/
inductive Refusal where
  /-- Raised by `exec` alone, for a command that has no meaning yet.  Safe. -/
  | notModelled (mnemonic : String)
  deriving DecidableEq, Repr

/-- The result of a command. -/
abbrev Res := Host.Outcome State Fault Refusal

/-! ### Reset -/

/-- Reset value of a state register (Table 2-5, R58, R108, Table 14-2). -/
def srReset (n : Nat) : Word :=
  if n = 0x400 then 2
  else if n = 0x432 ∨ n = 0xC32 then BitVec.allOnes 64
  else if n = 0x440 ∨ n = 0x840 ∨ n = 0xD40 then 0x0202020202020202#64
  else 0

/-- A core before its release: every register zero (DESIGN CHOICE, log 12, where the spec gives no
value) and the state registers at their release values (R58). -/
def Core.reset : Core :=
  { c := [], win := [], preds := 1, v := [], pc := 0, sr := [], cwp := 0, oldest := 0,
    owners := [(0, 4), (1, 4)], released := false, waiting := false, sb := [], fabric := [],
    deferred := [], dev := [], nearTry := none, ext := 0, sxgS := false, sxgD := false, pred := [],
    caches := ⟨[], [], [], [], [], [], []⟩, tlbs := ⟨[], [], [], [], [], []⟩ }

/-- A service core before its release: level S (R80; log 12); SP0 is in the Darkroom world. -/
def Core.resetSp (dark : Bool) : Core :=
  { Core.reset with sr := [(0x400, if dark then 0x80000001#64 else 1)],
                    owners := if dark then [(0, 3), (1, 3)] else [(0, 2), (1, 2)] }

/-- The reset value of core `n`. -/
def coreReset (n : Nat) : Core := if n < 216 then Core.reset else Core.resetSp (n == 216)

/-- A home slice after reset. -/
def Slice.reset : Slice := ⟨[], [], [], [], [], [], 0, 0⟩

/-- A channel controller after reset. -/
def Chan.reset : Chan := ⟨false, 0, [], [], [], [], 0, none, false, false, []⟩

/-- A unit after a cold reset (R529). -/
def UnitSt.reset : UnitSt := ⟨.online, 0, none, none, false, false⟩

/-- An EMPTY key context (R289). -/
def KeyCtx.empty : KeyCtx := ⟨0, 0, false, 0, 0, 0, 0, 0, 0⟩

/-- Media that nothing has written (log 13). -/
def MLine.reset : MLine := ⟨(0 : Line), none, false⟩

/-- A rail after reset (R580). -/
def RailSt.reset : RailSt := ⟨0, .idle, 0, 0, false⟩

/-- The fuses of the modelled package (log 14): B1 compute dies, the points of R517's example. -/
def Fuses.reset : Fuses :=
  { cdWord := List.replicate 12 0x111100000007001F#64, iodWord := 0x210100000007001F#64,
    lifecycle := 0, serial := 0, authority := 0, romDigest := 0,
    vf := List.replicate 12
      [(32, 620), (48, 660), (64, 700), (80, 750), (96, 800), (120, 880), (144, 960), (168, 1050)],
    vmax := List.replicate 12 1060, iodMv := 850, iodVmax := 950, repair := [] }

/-- Nothing described yet (R20). -/
def Plat.reset : Plat :=
  { accepted := false, socket := 0, memmap := [], sets := [], t1 := [], chans := [], groups := [],
    ownerKey := 0, monKey := 0, monBase := 0, monSize := 0, wearGen := 0, wear := [],
    coldKey := none }

def EnlSt.reset : EnlSt :=
  { up := false, frames := [], tables := [], regTab := [], used := [], pools := [], withheld := [],
    withdrawn := [], dead := [], slots := [], cmds := [], quotas := [], overq := [], evacs := [],
    samples := [], decayPos := 0, decayOn := false, starved := [], held := [], rdesc := [], rents := [] }

def DksSt.reset : DksSt := ⟨[], 0, 0, 0, []⟩

def BootSt.reset : BootSt :=
  { sp0Up := false, released := false, pdb := none, images := [none, none, none, none],
    active := [none, none, none, none], log := [], windowOpen := false, cdPhase := false,
    windowTime := 0, effFixed := false, authKey := [], monEntry := 0, warm := false }

def SsmSt.reset : SsmSt := ⟨[], [], [], [], [], [], true⟩

def PinSt.reset : PinSt :=
  { pwrgood := true, coldRstN := true, warmRstN := true, tamperN := true, testen := false,
    fatal := false, err := false, errTime := 0, thermtrip := false,
    pid := 0x05CF00000000#48, i3cAddr := none, inCold := false,
    tripped := false, perst := [] }

/-- The package right after a cold reset has ended (R582): TIME 0, the scratch wipe running, SP0
held in reset, no command waiting (log 2). -/
def State.reset : State :=
  { pending := [], time := 0, pcs := [], fuses := .reset, plat := .reset, cores := [], l3 := [],
    spCache := [], home := ⟨[], [], [], [], [], [], [], [], []⟩, links := [], enl := .reset, dks := .reset,
    cdn := [], chans := [], media := [], blobs := [], fio := FioSt.reset, lend := [],
    zci := ZciSt.reset, iotu := ⟨[], [], []⟩, wld := ⟨none, 0, false, false, false, none⟩,
    boot := .reset, ssm := .reset, pwr := ⟨[], [], 0, 0, [], [], [], 0, []⟩, ras := ⟨[], [], [], [], [], [], []⟩,
    cnt := ⟨none, none, [], []⟩, pins := .reset, free := 0, rnd := 0, out := [] }

end Sys2Proof.Machine
end

