-- ==== Sys2Proof/Machine/Ops.lean ====
section
/-! DEFINITION.
The named operations over the state that every family uses: registers and fields, counters,
outputs, random and free values, and the maps of State. -/

namespace Sys2Proof.Machine

/-- A program counter: 57 bits are implemented (Table 2-1), and the bits above repeat the highest (DEDUCED, log 60: the
form of a VA that Table 4-1 accepts). -/
def pcOf (w : Word) : Word := (w.setWidth 57).signExtend 64

/-- A command that is not well-formed faults; any other runs. -/
def gated (ok : Bool) (k : Res) : Res := if ok then k else .fault .illFormed

/-- Whether the package stands still: a cold reset holds it (R582), or a thermal trip has stopped its
clocks (R587). -/
def State.stopped (s : State) : Bool := s.pins.inCold || s.pins.thermtrip

/-- An effect on everything but the queue of waiting commands, which is the sender's. -/
def State.effect (s : State) (f : State → State) : State := { f s with pending := s.pending }

/-- A meaning that always answers a next state: nothing happens while the package stands still. -/
def runs (ok : Bool) (f : State → State) (s : State) : Res :=
  gated ok (.next (if s.stopped then s else s.effect f))

/-- The stored value of a PCS register. -/
def State.rd (s : State) (k : Nat) : Word := SMap.get pcsReset s.pcs k

/-- Store a PCS register. -/
def State.wr (s : State) (k : Nat) (v : Word) : State := { s with pcs := SMap.put pcsReset s.pcs k v }

/-- A field of a PCS register. -/
def State.fget (s : State) (k : Nat) (f : Fld) : Nat := f.get (s.rd k)

/-- A one-bit field of a PCS register. -/
def State.fon (s : State) (k : Nat) (f : Fld) : Bool := f.on (s.rd k)

/-- Set a field of a PCS register, as hardware. -/
def State.fput (s : State) (k : Nat) (f : Fld) (n : Nat) : State := s.wr k (f.put (s.rd k) n)

/-- Add to a field that saturates. -/
def State.fadd (s : State) (k : Nat) (f : Fld) (n : Nat) : State :=
  s.fput k f (min (s.fget k f + n) (2 ^ f.w - 1))

/-- Append an output. -/
def State.emit (s : State) (o : Out) : State := { s with out := s.out ++ [o] }

/-- A core's state. -/
def State.core (s : State) (n : Nat) : Core := SMap.get coreReset s.cores n
/-- Replace a core's state. -/
def State.setCore (s : State) (n : Nat) (c : Core) : State :=
  { s with cores := SMap.put coreReset s.cores n c }

/-- A home slice. -/
def State.slice (s : State) (n : Nat) : Slice := SMap.get (fun _ => Slice.reset) s.home.slices n
/-- Replace a home slice. -/
def State.setSlice (s : State) (n : Nat) (x : Slice) : State :=
  { s with home := { s.home with slices := SMap.put (fun _ => Slice.reset) s.home.slices n x } }

/-- A channel controller. -/
def State.chan (s : State) (n : Nat) : Chan := SMap.get (fun _ => Chan.reset) s.chans n
/-- Replace a channel controller. -/
def State.setChan (s : State) (n : Nat) (x : Chan) : State :=
  { s with chans := SMap.put (fun _ => Chan.reset) s.chans n x }

/-- A key context (R288). -/
def State.ctx (s : State) (k : Nat) : KeyCtx := SMap.get (fun _ => KeyCtx.empty) s.dks.ctx k
/-- Replace a key context. -/
def State.setCtx (s : State) (k : Nat) (x : KeyCtx) : State :=
  { s with dks := { s.dks with ctx := SMap.put (fun _ => KeyCtx.empty) s.dks.ctx k x } }

/-- A frame entry (R253). -/
def State.ent (s : State) (f : Nat) : FrameEnt := SMap.get (fun _ => FrameEnt.zero) s.enl.frames f
/-- Replace a frame entry, in cache and store in one step (R254). -/
def State.setEnt (s : State) (f : Nat) (x : FrameEnt) : State :=
  { s with enl := { s.enl with frames := SMap.put (fun _ => FrameEnt.zero) s.enl.frames f x } }

/-- A line of media. -/
def State.mline (s : State) (k : Nat) : MLine := SMap.get (fun _ => MLine.reset) s.media k
/-- Replace a line of media. -/
def State.setMline (s : State) (k : Nat) (x : MLine) : State :=
  { s with media := SMap.put (fun _ => MLine.reset) s.media k x }

/-- A rail: 0–11 compute dies, 12 the IOD. -/
def State.rail (s : State) (n : Nat) : RailSt := SMap.get (fun _ => RailSt.reset) s.pwr.rails n
/-- Replace a rail. -/
def State.setRail (s : State) (n : Nat) (x : RailSt) : State :=
  { s with pwr := { s.pwr with rails := SMap.put (fun _ => RailSt.reset) s.pwr.rails n x } }

/-- A unit of Table 18-4. -/
def State.unit (s : State) (die blk : Nat) : UnitSt :=
  SMap.get (fun _ => UnitSt.reset) s.ras.units (die * 256 + blk)
/-- Replace a unit. -/
def State.putUnit (s : State) (die blk : Nat) (u : UnitSt) : State :=
  { s with ras := { s.ras with units := SMap.put (fun _ => UnitSt.reset) s.ras.units (die * 256 + blk) u } }
/-- Change a unit's state; each change increments its GEN (R529). -/
def State.setUnit (s : State) (die blk : Nat) (st : UnitState) : State :=
  let u := s.unit die blk
  if u.st = st then s else s.putUnit die blk { u with st := st, gen := u.gen + 1 }

/-- A fresh unspecified value (log 4). -/
def State.fresh (s : State) : Word × State := (Config.freeValue s.free, { s with free := s.free + 1 })

/-- A draw from the package random source (log 5). -/
def State.draw (s : State) : BitVec 512 × State := (Config.random s.rnd, { s with rnd := s.rnd + 1 })

/-- Whether Darkroom activity is counted (R555). -/
def State.drCount (s : State) : Bool :=
  s.fon kWldLife fWldLife_DBGAUTH && s.fon kAgtCtl fAgtCtl_DRCOUNT

/-- Whether a die's counters stand still: DS3 or parked (R545). -/
def State.dieHeld (s : State) (die : Nat) : Bool :=
  decide (die < 12) && (decide (s.fget (kPwrDstat die) fPwrDstat_DSTATE = 2) || s.fon (kPwrDctl die) fPwrDctl_PARKED)

/-- Whether a block's counters count nothing because it is under test (R561). -/
def State.underTest (s : State) (die blk : Nat) : Bool :=
  match s.cnt.test with
  | none => false
  | some t => decide (t.die = die) && (decide (t.block = blk) || decide (t.block = 0xFF) ||
      (decide (die < 12) && decide (t.block < 0x12) &&
        (decide (blk = 0x40 + t.block) || decide (blk = 0x58 + t.block) || decide (blk = 0x88 + t.block))))

/-- Advance an event counter by `n` (R545, R546): it holds at its maximum and sets SAT. -/
def State.evtBy (s : State) (die blk i n : Nat) : State :=
  if s.dieHeld die || s.underTest die blk then s
  else
    let k := kEvt die blk i
    let c := s.fget k fEvtCnt_COUNT + n
    if c ≥ 2 ^ 48 - 1 then s.wr k (BitVec.ofNat 64 (2 ^ 63 + 2 ^ 48 - 1))
    else s.fput k fEvtCnt_COUNT c

/-- Advance an event counter by one. -/
def State.evt (s : State) (die blk i : Nat) : State := s.evtBy die blk i 1

/-- Count an event of the IOD that a request of the given world caused (R438). -/
def State.evtW (s : State) (dark : Bool) (blk i : Nat) : State :=
  if dark && !s.drCount then s else s.evt 15 blk i

/-- Raise an external vector on a core (R356, R408). -/
def State.vec (s : State) (n v : Nat) : State :=
  let c := s.core n
  s.setCore n { c with ext := c.ext ||| BitVec.ofNat 256 (2 ^ v) }

/-- Raise a vector of Table 13-8 on SP1–SP3. -/
def State.vecSp (s : State) (v : Nat) : State := ((s.vec 217 v).vec 218 v).vec 219 v

/-- Fold a state operation over a list. -/
def State.each {α : Type} (s : State) (l : List α) (f : State → α → State) : State := l.foldl f s

/-- The package's socket number (R26). -/
def State.sock (s : State) : Nat := s.plat.socket
/-- The system core number of a core of this package (R26). -/
def State.sysCore (s : State) (n : Nat) : Nat := s.plat.socket * 216 + n

/-- The base and end of this package's tiered memory (R30); empty before a block is accepted. -/
def State.tiered (s : State) : Nat × Nat :=
  match s.plat.memmap.find? (fun m => m.kind = 0) with
  | some m => (m.base, m.base + m.size)
  | none => (0, 0)

/-- The record of the memory map that holds an address (R469). -/
def State.mapOf (s : State) (hpa : Nat) : Option MapRec :=
  s.plat.memmap.find? (fun m => decide (m.base ≤ hpa ∧ hpa < m.base + m.size))

/-- The record of one kind. -/
def State.mapKind (s : State) (k : Nat) : Option MapRec := s.plat.memmap.find? (fun m => decide (m.kind = k))

/-- DARKROOM_TOP of socket `j` as WLD_DRRANGE holds it (R424, R425): base and top. -/
def State.darkRange (s : State) (j : Nat) : Option (Nat × Nat) :=
  let v := s.rd (kWldDrrange j)
  if fWldDrrange_V.on v then some (fWldDrrange_BASE.get v <<< 21, fWldDrrange_TOP.get v <<< 21) else none

/-- Whether an HPA lies in Darkroom memory of some socket, by this package's copies (R424). -/
def State.isDark (s : State) (hpa : Nat) : Bool :=
  (List.range 4).any fun j => match s.darkRange j with
    | some (b, t) => decide (b ≤ hpa ∧ hpa < t)
    | none => false

/-- Whether an HPA lies in this package's own Darkroom memory (R426). -/
def State.ownDark (s : State) (hpa : Nat) : Bool :=
  match s.darkRange s.sock with
  | some (b, t) => decide (b ≤ hpa ∧ hpa < t)
  | none => false

/-- The home slice of an HPA: the XOR of its ten 5-bit groups from bit 6 (R179). -/
def haSlice (hpa : Nat) : Nat :=
  let h := hpa % 2 ^ 52
  (List.range 10).foldl (fun a k => a ^^^ ((h >>> (6 + 5 * k)) % 32)) 0

/-- The directory set of an HPA (R180). -/
def dirSet (hpa : Nat) : Nat := ((hpa >>> 11) ^^^ (hpa >>> 26)) % 32768

/-- The local L3 slice of an HPA (R155). -/
def l3Slice (hpa : Nat) : Nat :=
  let h := hpa % 2 ^ 52
  (List.range 12).foldl (fun a k => a ^^^ ((h >>> (6 + 4 * k)) % 16)) 0

/-- One step of a replacement register (R158). -/
def lfsrStep (s : Nat) : Nat :=
  let b (i : Nat) := (s >>> i) % 2
  ((s <<< 1) % 65536) ||| ((b 15 + b 13 + b 12 + b 10) % 2)

/-- Frame number, line in frame and line number of an HPA (R249). -/
def frameOf (line : Nat) : Nat := line / 64

/-- Whether the coherent domain is down (R205). -/
def State.down (s : State) : Bool := s.fon kHaGstat fHaGstat_DOWN

/-- The boot stage (Table 15-1). -/
def State.stage (s : State) : Nat := s.fget kMgtBoot fMgtBoot_STAGE
/-- Set the boot stage; HALTED asserts FATAL_N (R586). -/
def State.setStage (s : State) (n : Nat) : State :=
  let s := s.fput kMgtBoot fMgtBoot_STAGE n
  if n = 6 then ({ s with pins := { s.pins with fatal := true } }).emit (.pin "FATAL_N" true) else s

/-! ### Levels, worlds and holds -/

/-- The current status of a core: level and world. -/
def Core.level (c : Core) : Nat := ((SMap.get srReset c.sr 0x400).toNat) % 4
/-- Whether the core is in the Darkroom world. -/
def Core.darkW (c : Core) : Bool := (SMap.get srReset c.sr 0x400).getLsbD 31

/-- Whether a block is held, explicitly or under Table 14-6. -/
def State.held (s : State) (die blk : Nat) : Bool :=
  let i := if die = 15 then 12 else die
  (s.rd (kWldHold i (blk / 64))).getLsbD (blk % 64) ||
  (if die < 12 then
    (let lc := if blk < 0x12 then some blk else if 0x40 ≤ blk ∧ blk < 0x52 then some (blk - 0x40)
        else if 0x58 ≤ blk ∧ blk < 0x6A then some (blk - 0x58) else none
     match lc with
     | some l => (s.core (18 * die + l)).darkW
     | none => false) ||
    (s.fon kWldSeal fWldSeal_ACTIVE && (s.rd kWldSeal).getLsbD die && blockAssigned die blk)
  else
    decide (blk = 1 ∨ blk = 2 ∨ blk = 3 ∨ blk = 0x52) ||
    (decide (blk = 4) && decide (s.fget kSsmCtl fSsmCtl_SECURE ≠ 0)))

/-- The first held block of a die, if any. -/
def State.heldOn (s : State) (die : Nat) : Option Nat := (List.range 256).find? (fun b => s.held die b)

/-- The first held block of a unit: a die for block 0xFF. -/
def State.heldUnit (s : State) (die blk : Nat) : Option Nat :=
  if blk = 0xFF then s.heldOn die
  else if die < 12 ∧ blk < 0x12 then
    [blk, 0x40 + blk, 0x58 + blk, 0x88 + blk].find? (fun b => s.held die b)
  else if s.held die blk then some blk else none

end Sys2Proof.Machine
end

