-- ==== Sys2Proof/Machine/LinkOps.lean ====
section
/-! DEFINITION.
The ends of the Sceuc links (spec/07): maps, flits, replay, credit returns, retrains, width-change
requests and bursts.  The rows stand in Links.lean. -/

namespace Sys2Proof.Machine

/-! ### Ends and registers -/

/-- The key of a link end: IOD ends 0–11, compute-die ends 12–23. -/
def endKey (e : LinkEnd) : Nat := if e.iod then e.link else 12 + e.link
/-- The other end. -/
def otherEnd (e : LinkEnd) : LinkEnd := { e with iod := !e.iod }
def State.lk (s : State) (e : LinkEnd) : LinkSt := SMap.get (fun _ => LinkSt.reset) s.links (endKey e)
def State.setLk (s : State) (e : LinkEnd) (x : LinkSt) : State :=
  { s with links := SMap.put (fun _ => LinkSt.reset) s.links (endKey e) x }
/-- STATE of SCL_STAT. -/
def State.lkState (s : State) (e : LinkEnd) : Nat := s.fget (kSclStat e) fSclStat_STATE
def State.setLkState (s : State) (e : LinkEnd) (n : Nat) : State := s.fput (kSclStat e) fSclStat_STATE n
/-- Whether flits flow at an end. -/
def State.lkUp (s : State) (e : LinkEnd) : Bool :=
  decide (s.lkState e = 2 ∨ s.lkState e = 4) && decide (s.fget (kSclStat e) fSclStat_PWR < 2)
/-- Whether a link is ACTIVE at its IOD end. -/
def State.linkActive (s : State) (n : Nat) : Bool :=
  decide (s.lkState ⟨true, n⟩ = 2 ∨ s.lkState ⟨true, n⟩ = 4)
/-- Advance an event counter of an end's SCL block. -/
def State.evtL (s : State) (e : LinkEnd) (i n : Nat) : State :=
  if e.iod then s.evtBy 15 (0x30 + e.link) i n else s.evtBy e.link 0x30 i n
/-- A pattern or payload that is no flit of its own: a code and two words (log 26). -/
def State.lkMsg (s : State) (e : LinkEnd) (code : Nat) (a b : Word) : State := s.emit (.linkMsg e.iod e.link code a b)

/-! ### Maps (R212) -/

/-- The 68-bit good-lane mask of an end for a direction (up or down). -/
def State.laneMask (s : State) (e : LinkEnd) (up : Bool) : Nat :=
  let m := (s.rd (if up then kSclUpmask e else kSclDnmask e)).toNat
  let sp := if up then s.fget (kSclSpmask e) fSclSpmask_UP else s.fget (kSclSpmask e) fSclSpmask_DN
  m + sp * 2 ^ 64

/-- The number of set bits below bit `n`. -/
def popBelow (m : Nat) : Nat → Nat
  | 0 => 0
  | k + 1 => popBelow m k + (if m.testBit k then 1 else 0)

/-- The width that a number of good lanes gives. -/
def widthOf (n : Nat) : Nat :=
  if n ≥ 64 then 64 else if n ≥ 48 then 48 else if n ≥ 32 then 32 else if n ≥ 16 then 16 else 0

/-- The physical lanes of a map: the first w good lanes. -/
def mapLanes (good : Nat) : List Nat :=
  ((List.range 68).filter (fun i => good.testBit i)).take (widthOf (popBelow good 68))

/-- The lanes that a direction's map uses now. -/
def State.mapNow (s : State) (n : Nat) (up : Bool) : List Nat :=
  mapLanes (s.laneMask ⟨true, n⟩ up &&& s.laneMask ⟨false, n⟩ up)

/-- The lanes of a direction's map in force: that of the last completed training, or before one what the
masks give (R235). -/
def State.mapHeld (s : State) (n : Nat) (up : Bool) : List Nat :=
  let x := s.lk ⟨true, n⟩
  let m := if up then x.mapUp else x.mapDn
  if m.isEmpty then s.mapNow n up else m

/-- Take a lane out of an end's mask for a direction. -/
def State.dropLane (s : State) (e : LinkEnd) (up : Bool) (lane : Nat) : State :=
  if lane < 64 then
    let k := if up then kSclUpmask e else kSclDnmask e
    s.wr k (s.rd k &&& ~~~ BitVec.ofNat 64 (2 ^ lane))
  else
    let bit := (if up then 0 else 4) + (lane - 64) % 4
    s.wr (kSclSpmask e) (s.rd (kSclSpmask e) &&& ~~~ BitVec.ofNat 64 (2 ^ bit))

/-- Whether a compute die is out of service. -/
def State.dieOut (s : State) (die : Nat) : Bool :=
  let u := s.unit die 0xFF
  decide (u.st = .retired ∨ u.st = .lost)

/-! ### Flits (R215–R217, R226) -/

/-- Agitation of a block in force (R565): the slots of a kind that are set and not suspended. -/
def State.agitations (s : State) (kind die blk : Nat) : List (Nat × Word) :=
  (List.range 64).filterMap fun i =>
    let v := s.rd (kAgtSlot i)
    if fAgtSlot_V.on v && decide (fAgtSlot_KIND.get v = kind ∧ fAgtSlot_DIE.get v = die ∧ fAgtSlot_BLOCK.get v = blk) &&
      !s.held die blk then some (i, v) else none

/-- The agitations of a link end. -/
def State.agtEnd (s : State) (kind : Nat) (e : LinkEnd) : List (Nat × Word) :=
  if e.iod then s.agitations kind 15 (0x30 + e.link) else s.agitations kind e.link 0x30

/-- The credits that an end withholds by Agitation: shared (class 0xFF) or of a class. -/
def State.withheld (s : State) (e : LinkEnd) (cls : Nat) : Nat :=
  ((s.agtEnd 1 e).filter (fun p => decide (fAgtSlot_CLASS.get p.2 = cls))).foldl (fun a p => a + fAgtSlot_VALUE.get p.2) 0

/-- Replace one element of a list. -/
def setNth (l : List Nat) (i v : Nat) : List Nat := l.zipIdx.map fun p => if p.2 = i then v else p.1

/-- The header of a flit (Table 7-2). -/
def flitHeader (typ seq ack crsh crcl crrs slotv : Nat) : Nat :=
  typ * 2 ^ 60 + seq * 2 ^ 48 + ack * 2 ^ 36 + crsh * 2 ^ 26 + crcl * 2 ^ 23 + crrs * 2 ^ 18 + slotv * 2 ^ 11

/-- A flit with its CRC (Table 7-1, R216). -/
def mkFlit (header : Nat) (body : Nat) : Flit :=
  let b := leBytes 8 header ++ leBytes 112 body
  BitVec.ofNat 1024 (leNat (b ++ leBytes 8 (crc64 b).toNat))

/-- Form a header with the current ACK and credit returns and send the flit (R226). -/
def State.sendFlit (s : State) (e : LinkEnd) (typ seq slotv body : Nat) : State :=
  let x := s.lk e
  let sh := min 432 (x.retSh - s.withheld e 0xFF)
  let cls := ((List.range 5).find? (fun c => decide (x.retRes.getD c 0 > min 15 (s.withheld e c)))).getD 0
  let rs := min 16 (x.retRes.getD cls 0 - min 15 (s.withheld e cls))
  let h := flitHeader typ seq ((x.expect + 4095) % 4096) sh cls rs slotv
  let x := { x with retSh := x.retSh - sh, sentSh := x.sentSh + sh,
                    retRes := setNth x.retRes cls (x.retRes.getD cls 0 - rs),
                    sentRes := setNth x.sentRes cls (x.sentRes.getD cls 0 + rs) }
  (s.setLk e x).emit (.flit e.iod e.link (mkFlit h body))

/-- The counts that an AUDIT carries, formed as it is sent (R227). -/
def State.auditCounts (s : State) (e : LinkEnd) : State :=
  let x := s.lk e
  (List.range 5).foldl (fun s c => s.lkMsg e 10 (BitVec.ofNat 64 c) (BitVec.ofNat 64 (x.sentRes.getD c 0)))
    (s.lkMsg e 10 5 (BitVec.ofNat 64 x.sentSh))

/-- Send a sequenced flit, for the first time or again (R223, R227). -/
def State.sendSeq (s : State) (e : LinkEnd) (f : LinkFlit) : State :=
  let s := s.sendFlit e f.typ f.seq (if f.typ = 3 then 1 else 2 ^ f.slots.length - 1) f.body
  if f.typ = 3 ∧ f.body = 5 then s.auditCounts e else s

/-- Credits for the slots of a message of a class, from the shared pool first and then from those reserved for the
class; none where too few are held (R225). -/
def State.drawCredits (s : State) (e : LinkEnd) (cls n : Nat) : Option (List (Nat × Bool) × State) :=
  let x := s.lk e
  let av := s.fget (kSclCredit e) fSclCredit_SHAVAIL
  let sh := min n av
  if x.res.getD cls 0 < n - sh then none
  else
    let s := s.setLk e { x with res := setNth x.res cls (x.res.getD cls 0 - (n - sh)) }
    some (List.replicate sh (cls, true) ++ List.replicate (n - sh) (cls, false), s.fput (kSclCredit e) fSclCredit_SHAVAIL (av - sh))

/-- Send what waits, if the end may: flits flow, fewer than 256 are unacknowledged, no replay is in progress (R221,
R223); for a message also, no width change stops PROT flits and its credits are held (R225, R236).  A message leaves
in a flit of its own (log 26). -/
def State.lkSend (s : State) (e : LinkEnd) (m : LinkMsg) : Option State :=
  let x := s.lk e
  if !s.lkUp e || decide (x.replay.length ≥ 256) || !x.resend.isEmpty then none
  else if m.cls ≥ 5 then
    let f : LinkFlit := ⟨x.next, 3, m.body, [], true⟩
    some ((s.setLk e { x with next := (x.next + 1) % 4096, replay := x.replay ++ [f],
                              reqSeq := if m.body = 1 then x.next else x.reqSeq }).sendSeq e f)
  else if x.width ≥ 2 then none
  else match s.drawCredits e m.cls m.slots with
    | none => none
    | some (l, s) =>
      let x := s.lk e
      let f : LinkFlit := ⟨x.next, 1, (Config.slotBits s.free).toNat, l, true⟩
      let s := { s with free := s.free + 1 }
      let s := (s.setLk e { x with next := (x.next + 1) % 4096, replay := x.replay ++ [f] }).sendSeq e f
      some (match m.out with | some o => s.emit o | none => s)

/-- Send what waits at an end, each class in its order (R217). -/
def State.lkPump (s : State) (e : LinkEnd) : State :=
  let r := (s.lk e).queue.foldl (fun (a : List LinkMsg × State) m =>
    if a.1.any (fun w => w.cls = m.cls) then (a.1 ++ [m], a.2)
    else match a.2.lkSend e m with
      | some t => (a.1, t)
      | none => (a.1 ++ [m], a.2)) ([], s)
  r.2.setLk e { r.2.lk e with queue := r.1 }

/-- Send a new sequenced link-control flit (R218), as soon as the end may (R221). -/
def State.sendCtl (s : State) (e : LinkEnd) (cmd : Nat) : State :=
  let x := s.lk e
  if s.lkState e = 0 then s else (s.setLk e { x with queue := x.queue ++ [⟨5, 1, cmd, none⟩] }).lkPump e

/-- Send a NAK naming the expected flit, unless one is outstanding (R219). -/
def State.sendNak (s : State) (e : LinkEnd) : State :=
  let x := s.lk e
  if x.nakFor = some x.expect then s
  else (((s.setLk e { x with nakFor := some x.expect }).sendFlit e 2 x.expect 0 0)).evtL e 4 1

/-! ### Retrains (R224, R231) -/

/-- Start a retrain of a link, or join the training that runs. -/
def State.retrain (s : State) (n : Nat) (attr : Bool) : State :=
  let i : LinkEnd := ⟨true, n⟩
  let c : LinkEnd := ⟨false, n⟩
  let st := s.lkState i
  if st = 0 ∨ st = 1 ∨ st = 3 then s
  else
    let one (s : State) (e : LinkEnd) : State :=
      let s := (s.setLkState e 3).fadd (kSclStat e) fSclStat_RETRAINS 1
      let x := s.lk e
      ((s.setLk e { x with attr := attr, pmSent := false, pmOk := false, unequal := 0 }).evtL e 11 1).lkMsg e 1 0 0
    one (one s i) c

/-- Whether an end or its peer is in LP2 or LP3. -/
def State.lkAsleep (s : State) (e : LinkEnd) : Bool :=
  decide (s.fget (kSclStat e) fSclStat_PWR ≥ 2 ∨ s.fget (kSclStat (otherEnd e)) fSclStat_PWR ≥ 2)

/-- Whether a feature bit is in force on a link (R35, Table 1-8). -/
def State.linkFeat (s : State) (n bit : Nat) : Bool := (s.rd (kSclLinkcap n)).getLsbD bit

/-- Drive the wake pattern at an end of a link that the end or its peer holds in LP2 or LP3 (R246): on the two lowest lanes of the direction's map, the short
pattern of 256 UI where LK_WAKE_SHORT is in force, else the long one of 1,024 UI; a retrain follows (R247). -/
def State.linkWake (s : State) (e : LinkEnd) : State :=
  if s.linkActive e.link && s.lkAsleep e then
    let l := (s.mapHeld e.link (!e.iod)).take 2
    let ui := if s.linkFeat e.link 3 then 256 else 1024
    (s.lkMsg e 15 (BitVec.ofNat 64 (l.foldl (fun a i => 256 * a + i) 0)) (BitVec.ofNat 64 ui)).retrain e.link false
  else s

/-- A message comes to an end to be sent (R236, R246): one that comes after PM_REQ or PM_ACK and before the entry
keeps the link in LP0, and one that comes after it wakes the link.  An end that is down,
or whose die is out of service (R535), sends nothing. -/
def State.lkMessage (s : State) (e : LinkEnd) (cls slots : Nat) (o : Out) : State :=
  let x := s.lk e
  if x.dead || s.dieOut e.link then s
  else
    let s := s.setLk e { x with queue := x.queue ++ [⟨cls, slots, 0, some o⟩], pmSent := false, pmOk := false }
    let s := if x.pmSent || x.pmOk then s.sendCtl e 8 else s
    (s.linkWake e).lkPump e

/-- Whether a NAK names a flit at or after the first one of the replay in progress (R223). -/
def LinkSt.inReplay (x : LinkSt) (seq : Nat) : Bool :=
  !x.resend.isEmpty && (!x.replay.any (fun f => f.seq = x.resendAt) || (x.replay.dropWhile (fun f => f.seq ≠ x.resendAt)).any (fun f => f.seq = seq))

/-- Begin a replay of the buffered flits from one on (R223, R224): they leave with the ticks that follow. -/
def State.replayFrom (s : State) (e : LinkEnd) (seq : Nat) : State :=
  let x := s.lk e
  let l := x.replay.dropWhile (fun f => f.seq ≠ seq)
  if l.isEmpty then s
  else
    let x := { x with replays := x.replays + 1, resend := l, resendAt := seq }
    let s := (s.setLk e x).evtL e 5 1
    if x.replays ≥ max 1 (s.fget (kSclCtl e) fSclCtl_REPLIM) then s.retrain e.link true else s

/-- Send one flit of a replay again; a flit whose credits a retrain has reset draws them again (R223, R229). -/
def State.resendOne (s : State) (e : LinkEnd) (f : LinkFlit) : Option State :=
  if f.charged then some (s.sendSeq e f)
  else match f.slots with
    | [] => some (s.sendSeq e f)
    | (c, _) :: _ => match s.drawCredits e c f.slots.length with
      | none => none
      | some (l, s) =>
        let g := { f with slots := l, charged := true }
        let x := s.lk e
        some ((s.setLk e { x with replay := x.replay.map fun h => if h.seq = f.seq then g else h }).sendSeq e g)

/-- A tick of an end: the replay in progress goes on as far as its credits reach, and then what waits is sent; an end
with traffic that finds its peer in electrical idle wakes the link (R246). -/
def State.lkTick (s : State) (e : LinkEnd) : State :=
  if !s.lkUp e then s
  else if s.lkAsleep e && !((s.lk e).queue.isEmpty && (s.lk e).resend.isEmpty) then s.linkWake e
  else
    let r := (s.lk e).resend.foldl (fun (a : List LinkFlit × State) f =>
      if !a.1.isEmpty then (a.1 ++ [f], a.2)
      else match a.2.resendOne e f with
        | some t => (a.1, t)
        | none => (a.1 ++ [f], a.2)) ([], s)
    (r.2.setLk e { r.2.lk e with resend := r.1 }).lkPump e

/-- The ends at which something waits to be sent. -/
def State.lkBusy (s : State) : List LinkEnd :=
  ((List.range 12).flatMap fun n => [⟨true, n⟩, ⟨false, n⟩]).filter fun e => !((s.lk e).queue.isEmpty && (s.lk e).resend.isEmpty)

/-! ### Width changes (R236, R237) -/

/-- The masks of an end, as a WIDTH message carries them. -/
def State.sendWidth (s : State) (e : LinkEnd) (cmd : Nat) : State :=
  (((s.sendCtl e cmd).lkMsg e 4 (s.rd (kSclUpmask e)) (s.rd (kSclDnmask e)))).lkMsg e 5 (s.rd (kSclSpmask e)) 0

/-- Whether an end's masks lack a lane that the maps in force use (R236, R237). -/
def State.lacksLane (s : State) (e : LinkEnd) : Bool :=
  [true, false].any fun up => (s.mapHeld e.link up).any fun i => !(s.laneMask e up).testBit i

/-- An end whose mask lacks a lane that the maps in force use requests a width change; while another
change runs it waits for its end (R236, R237). -/
def State.widthCheck (s : State) (e : LinkEnd) : State :=
  let x := s.lk e
  if (s.lkState e ≠ 2 && s.lkState e ≠ 4) || !s.lacksLane e then s
  else if x.width ≠ 0 then s.setLk e { x with recheck := true }
  else
    let s := (s.setLk e { x with width := 1, recheck := false }).setLkState e 4
    s.sendWidth e 1

/-! ### Bursts (R241–R243) -/

/-- LP1 shows at both ends while either direction is in it (Table 7-7). -/
def State.showLp1 (s : State) (n : Nat) : State :=
  let i : LinkEnd := ⟨true, n⟩
  let c : LinkEnd := ⟨false, n⟩
  let v := if (s.lk i).lp1 || (s.lk c).lp1 then 1 else 0
  let one (s : State) (e : LinkEnd) : State :=
    if s.fget (kSclStat e) fSclStat_PWR < 2 then s.fput (kSclStat e) fSclStat_PWR v else s
  one (one s i) c

/-- Whether the stream role of the direction that an end sends is up (R241, R243). -/
def State.streamUp (s : State) (e : LinkEnd) : Bool :=
  let st := kSclStat e
  let w := s.fget st (if e.iod then fSclStat_WDN else fSclStat_WUP)
  let p := s.fget st (if e.iod then fSclStat_PDN else fSclStat_PUP)
  let dis := s.fon st (if e.iod then fSclStat_STRDISDN else fSclStat_STRDISUP)
  s.lkUp e && !dis && decide (p < w) && s.fon (kSclCtl e) fSclCtl_STREN

/-- Send a line in a burst of its own, with the RSP slot that names it; the message is `o` (R241, R242; log 27). -/
def State.sendBurst (s : State) (e : LinkEnd) (d : Line) (t : Nat) (o : Out) : State :=
  let x := s.lk e
  let use := SMap.get (fun _ => 0) x.txUse t
  let bytes := [BitVec.ofNat 8 t, BitVec.ofNat 8 use, 1] ++ List.replicate 13 0 ++ lineBytes d
  let s := if x.lp1 then ((s.setLk e { x with lp1 := false }).showLp1 e.link).lkMsg e 11 0 0 else s
  let x := s.lk e
  let s := ((s.setLk e { x with tags := x.tags ++ [⟨t, use, [d], 0⟩],
                                txUse := SMap.put (fun _ => 0) x.txUse t ((use + 1) % 16) }).evtL e 9 1).emit
    (.burst e.iod e.link t use [d] (crc32p bytes))
  s.lkMessage e 2 1 o

/-- Send a message that carries a line: where the stream role is up and a tag is free in a burst, else as a DAT
message of five slots (R217, R241). -/
def State.sendData (s : State) (e : LinkEnd) (d : Line) (o : Out) : State :=
  if s.streamUp e then match (List.range 64).find? (fun t => !(s.lk e).tags.any (fun u => u.tag = t)) with
    | some t => s.sendBurst e d t o
    | none => s.lkMessage e 3 5 o
  else s.lkMessage e 3 5 o

end Sys2Proof.Machine
end

