-- ==== Sys2Proof/Machine/Ras.lean ====
section
/-! DEFINITION.
The Exposure Record's extend operation (spec/15) and the error log, permanence and retirement
bookkeeping (spec/18), which every other family calls. -/

namespace Sys2Proof.Machine

/-! ### The Exposure Record -/

/-- The 32 bytes of an exposure register. -/
def State.xr (s : State) (n : Nat) : List Byte :=
  (List.range 4).flatMap fun w => leBytes 8 (s.rd (kXrcXr n w)).toNat

/-- Set an exposure register. -/
def State.setXr (s : State) (n : Nat) (b : List Byte) : State :=
  s.each (List.range 4) fun s w => s.wr (kXrcXr n w) (BitVec.ofNat 64 (leNat (sliceB b (8 * w) 8)))

/-- The header and data of an event record (R476). -/
def eventBytes (typ xr flags seq time len : Nat) (data : List Byte) : List Byte :=
  leBytes 2 typ ++ leBytes 1 xr ++ leBytes 1 flags ++ leBytes 4 seq ++ leBytes 8 time ++
  leBytes 2 len ++ List.replicate 14 0 ++ data

/-- Pad to a multiple of 8 bytes (R476). -/
def pad8 (l : List Byte) : List Byte := l ++ List.replicate ((8 - l.length % 8) % 8) 0

/-- Extend an event (R473, R476, R477): the register takes sm3(xr ‖ sm3(record)), and the log takes
the record, its truncated form or nothing. -/
def State.extend (s : State) (typ xr : Nat) (data : List Byte) : State :=
  let seq := s.fget kXrcStat fXrcStat_COUNT
  let rec0 := eventBytes typ xr 0 seq s.time data.length data
  let d := sm3 rec0
  let s := s.setXr xr (sm3 (s.xr xr ++ d))
  let s := s.fput kXrcStat fXrcStat_COUNT (seq + 1)
  let used := s.fget kXrcStat fXrcStat_USED
  let full := s.fon kXrcStat fXrcStat_FULL
  let keep (s : State) (b : List Byte) : State :=
    let s := s.fput kXrcStat fXrcStat_USED (used + b.length)
    { s with boot := { s.boot with log := s.boot.log ++ [⟨seq, b⟩] } }
  if full then s
  else if used + (pad8 rec0).length ≤ 262144 then keep s (pad8 rec0)
  else if used + 64 ≤ 262144 then
    keep (s.fput kXrcStat fXrcStat_TRUNC 1) (eventBytes typ xr 1 seq s.time 32 d)
  else s.fput kXrcStat fXrcStat_FULL 1

/-- Extend a CONFIG event (R475): XR5 before release, XR6 after. -/
def State.config (s : State) (sub die blk : Nat) (vals : List Nat) : State :=
  s.extend 9 (if s.boot.released then 6 else 5)
    ([BitVec.ofNat 8 sub, BitVec.ofNat 8 die, BitVec.ofNat 8 blk, 0] ++ vals.flatMap (leBytes 8))

/-! ### Elements -/

/-- An Element identifier (Table 18-2). -/
def elem (die blk kind idx : Nat) : Nat := (die <<< 28) + (blk <<< 20) + (kind <<< 16) + idx
/-- The identifier of an error that is located at no Element (R523). -/
def noElem : Nat := 0xFFFFFFFF
def elemDie (e : Nat) : Nat := e >>> 28
def elemBlock (e : Nat) : Nat := (e >>> 20) % 256
def elemKind (e : Nat) : Nat := (e >>> 16) % 16
def elemIndex (e : Nat) : Nat := e % 65536

/-- The unit that an Element belongs to, as die and block (R529, Table 18-5): the cache blocks of a core are parts of
the core, a die's rail is the die's, every other block is a unit of its own. -/
def elemUnit (e : Nat) : Nat × Nat :=
  let die := elemDie e; let blk := elemBlock e
  if die < 12 ∧ 0x40 ≤ blk ∧ blk < 0x52 then (die, blk - 0x40)
  else if die < 12 ∧ 0x58 ≤ blk ∧ blk < 0x6A then (die, blk - 0x58)
  else if die < 12 ∧ elemKind e = 6 then (die, 0xFF)
  else (die, blk)

/-- The interleave set that holds a channel (R315). -/
def State.setOf (s : State) (ch : Nat) : Option Nat :=
  s.plat.sets.findIdx? (fun r => r.chans.contains ch)

/-- Start an evacuation (R274, R275 step 1): its media are withdrawn at once; one already started
for the same set or range is joined.  An evacuation of the sealed set ends Sealed partitioning
(R453). -/
def State.evacStart (s : State) (tier set : Nat) (cmd : Option Nat) (retire : Bool) : State :=
  let l := s.enl.evacs
  let ids := match cmd with | some i => [i] | none => []
  let key := tier * 256 + set
  let wd := if s.enl.withdrawn.contains key then s.enl.withdrawn else s.enl.withdrawn ++ [key]
  let seals := s.fon kWldSeal fWldSeal_ACTIVE && decide (tier = 0 ∧ s.fget kWldSeal fWldSeal_SET = set)
  let s := if seals then (s.fput kWldSeal fWldSeal_ACTIVE 0).config 12 15 0x02 [set] else s
  let l' := if l.any (fun e => decide (e.tier = tier ∧ e.set = set)) then
      l.map fun e => if e.tier = tier ∧ e.set = set then
        { e with cmds := e.cmds ++ ids, retire := e.retire || retire } else e
    else l ++ [⟨tier, set, ids, retire, false⟩]
  { s with enl := { s.enl with evacs := l', withdrawn := wd } }

/-- Make a unit RETIRING (R531, R533): a unit already out of service takes no further effect. The set of
a permanently failing channel that no hold protects is evacuated at once (R274, Table 18-5). -/
def State.planRetire (s : State) (die blk : Nat) (cause : Option Nat) : State :=
  let u := s.unit die blk
  if u.st = .retiring ∨ u.st = .retired ∨ u.st = .lost then s
  else
    let s := s.putUnit die blk { u with st := .retiring, gen := u.gen + 1, cause := cause, started := false }
    if die = 15 ∧ 0x60 ≤ blk ∧ blk < 0x70 then
      match s.setOf (blk - 0x60) with
      | some set => if s.fon kEnlCtl fEnlCtl_AUTOEVAC && cause.isSome && (s.heldUnit die blk).isNone then
          s.evacStart 0 set none true else s
      | none => s
    else s

/-- Make a unit DEGRADED if it is in full service. -/
def State.degrade (s : State) (die blk : Nat) : State :=
  if (s.unit die blk).st = .online then s.setUnit die blk .degraded else s

/-- How many permanent Elements sit in the same cache structure as `e`. -/
def State.permIn (s : State) (e : Nat) : Nat :=
  (s.ras.perm.filter fun p => decide (elemDie p = elemDie e ∧ elemBlock p = elemBlock e ∧
    elemKind p = 0 ∧ (elemIndex p >>> 8) = (elemIndex e >>> 8))).length

/-- Whether one of `n` lanes of a Flexible I/O group from lane `lo` is permanent (R523, R532). -/
def State.laneOut (s : State) (g lo n : Nat) : Bool :=
  s.ras.perm.any fun e => decide (elemDie e = 15 ∧ elemBlock e = 0x10 + g ∧ elemKind e = 1 ∧
    16 * g + lo ≤ elemIndex e ∧ elemIndex e < 16 * g + lo + n)

/-- The width that a Sceuc-X group trains at: x8 on a half whose lanes are all good, if not x16 (R362, R532). -/
def State.xWidth (s : State) (g : Nat) : Nat :=
  if !s.laneOut g 0 16 then 16 else if !s.laneOut g 0 8 || !s.laneOut g 8 8 then 8 else 0

/-- A joined Sceuc-X link that has a permanent lane narrows (R362, Table 18-5). -/
def State.xNarrow (s : State) (blk : Nat) : State :=
  let g := blk - 0x10
  if 0x10 ≤ blk ∧ blk < 0x18 ∧ s.fget (kFioGcfg g) fFioGcfg_ROLE = 5 ∧ s.fget (kFioXstat g) fFioXstat_STATE = 2 ∧
      s.fget (kFioXstat g) fFioXstat_WIDTH = 16 ∧ s.xWidth g = 8 then
    let s := (s.fput (kFioXstat g) fFioXstat_WIDTH 8).evt 15 blk 6
    s.config 9 15 blk [(s.rd (kFioXstat g)).toNat]
  else s

/-- The action on a permanent Element (Table 18-5). -/
def State.permAct (s : State) (e : Nat) : State :=
  let die := elemDie e; let blk := elemBlock e; let i := elemIndex e
  match elemKind e with
  | 0 =>
    if die < 12 ∧ 0x40 ≤ blk ∧ blk < 0x52 then
      let s := s.degrade die (blk - 0x40)
      if s.permIn e > 2 then s.planRetire die (blk - 0x40) (some e) else s
    else if die < 12 ∧ 0x58 ≤ blk ∧ blk < 0x6A then
      let s := s.degrade die (blk - 0x58)
      if s.permIn e > 2 then s.planRetire die (blk - 0x58) (some e) else s
    else if die < 12 ∧ 0x70 ≤ blk ∧ blk < 0x80 then
      let s := s.degrade die blk
      if s.permIn e > 4 then s.planRetire die blk (some e) else s
    else s
  | 1 =>
    if die = 15 ∧ 0x30 ≤ blk ∧ blk < 0x3C then
      let n := blk - 0x30
      let up := decide (i / 128 = 0)
      -- the lane leaves the IOD end's mask (Table 18-5), and a down lane also that of its receiving end (R237, log 35)
      let s := (s.dropLane ⟨true, n⟩ up (i % 128)).widthCheck ⟨true, n⟩
      let s := if up then s else (s.dropLane ⟨false, n⟩ up (i % 128)).widthCheck ⟨false, n⟩
      s.degrade die blk
    else s.degrade die blk |>.xNarrow blk
  | 2 =>
    let ch := blk - 0x60
    let c := s.chan ch
    let s := s.setChan ch { c with erased := if c.erased.contains i then c.erased else c.erased ++ [i] }
    let s := s.fput (kMcStat ch) fMcStat_ERASED
      (s.fget (kMcStat ch) fMcStat_ERASED ||| 2 ^ (i / 20))
    (s.planRetire die blk (some e)).config 6 15 blk []
  | 4 => if die < 12 ∧ blk < 0x12 then s.planRetire die blk (some e) else s
  | 6 => if die < 12 then s.planRetire die 0xFF (some e) else s
  | _ => s

/-! ### Error records -/

/-- An error as its detector reports it (Table 18-8). -/
structure ErrIn where
  cls       : Nat
  kind      : Nat
  element   : Nat := 0xFFFFFFFF
  recovered : Bool := false
  hpa       : Option Nat := none
  ma        : Option Word := none
  key       : Option Nat := none
  agent     : Nat := 0xFFFF
  dark      : Bool := false
  lost      : Bool := false
  detail    : Nat := 0
  syn0      : Word := 0
  syn1      : Word := 0
  counts    : Bool := true

/-- The FLAGS byte of a record (Table 18-8). -/
def errFlags (e : ErrIn) (perm merged : Bool) : BitVec 8 :=
  let b (x : Bool) (i : Nat) : Nat := if x then 2 ^ i else 0
  BitVec.ofNat 8 (b e.dark 0 + b perm 1 + b e.recovered 2 + b e.hpa.isSome 3 + b e.ma.isSome 4 +
    b e.key.isSome 5 + b e.lost 6 + b merged 7)

/-- TIME window of R525 in TCLK cycles, WINDOW 0 acting as 1. -/
def State.rasWindow (s : State) : Nat := max 1 (s.fget kRasCtl fRasCtl_WINDOW) * 3600000000000
/-- THRESH, values below 2 acting as 2. -/
def State.rasThresh (s : State) : Nat := max 2 (s.fget kRasCtl fRasCtl_THRESH)

/-- Count an error against its Element (R524–R526): whether the Element became permanent, and the
new tracking state. The counted errors are newest first. -/
def State.track (s : State) (e : Nat) : Bool × State :=
  if s.ras.perm.contains e then (false, s)
  else
    let old := match s.ras.tracked.find? (fun p => p.1 = e) with | some p => p.2 | none => []
    let n := s.rasThresh
    let due := match old[n - 2]? with
      | some t => decide (s.time ≤ t + s.rasWindow)
      | none => false
    if due then
      (true, { s with ras := { s.ras with tracked := s.ras.tracked.filter (fun p => p.1 ≠ e) } })
    else
      let l := s.ras.tracked.filter (fun p => p.1 ≠ e)
      let newest (p : Nat × List Nat) := p.2.headD 0
      let (l, repl) := if old = [] ∧ l.length ≥ 4096 then
          let m := l.foldl (fun a p => min a (newest p)) s.time
          match l.findIdx? (fun p => newest p = m) with
          | some i => (l.eraseIdx i, true)
          | none => (l, false)
        else (l, false)
      let tr := l ++ [(e, s.time :: old)]
      let s := { s with ras := { s.ras with tracked := tr } }
      (false, if repl then s.evt 15 8 5 else s)

/-- Append a record (R539, R541); the log holds 4,096. Vector 4 is raised on SP0–SP3. -/
def State.logRec (s : State) (e : ErrIn) (perm : Bool) : State :=
  let seq := s.fget kRasNextseq fRasNextseq_SEQ
  let r : ErrRec :=
    { seq := seq, element := e.element, time := s.time, cls := e.cls,
      flags := errFlags e perm false, kind := e.kind, count := 1, hpa := e.hpa.getD 0,
      ma := e.ma.getD 0, key := e.key.getD 0, agent := e.agent, detail := e.detail,
      syn0 := e.syn0, syn1 := e.syn1 }
  let full := s.ras.log.length ≥ 4096
  let l := if full then s.ras.log.drop 1 else s.ras.log
  let s := { s with ras := { s.ras with log := l ++ [r] } }
  let s := if full then s.fadd kRasLogstat fRasLogstat_LOST 1 else s
  let s := s.fput kRasLogstat fRasLogstat_HELD s.ras.log.length
  let s := s.fput kRasNextseq fRasNextseq_SEQ (seq + 1)
  let s := if e.cls = 1 ∨ e.cls = 2 then
      ({ s with pins := { s.pins with err := true, errTime := s.time } }).emit (.pin "ERR_N" true)
    else s
  ((s.evt 15 8 e.cls).vec 216 4).vecSp 4

/-- Merge a Corrected error into the newest record of its ELEMENT and KIND, if R540 allows. -/
def State.mergeRec (s : State) (e : ErrIn) : Option State :=
  let ms := s.fget kRasCtl fRasCtl_MERGEMS
  let same (r : ErrRec) := decide (r.element = e.element ∧ r.kind = e.kind)
  match s.ras.log.reverse.find? same with
  | none => none
  | some r =>
    if e.cls = 0 ∧ r.cls = 0 ∧ s.time < r.time + ms * 1000000 then
      let l := s.ras.log.map fun x => if x.seq = r.seq then
        { x with count := x.count + 1, flags := (x.flags ||| 0x80#8) } else x
      some (({ s with ras := { s.ras with log := l } }).evt 15 8 4)
    else none

/-- Add to the list of permanent Elements (R526); with the list full, the Element's Block is
retired instead. PERMHI and PERMLO show the count. -/
def State.addPerm (s : State) (e : Nat) : State :=
  let q := elemUnit e
  if s.ras.perm.length ≥ 1024 then s.planRetire q.1 q.2 (some e)
  else
    let s := { s with ras := { s.ras with perm := s.ras.perm ++ [e] } }
    let n := s.ras.perm.length
    let s := (s.fput kRasLogstat fRasLogstat_PERMHI (n / 64)).fput kRasLogstat fRasLogstat_PERMLO (n % 64)
    (s.putUnit q.1 q.2 { s.unit q.1 q.2 with perm := some e }).permAct e

/-- Record an error (R521, R524, R525, R539–R541). -/
def State.raise (s : State) (e : ErrIn) : State :=
  let counted := e.counts && decide (e.element ≠ noElem) && decide (e.cls ≤ 2)
  let (perm, s) := if counted then s.track e.element else (false, s)
  let s := match (if perm then none else s.mergeRec e) with
    | some t => t
    | none => s.logRec e perm
  if perm then (s.evt 15 8 6).addPerm e.element else s

/-- A unit is lost at once by a Contained error (R531). `sticky` units stay out until the next cold
reset (R595). -/
def State.lose (s : State) (die blk : Nat) (sticky : Bool) : State :=
  let u := s.unit die blk
  if u.st = .retired then s
  else
    let s := s.setUnit die blk .lost
    let u := s.unit die blk
    s.putUnit die blk { u with sticky := u.sticky || sticky }

/-- Whether a compute core is out of service, itself or with its die. -/
def State.coreOut (s : State) (n : Nat) : Bool :=
  let u := s.unit (n / 18) (n % 18)
  decide (u.st = .retired ∨ u.st = .lost) || s.dieOut (n / 18)

/-- Signal a 16-bit interrupt field (R358): vector bits 15:8 on local core bits 7:0. -/
def State.signal (s : State) (f : Nat) : State :=
  let n := f % 256
  if f / 256 = 0 ∨ n ≥ 216 ∨ s.coreOut n ∨ s.fon (kCoreId n) fCoreId_RETIRED then s else s.vec n (f / 256 % 256)

/-- Drop a write that a rule of class Deferred names: only the record is made. -/
def State.deferredErr (s : State) (kind : Nat) (hpa key : Option Nat) (dark : Bool) (agent : Nat) : State :=
  s.raise { cls := 1, kind := kind, hpa := hpa, key := key, dark := dark, agent := agent }

/-- The world of a core or service core (Table 14-1). -/
def State.coreDark (s : State) (n : Nat) : Bool :=
  if n = 216 then true else if n > 216 then false else (s.core n).darkW

/-- The requests that a test names have no requester any more: an answer that is kept is dropped, and one that is still to
come will be. -/
def State.forget (s : State) (f : ReqKind → HomeReq → Bool) : State :=
  let p (q : Pend) : Pend := if decide (q.mode = .held) && f q.kind q.req then { q with mode := .post } else q
  let slice (x : Slice) : Slice :=
    { x with trans := x.trans.map fun (t : Trans) => if decide (t.mode = .held) && f t.kind t.req then { t with mode := .post } else t,
             waiting := x.waiting.map p, parked := x.parked.map p }
  { s with home := { s.home with
      slices := s.home.slices.map fun q => (q.1, slice q.2),
      replies := s.home.replies.filter fun h => !f h.kind h.req,
      asked := s.home.asked.map p } }

/-- Whether a request is one of a core. -/
def reqOfCore (r : HomeReq) (n : Nat) : Bool := decide (r.core = n) && decide (r.src = 1 ∨ r.src = 2)

/-- Stop a core (R82): CORE_STOP takes reason, level and world, its level reading zero when it
stopped in the Darkroom (R81); its architectural state is lost. Its caches and predictor stay. -/
def State.haltCore (s : State) (n reason : Nat) : State :=
  let c := s.core n
  if !c.released then s
  else
    let s := if n < 216 then
        let d := c.darkW
        s.wr (kCoreStop n) (fCoreStop_REASON.put (fCoreStop_LEVEL.put (fCoreStop_WORLD.put 0
          (if d then 1 else 0)) (if d then 0 else c.level)) reason)
      else s
    (s.setCore n { coreReset n with caches := c.caches, pred := c.pred }).forget fun _ r => reqOfCore r n

/-- Release a core (R58): level H in Daylight, window 0 with its parent resident. -/
def State.releaseCore (s : State) (n : Nat) (pc : Word) : State :=
  (if n < 216 then s.wr (kCoreStop n) 0 else s).setCore n { coreReset n with released := true, pc := pcOf pc }

/-- The cores of a die that has been reset are released (R538), leaving out those out of service. -/
def State.releaseDie (s : State) (die : Nat) : State :=
  match SMap.find s.ras.entry die with
  | none => s
  | some pc =>
    let s := { s with ras := { s.ras with entry := s.ras.entry.del die } }
    s.each ((List.range 18).map (18 * die + ·)) fun s n => if s.coreOut n then s else s.releaseCore n pc

/-! ### Darkroom holds (R442–R444) -/

/-- Log a refusal for a hold (R443): kind 0 ZCI command, 1 register write, 2 reset request. -/
def State.holdRefused (s : State) (kind die blk code : Nat) : State :=
  let v := s.rd kWldHoldlog
  let s := if fWldHoldlog_VALID.on v then s else
    s.wr kWldHoldlog (fWldHoldlog_CODE.put (fWldHoldlog_BLOCK.put (fWldHoldlog_DIE.put
      (fWldHoldlog_KIND.put (fWldHoldlog_VALID.put 0 1) kind) die) blk) code)
  (s.fadd kWldHoldlog fWldHoldlog_COUNT 1).evt 15 2 2

end Sys2Proof.Machine
end

