-- ==== Sys2Proof/Machine/Power.lean ====
section
/-! DEFINITION.
Operating points, rail transitions, caps, monitors and Bracketing (spec/17): the parts that touch
no cache and no link. -/

namespace Sys2Proof.Machine

/-! ### Operating points (R496, R497) -/

/-- The required voltage at `n` for fused points in ascending N (R496); below the first point its
voltage, above the last the last. -/
def vAt : List (Nat × Nat) → Nat → Nat
  | [], _ => 0
  | [(_, v)], _ => v
  | (na, va) :: (nb, vb) :: r, n =>
    if n ≤ na then va
    else if n ≤ nb then va + ceilDiv ((n - na) * (vb - va)) (nb - na)
    else vAt ((nb, vb) :: r) n

/-- FMAX: the largest N not above N_7 with V(N) + GUARD ≤ VMAX; 0 if none (R497). -/
def fmaxOf (pts : List (Nat × Nat)) (vmax guard : Nat) : Nat :=
  let top := (pts.getLast?.map (·.1)).getD 0
  ((List.range 137).map (fun i => 168 - i)).find? (fun n => decide (n ≤ top ∧ vAt pts n + guard ≤ vmax))
    |>.getD 0

/-- Rail number 12 is the IOD's. -/
def railIod : Nat := 12

/-- The guard that registers ask for: the larger of GUARD and GFLOOR (R496, R515). -/
def State.wantGuard (s : State) (r : Nat) : Nat :=
  if r = railIod then max (s.fget kPwrIodv fPwrIodv_GUARD) (s.fget kPwrIodv fPwrIodv_GFLOOR)
  else max (s.fget (kPwrDctl r) fPwrDctl_GUARD) (s.fget (kPwrDstat r) fPwrDstat_GFLOOR)

/-- The fused points and the fused ceiling of a die (R496). -/
def State.points (s : State) (d : Nat) : List (Nat × Nat) := s.fuses.vf[d]?.getD []
def State.vmax (s : State) (d : Nat) : Nat := s.fuses.vmax[d]?.getD 0

/-- FMAX of a die under a guard (R497). -/
def State.fmax (s : State) (d guard : Nat) : Nat := fmaxOf (s.points d) (s.vmax d) guard

/-- TARGET; values below 32 act as 32, above 168 as 168. -/
def State.target (s : State) (d : Nat) : Nat := max 32 (min 168 (s.fget (kClkCdctl d) fClkCdctl_TARGET))

/-- The effective point a die should run at under a guard (R497). -/
def State.wantN (s : State) (d guard : Nat) : Nat :=
  max 32 (min (min (s.target d) (s.fmax d guard))
    (min (s.fget kPwrPkg fPwrPkg_NCAP) (s.fget (kClkCdctl d) fClkCdctl_TCAP)))

/-- Present N and rail voltage. -/
def State.neff (s : State) (d : Nat) : Nat := s.fget (kClkCdctl d) fClkCdctl_NEFF
def State.volt (s : State) (r : Nat) : Nat :=
  if r = railIod then s.fget kPwrIodv fPwrIodv_VOLT else s.fget (kPwrDstat r) fPwrDstat_VOLT
def State.setVolt (s : State) (r mv : Nat) : State :=
  if r = railIod then s.fput kPwrIodv fPwrIodv_VOLT mv else s.fput (kPwrDstat r) fPwrDstat_VOLT mv

/-- Set a rail's transition; BUSY shows that one runs (R501). -/
def State.setTrans (s : State) (r : Nat) (t : RailTrans) : State :=
  let x := s.rail r
  let s := if t ≠ .idle ∧ x.trans = .idle then (if r = railIod then s.evt 15 5 3 else s.evt r 0x20 3) else s
  let s := s.setRail r { x with trans := t }
  if r = railIod then s
  else s.fput (kClkCdctl r) fClkCdctl_BUSY (if t = .idle then 0 else 1)

/-- Send an AVSBus command (R498). -/
def State.avs (s : State) (r mv : Nat) (t : RailTrans) : State :=
  let s := s.setTrans r t
  (s.setRail r { s.rail r with target := mv }).emit (.avs r mv)

/-- The guard in force. -/
def State.setGuard (s : State) (r g : Nat) : State := s.setRail r { s.rail r with guard := g }

/-- The test that runs on a whole compute die (R559). -/
def State.dieTest (s : State) (d : Nat) : Option TestRun := match s.cnt.test with
  | some t => if t.die = d ∧ t.block = 0xFF then some t else none
  | none => none

/-- The point and the rail voltage of a die test: V(N) + GUARD + VOFF, limited to VMAX (R559). -/
def State.testPoint (s : State) (t : TestRun) (guard : Nat) : Nat × Nat :=
  let n := if t.n = 0 then 32 else t.n
  let v : Int := (vAt (s.points t.die) n : Int) + guard +
    (if t.voff ≥ 32768 then (t.voff : Int) - 65536 else (t.voff : Int))
  (n, min v.toNat (s.vmax t.die))

/-- A die whose CCLK does not run: in DS3 its rail goes to 0 V; otherwise it is brought to the first
point (R505, R580). -/
def State.railStopped (s : State) (d g : Nat) : State :=
  let v := s.volt d
  if s.fget (kPwrDstat d) fPwrDstat_DSTATE = 2 then (if v > 0 then s.avs d 0 (.lowering 0 g) else s)
  else if !s.plat.accepted ∨ s.dieOut d then s
  else
    let mv := vAt (s.points d) 32 + g
    let s := s.setGuard d g
    if v < mv then s.avs d mv (.raising 32 g) else s.setTrans d (.hopUp 32 g)

/-- Start the transition that the present inputs call for (R498, R501), if the rail is idle. -/
def State.pwrEval (s : State) (r : Nat) : State :=
  let x := s.rail r
  if x.trans ≠ .idle ∨ x.frozen then s
  else if r = railIod then
    let g := s.wantGuard r
    let s := s.setGuard r g
    let mv := min (s.fuses.iodMv + g) s.fuses.iodVmax
    let v := s.volt r
    if mv = v then s
    else if v < mv then s.avs r mv (.raising 0 g)
    else s.avs r mv (.lowering 0 g)
  else
    let n := s.neff r
    let v := s.volt r
    let g := s.wantGuard r
    match s.dieTest r with
    | some t =>
      let (m, mv) := s.testPoint t g
      if v < mv then s.avs r mv (.raising m g)
      else if n ≠ m then s.setTrans r (.hopUp m g)
      else if mv < v then s.avs r mv (.lowering m g) else s
    | none =>
    if n = 0 then s.railStopped r g
    else
      let pts := s.points r
      let m := s.wantN r g
      if x.guard < g ∧ s.fmax r g < n then s.setTrans r (.hopDown m g)
      else
        let s := s.setGuard r g
        let atN := vAt pts n + g
        if v < atN then s.avs r atN (.raising n g)
        else if m < n then s.setTrans r (.hopDown m g)
        else if n < m then
          let mv := vAt pts m + g
          if v < mv then s.avs r mv (.raising m g) else s.setTrans r (.hopUp m g)
        else if atN < v then s.avs r atN (.lowering n g)
        else s

/-- Recompute every compute die, as a change of a shared input asks. -/
def State.pwrEvalAll (s : State) : State := s.each (List.range 12) State.pwrEval

/-- Raise a compute-die rail from 0 V to V(32) + GUARD (R580). -/
def State.railUp (s : State) (d : Nat) : State := s.pwrEval d

/-- Whether a die's CCLK stays stopped: DS3 with no test on the die. -/
def State.dieDark (s : State) (d : Nat) : Bool :=
  decide (s.fget (kPwrDstat d) fPwrDstat_DSTATE = 2) && (s.dieTest d).isNone

/-- AVSBUS_COMPLETE: the rail is at the commanded voltage; a raise goes on to the clock hop. -/
def avsbusCompleteRun (rail : Nat) (s : State) : State :=
  let x := s.rail rail
  match x.trans with
  | .raising n g =>
    let s := (s.setVolt rail x.target).setRail rail { x with expiries := 0 }
    if rail = railIod ∨ n = s.neff rail ∨ s.dieDark rail then (s.setTrans rail .idle).pwrEval rail
    else s.setTrans rail (.hopUp n g)
  | .lowering _ _ =>
    let s := (s.setVolt rail x.target).setRail rail { x with expiries := 0 }
    (s.setTrans rail .idle).pwrEval rail
  | _ => s

/-- CCLK runs at a new point, unless the die has entered DS3 meanwhile. -/
def State.hopTo (s : State) (d n : Nat) : State := if s.dieDark d then s else s.fput (kClkCdctl d) fClkCdctl_NEFF n

/-- CLOCK_HOP_COMPLETE: CCLK runs at the new point; the guard that waited comes into force, and the
rail is brought to V(NEFF) + GUARD (R498, R499). -/
def clockHopCompleteRun (die : Nat) (s : State) : State :=
  match (s.rail die).trans with
  | .hopUp n _ => ((s.hopTo die n).setTrans die .idle).pwrEval die
  | .hopDown n g => (((s.hopTo die n).setGuard die g).setTrans die .idle).pwrEval die
  | _ => s

/-- An AVSBus expiry (R500): the count of consecutive expiries, and what a raise leaves. -/
def State.avsExpire (s : State) (rail : Nat) : State :=
  let x := s.rail rail
  let die := if rail = railIod then 15 else rail
  let blk := if rail = railIod then 5 else 0x20
  let s := s.evt die blk 7
  let s := s.setRail rail { x with expiries := x.expiries + 1 }
  let s := match x.trans with
    | .raising _ _ =>
      let s := if rail = railIod then s else s.fput (kClkCdctl rail) fClkCdctl_VFAIL 1
      s.raise { cls := 0, kind := 0x62, element := elem die blk 6 0 }
    | _ => s
  let s := s.setTrans rail .idle
  if rail = railIod ∧ x.expiries + 1 ≥ 3 then s.setRail rail { s.rail rail with frozen := true } else s

/-! ### Caps (R502, R503) -/

/-- Set NCAP, which every die shows. -/
def State.setNcap (s : State) (n : Nat) : State :=
  let s := s.fput kPwrPkg fPwrPkg_NCAP n
  s.each (List.range 12) fun s d => s.fput (kClkCdctl d) fClkCdctl_NCAP n

/-- PL1 and PL2 in W, TAU in ms, as they act. -/
def State.pl1 (s : State) : Nat := max 100 (min 640 (s.fget kPwrLimit fPwrLimit_PL1))
def State.pl2 (s : State) : Nat := max s.pl1 (min 800 (s.fget kPwrLimit fPwrLimit_PL2))

/-- POWER_MANAGER_SAMPLE (R502): the averages over 1 ms and over TAU, in mW. -/
def powerManagerSampleRun (mw1 mwTau : Nat) (s : State) : State :=
  let s := { s with pwr := { s.pwr with mw1 := mw1, mwTau := mwTau } }
  let s := s.fput kPwrPkg fPwrPkg_POWER (min mw1 (2 ^ 32 - 1))
  let cap := s.fget kPwrPkg fPwrPkg_NCAP
  let exceeds := mwTau > s.pl1 * 1000 ∨ mw1 > s.pl2 * 1000
  let low := mwTau * 100 < s.pl1 * 95000 ∧ mw1 * 100 < s.pl2 * 95000
  let mark (s : State) : State := { s with pwr := { s.pwr with ncapAt := s.time } }
  if exceeds then
    let n := max 32 (cap - 4)
    (if n = cap then mark s else (mark (s.setNcap n)).evt 15 5 4).pwrEvalAll
  else if low then
    if s.time ≥ s.pwr.ncapAt + 1000000 then (mark (s.setNcap (min 168 (cap + 1)))).pwrEvalAll else s
  else mark s

/-- THERMAL_SAMPLE (R503): a junction temperature in tenths of a degree. -/
def thermalSampleRun (die : Nat) (tenths : Int) (s : State) : State :=
  let s := { s with pwr := { s.pwr with junction := SMap.put (fun _ => (0 : Int)) s.pwr.junction die tenths } }
  if die ≥ 12 then s
  else
    let cap := s.fget (kClkCdctl die) fClkCdctl_TCAP
    let mark (s : State) : State :=
      { s with pwr := { s.pwr with tcapAt := SMap.put (fun _ => 0) s.pwr.tcapAt die s.time } }
    let at' := SMap.get (fun _ => 0) s.pwr.tcapAt die
    if tenths > 1000 then
      let n := max 32 (cap - 4)
      let s := mark (s.fput (kClkCdctl die) fClkCdctl_TCAP n)
      ((if n = cap then s else s.evt die 0x20 5)).pwrEval die
    else if tenths ≤ 970 then
      if s.time ≥ at' + 1000000 then (mark (s.fput (kClkCdctl die) fClkCdctl_TCAP (min 168 (cap + 1)))).pwrEval die
      else s
    else mark s

/-! ### Wakes (R508) -/

/-- The lowest code of several, and the mask of all. -/
def wakePick (codes : List (Nat × Nat)) : Nat × Nat × Nat :=
  let pend := codes.foldl (fun a c => a ||| 2 ^ (c.1 % 16)) 0
  match codes.foldl (fun (a : Option (Nat × Nat)) c => match a with
      | some b => if c.1 < b.1 then some c else a
      | none => some c) none with
  | some c => (c.1, c.2, pend)
  | none => (0, 0, 0)

/-- Record an exit of a die or of the package. -/
def State.lastWake (s : State) (codes : List (Nat × Nat)) : State :=
  let (c, d, p) := wakePick codes
  let v := fPwrLastwake0_PEND.put (fPwrLastwake0_DETAIL.put (fPwrLastwake0_CODE.put
    (fPwrLastwake0_VALID.put 0 1) c) d) p
  ((s.wr kPwrLastwake0 v).wr kPwrLastwake1 (BitVec.ofNat 64 s.time)).evt 15 5 6

/-! ### Grey Card and Bracketing -/

/-- A 16-bit monitor value as a margin: two's complement (log 16). -/
def margin16 (v : Nat) : Int := if v % 65536 ≥ 32768 then (v % 65536 : Int) - 65536 else ((v % 65536 : Nat) : Int)
/-- A margin as 16 bits. -/
def margin16' (v : Int) : Nat := (v % 65536).toNat

/-- The GRC block number of a die. -/
def grcBlock (die : Nat) : Nat := if die = 15 then 7 else 0x22

/-- A Corrected margin record (R512): it is located at no Element (log 16). -/
def State.marginRec (s : State) (kind detail : Nat) : State :=
  (s.raise { cls := 0, kind := kind, detail := detail }).vecSp 7

/-- A margin counts towards the smallest that a CPR ever showed (Table 17-9). -/
def State.cprSeen (s : State) (die i : Nat) (m : Int) : State :=
  let d : Nat → Int := fun _ => 0x7FFF
  let k := die * 64 + i
  { s with pwr := { s.pwr with cprMin := SMap.put d s.pwr.cprMin k (min m (SMap.get d s.pwr.cprMin k)) } }

/-- GREY_CARD_SAMPLE (R511, R512): CUR takes the sample and EXT its extreme; crossing the warning
threshold sets FLAG. -/
def greyCardSampleRun (die i : Nat) (value : BitVec 16) (s : State) : State :=
  if s.dieHeld die then s
  else
    let k := kGrcSens die i
    let v := value.toNat
    let ext := s.fget k fGrcSens_EXT
    let cpr := isCpr die i
    let ext' := if cpr then (if margin16 v < margin16 ext then v else ext) else max ext v
    let s := ((s.fput k fGrcSens_CUR v).fput k fGrcSens_EXT ext').evt die (grcBlock die) 0
    let s := if cpr then s.cprSeen die i (margin16 v) else s
    let cross := if cpr then decide (margin16 v < (s.fget kGrcCtl fGrcCtl_CPRWARN : Int))
      else decide (v ≥ s.fget kGrcCtl fGrcCtl_ROWARN)
    if cross && !s.fon k fGrcSens_FLAG then
      ((s.fput k fGrcSens_FLAG 1).evt die (grcBlock die) 1).marginRec 0x60 (die * 256 + i)
    else s

/-- The CPR monitors of a die. -/
def cprsOf (die : Nat) : List Nat := (List.range 64).filter (isCpr die)

/-- The core that a compute-die monitor replicates, if it is a core's (Table 17-7). -/
def cprCore (die i : Nat) : Option Nat := if die < 12 ∧ i < 36 then some (18 * die + i / 2) else none

/-- The GFLOOR raise that a margin asks for: 5 mV × ceil(S / 5) (R514). -/
def guardRaise (mtarget : Nat) (m : Int) : Nat :=
  let sf := (mtarget : Int) - m
  if sf > 0 then 5 * ceilDiv sf.toNat 5 else 0

/-- The margin EXT of a CPR. -/
def State.cprExt (s : State) (die i : Nat) : Int := margin16 (s.fget (kGrcSens die i) fGrcSens_EXT)

/-- The CPRs that a pass regards: those of retired cores are left out. -/
def State.liveCprs (s : State) (die : Nat) : List Nat :=
  (cprsOf die).filter fun i => match cprCore die i with
    | some c => decide ((s.unit die (c % 18)).st ≠ .retired)
    | none => true

/-- The core whose CPR alone would raise GFLOOR by CORESLACK more than the next-worst core's
(Table 17-8). -/
def State.slackCore (s : State) (die : Nat) : Option Nat :=
  let mt := s.fget kGrcBrk fGrcBrk_MTARGET
  let cs := (s.liveCprs die).filter (fun i => (cprCore die i).isSome)
  let r (i : Nat) := guardRaise mt (s.cprExt die i)
  cs.find? fun i =>
    let rest := (cs.filter (fun j => j ≠ i)).map r
    decide (!rest.isEmpty) && decide (r i ≥ rest.foldl max 0 + s.fget kGrcBrk fGrcBrk_CORESLACK) && decide (r i > 0)

/-- Take the extra samples of a pass into EXT. -/
def State.passSamples (s : State) (die : Nat) (l : List Int) : State :=
  s.each ((cprsOf die).zip l) fun s p =>
    let k := kGrcSens die p.1
    let v := margin16' p.2
    let s := s.cprSeen die p.1 p.2
    if p.2 < margin16 (s.fget k fGrcSens_EXT) then s.fput k fGrcSens_EXT v else s

/-- Raise GFLOOR of a die by a pass and start EXT again. -/
def State.passFloor (s : State) (die : Nat) (cprs : List Nat) : State :=
  let mt := s.fget kGrcBrk fGrcBrk_MTARGET
  let up := cprs.foldl (fun a i => max a (guardRaise mt (s.cprExt die i))) 0
  let s := s.each (cprsOf die) fun s i => s.fput (kGrcSens die i) fGrcSens_EXT 0x7FFF
  let s := s.evt die (grcBlock die) 2
  if up = 0 then s
  else
    let s := s.evt die (grcBlock die) 3
    if die = 15 then s.fadd kPwrIodv fPwrIodv_GFLOOR up
    else s.fadd (kPwrDstat die) fPwrDstat_GFLOOR up

/-- The pass on one compute die: GFLOOR and the retirement requests of Table 17-8. -/
def State.passDie (s : State) (die : Nat) : State :=
  if s.dieOut die then s
  else
    let slack := s.slackCore die
    let cprs := (s.liveCprs die).filter (fun i => decide (some i ≠ slack))
    let s := match slack with
      | some i => match cprCore die i with
        | some c => s.planRetire die (c % 18) none
        | none => s
      | none => s
    let s := s.passFloor die cprs
    let floor := s.fget (kPwrDstat die) fPwrDstat_GFLOOR
    let s := if s.fmax die (s.wantGuard die) < s.fget kGrcBrk fGrcBrk_NRET ∨
        vAt (s.points die) 32 + floor > s.vmax die then s.planRetire die 0xFF none else s
    s.pwrEval die

/-- The pass on the IOD. -/
def State.passIod (s : State) : State :=
  let s := s.passFloor 15 (s.liveCprs 15)
  let s := if s.fuses.iodMv + s.fget kPwrIodv fPwrIodv_GFLOOR > s.fuses.iodVmax then
    s.raise { cls := 0, kind := 0x61 } else s
  s.pwrEval railIod

/-- The consecutive passes below 12 steps of each channel (Table 17-8). -/
def State.passChans (s : State) : State :=
  s.each (List.range 16) fun s ch =>
    let n := SMap.get (fun _ => 0) s.pwr.passes ch
    let active := s.fget (kMcStat ch) fMcStat_STATE = 2
    let narrow := match (s.chan ch).window with | some w => decide (w < 12) | none => false
    let m := if active ∧ narrow = true then n + 1 else 0
    { s with pwr := { s.pwr with passes := SMap.put (fun _ => 0) s.pwr.passes ch m } }

/-- Each Flexible I/O group in L0 measures its receivers' lane margins: readings of the moment (R511, log 35). -/
def State.passLanes (s : State) : State :=
  s.each (List.range 8) fun s g =>
    if (List.range 4).any (fun q => decide (s.fget (kFioPstat g q) fFioPstat_STATE = 2)) ||
        decide (s.fget (kFioXstat g) fFioXstat_STATE = 2) then
      let w := Config.freeValue s.free
      { s with free := s.free + 1, pwr := { s.pwr with laneMargins := SMap.put (fun _ => (0 : Word)) s.pwr.laneMargins g w } }
    else s

/-- BRACKETING_PASS (R513, R514, Table 17-8). The margins are the samples of the pass itself, by die
(0–11, then the IOD), in monitor order. -/
def bracketingPassRun (bootPass : Bool) (margins : List (List Int)) (s : State) : State :=
  if bootPass && decide (s.stage ≠ 3) then s
  else
    let s := s.each ((List.range 12 ++ [15]).zip margins) fun s p => s.passSamples p.1 p.2
    let s := ((s.each (List.range 12) State.passDie).passIod).passChans
    let s := s.passLanes
    s.fadd kGrcBrk fGrcBrk_PASSES 1

-- EXEC: AVSBUS_COMPLETE CLOCK_HOP_COMPLETE POWER_MANAGER_SAMPLE THERMAL_SAMPLE GREY_CARD_SAMPLE BRACKETING_PASS
/-- AVSBUS_COMPLETE (R498): the effect of a well-formed command. -/
def execAvsbusComplete (rail : Nat) (s : State) : Res :=
  runs (decide (rail < 13)) (avsbusCompleteRun rail) s

/-- CLOCK_HOP_COMPLETE (R499): the effect of a well-formed command. -/
def execClockHopComplete (die : Nat) (s : State) : Res :=
  runs (wfCd die) (clockHopCompleteRun die) s

/-- POWER_MANAGER_SAMPLE (R502): the effect of a well-formed command. -/
def execPowerManagerSample (mw1 : Nat) (mwTau : Nat) (s : State) : Res :=
  runs true (powerManagerSampleRun mw1 mwTau) s

/-- THERMAL_SAMPLE (R503): the effect of a well-formed command. -/
def execThermalSample (die : Nat) (tenths : Int) (s : State) : Res :=
  runs (wfDie die) (thermalSampleRun die tenths) s

/-- GREY_CARD_SAMPLE (R511): the effect of a well-formed command. -/
def execGreyCardSample (die : Nat) (i : Nat) (value : BitVec 16) (s : State) : Res :=
  runs (wfDie die && decide (i < 64)) (greyCardSampleRun die i value) s

/-- BRACKETING_PASS (R514): the effect of a well-formed command. -/
def execBracketingPass (bootPass : Bool) (margins : List (List Int)) (s : State) : Res :=
  runs true (bracketingPassRun bootPass margins) s
-- END EXEC

end Sys2Proof.Machine
end

