-- ==== Sys2Proof/Machine/Ddr.lean ====
section
/-! DEFINITION.
The DDR5 channel controllers and the media of tiers 0 and 1 (spec/10): placement, reads and writes,
errors, ALERT_n, refresh, scrub and re-measurement. -/

namespace Sys2Proof.Machine

/-! ### Media addresses -/

/-- The key of a 64-byte line of media: tier and MA (R29). -/
def mediaKey (tier ma : Nat) : Nat := (tier <<< 40) + (ma >>> 6)
/-- The key of a 4 KiB media frame. -/
def frameKey (tier ma : Nat) : Nat := (tier <<< 36) + (ma >>> 12)

/-- The channels' record fields (Table 10-3). -/
def ChanRec.present (r : ChanRec) : Bool := decide (fieldAt r 0 1 = 1)
def ChanRec.rate (r : ChanRec) : Nat := fieldAt r 1 1
def ChanRec.typ (r : ChanRec) : Nat := fieldAt r 2 1 % 4
def ChanRec.dpc2 (r : ChanRec) : Bool := decide ((fieldAt r 2 1 / 16) % 2 = 1)
def ChanRec.ranks (r : ChanRec) : Nat := fieldAt r 3 1 % 4
def ChanRec.stack (r : ChanRec) : Nat := (fieldAt r 3 1 / 16) % 8
def ChanRec.density (r : ChanRec) : Nat := fieldAt r 4 1
/-- Physical ranks of the channel. -/
def ChanRec.physRanks (r : ChanRec) : Nat := r.ranks * (if r.dpc2 then 2 else 1)
/-- Capacity in bytes: each rank has sixteen x4 data devices of DENSITY Gb per die (log 17). -/
def ChanRec.capacity (r : ChanRec) : Nat := r.physRanks * 16 * r.stack * r.density * 134217728

/-- The record of a channel. -/
def State.chanRec (s : State) (ch : Nat) : ChanRec := s.plat.chans[ch]?.getD 0

/-- Place a set offset on a channel (R316): the channel's index in the set and its address. -/
def placeIn (n o : Nat) : Nat × Nat :=
  let k := Nat.log2 n
  let i := (o >>> 8) % n ^^^ (o >>> 20) % n ^^^ (o >>> 32) % n
  (i, ((o >>> (8 + k)) <<< 8) + o % 256)

/-- The set offset that R316 places at a channel's index and address. -/
def placeInv (n i addr : Nat) : Nat :=
  let k := Nat.log2 n
  let hi := (addr >>> 8) <<< (8 + k)
  let raw := i ^^^ (hi >>> 20) % n ^^^ (hi >>> 32) % n
  hi + (raw <<< 8) + addr % 256

/-- The set that holds a tier-0 MA. -/
def State.setAt (s : State) (ma : Nat) : Option Nat :=
  s.plat.sets.findIdx? (fun r => decide (r.maBase ≤ ma ∧ ma < r.maBase + r.size))

/-- The channel and channel address of a tier-0 MA. -/
def State.place (s : State) (ma : Nat) : Option (Nat × Nat) :=
  match s.plat.sets.find? (fun r => decide (r.maBase ≤ ma ∧ ma < r.maBase + r.size)) with
  | some r =>
    let p := placeIn r.chans.length (ma - r.maBase)
    (r.chans[p.1]?).map (fun c => (c, p.2))
  | none => none

/-- The tier-0 MA of a channel address, if the channel is in a set that maps it. -/
def State.maOf (s : State) (ch addr : Nat) : Option Nat :=
  match s.plat.sets.find? (fun r => r.chans.contains ch) with
  | some r =>
    let o := placeInv r.chans.length (r.chans.findIdx (fun c => c = ch)) addr
    if o < r.size then some (r.maBase + o) else none
  | none => none

/-- The key of the media line at a channel address; an address outside every set has a key of its
own. -/
def State.chanKey (s : State) (ch addr : Nat) : Nat :=
  match s.maOf ch addr with
  | some ma => mediaKey 0 ma
  | none => (ch + 1) <<< 48 + addr >>> 6

/-- The tier-1 range that holds an MA (R347). -/
def State.t1Range (s : State) (ma : Nat) : Option Nat :=
  s.plat.t1.findIdx? (fun r => decide (r.maBase ≤ ma ∧ ma < r.maBase + r.size))

/-- Whether the medium of an address is lost: a channel that is down, a contained port (R328, R345). -/
def State.mediaDead (s : State) (tier ma : Nat) : Bool :=
  if tier = 0 then match s.place ma with
    | some (ch, _) => decide (s.fget (kMcStat ch) fMcStat_STATE = 4)
    | none => false
  else match s.t1Range ma with
    | some r => s.enl.dead.contains r
    | none => false

/-- Whether media holds Darkroom data, by the frame that owns it (R439). -/
def State.maDark (s : State) (tier ma : Nat) : Bool :=
  match SMap.find s.enl.used (frameKey tier ma) with
  | some (.frame f) => s.isDark (f <<< 12)
  | some (.slot n) => match SMap.find s.enl.slots n with
    | some t => s.isDark (t.frame <<< 12)
    | none => false
  | some .pool =>
    ((SMap.find s.enl.pools (frameKey tier ma)).getD []).any fun o => match o with
      | some f => s.isDark (f <<< 12)
      | none => false
  | _ => false

/-- A number that stands for a seal. -/
def Seal.code (x : Seal) : Nat := x.alg + 4 * (x.k1.toNat + 2 ^ 256 * (x.k2.toNat + 2 ^ 256 * x.tweak))

/-- The bits that a line of media holds (R27, R283): the ciphertext of a sealed line. -/
def MLine.wire (m : MLine) : Line := match m.sealed with
  | some y => Config.cipher m.data y.code
  | none => m.data

/-- Drop a write to lost media (R328, R345). -/
def State.dropDead (s : State) (tier ma : Nat) : State :=
  s.raise { cls := 1, kind := if tier = 0 then 0x33 else 0x52, detail := 1,
            ma := some (BitVec.ofNat 64 (ma + (tier <<< 62))), dark := s.maDark tier ma }

/-- Read a line of media. -/
def State.mediaRead (s : State) (tier ma : Nat) : MLine :=
  if s.mediaDead tier ma then ⟨0, none, true⟩ else s.mline (mediaKey tier ma)

/-- Write a line of media; a poisoned line is written with zero data (R325). -/
def State.mediaWrite (s : State) (tier ma : Nat) (m : MLine) : State :=
  if s.mediaDead tier ma then s.dropDead tier ma
  else s.setMline (mediaKey tier ma) (if m.poison then ⟨0, none, true⟩ else m)

/-- Whether the line at a channel address belongs to the Darkroom (R439). -/
def State.chanDark (s : State) (ch addr : Nat) : Bool := match s.maOf ch addr with
  | some ma => s.maDark 0 ma
  | none => false

/-! ### Channel state -/

/-- Whether a channel runs. -/
def State.chanUp (s : State) (ch : Nat) : Bool := decide (s.fget (kMcStat ch) fMcStat_STATE = 2)

/-- Show the number of real-time entries that wait and whether panic holds (R329, R330). -/
def State.chanShow (s : State) (ch : Nat) : State :=
  let c := s.chan ch
  let n := (c.queue.filter (·.rt)).length
  let c := if n = 0 then { c with agePanic := false } else c
  let s := (s.setChan ch c).fput (kMcStat ch) fMcStat_RTQ (min n 32)
  let s := s.fput (kMcStat ch) fMcStat_PANIC (if c.lendPanic || c.agePanic then 1 else 0)
  s.fput (kMcStat ch) fMcStat_OWED (c.owed.foldl (fun a p => max a p.2) 0)

/-- Whether panic holds in a channel. -/
def State.panics (s : State) (ch : Nat) : Bool := (s.chan ch).lendPanic || (s.chan ch).agePanic

/-- Log an uncorrectable error in MC_ERRLOG0 and MC_ERRLOG1, unless one is held; `dev` is the
device index of R523, or none. -/
def State.errLog (s : State) (ch kind addr : Nat) (dev : Option Nat) : State :=
  if s.fon (kMcErrlog0 ch) fMcErrlog0_VALID then s
  else
    let p := (Config.dramPlace ch addr).toNat
    let v := BitVec.ofNat 64 ((p >>> 19) % 2 ^ 34 * 2 ^ 19)
    let v := fMcErrlog0_KIND.put (fMcErrlog0_VALID.put v 1) kind
    let v := match dev with
      | some d => fMcErrlog0_RANK.put (fMcErrlog0_SUB.put (fMcErrlog0_DEVICE.put v (d % 10)) (d / 10 % 2)) (d / 20)
      | none => fMcErrlog0_RANK.put (fMcErrlog0_SUB.put (fMcErrlog0_DEVICE.put v 0xF) (p / 2 ^ 56 % 2)) (p / 2 ^ 57 % 4)
    (s.wr (kMcErrlog0 ch) v).wr (kMcErrlog1 ch) (match s.maOf ch addr with
      | some ma => fMcErrlog1_MA.put 0 (ma / 64)
      | none => 0)

/-- Record a DRAM error against its device (R326). -/
def State.dramErr (s : State) (ch addr cls kind : Nat) (dev : Option Nat) (recovered : Bool) : State :=
  s.raise { cls := cls, kind := kind, recovered := recovered,
            element := match dev with
              | some d => elem 15 (0x60 + ch) 2 d
              | none => noElem,
            ma := (s.maOf ch addr).map (BitVec.ofNat 64),
            dark := s.chanDark ch addr,
            syn0 := s.rd (kMcErrlog0 ch), syn1 := s.rd (kMcErrlog1 ch) }

/-- What a read meets with the devices that are erased (R324): an erased device corrects silently,
and an error in one further device of its burst is uncorrectable. -/
def State.eraseOutcome (s : State) (ch : Nat) : ReadOutcome → ReadOutcome
  | .corrected d =>
    let e := (s.chan ch).erased
    if e.contains d then .clean
    else if e.any (fun x => decide (x / 10 = d / 10)) then .uncorrectable d
    else .corrected d
  | o => o

/-- The device index of an outcome: an index that names no device is not located. -/
def devOf (d : Nat) : Option Nat := if d < 80 then some d else none

/-- Read a line at a channel (R322–R326): what it returns and the state after. `kind` is the KIND
logged: 1 read data, 2 scrub data. -/
def State.chanRead (s : State) (ch addr : Nat) (o : ReadOutcome) (kind : Nat) : MLine × State :=
  let k := s.chanKey ch addr
  let m := s.mline k
  let dark := s.chanDark ch addr
  if m.poison then (m, s)
  else match s.eraseOutcome ch o with
    | .clean => (m, s)
    | .corrected d =>
      (m, (s.evtW dark (0x60 + ch) 10).dramErr ch addr 0 0x30 (devOf d) false)
    | .rereadClean => (m, (s.evtW dark (0x60 + ch) 10).dramErr ch addr 0 0x31 none true)
    | .uncorrectable d =>
      let s := ((s.evtW dark (0x60 + ch) 11).errLog ch kind addr (devOf d)).setMline k ⟨0, none, true⟩
      (⟨0, none, true⟩, s.dramErr ch addr 1 0x31 (devOf d) false)

/-- The loss of a channel (R328): waiting reads return poisoned, waiting writes are dropped, and the
set is withdrawn and evacuated. -/
def State.chanDown (s : State) (ch kind addr : Nat) : State :=
  let c := s.chan ch
  let s := (s.fput (kMcStat ch) fMcStat_STATE 4).errLog ch kind addr none
  let s := s.setChan ch { c with alerted := false, queue := [], agePanic := false }
  let s := (s.lose 15 (0x60 + ch) false).raise
    { cls := 2, kind := 0x33, lost := true, syn0 := s.rd (kMcErrlog0 ch), syn1 := s.rd (kMcErrlog1 ch) }
  let s := s.each c.queue fun s q =>
    if q.write then match s.maOf ch q.addr with
      | some ma => s.dropDead 0 ma
      | none => s.raise { cls := 1, kind := 0x33, detail := 1 }
    else s.emit (.chanData ch q.addr 0 true)
  let s := match s.setOf ch with
    | some set => s.evacStart 0 set none false
    | none => s
  (s.config 7 15 (0x60 + ch) []).chanShow ch

/-! ### Refresh management (R334) -/

/-- RAAIMT and RAAMMT of a channel whose DRAM requires RFM. -/
def ChanRec.rfm (r : ChanRec) : Option (Nat × Nat) :=
  if fieldAt r 5 1 % 2 = 1 then some (max 1 (fieldAt r 40 1), max 1 (fieldAt r 41 1)) else none

/-- The bank of a channel address: rank and subchannel, bank group and bank (log 10). -/
def bankAt (ch addr : Nat) : Nat :=
  let p := (Config.dramPlace ch addr).toNat
  (p >>> 56) * 32 + (p >>> 48) % 32

/-- The activations of a bank that no RFM has answered. -/
def State.raaOf (s : State) (ch b : Nat) : Nat := SMap.get (fun _ => 0) (s.chan ch).raa b
/-- Set the activation count of a bank. -/
def State.setRaa (s : State) (ch b n : Nat) : State :=
  s.setChan ch { s.chan ch with raa := SMap.put (fun _ => 0) (s.chan ch).raa b n }
/-- RFM to a bank: its count falls by RAAIMT (PRESUMED, log 65). -/
def State.rfm (s : State) (ch im b : Nat) : State := (s.setRaa ch b (s.raaOf ch b - im)).evt 15 (0x60 + ch) 8

/-- RFM to every bank whose count has reached RAAIMT, as panic does not postpone it any more. -/
def State.rfmDue (s : State) (ch : Nat) : State := match (s.chanRec ch).rfm with
  | none => s
  | some (im, _) => ((s.chan ch).raa.filter (fun p => decide (p.2 ≥ im))).foldl (fun s p => s.rfm ch im p.1) s

/-- An access activates its row (DESIGN CHOICE, log 65: no row stays open) and counts at its bank.  RFM is issued at
RAAIMT, under panic only before a count would exceed RAAIMT × RAAMMT. -/
def State.rowOpen (s : State) (ch addr : Nat) : State :=
  let s := s.evtW (s.chanDark ch addr) (0x60 + ch) 4
  match (s.chanRec ch).rfm with
  | none => s
  | some (im, mm) =>
    let b := bankAt ch addr
    let s := if s.raaOf ch b ≥ im * mm then s.rfm ch im b else s
    let s := s.setRaa ch b (s.raaOf ch b + 1)
    if s.raaOf ch b ≥ im ∧ !s.panics ch then s.rfm ch im b else s

/-- Perform one command at a running channel. -/
def State.chanDo (s : State) (ch : Nat) (q : ChanCmd) : State :=
  let dark := s.chanDark ch q.addr
  let s := s.rowOpen ch q.addr
  let s := if q.rt then s.evtW dark (0x60 + ch) 5 else s
  if q.write then
    (s.evtW dark (0x60 + ch) 2).setMline (s.chanKey ch q.addr)
      (if q.poison then ⟨0, none, true⟩ else ⟨q.data, none, false⟩)
  else
    let r := (s.evtW dark (0x60 + ch) 1).chanRead ch q.addr q.found 1
    r.2.emit (.chanData ch q.addr r.1.wire r.1.poison)

/-- The order in which a channel serves what waits: as received, or under panic the real-time
entries first, each with the earlier entries for its line (R330, R332). -/
def serveOrder (panic : Bool) (l : List ChanCmd) : List ChanCmd :=
  if panic then
    let urgent (q : ChanCmd) : Bool := q.rt || l.any (fun r => r.rt && decide (r.addr / 64 = q.addr / 64))
    l.filter urgent ++ l.filter (fun q => !urgent q)
  else l

/-- An alerted event whose retry completed unalerted is recovered: one Corrected record (R327). -/
def State.alertSettle (s : State) (ch : Nat) : State :=
  let c := s.chan ch
  if c.attempts = 0 ∨ c.alerted then s
  else (s.setChan ch { c with attempts := 0 }).raise { cls := 0, kind := 0x32, recovered := true, detail := ch }

/-- A command arrives at a channel: a channel that is down answers at once, an alerted one holds the
command, one that is not running does nothing (R327, R328). -/
def State.chanArrive (s : State) (ch : Nat) (q : ChanCmd) : State :=
  if s.fget (kMcStat ch) fMcStat_STATE = 4 then
    if q.write then match s.maOf ch q.addr with
      | some ma => s.dropDead 0 ma
      | none => s.raise { cls := 1, kind := 0x33, detail := 1 }
    else s.emit (.chanData ch q.addr 0 true)
  else if !s.chanUp ch then s
  else
    let c := s.chan ch
    if c.alerted then (s.setChan ch { c with queue := c.queue ++ [q] }).chanShow ch
    else (s.alertSettle ch).chanDo ch q

/-- MC_READ (R326). -/
def mcReadRun (ch : Nat) (a : ChanAccess) (o : ReadOutcome) (s : State) : State :=
  s.chanArrive ch ⟨a.addr, a.rt, false, 0, false, o⟩

/-- MC_WRITE (R332). -/
def mcWriteRun (ch : Nat) (a : ChanAccess) (data : Line) (poison : Bool) (s : State) : State :=
  s.chanArrive ch ⟨a.addr, a.rt, true, data, poison, .clean⟩

/-- ALERT (R327): no new command is issued; when the fourth attempt is alerted the channel goes
down. -/
def alertRun (ch : Nat) (s : State) : State :=
  let c := s.chan ch
  if !s.chanUp ch || c.alerted then s
  else if c.attempts ≥ 4 then s.chanDown ch 3 0
  else s.setChan ch { c with alerted := true }

/-- ALERT_CLEAR (R327): the commands are reissued in their order; their data is what it was, so a
reissue leaves the same memory. -/
def alertClearRun (ch : Nat) (s : State) : State :=
  let c := s.chan ch
  if !c.alerted then s
  else
    let s := (s.fadd (kMcStat ch) fMcStat_RETRIES 1).evt 15 (0x60 + ch) 12
    let s := s.setChan ch { c with alerted := false, attempts := c.attempts + 1, queue := [] }
    (s.each (serveOrder (c.lendPanic || c.agePanic) c.queue) fun s q => s.chanDo ch q).chanShow ch

/-- ALERT_TIMEOUT (R327). -/
def alertTimeoutRun (ch : Nat) (s : State) : State :=
  if (s.chan ch).alerted then s.chanDown ch 4 0 else s

/-- REFRESH (R333): the interval of a rank elapses. Under panic or an alert it is postponed, owing at
most 4; otherwise everything owed is refreshed. -/
def refreshRun (ch rank : Nat) (s : State) : State :=
  if !s.chanUp ch then s
  else
    let c := s.chan ch
    let n := SMap.get (fun _ => 0) c.owed rank
    let set (s : State) (m : Nat) : State :=
      (s.setChan ch { s.chan ch with owed := SMap.put (fun _ => 0) (s.chan ch).owed rank m }).chanShow ch
    if c.alerted then set s (min 4 (n + 1))
    else
      let s := s.alertSettle ch
      if s.panics ch then
        if n < 4 then set s (n + 1) else s.evt 15 (0x60 + ch) 7
      else ((set s 0).evtBy 15 (0x60 + ch) 7 (n + 1)).rfmDue ch

/-- MR4_POLL (R333): which ranks need the halved interval. -/
def mr4PollRun (ch : Nat) (hot : List Bool) (s : State) : State :=
  if !s.chanUp ch then s
  else
    let m := (hot.take (s.chanRec ch).physRanks).zipIdx.foldl
      (fun (m : SMap Bool) p => SMap.put (fun _ => false) m p.2 p.1) (s.chan ch).hot
    s.setChan ch { s.chan ch with hot := m }

/-- PANIC_AGE (R330): the oldest real-time entry has waited AGE. -/
def panicAgeRun (ch : Nat) (s : State) : State :=
  let c := s.chan ch
  if s.chanUp ch ∧ s.fget (kMcRtctl ch) fMcRtctl_AGE ≠ 0 ∧ c.queue.any (·.rt) then
    (s.setChan ch { c with agePanic := true }).chanShow ch
  else s

/-- SCRUB_READ (R335). -/
def scrubReadRun (ch : Nat) (o : ReadOutcome) (s : State) : State :=
  if !s.chanUp ch || (s.chan ch).alerted || s.panics ch || (s.setOf ch).isNone ||
      decide (s.fget (kMcScrub ch) fMcScrub_HOURS = 0) || decide (s.fget kPwrPkg fPwrPkg_PS = 2) then s
  else
    let s := s.alertSettle ch
    let pos := s.fget (kMcScrub ch) fMcScrub_POS
    let lines := ((s.chanRec ch).capacity - 1048576) / 64
    let r := (s.rowOpen ch (pos * 64)).chanRead ch (pos * 64) o 2
    (r.2.evt 15 (0x60 + ch) 13).fput (kMcScrub ch) fMcScrub_POS (if pos + 1 < lines then pos + 1 else 0)

/-- The longest run of passing steps of a sweep, the lower of two equally long (R320): its first step
and its length. -/
def bestRun (l : List Bool) : Nat × Nat :=
  let step (a : (Nat × Nat) × (Nat × Nat)) (p : Bool × Nat) : (Nat × Nat) × (Nat × Nat) :=
    let cur := if p.1 then (if a.2.2 = 0 then (p.2, 1) else (a.2.1, a.2.2 + 1)) else (0, 0)
    (if cur.2 > a.1.2 then cur else a.1, cur)
  (l.zipIdx.foldl step ((0, 0), (0, 0))).1

/-- The delay and window that a sweep over the current delay ± 16 steps gives (R336, R337): steps
outside 0–127 do not exist. -/
def recentre (cur : Nat) (l : List Bool) : Nat × Nat :=
  let ok := (l.take 33).zipIdx.map fun p => p.1 && decide (16 ≤ cur + p.2 ∧ cur + p.2 - 16 < 128)
  let r := bestRun ok
  if r.2 = 0 then (cur, 0) else (cur + r.1 + (r.2 - 1) / 2 - 16, r.2)

/-- The difference of two delays. -/
def delayDiff (a b : Nat) : Nat := (a - b) + (b - a)

/-- REMEASUREMENT_STEP (R336, R337): one rank's lanes are swept again; under panic the step is
abandoned and runs again later. -/
def remeasurementStepRun (ch : Nat) (sweeps : List LaneSweep) (s : State) : State :=
  if !s.chanUp ch || (s.chan ch).alerted || s.panics ch ||
      decide (s.fget (kMcRemeas ch) fMcRemeas_PERIOD = 0) || decide (s.fget kPwrPkg fPwrPkg_PS = 2) then s
  else
    let s := s.alertSettle ch
    let rank := (s.chan ch).rank
    let shift := max 1 (s.fget (kMcRemeas ch) fMcRemeas_SHIFT)
    let s := s.each (sweeps.take 10).zipIdx fun s p =>
      let k := kMcFocus ch (rank * 10 + p.2)
      let rd := s.fget k fMcFocus_RDDLY
      let wd := s.fget k fMcFocus_WRDLY
      let r := recentre rd p.1.read
      let w := recentre wd p.1.write
      let s := (s.fput k fMcFocus_RDWIN r.2).fput k fMcFocus_WRWIN w.2
      let s := if delayDiff r.1 rd ≥ shift then s.fput k fMcFocus_RDDLY r.1 else s
      let s := if delayDiff w.1 wd ≥ shift then s.fput k fMcFocus_WRDLY w.1 else s
      if r.2 < 12 ∨ w.2 < 12 then s.marginRec 0x60 (0xF00 + ch) else s
    let n := max 1 (s.chanRec ch).physRanks
    let win := (List.range (min 10 sweeps.length)).foldl (fun (a : Option Nat) i =>
      let k := kMcFocus ch (rank * 10 + i)
      let w := min (s.fget k fMcFocus_RDWIN) (s.fget k fMcFocus_WRWIN)
      some (match a with | some b => min b w | none => w)) none
    (s.setChan ch { s.chan ch with rank := (rank + 1) % n, window := win }).evt 15 (0x60 + ch) 14

-- EXEC: MC_READ MC_WRITE ALERT ALERT_CLEAR ALERT_TIMEOUT REFRESH MR4_POLL PANIC_AGE SCRUB_READ REMEASUREMENT_STEP
/-- MC_READ (R326): the effect of a well-formed command. -/
def execMcRead (ch : Nat) (a : ChanAccess) (o : ReadOutcome) (s : State) : Res :=
  runs (wfChan ch && a.wf) (mcReadRun ch a o) s

/-- MC_WRITE (R332): the effect of a well-formed command. -/
def execMcWrite (ch : Nat) (a : ChanAccess) (data : Line) (poison : Bool) (s : State) : Res :=
  runs (wfChan ch && a.wf) (mcWriteRun ch a data poison) s

/-- ALERT (R327): the effect of a well-formed command. -/
def execAlert (ch : Nat) (s : State) : Res := runs (wfChan ch) (alertRun ch) s

/-- ALERT_CLEAR (R327): the effect of a well-formed command. -/
def execAlertClear (ch : Nat) (s : State) : Res := runs (wfChan ch) (alertClearRun ch) s

/-- ALERT_TIMEOUT (R327): the effect of a well-formed command. -/
def execAlertTimeout (ch : Nat) (s : State) : Res := runs (wfChan ch) (alertTimeoutRun ch) s

/-- REFRESH (R333): the effect of a well-formed command. -/
def execRefresh (ch : Nat) (rank : Nat) (s : State) : Res :=
  runs (wfChan ch && decide (rank < 4)) (refreshRun ch rank) s

/-- MR4_POLL (R333): the effect of a well-formed command. -/
def execMr4Poll (ch : Nat) (hot : List Bool) (s : State) : Res :=
  runs (wfChan ch) (mr4PollRun ch hot) s

/-- PANIC_AGE (R330): the effect of a well-formed command. -/
def execPanicAge (ch : Nat) (s : State) : Res := runs (wfChan ch) (panicAgeRun ch) s

/-- SCRUB_READ (R335): the effect of a well-formed command. -/
def execScrubRead (ch : Nat) (o : ReadOutcome) (s : State) : Res :=
  runs (wfChan ch) (scrubReadRun ch o) s

/-- REMEASUREMENT_STEP (R336): the effect of a well-formed command. -/
def execRemeasurementStep (ch : Nat) (sweeps : List LaneSweep) (s : State) : Res :=
  runs (wfChan ch) (remeasurementStepRun ch sweeps) s
-- END EXEC

end Sys2Proof.Machine
end

