-- ==== Sys2Proof/Machine/Dks.lean ====
section
/-! DEFINITION.
The status codes of the command interface (Table 13-10), and the Darkslide: key check, key pairs,
seals and refusals (spec/09). -/

namespace Sys2Proof.Machine

/-! ### Status codes and DETAIL values (Tables 13-5, 13-10) -/

def zDone : Nat := 0x0000
def zAccepted : Nat := 0x0001
def zUnknown : Nat := 0x0101
def zBadParam : Nat := 0x0102
def zNotPermitted : Nat := 0x0103
def zBusy : Nat := 0x0201
def zBusySecure : Nat := 0x0202
def zStateSkew : Nat := 0x0203
def zAbortedMaster : Nat := 0x0204
def zNoSpace : Nat := 0x0301
def zSigFail : Nat := 0x0401
def zInternal : Nat := 0x7F01

/-- A final reply becomes due; the ZCI writes it when it next runs (R395, log 19). -/
def State.final (s : State) (id status detail : Nat) (result : List Byte) : State :=
  { s with zci := { s.zci with finals := s.zci.finals ++ [⟨id, status, detail, result⟩] } }

/-! ### Key pairs and seals -/

/-- The rotation that runs for a key ID, with its engine. -/
def State.rotOf (s : State) (key : Nat) : Option (Nat × Rot) := s.dks.rots.find? (fun p => p.2.key = key)

/-- Whether a migration slot is a rekey slot of a rotation engine. -/
def Slot.rekeyOf (t : Slot) (e : Nat) : Bool := match t.kind with
  | .rekey x => decide (x = e)
  | .rekeyBlob x => decide (x = e)
  | _ => false

/-- Whether line `i` of frame `f` takes the new pair of a rotating context (R298). -/
def State.newPair (s : State) (key f i : Nat) : Bool :=
  match s.rotOf key with
  | none => false
  | some (e, r) =>
    decide (r.first ≤ f ∧ f < r.first + r.count) &&
    (decide (f < r.p) || r.finished.contains f ||
     s.enl.slots.any (fun p => p.2.rekeyOf e && decide (p.2.frame = f) && p.2.moved.getLsbD i))

/-- The seal of a data unit under a context's new or old pair (R284, R298). -/
def KeyCtx.seal' (c : KeyCtx) (new : Bool) (tweak : Nat) : Seal :=
  if new then ⟨c.alg, c.k1, c.k2, tweak⟩ else ⟨c.oalg, c.o1, c.o2, tweak⟩

/-- The seal of a line at its HPA under a key ID, at the moment it is used (R284, R298). -/
def State.lineSeal (s : State) (key line : Nat) : Seal :=
  let c := s.ctx key
  c.seal' (decide (c.st ≠ 2) || s.newPair key (line / 64) (line % 64)) (line * 64)

/-- The seal of unit `j` of a blob whose unit 0 has a seal: one pair, and tweaks that follow each other (Table 9-1). -/
def Seal.unit (x : Seal) (j : Nat) : Seal := { x with tweak := x.tweak + j }

/-- The tweak of unit 0 of a frame's blob (Table 9-1). -/
def blobTweak (f : Nat) : Nat := 2 ^ 127 + f * 4096

/-- The seal of unit 0 of a frame's blob; `Seal.unit` gives the other units' (Table 9-1). A rekey slot that has not
finished keeps the old pair. -/
def State.blobSeal (s : State) (key f : Nat) : Seal :=
  let c := s.ctx key
  c.seal' (decide (c.st ≠ 2) || s.newPair key f 0) (blobTweak f)

/-- The seal of the line of the remap store at a tier-0 MA: the internal key (Table 9-1). -/
def State.storeSeal (s : State) (ma : Nat) : Seal := ⟨0, s.dks.ik1, s.dks.ik2, 2 ^ 126 + ma⟩

/-- What a line of media reads as under a seal (R283, R300): its data under the seal it was written
with, unrelated data under another. -/
def MLine.opened (m : MLine) (x : Seal) : Line × Bool :=
  if m.poison then (0, true)
  else match m.sealed with
    | some y => if y = x then (m.data, false) else (Config.garble m.data y.code x.code, false)
    | none => (Config.garble m.data 0 x.code, false)

/-! ### The check of R290 -/

/-- The reason for which a request is refused: 1 ABSENT, 2 WORLD (R290). -/
def State.keyRefusal (s : State) (key : Nat) (dark : Bool) : Option Nat :=
  let c := s.ctx key
  if c.st = 0 ∨ c.st = 3 then some 1 else if c.dark && !dark then some 2 else none

/-- Hold and count a refusal of a demand access; a write is also dropped and recorded (R290). -/
def State.keyRefuse (s : State) (reason key line : Nat) (dark write : Bool) : State :=
  let s := s.fadd kDksStat fDksStat_REFUSED 1
  let s := s.evtW dark 0x52 (if reason = 1 then 3 else 4)
  let s := if s.fon kDksReflog0 fDksReflog0_VALID then s else
    let v := fDksReflog0_KEYID.put (fDksReflog0_DARKROOM.put (fDksReflog0_WRITE.put
      (fDksReflog0_REASON.put (fDksReflog0_VALID.put 0 1) reason) (if write then 1 else 0))
      (if dark then 1 else 0)) key
    (s.wr kDksReflog0 v).wr kDksReflog1 (fDksReflog1_LINE.put 0 line)
  if write then
    ((s.fadd kDksDrop fDksDrop_WBDROP 1).evtW dark 0x52 5).deferredErr 0x40 (some (line * 64)) (some key)
      (dark || s.isDark (line * 64)) 0xFFFF
  else s

/-- Show the counts of contexts (DKS_STAT). -/
def State.dksShow (s : State) : State :=
  let n := (s.dks.ctx.filter (fun p => decide (p.2.st = 1 ∨ p.2.st = 2))).length
  let s := s.fput kDksStat fDksStat_LOADED n
  s.fput kDksStat fDksStat_ROTATING s.dks.rots.length

end Sys2Proof.Machine
end

