-- ==== Sys2Proof/Machine/Enlarger.lean ====
section
/-! DEFINITION.
The Enlarger's mechanism (spec/08): the media allocator, the access rules of Table 8-4, migration
slots, decompression, and the progress of key rotations (spec/09).  The scheduler and the tier
commands stand in Tier.lean, above the home. -/

namespace Sys2Proof.Machine

/-! ### The free pool (R273) -/

/-- The tier and MA of a frame key. -/
def keyTier (k : Nat) : Nat := k >>> 36
def keyMa (k : Nat) : Nat := (k % 2 ^ 36) <<< 12

/-- The lowest number in `[lo, hi)` that a rising list of numbers does not hold. -/
def firstGap : List Nat → Nat → Nat → Option Nat
  | [], lo, hi => if lo < hi then some lo else none
  | k :: r, lo, hi =>
    if k < lo then firstGap r lo hi
    else if k = lo then firstGap r (lo + 1) hi
    else if lo < hi then some lo else none

/-- The first frame key and the number of frames of an interleave set or a tier-1 range. -/
def SetRec.span (r : SetRec) : Nat × Nat := (frameKey 0 r.maBase, r.size / 4096)
def T1Rec.span (r : T1Rec) : Nat × Nat := (frameKey 1 r.maBase, r.size / 4096)

/-- Whether a set is in service: neither withheld nor withdrawn. -/
def State.setLive (s : State) (i : Nat) : Bool := !s.enl.withheld.contains i && !s.enl.withdrawn.contains i
/-- Whether a tier-1 range is active (R348) and in service. -/
def State.t1Live (s : State) (r : Nat) : Bool :=
  (s.rd kFioT1act).getLsbD r && !s.enl.withdrawn.contains (256 + r) && !s.enl.dead.contains r

/-- Whether a frame of the given world may lie in a set under Sealed partitioning (R453). -/
def State.sealAllows (s : State) (dark : Bool) (i : Nat) : Bool :=
  !s.fon kWldSeal fWldSeal_ACTIVE || (dark == decide (s.fget kWldSeal fWldSeal_SET = i))

/-- The spans of tier 0 that may hold frames of a world. -/
def State.spans0 (s : State) (dark : Bool) : List (Nat × Nat) :=
  s.plat.sets.zipIdx.filterMap fun p =>
    if s.setLive p.2 && s.sealAllows dark p.2 then some p.1.span else none
/-- The spans of tier 1 that may hold frames of a world. -/
def State.spans1 (s : State) (dark : Bool) : List (Nat × Nat) :=
  if s.fon kWldSeal fWldSeal_ACTIVE && dark then []
  else s.plat.t1.zipIdx.filterMap fun p => if s.t1Live p.2 then some p.1.span else none

/-- The lowest free frame of some spans (DESIGN CHOICE, log 20: the lowest). -/
def State.freeIn (s : State) (l : List (Nat × Nat)) : Option Nat :=
  l.findSome? fun p => firstGap (s.enl.used.map (·.1)) p.1 (p.1 + p.2)
/-- How many frames of some spans are free. -/
def State.freeCount (s : State) (l : List (Nat × Nat)) : Nat :=
  l.foldl (fun a p => a + p.2 - (s.enl.used.filter (fun u => decide (p.1 ≤ u.1 ∧ u.1 < p.1 + p.2))).length) 0

/-- A free tier-0 frame, the reserve included or not (R267, R272, R275). -/
def State.alloc0 (s : State) (dark reserve : Bool) : Option Nat :=
  let l := s.spans0 dark
  if reserve || decide (s.freeCount l > s.fget kEnlCtl fEnlCtl_RESERVE) then s.freeIn l else none
/-- A free tier-1 frame. -/
def State.alloc1 (s : State) (dark : Bool) : Option Nat := s.freeIn (s.spans1 dark)

/-- Put a media frame to use; `none` frees it. -/
def State.useMedia (s : State) (k : Nat) (u : Option MediaUse) : State :=
  match u with
  | some x => { s with enl := { s.enl with used := SMap.set s.enl.used k x } }
  | none => ({ s with enl := { s.enl with used := SMap.del s.enl.used k } }).evt 15 0x50 26

/-! ### Groups and quotas (R270, R271) -/

/-- The key-context group of a key ID. -/
def groupOf (key : Nat) : Nat := key / 64
/-- T0MAX and T1MAX of a group. -/
def State.quota (s : State) (g : Nat) : Nat × Nat := SMap.get (fun _ => (2 ^ 64 - 1, 2 ^ 64 - 1)) s.enl.quotas g
/-- Frames of a tier charged to a group. -/
def State.charged (s : State) (tier g : Nat) : Nat :=
  (s.enl.frames.filter (fun p => decide (p.2.tier = tier ∧ groupOf p.2.fkey = g))).length
/-- Units charged to a group. -/
def State.chargedUnits (s : State) (g : Nat) : Nat :=
  s.enl.frames.foldl (fun a p => if p.2.tier = 2 ∧ groupOf p.2.fkey = g then a + p.2.units else a) 0
/-- Whether a group has reached its quota for an uncompressed tier. -/
def State.atQuota (s : State) (tier g : Nat) : Bool :=
  decide (s.charged tier g ≥ (if tier = 0 then (s.quota g).1 else (s.quota g).2))

/-! ### Frame entries and regions -/

/-- The media frame key of a frame in tier 0 or 1. -/
def FrameEnt.mediaOf (e : FrameEnt) : Nat := frameKey e.tier (e.unit * 512)

/-- The bits of a frame entry (Table 8-3). -/
def FrameEnt.bits (e : FrameEnt) : Nat :=
  let b (x : Bool) (i : Nat) : Nat := if x then 2 ^ i else 0
  e.tier * 2 ^ 62 + b e.move 61 + b e.pin 60 + b e.incomp 59 + b e.mixed 58 + e.heat * 2 ^ 54 + e.units * 2 ^ 51 +
    e.pool * 2 ^ 50 + e.fkey * 2 ^ 36 + (if e.tier = 3 then 0 else e.unit)

/-- Whether a region has a frame table. -/
def State.framed (s : State) (r : Nat) : Bool := (SMap.find s.enl.tables r).isSome

/-- The two words of a region's descriptor (Table 8-2). -/
def State.descWords (s : State) (r : Nat) : List Nat := match SMap.find s.enl.tables r with
  | none => [0, 0]
  | some k =>
    let l := s.enl.frames.filter (fun p => decide (p.1 / 512 = r))
    let n (g : FrameEnt → Bool) : Nat := (l.filter (fun p => g p.2)).length
    [2 ^ 62 + n (fun e => decide (e.tier = 0)) * 2 ^ 50 + n (fun e => decide (e.tier = 1)) * 2 ^ 40 +
      n (fun e => decide (e.tier = 2)) * 2 ^ 30 + n (·.pin) * 2 ^ 20 + n (·.move) * 2 ^ 10, k % 2 ^ 31]

/-- Write line `i` of a frame of the remap store, encrypted under the internal key (R252, R283). -/
def State.storePut (s : State) (k i : Nat) (w : List Nat) : State :=
  let ma := keyMa k + i * 64
  (s.mediaWrite 0 ma ⟨BitVec.ofNat 512 (w.foldr (fun x a => x + 2 ^ 64 * a) 0), some (s.storeSeal ma), false⟩).evt 15 0x52 11

/-- Write the line of the region table that holds a region's descriptor (R252). -/
def State.storeDesc (s : State) (r : Nat) : State :=
  let j := (r - s.tiered.1 / 2 ^ 21) / 4
  match s.enl.regTab[j / 64]? with
  | some k => s.storePut k (j % 64) ((List.range 4).flatMap fun i => s.descWords (s.tiered.1 / 2 ^ 21 + j * 4 + i))
  | none => s

/-- Write line `i` of a region's frame table: eight entries (R253). -/
def State.storeEnts (s : State) (r i : Nat) : State := match SMap.find s.enl.tables r with
  | some k => s.storePut k i ((List.range 8).map fun j => (s.ent (r * 512 + i * 8 + j)).bits)
  | none => s

/-- Write a frame entry, in the table that the Enlarger looks up and in the remap store in one step (R254). -/
def State.putEnt (s : State) (f : Nat) (e : FrameEnt) : State :=
  (((s.setEnt f e).storeEnts (f / 512) (f % 512 / 8)).storeDesc (f / 512)).evtW (s.isDark (f <<< 12)) 0x50 25

/-- Put a number at the front of a list that holds at most `n`, each once (R254; log 66: the oldest leaves). -/
def cachePut (l : List Nat) (n x : Nat) : List Nat := (x :: l.filter (· ≠ x)).take n

/-- An access looks its frame up (R254): the region's descriptor, and in a FRAMED region the frame entry.  A miss of an
entry reads one line of the frame table, which holds eight. -/
def State.remapLook (s : State) (f : Nat) (framed dark : Bool) : State :=
  let r := f / 512
  let g := f / 8
  let hit (l : List Nat) (x : Nat) : Bool := l.any (fun y => decide (y = x))
  let s := s.evtW dark 0x50 (if hit s.enl.rdesc r then 0 else 1)
  let s := if hit s.enl.rdesc r then s else s.evtW dark 0x52 11
  let s := { s with enl := { s.enl with rdesc := cachePut s.enl.rdesc 262144 r } }
  if !framed then s
  else
    let s := s.evtW dark 0x50 (if hit s.enl.rents g then 2 else 3)
    let s := if hit s.enl.rents g then s else s.evtW dark 0x52 11
    { s with enl := { s.enl with rents := cachePut s.enl.rents 8192 g } }

/-- Give a region its frame table, in a tier-0 frame that may come from the reserve, all entries zero frames (R252). -/
def State.frameRegion (s : State) (r : Nat) : Option State :=
  if s.framed r then some s
  else match s.alloc0 false true with
    | some k =>
      let s := s.useMedia k (some .remap)
      let s : State := { s with enl := { s.enl with tables := SMap.set s.enl.tables r k } }
      some ((s.each (List.range 64) fun s i => s.storeEnts r i).storeDesc r)
    | none => none

/-- A region whose 512 frames are all zero frames, none moving, loses its table (R253). -/
def State.unframeRegion (s : State) (r : Nat) : State :=
  let busy := s.enl.frames.any (fun p => decide (p.1 / 512 = r)) ||
    s.enl.slots.any (fun p => decide (p.2.frame / 512 = r) && !p.2.draining)
  match SMap.find s.enl.tables r with
  | some k =>
    if busy then s
    else
      let s := s.useMedia k none
      ({ s with enl := { s.enl with tables := SMap.del s.enl.tables r } } : State).storeDesc r
  | none => s

/-! ### Slots -/

/-- The slot that works on a frame (one that only drains its source does not). -/
def State.slotOf (s : State) (f : Nat) : Option (Nat × Slot) :=
  s.enl.slots.find? (fun p => decide (p.2.frame = f) && !p.2.draining)
def State.setSlot (s : State) (n : Nat) (t : Slot) : State :=
  { s with enl := { s.enl with slots := SMap.set s.enl.slots n t } }
def State.delSlot (s : State) (n : Nat) : State :=
  { s with enl := { s.enl with slots := SMap.del s.enl.slots n } }
/-- A slot for a touch: any of the 64 (R266). -/
def State.touchSlot (s : State) : Option Nat := firstGap (s.enl.slots.map (·.1)) 0 64
/-- A slot for a command, an evacuation or a rotation: the eight lowest are kept back (R266). -/
def State.cmdSlot (s : State) : Option Nat := firstGap (s.enl.slots.map (·.1)) 8 64

/-- How a frame of a command ended. -/
inductive FrameEnd where
  | moved | skipped | nospace | incomp | aborted
  deriving DecidableEq, Repr

/-- Answer a class 0x10 command whose frames have all ended (R279). -/
def State.cmdFinish (s : State) (c : TierCmd) : State :=
  let counts := [c.moved, c.skipped, c.nospace, c.incomp, c.aborted].flatMap (leBytes 4)
  let s := { s with enl := { s.enl with cmds := s.enl.cmds.filter (fun x => x.id ≠ c.id) } }
  s.final c.id (if c.nospace > 0 then zNoSpace else zDone) 0 counts

/-- Count the end of a frame against its command; `was` says it was active in a slot. -/
def State.cmdCount (s : State) (cmd : Option Nat) (e : FrameEnd) (was : Bool) : State :=
  let s := match e with
    | .skipped => s.evt 15 0x50 14
    | .nospace => s.evt 15 0x50 15
    | _ => s
  match cmd with
  | none => s
  | some id =>
    let upd (c : TierCmd) : TierCmd :=
      let c := if was then { c with active := c.active - 1 } else c
      match e with
      | .moved => { c with moved := c.moved + 1 }
      | .skipped => { c with skipped := c.skipped + 1 }
      | .nospace => { c with nospace := c.nospace + 1 }
      | .incomp => { c with incomp := c.incomp + 1 }
      | .aborted => { c with aborted := c.aborted + 1 }
    let l := s.enl.cmds.map fun (c : TierCmd) => if c.id = id then upd c else c
    let s := { s with enl := { s.enl with cmds := l } }
    match s.enl.cmds.find? (fun c => c.id = id) with
    | some c => if c.left = 0 ∧ c.active = 0 ∧ c.kind ≠ .evacuate then s.cmdFinish c else s
    | none => s

/-! ### Lines -/

/-- Write a line under a key ID at a media frame (R255). -/
def State.putLine (s : State) (k line key : Nat) (data : Line) (poison : Bool) : State :=
  s.mediaWrite (keyTier k) (keyMa k + (line % 64) * 64) ⟨data, some (s.lineSeal key line), poison⟩

/-- Read a line under a key ID at a media frame. -/
def State.getLine (s : State) (k line key : Nat) : Line × Bool :=
  (s.mediaRead (keyTier k) (keyMa k + (line % 64) * 64)).opened (s.lineSeal key line)

/-- Forget the contents of a media frame that is freed: its lines read as unwritten media again. -/
def State.freeFrame (s : State) (k : Nat) : State := s.useMedia k none

/-- Where a line of a frame in tier 0 or 1 stands (R260, R264). -/
inductive LinePlace where
  | media (k : Nat)
  | staged (n : Nat) (t : Slot)
  | closed
  deriving DecidableEq, Repr

/-- The place of line `i` of frame `f` whose entry is `e`. -/
def State.lineAt (s : State) (f i : Nat) (e : FrameEnt) : LinePlace :=
  if !e.move then .media e.mediaOf
  else match s.slotOf f with
    | none => .media e.mediaOf
    | some (n, t) => match t.kind with
      | .copy => .media (if t.moved.getLsbD i then t.dst else t.src)
      | .compress _ => if t.closed then .closed
        else if t.moved.getLsbD i then .staged n t else .media t.src
      | _ => .media e.mediaOf

/-! ### Blobs and units -/

/-- The key of a blob: the tier of its pool frame and its first unit. -/
def blobKey (pool unit : Nat) : Nat := (pool <<< 40) + unit

/-- The pool frame of a unit. -/
def unitFrame (pool unit : Nat) : Nat := frameKey pool (unit * 512)

/-- Free the units of a blob, and the pool frame when none of its units is left. -/
def State.freeUnits (s : State) (pool unit n : Nat) : State :=
  let k := unitFrame pool unit
  let l := (SMap.find s.enl.pools k).getD []
  let l' := l.zipIdx.map fun p => if unit % 8 ≤ p.2 ∧ p.2 < unit % 8 + n then none else p.1
  let s := { s with blobs := SMap.del s.blobs (blobKey pool unit) }
  if l'.all (·.isNone) then
    ({ s with enl := { s.enl with pools := SMap.del s.enl.pools k } }).freeFrame k
  else { s with enl := { s.enl with pools := SMap.set s.enl.pools k l' } }

/-- The first of `n` contiguous free units of a pool frame. -/
def unitGap (l : List (Option Nat)) (n : Nat) : Option Nat :=
  (List.range 8).find? fun i => decide (i + n ≤ 8) && ((l.drop i).take n).all (·.isNone)

/-- Whether a media frame is in service. -/
def State.mediaLive (s : State) (k : Nat) : Bool :=
  if keyTier k = 0 then match s.setAt (keyMa k) with
    | some i => s.setLive i
    | none => false
  else match s.t1Range (keyMa k) with
    | some r => s.t1Live r
    | none => false

/-- Allocate `n` contiguous units for frame `f` in pool frames of a tier, making a new pool frame
when none fits (R263): the first unit's number. -/
def State.allocUnits (s : State) (pool n f : Nat) : Option (Nat × State) :=
  let mark (s : State) (k i : Nat) (l : List (Option Nat)) : Nat × State :=
    let l' := l.zipIdx.map fun p => if i ≤ p.2 ∧ p.2 < i + n then some f else p.1
    (keyMa k / 512 + i, { s with enl := { s.enl with pools := SMap.set s.enl.pools k l' } })
  match s.enl.pools.find? (fun p => decide (keyTier p.1 = pool) && s.mediaLive p.1 && (unitGap p.2 n).isSome) with
  | some (k, l) => match unitGap l n with
    | some i => some (mark s k i l)
    | none => none
  | none =>
    match (if pool = 0 then s.alloc0 false false else s.alloc1 false) with
    | some k => some (mark (s.useMedia k (some .pool)) k 0 (List.replicate 8 none))
    | none => none

/-- A blob. -/
def State.blob (s : State) (pool unit : Nat) : Option Blob := SMap.find s.blobs (blobKey pool unit)

/-- Whether the check of a frame's blob fails: it is marked bad, was sealed under another pair, or
its media is lost or poisoned (R268, R306). -/
def State.blobFails (s : State) (f : Nat) (e : FrameEnt) : Bool :=
  match s.blob e.pool e.unit with
  | none => true
  | some b => b.bad || (List.range b.units).any (fun j => decide (b.sealed.unit j ≠ (s.blobSeal e.fkey f).unit j)) ||
      s.mediaDead e.pool (e.unit * 512) ||
      (List.range b.units).any fun u =>
        (List.range 8).any fun l => (s.mline (mediaKey e.pool ((e.unit + u) * 512 + l * 64))).poison

/-- Two failed checks of a blob: counted and recorded as a Deferred error that names the blob's
first unit (R268). -/
def State.blobFailed (s : State) (f : Nat) (e : FrameEnt) : State :=
  let s := (s.fadd kCdnStat fCdnStat_CHKFAIL 2).evtBy 15 0x51 8 2
  s.raise { cls := 1, kind := 0x42, hpa := some (f <<< 12), key := some e.fkey,
            ma := some (BitVec.ofNat 64 (e.unit * 512 + (e.pool <<< 62))), dark := s.isDark (f <<< 12) }

/-! ### Ending moves -/

/-- Begin work on a frame: MOVE is set. -/
def State.beginMove (s : State) (f n : Nat) (t : Slot) : State :=
  (s.putEnt f { s.ent f with move := true }).setSlot n t

/-- A slot with nothing moved yet. -/
def Slot.fresh (kind : SlotKind) (f src dst : Nat) (cmd : Option Nat) : Slot :=
  { kind := kind, frame := f, src := src, dst := dst, moved := 0, staging := [], closed := false,
    cmd := cmd, pinAfter := false, touch := false, evac := false, draining := false,
    srcUnits := false, bad := false }

/-- Set PIN on a frame that has arrived, within ENL_PINLIM (R272). -/
def State.pinCount (s : State) : Nat := (s.enl.frames.filter (fun p => p.2.pin)).length

/-- The switch of an uncompressed move (R260 step 5); the slot keeps the source until it drains. -/
def State.switchCopy (s : State) (n : Nat) (t : Slot) : State :=
  let e := s.ent t.frame
  let pin := e.pin || (t.pinAfter && decide (s.pinCount < s.fget kEnlPinlim fEnlPinlim_LIMIT))
  let s := (s.useMedia t.dst (some (.frame t.frame))).putEnt t.frame
    { e with tier := keyTier t.dst, unit := keyMa t.dst / 512, move := false, pin := pin }
  let s := (s.useMedia t.src (some (.slot n))).setSlot n { t with draining := true }
  let s := if pin && !e.pin then s.evt 15 0x50 16 else s
  let s := if t.evac then s.evt 15 0x50 18 else s.evt 15 0x50 9
  s.cmdCount t.cmd (if t.pinAfter && !pin then .nospace else .moved) true

/-- End a compressing move without success (R263 step 4, R264, R265): lines written after their copy
go back to the source. -/
def State.endCompress (s : State) (n : Nat) (t : Slot) (e : FrameEnt) (how : FrameEnd) : State :=
  let s := s.each t.staging fun s p =>
    if p.2.dirty then s.putLine t.src (t.frame * 64 + p.1) e.fkey p.2.data p.2.poison else s
  let s := (s.putEnt t.frame { e with move := false }).delSlot n
  s.cmdCount t.cmd how true

/-- Abandon a move: lines already copied return to the source (R276 race, R281). -/
def State.abandonSlot (s : State) (n : Nat) (t : Slot) (how : FrameEnd) : State :=
  let e := s.ent t.frame
  let s := s.evt 15 0x50 23
  match t.kind with
  | .copy =>
    let s := s.each (List.range 64) fun s i =>
      if t.moved.getLsbD i then
        s.mediaWrite (keyTier t.src) (keyMa t.src + i * 64) (s.mediaRead (keyTier t.dst) (keyMa t.dst + i * 64))
      else s
    let s := ((s.freeFrame t.dst).putEnt t.frame { e with move := false }).delSlot n
    s.cmdCount t.cmd how true
  | .compress _ => s.endCompress n t e how
  | .decompress =>
    let s := ((s.freeFrame t.dst).putEnt t.frame { e with move := false }).delSlot n
    s.cmdCount t.cmd how true
  | .unitCopy =>
    let s := ((s.freeUnits (t.dst >>> 40) (t.dst % 2 ^ 40) e.units).putEnt t.frame { e with move := false }).delSlot n
    s.cmdCount t.cmd how true
  | _ => s

/-! ### Decompression (R266–R269) -/

/-- Write the lines of a decompressing frame up to line `upto` that are not yet written (R266 step
4). -/
def State.produce (s : State) (n : Nat) (t : Slot) (upto : Nat) : Slot × State :=
  let e := s.ent t.frame
  let b := s.blob e.pool e.unit
  (List.range (upto + 1)).foldl (fun (a : Slot × State) i =>
    if a.1.moved.getLsbD i then a
    else
      let bad := a.1.bad || (match b with | some x => x.poison.getLsbD i | none => true)
      let data := match b with
        | some x => x.lines[i]?.getD 0
        | none => 0
      let s := a.2.putLine a.1.dst (a.1.frame * 64 + i) e.fkey (if bad then 0 else data) bad
      let t' := { a.1 with moved := a.1.moved ||| BitVec.ofNat 64 (2 ^ i) }
      (t', s.setSlot n t')) (t, s)

/-- The switch of a finished decompression (R266 step 6). -/
def State.switchDecomp (s : State) (n : Nat) (t : Slot) : State :=
  if t.moved ≠ BitVec.allOnes 64 then s
  else
    let e := s.ent t.frame
    let pin := t.pinAfter && decide (s.pinCount < s.fget kEnlPinlim fEnlPinlim_LIMIT)
    let s := s.freeUnits e.pool e.unit e.units
    let s := (s.useMedia t.dst (some (.frame t.frame))).putEnt t.frame
      { e with tier := keyTier t.dst, unit := keyMa t.dst / 512, move := false, units := 0, pool := 0, pin := pin }
    let s := (s.delSlot n).evtW (s.isDark (t.frame <<< 12)) 0x51 5
    s.cmdCount t.cmd (if t.pinAfter && !pin then .nospace else .moved) true

/-- Start decompressing frame `f` into media frame `k` in slot `n`; the blob is read and checked
(R266 step 3, R268). -/
def State.startDecomp (s : State) (f n k : Nat) (cmd : Option Nat) (touch : Bool) : Slot × State :=
  let e := s.ent f
  let bad := s.blobFails f e
  let s := if bad then s.blobFailed f e else s
  let t := { Slot.fresh .decompress f (blobKey e.pool e.unit) k cmd with touch := touch, bad := bad, srcUnits := true }
  (t, (s.useMedia k (some (.slot n))).beginMove f n t)

/-- The frame for a decompress on touch (R267). -/
def State.touchFrame (s : State) (g : Nat) (dark : Bool) : Option Nat :=
  let spill := s.fon kEnlCtl fEnlCtl_SPILL
  match (if s.atQuota 0 g then none else s.alloc0 dark true) with
  | some k => some k
  | none => if spill then s.alloc1 dark else none

/-- Set which lines' requests wait for media; ENL_STAT.STARVED shows whether any does (R258). -/
def State.setStarved (s : State) (l : List Nat) : State :=
  ({ s with enl := { s.enl with starved := l } } : State).fput kEnlStat fEnlStat_STARVED (if l.isEmpty then 0 else 1)

/-- The request for a line waits for media (R258). -/
def State.starve (s : State) (line : Nat) : State :=
  if s.enl.starved.contains line then s else s.setStarved (s.enl.starved ++ [line])

/-- No request for a line waits for media any more. -/
def State.fed (s : State) (line : Nat) : State :=
  if s.enl.starved.contains line then s.setStarved (s.enl.starved.filter (· ≠ line)) else s

/-- What a touch of a tier-2 frame found. -/
inductive Touch where
  | wait | refused | ready
  deriving DecidableEq, Repr

/-- Whether the destination of a move lies in media that has been withdrawn since (R276 race).  A decompression whose
destination has been written to goes on, and the evacuation moves the frame from there: abandoning it would lose the
write (R251; log 66). -/
def State.dstGone (s : State) (t : Slot) : Bool := match t.kind with
  | .copy => !s.mediaLive t.dst
  | .decompress => !s.mediaLive t.dst && t.staging.isEmpty
  | .unitCopy => !s.mediaLive (unitFrame (t.dst >>> 40) (t.dst % 2 ^ 40))
  | _ => false

/-- A demand access touches line `i` of a tier-2 frame (R266, R269, R291): afterwards the line is
produced, the request waits, or it is refused. -/
def State.touch (s : State) (f i : Nat) (dark : Bool) : Touch × State :=
  let e := s.ent f
  let go (s : State) (n : Nat) (t : Slot) : Touch × State :=
    let r := s.produce n t i
    (.ready, r.2.switchDecomp n r.1)
  let start (s : State) : Touch × State :=
    match s.touchSlot, s.touchFrame (groupOf e.fkey) (s.isDark (f <<< 12)) with
    | some n, some k =>
      let r := (s.evtW dark 0x50 12).startDecomp f n k none true
      go (r.2.fed (f * 64 + i)) n r.1
    | none, _ => (.wait, s)
    | some _, none => (.wait, s.starve (f * 64 + i))
  let absent := decide ((s.ctx e.fkey).st = 0 ∨ (s.ctx e.fkey).st = 3)
  match s.slotOf f with
  | some (n, t) => match t.kind with
    | .decompress => if s.dstGone t then start (s.abandonSlot n t .aborted) else go s n t
    | .unitCopy => if absent then (.refused, s) else start (s.abandonSlot n t .aborted)
    | _ => (.wait, s)
  | none => if absent then (.refused, s) else start s

/-! ### Materialisation (R256) -/

/-- The frame for a first write: tier 0 below its quota, else tier 1 under SPILL. -/
def State.firstFrame (s : State) (g : Nat) (dark : Bool) : Option Nat × State :=
  match (if s.atQuota 0 g then none else s.alloc0 dark true) with
  | some k => (some k, s)
  | none =>
    if s.fon kEnlCtl fEnlCtl_SPILL then match s.alloc1 dark with
      | some k =>
        let s := s.evtW dark 0x50 21
        (some k, if s.atQuota 1 g then
          { s with enl := { s.enl with overq := SMap.put (fun _ => 0) s.enl.overq g (SMap.get (fun _ => 0) s.enl.overq g + 1) } }
        else s)
      | none => (none, s)
    else (none, s)

/-- Place a zero frame at media frame `k`, all 64 lines zeros under the key ID. -/
def State.placeZero (s : State) (f k key : Nat) : State :=
  let s := s.useMedia k (some (.frame f))
  let s := s.each (List.range 64) fun s i => s.putLine k (f * 64 + i) key 0 false
  (s.putEnt f { FrameEnt.zero with tier := keyTier k, unit := keyMa k / 512, fkey := key }).evtW
    (s.isDark (f <<< 12)) 0x50 8

/-- Materialise a zero frame for a write; `none` when no media may be used. -/
def State.materialise (s : State) (f key : Nat) : Option State :=
  match s.frameRegion (f / 512) with
  | none => none
  | some s => match s.firstFrame (groupOf key) (s.isDark (f <<< 12)) with
    | (some k, s) => some (s.placeZero f k key)
    | (none, _) => none

/-! ### The access rules (Table 8-4) -/

/-- What the Enlarger answers: the request waits, receives Def, or is served; a refused read is a
poisoned line of zeros with NOFILL, a refused write is dropped. -/
inductive EnlRes where
  | wait
  | deferred
  | line (data : Line) (poison noFill : Bool)
  deriving DecidableEq, Repr

/-- Count a media access; one to tier 1 passes a port pipe (R286). -/
def State.mediaEvt (s : State) (k : Nat) (dark write : Bool) : State :=
  let s := s.evtW dark 0x50 (28 + 2 * keyTier k + (if write then 1 else 0))
  if keyTier k = 1 then s.evtW dark 0x52 12 else s

/-- An access that does not wait has looked its frame up (R254). -/
def State.looked (s : State) (a : TierAccess) (r : EnlRes × State) : EnlRes × State := match r.1 with
  | .wait => r
  | _ => (r.1, r.2.remapLook (a.line / 64) (s.framed (a.line / 64 / 512)) a.dark)

/-- A staged line as the request's key ID reads it: it stands decrypted under FKEY, and another key ID reads what it would
read at the source (R251, R264). -/
def State.stagedRead (s : State) (g : Staged) (fkey line key : Nat) : Line × Bool :=
  (⟨g.data, some (s.lineSeal fkey line), g.poison⟩ : MLine).opened (s.lineSeal key line)

/-- Resolve a read (R255). `asWrite`: its refusal counts as a dropped write (R290). -/
def State.readFrame (s : State) (a : TierAccess) (asWrite : Bool) : EnlRes × State :=
  match s.keyRefusal a.key a.dark with
  | some r =>
    if a.spec then (.deferred, s) else (.line 0 true true, s.keyRefuse r a.key a.line a.dark asWrite)
  | none =>
    let f := a.line / 64
    let i := a.line % 64
    let e := s.ent f
    let serve (s : State) (k : Nat) : EnlRes × State :=
      let d := s.getLine k a.line a.key
      (.line d.1 d.2 false, (s.mediaEvt k a.dark false).evtW a.dark 0x52 1)
    if e.tier = 3 then (.line 0 false false, s.evtW a.dark 0x50 7)
    else if e.tier ≤ 1 then match s.lineAt f i e with
      | .media k => serve s k
      | .staged _ t =>
        let g := SMap.get (fun _ => ⟨0, false, false⟩) t.staging i
        let d := s.stagedRead g e.fkey a.line a.key
        (.line d.1 d.2 false, s)
      | .closed => (.wait, s)
    else if a.spec then (.deferred, s.evtW a.dark 0x50 24)
    else match s.touch f i a.dark with
      | (.wait, s) => (.wait, s)
      | (.refused, s) => (.line 0 true true, s.keyRefuse 1 a.key a.line a.dark asWrite)
      | (.ready, s) =>
        let e := s.ent f
        if e.tier ≤ 1 then serve s e.mediaOf
        else match s.slotOf f with
          | some (_, t) => serve s t.dst
          | none => (.wait, s)

/-- A read (R254, R255). -/
def State.enlRead (s : State) (a : TierAccess) (asWrite : Bool) : EnlRes × State := s.looked a (s.readFrame a asWrite)

/-- A write under a key ID other than FKEY sets MIXED (R257). -/
def State.markMixed (s : State) (f key : Nat) : State :=
  let e := s.ent f
  if e.fkey ≠ key ∧ !e.mixed then (s.putEnt f { e with mixed := true }).evtW (s.isDark (f <<< 12)) 0x50 22 else s

/-- Write a line of a frame in tier 0 or 1; the request waits when the frame is closed. -/
def State.writePlaced (s : State) (f i key line : Nat) (data : Line) (poison dark : Bool) : EnlRes × State :=
  let e := s.ent f
  let s := match s.slotOf f with
    | some (n, t) => match t.kind with
      | .compress _ =>
        if e.fkey ≠ key ∧ !t.closed then s.endCompress n t { e with mixed := true } .aborted else s
      | _ => s
    | none => s
  let e := s.ent f
  match s.lineAt f i e with
  | .closed => (.wait, s)
  | .staged n t =>
    (.line 0 false false, s.setSlot n { t with staging := SMap.set t.staging i ⟨data, poison, true⟩ })
  | .media k =>
    let s := ((s.markMixed f key).putLine k line key data poison).mediaEvt k dark true
    (.line 0 false false, s.evtW dark 0x52 0)

/-- Resolve a write (R255, R256, R257, R269). -/
def State.writeFrame (s : State) (a : TierAccess) : EnlRes × State :=
  match s.keyRefusal a.key a.dark with
  | some r => (.line 0 true true, s.keyRefuse r a.key a.line a.dark true)
  | none =>
    let f := a.line / 64
    let i := a.line % 64
    let e := s.ent f
    if e.tier = 3 then match s.materialise f a.key with
      | some s => (s.fed a.line).writePlaced f i a.key a.line a.data a.poison a.dark
      | none => (.wait, s.starve a.line)
    else if e.tier ≤ 1 then s.writePlaced f i a.key a.line a.data a.poison a.dark
    else match s.touch f i a.dark with
      | (.wait, s) => (.wait, s)
      | (.refused, s) => (.line 0 true true, s.keyRefuse 1 a.key a.line a.dark true)
      | (.ready, s) =>
        let e := s.ent f
        if e.tier ≤ 1 then s.writePlaced f i a.key a.line a.data a.poison a.dark
        else match s.slotOf f with
          | some (n, t) =>
            let s := s.setSlot n { t with staging := SMap.set t.staging i ⟨0, false, true⟩ }
            (.line 0 false false, ((s.markMixed f a.key).putLine t.dst a.line a.key a.data a.poison).mediaEvt t.dst a.dark true)
          | none => (.wait, s)

/-- A write (R254, R255). -/
def State.enlWrite (s : State) (a : TierAccess) : EnlRes × State := s.looked a (s.writeFrame a)

/-! ### Heat (R259) -/

/-- Sample one in 2^RATE of a home slice's eligible misses; a sample of a zero frame is discarded, and one that finds the
update queue full is dropped (whether it is full is a free value, log 4: the spec gives the queue no size). -/
def State.heatMiss (s : State) (slice line : Nat) (dark : Bool) : State :=
  let n := SMap.get (fun _ => 0) s.enl.samples slice + 1
  let set (s : State) (m : Nat) : State :=
    { s with enl := { s.enl with samples := SMap.put (fun _ => 0) s.enl.samples slice m } }
  if n < 2 ^ s.fget kEnlHeat fEnlHeat_RATE then set s n
  else
    let s := ((set s 0).evtW dark 0x50 4).evtW dark (0x80 + slice) 12
    let f := line / 64
    let e := s.ent f
    let full := s.fresh
    if e.tier = 3 then s
    else if full.1.getLsbD 0 then (full.2.fadd kEnlStat fEnlStat_SAMPDROP 1).evtW dark 0x50 5
    else full.2.putEnt f { e with heat := min 15 (e.heat + 1) }

/-! ### Rotation progress (R297–R300) -/

/-- A rotation ends: its slots are released, MOVE is cleared on their frames, and its command is
answered with the counts so far (R292, R300, R302). -/
def State.rotEnd (s : State) (e : Nat) (r : Rot) (status detail : Nat) : State :=
  let mine := s.enl.slots.filter (fun p => p.2.rekeyOf e)
  let s := s.each mine fun s p =>
    (if p.2.draining then s else s.putEnt p.2.frame { s.ent p.2.frame with move := false }).delSlot p.1
  let s := { s with dks := { s.dks with rots := SMap.del s.dks.rots e } }
  let s := s.wr (kDksRotstat e) 0
  s.final r.cmd status detail ([r.frames, r.blobs, r.skipped, r.mixed].flatMap (leBytes 4))

/-- Advance P past every frame that is done, release the slots of the finished frames that it passes, and end the
rotation when P passes its range (R299, R300). -/
def State.rotAdvance (s : State) (e : Nat) : State :=
  match SMap.find s.dks.rots e with
  | none => s
  | some r =>
    let held := (s.enl.slots.filter (fun p => p.2.rekeyOf e && !p.2.draining)).map (fun p => p.2.frame)
    let p := held.foldl min r.next
    let r := { r with p := p, finished := r.finished.filter (fun f => decide (p ≤ f)) }
    let past := s.enl.slots.filter (fun q => q.2.rekeyOf e && q.2.draining && decide (q.2.frame < p))
    let s := s.each past fun s q => s.delSlot q.1
    let s := { s with dks := { s.dks with rots := SMap.set s.dks.rots e r } }
    let left := r.first + r.count - p
    let s := s.wr (kDksRotstat e) (fDksRotstat_REMAIN.put (fDksRotstat_KEYID.put (fDksRotstat_ACTIVE.put 0 1) r.key) left)
    if left = 0 then
      let c := s.ctx r.key
      let s := s.setCtx r.key { c with st := 1, oalg := 0, o1 := 0, o2 := 0 }
      ((s.evt 15 0x52 7).rotEnd e r zDone 0).dksShow
    else s

/-- A rekey slot finishes its frame: it clears MOVE and keeps only the frame number until P passes it (R299). -/
def State.rekeyDone (s : State) (n e : Nat) (t : Slot) (blob : Bool) : State :=
  let s := (s.putEnt t.frame { s.ent t.frame with move := false }).setSlot n { t with draining := true }
  match SMap.find s.dks.rots e with
  | none => s
  | some r =>
    let r := { r with finished := r.finished ++ [t.frame],
                      frames := r.frames + (if blob then 0 else 1), blobs := r.blobs + (if blob then 1 else 0) }
    ({ s with dks := { s.dks with rots := SMap.set s.dks.rots e r } }).rotAdvance e

/-! ### The home's view of a line -/

/-- Whether a home transaction is open on a line: a copy of the line waits for it (R191, R260). -/
def State.lineBusy (s : State) (line : Nat) : Bool :=
  (s.slice (haSlice (line * 64))).trans.any (fun t => t.req.line = line)

/-- One line of a move or a compressing move at its home (R260 step 3, R263 step 1).  `parity`: the copy buffer's parity
fails (R262); `lost`: the copy's memory timer has expired, and its read returns poisoned data (R207). -/
def State.copyLine (s : State) (n line : Nat) (parity lost : Bool) : State :=
  match SMap.find s.enl.slots n with
  | none => s
  | some t =>
    if s.down || t.draining || t.closed || t.moved.getLsbD line || s.lineBusy (t.frame * 64 + line) then s
    else
      let e := s.ent t.frame
      let dark := s.isDark (t.frame <<< 12)
      let t' := { t with moved := t.moved ||| BitVec.ofNat 64 (2 ^ line) }
      let perr (s : State) : State :=
        if parity then (s.evtW dark 0x50 27).raise { cls := 1, kind := 0x43, hpa := some (t.frame * 4096 + line * 64), dark := dark }
        else s
      match t.kind with
      | .copy =>
        if s.dstGone t then s.abandonSlot n t .aborted
        else
          let m := s.mediaRead (keyTier t.src) (keyMa t.src + line * 64)
          let s := perr (s.mediaWrite (keyTier t.dst) (keyMa t.dst + line * 64) (if parity || lost then ⟨0, none, true⟩ else m))
          let s := s.setSlot n t'
          if t'.moved = BitVec.allOnes 64 then s.switchCopy n t' else s
      | .compress _ =>
        let d := s.getLine t.src (t.frame * 64 + line) e.fkey
        let g : Staged := if parity || lost then ⟨0, true, false⟩ else ⟨d.1, d.2, false⟩
        let t' := { t' with staging := SMap.set t'.staging line g, closed := decide (t'.moved = BitVec.allOnes 64) }
        (perr s).setSlot n t'
      | _ => s

/-- One line of a rekey slot (R299): read under OLD and written to the same MA under KEY; `lost` as for a copy. -/
def State.rekeyLine (s : State) (n line : Nat) (lost : Bool) : State :=
  match SMap.find s.enl.slots n with
  | none => s
  | some t => match t.kind with
    | .rekey e =>
      if s.down || t.draining || t.moved.getLsbD line || s.lineBusy (t.frame * 64 + line) then s
      else
        let x := s.ent t.frame
        let c := s.ctx x.fkey
        let k := x.mediaOf
        let l := t.frame * 64 + line
        let m := s.mediaRead (keyTier k) (keyMa k + line * 64)
        let d := m.opened (c.seal' false (l * 64))
        let s := s.mediaWrite (keyTier k) (keyMa k + line * 64) ⟨d.1, some (c.seal' true (l * 64)), d.2 || lost⟩
        let t' := { t with moved := t.moved ||| BitVec.ofNat 64 (2 ^ line) }
        let s := (s.setSlot n t').evtW (s.isDark (t.frame <<< 12)) 0x52 6
        if t'.moved = BitVec.allOnes 64 then s.rekeyDone n e t' false else s
    | _ => s

/-- A rekey slot rewrites its blob's units under KEY and opens the frame (R299). -/
def State.rekeyBlobDone (s : State) (n : Nat) : State :=
  match SMap.find s.enl.slots n with
  | none => s
  | some t => match t.kind with
    | .rekeyBlob e =>
      if s.down || t.draining then s else
      let x := s.ent t.frame
      let c := s.ctx x.fkey
      let tw := blobTweak t.frame
      let s := match s.blob x.pool x.unit with
        | some b =>
          let b := if b.sealed = c.seal' false tw then { b with sealed := c.seal' true tw } else { b with bad := true, sealed := c.seal' true tw }
          { s with blobs := SMap.set s.blobs (blobKey x.pool x.unit) b }
        | none => s
      (s.evtBy 15 0x52 2 x.units).rekeyDone n e t true
    | _ => s

/-- A staged line of a compressing slot. -/
def Slot.staged (t : Slot) (i : Nat) : Staged := SMap.get (fun _ => ⟨0, false, false⟩) t.staging i
/-- The lines that a compressing slot has staged; a poisoned one is zero (R263, R265). -/
def Slot.lines (t : Slot) : List Line := (List.range 64).map fun i => if (t.staged i).poison then 0 else (t.staged i).data
/-- The poison map of a blob: one bit a line (R265). -/
def Slot.pmap (t : Slot) : BitVec 64 := BitVec.ofNat 64 (leNat ((List.range 8).map fun j =>
  BitVec.ofNat 8 ((List.range 8).foldl (fun a b => a + (if (t.staged (8 * j + b)).poison then 2 ^ b else 0)) 0)))

/-- The Condenser finishes a staged frame (R263 steps 3–5, R265). -/
def State.compressDone (s : State) (n : Nat) : State :=
  match SMap.find s.enl.slots n with
  | none => s
  | some t => match t.kind with
    | .compress pool =>
      if s.down || t.draining || !t.closed then s
      else
        let e := s.ent t.frame
        let dark := s.isDark (t.frame <<< 12)
        let payload := Config.blobPayload t.lines
        let s := s.evtW dark 0x51 4
        if payload > 3568 then ((s.evtW dark 0x50 11).evtW dark 0x51 12).endCompress n t { e with incomp := true } .incomp
        else
          let units := ceilDiv (16 + payload) 512
          if s.atQuota pool (groupOf e.fkey) then s.endCompress n t e .nospace
          else match s.allocUnits pool units t.frame with
            | none => s.endCompress n t e .nospace
            | some (u, s) =>
              let b : Blob := { lines := t.lines, poison := t.pmap, units := units, sealed := s.blobSeal e.fkey t.frame, bad := false }
              let s := { s with blobs := SMap.set s.blobs (blobKey pool u) b }
              let s := s.putEnt t.frame
                { e with tier := 2, unit := u, units := units, pool := pool, move := false, incomp := false }
              let s := (s.useMedia t.src (some (.slot n))).setSlot n { t with draining := true, staging := [] }
              ((s.evtBy 15 0x52 2 units).evtW dark 0x50 10).cmdCount t.cmd .moved true
    | _ => s

/-- A unit copy ends (R275 step 4, Table 8-8): the entry takes the new units. -/
def State.unitCopyDone (s : State) (n : Nat) : State :=
  match SMap.find s.enl.slots n with
  | none => s
  | some t =>
    if t.kind ≠ .unitCopy ∨ t.draining ∨ s.down then s
    else if s.dstGone t then s.abandonSlot n t .aborted
    else
      let e := s.ent t.frame
      let pool := t.dst >>> 40
      let u := t.dst % 2 ^ 40
      let b := s.blob e.pool e.unit
      let bad := s.mediaDead e.pool (e.unit * 512)
      let s := s.freeUnits e.pool e.unit e.units
      let s := match b with
        | some b => { s with blobs := SMap.set s.blobs t.dst { b with bad := b.bad || bad } }
        | none => s
      let s := (s.putEnt t.frame { e with pool := pool, unit := u, move := false }).delSlot n
      let s := s.evt 15 0x50 13
      (if t.evac then s.evt 15 0x50 18 else s).cmdCount t.cmd .moved true

/-- A drained source returns to the free pool, once every access issued to it has completed (R260 step 6). -/
def State.sourceFree (s : State) (n : Nat) : State :=
  match SMap.find s.enl.slots n with
  | none => s
  | some t => match t.kind with
    | .rekey _ | .rekeyBlob _ => s
    | _ => if t.draining && !s.fio.t1.any (fun p => decide (p.k = t.src)) then
        ((s.freeFrame t.src).delSlot n).unframeRegion (t.frame / 512) else s

/-- A line leaves the Condenser (R266 step 4): the next one in order. -/
def State.decompLine (s : State) (n : Nat) (checkFails : Bool) : State :=
  match SMap.find s.enl.slots n with
  | none => s
  | some t =>
    if t.kind ≠ .decompress ∨ s.down then s
    else if s.dstGone t then s.abandonSlot n t .aborted
    else
      let first := decide (t.moved = 0)
      let s := if first && checkFails && !t.bad then s.blobFailed t.frame (s.ent t.frame) else s
      let t := if first && checkFails then { t with bad := true } else t
      match (List.range 64).find? (fun i => !t.moved.getLsbD i) with
      | some i =>
        let r := s.produce n t i
        r.2.switchDecomp n r.1
      | none => s

/-- Return a frame to a zero frame: media and charges are freed (R281). -/
def State.zeroFrame (s : State) (f : Nat) : State :=
  let e := s.ent f
  let s := if e.tier = 2 then s.freeUnits e.pool e.unit e.units
    else if e.tier ≤ 1 then s.freeFrame e.mediaOf else s
  (s.putEnt f .zero).unframeRegion (f / 512)

/-- The totals that the registers show (R273). -/
def State.enlTotals (s : State) : Nat × Nat × Nat × Nat × Nat × Nat :=
  let t0 := s.plat.sets.zipIdx.filterMap fun p => if s.setLive p.2 then some p.1.span else none
  let t1 := s.plat.t1.zipIdx.filterMap fun p => if s.t1Live p.2 then some p.1.span else none
  let sum (l : List (Nat × Nat)) : Nat := l.foldl (fun a p => a + p.2) 0
  (sum t0, s.freeCount t0, sum t1, s.freeCount t1,
   s.enl.frames.foldl (fun a p => a + p.2.units) 0,
   (s.enl.used.filter (fun p => p.2 = .remap)).length)

end Sys2Proof.Machine
end

