-- ==== Sys2Proof/Machine/Caches.lean ====
section
/-! DEFINITION.
The caches of a compute die (spec/05): lookups, fills, replacement, the victim cache and side
buffer, way locking, and the die's answer to a snoop (R184).  A line that leaves the die with an
owner copy enters `home.wbuf`; the home takes it from there (R183, R194). -/

namespace Sys2Proof.Machine

/-! ### Sets, ways and counters -/

/-- Set indices of Table 5-1. -/
def l1iSet (line : Nat) : Nat := line % 64
def l1dSet (line : Nat) : Nat := (line / 2) % 32
def l2Set (line : Nat) : Nat := line % 1024
def l3Set (line : Nat) : Nat := line % 2048

/-- Advance a counter of a core's blocks, which stand still in the Darkroom world (R437). -/
def State.evtC (s : State) (n base i : Nat) : State :=
  if n ≥ 216 then s
  else if (s.core n).darkW && !s.drCount then s else s.evt (n / 18) (base + n % 18) i

/-- Advance a counter of a die's block that a request of the given world moves (R438). -/
def State.evtX (s : State) (dark : Bool) (die blk i : Nat) : State :=
  if dark && !s.drCount then s else s.evt die blk i

/-- Whether a way or entry of a cache structure is disabled as a permanent Element (R532). -/
def State.wayOff (s : State) (die blk idx : Nat) : Bool := s.ras.perm.contains (elem die blk 0 idx)

/-- The first way of a set that is empty, among candidates. -/
def emptyWay {α : Type} (m : SMap α) (set : Nat) (ways : List Nat) : Option Nat :=
  ways.find? (fun w => (SMap.find m (set * 16 + w)).isNone)

/-- The next candidate from way `w` upward modulo 16 (R159). -/
def nextWay (w : Nat) (ways : List Nat) : Option Nat :=
  ((List.range 16).map (fun i => (w + i) % 16)).find? (fun x => ways.contains x)

/-! ### Sectors -/

/-- A sector of an L1D way. -/
def L1Way.sector (w : L1Way) (line : Nat) : Option Sector := if line % 2 = 0 then w.s0 else w.s1
/-- Replace a sector of an L1D way. -/
def L1Way.setSector (w : L1Way) (line : Nat) (x : Option Sector) : L1Way :=
  if line % 2 = 0 then { w with s0 := x } else { w with s1 := x }

/-- The L1D sector of a line. -/
def CoreCaches.l1Sector (c : CoreCaches) (line : Nat) : Option Sector :=
  match c.l1d.find? (fun p => p.2.tag = line / 2) with
  | some p => p.2.sector line
  | none => none

/-- The L2 line with its key. -/
def CoreCaches.l2Find (c : CoreCaches) (line : Nat) : Option (Nat × CLine) :=
  c.l2.find? (fun p => p.2.line = line)

/-- Change every sector of a line in the L1D and the victim cache; `none` removes it. -/
def CoreCaches.mapSectors (c : CoreCaches) (line : Nat) (f : Sector → Option Sector) : CoreCaches :=
  let one (o : Option Sector) : Option Sector := match o with
    | some x => if x.line = line then f x else some x
    | none => none
  { c with
    l1d := c.l1d.filterMap fun p =>
      let w : L1Way := { p.2 with s0 := one p.2.s0, s1 := one p.2.s1 }
      if w.s0.isNone && w.s1.isNone then none else some (p.1, w),
    vc := c.vc.filterMap fun x => if x.line = line then f x else some x }

/-- The dirty sector of a line, if one is held. -/
def CoreCaches.dirtySector (c : CoreCaches) (line : Nat) : Option Sector :=
  match c.l1Sector line with
  | some x => if x.dirty then some x else c.vc.find? (fun y => decide (y.line = line) && y.dirty)
  | none => c.vc.find? (fun y => decide (y.line = line) && y.dirty)

/-- Merge a line's dirty sector into the L2 line (R154). -/
def CoreCaches.merge (c : CoreCaches) (line : Nat) : CoreCaches :=
  match c.dirtySector line, c.l2Find line with
  | some x, some (k, l) =>
    let c := c.mapSectors line (fun y => some { y with dirty := false })
    { c with l2 := SMap.set c.l2 k { l with data := x.data, poison := x.poison } }
  | _, _ => c

/-- Remove a line from the four structures above the L2 (R154). -/
def CoreCaches.dropUpper (c : CoreCaches) (line : Nat) : CoreCaches :=
  let c := c.mapSectors line (fun _ => none)
  { c with sbuf := c.sbuf.filter (fun x => x.line ≠ line), l1i := c.l1i.filter (fun p => p.2.line ≠ line) }

/-- A Darkroom-marked line is invisible to a Daylight request (R427). -/
def seen (l : CLine) (dark : Bool) : Bool := dark || !l.dark

/-- Replace a core's caches. -/
def State.setCaches (s : State) (n : Nat) (c : CoreCaches) : State := s.setCore n { s.core n with caches := c }

/-! ### The write-back buffer of a die -/

/-- An owner copy leaves the die: it waits in the write-back buffer for its EvAck (R183, R194).  `core`: the core whose
maintenance writes it, which a fabric-scope FENCE of that core awaits (R94). -/
def State.pushWbFor (s : State) (core : Option Nat) (agent : Nat) (l : CLine) : State :=
  if decide (l.st = .s ∨ l.st = .i) then s
  else
    let data := if l.st = .e then none else some l.data
    { s with home := { s.home with wbuf := s.home.wbuf ++ [(⟨agent, l.line, data, l.poison, l.key, l.dark, false, core⟩ : WbEnt)] } }

/-- An owner copy leaves the die as an eviction. -/
def State.pushWb (s : State) (agent : Nat) (l : CLine) : State := s.pushWbFor none agent l

/-! ### L3 slices -/

/-- The lines of an L3 slice. -/
def State.l3Of (s : State) (g : Nat) : SMap CLine := SMap.get (fun _ => []) s.l3 g
/-- Replace the lines of an L3 slice. -/
def State.setL3 (s : State) (g : Nat) (m : SMap CLine) : State := { s with l3 := SMap.put (fun _ => []) s.l3 g m }
/-- The global slice of a die that serves a line (R155). -/
def l3Idx (die line : Nat) : Nat := 16 * die + l3Slice (line * 64)
/-- The L3 line with its key. -/
def State.l3Find (s : State) (die line : Nat) : Option (Nat × CLine) :=
  (s.l3Of (l3Idx die line)).find? (fun p => p.2.line = line)

/-- Whether a slice allocates nothing: lost (R203), retired, or under test (Table 19-4). -/
def State.l3Closed (s : State) (g : Nat) : Bool :=
  s.home.lostL3.contains g || s.underTest (g / 16) (0x70 + g % 16) ||
  decide ((s.unit (g / 16) (0x70 + g % 16)).st = .retired ∨ (s.unit (g / 16) (0x70 + g % 16)).st = .lost)

/-- The ways a slice may allocate for a core (R168): locked ways for an owner, the others for any
other core; a disabled way never, and a lock on it has no effect (R532). -/
def State.l3Ways (s : State) (g core : Nat) : List Nat :=
  let ways := s.fget (kL3cLock g) fL3cLock_WAYS
  let owner := decide (ways ≠ 0) && (s.rd (kL3cLock g)).getLsbD (24 + core % 18)
  (List.range 16).filter fun w =>
    !s.wayOff (g / 16) (0x70 + g % 16) w && (decide ((ways >>> w) % 2 = 1) == owner)

/-- Put a line into its L3 slice for a core (R154, R159, R168): the victim leaves the die. -/
def State.l3Alloc (s : State) (core : Nat) (l : CLine) : State :=
  let die := core / 18
  let g := l3Idx die l.line
  let m := s.l3Of g
  match s.l3Find die l.line with
  | some (k, old) =>
    if l.st = .s then s else s.setL3 g (SMap.set m k { l with dark := l.dark || old.dark })
  | none =>
    let ways := s.l3Ways g core
    if s.l3Closed g || ways.isEmpty then s.pushWb die l
    else
      let set := l3Set l.line
      let locked (w : Nat) (s : State) : State :=
        if (s.fget (kL3cLock g) fL3cLock_WAYS >>> w) % 2 = 1 then s.evtX l.dark die (0x70 + g % 16) 2 else s
      match emptyWay m set ways with
      | some w => locked w (s.setL3 g (SMap.set m (set * 16 + w) l))
      | none =>
        let st := lfsrStep (s.fget (kL3cLfsr g) fL3cLfsr_STATE)
        let s := (s.fput (kL3cLfsr g) fL3cLfsr_STATE st).evtX l.dark die (0x70 + g % 16) 6
        match nextWay (st % 16) ways with
        | none => s.pushWb die l
        | some w =>
          let k := set * 16 + w
          let s := match SMap.find m k with
            | some v => (s.pushWb die v).evtX v.dark die (0x70 + g % 16) 3
            | none => s
          locked w (s.setL3 g (SMap.set (s.l3Of g) k l))

/-- Remove a line from its L3 slice. -/
def State.l3Drop (s : State) (die line : Nat) : State :=
  match s.l3Find die line with
  | some (k, _) => s.setL3 (l3Idx die line) (SMap.del (s.l3Of (l3Idx die line)) k)
  | none => s

/-- Change a line in its L3 slice. -/
def State.l3Set (s : State) (die : Nat) (k : Nat) (l : CLine) : State :=
  s.setL3 (l3Idx die l.line) (SMap.set (s.l3Of (l3Idx die l.line)) k l)

/-! ### The L2 -/

/-- The way a 15-bit tree points to: a set bit points to the upper half (R161). -/
def plruVictim (t : BitVec 15) : Nat :=
  (List.range 4).foldl (fun (a : Nat × Nat) _ =>
    let b := if t.getLsbD a.1 then 1 else 0
    (2 * a.1 + 1 + b, 2 * a.2 + b)) (0, 0) |>.2

/-- Point the tree away from a way (R161). -/
def plruTouch (t : BitVec 15) (w : Nat) : BitVec 15 :=
  ((List.range 4).foldl (fun (a : BitVec 15 × Nat) d =>
    let b := (w >>> (3 - d)) % 2
    let m : BitVec 15 := BitVec.ofNat 15 (2 ^ a.2)
    (if b = 1 then a.1 &&& ~~~m else a.1 ||| m, 2 * a.2 + 1 + b)) (t, 0)).1

/-- Note a use of an L2 way.  A set's tree starts at zero (DESIGN CHOICE, log 63: the spec gives no reset value). -/
def CoreCaches.touchL2 (c : CoreCaches) (k : Nat) : CoreCaches :=
  { c with plru := SMap.put (fun _ => 0) c.plru (k / 16) (plruTouch (SMap.get (fun _ => 0) c.plru (k / 16)) (k % 16)) }

/-- Evict an L2 line (R154, R183): dirty sectors are merged, the four structures drop the line, and
the line moves to the die's L3. -/
def State.l2Evict (s : State) (n k : Nat) : State :=
  let c := (s.core n).caches
  match SMap.find c.l2 k with
  | none => s
  | some v =>
    let c := (c.merge v.line).dropUpper v.line
    let v := (SMap.find c.l2 k).getD v
    let s := s.setCaches n { c with l2 := SMap.del c.l2 k }
    let s := if v.st = .m ∨ v.st = .o then s.evtC n 0x58 1 else s
    s.l3Alloc n v

/-- Fill a line into a core's L2, evicting a victim (R161). -/
def State.l2Fill (s : State) (n : Nat) (l : CLine) : State :=
  let c := (s.core n).caches
  match c.l2Find l.line with
  | some (k, _) => s.setCaches n (({ c with l2 := SMap.set c.l2 k l }).touchL2 k)
  | none =>
    let set := l2Set l.line
    let ways := (List.range 16).filter (fun w => !s.wayOff (n / 18) (0x58 + n % 18) w)
    let w := match emptyWay c.l2 set ways with
      | some w => some w
      | none => nextWay (plruVictim (SMap.get (fun _ => 0) c.plru set)) ways
    match w with
    | none => s.pushWb (n / 18) l
    | some w =>
      let k := set * 16 + w
      let s := s.l2Evict n k
      let c := (s.core n).caches
      s.setCaches n (({ c with l2 := SMap.set c.l2 k l }).touchL2 k)

/-! ### L1D, victim cache and side buffer (R159, R162, R163) -/

/-- A sector leaves the victim cache: a dirty one is written to the L2. -/
def CoreCaches.vcOut (c : CoreCaches) (x : Sector) : CoreCaches :=
  if x.dirty then match c.l2Find x.line with
    | some (k, l) => { c with l2 := SMap.set c.l2 k { l with data := x.data, poison := x.poison } }
    | none => c
  else c

/-- An evicted L1D sector enters the victim cache of `cap` entries, first in first out, or with none in use
goes to the L2 (R163).  `spot`: the entry that a recall vacates, which the evicted sector takes. -/
def CoreCaches.vcIn (c : CoreCaches) (cap : Nat) (spot : Option Nat) (x : Sector) : CoreCaches :=
  if (c.l2Find x.line).isNone then c
  else if cap = 0 then c.vcOut x
  else match spot with
    | some i => { c with vc := c.vc.take i ++ x :: c.vc.drop i }
    | none =>
      let c := { c with vc := c.vc ++ [x] }
      if c.vc.length > cap then match c.vc with
        | y :: r => ({ c with vc := r }).vcOut y
        | [] => c
      else c

/-- The entries of a core's victim cache or side buffer that are not disabled (R532). -/
def State.entriesOn (s : State) (n str size : Nat) : Nat :=
  ((List.range size).filter (fun i => !s.wayOff (n / 18) (0x40 + n % 18) (str * 256 + i))).length

/-- The sectors of a replaced L1D way enter the victim cache, that of the lower address first (DESIGN CHOICE, log 63: the
spec gives no order); on a recall the first takes the vacated entry. -/
def CoreCaches.wayOut (c : CoreCaches) (cap : Nat) (spot : Option Nat) (v : L1Way) : CoreCaches :=
  match v.s0, v.s1 with
  | some y, some z => (c.vcIn cap spot y).vcIn cap none z
  | some y, none => c.vcIn cap spot y
  | none, some z => c.vcIn cap spot z
  | none, none => c

/-- Put a sector into the L1D (R159): it joins its tag, takes the lowest empty way, or replaces the
way that the core's register names; with every way disabled, a dirty sector is written to the L2.  `spot`: the victim cache entry that the sector has left (R163). -/
def State.l1FillFrom (s : State) (n : Nat) (spot : Option Nat) (x : Sector) : State :=
  let c := (s.core n).caches
  match c.l1d.find? (fun p => p.2.tag = x.line / 2) with
  | some (k, w) => s.setCaches n { c with l1d := SMap.set c.l1d k (w.setSector x.line (some x)) }
  | none =>
    let set := l1dSet x.line
    let ways := (List.range 16).filter (fun w => !s.wayOff (n / 18) (0x40 + n % 18) (256 + w))
    let cap := if s.fon (kL1cCtl n) fL1cCtl_VCEN then s.entriesOn n 2 16 else 0
    let fresh : L1Way := ({ tag := x.line / 2, s0 := none, s1 := none } : L1Way).setSector x.line (some x)
    match emptyWay c.l1d set ways with
    | some w => s.setCaches n { c with l1d := SMap.set c.l1d (set * 16 + w) fresh }
    | none =>
      let st := lfsrStep (s.fget (kL1cLfsr n) fL1cLfsr_DSTATE)
      let s := s.fput (kL1cLfsr n) fL1cLfsr_DSTATE st
      match nextWay (st % 16) ways with
      | none => s.setCaches n (c.vcOut x)
      | some w =>
        let k := set * 16 + w
        let old := SMap.find c.l1d k
        let c := { c with l1d := SMap.set c.l1d k fresh }
        s.setCaches n (match old with
          | some v => c.wayOut cap spot v
          | none => c)

/-- Put a sector that no victim cache entry held into the L1D. -/
def State.l1Fill (s : State) (n : Nat) (x : Sector) : State := s.l1FillFrom n none x

/-- Fill the L1I (R159). -/
def State.l1iFill (s : State) (n : Nat) (l : L1ILine) : State :=
  let c := (s.core n).caches
  if c.l1i.any (fun p => p.2.line = l.line) then s
  else
    let set := l1iSet l.line
    let ways := (List.range 16).filter (fun w => !s.wayOff (n / 18) (0x40 + n % 18) w)
    match emptyWay c.l1i set ways with
    | some w => s.setCaches n { c with l1i := SMap.set c.l1i (set * 16 + w) l }
    | none =>
      let st := lfsrStep (s.fget (kL1cLfsr n) fL1cLfsr_ISTATE)
      let s := s.fput (kL1cLfsr n) fL1cLfsr_ISTATE st
      match nextWay (st % 16) ways with
      | none => s
      | some w => s.setCaches n { c with l1i := SMap.set c.l1i (set * 16 + w) l }

/-- Look a line up in the L1D, side buffer and victim cache, promoting or recalling it into the L1D
(R162, R163): whether it is there, and the state after. -/
def State.l1Lookup (s : State) (n line : Nat) : Bool × State :=
  let c := (s.core n).caches
  if (c.l1Sector line).isSome then (true, s)
  else match c.sbuf.find? (fun x => x.line = line) with
    | some x =>
      let s := s.setCaches n { c with sbuf := c.sbuf.filter (fun y => y.line ≠ line) }
      (true, (s.l1Fill n x).evtC n 0x40 3)
    | none => match c.vc.zipIdx.find? (fun p => p.1.line = line) with
      | some (x, i) =>
        let s := s.setCaches n { c with vc := c.vc.eraseIdx i }
        (true, (s.l1FillFrom n (some i) x).evtC n 0x40 4)
      | none => (false, s)

/-- Fill a prefetched sector into the side buffer, first in first out (R162). -/
def State.sbFill (s : State) (n : Nat) (x : Sector) : State :=
  let c := (s.core n).caches
  let l := (c.sbuf.filter (fun y => y.line ≠ x.line)) ++ [x]
  (s.setCaches n { c with sbuf := l.drop (l.length - s.entriesOn n 3 32) }).evtC n 0x40 2

/-- The current data of a line that a core's L2 holds, its dirty sector merged. -/
def CoreCaches.current (c : CoreCaches) (line : Nat) : Option CLine :=
  match c.l2Find line with
  | some (_, l) => match c.dirtySector line with
    | some x => some { l with data := x.data, poison := x.poison }
    | none => some l
  | none => none

/-! ### Snoops (Table 6-4) -/

/-- What a probed cache keeps. -/
def snoopNext (k : SnpKind) (st : CSt) : CSt :=
  match k, st with
  | .s, .m => .o
  | .s, .o => .o
  | .s, .e => .s
  | .i, _ => .i
  | .c, .m => .e
  | .c, .o => .s
  | _, st => st

/-- Whether a state is dirty. -/
def CSt.dirty (st : CSt) : Bool := decide (st = .m ∨ st = .o)
/-- Whether a state is an owner copy. -/
def CSt.owner (st : CSt) : Bool := decide (st = .m ∨ st = .o ∨ st = .e)

/-- Probe one L2: the dirty line it supplies and what is left (R184). -/
def CoreCaches.probe (c : CoreCaches) (k : SnpKind) (line : Nat) : Option CLine × CoreCaches :=
  match c.l2Find line with
  | none => (none, c)
  | some _ =>
    let c := c.merge line
    match c.l2Find line with
    | none => (none, c)
    | some (key, l) =>
      let sup := if l.st.dirty then some l else none
      let st := snoopNext k l.st
      if st = .i then
        let c := c.dropUpper line
        (sup, { c with l2 := SMap.del c.l2 key })
      else (sup, { c with l2 := SMap.set c.l2 key { l with st := st } })

/-- The cores of a die that hold a line. -/
def State.holders (s : State) (die line : Nat) : List Nat :=
  ((List.range 18).map (fun i => 18 * die + i)).filter (fun n => ((s.core n).caches.l2Find line).isSome)

/-- What a die holds of a line: NONE, SHARED or OWNED. -/
def State.dieHold (s : State) (die line : Nat) : Hold :=
  let sts := (s.holders die line).filterMap (fun n => ((s.core n).caches.l2Find line).map (·.2.st)) ++
    (match s.l3Find die line with | some p => [p.2.st] | none => [])
  if sts.any CSt.owner then .owned else if sts.isEmpty then .none else .shared

/-- A die answers a snoop (R184, R194, R195): every L2 but the excluded one and the L3 are probed; a
line in the write-back buffer is answered from there with WB. -/
def State.dieSnoop (s : State) (die : Nat) (k : SnpKind) (line : Nat) (excl : Option Nat) : SnoopAns × State :=
  let cores := (s.holders die line).filter (fun n => decide (some n ≠ excl))
  let r := cores.foldl (fun (a : Option CLine × State) n =>
    let p := (a.2.core n).caches.probe k line
    ((match p.1 with | some x => some x | none => a.1), (a.2.setCaches n p.2).evtC n 0x58 5)) (none, s)
  let s := r.2
  let p : Option CLine × State := match s.l3Find die line with
    | some (key, l) =>
      let sup := if l.st.dirty then some l else r.1
      let st := snoopNext k l.st
      (sup, if st = .i then s.l3Drop die line else s.l3Set die key { l with st := st })
    | none => (r.1, s)
  let sup := p.1
  let s := p.2
  let s := s.evt die (0x70 + l3Slice (line * 64)) 4
  let hold := s.dieHold die line
  match s.home.wbuf.find? (fun (w : WbEnt) => decide (w.agent = die ∧ w.line = line)) with
  | some w => (⟨hold, true, w.data, w.poison, w.key, false⟩, s)
  | none => match sup with
    | some l => (⟨hold, false, some l.data, l.poison, l.key, false⟩, s)
    | none => (⟨hold, false, none, false, 0, false⟩, s)

/-- The service cores' cache answers a snoop as one agent (R181). -/
def State.spSnoop (s : State) (k : SnpKind) (line : Nat) : SnoopAns × State :=
  match s.home.wbuf.find? (fun (w : WbEnt) => decide (w.agent = 16 ∧ w.line = line)) with
  | some w => (⟨.none, true, w.data, w.poison, w.key, false⟩, s)
  | none => match SMap.find s.spCache line with
    | some l =>
      let st := snoopNext k l.st
      let s := { s with spCache := if st = .i then SMap.del s.spCache line else SMap.set s.spCache line { l with st := st } }
      let hold : Hold := if st = .i then .none else if st.owner then .owned else .shared
      (⟨hold, false, if l.st.dirty then some l.data else none, l.poison, l.key, false⟩, s)
    | none => (⟨.none, false, none, false, 0, false⟩, s)

/-! ### Disabling, draining -/

/-- Empty the victim cache of a core, dirty sectors to the L2 (R163). -/
def State.vcEmpty (s : State) (n : Nat) : State :=
  let c := (s.core n).caches
  s.setCaches n (c.vc.foldl CoreCaches.vcOut { c with vc := [] })

/-- A core's caches are drained as evictions (R202): dirty sectors merge, owner copies are announced
to the home, clean lines are dropped. The L1I is emptied with them. -/
def State.drainCore (s : State) (n : Nat) : State :=
  let c := (s.core n).caches
  let s := s.each c.l2 fun s p =>
    let c := ((s.core n).caches.merge p.2.line).dropUpper p.2.line
    let v := (SMap.find c.l2 p.1).getD p.2
    (s.setCaches n { c with l2 := SMap.del c.l2 p.1 }).pushWb (n / 18) v
  s.setCaches n { (s.core n).caches with l1i := [], l1d := [], vc := [], sbuf := [] }

/-- An L3 slice is drained as evictions (R505, R533). -/
def State.drainL3 (s : State) (g : Nat) : State :=
  let m := s.l3Of g
  (s.each m fun s p => s.pushWb (g / 16) p.2).setL3 g []

end Sys2Proof.Machine
end

