-- ==== Sys2Proof/Machine/Fabric.lean ====
section
/-! DEFINITION.
The fabric windows of spec/11 (R349–R355): the Fabric Window Table, its checks, the accesses that
leave through the attachments, and their completions. -/

namespace Sys2Proof.Machine

/-- Whether an HPA lies in the fabric aperture (R350). -/
def State.isFabric (s : State) (hpa : Nat) : Bool :=
  match s.mapOf hpa with
  | some m => decide (m.kind = 5)
  | none => false

/-- SLOTLOG and the aperture base. -/
def State.fabBase (s : State) : Nat × Nat :=
  (s.fget kFwtAper fFwtAper_SLOTLOG, s.fget kFwtAper fFwtAper_BASE <<< 30)

/-- A window entry: its two words (R351). -/
def State.fwtEnt (s : State) (i : Nat) : Word × Word := SMap.get (fun _ => (0, 0)) s.fio.fwt i
/-- Set a window entry; NFAIL shows how many have FAIL set. -/
def State.setFwt (s : State) (i : Nat) (e : Word × Word) : State :=
  let s := { s with fio := { s.fio with fwt := SMap.put (fun _ => (0, 0)) s.fio.fwt i e } }
  s.fput kFwtStat fFwtStat_NFAIL (s.fio.fwt.filter (fun p => fFwtData0_FAIL.on p.2.1)).length

/-- How many commits an entry has had. -/
def State.fwtGen (s : State) (i : Nat) : Nat := SMap.get (fun _ => 0) s.fio.gens i

/-- Commit the staged words to the entry that FWT_SEL names, clearing FAIL (R351). -/
def State.fwtCommit (s : State) (w0 w1 : Word) : State :=
  let i := s.fget kFwtSel fFwtSel_INDEX
  let s := s.setFwt i (fFwtData0_FAIL.put w0 0, w1)
  { s with fio := { s.fio with gens := SMap.put (fun _ => 0) s.fio.gens i (s.fwtGen i + 1) } }.evt 15 0x18 6

/-- The fabric attachments: groups of ROLE 3 in ascending order (R349). -/
def State.attachments (s : State) : List Nat :=
  (s.plat.groups.zipIdx.filter (fun p => p.1.role = 3)).map (·.2)

/-- The entry and the fabric address of an access (R350, R352); none when it is refused. -/
def State.fabCheck (s : State) (hpa : Nat) (write atom : Bool) : Option (Nat × Nat) :=
  let (sl, base) := s.fabBase
  let i := ((hpa - base) >>> sl) % 16384
  let o := (hpa - base) % 2 ^ sl
  let (w0, w1) := s.fwtEnt i
  let perm := if atom then fFwtData0_ATOM.on w0 && fFwtData0_RD.on w0 && fFwtData0_WR.on w0
    else if write then fFwtData0_WR.on w0 else fFwtData0_RD.on w0
  if !fFwtData0_V.on w0 || fFwtData0_FAIL.on w0 || decide (o ≥ fFwtData0_LIMIT.get w0 * 2097152) ||
      !perm || decide (fFwtData0_ATT.get w0 ≥ s.attachments.length) then none
  else
    let ep := fFwtData0_ATT.get w0 * 4096 + fFwtData0_DPID.get w0
    some (i, ep * 2 ^ 64 + ((fFwtData1_FABASE.get w1 <<< 21) + o) % 2 ^ 64)

/-- Issue an access to its endpoint (R352): its tag, or none when it is refused, a refused write
being a Deferred error. `second`: the write-back of an atomic whose read has been issued. -/
def State.fabIssue (s : State) (hpa : Nat) (write atom second home : Bool) (core : Option Nat) (data : Line)
    (mask : BitVec 64) (poison : Bool) : Option Nat × State :=
  match s.fabCheck hpa write atom with
  | none =>
    let s := s.evt 15 0x18 3
    (none, if write && (!atom || second) then s.deferredErr 0x50 (some hpa) none false 0xFFFF else s)
  | some (i, fa) =>
    let tag := s.fio.tag
    let o : FabOut := { tag := tag, hpa := hpa, entry := i, gen := s.fwtGen i, write := write,
                        atom := atom, home := home, core := core }
    let s := { s with fio := { s.fio with outs := s.fio.outs ++ [o], tag := tag + 1 } }
    let s := if second then s else s.evt 15 0x18 (if atom then 2 else if write then 1 else 0)
    (some tag, s.emit (.fabricReq tag fa write atom data mask poison))

/-- A window fails: FAIL is set unless the entry has been committed since, and FWT_STAT records it;
the loss is a Deferred error (R355). -/
def State.fabFail (s : State) (o : FabOut) : State :=
  let s := if s.fwtGen o.entry = o.gen then
      let e := s.fwtEnt o.entry
      (s.setFwt o.entry (fFwtData0_FAIL.put e.1 1, e.2)).evt 15 0x18 4
    else s
  let s := if s.fon kFwtStat fFwtStat_FAILED then s
    else (s.fput kFwtStat fFwtStat_FAILED 1).fput kFwtStat fFwtStat_FIRST o.entry
  s.deferredErr 0x50 (some o.hpa) none false 0xFFFF

/-- The outstanding access of a tag, if any (a late completion finds none, R19). -/
def State.fabOut (s : State) (tag : Nat) : Option FabOut := s.fio.outs.find? (fun o => o.tag = tag)
/-- Retire an outstanding access. -/
def State.fabDrop (s : State) (tag : Nat) : State :=
  { s with fio := { s.fio with outs := s.fio.outs.filter (fun o => o.tag ≠ tag) } }

/-- An access carried through the aperture by itself (R352): a refused read or atomic answers
poisoned data at once. -/
def fabricWindowAccessRun (a : FabricAccess) (s : State) : State :=
  match s.fabIssue a.hpa a.write a.atom false false none a.data (BitVec.allOnes 64) false with
  | (some _, s) => s
  | (none, s) => if a.write && !a.atom then s else s.emit (.reply 0 (a.hpa / 64) 0 true false)

-- EXEC: FABRIC_WINDOW_ACCESS
/-- FABRIC_WINDOW_ACCESS (R352): the effect of a well-formed command. -/
def execFabricWindowAccess (a : FabricAccess) (s : State) : Res :=
  runs a.wf (fabricWindowAccessRun a) s
-- END EXEC

end Sys2Proof.Machine
end

