-- ==== Sys2Proof/Machine/Scratch.lean ====
section
/-! DEFINITION.
The shared scratch memory (spec/16) and the refusals of the Darkroom world (R426, R428). -/

namespace Sys2Proof.Machine

/-- Hold a Darkroom refusal (R426, R428): counted, and held while none is held. -/
def State.wldRefuse (s : State) (write : Bool) (space src agent line : Nat) : State :=
  let s := s.evt 15 2 space
  if s.fon kWldReflog0 fWldReflog0_VALID then s
  else
    let v := fWldReflog0_VALID.put 0 1
    let v := fWldReflog0_WRITE.put v (if write then 1 else 0)
    let v := fWldReflog0_SPACE.put v space
    let v := fWldReflog0_AGENT.put (fWldReflog0_SOURCE.put v src) agent
    (s.wr kWldReflog0 v).wr kWldReflog1 (fWldReflog1_LINE.put 0 line)

/-- The arithmetic of an atomic (R105): the value stored for old value and operand, of `sz` bytes. -/
def amoCompute (op : AmoOp) (sz : Nat) (old operand compare : Nat) : Nat :=
  let m := 2 ^ (8 * sz)
  let sg (v : Nat) : Int := if v % m ≥ m / 2 then (v % m : Int) - (m : Int) else ((v % m : Nat) : Int)
  let o := old % m; let v := operand % m
  match op with
  | .swap => v
  | .add => (o + v) % m
  | .and => o &&& v
  | .or => o ||| v
  | .xor => o ^^^ v
  | .min => if sg o ≤ sg v then o else v
  | .max => if sg o ≥ sg v then o else v
  | .umin => min o v
  | .umax => max o v
  | .cas | .cas128 => if o = compare % m then v else o

/-- The bank of a scratch offset (R484). -/
def ssmBank (off : Nat) : Nat := (off >>> 3) % 64

/-- The present state of a bank: 0 ON, 1 RETENTION, 2 OFF (R492). -/
def State.bankState (s : State) (b : Nat) : Nat := ((s.rd (kSsmBankstat (b / 32))).toNat >>> (2 * (b % 32))) % 4
/-- Set the present state of a bank. -/
def State.setBank (s : State) (b st : Nat) : State :=
  s.fput (kSsmBankstat (b / 32)) ⟨2 * (b % 32), 2⟩ st
/-- The state that software requests for a bank; 3 is treated as 0. -/
def bankReq (v : Word) (k : Nat) : Nat := let q := (v.toNat >>> (2 * k)) % 4; if q = 3 then 0 else q

/-- SECURE in bytes; values above 8 act as 8 (R489). -/
def State.secureBytes (s : State) : Nat := min 8 (s.fget kSsmCtl fSsmCtl_SECURE) * 1048576

/-- Whether an access meets R428: Daylight to the secure partition, or any port but SP0 before
LOCK (R490). -/
def State.ssmDenied (s : State) (sp0 dark : Bool) (off : Nat) : Bool :=
  (!sp0 && !s.fon kSsmCtl fSsmCtl_LOCK) || (!dark && decide (off < s.secureBytes))

/-- A scratch word. -/
def State.ssmWord (s : State) (w : Nat) : Word := SMap.get (fun _ => 0) s.ssm.words w
/-- Whether a scratch word carries the poison mark. -/
def State.ssmPoison (s : State) (w : Nat) : Bool := SMap.get (fun _ => false) s.ssm.poison w
/-- Store a scratch word with its mark. -/
def State.setSsm (s : State) (w : Nat) (v : Word) (p : Bool) : State :=
  { s with ssm := { s.ssm with words := SMap.put (fun _ => 0) s.ssm.words w v,
                               poison := SMap.put (fun _ => false) s.ssm.poison w p } }

/-- Record an uncorrectable error of a word, or a dropped sub-word write to a poisoned one (R485). -/
def State.ssmErr (s : State) (dma : Bool) (off : Nat) (dark : Bool) : State :=
  let s := if s.fon kSsmErr fSsmErr_VALID then s else
    s.wr kSsmErr (fSsmErr_OFFSET.put (fSsmErr_BANK.put (fSsmErr_PORT.put (fSsmErr_VALID.put 0 1)
      (if dma then 1 else 0)) (ssmBank off)) (off / 8 * 8))
  s.raise { cls := 1, kind := 0x54, dark := dark, detail := off / 8 * 8 }

/-- The world of an access: SP0 is the Darkroom's, the other service cores are Daylight's, and the DMA
port says its own (R490). -/
def ssmDark (a : ScratchAccess) : Bool := match a.sp with | some n => decide (n = 0) | none => a.dark

/-- The errors that an access finds in its word (R485): a corrected word waits for its write-back, and an
uncorrectable one, unless it is written in full, is poisoned and recorded. -/
def State.ssmFaults (s : State) (a : ScratchAccess) : State :=
  let w := a.offset / 8
  let s := match a.corrected with
    | some c => (({ s with ssm := { s.ssm with pendingWb := s.ssm.pendingWb ++ [a.offset / 8 * 8] } }).evtW (ssmDark a) 4 6).raise
        { cls := 0, kind := 0x54, element := elem 15 4 3 (ssmBank a.offset * 128 + c), recovered := true, dark := ssmDark a }
    | none => s
  if a.uncorrectable && !(a.write && decide (a.size = 8)) then
    ((s.setSsm w (s.ssmWord w) true).evtW (ssmDark a) 4 7).ssmErr a.sp.isNone a.offset (ssmDark a)
  else s

/-- What an access does at its word (R483, R485, R488): answers the data returned and whether it is
poisoned, and the state after. -/
def State.ssmWordOp (s : State) (a : ScratchAccess) : (Word × Bool) × State :=
  let w := a.offset / 8
  let old := s.ssmWord w
  let p := s.ssmPoison w
  let lo := a.offset % 8
  let oldv := fieldAt old lo a.size
  match a.amo with
  | some op =>
    if (op = .add ∨ op = .swap) ∧ p = false then
      ((BitVec.ofNat 64 oldv, false), (s.setSsm w (Sys2Proof.Machine.setAt old lo a.size (amoCompute op a.size oldv a.data.toNat 0)) false).evtW (ssmDark a) 4 3)
    else ((BitVec.ofNat 64 oldv, p), s)
  | none =>
    if a.write then
      if a.size = 8 then ((0, false), s.setSsm w a.data false)
      else if p then ((0, false), s.ssmErr a.sp.isNone a.offset (ssmDark a))
      else ((0, false), s.setSsm w (Sys2Proof.Machine.setAt old lo a.size a.data.toNat) false)
    else ((BitVec.ofNat 64 oldv, p), s)

/-- What a granted access returns and leaves (R483–R488, R428). -/
def State.ssmServe (s : State) (a : ScratchAccess) : (Word × Bool) × State :=
  if s.ssmDenied (decide (a.sp = some 0)) (ssmDark a) a.offset then
    ((0, false), s.wldRefuse (a.write || a.amo.isSome) 1 (if a.sp.isNone then 3 else 2) (a.sp.getD 0) (a.offset / 64))
  else (s.ssmFaults a).ssmWordOp a

/-- The service core that a bank grants among those that request it, in rotating order after the
core last granted there (R487). -/
def State.ssmWinner (s : State) (bank : Nat) (cands : List Nat) : Option Nat :=
  let last := SMap.get (fun _ => 3) s.ssm.lastGrant bank
  ((List.range 4).map (fun k => (last + 1 + k) % 4)).find? (fun n => cands.contains n)

/-- DMAMAX; values below 4 act as 4. -/
def State.dmaMax (s : State) : Nat := max 4 (s.fget kSsmArb fSsmArb_DMAMAX)

/-- Whether a bank grants this access in this cycle (R487). -/
def State.ssmGrants (s : State) (a : ScratchAccess) : Bool :=
  let forced := decide (a.waited > s.dmaMax)
  match a.sp with
  | some n => !forced && decide (s.ssmWinner (ssmBank a.offset) (n :: a.rivals) = some n)
  | none => forced || a.rivals.isEmpty

/-- A bank grants an access: the service core last granted there, and the counters (R487). -/
def State.ssmTurn (s : State) (a : ScratchAccess) : State :=
  match a.sp with
  | some n => ({ s with ssm := { s.ssm with lastGrant := SMap.put (fun _ => 3) s.ssm.lastGrant (ssmBank a.offset) n } }).evtW (ssmDark a) 4 0
  | none => (if a.rivals.isEmpty then s else s.evtW (ssmDark a) 4 2).evtW (ssmDark a) 4 1

/-- Perform a granted access and return its data to its port: 0–3 for SP0–SP3, 4 for DMA. -/
def State.ssmPerform (s : State) (a : ScratchAccess) : State :=
  let r := (s.ssmTurn a).ssmServe a
  r.2.emit (.scratch (a.sp.getD 4) a.offset r.1.1 r.1.2)

/-- Begin waking a bank for an access that waits (R492). -/
def State.ssmWake (s : State) (b : Nat) : State :=
  if s.ssm.waking.contains b then s else { s with ssm := { s.ssm with waking := s.ssm.waking ++ [b] } }

/-- A scratch access meets its bank (R487, R491, R492): it waits for the wipe or for the bank to
wake, loses the cycle to a rival, or is performed. -/
def scratchAccessRun (a : ScratchAccess) (s : State) : State :=
  let b := ssmBank a.offset
  if s.ssm.wiping then { s with ssm := { s.ssm with waiting := s.ssm.waiting ++ [a] } }
  else if s.bankState b ≠ 0 then
    let s := s.ssmWake b
    { s with ssm := { s.ssm with waiting := s.ssm.waiting ++ [a] } }
  else if s.ssmGrants a then s.ssmPerform a
  else s

/-- A corrected word is written back (R485). -/
def correctedWordWritebackRun (off : Nat) (s : State) : State :=
  { s with ssm := { s.ssm with pendingWb := s.ssm.pendingWb.filter (fun o => o ≠ off / 8 * 8) } }

/-- An ON bank that has been idle enters RETENTION under AUTO; an access in the same cycle has
already been served (R492). -/
def bankRetentionEntryRun (bank : Nat) (s : State) : State :=
  if s.fon kSsmPwrctl fSsmPwrctl_AUTO && decide (s.bankState bank = 0) then s.setBank bank 1 else s

/-- Forget the contents of one bank: zero words with valid check bits. -/
def State.wipeBank (s : State) (b : Nat) : State :=
  { s with ssm := { s.ssm with words := s.ssm.words.filter (fun p => p.1 % 64 ≠ b),
                               poison := s.ssm.poison.filter (fun p => p.1 % 64 ≠ b) } }

/-- A bank finishes waking (R492): one from OFF is wiped; the waiting accesses are served. -/
def bankWakeRun (bank : Nat) (s : State) : State :=
  let st := s.bankState bank
  if st = 0 ∨ !s.ssm.waking.contains bank then s
  else
    let mine := s.ssm.waiting.filter (fun a => ssmBank a.offset = bank)
    let dark := !mine.isEmpty && mine.all ssmDark
    let s := if st = 2 then (s.wipeBank bank).evtW dark 4 5 else s.evtW dark 4 4
    let s := s.setBank bank 0
    let s := { s with ssm := { s.ssm with
      waking := s.ssm.waking.filter (fun b => b ≠ bank),
      waiting := s.ssm.waiting.filter (fun a => ssmBank a.offset ≠ bank) } }
    s.each mine State.ssmPerform

/-- Apply the requested power state of one bank (R492). -/
def State.bankRequest (s : State) (b q : Nat) : State :=
  let st := s.bankState b
  if q = st then s
  else if q = 0 then s.ssmWake b
  else if q = 2 then (s.wipeBank b).setBank b 2
  else s.setBank b 1

/-- Whether a write to SSM_BANKPWR would place a bank in RETENTION or OFF (R493). -/
def State.bankpwrStops (s : State) (r : Nat) (v : Word) : Bool :=
  (List.range 32).any fun k => decide (bankReq v k ≠ 0 ∧ bankReq v k ≠ s.bankState (32 * r + k))

/-- Apply a write to SSM_BANKPWR. -/
def State.bankpwrApply (s : State) (r : Nat) (v : Word) : State :=
  s.each (List.range 32) fun s k => s.bankRequest (32 * r + k) (bankReq v k)

/-- Zero the secure partition (R448, R449, R491). -/
def State.wipeSecure (s : State) : State :=
  let n := s.secureBytes / 8
  { s with ssm := { s.ssm with words := s.ssm.words.filter (fun p => decide (n ≤ p.1)),
                               poison := s.ssm.poison.filter (fun p => decide (n ≤ p.1)) } }

/-- The whole wipe ends (R491): zero words, every bank ON; accesses that waited are served. -/
def State.wipeDone (s : State) : State :=
  let mine := s.ssm.waiting
  let s := { s with ssm := { s.ssm with words := [], poison := [], pendingWb := [], waking := [],
                                        waiting := [], wiping := false } }
  let s := (s.wr (kSsmBankstat 0) 0).wr (kSsmBankstat 1) 0
  s.each mine State.ssmPerform

/-! ### Accesses of many words (R482–R488, R402) -/

/-- The words of a range: offset and length, none crossing an aligned 8-byte word (R483). -/
def wordPieces (fuel off len : Nat) : List (Nat × Nat) :=
  match fuel with
  | 0 => []
  | f + 1 =>
    if len = 0 then []
    else
      let n := min len (8 - off % 8)
      (off, n) :: wordPieces f (off + n) (len - n)

/-- Whether every bank of a range is ON; those that are not begin to wake (R491, R492). -/
def State.ssmReady (s : State) (off len : Nat) : Bool × State :=
  if s.ssm.wiping then (false, s)
  else
    let bs := (wordPieces (len / 8 + 2) off len).map (fun p => ssmBank p.1)
    (bs.all (fun b => decide (s.bankState b = 0)), s.each (bs.filter (fun b => s.bankState b ≠ 0)) State.ssmWake)

/-- One word access of a port at its bank: a service core's, or the DMA port's for the service firmware, which is
Daylight (R402). -/
def State.ssmOne (s : State) (sp : Option Nat) (off size : Nat) (write : Bool) (data : Nat) (amo : Option AmoOp) : (Word × Bool) × State :=
  let a : ScratchAccess := { sp := sp, offset := off, size := size, write := write, data := BitVec.ofNat 64 data,
                             amo := amo, dark := decide (sp = some 0), waited := 0, rivals := [], uncorrectable := false, corrected := none }
  (s.ssmTurn a).ssmServe a

/-- A read of scratch memory by a port, word by word; none while it waits. -/
def State.ssmLoad (s : State) (sp : Option Nat) (off len : Nat) : Option (List Byte × Bool) × State :=
  match s.ssmReady off len with
  | (false, s) => (none, s)
  | (true, s) =>
    let r := (wordPieces (len / 8 + 2) off len).foldl (fun (a : (List Byte × Bool) × State) p =>
      let x := a.2.ssmOne sp p.1 p.2 false 0 none
      ((a.1.1 ++ leBytes p.2 x.1.1.toNat, a.1.2 || x.1.2), x.2)) (([], false), s)
    (some r.1, r.2)

/-- A write of scratch memory by a port; `false`: it waits. -/
def State.ssmStore (s : State) (sp : Option Nat) (off : Nat) (bytes : List Byte) : Bool × State :=
  match s.ssmReady off bytes.length with
  | (false, s) => (false, s)
  | (true, s) =>
    (true, (wordPieces (bytes.length / 8 + 2) off bytes.length).foldl (fun s p =>
      (s.ssmOne sp p.1 p.2 true (leNat (sliceB bytes (p.1 - off) p.2)) none).2) s)

-- EXEC: SCRATCH_ACCESS CORRECTED_WORD_WRITEBACK BANK_RETENTION_ENTRY BANK_WAKE
/-- SCRATCH_ACCESS (R487): the effect of a well-formed command. -/
def execScratchAccess (a : ScratchAccess) (s : State) : Res := runs a.wf (scratchAccessRun a) s

/-- CORRECTED_WORD_WRITEBACK (R485): the effect of a well-formed command. -/
def execCorrectedWordWriteback (off : Nat) (s : State) : Res :=
  runs (decide (off < 33554432 ∧ off % 8 = 0)) (correctedWordWritebackRun off) s

/-- BANK_RETENTION_ENTRY (R492): the effect of a well-formed command. -/
def execBankRetentionEntry (bank : Nat) (s : State) : Res :=
  runs (decide (bank < 64)) (bankRetentionEntryRun bank) s

/-- BANK_WAKE (R492): the effect of a well-formed command. -/
def execBankWake (bank : Nat) (s : State) : Res := runs (decide (bank < 64)) (bankWakeRun bank) s
-- END EXEC

end Sys2Proof.Machine
end

