-- ==== Sys2Proof/Machine/Home.lean ====
section
/-! DEFINITION.
The home agents and their directory (spec/06): requests, snoops, grants, evictions, waiting and
parked requests, the timers, domain-down and lost agents.  A request of an agent outside the model's
cores is a sequence of commands (request, snoop answers, CmpAck); a core, a device or an engine of
this package uses `homeSync`, which performs the same steps at once where every snooped agent is in
this package (log 22).  A slice is the proxy of the lines of other sockets (R178, R198, R199). -/

namespace Sys2Proof.Machine

/-! ### Directory entries -/

/-- The home slice of a line. -/
def lineSlice (line : Nat) : Nat := haSlice (line * 64)

/-- The first directory key of a line's set (R180). -/
def dirBase (line : Nat) : Nat := (lineSlice line * 32768 + dirSet (line * 64)) * 16

/-- The directory entry of a line, with its key. -/
def State.dirFind (s : State) (line : Nat) : Option (Nat × DirEnt) :=
  s.home.dir.find? (fun p => p.2.line = line)

/-- Write or remove the entry at a key. -/
def State.dirPut (s : State) (k : Nat) (e : Option DirEnt) : State :=
  let d := match e with
    | some x => SMap.set s.home.dir k x
    | none => SMap.del s.home.dir k
  { s with home := { s.home with dir := d } }

/-- One bit of a sharer vector. -/
def agentBit (a : Nat) : BitVec 32 := BitVec.ofNat 32 (2 ^ a)
/-- The agents of a vector. -/
def agentsOf (v : BitVec 32) : List Nat := (List.range 17).filter (fun a => v.getLsbD a)

/-- The owner of an entry. -/
def DirEnt.own (e : DirEnt) : Option Nat := match e.st with
  | .s => none
  | _ => some e.owner

/-- Every agent that an entry lists. -/
def DirEnt.listed (e : DirEnt) : List Nat :=
  agentsOf (match e.own with | some o => e.sharers ||| agentBit o | none => e.sharers)

/-- The ways of a directory set that lines of a world may occupy (R453). -/
def State.dirWays (s : State) (dark : Bool) : List Nat :=
  if s.fon kWldSeal fWldSeal_ACTIVE then (if dark then [0, 1, 2, 3] else (List.range 16).drop 4)
  else List.range 16

/-- The most request transactions a world may hold in a slice (R191, R453). -/
def State.transLimit (s : State) (dark : Bool) : Nat :=
  if s.fon kWldSeal fWldSeal_ACTIVE then (if dark then 32 else 208) else 240

/-! ### Transactions -/

/-- The open transaction on a line. -/
def State.transOf (s : State) (line : Nat) : Option Trans :=
  (s.slice (lineSlice line)).trans.find? (fun t => t.req.line = line)

/-- Store a transaction in its slice, or add it. -/
def State.putTrans (s : State) (t : Trans) : State :=
  let n := lineSlice t.req.line
  let x := s.slice n
  let l := if x.trans.any (fun u => u.req.line = t.req.line) then
      x.trans.map fun (u : Trans) => if u.req.line = t.req.line then t else u
    else x.trans ++ [t]
  s.setSlice n { x with trans := l }

/-- Remove the transaction on a line: nothing of it waits for media any more (R258). -/
def State.delTrans (s : State) (line : Nat) : State :=
  let n := lineSlice line
  let x := s.slice n
  (s.setSlice n { x with trans := x.trans.filter (fun u => u.req.line ≠ line) }).fed line

/-- A transaction as it opens. -/
def Trans.fresh (p : Pend) : Trans :=
  { kind := p.kind, req := p.req, await := [], snp := .i, data := none, keep := 0, wb := false, hold := .none,
    lost := false, poisoned := false, removed := false, contended := false, evFrom := none, granted := false,
    mem := none, fabric := false, old := none, dropped := false, mode := p.mode }

/-- A request as it arrives. -/
def Pend.fresh (k : ReqKind) (r : HomeReq) (m : ReqMode) : Pend := ⟨k, r, m, none⟩
/-- The request of a transaction. -/
def Trans.pend (t : Trans) : Pend := ⟨t.kind, t.req, t.mode, none⟩

/-- Advance a counter of a slice's HA or DIR block. -/
def State.evtHa (s : State) (line : Nat) (dark : Bool) (i : Nat) : State := s.evtW dark (0x80 + lineSlice line) i
def State.evtDir (s : State) (line : Nat) (dark : Bool) (i : Nat) : State := s.evtW dark (0xA0 + lineSlice line) i

/-- What kind of memory a line is. -/
inductive LineKind where
  | tiered | fabric | remote (socket : Nat) | other (mapped : Bool)
  deriving DecidableEq, Repr

/-- The kind of a line, by the memory map (R178, R469). -/
def State.lineKind (s : State) (line : Nat) : LineKind :=
  match s.mapOf (line * 64) with
  | some m => if m.kind = 0 then .tiered else if m.kind = 5 then .fabric
      else if m.kind = 7 then .remote m.socket else .other true
  | none => .other false

/-- The request form of an eviction or of the home's own work on a line. -/
def evReq (agent line key : Nat) : HomeReq where
  agent := agent
  core := 216
  line := line
  key := key
  dark := true
  spec := false
  rt := false
  forStore := false
  src := 0
  srcAgent := 0
  data := 0
  mask := 0
  poison := false
  op := .swap
  offset := 0
  size := 0
  operand := 0
  compare := 0
  posted := false

/-- The grant of a request that is refused or reaches no memory: a line of zeros that no cache
keeps (R99, R290, R426). -/
def refusedGrant (r : HomeReq) (poison dark : Bool) : GrantMsg where
  core := r.core
  line := r.line
  m := false
  e := false
  data := some 0
  poison := poison
  noFill := true
  dark := dark
  key := r.key
  shared := false

/-! ### Memory -/

/-- The access of the Enlarger that a request makes. -/
def reqAccess (r : HomeReq) (write : Bool) (data : Line) (poison : Bool) : TierAccess :=
  { line := r.line, key := r.key, dark := r.dark, spec := r.spec, rt := r.rt, write := write,
    data := data, poison := poison }

/-- The requesting core, for the acknowledgements that a fabric-scope FENCE awaits (R94). -/
def reqBy (r : HomeReq) : Option Nat := if r.src = 1 ∨ r.src = 2 then some r.core else none

/-- Write a line to its home's memory: tiered memory or a fabric endpoint; `false`: it waits. -/
def State.homeWrite (s : State) (r : HomeReq) (key : Nat) (dark : Bool) (data : Line) (poison : Bool) : Bool × State :=
  match s.lineKind r.line with
  | .tiered =>
    let a : TierAccess := { line := r.line, key := key, dark := dark, spec := false, rt := r.rt,
                            write := true, data := data, poison := poison }
    match s.enlWrite a with
    | (.wait, s) => (false, s)
    | (_, s) => (true, s)
  | .fabric => (true, (s.fabIssue (r.line * 64) true false false false (reqBy r) data (BitVec.allOnes 64) poison).2)
  | _ => (true, s)

/-- The world under which a write-back is checked: it was written under its key ID already, so only
ABSENT can refuse it (log 21). -/
def State.wbDark (s : State) (line key : Nat) : Bool := s.isDark (line * 64) || (s.ctx key).dark

/-- What reading a line at its home found. -/
inductive MemRes where
  | wait
  | deferred
  | line (data : Line) (poison noFill : Bool)
  deriving DecidableEq, Repr

/-- Record an access that lies in no tiered memory, fabric window or remote memory (R99). -/
def State.unmapped (s : State) (line : Nat) (mapped dark : Bool) : State :=
  s.raise { cls := 0, kind := if mapped then 0x45 else 0x46, hpa := some (line * 64), dark := dark, counts := false }

/-- Read a line at its home; a fabric read leaves the transaction waiting for its endpoint. -/
def State.homeRead (s : State) (t : Trans) (asWrite : Bool) : MemRes × State :=
  let r := t.req
  match s.lineKind r.line with
  | .tiered => match t.mem with
    | some (d, p) => (.line d p false, s)
    | none => match s.enlRead (reqAccess r false 0 false) asWrite with
      | (.wait, s) => (.wait, s)
      | (.deferred, s) => (.deferred, s)
      | (.line d p n, s) => (.line d p n, s)
  | .fabric => match t.mem with
    | some (d, p) => (.line d p false, s)
    | none =>
      if t.fabric then (.wait, s)
      else match s.fabIssue (r.line * 64) false (decide (t.kind = .atf)) false true (reqBy r) 0 0 false with
        | (some _, s) => (.wait, s.putTrans { t with fabric := true })
        | (none, s) => (.line 0 true false, s)
  | .remote _ => (.line 0 true true, s)
  | .other m => (.line 0 false true, s.unmapped r.line m r.dark)

/-! ### Finishing a transaction (Table 6-5) -/

/-- The request may count heat (R259). -/
def heatKind (k : ReqKind) : Bool := match k with
  | .rds | .rdo | .upg => true
  | _ => false
/-- Count a demand miss of a die or of the service cores for which the home has read the line (R259). -/
def State.heat (s : State) (t : Trans) (noFill : Bool) : State :=
  let io := match t.kind with
    | .rdc | .wrf | .wrp | .atf => s.fon kEnlHeat fEnlHeat_IOEN
    | _ => false
  let local' := decide (t.req.agent < 12 ∨ t.req.agent = 16)
  if ((heatKind t.kind && local') || io) && !t.req.spec && !noFill && t.mem.isNone && decide (s.lineKind t.req.line = .tiered) then
    s.heatMiss (lineSlice t.req.line) t.req.line t.req.dark
  else s

/-- The entry after a transaction: no owner and no sharer is no entry. -/
def State.dirEnd (s : State) (line : Nat) (e : DirEnt) : State :=
  match s.dirFind line with
  | some (k, _) => s.dirPut k (if e.st = .s ∧ e.sharers = 0 ∧ !e.busy then none else some e)
  | none => s

/-- A grant closes the home's part: the entry stays busy until CmpAck (R188). A NOFILL line is kept
in no cache, so its requester is not listed (R290). -/
def State.grantEnd (s : State) (t : Trans) (e : DirEnt) (g : GrantMsg) : HomeAns × State :=
  let r := t.req
  let s := s.dirEnd r.line { e with busy := true, dark := s.isDark (r.line * 64) }
  (.granted g, s.putTrans { t with granted := true })

/-- The grant of a transaction. -/
def Trans.grantOf (t : Trans) (s : State) (m e : Bool) (data : Option Line) (poison noFill : Bool) (shared : Bool) : GrantMsg :=
  { core := t.req.core, line := t.req.line, m := m, e := e, data := data, poison := poison,
    noFill := noFill, dark := s.isDark (t.req.line * 64), key := t.req.key, shared := shared }

/-- An entry with no copy. -/
def DirEnt.none' (e : DirEnt) : DirEnt := { e with st := .s, owner := 0, sharers := 0, busy := false }

/-- A line that a lost owner leaves is written poisoned (R203, R208); `false`: it waits. -/
def State.writeLost (s : State) (r : HomeReq) : Bool × State :=
  let key := match s.lineKind r.line with
    | .tiered => (s.ent (r.line / 64)).fkey
    | _ => r.key
  s.homeWrite r key (s.wbDark r.line key) 0 true

/-- Whether a line has an open transaction or a busy entry (R191). -/
def State.lineHeld (s : State) (line : Nat) : Bool :=
  (s.transOf line).isSome ||
  (match s.dirFind line with | some (_, e) => e.busy | none => false)

/-- Remove lost agents from an entry, unless a transaction is open on its line (R208).  A line that one of them owned
is written poisoned; where this slice is a proxy, its home is sent the poisoned line. -/
def State.clearLost (s : State) (line : Nat) : State :=
  match s.dirFind line with
  | none => s
  | some (k, e) =>
    let gone := e.listed.filter (fun a => s.home.lost.contains a)
    if gone.isEmpty || (s.transOf line).isSome then s
    else
      let mask := gone.foldl (fun (m : BitVec 32) a => m ||| agentBit a) 0
      let own := match e.own with | some o => gone.contains o | none => false
      let e' := { e with sharers := e.sharers &&& ~~~ mask, st := if own then .s else e.st, owner := if own then 0 else e.owner }
      let s := (s.dirPut k (if e'.st = .s ∧ e'.sharers = 0 ∧ !e'.busy ∧ !own then none else some e')).evtDir line e.dark 6
      if !own then s
      else if e.proxy then
        let s := { s with home := { s.home with wbuf := s.home.wbuf ++ [(⟨e.owner, line, some 0, true, 0, e.dark, false, none⟩ : WbEnt)] } }
        s.dirEnd line e'
      else
        let p := Pend.fresh .evd { evReq e.owner line 0 with poison := true } .post
        match s.writeLost p.req with
        | (true, s) => s.dirEnd line e'
        | (false, s) => (s.dirEnd line { e' with busy := true }).putTrans { Trans.fresh p with lost := true }

/-- Close a transaction that grants nothing. -/
def State.closeEnd (s : State) (t : Trans) (e : Option DirEnt) (a : HomeAns) : HomeAns × State :=
  let s := match e with
    | some x => s.dirEnd t.req.line { x with busy := false }
    | none => match s.dirFind t.req.line with
      | some (k, _) => s.dirPut k none
      | none => s
  (a, (s.delTrans t.req.line).clearLost t.req.line)

/-- Note a far atomic in the slice's history and say whether it is contended (R112). -/
def State.farHistory (s : State) (r : HomeReq) (removed : Bool) : Bool × State :=
  let n := lineSlice r.line
  let x := s.slice n
  let c := removed || x.history.any (fun h => decide (h.1 = r.line ∧ h.2 ≠ (r.src, r.srcAgent)))
  let s := s.setSlice n { x with history := ((r.line, r.src, r.srcAgent) :: x.history).take 64 }
  (c, if c then s.evtHa r.line r.dark 7 else s)

/-- The poisoned write that a lost owner copy calls for, before the transaction goes on (R203, R207): a new line or a
zeroed one takes its place. -/
def State.lostFirst (s : State) (t : Trans) : Option Trans × State :=
  if !t.lost || t.poisoned || t.dropped || decide (t.kind = .wrf ∨ t.kind = .cmz) then (some t, s)
  else match s.writeLost t.req with
    | (false, s) => (none, s)
    | (true, s) =>
      let t := { t with poisoned := true }
      (some t, s.putTrans t)

/-- Finish a transaction whose snoops are answered, as Table 6-5 states; `.wait` leaves it open for
its memory. -/
def State.homeFinish (s : State) (t : Trans) : HomeAns × State :=
  match s.lostFirst t with
  | (none, s) => (.wait, s)
  | (some t, s) =>
  let r := t.req
  let e0 : DirEnt := match s.dirFind r.line with
    | some (_, e) => e
    | none => { line := r.line, st := .s, owner := 0, sharers := 0, proxy := false, busy := false, dark := false }
  let own := if t.lost then none else t.data
  let e := if t.lost then { e0 with st := .s, owner := 0 } else e0
  -- write the line, unless its memory timer has dropped the write
  let hw (s : State) (key : Nat) (dark : Bool) (d : Line) (p : Bool) : Bool × State :=
    if t.dropped then (true, s) else s.homeWrite r key dark d p
  -- read memory, or take the owner's data
  let source (asWrite : Bool) : MemRes × State := match own with
    | some (d, p, _) => (.line d p false, s)
    | none =>
      let m := s.homeRead t asWrite
      match m.1 with
      | .line _ _ n => (m.1, m.2.heat t n)
      | _ => m
  -- write back the owner's data under its own key ID
  let wback (s : State) : Bool × State := match own with
    | some (d, p, k) => hw s k (s.wbDark r.line k) d p
    | none => (true, s)
  let owned : DirEnt := { e.none' with st := .x, owner := r.agent }
  match t.kind with
  | .rds => match source false with
    | (.wait, s) => (.wait, s)
    | (.deferred, s) => s.closeEnd t (some e) .deferred
    | (.line d p nf, s) =>
      if nf then s.grantEnd t e (t.grantOf s false false (some d) p true t.removed)
      else
        let g := t.grantOf s false false (some d) p false t.removed
        let req := { e with sharers := e.sharers ||| agentBit r.agent }
        match e0.own with
        | none => if e.sharers = 0 then s.grantEnd t owned (t.grantOf s false true (some d) p false t.removed)
            else s.grantEnd t req g
        | some o =>
          if t.lost then s.grantEnd t req g
          else
            let ko := if t.keep.getLsbD o then agentBit o else 0
            match (if t.wb then wback s else (true, s)) with
            | (false, s) => (.wait, s)
            | (true, s) =>
              let stays := match e.st with
                | .o => !t.wb
                | _ => own.isSome && !t.wb
              if stays then s.grantEnd t { req with st := .o } g
              else s.grantEnd t { req with st := .s, owner := 0, sharers := req.sharers ||| ko } g
  | .rdo => match source r.forStore with
    | (.wait, s) => (.wait, s)
    | (.deferred, s) => s.closeEnd t (some e.none') .deferred
    | (.line d p nf, s) =>
      if nf then s.grantEnd t e.none' (t.grantOf s false false (some d) p true t.removed)
      else s.grantEnd t owned (t.grantOf s true false (some d) p false t.removed)
  | .upg =>
    if !e0.listed.contains r.agent then match source r.forStore with
      | (.wait, s) => (.wait, s)
      | (.deferred, s) => s.closeEnd t (some e.none') .deferred
      | (.line d p nf, s) =>
        if nf then s.grantEnd t e.none' (t.grantOf s false false (some d) p true t.removed)
        else s.grantEnd t owned (t.grantOf s true false (some d) p false t.removed)
    else s.grantEnd t owned (t.grantOf s true false (own.map (·.1)) (match own with | some (_, p, _) => p | none => false) false t.removed)
  | .cmz => s.grantEnd t owned (t.grantOf s true false none false false t.removed)
  | .rdc => match source false with
    | (.wait, s) => (.wait, s)
    | (.deferred, s) => s.closeEnd t (some e) .deferred
    | (.line d p nf, s) => match (if t.wb then wback s else (true, s)) with
      | (false, s) => (.wait, s)
      | (true, s) =>
        let e := if t.wb then match e.own with
            | some o => { e with st := .s, owner := 0, sharers := e.sharers ||| (if t.keep.getLsbD o then agentBit o else 0) }
            | none => e
          else e
        s.closeEnd t (some e) (.reply d p false nf)
  | .wrf => match hw s r.key r.dark r.data r.poison with
    | (false, s) => (.wait, s)
    | (true, s) => (s.heat t false).closeEnd t none .done
  | .wrp =>
    if r.mask = 0 then
      match own with
      | none => s.closeEnd t none .done
      | some (d, p, _) => match hw s r.key r.dark d p with
        | (false, s) => (.wait, s)
        | (true, s) => s.closeEnd t none .done
    else match own, s.lineKind r.line with
    | none, .fabric =>
      (s.fabIssue (r.line * 64) true false false false (reqBy r) r.data r.mask r.poison).2.closeEnd t none .done
    | _, _ => match source true with
      | (.wait, s) => (.wait, s)
      | (.deferred, s) => s.closeEnd t none .done
      | (.line d p nf, s) =>
        if nf then s.closeEnd t none .done
        else match hw s r.key r.dark (mergeLine d r.data r.mask) (p || r.poison) with
          | (false, s) => (.wait, s.putTrans { t with mem := some (d, p) })
          | (true, s) => s.closeEnd t none .done
  | .atf =>
    match t.old with
    | some (d, p) => if t.fabric then (.wait, s) else s.closeEnd t none (.reply d p t.contended false)
    | none => match source true with
      | (.wait, s) => (.wait, s)
      | (.deferred, s) => s.closeEnd t none .deferred
      | (.line d p nf, s) =>
        if nf then
          let zero := match s.lineKind r.line with | .other _ => true | _ => false
          s.closeEnd t none (.reply 0 (p && !zero) false true)
        else if p then
          match (match own with | some (d, p, _) => hw s r.key r.dark d p | none => (true, s)) with
          | (false, s) => (.wait, s)
          | (true, s) =>
            let s := if r.posted then s.deferredErr 0x75 (some (r.line * 64)) (some r.key) r.dark 0xFFFF else s
            s.closeEnd t none (.reply 0 true false false)
        else
          let old := lineField d r.offset r.size
          let new := lineSet d r.offset r.size (amoCompute r.op r.size old r.operand.toNat r.compare.toNat)
          match s.lineKind r.line with
          | .fabric =>
            let c := s.farHistory r t.removed
            match c.2.fabIssue (r.line * 64) true true true true (reqBy r) new (BitVec.allOnes 64) false with
            | (some _, s) => (.wait, s.putTrans { t with old := some (BitVec.ofNat 512 old, false), fabric := true, contended := c.1 })
            | (none, s) => s.closeEnd t none (.reply 0 true c.1 false)
          | _ => match hw s r.key r.dark new false with
            | (false, s) => (.wait, s.putTrans { t with mem := some (d, p) })
            | (true, s) =>
              let c := s.farHistory r t.removed
              c.2.closeEnd t none (.reply (BitVec.ofNat 512 old) false c.1 false)
  | .cmc => match wback s with
    | (false, s) => (.wait, s)
    | (true, s) => match e.st with
      | .x => s.closeEnd t (some (match t.hold with
          | .shared => { e with st := .s, owner := 0, sharers := agentBit e.owner }
          | .none => if t.wb then e.none' else e
          | .owned => e)) .done
      | .o =>
        let v := match t.hold with
          | .none => e.sharers
          | _ => e.sharers ||| agentBit e.owner
        s.closeEnd t (some { e with st := .s, owner := 0, sharers := v }) .done
      | .s => s.closeEnd t (some e) .done
  | .cmi | .cmci => match wback s with
    | (false, s) => (.wait, s)
    | (true, s) => s.closeEnd t none .done
  | .evict => match wback s with
    | (false, s) => (.wait, s)
    | (true, s) =>
      let s := s.evtDir r.line e0.dark 1
      (if own.isSome then s.evtDir r.line e0.dark 2 else s).closeEnd t none .done
  | .evc | .evd => match t.data with
    | none => s.closeEnd t (some e) .done
    | some (d, p, k) => match hw s k (s.wbDark r.line k || r.dark) d p with
      | (false, s) => (.wait, s)
      | (true, s) => s.closeEnd t (some e) .done

/-! ### Messages to and from agents (Table 6-6) -/

/-- Send a message of the home to an agent: a die over its Sceuc link, with its line as data where it carries one
(class 2 RSP, 1 SNP, 4 CTL), the service cores and other sockets directly (log 22). -/
def State.toAgent (s : State) (a cls : Nat) (d : Option Line) (o : Out) : State :=
  if a < 12 then match d with
    | some x => s.sendData ⟨true, a⟩ x o
    | none => s.lkMessage ⟨true, a⟩ cls 1 o
  else s.emit o

/-- Send a message of an agent of this package to the home (class 2 RSP). -/
def State.fromAgent (s : State) (a : Nat) (d : Option Line) (o : Out) : State :=
  if a < 12 then match d with
    | some x => s.sendData ⟨false, a⟩ x o
    | none => s.lkMessage ⟨false, a⟩ 2 1 o
  else s.emit o

/-! ### Snoop answers -/

/-- An owner copy's notice in the write-back buffer of an agent is settled: the oldest of its line. -/
def State.dropWb (s : State) (agent line : Nat) : State :=
  { s with home := { s.home with wbuf := s.home.wbuf.eraseP (fun (w : WbEnt) => decide (w.agent = agent) && decide (w.line = line)) } }

/-- The eviction credits of a slice that an agent uses (R190). -/
def State.evCredit (s : State) (line agent : Nat) : Nat := SMap.get (fun _ => 0) (s.slice (lineSlice line)).evUsed agent
def State.setCredit (s : State) (line agent n : Nat) : State :=
  let x := s.slice (lineSlice line)
  s.setSlice (lineSlice line) { x with evUsed := SMap.put (fun _ => 0) x.evUsed agent n }

/-- Take one snoop answer into its transaction (R184, R194, R195, R203): HOLD = NONE removes the agent from the sharer
vector.  A data answer that follows an eviction notice is discarded, and the notice is acknowledged once the answer is
in; the notice that follows an answer with WB = 1 is discarded when it comes. -/
def State.takeAnswer (s : State) (t : Trans) (agent : Nat) (a : SnoopAns) : Trans × State :=
  let line := t.req.line
  let own := match s.dirFind line with
    | some (_, e) => e.own
    | none => none
  let isOwn := decide (own = some agent)
  let t' := { t with
    await := t.await.filter (· ≠ agent),
    data := match t.data, a.data with
      | some d, _ => some d
      | none, some d => some (d, a.poison, a.key)
      | none, none => none,
    keep := if a.hold = .none then t.keep else t.keep ||| agentBit agent,
    wb := t.wb || (a.wb && (a.data.isSome || t.data.isSome)),
    hold := if isOwn then a.hold else t.hold,
    lost := t.lost || (a.lost && isOwn && !t.data.isSome),
    evFrom := if t.evFrom = some agent then none else t.evFrom }
  let s := if a.hold = .none then match s.dirFind line with
      | some (k, e) => s.dirPut k (some { e with sharers := e.sharers &&& ~~~ agentBit agent })
      | none => s
    else s
  let s := if t.evFrom = some agent then s.toAgent agent 2 none (.evAck agent line)
    else if a.wb then
      let x := s.slice (lineSlice line)
      (s.setSlice (lineSlice line) { x with crossed := x.crossed ++ [(agent, line)] }).evtHa line t.req.dark 9
    else s
  (t', s.putTrans t')

/-- Whether an agent of this package answers snoops itself (R181, R184): a die in service, or the
service cores. -/
def State.answers (s : State) (a : Nat) : Bool :=
  decide (a = 16) || (decide (a < 12) && !s.dieOut a && !s.home.lost.contains a)

/-- The snoops of a request: the agents and the kind (Table 6-5). -/
def snoopsOf (k : ReqKind) (r : HomeReq) (e : Option DirEnt) : List Nat × SnpKind :=
  match e with
  | none => ([], .i)
  | some e =>
    let own := match e.own with | some o => [o] | none => []
    match k with
    | .rds => (own, .s)
    | .rdc => (own, .cur)
    | .cmc => (own, .c)
    | .evc | .evd => ([], .i)
    | _ => if k = .upg ∧ e.st = .x ∧ e.owner = r.agent then ([r.agent], .i) else (e.listed, .i)

/-- EXCL of a snoop to the requesting agent: the core or service core that makes the request (R186). -/
def exclOf (r : HomeReq) (a : Nat) : Option Nat :=
  if decide (a = r.agent) && decide (r.src = 1 ∨ r.src = 2) then some r.core else none

/-- Whether a die has lost a cache that may have held a line: an L2, or the line's L3 slice (R203). -/
def State.cacheLost (s : State) (die line : Nat) : Bool :=
  s.home.lostL2.any (fun n => decide (n / 18 = die)) || s.home.lostL3.contains (l3Idx die line)

/-- Whether a die has lost the owner copy of a line: it is the owner, and no cache of it holds that copy or
sends it home (R203). -/
def State.ownLost (s : State) (die line : Nat) : Bool :=
  s.cacheLost die line && decide (s.dieHold die line ≠ .owned) &&
  !s.home.wbuf.any (fun w => decide (w.agent = die ∧ w.line = line)) &&
  (match s.dirFind line with | some (_, e) => decide (e.own = some die) | none => false)

/-- A die answers a snoop, with HOLD = NONE and the result LOST where the owner copy is lost (R184, R203). -/
def State.dieAnswer (s : State) (die : Nat) (k : SnpKind) (line : Nat) (excl : Option Nat) : SnoopAns × State :=
  let lost := s.ownLost die line
  let r := s.dieSnoop die (if lost then .i else k) line excl
  (if lost then { r.1 with hold := .none, lost := true } else r.1, r.2)

/-- Answer a snoop by an agent of this package. -/
def State.snoopAgent (s : State) (a : Nat) (k : SnpKind) (line : Nat) (excl : Option Nat) : SnoopAns × State :=
  if a = 16 then (if excl.isSome then (⟨.shared, false, none, false, 0, false⟩, s) else s.spSnoop k line)
  else s.dieAnswer a k line excl

/-- Answer every awaited snoop that an agent of this package can answer. -/
def State.answerLocal (s : State) (t : Trans) : Trans × State :=
  t.await.foldl (fun (p : Trans × State) a =>
    if p.2.answers a then
      let r := p.2.snoopAgent a p.1.snp p.1.req.line (exclOf p.1.req a)
      r.2.takeAnswer p.1 a r.1
    else p) (t, s)

/-- Send the snoops of a transaction that are awaited (R184, R186). -/
def State.sendSnoops (s : State) (t : Trans) : State :=
  t.await.foldl (fun s a => s.toAgent a 1 none (.snoop t.snp a t.req.line (exclOf t.req a))) s

/-! ### Opening a request -/

/-- The counts of a directory slice, which DIR_STAT shows. -/
def State.dirStat (s : State) (n : Nat) : Word :=
  let mine := s.home.dir.filter (fun p => p.1 / (32768 * 16) = n)
  let v := fDirStat_PROXY.put 0 (mine.filter (fun p => p.2.proxy)).length
  let v := fDirStat_VALID.put v (mine.filter (fun p => !p.2.proxy)).length
  let v := fDirStat_BUSY.put v (s.slice n).trans.length
  fDirStat_PARKED.put v (s.slice n).parked.length

/-- What the home finds before it opens a request. -/
inductive Admit where
  /-- nothing is left to do. -/
  | answer (a : HomeAns)
  /-- the line or the transaction entries are busy, or the parked queue is full (R191, R192). -/
  | busy
  /-- an entry for the line has to be found (R180). -/
  | place
  | go
  deriving DecidableEq, Repr

/-- The Darkroom check of the home (R426): what the requester of a refused request receives. -/
def State.darkRefusal (s : State) (k : ReqKind) (r : HomeReq) : Option (HomeAns × State) :=
  if r.dark || !s.ownDark (r.line * 64) then none
  else
    let poison (s : State) : HomeAns × State := (.granted (refusedGrant r true true), s)
    let refuse (w : Bool) : State := (s.wldRefuse w 0 r.src r.srcAgent r.line).evtHa r.line false 11
    let drop (s : State) : State := s.deferredErr 0x44 (some (r.line * 64)) (some r.key) true 0xFFFF
    match k with
    | .rds => some (if r.spec then (.deferred, s) else poison (refuse false))
    | .rdc => some (if r.spec then (.deferred, s) else (.reply 0 true false true, refuse false))
    | .rdo | .upg => some (if r.spec then (.deferred, s)
        else if r.forStore then poison (drop (refuse true)) else poison (refuse false))
    | .cmz => some (.done, drop (refuse true))
    | .wrf | .wrp => some (.done, drop (refuse true))
    | .atf => some (.reply 0 true false true, drop (refuse true))
    | .cmc | .cmi | .cmci => some (.done, refuse false)
    | _ => none

/-- The request counters of a slice. -/
def haEvent : ReqKind → Option Nat
  | .rds => some 1 | .rdo => some 2 | .upg => some 3 | .rdc => some 4 | .wrf => some 5 | .wrp => some 5
  | .atf => some 6 | _ => none

/-- The requests for whose line an entry is allocated (R186). -/
def ReqKind.allocates : ReqKind → Bool
  | .rds | .rdo | .upg | .cmz => true
  | _ => false

/-- Whether a slice has no room for another request of a world: its transaction entries or its parked queue are full
(R191, R192, R453). -/
def State.sliceFull (s : State) (line : Nat) (dark : Bool) : Bool :=
  let x := s.slice (lineSlice line)
  decide ((x.trans.filter (fun (t : Trans) =>
    decide (t.kind ≠ .evict) && (t.req.dark == dark || !s.fon kWldSeal fWldSeal_ACTIVE))).length ≥ s.transLimit dark) ||
  decide (x.parked.length ≥ 32)

/-- Whether an older request for a line waits at its slice (R191). -/
def State.olderWaits (s : State) (line : Nat) : Bool :=
  let x := s.slice (lineSlice line)
  (x.waiting ++ x.parked).any (fun q => q.req.line = line)

/-- The checks before a request of the home opens (R178, R191, R192, R201, R205, R426); `fresh`: it has just come. -/
def State.homeAdmit (s : State) (k : ReqKind) (r : HomeReq) (fresh : Bool) : Admit × State :=
  if s.down then (.answer .wait, s)
  else match s.darkRefusal k r with
    | some (a, s) => (.answer a, match haEvent k with | some i => s.evtHa r.line r.dark i | none => s)
    | none =>
      match s.lineKind r.line with
      | .other m =>
        let fill := match k with
          | .rds | .rdo | .upg => true
          | _ => false
        let s := s.unmapped r.line m r.dark
        if fill then (.answer (.granted (refusedGrant r false false)), s)
        else (.answer (match k with | .rdc | .atf => .reply 0 false false true | _ => .done), s)
      | _ =>
        if s.lineHeld r.line || (fresh && s.olderWaits r.line) then (.busy, s)
        else if r.spec && decide (s.lineKind r.line = .tiered) &&
            ((s.keyRefusal r.key r.dark).isSome || decide ((s.ent (r.line / 64)).tier = 2)) then
          (.answer .deferred, (if (s.keyRefusal r.key r.dark).isSome then s else s.evtW r.dark 0x50 24).evtHa r.line r.dark 10)
        else if s.sliceFull r.line r.dark then (.busy, s)
        else if k.allocates && (s.dirFind r.line).isNone then (.place, s)
        else (.go, s)

/-- Start a transaction: its entry is busy and its snoops are due.  A lost agent is not snooped: it answers as R207
states (R208). -/
def State.begin' (s : State) (p : Pend) : Trans × State :=
  let r := p.req
  let ent := s.dirFind r.line
  let sn := snoopsOf p.kind r (ent.map (·.2))
  let gone (a : Nat) : Bool := s.home.lost.contains a
  let listed := match ent with | some (_, e) => e.listed | none => []
  let t := { Trans.fresh p with await := sn.1.filter (fun a => !gone a), snp := sn.2,
                                removed := listed.any (fun a => decide (a ≠ r.agent)),
                                lost := match ent with
                                  | some (_, e) => (match e.own with | some o => gone o | none => false)
                                  | none => false }
  let s := match ent with
    | some (key, e) =>
      let mask := (listed.filter gone).foldl (fun (m : BitVec 32) a => m ||| agentBit a) 0
      s.dirPut key (some { e with busy := true, sharers := e.sharers &&& ~~~ mask })
    | none => s
  let s := if listed.any gone then s.evtDir r.line r.dark 6 else s
  let s := (s.evtBy 15 (0x80 + lineSlice r.line) 8 (if r.dark && !s.drCount then 0 else t.await.length))
  let s := match haEvent p.kind with | some i => s.evtHa r.line r.dark i | none => s
  let s := if r.rt then s.evtHa r.line r.dark 13 else s
  (t, s.putTrans t)

/-- Place an entry for a line in a free way (R180). -/
def State.dirPlace (s : State) (line way : Nat) (proxy dark : Bool) : State :=
  let e : DirEnt := { line := line, st := .s, owner := 0, sharers := 0, proxy := proxy, busy := false, dark := dark }
  (s.dirPut (dirBase line + way) (some e)).evtDir line dark (if proxy then 3 else 0)

/-- A proxy entry is evicted: local copies go, and an owner copy goes home with EvD, or with EvC where it is clean
(R199). -/
def State.proxyEvict (s : State) (k : Nat) (e : DirEnt) : State :=
  let s := e.listed.foldl (fun s a => if s.answers a then
      let p := s.snoopAgent a .i e.line none
      if p.1.data.isSome || decide (e.own = some a ∧ e.st = .x) then
        { p.2 with home := { p.2.home with wbuf := p.2.home.wbuf ++
          (if p.1.wb then [] else [⟨a, e.line, p.1.data, p.1.poison, p.1.key, e.dark, false, none⟩]) } }
      else p.2
    else s) s
  s.dirPut k none

/-- The copies of an entry are removed with SnpI, owner data is written, and the entry goes once every agent has
answered (R193, R203). -/
def State.dirEvict (s : State) (e : DirEnt) : State :=
  let p := s.begin' (.fresh .evict { evReq 16 e.line 0 with dark := e.dark } .post)
  let p := p.2.answerLocal p.1
  if p.1.await.isEmpty then (p.2.homeFinish p.1).2 else p.2.sendSnoops p.1

/-- What the search for a directory way found. -/
inductive Room where
  | way (w : Nat)
  /-- the victim at this key is being evicted. -/
  | evicting (k : Nat)
  | full
  deriving DecidableEq, Repr

/-- The keys of a slice's ways whose victims are evicted for a waiting request (R192). -/
def Slice.victims (x : Slice) : List Nat := (x.waiting ++ x.parked).filterMap (·.victim)

/-- Make room for a line in its directory set (R192, R193): the way whose victim was evicted for the request, a free
way, or a victim; none while every way is busy or the 16 entries for evictions are in use (R191). -/
def State.dirRoom (s : State) (line : Nat) (dark : Bool) (victim : Option Nat) : Room × State :=
  let b := dirBase line
  let n := lineSlice line
  let ways := s.dirWays dark
  let at' (s : State) (w : Nat) : Option DirEnt := SMap.find s.home.dir (b + w)
  let kept := (s.slice n).victims
  match victim with
  | some k => if (SMap.find s.home.dir k).isNone then (.way (k - b), s) else (.evicting k, s)
  | none => match ways.find? (fun w => (at' s w).isNone && !kept.contains (b + w)) with
    | some w => (.way w, s)
    | none =>
      let free := ways.filter (fun w => match at' s w with
        | some e => !e.busy && (s.transOf e.line).isNone && !kept.contains (b + w)
        | none => false)
      if free.isEmpty || decide (((s.slice n).trans.filter (fun (t : Trans) => decide (t.kind = .evict))).length ≥ 16) then (.full, s)
      else
        let st := lfsrStep (s.rd (kDirLfsr n)).toNat
        let s := s.wr (kDirLfsr n) (BitVec.ofNat 64 st)
        match nextWay (st % 16) free with
        | none => (.full, s)
        | some w => match at' s w with
          | none => (.way w, s)
          | some e =>
            if e.proxy then (.way w, s.proxyEvict (b + w) e)
            else
              let s := s.dirEvict e
              (if (SMap.find s.home.dir (b + w)).isNone then .way w else .evicting (b + w), s)

/-! ### Results of transactions -/

/-- The agent of a core (Table 6-1). -/
def coreAgent (n : Nat) : Nat := if n < 216 then n / 18 else 16

/-- Install a grant in the requester's caches: a line granted with data is filled into its L2, and
an S fill of a demand request also into the L3 (R154, R182); one granted without data keeps the data it has (R187).
A line of zeros goes to the L1D in state M (R171). -/
def State.install (s : State) (g : GrantMsg) (zero spec : Bool) : State :=
  if g.noFill then s
  else
    let st : CSt := if g.m then .m else if g.e then .e else .s
    let data := if zero then some 0 else g.data
    if g.core ≥ 216 then
      match data with
      | some d => { s with spCache := SMap.set s.spCache g.line ⟨g.line, st, d, g.poison, g.key, g.dark⟩ }
      | none => match SMap.find s.spCache g.line with
        | some l => { s with spCache := SMap.set s.spCache g.line { l with st := st } }
        | none => s
    else match data with
      | some d =>
        let l : CLine := ⟨g.line, st, d, g.poison, g.key, g.dark⟩
        let s := s.setCaches g.core ((s.core g.core).caches.dropUpper g.line)
        let s := s.l2Fill g.core l
        let s := if zero && ((s.core g.core).caches.l2Find g.line).isSome then s.l1Fill g.core ⟨g.line, d, g.poison, true, g.key, g.dark⟩ else s
        if st = .s && !spec then s.l3Alloc g.core l else s
      | none => match (s.core g.core).caches.l2Find g.line with
        | some (k, l) =>
          let c := (s.core g.core).caches
          s.setCaches g.core (({ c with l2 := SMap.set c.l2 k { l with st := st } }).touchL2 k)
        | none => s

/-- Release the entry of a granting transaction (R188). -/
def State.release (s : State) (line : Nat) : State :=
  let s := s.delTrans line
  let s : State := match s.dirFind line with
    | some (k, e) => s.dirPut k (if e.st = .s ∧ e.sharers = 0 then none else some { e with busy := false })
    | none => s
  s.clearLost line

/-- A Def reply reaches a core: its access is reissued as a demand request once it is no longer speculative (R117, R201). -/
def State.noteDeferred (s : State) (core line key : Nat) : State :=
  let c := s.core core
  (s.setCore core { c with
    deferred := (c.deferred.filter (fun p => p.1 ≠ line)) ++ [(line, key)],
    caches := { c.caches with misses := c.caches.misses.filter (fun m => m.line ≠ line) } }).evtC core 0 10

/-- Keep an answer until its requester takes it. -/
def State.holdAns (s : State) (p : Pend) (a : HomeAns) : State :=
  { s with home := { s.home with replies := s.home.replies ++ [⟨p.kind, p.req, a⟩] } }

/-- The miss entry that a request of a core opened closes: whether maintenance has marked it (R175). -/
def State.missDone (s : State) (p : Pend) : Bool × State :=
  if !(p.kind.allocates && decide (p.req.src = 1 ∨ p.req.src = 2)) then (false, s)
  else
    let n := p.req.core
    let c := (s.core n).caches
    (c.misses.any (fun m => decide (m.line = p.req.line) && m.maint),
      s.setCaches n { c with misses := c.misses.filter (fun m => m.line ≠ p.req.line) })

/-- A near atomic that waits for a line learns whether the request that obtained it found another copy (R111). -/
def State.noteShared (s : State) (g : GrantMsg) : State :=
  let c := s.core g.core
  match c.nearTry with
  | some (l, b) => if l = g.line then s.setCore g.core { c with nearTry := some (l, b || g.shared) } else s
  | none => s

/-- Take a grant into the requester inside the package: its miss entry closes, a fill that maintenance has marked is
discarded (R175), a refused line is told the requester. -/
def State.takeGrant (s : State) (p : Pend) (g : GrantMsg) : State :=
  let m := s.missDone p
  let s := m.2
  if g.noFill then (if p.mode = .held ∧ !p.req.spec then s.holdAns p (.granted g) else s)
  else (if m.1 then s else s.install g (decide (p.kind = .cmz)) p.req.spec).noteShared g

/-- Forget one outstanding request. -/
def State.dropAsked (s : State) (p : Pend) : State :=
  { s with home := { s.home with asked := s.home.asked.erase p } }

/-- Deliver the result of a request that did not end at once: by message, or to a requester inside the package.  A
grant to a lost agent ends its transaction, since its CmpAck will not come (R207); a die that is out of service takes
nothing (R535). -/
def State.deliver (s : State) (p : Pend) (a : HomeAns) : State :=
  let r := p.req
  match p.mode, a with
  | _, .wait => s
  | .msg, .granted g =>
    if s.home.lost.contains r.agent then s.release r.line
    else s.toAgent r.agent 2 g.data (.grant g)
  | _, .granted g =>
    if s.home.lost.contains r.agent then s.release r.line
    else if decide (r.agent < 12) && s.dieOut r.agent then s
    else (s.takeGrant p g).release r.line
  | .post, _ => (s.missDone p).2
  | .port d, .reply l q _ _ =>
    let v : Line := if p.kind = .atf then l else BitVec.ofNat 512 (lineField l r.offset r.size)
    s.emit (.completion d.group d.port d.rid v q 0)
  | .port _, _ => s
  | .held, .deferred => if r.core < 216 ∧ r.src = 1 then (s.missDone p).2.noteDeferred r.core r.line r.key else s
  | .held, a => s.holdAns p a
  | .msg, .reply d q c _ => (s.dropAsked p).toAgent r.agent 2 (some d) (.reply r.agent r.line d q c)
  | .msg, .deferred => s.toAgent r.agent 2 none (.defr r.core r.line)
  | .msg, .done => (s.dropAsked p).toAgent r.agent 2 none (.reply r.agent r.line 0 false false)

/-- Finish a transaction if nothing is awaited any more. -/
def State.settle (s : State) (t : Trans) : State :=
  if t.await.isEmpty && !t.granted then
    let p := s.homeFinish t
    match p.1 with
    | .wait => p.2
    | a => p.2.deliver t.pend a
  else s

/-- What became of a request. -/
inductive Start where
  | ans (a : HomeAns)
  | opened
  /-- it waits, for the victim at a key if one is named. -/
  | wait (victim : Option Nat)
  | park
  deriving DecidableEq, Repr

/-- Open a transaction: the agents of this package answer a request made inside it at once; the others are sent their
snoops. -/
def State.openTrans (s : State) (p : Pend) : Start × State :=
  let q := s.begin' p
  let q := if p.mode = .msg then q else q.2.answerLocal q.1
  let s := q.2.sendSnoops q.1
  if q.1.await.isEmpty then
    let f := s.homeFinish q.1
    match f.1 with
    | .wait => (.opened, f.2)
    | a => (.ans a, f.2)
  else (.opened, s)

/-- Take up a request at its home (R186, R191, R192). -/
def State.homeStart (s : State) (p : Pend) (fresh : Bool) : Start × State :=
  let r := p.req
  match s.homeAdmit p.kind r fresh with
  | (.answer a, s) => (.ans a, s)
  | (.busy, s) => (.wait p.victim, s)
  | (.place, s) => match s.dirRoom r.line r.dark p.victim with
    | (.way w, s) => (s.dirPlace r.line w false (s.isDark (r.line * 64))).openTrans p
    | (.evicting k, s) => (.wait (some k), s)
    | (.full, s) => (.park, s)
  | (.go, s) => s.openTrans p

/-- Take up a request at the proxy of its line's home (R178, R198, R199): a fill has its entry first, busy until the
grant. -/
def State.proxyStart (s : State) (j : Nat) (p : Pend) (fresh : Bool) : Start × State :=
  let r := p.req
  let send (s : State) : Start × State :=
    let s := if p.mode = .msg then s else { s with home := { s.home with asked := s.home.asked ++ [p] } }
    let s := if p.kind.allocates then match s.dirFind r.line with
        | some (k, e) => s.dirPut k (some { e with busy := true })
        | none => s
      else s
    (.opened, s.emit (.forward j p.kind r))
  if s.down then (.ans .wait, s)
  else if s.isDark (r.line * 64) && !r.dark && r.spec then (.ans .deferred, s)
  else if s.lineHeld r.line || (fresh && s.olderWaits r.line) || decide ((s.slice (lineSlice r.line)).parked.length ≥ 32) then
    (.wait p.victim, s)
  else if p.kind.allocates && (s.dirFind r.line).isNone then match s.dirRoom r.line r.dark p.victim with
    | (.way w, s) => send (s.dirPlace r.line w true r.dark)
    | (.evicting k, s) => (.wait (some k), s)
    | (.full, s) => (.park, s)
  else send s

/-- Take up a request at the slice of its line. -/
def State.start (s : State) (p : Pend) (fresh : Bool) : Start × State :=
  match s.lineKind p.req.line with
  | .remote j => s.proxyStart j p fresh
  | _ => s.homeStart p fresh

/-- Queue a request that waits or is parked (R191, R192). -/
def State.enqueue (s : State) (p : Pend) (victim : Option Nat) (park : Bool) : State :=
  let n := lineSlice p.req.line
  let x := s.slice n
  let p := { p with victim := victim }
  if park then (s.setSlice n { x with parked := x.parked ++ [p] }).evtDir p.req.line p.req.dark 5
  else s.setSlice n { x with waiting := x.waiting ++ [p] }

/-- A request arrives at a slice as a message, or of a requester that does not wait for it (R186, R191, R192). -/
def State.homeOpen (s : State) (p : Pend) : State :=
  match s.start p true with
  | (.ans a, s) => s.deliver p a
  | (.opened, s) => s
  | (.wait v, s) => s.enqueue p v false
  | (.park, s) => s.enqueue p none true

/-! ### Evictions -/

/-- Whether a die keeps no line: it is in DS3, or its drained caches do not come back (R505, R533). -/
def State.dieEmptied (s : State) (d : Nat) : Bool :=
  decide (d < 12) && (decide (s.fget (kPwrDstat d) fPwrDstat_DSTATE = 2) || (s.unit d 0xFF).started || s.dieOut d)

/-- The sharer bit that a home keeps for an agent whose owner copy has left it: S copies may remain there (R183). -/
def State.keptBit (s : State) (a : Nat) : BitVec 32 := if s.dieEmptied a then 0 else agentBit a

/-- A die whose caches are drained is listed as a sharer of no line any more (R505, R533). -/
def State.dieDelist (s : State) (d : Nat) : State :=
  s.each s.home.dir fun s p =>
    let e : DirEnt := { p.2 with sharers := p.2.sharers &&& ~~~ agentBit d }
    if p.2.sharers &&& agentBit d = 0 then s
    else s.dirPut p.1 (if e.st = .s ∧ e.sharers = 0 ∧ !e.busy then none else some e)

/-- The home takes an eviction notice whose line has no other transaction (Table 6-5, R190): its data waits for memory
in the slice's write buffer, in a transaction of its own. -/
def State.takeEvict (s : State) (w : WbEnt) : State :=
  match s.dirFind w.line with
  | none => s
  | some (k, e) =>
    if e.own ≠ some w.agent then s
    else
      let e' := { e with st := .s, owner := 0, sharers := e.sharers ||| s.keptBit w.agent }
      let left (s : State) : State := s.dirPut k (if e'.sharers = 0 then none else some e')
      match w.data with
      | none => if e.st = .x then left s else s
      | some d =>
        if e.proxy then left s
        else
          let r := { evReq w.agent w.line w.key with dark := w.dark, poison := w.poison,
                                                     core := w.core.getD 216, src := if w.core.isSome then 1 else 0 }
          match s.homeWrite r w.key (s.wbDark w.line w.key || w.dark) d w.poison with
          | (true, s) => left s
          | (false, s) => (s.dirPut k (some { e' with busy := true })).putTrans
              { Trans.fresh (.fresh .evd r .post) with data := some (d, w.poison, w.key) }

/-- What became of an eviction notice. -/
inductive EvTake where
  /-- it is acknowledged now. -/
  | ack (s : State)
  /-- its data serves the open transaction, and EvAck follows the snoop answer. -/
  | served (s : State)
  /-- it waits for the transaction on its line. -/
  | wait
  /-- nothing expects it (R209). -/
  | stray

/-- An eviction notice has arrived (R183, R190, R194). -/
def State.evArrives (s : State) (w : WbEnt) : EvTake :=
  let n := lineSlice w.line
  let x := s.slice n
  let take := EvTake.ack (s.takeEvict w)
  if x.crossed.contains (w.agent, w.line) then .ack (s.setSlice n { x with crossed := x.crossed.erase (w.agent, w.line) })
  else match s.transOf w.line with
    | some t =>
      if t.await.contains w.agent then
        .served ((s.putTrans { t with evFrom := some w.agent, data := match t.data, w.data with
          | none, some d => some (d, w.poison, w.key)
          | y, _ => y }).evtHa w.line w.dark 9)
      else .wait
    | none => match s.dirFind w.line with
      | some (_, e) => if decide (e.own = some w.agent) && (w.data.isSome || decide (e.st = .x)) then take else .stray
      | none => .stray

/-- EvAck frees an agent's write-back buffer and returns its credit (R190, R194). -/
def State.evAcked (s : State) (agent line : Nat) : State :=
  (s.setCredit line agent (s.evCredit line agent - 1)).dropWb agent line

/-- The notices for the home of another socket that its slice has not acknowledged (R190). -/
def State.sentTo (s : State) (j n : Nat) : Nat :=
  (s.home.wbuf.filter (fun w => w.sent && decide (lineSlice w.line = n) && decide (s.lineKind w.line = .remote j))).length

/-- Send one eviction notice that waits in a write-back buffer, where its agent holds a credit of the slice (R190): a
local home takes it at once, a remote home is sent the notice. -/
def State.sendWb (s : State) (w : WbEnt) : State :=
  let mark (s : State) : State :=
    { s with home := { s.home with wbuf := s.home.wbuf.map fun (x : WbEnt) => if x = w then { x with sent := true } else x } }
  if w.sent then s
  else match s.lineKind w.line with
    | .remote j =>
      if s.sentTo j (lineSlice w.line) ≥ 2 then s
      else
        let k : ReqKind := if w.data.isSome then .evd else .evc
        let s := s.takeEvict w
        (mark s).emit (.forward j k { evReq w.agent w.line w.key with data := w.data.getD 0, poison := w.poison, dark := w.dark })
    | .other _ => s.dropWb w.agent w.line
    | _ =>
      if s.evCredit w.line w.agent ≥ 2 then s
      else match s.evArrives w with
        | .ack s => s.dropWb w.agent w.line
        | .served s => mark (s.setCredit w.line w.agent (s.evCredit w.line w.agent + 1))
        | .wait => s
        | .stray => s.dropWb w.agent w.line

/-- Take up an eviction notice that has arrived and waits for the transaction on its line. -/
def State.retryEv (s : State) (w : WbEnt) : State :=
  let done (s : State) : State :=
    ({ s with home := { s.home with evq := s.home.evq.erase w } }).toAgent w.agent 2 none (.evAck w.agent w.line)
  match s.evArrives w with
  | .ack s => done s
  | .served s => { s with home := { s.home with evq := s.home.evq.erase w } }
  | .wait => s
  | .stray => done s

/-- Take up the eviction notices that wait at the home and in write-back buffers. -/
def State.drainWb (s : State) : State :=
  if s.down then s
  else
    let s := s.home.evq.foldl State.retryEv s
    s.home.wbuf.foldl State.sendWb s

/-! ### Waiting requests -/

/-- Whether a waiting or parked request may be tried: its line is free, no older request for its line waits (a parked
one is older than any that waits), its victim is gone, and a parked one has a way that is not busy (R191, R192). -/
def State.mayResume (s : State) (parked : Bool) (l : List Pend) (i : Nat) (q : Pend) : Bool :=
  !s.lineHeld q.req.line &&
  !(l.take i ++ (if parked then [] else (s.slice (lineSlice q.req.line)).parked)).any (fun p => p.req.line = q.req.line) &&
  (match q.victim with | some k => (SMap.find s.home.dir k).isNone | none => true) &&
  (!parked || (s.dirFind q.req.line).isSome ||
    (s.dirWays q.req.dark).any (fun w => match SMap.find s.home.dir (dirBase q.req.line + w) with
      | some e => !e.busy
      | none => true))

/-- The place of the first waiting request that can open. -/
def State.resumable (s : State) (l : List Pend) (parked : Bool) : Option Nat :=
  (l.zipIdx.find? (fun p => s.mayResume parked l p.2 p.1)).map (·.2)

/-- Put a request back at its place in a queue. -/
def putBack (l : List Pend) (i : Nat) (p : Pend) : List Pend := l.take i ++ p :: l.drop i

/-- Try the request at a place of a slice's waiting or parked queue; one that still waits keeps its place. -/
def State.resumeAt (s : State) (n i : Nat) (parked : Bool) : State :=
  let x := s.slice n
  match (if parked then x.parked else x.waiting)[i]? with
  | none => s
  | some p =>
    let out := if parked then { x with parked := x.parked.eraseIdx i } else { x with waiting := x.waiting.eraseIdx i }
    let back (s : State) (p : Pend) : State :=
      let x := s.slice n
      s.setSlice n (if parked then { x with parked := putBack x.parked i p } else { x with waiting := putBack x.waiting i p })
    match (s.setSlice n out).start p false with
    | (.ans a, s) => s.deliver p a
    | (.opened, s) => s
    | (.wait v, s) => back s { p with victim := v }
    | (.park, s) => if parked then back s p else s.enqueue p none true

/-- The first transaction of a slice that waited only for its memory and can go on does so. -/
def State.retrySlice (s : State) (n : Nat) : Option State :=
  ((s.slice n).trans.filter (fun (t : Trans) => t.await.isEmpty && !t.granted && !t.fabric)).findSome? fun (t : Trans) =>
    let p := s.homeFinish t
    match p.1 with
    | .wait => none
    | a => some (p.2.deliver t.pend a)

/-- One request of a slice goes on: a transaction that waited for its memory, or the first waiting or parked request
that can open. -/
def State.resumeSlice (s : State) (n : Nat) : State :=
  match s.retrySlice n with
  | some s => s
  | none => match s.resumable (s.slice n).waiting false with
    | some i => s.resumeAt n i false
    | none => match s.resumable (s.slice n).parked true with
      | some i => s.resumeAt n i true
      | none => s

/-! ### Requests made inside the package -/

/-- The copy of a line that a core holds itself leaves its caches as an eviction, before the core makes an uncached
request for the line: the snoop of that request carries EXCL (R186, R196; log 22). -/
def State.leaveOwn (s : State) (n line : Nat) (dark : Bool) : State :=
  if n ≥ 216 then match SMap.find s.spCache line with
    | some l => if seen l dark then ({ s with spCache := SMap.del s.spCache line }).pushWb 16 l else s
    | none => s
  else
    let c := (s.core n).caches.merge line
    match c.l2Find line with
    | some (k, l) =>
      if seen l dark then
        let c := c.dropUpper line
        (s.setCaches n { c with l2 := SMap.del c.l2 k }).pushWb (n / 18) l
      else s
    | none => s

/-- The requests that hold no copy (R196, R197). -/
def ReqKind.uncached : ReqKind → Bool
  | .rdc | .wrf | .wrp | .atf => true
  | _ => false

/-- Whether a request is under way: queued, open or forwarded. -/
def State.underWay (s : State) (k : ReqKind) (r : HomeReq) : Bool :=
  let x := s.slice (lineSlice r.line)
  x.trans.any (fun t => decide (t.kind = k) && decide (t.req = r) && decide (t.mode = .held)) ||
  (x.waiting ++ x.parked ++ s.home.asked).any (fun p => decide (p.kind = k) && decide (p.req = r) && decide (p.mode = .held))

/-- The answer that is kept for a request, taken. -/
def State.takeHeld (s : State) (k : ReqKind) (r : HomeReq) : Option (HomeAns × State) :=
  (s.home.replies.find? (fun h => decide (h.kind = k) && decide (h.req = r))).map fun h =>
    (h.ans, { s with home := { s.home with replies := s.home.replies.erase h } })

/-- A request of a core, a service core, a device or an engine of this package, performed as far as
the agents of this package allow.  `.wait`: it is under way, and the requester tries again. -/
def State.homeSync (s : State) (k : ReqKind) (r : HomeReq) : HomeAns × State :=
  let s := (if k.uncached && decide (r.src = 1 ∨ r.src = 2) then s.leaveOwn r.core r.line r.dark else s).drainWb
  match s.takeHeld k r with
  | some p => p
  | none =>
    if s.underWay k r then
      let s := s.resumeSlice (lineSlice r.line)
      match s.takeHeld k r with
      | some p => p
      | none => (.wait, s)
    else
      let p := Pend.fresh k r .held
      match s.start p true with
      | (.ans (.granted g), s) => (.granted g, (((s.install g (decide (k = .cmz)) r.spec).noteShared g).release r.line).drainWb)
      | (.ans a, s) => (a, s.drainWb)
      | (.opened, s) => (.wait, s)
      | (.wait v, s) => (.wait, s.enqueue p v false)
      | (.park, s) => (.wait, s.enqueue p none true)

end Sys2Proof.Machine
end

