-- ==== Sys2Proof/Machine/Arrays.lean ====
section
/-! DEFINITION.
Errors that cache arrays detect (R164–R167, R203), errors of service cores (R534), and what a permanent way or
entry leaves behind (R532). -/

namespace Sys2Proof.Machine

/-- Every directory slice begins a sweep; one under way runs a further full pass (R203, R208). -/
def State.startSweep (s : State) : State :=
  (s.fput kHaGstat fHaGstat_SWEEP 1).each (List.range 32) fun s n =>
    let x := s.slice n
    s.setSlice n { x with passes := if x.passes = 0 then 1 else 2 }

/-! ### Where a line stands in an L1 structure -/

/-- The way or entry of an L1 structure that holds a line: 0 L1I, 1 L1D, 2 victim cache, 3 side buffer. -/
def CoreCaches.wayIn (c : CoreCaches) (str line : Nat) : Option Nat :=
  match str with
  | 0 => (c.l1i.find? (fun p => p.2.line = line)).map (·.1 % 16)
  | 1 => (c.l1d.find? (fun p => decide (p.2.tag = line / 2) && (p.2.sector line).isSome)).map (·.1 % 16)
  | 2 => c.vc.findIdx? (fun x => x.line = line)
  | _ => c.sbuf.findIdx? (fun x => x.line = line)

/-- Remove a line from one L1 structure. -/
def CoreCaches.dropIn (c : CoreCaches) (str line : Nat) : CoreCaches :=
  match str with
  | 0 => { c with l1i := c.l1i.filter (fun p => p.2.line ≠ line) }
  | 1 => { c.mapSectors line (fun _ => none) with vc := c.vc }
  | 2 => { c with vc := c.vc.filter (fun x => x.line ≠ line) }
  | _ => { c with sbuf := c.sbuf.filter (fun x => x.line ≠ line) }

/-- The sectors of one set of the L1D, or of that set in the victim cache or the side buffer. -/
def CoreCaches.sectorsIn (c : CoreCaches) (str set : Nat) : List Sector :=
  match str with
  | 1 => (c.l1d.filter (fun p => p.1 / 16 = set)).flatMap fun p =>
      (match p.2.s0 with | some x => [x] | none => []) ++ (match p.2.s1 with | some x => [x] | none => [])
  | 2 => c.vc.filter (fun x => l1dSet x.line = set)
  | _ => c.sbuf.filter (fun x => l1dSet x.line = set)

/-- Whether the L2 holds a line with write permission. -/
def CoreCaches.writable (c : CoreCaches) (line : Nat) : Bool :=
  match c.l2Find line with
  | some (_, l) => decide (l.st = .m ∨ l.st = .e)
  | none => false

/-- A sector whose data cannot be trusted goes, and the L2 marks its copy of the line poisoned, so that it leaves as
data with poison (R165, R166). -/
def CoreCaches.failSector (c : CoreCaches) (str line : Nat) : CoreCaches :=
  let c := c.dropIn str line
  match c.l2Find line with
  | some (k, l) => { c with l2 := SMap.set c.l2 k { l with poison := true, st := if l.st = .e then .m else l.st } }
  | none => c

/-! ### Disabled ways and entries (R532) -/

/-- A way or entry of an L1 structure is cleaned and invalidated. -/
def CoreCaches.clearL1 (c : CoreCaches) (str w : Nat) : CoreCaches :=
  match str with
  | 0 => { c with l1i := c.l1i.filter (fun p => p.1 % 16 ≠ w) }
  | 1 =>
    let gone := (c.l1d.filter (fun p => p.1 % 16 = w)).flatMap fun p => p.2.s0.toList ++ p.2.s1.toList
    gone.foldl CoreCaches.vcOut { c with l1d := c.l1d.filter (fun p => p.1 % 16 ≠ w) }
  | 2 => match c.vc[w]? with
    | some x => ({ c with vc := c.vc.eraseIdx w }).vcOut x
    | none => c
  | _ => { c with sbuf := c.sbuf.eraseIdx w }

/-- A way of an L2 is cleaned and invalidated: its lines are evicted. -/
def State.clearL2 (s : State) (n w : Nat) : State :=
  s.each ((s.core n).caches.l2.filter (fun p => p.1 % 16 = w)) fun s p => s.l2Evict n p.1

/-- A way of an L3 slice is cleaned and invalidated: its lines leave the die. -/
def State.clearL3 (s : State) (g w : Nat) : State :=
  let m := s.l3Of g
  (s.each (m.filter (fun p => p.1 % 16 = w)) fun s p => s.pushWb (g / 16) p.2).setL3 g (m.filter (fun p => p.1 % 16 ≠ w))

/-- Record an array error; a way or entry that became permanent by it is cleaned and invalidated (R532). -/
def State.arrayRec (s : State) (e : ErrIn) (f : State → State) : State :=
  let was := s.ras.perm.contains e.element
  let s := s.raise e
  if !was && s.ras.perm.contains e.element then f s else s

/-! ### Losing a core or a slice -/

/-- A core is lost by a Contained error: it stops, its caches are drained, its stop is recorded (R82, R202). -/
def State.coreFail (s : State) (n reason kind element : Nat) : State :=
  let dark := s.coreDark n
  let s := s.haltCore n reason
  let s := s.raise { cls := 2, kind := kind, element := element, agent := s.sysCore n, dark := dark, lost := true,
                     detail := (s.rd (kCoreStop n)).toNat }
  ((s.lose (n / 18) (n % 18) false).drainCore n).drainWb

/-! ### The errors -/

/-- Parity of a data word in an L1 structure: clean data is invalidated and fetched again, a dirty sector stops the
core (R164, R165). -/
def State.l1Data (s : State) (n str line : Nat) : State :=
  let c := (s.core n).caches
  match c.wayIn str line with
  | none => s
  | some w =>
    let el := elem (n / 18) (0x40 + n % 18) 0 (str * 256 + w)
    if (decide (str = 1 ∨ str = 2) && (c.dirtySector line).isSome) then
      (s.setCaches n (c.failSector str line)).coreFail n 2 0x02 el
    else
      ((s.setCaches n (c.dropIn str line)).evtC n 0x40 5).arrayRec
        { cls := 0, kind := 0x01, element := el, recovered := true, agent := s.sysCore n, dark := s.coreDark n }
        fun s => s.setCaches n ((s.core n).caches.clearL1 str w)

/-- Parity of a tag in an L1 structure: the set is invalidated, unless the L2 records a line of it as held with write
permission (R166). -/
def State.l1Tag (s : State) (n str set w : Nat) : State :=
  let c := (s.core n).caches
  let el := elem (n / 18) (0x40 + n % 18) 0 (str * 256 + w)
  let lines := if str = 0 then (c.l1i.filter (fun p => p.1 / 16 = set)).map (·.2.line) else (c.sectorsIn str set).map (·.line)
  let bad := if str = 1 ∨ str = 2 then lines.filter c.writable else []
  if bad.isEmpty then
    ((s.setCaches n (lines.foldl (fun c l => c.dropIn str l) c)).evtC n 0x40 5).arrayRec
      { cls := 0, kind := 0x01, element := el, recovered := true, agent := s.sysCore n, dark := s.coreDark n }
      fun s => s.setCaches n ((s.core n).caches.clearL1 str w)
  else (s.setCaches n (bad.foldl (fun c l => c.failSector str l) c)).coreFail n 2 0x02 el

/-- A data word of an L2 (R167): a single bit is corrected; otherwise a clean line is invalidated, and a dirty one is
marked poisoned and written back. -/
def State.l2Data (s : State) (n line : Nat) (single : Bool) : State :=
  let c := (s.core n).caches
  match c.l2Find line with
  | none => s
  | some (k, l) =>
    let e : ErrIn := { cls := 0, kind := 0x03, element := elem (n / 18) (0x58 + n % 18) 0 (k % 16), recovered := true,
                       agent := s.sysCore n, dark := s.coreDark n }
    let clear (s : State) : State := (s.clearL2 n (k % 16)).drainWb
    if single then s.arrayRec e clear
    else
      let c := c.dropUpper line
      let dirty := l.st.dirty
      let s := (s.setCaches n { c with l2 := SMap.del c.l2 k }).pushWb (n / 18) { l with poison := l.poison || dirty }
      (s.arrayRec (if dirty then { e with cls := 1, recovered := false, hpa := some (line * 64) } else e) clear).drainWb

/-- A tag of an L2 (R167): a single bit is corrected; otherwise the L2 and its core are lost. -/
def State.l2Tag (s : State) (n w : Nat) (single : Bool) : State :=
  let el := elem (n / 18) (0x58 + n % 18) 0 w
  if single then
    s.arrayRec { cls := 0, kind := 0x04, element := el, recovered := true, agent := s.sysCore n, dark := s.coreDark n }
      fun s => (s.clearL2 n w).drainWb
  else
    let s := s.setCaches n ⟨[], [], [], [], [], [], []⟩
    let s : State := { s with home := { s.home with lostL2 := s.home.lostL2.filter (fun m => m ≠ n) ++ [n] } }
    (s.coreFail n 3 0x04 el).startSweep

/-- A data word of an L3 slice (R167). -/
def State.l3Data (s : State) (die line : Nat) (single : Bool) : State :=
  match s.l3Find die line with
  | none => s
  | some (k, l) =>
    let g := l3Idx die line
    let e : ErrIn := { cls := 0, kind := 0x03, element := elem die (0x70 + g % 16) 0 (k % 16), recovered := true, dark := l.dark }
    let clear (s : State) : State := (s.clearL3 g (k % 16)).drainWb
    if single then s.arrayRec e clear
    else
      let dirty := l.st.dirty
      let s := (s.l3Drop die line).pushWb die { l with poison := l.poison || dirty }
      (s.arrayRec (if dirty then { e with cls := 1, recovered := false, hpa := some (line * 64) } else e) clear).drainWb

/-- A tag of an L3 slice (R167): a single bit is corrected; otherwise the slice is lost with its lines, and allocates
nothing any more (R203). -/
def State.l3Tag (s : State) (die k w : Nat) (single : Bool) : State :=
  let g := 16 * die + k
  let el := elem die (0x70 + k) 0 w
  if single then
    s.arrayRec { cls := 0, kind := 0x04, element := el, recovered := true } fun s => (s.clearL3 g w).drainWb
  else
    let s : State := { s.setL3 g [] with home := { s.home with lostL3 := s.home.lostL3.filter (fun m => m ≠ g) ++ [g] } }
    ((s.raise { cls := 2, kind := 0x04, element := el, lost := true }).lose die (0x70 + k) false).startSweep

/-- An uncorrectable error of a service core stops it for the boot; nothing but the watchdog notices SP0's (R534). -/
def State.spFail (s : State) (n : Nat) : State :=
  let s := s.haltCore n 3
  if n = 216 then s else s.raise { cls := 2, kind := 0x10, agent := s.sysCore n, lost := true, detail := 3 }

/-- An array detects an error. -/
def State.arrayErr (s : State) (e : ArrayErr) : State :=
  match e.what with
  | .l1Data str line => s.l1Data e.core str line
  | .l1Tag str set way => s.l1Tag e.core str set way
  | .l2Data line single => s.l2Data e.core line single
  | .l2Tag way single => s.l2Tag e.core way single
  | .l3Data line single => s.l3Data (e.core / 18) line single
  | .l3Tag slice way single => s.l3Tag (e.core / 18) slice way single
  | .logic => s.spFail e.core

/-- The array error that a command detects as it begins, if any. -/
def State.arraysCheck (s : State) (o : Option ArrayErr) : State :=
  match o with
  | some e => s.arrayErr e
  | none => s

end Sys2Proof.Machine
end

