-- ==== Sys2Proof/Machine/LendOps.lean ====
section
/-! DEFINITION.
The Lend functions (R363, R374, R378): their place, their answers, the freeze of a port, and the end of
what the tier engine does for a function. -/

namespace Sys2Proof.Machine

/-- The group of a Lend function: groups of ROLE 4 in ascending order (R363). -/
def State.lendGroup (s : State) (fn : Nat) : Option Nat :=
  ((s.plat.groups.zipIdx.filter (fun p => p.1.role = 4)).map (·.2))[fn]?

/-- A Lend function. -/
def State.lf (s : State) (fn : Nat) : LendFn := SMap.get (fun _ => LendFn.reset) s.lend fn
/-- Replace a Lend function. -/
def State.setLf (s : State) (fn : Nat) (x : LendFn) : State :=
  { s with lend := SMap.put (fun _ => LendFn.reset) s.lend fn x }

/-- Whether the port is frozen. -/
def State.lendFrozen (s : State) (fn : Nat) : Bool := decide (s.fget (kLndStat fn) fLndStat_STATE = 3)

/-- Count an event of a Lend function (Table 19-1). -/
def State.evtLnd (s : State) (fn i : Nat) : State := s.evt 15 (0x1A + fn) i

/-- Show OCC and set or withdraw panic (R374). -/
def State.lendOcc (s : State) (fn : Nat) : State :=
  let n := (s.lf fn).reqs.length
  let lvl := s.fget (kLndCtl fn) fLndCtl_PANICLVL
  let was := s.fon (kLndStat fn) fLndStat_PANIC
  let now := decide (lvl ≠ 0) && (decide (n ≥ lvl) || (was && decide (2 * n ≥ lvl)))
  let s := (s.fput (kLndStat fn) fLndStat_OCC n).fput (kLndStat fn) fLndStat_PANIC (if now then 1 else 0)
  if was = now then s
  else
    let any := now || s.fon (kLndStat (1 - fn)) fLndStat_PANIC
    s.each (List.range 16) fun s ch => s.setChan ch { s.chan ch with lendPanic := any }

/-- Answer a request: poisoned data for a read, Cmp for a write (R378). -/
def State.lendPoisoned (s : State) (fn : Nat) (q : LendReq) : State := s.emit (.lend fn q.tag 0 (decide (q.kind = 0)) false)

/-- Answer a request as a frozen port does, counting it (R378). -/
def State.lendFrozenAns (s : State) (fn tag : Nat) (read : Bool) : State :=
  ((s.emit (.lend fn tag 0 read false)).fadd (kLndStat fn) fLndStat_FROZANS 1).evtLnd fn 6

/-- Send the function's event interrupt, if the remote host has chosen MSI-X for it and bus mastering
permits (R378, R382; log 28). -/
def State.lendMsi (s : State) (fn : Nat) : State :=
  let x := s.lf fn
  let p := (x.policy.toNat >>> 16) % 256
  if p % 4 = 1 && x.bme && !x.d3 then s.emit (.lendMsix fn (p / 16)) else s

/-- Count a request that missed its budget (R376). -/
def State.lendMiss (s : State) (fn : Nat) (t2 : Bool) : State :=
  s.fadd (kLndBudget fn) (if t2 then fLndBudget_MISS2 else fLndBudget_MISS01) 1

/-- Hold the answer of a request to its budget: 4 or 8 µs from its arrival (R375), on the clock of 1 GHz (log 28). -/
def State.lendBudget (s : State) (fn : Nat) (q : LendReq) (t2 : Bool) : State :=
  if s.time - q.since > (if t2 then 8000 else 4000) then s.lendMiss fn t2 else s

/-- A request that was answered without its data is no requester any more: what comes for it is discarded (R19), and a
write that has reached its home is still performed (R377, R378). -/
def State.lendForget (s : State) (fn : Nat) (q : LendReq) : State :=
  s.forget fun k r => decide (r.src = 5 ∧ r.srcAgent = fn ∧ r.line = q.line) && (decide (k = .rdc) == decide (q.kind = 0))

/-- Answer every outstanding request at once; writes not yet performed are dropped (R378). -/
def State.lendFlush (s : State) (fn : Nat) : State :=
  let x := s.lf fn
  let s := x.reqs.foldl (fun s q =>
    ((s.lendBudget fn q (decide ((s.ent (q.line / 64)).tier = 2))).lendForget fn q).lendPoisoned fn q) s
  (s.setLf fn { x with reqs := [] }).lendOcc fn

/-- A freeze trigger (R378): while frozen it replaces the cause only if it is DOMAIN_DOWN (R379). -/
def State.lendFreeze (s : State) (fn cause : Nat) : State :=
  if s.lendFrozen fn then
    (if cause = 6 then s.fput (kLndStat fn) fLndStat_CAUSE 6 else s)
  else
    let s := (s.fput (kLndStat fn) fLndStat_STATE 3).fput (kLndStat fn) fLndStat_CAUSE cause
    let s := s.lendFlush fn
    let x := s.lf fn
    let s := s.setLf fn { x with events := x.events ++ [(x.handle, cause, s.time)], handle := x.handle % 65535 + 1 }
    let s := (s.lendMsi fn).signal (s.fget (kLndCtl fn) fLndCtl_FVEC)
    s.raise { cls := 2, kind := 0x53, detail := cause, agent := fn }

/-- The coherent domain goes down: every Lend port freezes (Table 12-3). -/
def State.lendDown (s : State) : State :=
  s.each [0, 1] fun s fn => if (s.lendGroup fn).isSome then s.lendFreeze fn 6 else s

/-- The command ids that the tier engine sees for a function's discards. -/
def lendId (fn k : Nat) : Nat := 2 ^ 32 + fn * 2 ^ 20 + k
/-- The function of such an id. -/
def lendOf (id : Nat) : Nat := (id - 2 ^ 32) / 2 ^ 20

/-- Whether discards of a function are outstanding. -/
def State.lendDiscards (s : State) (fn : Nat) : Bool :=
  s.enl.cmds.any (fun c => decide (c.id ≥ 2 ^ 32) && decide (lendOf c.id = fn))

/-- Report a function-level or CXL reset done once nothing is outstanding (R383, R384). -/
def State.lendResetDone (s : State) (fn : Nat) : State :=
  let x := s.lf fn
  if !x.reads.isEmpty then s
  else
    let s := if x.flr then (s.setLf fn { x with flr := false }).emit (.lendMsg fn 1) else s
    let x := s.lf fn
    if x.cxr && !s.lendDiscards fn then (s.setLf fn { x with cxr := false }).emit (.lendMsg fn 2) else s

/-- A discard of a function has ended: its background Sanitize, its Discard Ranges DMA or its CXL Reset
may be complete. -/
def State.lendTierDone (s : State) (fn : Nat) : State :=
  if s.lendDiscards fn then s
  else
    let x := s.lf fn
    let s := match x.cmd with
      | some c => if c.phase = 3 then (s.setLf fn { x with cmd := none }).emit (.lendMbox fn c.op 0 []) else s
      | none => s
    (s.setLf fn { s.lf fn with bgRuns := false }).lendResetDone fn

end Sys2Proof.Machine
end

