-- ==== Sys2Proof/Machine/TestOps.lean ====
section
/-! DEFINITION.
How a Test Strip ends (R560–R563). -/

namespace Sys2Proof.Machine

/-- The bytes of a result entry (R560). -/
def testBytes (e : TestEntry) : List Byte :=
  leBytes 4 e.element.toNat ++ leBytes 4 e.address.toNat ++ leBytes 2 e.bit.toNat ++ [e.kind, 0, 0, 0, 0, 0]

/-- A test ends with the failures found: at most 64 entries are held, a die under test returns to DS3, the
TEST_STRIP event is extended, and the final reply becomes due. -/
def State.testFinish (s : State) (complete : Bool) (found : List TestEntry) : State :=
  match s.cnt.test with
  | none => s
  | some t =>
    let held := found.take 64
    let b12 := (if complete then 1 else 0) + (if found.length > 64 then 2 else 0)
    let s : State := { s with cnt := { s.cnt with test := none, results := held } }
    let v := fTstStat_RUN.put (s.rd kTstStat) 0
    let v := fTstStat_TRUNC.put (fTstStat_COMPLETE.put v (b12 % 2)) (b12 / 2)
    let s := s.wr kTstStat (fTstStat_FAILS.put v found.length)
    let s := if t.block = 0xFF then (s.fput (kClkCdctl t.die) fClkCdctl_NEFF 0).pwrEval t.die else s
    let s := s.extend 12 8 (leBytes 1 t.die ++ leBytes 1 t.block ++ leBytes 1 t.kind ++ leBytes 1 b12 ++
      leBytes 2 t.n ++ leBytes 2 t.voff ++ leBytes 4 found.length ++ sm3 (held.flatMap testBytes))
    s.final t.id zDone 0 (leBytes 4 found.length ++ leBytes 1 b12)

end Sys2Proof.Machine
end

