-- ==== Sys2Proof/Machine/HomeRows.lean ====
section
/-! DEFINITION.
The commands of the coherence protocol (spec/06): requests, snoops, answers, grants, timers, the
coherent domain's end and the lost-agent sweep, and fabric completions (R355). -/

namespace Sys2Proof.Machine

/-! ### Domain-down and lost agents -/

/-- The MSGTYPE code of a request (HA_DDREC0). -/
def msgType : ReqKind → Nat
  | .rds => 1 | .rdo => 2 | .upg => 3 | .rdc => 4 | .wrf => 5 | .wrp => 6 | .atf => 7 | .cmc => 8
  | .cmi => 9 | .cmci => 10 | .cmz => 11 | .evc => 12 | .evd => 13 | .evict => 0

/-- The agents that a domain-down notice goes to: the compute dies, and the sockets behind a Sceuc-X link (R205). -/
def State.noticed (s : State) : List Nat :=
  (List.range 12).filter (fun d => !s.dieOut d) ++
  s.plat.groups.zipIdx.filterMap fun (p : GroupRec × Nat) =>
    if p.1.role = 5 ∧ s.fget (kFioXstat p.2) fFioXstat_STATE = 2 then some (12 + p.1.peer) else none

/-- Stop every compute core with a reason (R82). -/
def State.haltAll (s : State) (reason : Nat) : State := s.each (List.range 216) fun s n => s.haltCore n reason

/-- The whole coherent domain goes down (R205): the cause is recorded for the first expiry only,
notices are sent, every compute core stops, and FATAL_N asserts (R586). -/
def State.domainDown (s : State) (cause msg agent line origin : Nat) (element : Nat := noElem) : State :=
  if s.down then s
  else
    let s := s.fput kHaGstat fHaGstat_DOWN 1
    let s := if s.fon kHaDdrec0 fHaDdrec0_VALID then s else
      let v := fHaDdrec0_VALID.put 0 1
      let v := fHaDdrec0_ORIGIN.put v origin
      let v := fHaDdrec0_MSGTYPE.put v msg
      let v := fHaDdrec0_AGENT.put v agent
      let v := fHaDdrec0_SLICE.put v (lineSlice line)
      let s := s.wr kHaDdrec0 (fHaDdrec0_CAUSE.put v cause)
      let s := s.wr kHaDdrec1 (fHaDdrec1_LINE.put 0 line)
      s.wr kHaDdrec2 (BitVec.ofNat 64 s.time)
    let s := s.each s.noticed fun s a => s.toAgent a 4 none (.domainDown a)
    let s := s.haltAll 4
    let s := s.raise { cls := 3, kind := 0x70, element := element, hpa := some (line * 64), agent := agent, detail := cause,
                       dark := s.isDark (line * 64) }
    let s := s.lendDown.testFinish false []
    let s := if s.boot.released then s else s.fput kMgtBoot fMgtBoot_STAGE 6
    ({ s with pins := { s.pins with fatal := true } }).emit (.pin "FATAL_N" true)

/-- The transactions of every slice that await an agent. -/
def State.awaiting (s : State) (a : Nat) : List Trans :=
  s.home.slices.flatMap fun p => p.2.trans.filter (fun (t : Trans) => t.await.contains a)

/-- The cores of a die stop with REASON RETIRED and its caches are gone. -/
def State.dieCoresStop (s : State) (d : Nat) : State :=
  let s := s.each ((List.range 18).map (18 * d + ·)) fun s n =>
    (s.haltCore n 3).setCaches n ⟨[], [], [], [], [], [], []⟩
  s.each ((List.range 16).map (16 * d + ·)) fun s g => s.setL3 g []

/-- The transactions whose grant an agent has not acknowledged. -/
def State.ungranted (s : State) (a : Nat) : List Nat :=
  s.home.slices.flatMap fun p => (p.2.trans.filter (fun (t : Trans) => t.granted && decide (t.req.agent = a))).map (·.req.line)

/-- An agent is lost in Cydric poison mode (R207): its entries are swept (R208), its grants need no CmpAck, and every
transaction that waits on it continues as if it had answered NONE and LOST. -/
def State.agentLost (s : State) (a : Nat) : State :=
  if s.home.lost.contains a then s
  else
    let s := { s with home := { s.home with lost := s.home.lost ++ [a], asked := s.home.asked.filter (fun p => p.req.agent ≠ a) } }
    let s := if a < 12 then
        let s := s.fput kHaGstat fHaGstat_LOSTDIE (s.fget kHaGstat fHaGstat_LOSTDIE ||| 2 ^ a)
        (s.lose a 0xFF true).dieCoresStop a
      else
        let s := s.fput kHaGstat fHaGstat_LOSTSOCK (s.fget kHaGstat fHaGstat_LOSTSOCK ||| 2 ^ (a - 12))
        s.each s.plat.groups.zipIdx fun s (p : GroupRec × Nat) =>
          if p.1.role = 5 ∧ p.1.peer = a - 12 then s.fput (kFioXstat p.2) fFioXstat_STATE 3 else s
    let s := s.raise { cls := 2, kind := 0x71, agent := a, lost := true }
    let s := s.startSweep
    let s := s.each (s.ungranted a) State.release
    s.each (s.awaiting a) fun s t =>
      match s.transOf t.req.line with
      | some t =>
        let p := s.takeAnswer t a ⟨.none, false, none, false, 0, true⟩
        p.2.settle p.1
      | none => s

/-- The agent behind a link or a reset is gone (R204, R239, R535): its waiting timers expire at
once and its own request timers are cancelled, its cores stop with REASON RETIRED and the die is LOST. -/
def State.dieGone (s : State) (d : Nat) : State :=
  let s := { s with home := { s.home with asked := s.home.asked.filter (fun p => p.req.agent ≠ d) } }
  let s := match s.awaiting d with
    | [] => s
    | t :: _ => if s.fon kHaGctl fHaGctl_MODE then s.agentLost d
        else s.domainDown 4 (msgType t.kind) d t.req.line s.sock
  (s.lose d 0xFF true).dieCoresStop d

/-! ### Requests at the home -/

/-- A request that arrives at a slice as a message: of an agent of this package it is outstanding until its answer
comes, for a line homed on another socket the slice is its proxy (R178, R198), and another socket asks only for lines
that are homed here (R209). -/
def State.request (s : State) (k : ReqKind) (r : HomeReq) : State :=
  if s.down || s.home.lost.contains r.agent then s
  else
    let p := Pend.fresh k r .msg
    if r.agent < 12 ∨ r.agent = 16 then
      ({ s with home := { s.home with asked := s.home.asked ++ [p] } } : State).homeOpen p
    else match s.lineKind r.line with
      | .remote _ => s.domainDown 8 (msgType k) r.agent r.line s.sock
      | _ => s.homeOpen p

/-- A home takes a request, and meets the error that it detects: in a directory or transaction entry it takes the
domain down (R209, R522), in a data buffer it is corrected or poisons the data (Table 9-10). -/
def State.homeTakes (s : State) (k : ReqKind) (r : HomeReq) (f : HomeReq → State → State) : State :=
  match r.err with
  | none => f r s
  | some (.entry dir i) =>
    s.domainDown 7 (msgType k) r.agent r.line s.sock (elem 15 ((if dir then 0xA0 else 0x80) + lineSlice r.line) 4 i)
  | some (.buffer i double) =>
    f { r with err := none, poison := r.poison || double }
      (s.raise { cls := if double then 1 else 0, kind := 0x55, element := elem 15 (0x80 + lineSlice r.line) 5 i,
                 recovered := !double, hpa := some (r.line * 64), dark := r.dark })

def rdsRun (r : HomeReq) (s : State) : State := s.homeTakes .rds r fun r s => s.request .rds r
def rdoRun (r : HomeReq) (s : State) : State := s.homeTakes .rdo r fun r s => s.request .rdo r
def upgRun (r : HomeReq) (s : State) : State := s.homeTakes .upg r fun r s => s.request .upg r
def rdcRun (r : HomeReq) (s : State) : State := s.homeTakes .rdc r fun r s => s.request .rdc r
def wrfRun (r : HomeReq) (s : State) : State := s.homeTakes .wrf r fun r s => s.request .wrf { r with mask := BitVec.allOnes 64 }
def wrpRun (r : HomeReq) (s : State) : State := s.homeTakes .wrp r fun r s => s.request .wrp r
def atfRun (r : HomeReq) (s : State) : State := s.homeTakes .atf r fun r s => s.request .atf r
def cmcRun (r : HomeReq) (s : State) : State := s.homeTakes .cmc r fun r s => s.request .cmc r
def cmiRun (r : HomeReq) (s : State) : State := s.homeTakes .cmi r fun r s => s.request .cmi r
def cmciRun (r : HomeReq) (s : State) : State := s.homeTakes .cmci r fun r s => s.request .cmci r
def cmzRun (r : HomeReq) (s : State) : State := s.homeTakes .cmz r fun r s => s.request .cmz r

/-- An eviction notice arrives (R183, R190, R194): with a transaction open on the line, its data
serves that transaction and EvAck follows the snoop answer.  A notice without a credit, and one of an agent that is
not the owner, is expected by nothing (R209).  At a proxy it goes on to the line's home (R199). -/
def State.evictMsg (s : State) (r : HomeReq) (data : Option Line) : State :=
  if s.down || s.home.lost.contains r.agent then s
  else
    let w : WbEnt := ⟨r.agent, r.line, data, r.poison, r.key, r.dark, false, none⟩
    let stray (s : State) : State := s.domainDown 8 (if data.isSome then 0x0D else 0x0C) r.agent r.line s.sock
    match s.lineKind r.line with
    | .remote _ =>
      if r.agent < 12 ∨ r.agent = 16 then ({ s with home := { s.home with wbuf := s.home.wbuf ++ [w] } } : State).drainWb
      else stray s
    | _ =>
      if s.evCredit r.line r.agent ≥ 2 then stray s
      else match (s.setCredit r.line r.agent (s.evCredit r.line r.agent + 1)).evArrives w with
        | .ack s => s.toAgent r.agent 2 none (.evAck r.agent r.line)
        | .served s => s
        | .wait =>
          let s := s.setCredit r.line r.agent (s.evCredit r.line r.agent + 1)
          { s with home := { s.home with evq := s.home.evq ++ [w] } }
        | .stray => stray s

def evcRun (r : HomeReq) (s : State) : State := s.homeTakes .evc r fun r s => s.evictMsg r none
def evdRun (r : HomeReq) (s : State) : State := s.homeTakes .evd r fun r s => s.evictMsg r (some r.data)

-- EXEC: RDS RDO UPG RDC WRF WRP ATF CMC CMI CMCI CMZ EVC EVD
/-- RDS (R186): the effect of a well-formed command. -/
def execRds (r : HomeReq) (s : State) : Res := runs (r.wf && r.bufferOk) (rdsRun r) s

/-- RDO (R186): the effect of a well-formed command. -/
def execRdo (r : HomeReq) (s : State) : Res := runs (r.wf && r.bufferOk) (rdoRun r) s

/-- UPG (R187): the effect of a well-formed command. -/
def execUpg (r : HomeReq) (s : State) : Res := runs (r.wf && r.bufferOk) (upgRun r) s

/-- RDC (R197): the effect of a well-formed command. -/
def execRdc (r : HomeReq) (s : State) : Res := runs (r.wf && r.bufferOk) (rdcRun r) s

/-- WRF (R196): the effect of a well-formed command. -/
def execWrf (r : HomeReq) (s : State) : Res := runs r.wf (wrfRun r) s

/-- WRP (R196): the effect of a well-formed command. -/
def execWrp (r : HomeReq) (s : State) : Res := runs r.wf (wrpRun r) s

/-- ATF (R107): the effect of a well-formed command. -/
def execAtf (r : HomeReq) (s : State) : Res := runs (r.wf && r.bufferOk) (atfRun r) s

/-- CMC (R186): the effect of a well-formed command. -/
def execCmc (r : HomeReq) (s : State) : Res := runs (r.wf && r.bufferOk) (cmcRun r) s

/-- CMI (R186): the effect of a well-formed command. -/
def execCmi (r : HomeReq) (s : State) : Res := runs (r.wf && r.bufferOk) (cmiRun r) s

/-- CMCI (R186): the effect of a well-formed command. -/
def execCmci (r : HomeReq) (s : State) : Res := runs (r.wf && r.bufferOk) (cmciRun r) s

/-- CMZ (R186): the effect of a well-formed command. -/
def execCmz (r : HomeReq) (s : State) : Res := runs (r.wf && r.bufferOk) (cmzRun r) s

/-- EVC (R183): the effect of a well-formed command. -/
def execEvc (r : HomeReq) (s : State) : Res := runs (r.wf && r.bufferOk) (evcRun r) s

/-- EVD (R194): the effect of a well-formed command. -/
def execEvd (r : HomeReq) (s : State) : Res := runs r.wf (evdRun r) s
-- END EXEC

/-! ### Snoops and answers -/

/-- The answers of several agents as one (R199). -/
def joinAns (l : List SnoopAns) : SnoopAns :=
  let d := l.find? (fun a => a.data.isSome)
  { hold := if l.any (fun a => decide (a.hold = .owned)) then .owned else if l.any (fun a => decide (a.hold = .shared)) then .shared else .none,
    wb := l.any (·.wb), data := d.bind (·.data), poison := (match d with | some a => a.poison | none => false),
    key := (match d with | some a => a.key | none => 0), lost := l.any (·.lost) }

/-- What a proxy entry lists after a snoop, from the answers of its agents. -/
def DirEnt.afterSnoop (e : DirEnt) (k : SnpKind) (l : List (Nat × SnoopAns)) : DirEnt :=
  let kept := l.filter (fun p => decide (p.2.hold ≠ .none))
  let own := kept.find? (fun p => decide (p.2.hold = .owned))
  let sharers := kept.foldl (fun (m : BitVec 32) p => if decide (p.2.hold = .owned) then m else m ||| agentBit p.1) 0
  match own with
  | some p => { e with owner := p.1, sharers := sharers,
                       st := if k = .s ∧ p.2.data.isSome then .o else if e.st = .s then .x else e.st }
  | none => { e with st := .s, owner := 0, sharers := sharers }

/-- A proxy is snooped by the home of its line (R199): it answers from its write-back buffers, with NONE when it has no
entry, and otherwise performs the snoop on each die that its entry lists.  A lost owner makes the answer LOST (R207). -/
def State.proxySnoop (s : State) (k : SnpKind) (line : Nat) (excl : Option Nat) : SnoopAns × State :=
  let none' : SnoopAns := ⟨.none, false, none, false, 0, false⟩
  match s.dirFind line with
  | none => match s.home.wbuf.find? (fun w => w.line = line) with
    | some w => (⟨.none, true, w.data, w.poison, w.key, false⟩, s)
    | none => (none', s)
  | some (key, e) =>
    let r := e.listed.foldl (fun (a : List (Nat × SnoopAns) × State) i =>
      if a.2.answers i then
        let p := a.2.snoopAgent i k line (match excl with | some c => if coreAgent c = i then some c else none | none => none)
        (a.1 ++ [(i, p.1)], p.2)
      else (a.1 ++ [(i, { none' with lost := decide (e.own = some i) })], a.2)) ([], s)
    let e' := e.afterSnoop k r.1
    (joinAns (r.1.map (·.2)), r.2.dirPut key (if e'.st = .s ∧ e'.sharers = 0 ∧ !e'.busy then none else some e'))

/-- An agent of this package handles a snoop and sends its one answer (R184, R195): a die, the service cores, or the
proxy that is this package to the home of another socket (R199). -/
def State.takesSnoop (s : State) (a : Nat) (k : SnpKind) (line : Nat) (excl : Option Nat) (err : Option ArrayErr) : State :=
  if s.down then s
  else if 12 ≤ a ∧ a < 16 then
    if a = 12 + s.sock then
      let p := s.proxySnoop k line excl
      p.2.emit (.answer a line p.1)
    else s.domainDown 8 0 a line s.sock
  else if !s.answers a then s
  else
    let p := (s.arraysCheck err).snoopAgent a k line excl
    p.2.fromAgent a p.1.data (.answer a line p.1)

def snpsRun (die line : Nat) (excl : Option Nat) (err : Option ArrayErr) (s : State) : State := s.takesSnoop die .s line excl err
def snpiRun (die line : Nat) (excl : Option Nat) (err : Option ArrayErr) (s : State) : State := s.takesSnoop die .i line excl err
def snpcRun (die line : Nat) (excl : Option Nat) (err : Option ArrayErr) (s : State) : State := s.takesSnoop die .c line excl err
def snpcurRun (die line : Nat) (excl : Option Nat) (err : Option ArrayErr) (s : State) : State := s.takesSnoop die .cur line excl err

/-- A snoop answer arrives at the home (R194); one that no transaction expects takes the domain down
(R209), and a lost agent's is discarded (R207). -/
def snoopAnswerRun (line agent : Nat) (a : SnoopAns) (s : State) : State :=
  if s.down || s.home.lost.contains agent then s
  else match s.transOf line with
    | some t =>
      if t.await.contains agent then
        let p := s.takeAnswer t agent a
        p.2.settle p.1
      else s.domainDown 8 (msgType t.kind) agent line s.sock
    | none => s.domainDown 8 0 agent line s.sock

/-- The proxy entry of a line homed on another socket after a grant (R180, R199); `kept`: a cache of this package
holds the line now. -/
def State.proxyGrant (s : State) (g : GrantMsg) (kept : Bool) : State :=
  let a := coreAgent g.core
  match s.dirFind g.line with
  | none => s
  | some (k, e) =>
    let e := { e with busy := false }
    let e := if !kept then e else if g.m || g.e then { e with st := .x, owner := a, sharers := 0 }
      else { e with sharers := e.sharers ||| agentBit a }
    s.dirPut k (if e.st = .s ∧ e.sharers = 0 then none else some e)

/-- The request of a core that a reply answers. -/
def State.askedBy (s : State) (core line : Nat) (f : Pend → Bool) : Option Pend :=
  s.home.asked.find? (fun p => decide (p.req.core = core ∧ p.req.line = line) && f p)

/-- A grant reaches its requester, which installs the fill, or discards it when maintenance has
marked the miss, and returns CmpAck (R175, R188); one that no request expects takes the domain down (R209).  The reply of
an uncached or maintenance request to another socket arrives in this form too (log 23). -/
def grantRun (g : GrantMsg) (s : State) : State :=
  let a := coreAgent g.core
  let remote := match s.lineKind g.line with | .remote _ => true | _ => false
  if s.down || s.home.lost.contains a then s
  else match s.askedBy g.core g.line (fun p => remote || p.kind.allocates) with
    | none => s.domainDown 8 0 a g.line s.sock
    | some p =>
      let s := s.dropAsked p
      if !p.kind.allocates then
        s.deliver p (if p.kind = .rdc ∨ p.kind = .atf then .reply (g.data.getD 0) g.poison g.shared g.noFill else .done)
      else
        let kept := !(s.missDone p).1 && !g.noFill
        let s := s.takeGrant p g
        (if remote then (s.proxyGrant g kept).emit (.cmpAck (12 + s.sock) g.line)
         else s.fromAgent a none (.cmpAck a g.line)).drainWb

/-- CmpAck ends a granting transaction (R188); an unexpected one takes the domain down (R209). -/
def cmpackRun (agent line : Nat) (s : State) : State :=
  if s.down || s.home.lost.contains agent then s
  else match s.transOf line with
    | some t => if t.granted && decide (t.req.agent = agent) then s.release line
        else s.domainDown 8 (msgType t.kind) agent line s.sock
    | none => s.domainDown 8 0 agent line s.sock

/-- EvAck frees the write-back buffer of the evicting agent and returns its credit (R190, R194); one that no notice
expects takes the domain down (R209). -/
def evackRun (agent line : Nat) (s : State) : State :=
  if s.down || s.home.lost.contains agent then s
  else if s.evCredit line agent = 0 ∧ !s.home.wbuf.any (fun w => w.sent && decide (w.agent = agent ∧ w.line = line)) then
    s.domainDown 8 0 agent line s.sock
  else s.evAcked agent line

/-- A Def reply reaches a core: its miss closes, nothing is filled, and the access is reissued as a
demand request once it is no longer speculative (R117, R201); one that no speculative request expects takes the domain
down (R209). -/
def defReplyRun (core line key : Nat) (s : State) : State :=
  if s.down then s
  else match s.askedBy core line (fun p => p.req.spec) with
    | none => s.domainDown 8 0 (coreAgent core) line s.sock
    | some p =>
      let s := (s.dropAsked p).noteDeferred core line key
      match s.lineKind line with
      | .remote _ => if p.kind.allocates then s.proxyGrant (refusedGrant p.req false false) false else s
      | _ => s

-- EXEC: SNPS SNPI SNPC SNPCUR SNOOP_ANSWER GRANT CMPACK EVACK DEF
/-- SNPS (R184): the effect of a well-formed command. -/
def execSnps (die : Nat) (line : Nat) (excl : Option Nat) (err : Option ArrayErr) (s : State) : Res :=
  runs (wfAgent die && wfLine line && wfErr err (fun n => n / 18 = die)) (snpsRun die line excl err) s

/-- SNPI (R184): the effect of a well-formed command. -/
def execSnpi (die : Nat) (line : Nat) (excl : Option Nat) (err : Option ArrayErr) (s : State) : Res :=
  runs (wfAgent die && wfLine line && wfErr err (fun n => n / 18 = die)) (snpiRun die line excl err) s

/-- SNPC (R184): the effect of a well-formed command. -/
def execSnpc (die : Nat) (line : Nat) (excl : Option Nat) (err : Option ArrayErr) (s : State) : Res :=
  runs (wfAgent die && wfLine line && wfErr err (fun n => n / 18 = die)) (snpcRun die line excl err) s

/-- SNPCUR (R184): the effect of a well-formed command. -/
def execSnpcur (die : Nat) (line : Nat) (excl : Option Nat) (err : Option ArrayErr) (s : State) : Res :=
  runs (wfAgent die && wfLine line && wfErr err (fun n => n / 18 = die)) (snpcurRun die line excl err) s

/-- SNOOP_ANSWER (R194): the effect of a well-formed command. -/
def execSnoopAnswer (line : Nat) (agent : Nat) (a : SnoopAns) (s : State) : Res :=
  runs (wfLine line && wfAgent agent) (snoopAnswerRun line agent a) s

/-- GRANT (R188): the effect of a well-formed command. -/
def execGrant (g : GrantMsg) (s : State) : Res := runs g.wf (grantRun g) s

/-- CMPACK (R188): the effect of a well-formed command. -/
def execCmpack (agent : Nat) (line : Nat) (s : State) : Res :=
  runs (wfAgent agent && wfLine line) (cmpackRun agent line) s

/-- EVACK (R190): the effect of a well-formed command. -/
def execEvack (agent : Nat) (line : Nat) (s : State) : Res :=
  runs (wfAgent agent && wfLine line) (evackRun agent line) s

/-- DEF (R201): the effect of a well-formed command. -/
def execDefReply (core : Nat) (line : Nat) (key : Nat) (s : State) : Res :=
  runs (wfCore core && wfLine line && wfKey key) (defReplyRun core line key) s
-- END EXEC

/-! ### Waiting requests -/

/-- A waiting or parked request of a slice proceeds (R191, R192), or a transaction that waited for
its memory. -/
def waitingRequestResumeRun (n : Nat) (s : State) : State := if s.down then s else s.resumeSlice n

-- EXEC: WAITING_REQUEST_RESUME
/-- WAITING_REQUEST_RESUME (R191): the effect of a well-formed command. -/
def execWaitingRequestResume (slice : Nat) (s : State) : Res :=
  runs (decide (slice < 32)) (waitingRequestResumeRun slice) s
-- END EXEC

/-! ### Timers and the end of the domain -/

/-- A snoop timer expires (R205, R207).  The service cores are neither a die nor a socket: their silence takes the
domain down in Cydric poison mode too (log 59). -/
def snoopTimeoutRun (line agent : Nat) (s : State) : State :=
  if s.down then s
  else match s.transOf line with
    | some t => if t.await.contains agent then
          (if s.fon kHaGctl fHaGctl_MODE && decide (agent ≠ 16) then s.agentLost agent
           else s.domainDown 1 (msgType t.kind) agent line s.sock)
        else s
    | none => s

/-- Whether a request waits in a queue of its slice. -/
def State.queued (s : State) (p : Pend) : Bool :=
  let x := s.slice (lineSlice p.req.line)
  (x.waiting ++ x.parked).any (fun q => decide (q.kind = p.kind ∧ q.req = p.req ∧ q.mode = p.mode))

/-- Whether an agent has a request outstanding on a line: a die in service, the service cores, or, as socket, the proxy
that has forwarded one (R204). -/
def State.asks (s : State) (agent line : Nat) : Bool :=
  let x := s.slice (lineSlice line)
  if agent = 12 + s.sock then
    s.home.asked.any (fun p => decide (p.req.line = line) && !s.queued p &&
      (match s.lineKind line with | .remote _ => true | _ => false))
  else if decide (agent < 12) && s.dieOut agent then false
  else
    s.home.asked.any (fun p => decide (p.req.line = line ∧ p.req.agent = agent)) ||
    x.trans.any (fun (t : Trans) => decide (t.req.line = line ∧ t.req.agent = agent ∧ t.mode = .held)) ||
    (x.waiting ++ x.parked).any (fun p => decide (p.req.line = line ∧ p.req.agent = agent))

/-- A request timer expires at a die's link end or at a proxy: the domain goes down in both modes
(R205, R209). -/
def requestTimeoutRun (agent line : Nat) (s : State) : State :=
  if s.down then s
  else if s.asks agent line then
    let k := match s.transOf line with | some t => msgType t.kind | none => 0
    s.domainDown 3 k agent line s.sock
  else s

/-- A domain-down notice from another socket (R205). -/
def domainDownNoticeRun (socket : BitVec 2) (s : State) : State :=
  s.domainDown 6 0 (12 + socket.toNat) 0 socket.toNat

/-- Safelight extends the domain-down event (R206). -/
def domainDownExtensionRun (s : State) : State :=
  if s.down && s.boot.sp0Up && !s.boot.log.any (fun l => l.bytes.take 2 = [0x0A, 0]) then
    s.extend 0x0A 7 ([kHaDdrec0, kHaDdrec1, kHaDdrec2].flatMap fun k => leBytes 8 (s.rd k).toNat)
  else s

/-- A line that a die with a lost cache is listed for is sent SnpI (R203); one with an open transaction has its own
snoops, and at a proxy the dies' copies go as for an eviction (R199). -/
def State.snoopLost (s : State) (line : Nat) : State :=
  match s.dirFind line with
  | some (k, e) => if s.lineHeld line || !e.listed.any (fun a => decide (a < 12) && s.cacheLost a line) then s
    else if e.proxy then s.proxyEvict k e else s.dirEvict e
  | none => s

/-- A sweep visits the next directory set of a slice (R203, R208). -/
def sweepSetVisitRun (n : Nat) (s : State) : State :=
  let x := s.slice n
  if s.down || decide (x.passes = 0) then s
  else
    let b := (n * 32768 + x.sweep) * 16
    let lines := (s.home.dir.filter (fun p => decide (b ≤ p.1 ∧ p.1 < b + 16))).map (·.2.line)
    let s := lines.foldl (fun s l => (s.clearLost l).snoopLost l) (s.evt 15 (0xA0 + n) 4)
    let x := s.slice n
    let x := if x.sweep = 32767 then { x with sweep := 0, passes := x.passes - 1 } else { x with sweep := x.sweep + 1 }
    let s := s.setSlice n x
    s.fput kHaGstat fHaGstat_SWEEP (if s.home.slices.any (fun p => p.2.passes ≠ 0) then 1 else 0)

-- EXEC: SNOOP_TIMEOUT REQUEST_TIMEOUT DOMAIN_DOWN_NOTICE DOMAIN_DOWN_EXTENSION SWEEP_SET_VISIT
/-- SNOOP_TIMEOUT (R205): the effect of a well-formed command. -/
def execSnoopTimeout (line : Nat) (agent : Nat) (s : State) : Res :=
  runs (wfLine line && wfAgent agent) (snoopTimeoutRun line agent) s

/-- REQUEST_TIMEOUT (R209): the effect of a well-formed command. -/
def execRequestTimeout (agent : Nat) (line : Nat) (s : State) : Res :=
  runs (wfAgent agent && wfLine line) (requestTimeoutRun agent line) s

/-- DOMAIN_DOWN_NOTICE (R205): the effect of a well-formed command. -/
def execDomainDownNotice (socket : BitVec 2) (s : State) : Res :=
  runs true (domainDownNoticeRun socket) s

/-- DOMAIN_DOWN_EXTENSION (R206): the effect of a well-formed command. -/
def execDomainDownExtension (s : State) : Res := runs true domainDownExtensionRun s

/-- SWEEP_SET_VISIT (R208): the effect of a well-formed command. -/
def execSweepSetVisit (slice : Nat) (s : State) : Res :=
  runs (decide (slice < 32)) (sweepSetVisitRun slice) s
-- END EXEC

/-! ### Fabric completions (R355) -/

/-- A fabric access ends: with `err`, or at its timer's expiry, its window fails, a read or atomic
returns poisoned data and a write is lost. -/
def State.fabEnd (s : State) (o : FabOut) (data : Line) (err : Bool) : State :=
  let s := s.fabDrop o.tag
  let s := if err then s.fabFail o else s
  let d := if err then 0 else data
  if o.home then match s.transOf (o.hpa / 64) with
    | some t =>
      if t.fabric then
        let t := { t with fabric := false,
                          mem := if o.write then t.mem else some (d, err),
                          old := if o.write then t.old.map (fun x => (x.1, err)) else t.old }
        (s.putTrans t).settle t
      else s
    | none => s
  else if o.write then s
  else s.emit (.reply 0 (o.hpa / 64) d err false)

/-- A completion arrives; a late one is discarded (R19, R355). -/
def fabricCompletionRun (tag : Nat) (data : Line) (err : Bool) (s : State) : State :=
  match s.fabOut tag with
  | some o => s.fabEnd o data err
  | none => s

/-- A completion timer expires. -/
def fabricCompletionTimeoutRun (tag : Nat) (s : State) : State :=
  match s.fabOut tag with
  | some o => (s.evt 15 0x18 5).fabEnd o 0 true
  | none => s

-- EXEC: FABRIC_COMPLETION FABRIC_COMPLETION_TIMEOUT
/-- FABRIC_COMPLETION (R355): the effect of a well-formed command. -/
def execFabricCompletion (tag : Nat) (data : Line) (err : Bool) (s : State) : Res :=
  runs true (fabricCompletionRun tag data err) s

/-- FABRIC_COMPLETION_TIMEOUT (R355): the effect of a well-formed command. -/
def execFabricCompletionTimeout (tag : Nat) (s : State) : Res :=
  runs true (fabricCompletionTimeoutRun tag) s
-- END EXEC

end Sys2Proof.Machine
end

