-- ==== Sys2Proof/Machine/CoreMem.lean ====
section
/-! DEFINITION.
How a core reaches a line: its L1D, L2 and L3 slice, then the home (R153–R163, R182), and the
uncached accesses of cores and engines (R98, R196, R197). -/

namespace Sys2Proof.Machine

/-- The request of a core for a line (R182, R426). -/
def coreReq (s : State) (n line key : Nat) (dark spec forStore : Bool) : HomeReq :=
  { evReq (coreAgent n) line key with core := n, dark := dark, spec := spec, forStore := forStore,
                                      src := if n < 216 then 1 else 2, srcAgent := if n < 216 then s.sysCore n else n - 216 }

/-- What asking for a line found. -/
inductive Fill where
  | wait
  | deferred
  | line (l : CLine) (noFill : Bool)
  deriving DecidableEq, Repr

/-- The line that a grant carries. -/
def grantLine (g : GrantMsg) : CLine :=
  ⟨g.line, if g.m then .m else if g.e then .e else .s, g.data.getD 0, g.poison, g.key, g.dark⟩

/-- What a home answer gives a requester of a fill. -/
def State.ofAns (s : State) (n line : Nat) : HomeAns → Fill
  | .granted g =>
    if g.noFill then .line (grantLine g) true
    else if n ≥ 216 then match SMap.find s.spCache line with
      | some l => .line l false
      | none => .line (grantLine g) false
    else match (s.core n).caches.current line with
      | some l => .line l false
      | none => .line (grantLine g) false
  | .deferred => .deferred
  | _ => .wait

/-- A read at the die's L3 slice (R182): served when the slice holds the line in any valid state; the
requester receives S under its key ID (R156) and the slice's copy answers as to SnpS (DEDUCED, log 22). -/
def State.l3Read (s : State) (n line key : Nat) (dark : Bool) : Option CLine × State :=
  let d := n / 18
  if s.l3Closed (l3Idx d line) then (none, s)
  else
    let b := 0x70 + l3Slice (line * 64)
    let s := s.evtX dark d b 0
    match s.l3Find d line with
    | some (k, l) =>
      if seen l dark then
        let s := s.l3Set d k { l with st := snoopNext .s l.st }
        let l := { l with st := .s, key := key }
        (some l, s.l2Fill n l)
      else (none, s.evtX dark d b 1)
    | none => (none, s.evtX dark d b 1)

/-- A write at the die's L3 slice (R182): served when the slice holds the line in E or M; the line passes to the
requester's L2 under its key ID (R156). -/
def State.l3Own (s : State) (n line key : Nat) (dark : Bool) : Option CLine × State :=
  let d := n / 18
  if s.l3Closed (l3Idx d line) then (none, s)
  else
    let b := 0x70 + l3Slice (line * 64)
    let s := s.evtX dark d b 0
    match s.l3Find d line with
    | some (_, l) =>
      if seen l dark && decide (l.st = .e ∨ l.st = .m) then
        let s := s.each ((s.holders d line).filter (· ≠ n)) fun s m =>
          s.setCaches m ((s.core m).caches.probe .i line).2
        let l := { l with st := .m, key := key }
        (some l, (s.l3Drop d line).l2Fill n l)
      else (none, s.evtX dark d b 1)
    | none => (none, s.evtX dark d b 1)

/-! ### Miss entries (R153, R175) -/

/-- Whether a core has a miss entry open for a line. -/
def State.missAt (s : State) (n line : Nat) : Bool := (s.core n).caches.misses.any (fun m => m.line = line)

/-- Whether a miss entry is free at each cache that the miss passes (Table 5-1): 8 in the L1I, 24 in the L1D, 48 in the
L2 and 64 in the line's L3 slice. -/
def State.missRoom (s : State) (n line : Nat) (l1 : L1Of) : Bool :=
  if n ≥ 216 then true
  else
    let mine := (s.core n).caches.misses
    let at' (x : L1Of) : Nat := (mine.filter (fun m => decide (m.l1 = x))).length
    let slice := ((List.range 18).map fun i =>
      ((s.core (n / 18 * 18 + i)).caches.misses.filter (fun m => decide (l3Slice (m.line * 64) = l3Slice (line * 64)))).length).sum
    decide (mine.length < 48 ∧ slice < 64) &&
    (match l1 with | .none => true | .l1i => decide (at' .l1i < 8) | .l1d => decide (at' .l1d < 24))

/-- Open a miss entry, unless the line has one. -/
def State.missOpen (s : State) (n line key : Nat) (write spec : Bool) (l1 : L1Of) : State :=
  if s.missAt n line then s
  else
    let c := (s.core n).caches
    s.setCaches n { c with misses := c.misses ++ [⟨line, write, false, spec, key, l1⟩] }

/-- A core asks the home for a line.  The miss entry is open until the answer comes; with none free, or with one open for
another request of the line, the core waits (R153, R175). -/
def State.fillAsk (s : State) (k : ReqKind) (r : HomeReq) (l1 : L1Of) : Fill × State :=
  let n := r.core
  let mine := s.underWay k r || s.home.replies.any (fun h => decide (h.kind = k) && decide (h.req = r))
  if !mine && (s.missAt n r.line || !s.missRoom n r.line l1) then (.wait, s)
  else
    let q := s.homeSync k r
    (q.2.ofAns n r.line q.1, if q.2.underWay k r then q.2.missOpen n r.line r.key (decide (k ≠ .rds)) r.spec l1 else q.2)

/-- Obtain a line for reading (R182), for an L1 or for the L2 alone. -/
def State.getLine' (s : State) (n line key : Nat) (dark spec : Bool) (l1 : L1Of) : Fill × State :=
  let home (s : State) : Fill × State := s.fillAsk .rds (coreReq s n line key dark spec false) l1
  if n ≥ 216 then
    match SMap.find s.spCache line with
    | some l => if seen l dark then (.line l false, s) else home s
    | none => home s
  else
    let c := (s.core n).caches
    match c.current line with
    | some l =>
      if seen l dark then
        (.line l false, match c.l2Find line with | some (k, _) => s.setCaches n (c.touchL2 k) | none => s)
      else home s
    | none =>
      if s.missAt n line then home s
      else match (s.evtC n 0x58 0).l3Read n line key dark with
        | (some l, s) => (.line l false, s)
        | (none, s) => home s

/-- Obtain a line with write permission (R182, R187). -/
def State.ownLine (s : State) (n line key : Nat) (dark forStore : Bool) : Fill × State :=
  let home (s : State) (k : ReqKind) : Fill × State := s.fillAsk k (coreReq s n line key dark false forStore) .l1d
  if n ≥ 216 then
    match SMap.find s.spCache line with
    | some l => if !seen l dark then home s .rdo
        else if l.st = .m ∨ l.st = .e then (.line l false, s) else home s .upg
    | none => home s .rdo
  else
    let c := (s.core n).caches
    match c.current line with
    | some l =>
      if !seen l dark then home s .rdo
      else if l.st = .m ∨ l.st = .e then
        (.line l false, match c.l2Find line with | some (k, _) => s.setCaches n (c.touchL2 k) | none => s)
      else if s.missAt n line then home s .upg
      else match (s.evtC n 0x58 6).l3Own n line key dark with
        | (some l, s) => (.line l false, s)
        | (none, s) => home s .upg
    | none =>
      if s.missAt n line then home s .rdo
      else match (s.evtC n 0x58 0).l3Own n line key dark with
        | (some l, s) => (.line l false, s)
        | (none, s) => home s .rdo

/-- Read a line through the L1D (R153, R162, R163). -/
def State.loadLine (s : State) (n line key : Nat) (dark spec : Bool) : Fill × State :=
  if n ≥ 216 then s.getLine' n line key dark spec .l1d
  else
    let hit := s.l1Lookup n line
    let fill (s : State) : Fill × State :=
      match (s.evtC n 0x40 0).getLine' n line key dark spec .l1d with
      | (.line l nf, s) =>
        (.line l nf, if nf || ((s.core n).caches.l2Find line).isNone then s
          else s.l1Fill n ⟨line, l.data, l.poison, false, l.key, l.dark⟩)
      | r => r
    if hit.1 then
      match (hit.2.core n).caches.l1Sector line with
      | some x => if dark || !x.dark then (.line ⟨line, .s, x.data, x.poison, x.key, x.dark⟩ false, hit.2) else fill hit.2
      | none => fill hit.2
    else fill s

/-- Write bytes of a line that the core owns (R157): only a store of all 64 bytes clears poison. -/
def State.writeOwned (s : State) (n : Nat) (l : CLine) (data : Line) (mask : BitVec 64) : State :=
  let full := decide (mask = BitVec.allOnes 64)
  let d := mergeLine l.data data mask
  let p := l.poison && !full
  if n ≥ 216 then
    { s with spCache := SMap.set s.spCache l.line { l with st := .m, data := d, poison := p } }
  else
    let s := match (s.core n).caches.l2Find l.line with
      | some (k, x) => s.setCaches n { (s.core n).caches with l2 := SMap.set (s.core n).caches.l2 k { x with st := .m } }
      | none => s
    let s := (s.l1Lookup n l.line).2
    s.l1Fill n ⟨l.line, d, p, true, l.key, l.dark⟩

/-- A store becomes visible (R87): the line is obtained in M and written; a refused store is
discarded (R290, R426). `false`: it waits. -/
def State.storeLine (s : State) (n line key : Nat) (dark : Bool) (data : Line) (mask : BitVec 64) : Bool × State :=
  match s.ownLine n line key dark true with
  | (.line l nf, s) => (true, if nf then s else s.writeOwned n l data mask)
  | (_, s) => (false, s)

/-! ### Uncached accesses -/

/-- Who makes an uncached access: SOURCE and AGENT of WLD_REFLOG0. -/
structure Who where
  src   : Nat
  agent : Nat
  core  : Nat
  deriving DecidableEq, Repr

/-- An engine of the ZCI. -/
def Who.zci : Who := ⟨3, 0, 219⟩
/-- A core. -/
def State.whoCore (s : State) (n : Nat) : Who := ⟨if n < 216 then 1 else 2, if n < 216 then s.sysCore n else n - 216, n⟩
/-- A Flexible I/O group. -/
def Who.dma (g : Nat) : Who := ⟨4, g, 219⟩
/-- The Lend endpoint. -/
def Who.lend (fn : Nat) : Who := ⟨5, fn, 219⟩

/-- The uncached request of an agent. -/
def uncReq (w : Who) (line key : Nat) (dark : Bool) : HomeReq :=
  { evReq (coreAgent w.core) line key with core := w.core, dark := dark, src := w.src, srcAgent := w.agent }

/-- Make several requests as one: each is made once, and the answers are taken together when the last has come; `none`
while one is awaited. -/
def State.homeAll (s : State) (l : List (ReqKind × HomeReq)) : Option (List HomeAns) × State :=
  let r := l.foldl (fun (a : List (ReqKind × HomeReq × HomeAns) × State) p =>
    let q := a.2.homeSync p.1 p.2
    (a.1 ++ [(p.1, p.2, q.1)], q.2)) ([], s)
  if r.1.all (fun x => decide (x.2.2 ≠ .wait)) then (some (r.1.map (·.2.2)), r.2)
  else (none, r.1.foldl (fun s x => if x.2.2 = .wait then s else s.holdAns ⟨x.1, x.2.1, .held, none⟩ x.2.2) r.2)

/-- The data of an answer, and whether it is poisoned. -/
def HomeAns.data : HomeAns → Line × Bool
  | .reply d p _ _ => (d, p)
  | _ => (0, false)

/-- Read a line uncached: none while it waits. -/
def State.uncRead (s : State) (w : Who) (line key : Nat) (dark : Bool) : Option (Line × Bool) × State :=
  match s.homeSync .rdc (uncReq w line key dark) with
  | (.reply d p _ _, s) => (some (d, p), s)
  | (_, s) => (none, s)

/-- The uncached write of bytes of a line (R196): a whole line is WrF, any other WrP. -/
def uncStore (w : Who) (line key : Nat) (dark : Bool) (data : Line) (mask : BitVec 64) (poison : Bool) : ReqKind × HomeReq :=
  (if mask = BitVec.allOnes 64 then .wrf else .wrp, { uncReq w line key dark with data := data, mask := mask, poison := poison })

/-- Write bytes of a line uncached (R196); `false`: it has not been performed yet. -/
def State.uncWrite (s : State) (w : Who) (line key : Nat) (dark : Bool) (data : Line) (mask : BitVec 64)
    (poison : Bool) : Bool × State :=
  let p := uncStore w line key dark data mask poison
  match s.homeSync p.1 p.2 with
  | (.done, s) => (true, s)
  | (_, s) => (false, s)

/-- The pieces of a byte range by line: line, offset in the line, length. -/
def linePieces (fuel addr len : Nat) : List (Nat × Nat × Nat) :=
  match fuel with
  | 0 => []
  | f + 1 =>
    if len = 0 then []
    else
      let n := min len (64 - addr % 64)
      (addr / 64, addr % 64, n) :: linePieces f (addr + n) (len - n)

/-- Read a range of HPAs uncached: the bytes and whether any was poisoned. -/
def State.uncBytes (s : State) (w : Who) (addr len key : Nat) (dark : Bool) : Option (List Byte × Bool) × State :=
  let ps := linePieces (len / 64 + 2) addr len
  match s.homeAll (ps.map fun p => (.rdc, uncReq w p.1 key dark)) with
  | (none, s) => (none, s)
  | (some l, s) =>
    (some (((l.map HomeAns.data).zip ps).flatMap (fun p => sliceB (lineBytes p.1.1) p.2.2.1 p.2.2.2), l.any (fun a => a.data.2)), s)

/-- The requests of a write of a range of HPAs. -/
def putReqs (w : Who) (addr key : Nat) (dark : Bool) (bytes : List Byte) : List (ReqKind × HomeReq) :=
  (linePieces (bytes.length / 64 + 2) addr bytes.length).map fun p =>
    uncStore w p.1 key dark (lineOf (List.replicate p.2.1 0 ++ sliceB bytes (p.1 * 64 + p.2.1 - addr) p.2.2)) (maskAt p.2.1 p.2.2) false

/-- Write a range of HPAs uncached; `false`: not every write has been performed yet. -/
def State.uncPut (s : State) (w : Who) (addr key : Nat) (dark : Bool) (bytes : List Byte) : Bool × State :=
  match s.homeAll (putReqs w addr key dark bytes) with
  | (some _, s) => (true, s)
  | (none, s) => (false, s)

end Sys2Proof.Machine
end

