-- ==== Sys2Proof/Machine/Translate.lean ====
section
/-! DEFINITION.
Address translation (spec/04): table walks of both stages, checks in the order of R129, syndromes,
the TLBs and walk caches of a core, memory types, and the I/O translation unit. -/

namespace Sys2Proof.Machine

/-- The value of a state register of a core. -/
def Core.srv (c : Core) (n : Nat) : Word := SMap.get srReset c.sr n

/-- Bits `lo` to `lo + w - 1` of a word. -/
def bitsOf (v : Word) (lo w : Nat) : Nat := (v.toNat >>> lo) % 2 ^ w

/-! ### Entries -/

/-- The output address of an entry (R123). -/
def entOA (e : Word) : Nat := bitsOf e 12 38 * 4096 + bitsOf e 10 2 * 2 ^ 50
/-- TYPE of an entry. -/
def entType (e : Word) : Nat := bitsOf e 0 2
/-- KEYID of a leaf. -/
def entKey (e : Word) : Nat := bitsOf e 50 14
/-- The lowest address bit that a level indexes (Table 4-2). -/
def levelShift (level : Nat) : Nat := 12 + 9 * (4 - level)

/-- What an access needs: ACCESS of Table 4-4 (0 read, 1 write, 2 fetch, 3 read-modify-write), its
level (0 U, 1 S or M, 2 H), the guards, whether marks and execute permission are checked. -/
structure XAcc where
  acc   : Nat
  level : Nat
  sxg   : Bool
  sag   : Bool
  marks : Bool
  deriving DecidableEq, Repr

/-- Whether the access writes (R125). -/
def XAcc.writes (a : XAcc) : Bool := decide (a.acc = 1 ∨ a.acc = 3)

/-- A syndrome of Table 4-4. -/
def syn (kind level stage acc : Nat) (walk guard : Bool) : Nat :=
  kind + level * 16 + stage * 128 + acc * 256 + (if walk then 1024 else 0) + (if guard then 2048 else 0)

/-- A regime as its registers give it: stage-1 base, stage-2 base, walk key IDs, the world of its
requests, who reads (none: the core), and the tags of what it caches. -/
structure Regime where
  code  : Nat
  s1    : Option Nat
  s2    : Option Nat
  k1    : Nat
  k2    : Nat
  dark  : Bool
  core  : Nat
  iotu  : Option Who
  spec  : Bool
  vmid  : Nat
  asid  : Option Nat
  deriving DecidableEq, Repr

/-- The outcome of a translation. -/
inductive Xl (α : Type) where
  | ok (a : α)
  | fault (syn : Nat) (ipa : Option Nat)
  | wait
  | defer

/-- A checked leaf. -/
structure Leaf where
  pa    : Nat
  key   : Nat
  attr  : Nat
  level : Nat
  b5    : Bool
  w     : Bool
  x     : Bool
  d     : Bool
  deriving DecidableEq, Repr

/-- Fields of a leaf entry (Table 4-3). -/
def leafOf (e : Word) (level input : Nat) : Leaf :=
  let sh := levelShift level
  { pa := entOA e + input % 2 ^ sh, key := entKey e, attr := bitsOf e 2 3, level := level,
    b5 := e.getLsbD 5, w := e.getLsbD 6, x := e.getLsbD 7, d := e.getLsbD 9 }

/-- Whether an entry is a good leaf of its level (R122). -/
def goodLeaf (e : Word) (level : Nat) : Bool :=
  decide (level ≥ 2) && !(decide (level = 2) && decide (bitsOf e 12 18 ≠ 0)) &&
  !(decide (level = 3) && decide (bitsOf e 12 9 ≠ 0))

/-- What a table read found (R130–R132). -/
inductive Rd where
  | val (w : Word)
  | device
  | darkroom
  | poison
  | wait
  | defer
  deriving DecidableEq, Repr

/-- Whether an HPA is tiered memory of some package (R30, R31). -/
def State.isTiered (s : State) (hpa : Nat) : Bool :=
  match s.mapOf hpa with
  | some m => decide (m.kind = 0 ∨ m.kind = 7)
  | none => false

/-- Whether a core's L2 or its L3 slice, or the service cores' cache, holds a line. -/
def State.holdsLine (s : State) (n line : Nat) : Bool :=
  if n ≥ 216 then (SMap.find s.spCache line).isSome
  else ((s.core n).caches.l2Find line).isSome || (s.l3Find (n / 18) line).isSome

/-- A line that a walk has just filled leaves the caches again: nothing of a poisoned table read is cached (R132). -/
def State.uncache (s : State) (n line : Nat) (dark : Bool) : State :=
  let s := s.leaveOwn n line dark
  (if n ≥ 216 then s else s.l3Drop (n / 18) line).drainWb

/-- Read a table entry at an HPA (R130–R133); a line that the read finds poisoned stays in no cache that did not hold it
before (R132). -/
def State.readEnt (s : State) (r : Regime) (hpa key : Nat) : Rd × State :=
  if !s.isTiered hpa then (.device, s)
  else if !r.dark && s.isDark hpa then (.darkroom, s)
  else
    let get (d : Line) (p : Bool) (s : State) : Rd × State :=
      (if p then .poison else .val (BitVec.ofNat 64 (lineField d (hpa % 64) 8)), s)
    match r.iotu with
    | some w => match (s.evt 15 0x48 3).uncRead w (hpa / 64) key r.dark with
      | (some (d, p), s) => get d p s
      | (none, s) => (.wait, s)
    | none =>
      let had := s.holdsLine r.core (hpa / 64)
      match (s.evtC r.core 0x88 3).getLine' r.core (hpa / 64) key r.dark r.spec .none with
      | (.line l _, s) => get l.data l.poison (if l.poison && !had then s.uncache r.core (hpa / 64) r.dark else s)
      | (.deferred, s) => (.defer, s)
      | (.wait, s) => (.wait, s)

/-- The walk caches of a core: the table that serves `level` for an input on walks from `root` (Table 4-5). -/
def State.walkHit (s : State) (r : Regime) (s2 : Bool) (root level input : Nat) : Option Nat :=
  if r.iotu.isSome then none
  else
    let t := (s.core r.core).tlbs
    ((if s2 then t.walk2 else t.walk1).find? (fun (w : WalkEnt) => decide (w.regime = r.code) && decide (w.vmid = r.vmid) &&
      (s2 || decide (w.asid = r.asid)) && decide (w.root = root) && decide (w.level = level) && decide (w.prefx = input >>> (levelShift level + 9)))).map (·.table)

/-- Note a table in the walk caches. -/
def State.walkPut (s : State) (r : Regime) (s2 : Bool) (root level input table : Nat) : State :=
  if r.iotu.isSome then s
  else
    let c := s.core r.core
    let w : WalkEnt := { regime := r.code, vmid := r.vmid, asid := if s2 then none else r.asid, root := root, stage2 := s2,
                         level := level, prefx := input >>> (levelShift level + 9), table := table }
    let t := c.tlbs
    let t := if s2 then { t with walk2 := (w :: t.walk2.filter (· ≠ w)).take 32 }
      else { t with walk1 := (w :: t.walk1.filter (· ≠ w)).take 64 }
    s.setCore r.core { c with tlbs := t }

/-- The deepest level that the walk caches serve, with its table. -/
def State.walkStart (s : State) (r : Regime) (s2 : Bool) (base input : Nat) : Nat × Nat :=
  match ([4, 3, 2, 1].findSome? fun l => (s.walkHit r s2 base l input).map (fun t => (l, t))) with
  | some p => p
  | none => (0, base)

/-! ### Stage 2 and single walks -/

/-- Read through the levels of one stage (R120, R122): `rd` reads the entry of a table at an index.
The leaf and its level, or a fault kind with its level. -/
def walkLevels (fuel root level table input : Nat) (s2 : Bool) (r : Regime)
    (rd : Nat → Nat → State → Xl Word × State) (acc : Nat) (wk : Bool) (s : State) : Xl (Word × Nat) × State :=
  match fuel with
  | 0 => (.fault (syn 0 4 (if s2 then 1 else 0) acc wk false) none, s)
  | f + 1 =>
    let bits := if s2 && decide (level = 0) then 4 else 9
    let idx := (input >>> levelShift level) % 2 ^ bits
    let bad : Xl (Word × Nat) := .fault (syn 0 level (if s2 then 1 else 0) acc wk false) none
    match rd (table + 8 * idx) level s with
    | (.fault y i, s) => (.fault y i, s)
    | (.wait, s) => (.wait, s)
    | (.defer, s) => (.defer, s)
    | (.ok e, s) =>
      if entType e = 1 then (if goodLeaf e level then .ok (e, level) else bad, s)
      else if entType e = 3 then
        if level = 4 then (bad, s)
        else walkLevels f root (level + 1) (entOA e) input s2 r rd acc wk (s.walkPut r s2 root (level + 1) input (entOA e))
      else (bad, s)

/-- Read an entry whose table address is an HPA (R130–R133). -/
def State.rdHpa (r : Regime) (key stage acc : Nat) (wk : Bool) (hpa level : Nat) (s : State) : Xl Word × State :=
  match s.readEnt r hpa key with
  | (.val w, s) => (.ok w, s)
  | (.device, s) => (.fault (syn 4 level stage acc wk false) none, s)
  | (.darkroom, s) => (.fault (syn 5 level stage acc wk false) none, s)
  | (.poison, s) => (.fault (syn 6 level stage acc wk false) none, s)
  | (.wait, s) => (.wait, s)
  | (.defer, s) => (.defer, s)

/-- Stage-2 checks of a leaf (R125, R128, R129 steps 8–10, R148): the fault kind that fails. -/
def s2Check (a : XAcc) (e : Word) : Option Nat :=
  let rbit := e.getLsbD 5
  let wbit := e.getLsbD 6
  let ok := match a.acc with
    | 0 => rbit
    | 1 => wbit
    | 2 => e.getLsbD 7
    | _ => rbit && wbit
  if !ok then some 1
  else if a.marks && !e.getLsbD 8 then some 2
  else if a.marks && a.writes && !e.getLsbD 9 then some 3
  else none

/-- Translate an IPA by stage 2 (R129 steps 7–10). -/
def State.stage2 (s : State) (r : Regime) (base : Nat) (a : XAcc) (wk : Bool) (ipa : Nat) : Xl Leaf × State :=
  let st := s.walkStart r true base ipa
  let tag (x : Xl (Word × Nat)) : Xl (Word × Nat) := match x with
    | .fault y _ => .fault y (some ipa)
    | z => z
  let p := walkLevels 5 base st.1 st.2 ipa true r (State.rdHpa r r.k2 1 a.acc wk) a.acc wk s
  match tag p.1, p.2 with
  | .ok (e, lv), s => match s2Check a e with
    | some k => (.fault (syn k lv 1 a.acc wk false) (some ipa), s)
    | none => (.ok (leafOf e lv ipa), s)
  | .fault y i, s => (.fault y i, s)
  | .wait, s => (.wait, s)
  | .defer, s => (.defer, s)

/-- The memory type that an attribute table gives an index. -/
def attrType (tbl : Word) (i : Nat) : Nat := bitsOf tbl (8 * i) 2

/-- A stage-2-only translation that serves a table address (R139). -/
def TlbEnt.maps (t : TlbEnt) (r : Regime) (ipa : Nat) : Bool :=
  t.s2only && decide (t.regime = r.code ∧ t.vmid = r.vmid ∧ t.root2 = r.s2) && decide (t.base ≤ ipa ∧ ipa < t.base + t.size)

/-- The set of the L2 TLB, or of the IOTU's translation cache, that an entry lies in (DESIGN CHOICE, log 62: the spec
gives the number of sets, and no index). -/
def TlbEnt.setOf (sets : Nat) (t : TlbEnt) : Nat := (t.base / t.size) % sets

/-- Put an entry into a set of eight ways, the newest first: the oldest of a full set goes (DESIGN CHOICE, log 24). -/
def putWay {α : Type} (l : List α) (e : α) (inSet : α → Bool) : List α :=
  if (l.filter inSet).length ≥ 8 then e :: (l.reverse.eraseP inSet).reverse else e :: l

/-- Whether two entries hold the translation of one address range under the same tags. -/
def TlbEnt.same (x e : TlbEnt) : Bool :=
  decide (x.regime = e.regime ∧ x.vmid = e.vmid ∧ x.asid = e.asid ∧ x.s2only = e.s2only ∧ x.base = e.base ∧ x.size = e.size) &&
  decide (x.root1 = e.root1 ∧ x.root2 = e.root2)

/-- Put a translation into the ITLB or DTLB and the L2 TLB of 512 sets (Table 4-5), newest first (DESIGN CHOICE, log 24). -/
def State.tlbPut (s : State) (n : Nat) (fetch : Bool) (e : TlbEnt) : State :=
  if e.attr1.isNone && e.attr2.isNone then s
  else
    let c := s.core n
    let t := c.tlbs
    let put (l : List TlbEnt) (m : Nat) : List TlbEnt := (e :: l.filter (fun x => !x.same e)).take m
    let t := if fetch then { t with itlb := put t.itlb 64 } else { t with dtlb := put t.dtlb 96 }
    s.setCore n { c with tlbs := { t with
      l2tlb := putWay (t.l2tlb.filter (fun x => !x.same e)) e (fun x => decide (x.setOf 512 = e.setOf 512)) } }

/-- Translate the IPA of a stage-1 table by stage 2 as a load (R130), through the stage-2-only entries of the TLBs (R139);
one that refuses the read is discarded and walked again (R135). -/
def State.tableIpa (s : State) (r : Regime) (base acc : Nat) (marks : Bool) (ipa : Nat) : Xl Leaf × State :=
  let a : XAcc := { acc := 0, level := 0, sxg := false, sag := false, marks := marks }
  if r.iotu.isSome then s.stage2 r base a true ipa
  else
    let c := s.core r.core
    let t := c.tlbs
    let m (l : List TlbEnt) : Option TlbEnt := l.find? (fun x => x.maps r ipa)
    let walk (s : State) : Xl Leaf × State := match s.stage2 r base a true ipa with
      | (.ok l, s) =>
        let size := 2 ^ levelShift l.level
        (.ok l, s.tlbPut r.core (decide (acc = 2))
          { regime := r.code, vmid := r.vmid, asid := none, root1 := none, root2 := r.s2, s2only := true,
            base := ipa / size * size, size := size, pa := l.pa / size * size, key := l.key, attr1 := none, attr2 := some l.attr,
            u := false, x := true, w := true, d := true, s2 := true, r2 := l.b5, w2 := l.w, x2 := l.x, d2 := l.d,
            lv1 := 0, lv2 := l.level, ipa := ipa / size * size })
      | z => z
    match (match m (if acc = 2 then t.itlb else t.dtlb) with | some e => some e | none => m t.l2tlb) with
    | some e =>
      if e.r2 then (.ok { pa := e.pa + (ipa - e.base), key := e.key, attr := e.attr2.getD 0, level := e.lv2,
                          b5 := e.r2, w := e.w2, x := e.x2, d := e.d2 }, s)
      else
        let keep (l : List TlbEnt) : List TlbEnt := l.filter (fun x => !x.maps r ipa)
        walk (s.setCore r.core { c with tlbs := { t with itlb := keep t.itlb, dtlb := keep t.dtlb, l2tlb := keep t.l2tlb } })
    | none => walk s

/-- Read a stage-1 entry whose table address is an IPA (R130, R131, R133).  ACCESS of a fault with WALK = 1 is that of the
access for which the walk is made (DESIGN CHOICE, log 62: R130 makes the table's translation a load, R136 does not say). -/
def State.rdIpa (r : Regime) (base acc : Nat) (marks : Bool) (ipa level : Nat) (s : State) : Xl Word × State :=
  match s.tableIpa r base acc marks ipa with
  | (.ok l, s) =>
    let dev := r.iotu.isNone && decide (attrType ((s.core r.core).srv 0x840) l.attr ≥ 2)
    let bad (k : Nat) : Xl Word := .fault (syn k l.level 1 acc true false) (some ipa)
    if dev || !s.isTiered l.pa then (bad 4, s)
    else if !r.dark && s.isDark l.pa then (bad 5, s)
    else match s.readEnt r l.pa l.key with
      | (.val w, s) => (.ok w, s)
      | (.poison, s) => (.fault (syn 6 level 0 acc false false) none, s)
      | (.device, s) => (bad 4, s)
      | (.darkroom, s) => (bad 5, s)
      | (.wait, s) => (.wait, s)
      | (.defer, s) => (.defer, s)
  | (.fault y i, s) => (.fault ((y / 1024) * 1024 + acc * 256 + y % 256) i, s)
  | (.wait, s) => (.wait, s)
  | (.defer, s) => (.defer, s)

/-- Stage-1 checks of a leaf (R125–R128, R148): the fault kind that fails and whether a guard did. -/
def s1Check (a : XAcc) (user w x acc' d : Bool) : Option (Nat × Bool) :=
  let lvl := if a.level = 0 then user else true
  let guard := decide (a.level = 1) && user && (if a.acc = 2 then a.sxg else a.sag)
  let ok := match a.acc with
    | 1 => w
    | 2 => x
    | 3 => w
    | _ => true
  if !lvl then some (1, false)
  else if guard then some (1, true)
  else if !ok then some (1, false)
  else if a.marks && !acc' then some (2, false)
  else if a.marks && a.writes && !d then some (3, false)
  else none

/-- Whether an input address passes R119 and R121; `upper` halves exist outside the host and device
regimes. -/
def canonical (va : Nat) : Bool := decide (va >>> 56 = 0 ∨ va >>> 56 = 255)

/-- A complete walk for an access (R129): the TLB entry that it makes. -/
def State.walk (s : State) (r : Regime) (a : XAcc) (va : Nat) : Xl TlbEnt × State :=
  let ent (l1 : Option Leaf) (u : Bool) (l2 : Option Leaf) : TlbEnt :=
    let sz (l : Option Leaf) : Nat := match l with | some x => 2 ^ levelShift x.level | none => 2 ^ 57
    let size := min (sz l1) (sz l2)
    let last := match l2 with | some x => x.pa | none => match l1 with | some x => x.pa | none => va
    { regime := r.code, vmid := r.vmid, asid := r.asid, root1 := r.s1, root2 := r.s2, s2only := false, base := va / size * size, size := size,
      pa := last / size * size,
      key := (match l2 with | some x => x.key | none => match l1 with | some x => x.key | none => 0),
      attr1 := l1.map (·.attr), attr2 := l2.map (·.attr), u := u,
      x := (match l1 with | some x => x.x | none => true), w := (match l1 with | some x => x.w | none => true),
      d := (match l1 with | some x => x.d | none => true), s2 := l2.isSome,
      r2 := (match l2 with | some x => x.b5 | none => true), w2 := (match l2 with | some x => x.w | none => true),
      x2 := (match l2 with | some x => x.x | none => true), d2 := (match l2 with | some x => x.d | none => true),
      lv1 := (match l1 with | some x => x.level | none => 0), lv2 := (match l2 with | some x => x.level | none => 0),
      ipa := (match l1 with | some x => x.pa | none => va) / size * size }
  let second (l1 : Option Leaf) (u : Bool) (ipa : Nat) (s : State) : Xl TlbEnt × State :=
    match r.s2 with
    | none => (.ok (ent l1 u none), s)
    | some base => match s.stage2 r base a false ipa with
      | (.ok l2, s) => (.ok (ent l1 u (some l2)), s)
      | (.fault y i, s) => (.fault y i, s)
      | (.wait, s) => (.wait, s)
      | (.defer, s) => (.defer, s)
  match r.s1 with
  | none =>
    if va ≥ 2 ^ 52 then (.fault (syn 0 0 0 a.acc false false) none, s) else second none true va s
  | some base =>
    let st := s.walkStart r false base (va % 2 ^ 57)
    let rd := match r.s2 with
      | some b2 => State.rdIpa r b2 a.acc a.marks
      | none => State.rdHpa r r.k1 0 a.acc false
    match walkLevels 5 base st.1 st.2 (va % 2 ^ 57) false r rd a.acc false s with
    | (.ok (e, lv), s) =>
      let l := leafOf e lv va
      (match s1Check a l.b5 l.w l.x (e.getLsbD 8) l.d with
      | some (k, g) => (.fault (syn k lv 0 a.acc false g) none, s)
      | none => second (some l) l.b5 l.pa s)
    | (.fault y i, s) => (.fault y i, s)
    | (.wait, s) => (.wait, s)
    | (.defer, s) => (.defer, s)

/-- Whether a TLB entry grants an access without a walk; A is set in every entry (R139). -/
def TlbEnt.grants (t : TlbEnt) (a : XAcc) : Bool :=
  (t.attr1.isNone || (s1Check a t.u t.w t.x true t.d).isNone) &&
  (!t.s2 || (match a.acc with
    | 0 => t.r2
    | 1 => t.w2
    | 2 => t.x2
    | _ => t.r2 && t.w2) && (!a.marks || !a.writes || t.d2))

/-! ### Core regimes -/

/-- Whether a core is in the Darkroom regime: level M, or U and S in the Darkroom world (R118). -/
def Core.darkRegime (c : Core) : Bool := c.darkW || decide (c.level = 3)

/-- The half of a VA that a regime walks, and the fault of R119 if it may not. -/
def halfOf (tcr tbr0 tbr1 : Word) (va : Nat) : Option (Nat × Bool) :=
  if !canonical va then none
  else if va < 2 ^ 63 then (if tcr.getLsbD 1 then some (bitsOf tbr0 12 40 * 4096, false) else none)
  else if tcr.getLsbD 2 then some (bitsOf tbr1 12 40 * 4096, true) else none

/-- The regime of an access of core `n` at a level and world (Table 4-1); none: R119 faults. -/
def State.regimeOf (s : State) (n level : Nat) (dark spec : Bool) (va : Nat) : Option Regime :=
  let c := s.core n
  let mk (code : Nat) (tcr tbr0 tbr1 : Word) (s2 : Option Nat) (k2 vmid : Nat) (dk : Bool) : Option Regime :=
    let base : Regime := { code := code, s1 := none, s2 := s2, k1 := bitsOf tcr 34 14, k2 := k2, dark := dk, core := n,
                           iotu := none, spec := spec, vmid := vmid, asid := some (bitsOf tcr 48 16) }
    if !tcr.getLsbD 0 then some base
    else (halfOf tcr tbr0 tbr1 va).map fun h => { base with s1 := some h.1, asid := if h.2 then none else base.asid }
  if n ≥ 216 then mk 3 (c.srv 0x502) (c.srv 0x500) (c.srv 0x501) none 0 0 (decide (n = 216))
  else if dark || decide (level = 3) then mk 2 (c.srv 0xD52) (c.srv 0xD50) (c.srv 0xD51) none 0 0 dark
  else if level = 2 then
    let h := c.srv 0x903
    let base : Regime := { code := 1, s1 := none, s2 := none, k1 := bitsOf h 34 14, k2 := 0, dark := false, core := n,
                           iotu := none, spec := spec, vmid := 0, asid := none }
    if !h.getLsbD 0 then some base
    else if va ≥ 2 ^ 56 then none
    else some { base with s1 := some (bitsOf (c.srv 0x902) 12 40 * 4096) }
  else
    let v := c.srv 0x901
    mk 0 (c.srv 0x502) (c.srv 0x500) (c.srv 0x501)
      (if v.getLsbD 0 then some (bitsOf (c.srv 0x900) 12 40 * 4096) else none) (bitsOf v 34 14) (bitsOf v 48 16) false

/-- The guards of a core for an access at a level: SAG as its register holds it, SXG as the last ISYNC found it (R126). -/
def State.xacc (s : State) (n acc level : Nat) (dark : Bool) : XAcc :=
  let c := s.core n
  let g := if dark || decide (level = 3) then c.srv 0xD53 else c.srv 0x503
  let lv := if level = 0 then 0 else if level = 2 ∧ n < 216 ∧ !dark then 2 else 1
  { acc := acc, level := lv, sxg := if dark || decide (level = 3) then c.sxgD else c.sxgS, sag := g.getLsbD 1, marks := true }

/-- The tags of a TLB entry that an access matches (R138). -/
def TlbEnt.tags (t : TlbEnt) (r : Regime) (va : Nat) : Bool :=
  decide (t.regime = r.code) && decide (t.vmid = r.vmid) && !t.s2only && decide (t.asid = none ∨ t.asid = r.asid) &&
  decide (t.root1 = r.s1 ∧ t.root2 = r.s2) &&
  decide (t.base ≤ va ∧ va < t.base + t.size)

/-- The more restrictive of two memory types (R96). -/
def typeMin (a b : Nat) : Nat :=
  if a = 2 ∨ b = 2 then 2 else if a = 3 ∨ b = 3 then 3 else if a = 1 ∨ b = 1 then 1 else 0

/-- A translated access: its HPA, key ID and memory type, and the level, stage and IPA that a permission
fault of the final stage reports (R107). -/
structure Xlat where
  hpa   : Nat
  key   : Nat
  type  : Nat
  level : Nat
  ipa   : Option Nat
  deriving DecidableEq, Repr

/-- The memory type of a translation (R96). -/
def State.typeOf (s : State) (n code acc : Nat) (t : TlbEnt) : Nat :=
  let c := s.core n
  let off := if acc = 2 then 0 else 2
  match t.attr1, t.attr2 with
  | none, none => off
  | a1, a2 =>
    let m1 := match a1 with
      | some i => attrType (c.srv (if code = 1 then 0x840 else if code = 2 then 0xD40 else 0x440)) i
      | none => 0
    let m2 := match a2 with | some i => attrType (c.srv 0x840) i | none => 0
    typeMin m1 m2

/-- Drop the translations that an access matches (R135); locked ones stay. -/
def State.tlbDrop (s : State) (n : Nat) (r : Regime) (va : Nat) : State :=
  let c := s.core n
  let t := c.tlbs
  let keep (l : List TlbEnt) : List TlbEnt := l.filter (fun x => !x.tags r va)
  s.setCore n { c with tlbs := { t with itlb := keep t.itlb, dtlb := keep t.dtlb, l2tlb := keep t.l2tlb, walk1 := [], walk2 := [] } }

/-- Whether a core's walk caches or stage-2-only entries may have served a walk of a regime. -/
def State.walkCached (s : State) (r : Regime) : Bool :=
  let t := (s.core r.core).tlbs
  r.iotu.isNone && ((t.walk1 ++ t.walk2).any (fun w => decide (w.regime = r.code ∧ w.vmid = r.vmid)) ||
    (t.itlb ++ t.dtlb ++ t.l2tlb).any (fun e => e.s2only && decide (e.regime = r.code ∧ e.vmid = r.vmid)))

/-- Walk, and where a cached table led to a fault, discard what is cached of the walks and walk again (R135). -/
def State.walkAgain (s : State) (r : Regime) (a : XAcc) (va : Nat) : Xl TlbEnt × State :=
  match s.walk r a va with
  | (.fault y i, s') =>
    if s.walkCached r then
      let c := s'.core r.core
      let keep (l : List TlbEnt) : List TlbEnt := l.filter (fun e => !(e.s2only && decide (e.regime = r.code ∧ e.vmid = r.vmid)))
      (s'.setCore r.core { c with tlbs := { c.tlbs with
        itlb := keep c.tlbs.itlb, dtlb := keep c.tlbs.dtlb, l2tlb := keep c.tlbs.l2tlb, walk1 := [], walk2 := [] } }).walk r a va
    else (.fault y i, s')
  | z => z

/-- Translate an access of a core (R118–R140): locked set, TLBs, then a walk.  A failing cached
entry is discarded and walked again (R135); a locked one is replaced in place by a good walk. -/
def State.translate (s : State) (n acc level : Nat) (dark spec : Bool) (va : Nat) : Xl Xlat × State :=
  match s.regimeOf n level dark spec va with
  | none => (.fault (syn 0 0 0 acc false false) none, s)
  | some r =>
    let a := s.xacc n acc level dark
    let a := if r.code = 1 then { a with level := 2 } else a
    let t := (s.core n).tlbs
    let fetch := decide (acc = 2)
    let out (s : State) (e : TlbEnt) : Xl Xlat × State :=
      (.ok ⟨(e.pa + (va - e.base)) % 2 ^ 52, e.key, s.typeOf n r.code acc e, if e.s2 then e.lv2 else e.lv1,
        if e.s2 then some (e.ipa + (va - e.base)) else none⟩, s)
    let m (l : List TlbEnt) : Option TlbEnt := l.find? (fun x => x.tags r va)
    let first := if fetch then t.itlb else t.dtlb
    let walk (s : State) (locked : Option TlbEnt) : Xl Xlat × State :=
      match (s.evtC n 0x88 2).walkAgain r a va with
      | (.ok e, s) =>
        (match locked with
        | some old =>
          let c := s.core n
          out (s.setCore n { c with tlbs := { c.tlbs with locked := c.tlbs.locked.map fun x => if x = old then e else x } }) e
        | none => out (s.tlbPut n fetch e) e)
      | (.fault y i, s) => (.fault y i, s)
      | (.wait, s) => (.wait, s)
      | (.defer, s) => (.defer, s)
    match m t.locked with
    | some e => if e.grants a then out s e else walk (s.tlbDrop n r va) (some e)
    | none => match m first with
      | some e => if e.grants a then out s e else walk (s.tlbDrop n r va) none
      | none =>
        let s := s.evtC n 0x88 (if fetch then 1 else 0)
        match m t.l2tlb with
        | some e => if e.grants a then out (s.tlbPut n fetch e) e else walk (s.tlbDrop n r va) none
        | none => walk s none

/-! ### The I/O translation unit -/

/-- Log an IOTU fault (R149): 16 entries, then only LOST. -/
def State.iotuFault (s : State) (addr : Nat) (src rid y : Nat) : State :=
  let info := fIotuFlogb_SYN.put (fIotuFlogb_SOURCE.put 0 src) y
  let info := if src = 8 then fIotuFlogb_INSTANCE.put info rid else fIotuFlogb_RID.put info rid
  if s.iotu.log.length ≥ 16 then (s.fadd kIotuFstat fIotuFstat_LOST 1).evt 15 0x48 5
  else
    let l := s.iotu.log ++ [⟨BitVec.ofNat 64 addr, info⟩]
    let s := { s with iotu := { s.iotu with log := l } }
    let s := s.fput kIotuFstat fIotuFstat_COUNT l.length
    let s := if l.length = 1 then (s.wr kIotuFloga (BitVec.ofNat 64 addr)).wr kIotuFlogb info else s
    ((s.fput kIotuFstat fIotuFstat_PEND 1).evt 15 0x48 4).signal (s.fget kIotuCtl fIotuCtl_FVEC)

/-- The device context of a source (R147): groups 0–7 by requester ID, service instances as 8.  An entry that is read
poisoned, or whose table lies outside tiered memory or in Darkroom memory, counts as one with V = 0 (DESIGN CHOICE, log 62:
R130 to R132 speak of walks, and R147 does not say). -/
def State.devCtx (s : State) (src rid : Nat) : Xl DevCtx × State :=
  let bad : Xl DevCtx := .fault 0 none
  let tbl := if src = 8 then s.rd kIotuSictbase else s.rd (kIotuDctbase src)
  let base := if src = 8 then bitsOf tbl 16 36 * 65536 else bitsOf tbl 21 31 * 2097152
  if !s.fon kIotuCtl fIotuCtl_EN || !tbl.getLsbD 0 then (bad, s)
  else
    let id := src * 65536 + rid
    match s.iotu.ctxs.find? (fun c => c.src = id) with
    | some c => (.ok c, s)
    | none =>
      let a := base + 32 * rid
      let w := if src = 8 then Who.zci else Who.dma src
      let s := s.evt 15 0x48 1
      if !s.isTiered a || s.isDark a then (bad, s)
      else match s.uncRead w (a / 64) 0 false with
        | (none, s) => (.wait, s)
        | (some (d, p), s) =>
          let word (i : Nat) : Word := BitVec.ofNat 64 (lineField d (a % 64 + 8 * i) 8)
          let c : DevCtx := ⟨id, word 0, word 1, word 2⟩
          if p || !c.w0.getLsbD 0 then (bad, s)
          else (.ok c, { s with iotu := { s.iotu with ctxs := (c :: s.iotu.ctxs).take 1024 } })

/-- Translate an address of a device or a service instance (R147, R148); a cached entry that fails a check, the final
one of R148 among them, is discarded and walked again, and a walk that faults is not cached (R135, R150).  `msi`: the interrupt window is
a target as well (R356, log 37). -/
def State.iotuXlateFor (s : State) (msi : Bool) (src rid addr acc : Nat) : Xl (Nat × Nat) × State :=
  match (s.evt 15 0x48 0).devCtx src rid with
  | (.fault _ _, s) => (.fault (syn 0 0 0 acc false false) none, s)
  | (.wait, s) => (.wait, s)
  | (.defer, s) => (.defer, s)
  | (.ok c, s) =>
    let key := bitsOf c.w0 48 14
    let s1 := c.w0.getLsbD 1
    let s2 := c.w0.getLsbD 2
    let r : Regime := { code := 4, s1 := if s1 then some (bitsOf c.w1 12 40 * 4096) else none,
                        s2 := if s2 then some (bitsOf c.w2 12 40 * 4096) else none, k1 := key, k2 := key,
                        dark := false, core := 219, iotu := some (if src = 8 then Who.zci else Who.dma src),
                        spec := false, vmid := bitsOf c.w0 16 16, asid := some (bitsOf c.w0 32 16) }
    let a : XAcc := { acc := acc, level := 0, sxg := false, sag := false, marks := !c.w0.getLsbD 3 }
    let to' (e : TlbEnt) : Nat := (e.pa + (addr - e.base)) % 2 ^ 52
    let lands (s : State) (e : TlbEnt) : Bool :=
      s.isTiered (to' e) || (match s.mapOf (to' e) with | some m => decide (m.kind = 5) || (msi && decide (m.kind = 3)) | none => false)
    let bypass := !s1 && !s2
    let ok (e : TlbEnt) : Xl (Nat × Nat) := .ok (to' e, if bypass then key else e.key)
    let id := src * 65536 + rid
    let hit := s.iotu.tlb.find? (fun p => decide (p.1 = id) && p.2.tags r addr)
    match hit, (match hit with | some p => p.2.grants a && lands s p.2 | none => false) with
    | some p, true => (ok p.2, s)
    | _, _ =>
      let s := { s with iotu := { s.iotu with tlb := s.iotu.tlb.filter (fun p => !(decide (p.1 = id) && p.2.tags r addr)) } }
      let high := s1 && decide (addr ≥ 2 ^ 56)
      if high then (.fault (syn 0 0 0 acc false false) none, s)
      else match ((if s1 || s2 then s.evt 15 0x48 2 else s)).walk r a addr with
        | (.ok e, s) =>
          if !lands s e then
            (.fault (syn 1 (if e.s2 then e.lv2 else e.lv1) (if e.s2 then 1 else 0) acc false false) none, s)
          else (ok e, if bypass then s else { s with iotu := { s.iotu with
            tlb := putWay s.iotu.tlb (id, e) (fun p => decide (p.2.setOf 1024 = e.setOf 1024)) } })
        | (.fault y i, s) => (.fault y i, s)
        | (.wait, s) => (.wait, s)
        | (.defer, s) => (.defer, s)

/-- Translate an address of a device or a service instance (R147, R148). -/
def State.iotuXlate (s : State) (src rid addr acc : Nat) : Xl (Nat × Nat) × State := s.iotuXlateFor false src rid addr acc

end Sys2Proof.Machine
end

