-- ==== Sys2Proof/Machine/Zci.lean ====
section
/-! DEFINITION.
The Zalzan Command Interface (spec/13): commands, the checks of R394, buffers (R402), replies and
their rings, fence-before and chains, and the queue pairs.  The handlers of the classes stand in their
own files; ZciRows.lean joins them. -/

namespace Sys2Proof
open Machine (fieldAt)

/-- A field of a command. -/
def ZCmd.f (z : ZCmd) (lo n : Nat) : Nat := fieldAt z.cmd lo n
def ZCmd.tag (z : ZCmd) : Nat := z.f 2 2
def ZCmd.flags (z : ZCmd) : Nat := z.f 4 1
def ZCmd.fence (z : ZCmd) : Bool := decide (z.flags % 2 = 1)
def ZCmd.ioc (z : ZCmd) : Bool := decide (z.flags / 2 % 2 = 1)
def ZCmd.chained (z : ZCmd) : Bool := decide (z.flags / 4 % 2 = 1)
def ZCmd.inst (z : ZCmd) : Nat := z.f 6 2 % 4096

end Sys2Proof

namespace Sys2Proof.Machine

/-- DETAIL values of Table 13-5. -/
def dVersion : Nat := 0x40000001
def dReserved : Nat := 0x40000002
def dSource : Nat := 0x40000003
def dInstance : Nat := 0x40000004
def dContext : Nat := 0x40000005
def dBuffer : Nat := 0x40000006
def dChain : Nat := 0x40000007
def dSfTimeout : Nat := 0x40000008

/-! ### Sources (Table 13-1) -/

/-- The instance that owns a queue pair. -/
def State.ownerOf (s : State) (qp : Nat) : Option Nat :=
  match (SMap.find s.zci.pairs qp).bind (·.owner) with
  | some n => some n
  | none => (s.zci.insts.find? (fun p => decide (p.2.qfirst ≤ qp ∧ qp < p.2.qfirst + p.2.qcount))).map (·.1)

/-- The source of a queue pair: 0 BM, 1 DR, 2 H, 3 SL, 4 SF, 5 G, 6 I (R411). -/
def State.srcOf (s : State) (qp : Nat) : Nat :=
  if qp = 0 then 0 else if qp = 1 then 1 else if qp = 2 then 2 else if qp < 16 then 3 else if qp < 64 then 4
  else if (s.ownerOf qp).isSome then 6 else 5

/-- Whether a source's requests are Darkroom-world (Table 13-6). -/
def srcDark (src : Nat) : Bool := decide (src = 1 ∨ src = 3)

/-- A queue pair's kept context and positions. -/
def State.pair (s : State) (qp : Nat) : Option QPair := SMap.find s.zci.pairs qp

/-- Show a queue pair in ZCI_QSTAT. -/
def State.qShow (s : State) (qp : Nat) : State :=
  let v := s.rd (kZciQstat qp)
  let out := (s.zci.outs.filter (fun o => o.z.qp = qp)).length
  let v := fZciQstat_OUT.put v out
  let v := match s.pair qp with
    | some p => fZciQstat_STATE.put (fZciQstat_RTAIL.put (fZciQstat_TAIL.put (fZciQstat_HEAD.put v p.head) p.tail) p.rtail) p.st
    | none => fZciQstat_STATE.put v 0
  s.wr (kZciQstat qp) v

/-- Replace a queue pair. -/
def State.setPair (s : State) (qp : Nat) (p : Option QPair) : State :=
  let m := match p with
    | some x => SMap.set s.zci.pairs qp x
    | none => SMap.del s.zci.pairs qp
  ({ s with zci := { s.zci with pairs := m } }).qShow qp

/-- Whether Safelight runs, so that the pairs whose contexts it keeps are usable (R386, log 19). -/
def State.safelight (s : State) : Bool := s.boot.sp0Up && decide (s.stage ≥ 1 ∧ s.stage < 6)

/-- Whether commands of a pair are performed: RUNNING, or a pair whose context Safelight keeps. -/
def State.pairRuns (s : State) (qp : Nat) : Bool :=
  if qp = 0 then true
  else if qp = 1 ∨ (3 ≤ qp ∧ qp < 64) then s.safelight
  else match s.pair qp with
    | some p => decide (p.st = 1)
    | none => false

/-- Show the instance counts (SVI_GSTAT). -/
def State.sviShow (s : State) : State :=
  let v := fSviGstat_LOGUSED.put 0 s.zci.wlog.length
  let v := fSviGstat_LOGGING.put v (s.zci.insts.filter (fun p => p.2.logging)).length
  let v := fSviGstat_FROZEN.put v (s.zci.insts.filter (fun p => p.2.st = 2)).length
  s.wr kSviGstat (fSviGstat_ACTIVE.put v s.zci.insts.length)

/-- Replace an instance; none makes it FREE. -/
def State.setInst (s : State) (n : Nat) (x : Option Inst) : State :=
  let m := match x with
    | some i => SMap.set s.zci.insts n i
    | none => SMap.del s.zci.insts n
  ({ s with zci := { s.zci with insts := m } }).sviShow

/-- Record the pages that a logging instance writes (R419). -/
def State.logPages (s : State) (n addr len : Nat) : State :=
  match SMap.find s.zci.insts n with
  | none => s
  | some i =>
    if !i.logging || decide (len = 0) then s
    else
      let first := addr / 4096
      let pages := (List.range ((addr + len - 1) / 4096 - first + 1)).map (fun k => (first + k) % 2 ^ 52)
      (s.each pages fun s p =>
        if s.zci.wlog.contains (n, p) then s
        else if (s.zci.wlog.filter (fun e => e.1 = n)).length ≥ 4096 ∨ s.zci.wlog.length ≥ 65536 then
          (match SMap.find s.zci.insts n with
          | some i => (s.setInst n (some { i with overflow := true })).evt 15 0x1D 6
          | none => s)
        else ({ s with zci := { s.zci with wlog := s.zci.wlog ++ [(n, p)] } }).evt 15 0x1D 5).sviShow

/-! ### Buffers (R402, Table 13-6) -/

/-- What a buffer access found. -/
inductive BufRes where
  | ok (bytes : List Byte) (poison : Bool)
  | bad
  | fault (y : Nat)
  | wait
  deriving DecidableEq, Repr

/-- The scratch aperture (R482). -/
def apertureBase : Nat := 0x000FFFFFFE000000

/-- The key ID of a pair's ring and buffer accesses (Table 13-2). -/
def State.pairKey (s : State) (qp : Nat) : Nat := match s.pair qp with | some p => p.key | none => 0

/-- Whether a range of HPAs lies wholly in this package's or the domain's tiered memory. -/
def State.rangeTiered (s : State) (addr len : Nat) : Bool :=
  match s.mapOf addr with
  | some m => decide (m.kind = 0 ∨ m.kind = 7) && decide (addr + len ≤ m.base + m.size)
  | none => false

/-- Whether a range of HPAs holds no Darkroom memory. -/
def State.rangeDaylight (s : State) (addr len : Nat) : Bool :=
  (List.range 4).all fun j => match s.darkRange j with
    | some (b, t) => decide (addr + len ≤ b ∨ t ≤ addr)
    | none => true

/-- Whether a buffer lies in the space that Table 13-6 permits, before any access. -/
def State.bufOk (s : State) (z : ZCmd) (addr len : Nat) : Bool :=
  if decide (addr + len > 2 ^ 64) then false
  else match s.srcOf z.qp with
    | 0 => decide (addr + len ≤ 4096)
    | 1 | 3 => s.rangeTiered addr len
    | 4 => (s.rangeTiered addr len && s.rangeDaylight addr len) ||
        (decide (apertureBase + s.secureBytes ≤ addr) && decide (addr + len ≤ 2 ^ 52))
    | 6 => true
    | _ => s.rangeTiered addr len && s.rangeDaylight addr len

/-- The pieces of a range by 4 KiB page. -/
def pagePieces (fuel addr len : Nat) : List (Nat × Nat) :=
  match fuel with
  | 0 => []
  | f + 1 =>
    if len = 0 then []
    else
      let n := min len (4096 - addr % 4096)
      (addr, n) :: pagePieces f (addr + n) (len - n)

/-- Read a command buffer. -/
def State.zread (s : State) (z : ZCmd) (addr len : Nat) : BufRes × State :=
  if !s.bufOk z addr len then (.bad, s)
  else match s.srcOf z.qp with
    | 0 => if addr + len ≤ z.attach.length then (.ok (sliceB z.attach addr len) false, s) else (.bad, s)
    | 6 =>
      let n := (s.ownerOf z.qp).getD 0
      (pagePieces (len / 4096 + 2) addr len).foldl (fun (a : BufRes × State) p =>
        match a.1 with
        | .ok b x => match a.2.iotuXlate 8 n p.1 0 with
          | (.ok (h, k), s) => (match s.uncBytes Who.zci h p.2 k false with
            | (some (c, y), s) => (.ok (b ++ c) (x || y), s)
            | (none, s) => (.wait, s))
          | (.fault y _, s) => (.fault y, s.iotuFault p.1 8 n y)
          | (_, s) => (.wait, s)
        | _ => a) (.ok [] false, s)
    | src =>
      if addr ≥ apertureBase then
        match s.ssmLoad none (addr - apertureBase) len with
        | (some (b, x), s) => (.ok b x, s)
        | (none, s) => (.wait, s)
      else match s.uncBytes Who.zci addr len (s.pairKey z.qp) (srcDark src) with
        | (some (b, x), s) => (.ok b x, s)
        | (none, s) => (.wait, s)

/-- Write a command buffer: `.ok` when every byte is visible. -/
def State.zwrite (s : State) (z : ZCmd) (addr : Nat) (bytes : List Byte) : BufRes × State :=
  let len := bytes.length
  if !s.bufOk z addr len then (.bad, s)
  else match s.srcOf z.qp with
    | 0 =>
      let o := s.zci.mailOut
      let o := (o ++ List.replicate (addr - o.length) 0)
      (.ok [] false, { s with zci := { s.zci with mailOut := o.take addr ++ bytes ++ o.drop (addr + len) } })
    | 6 =>
      let n := (s.ownerOf z.qp).getD 0
      (pagePieces (len / 4096 + 2) addr len).foldl (fun (a : BufRes × State) p =>
        match a.1 with
        | .ok _ _ => match a.2.iotuXlate 8 n p.1 1 with
          | (.ok (h, k), s) =>
            let r := (s.logPages n p.1 p.2).uncPut Who.zci h k false (sliceB bytes (p.1 - addr) p.2)
            (if r.1 then .ok [] false else .wait, r.2)
          | (.fault y _, s) => (.fault y, s.iotuFault p.1 8 n y)
          | (_, s) => (.wait, s)
        | _ => a) (.ok [] false, s)
    | src =>
      if addr ≥ apertureBase then
        let r := s.ssmStore none (addr - apertureBase) bytes
        (if r.1 then .ok [] false else .wait, r.2)
      else
        let r := s.uncPut Who.zci addr (s.pairKey z.qp) (srcDark src) bytes
        (if r.1 then .ok [] false else .wait, r.2)

/-! ### What a handler answers -/

/-- The outcome of performing a command: one failing reply, one with result bytes, completion with DETAIL and result bytes
from byte 8, completion later by `State.final`, passing it to
the service firmware (R404), or a wait for a buffer (nothing is performed yet). -/
inductive ZDo where
  | fail (status detail : Nat)
  | failWith (status detail : Nat) (result : List Byte)
  | done (detail : Nat) (result : List Byte)
  | later
  | pass
  | again
  deriving DecidableEq, Repr

/-- A handler: the command's id and the command. -/
abbrev Handler := Nat → ZCmd → State → ZDo × State

/-- BAD_PARAM with a detail. -/
def badParam (d : Nat) : ZDo := .fail zBadParam d
/-- DONE with a zero result. -/
def doneOk : ZDo := .done 0 []

/-- The failing reply of a buffer access (R402); `.again` while it waits. -/
def BufRes.fail : BufRes → ZDo
  | .bad => badParam dBuffer
  | .fault y => .fail zNotPermitted (0x80000000 + y)
  | .wait => .again
  | .ok _ _ => .again

/-- A command that reads poison where it needs the data ends with INTERNAL and an error record (R410;
log 29). -/
def State.poisonedBuffer (s : State) : ZDo × State := (.fail zInternal 0, s.raise { cls := 2, kind := 0x73, counts := false })

/-! ### Replies (R396, R399) -/

/-- The 32 bytes of a reply (Table 13-4). -/
def replyBytes (r : ZRep) (phase : Bool) : List Byte :=
  leBytes 2 r.tag ++ leBytes 2 r.status ++ leBytes 4 r.detail ++ sliceB r.result 0 23 ++
  leBytes 1 (if phase then 128 else 0)

/-- A queue pair whose ring access faults becomes ERROR (ZCI_QSTAT). -/
def State.pairError (s : State) (qp : Nat) : State :=
  match s.pair qp with
  | some p => if qp ≥ 64 then ((s.setPair qp (some { p with st := 5 })).fput (kZciQstat qp) fZciQstat_CTXERR 1).evt 15 0x1C 13 else s
  | none => s

/-- Write one reply into its ring; none while its line waits.  Replies of the boot mailbox go out with
its attachment; those of a pair whose ring Safelight keeps go to that ring (log 19). -/
def State.writeRep (s : State) (r : ZRep) : Option State :=
  if r.qp = 0 then
    let s := s.emit (.mailbox (BitVec.ofNat 256 (leNat (replyBytes r true))) s.zci.mailOut)
    some ({ s with zci := { s.zci with mailOut := [] } }.evt 15 0x1C 3)
  else match s.pair r.qp with
    | none => some (if r.qp < 64 ∧ r.qp ≠ 2 then
        (s.emit (.zciReply r.qp (BitVec.ofNat 256 (leNat (replyBytes r true))))).evt 15 0x1C 3 else s)
    | some p =>
      if p.st = 5 then some s
      else
        let b := replyBytes r p.phase
        let addr := p.rq + 32 * p.rtail
        let wrap := decide (p.rtail + 1 = 2 ^ p.qlog)
        let p' := { p with rtail := (p.rtail + 1) % 2 ^ p.qlog, phase := if wrap then !p.phase else p.phase }
        let ok (s : State) : State :=
          let s := ((s.setPair r.qp (some p')).emit (.zciReply r.qp (BitVec.ofNat 256 (leNat b)))).evt 15 0x1C 3
          if r.intr && p.ie then (s.evt 15 0x1C 12).signal p.vec else s
        match s.ownerOf r.qp with
        | some n => match s.iotuXlate 8 n addr 1 with
          | (.ok (h, k), s) =>
            let w := (s.logPages n addr 32).uncPut Who.zci h k false b
            if w.1 then some (ok w.2) else none
          | (.fault y _, s) => some ((s.iotuFault addr 8 n y).pairError r.qp)
          | _ => none
        | none =>
          if !s.rangeTiered addr 32 then some (s.pairError r.qp)
          else
            let w := s.uncPut Who.zci addr p.key (srcDark (s.srcOf r.qp)) b
            if w.1 then some (ok w.2) else none

/-- Write the replies that wait, oldest first, until one must wait. -/
def State.writeReps (s : State) (l : List ZRep) : State :=
  match l with
  | [] => { s with zci := { s.zci with reps := [] } }
  | r :: t => match s.writeRep r with
    | some s => s.writeReps t
    | none => { s with zci := { s.zci with reps := r :: t } }

/-- Queue a reply of a command. -/
def State.queueRep (s : State) (z : ZCmd) (status detail : Nat) (result : List Byte) (final : Bool) : State :=
  let r : ZRep := ⟨z.qp, z.tag, status, detail, result, final && z.ioc⟩
  { s with zci := { s.zci with reps := s.zci.reps ++ [r] } }

/-- A command writes its final reply and is no longer outstanding.  Answers to its accesses that it did not take have no
requester any more; another command that waits asks again. -/
def State.endCmd (s : State) (o : ZOut) (status detail : Nat) (result : List Byte) : State :=
  let s := s.forget fun _ r => decide (r.src = 3)
  let outs := s.zci.outs.filter (fun x => x.id ≠ o.id)
  let chains := if o.z.chained then SMap.set s.zci.chains o.id status else s.zci.chains
  let s := { s with zci := { s.zci with outs := outs, chains := chains } }
  let s := match status with
    | 0x0102 => s.evt 15 0x1C 8
    | 0x0103 => s.evt 15 0x1C 9
    | 0x0201 => s.evt 15 0x1C 10
    | _ => s
  let s := if decide (status = zNotPermitted) && decide (detail ≥ 0x80000000) then s.evt 15 0x1C 11 else s
  (s.queueRep o.z status detail result true).qShow o.z.qp

/-- Turn the final replies that class engines owe into replies, and write what waits. -/
def State.zciFlush (s : State) : State :=
  let f := s.zci.finals
  let s := { s with zci := { s.zci with finals := [] } }
  let s := f.foldl (fun s (x : ZFinal) => match s.zci.outs.find? (fun o => o.id = x.id) with
    | some o => s.endCmd o x.status x.detail x.result
    | none => if x.id ≥ 2 ^ 32 then s.lendTierDone (lendOf x.id) else s) s
  s.writeReps s.zci.reps

/-! ### Opcodes (Table 13-9) -/

/-- Path (0 HW, 1 SL, 2 SF), the admitted sources and whether two replies may follow. -/
def opInfo (op : Nat) : Option (Nat × List Nat × Bool) :=
  let all := [0, 1, 2, 3, 4, 5, 6]
  match op with
  | 0x0001 | 0x0002 => some (0, all, false)
  | 0x0003 => some (0, [2, 3], true)
  | 0x0101 | 0x0102 | 0x0103 => some (1, [0], false)
  | 0x0104 => some (1, [0, 2, 3], false)
  | 0x0401 | 0x0402 | 0x0403 | 0x0404 | 0x0405 => some (0, [2], false)
  | 0x0801 | 0x0802 | 0x0805 => some (0, [2, 3], true)
  | 0x0803 => some (0, [4, 2, 3, 6], false)
  | 0x0804 | 0x0806 | 0x0807 | 0x0808 => some (0, [2, 3], false)
  | 0x1001 | 0x1009 => some (0, [4, 2, 3], false)
  | 0x1002 | 0x1003 | 0x1008 => some (0, [4, 2, 3], true)
  | 0x1004 | 0x1006 => some (0, [2, 3], true)
  | 0x1005 | 0x1007 => some (0, [2, 3], false)
  | 0x1101 | 0x1102 => some (0, all, true)
  | 0x1201 | 0x1202 | 0x1204 | 0x1205 => some (1, [2, 1, 3], false)
  | 0x1203 => some (1, [2, 1, 3], true)
  | 0x1801 | 0x1803 | 0x1804 => some (0, [2, 3], false)
  | 0x1802 => some (0, [4, 2, 3], false)
  | 0x1805 => some (0, [2, 3], true)
  | 0x2001 | 0x2004 => some (2, [4, 2, 3], true)
  | 0x2002 | 0x2003 => some (2, [2, 3], true)
  | 0x2801 | 0x2802 => some (0, [4, 2, 3], false)
  | 0x2803 => some (1, [2, 3], false)
  | 0x2804 => some (0, [2, 3], false)
  | 0x3001 => some (0, [0, 2, 1, 3], false)
  | 0x3002 => some (1, [0, 2, 1, 3], false)
  | 0x3003 => some (1, [2, 1, 3], false)
  | 0x3801 => some (1, [2, 3], true)
  | 0x3802 => some (0, [2, 3], false)
  | 0x3C01 | 0x3C02 => some (1, [0, 2, 3], false)
  | 0x4001 | 0x4002 | 0x4003 => some (0, [4, 2, 3], false)
  | 0x7F01 => some (1, [0, 2, 3], true)
  | 0x7F02 => some (1, [0, 2, 3], false)
  | 0x7F03 => some (0, [0, 4, 2, 3], false)
  | _ => none

/-- Whether the boot mailbox admits an opcode (R456, R445): the failing status, or none. The ranges
"from stage n" leave out HALTED but for XR_QUOTE (DEDUCED, log 25). -/
def State.bmGate (s : State) (z : ZCmd) : Option Nat :=
  let op := z.f 0 2
  let st := s.stage
  let comp := z.f 16 1
  let fw := decide (op = 0x7F01 ∨ op = 0x7F02)
  if [0x0001, 0x0002, 0x0104, 0x3001, 0x7F03].contains op then none
  else if s.fuses.lifecycle = 4 then some zBusy
  else if fw && decide (comp > 3) then some zBadParam
  else if s.boot.released then
    (if op / 256 = 1 || (fw && decide (comp ≠ 1)) then some zNotPermitted else none)
  else
    let ok := if op / 256 = 1 then decide (1 ≤ st ∧ st < 6)
      else if op = 0x3002 then decide (1 ≤ st)
      else if fw then
        (if comp = 0 then decide (st = 0) else if comp = 1 then decide (2 ≤ st ∧ st < 6) else decide (st = 4))
      else false
    if ok then none else some zBusy

/-- Checks 1 to 5 of R394, with R412 and R413: the failing status and detail. -/
def State.zcheck (s : State) (z : ZCmd) : Option (Nat × Nat) :=
  let op := z.f 0 2
  let src := s.srcOf z.qp
  if z.f 5 1 ≠ 1 then some (zBadParam, dVersion)
  else if z.flags ≥ 8 ∨ z.f 8 8 ≠ 0 ∨ z.f 6 2 ≥ 4096 then some (zBadParam, dReserved)
  else match opInfo op with
    | none => some (zUnknown, 0)
    | some (_, srcs, _) =>
      if !srcs.contains src then some (zNotPermitted, dSource)
      else if src = 0 then (s.bmGate z).map (fun st => (st, 0))
      else if src = 6 then
        (if decide (some z.inst ≠ s.ownerOf z.qp) then some (zNotPermitted, dInstance) else none)
      else if op / 256 = 8 ∧ z.inst > 2047 then some (zNotPermitted, dInstance)
      else none

/-! ### Beginning a command -/

/-- Begin a taken command with its handler (R396): an "A+F" command that starts writes ACCEPTED; on the
boot mailbox only the final reply is returned (R407). -/
def State.zbegin (s : State) (h : Handler) (o : ZOut) (accepted : Bool) : Option State × State :=
  match h o.id o.z s with
  | (.again, s) => (none, s)
  | (.pass, s) =>
    let outs := s.zci.outs.map fun (x : ZOut) => if x.id = o.id then { x with begun := true, sfWait := true } else x
    (some ({ s with zci := { s.zci with outs := outs } }.vecSp 2), s)
  | (.fail st d, s) =>
    let o := match s.zci.outs.find? (fun x => x.id = o.id) with | some x => x | none => o
    (some (s.endCmd o st d []), s)
  | (.failWith st d r, s) =>
    let o := match s.zci.outs.find? (fun x => x.id = o.id) with | some x => x | none => o
    (some (s.endCmd o st d r), s)
  | (.done d r, s) =>
    let s := if o.two && !accepted && decide (o.z.qp ≠ 0) then s.queueRep o.z zAccepted 0 [] false else s
    (some (s.endCmd o zDone d r), s)
  | (.later, s) =>
    let s := if o.two && !accepted && decide (o.z.qp ≠ 0) then s.queueRep o.z zAccepted 0 [] false else s
    let outs := s.zci.outs.map fun (x : ZOut) => if x.id = o.id then { x with begun := true } else x
    (some ({ s with zci := { s.zci with outs := outs } }), s)

/-- Whether a taken command must be held: fence-before with earlier commands outstanding, or a chain
predecessor without its final reply, the replies of the pair that wait being written first (R398, R400). -/
def State.zheld (s : State) (o : ZOut) : Bool :=
  ((o.z.fence || o.prev.isSome) && s.zci.reps.any (fun r => decide (r.qp = o.z.qp))) ||
  (o.z.fence && s.zci.outs.any (fun x => decide (x.z.qp = o.z.qp ∧ x.id < o.id))) ||
  (match o.prev with
   | some p => (SMap.find s.zci.chains p).isNone
   | none => false)

/-- Whether a chain broke before this command (R400). -/
def State.chainBroken (s : State) (o : ZOut) : Bool :=
  match o.prev with
  | some p => match SMap.find s.zci.chains p with
    | some st => decide (st ≠ zDone)
    | none => false
  | none => false

/-- Whether a command's OPCODE takes a path of Table 13-9: 0 the hardware's, 1 Safelight's, 2 the service
firmware's. -/
def zpath (z : ZCmd) (p : Nat) : Bool := match opInfo (z.f 0 2) with
  | some (q, _, _) => decide (q = p)
  | none => false

/-- The record of a command that is being taken. -/
def State.zout (s : State) (z : ZCmd) : ZOut :=
  ⟨s.zci.nextId, z, false, (match s.pair z.qp with | some p => p.chain | none => none),
   (match opInfo (z.f 0 2) with | some (_, _, t) => t | none => false), false, false⟩

/-- A command is outstanding from its taking on (R395, R400). -/
def State.zadmit (s : State) (z : ZCmd) : State :=
  let id := s.zci.nextId
  let s := { s with zci := { s.zci with nextId := id + 1, outs := s.zci.outs ++ [s.zout z] } }
  let s := match s.pair z.qp with
    | some p => s.setPair z.qp (some { p with chain := if z.chained then some id else none })
    | none => s
  let s := s.evt 15 0x1C 2
  let s := match opInfo (z.f 0 2) with | some (p, _, _) => s.evt 15 0x1C (4 + p) | none => s
  s.qShow z.qp

/-- A command whose buffer waits stays untaken. -/
def State.zuntake (s : State) (id : Nat) (qp : Nat) (prev : Option Nat) : State :=
  let p := match s.pair qp with | some p => some { p with chain := prev } | none => none
  let s := { s with zci := { s.zci with outs := s.zci.outs.filter (fun x => x.id ≠ id), nextId := id } }
  match p with | some p => s.setPair qp (some p) | none => s

/-- Take a command (R394, R395): it is checked, held, passed to the service firmware, or begun.
A command whose buffer waits is not taken, and what its accesses started stays started. The boot mailbox is busy while
a warm reset runs (R407, R589). -/
def State.ztake (s : State) (h : Handler) (z : ZCmd) : State :=
  let s := s.zciFlush
  let o := s.zout z
  let s' := s.zadmit z
  if !s.pairRuns z.qp then s
  else if decide (z.qp = 0) && (s.boot.warm || s.zci.outs.any (fun o => o.z.qp = 0)) then ((s.queueRep z zBusy 0 [] true)).zciFlush
  else match s.zcheck z with
    | some (st, d) => (s'.endCmd o st d []).zciFlush
    | none =>
      if s'.zheld o then
        (if o.two && decide (z.qp ≠ 0) && !zpath z 2 then s'.queueRep z zAccepted 0 [] false else s').zciFlush
      else if s'.chainBroken o then (s'.endCmd o zNotPermitted dChain []).zciFlush
      else match (if zpath z 1 then s'.vec 216 1 else s').zbegin h o false with
        | (some s, _) => s.zciFlush
        | (none, s) => s.zuntake o.id z.qp o.prev

/-- The first command of a pair that is no longer held begins (R398, R400). -/
def State.zrelease (s : State) (h : Handler) (qp : Nat) : State :=
  let s := s.zciFlush
  match s.zci.outs.find? (fun o => decide (o.z.qp = qp) && !o.begun && !o.sfWait && !o.paused && !s.zheld o) with
  | none => s
  | some o =>
    let acc := o.two && decide (qp ≠ 0) && decide (o.z.f 0 2 / 256 ≠ 0x20)
    if s.chainBroken o then (s.endCmd o zNotPermitted dChain []).zciFlush
    else match s.zbegin h o acc with
      | (some s, _) => s.zciFlush
      | (none, s) => s

/-! ### Enabling and disabling queue pairs (R390, R411) -/

/-- The pair that a context enables (Table 13-2); none where the context fails a check. -/
def State.ctxOf (s : State) (d : Line) (poison : Bool) (src : Nat) : Option QPair :=
  let w0 : Word := BitVec.ofNat 64 (lineField d 0 8)
  let qlog := bitsOf w0 4 4
  let sq := lineField d 8 8
  let rq := lineField d 16 8
  let size := 2 ^ qlog
  let bad := poison || !w0.getLsbD 0 || decide (qlog < 4 ∨ qlog > 12) || decide (sq % (64 * size) ≠ 0) ||
    decide (rq % (32 * size) ≠ 0) ||
    (decide (src ≠ 6) && !(s.rangeTiered sq (64 * size) && s.rangeDaylight sq (64 * size) &&
      s.rangeTiered rq (32 * size) && s.rangeDaylight rq (32 * size)))
  if bad then none
  else some { st := 1, head := 0, tail := 0, rtail := 0, rqhead := 0, phase := true, qlog := qlog,
              ie := w0.getLsbD 8, vec := bitsOf w0 16 16, key := bitsOf w0 32 14, sq := sq, rq := rq,
              chain := none, stopBy := none, owner := none }

/-- The HPA of a pair's context, and whether the table holds it (R389). -/
def State.ctxAt (s : State) (qp : Nat) : Nat := fZciQctbase_BASE.get (s.rd kZciQctbase) * 2 ^ 19 + 64 * qp
def State.ctxHeld (s : State) (qp : Nat) : Bool := fZciQctbase_V.on (s.rd kZciQctbase) && s.rangeTiered (s.ctxAt qp) 64

/-- Read a context: the pair as it is enabled; none when the enable fails; `wait`. -/
def State.readCtx (s : State) (qp : Nat) (src : Nat) : Option (Option QPair) × State :=
  if !s.ctxHeld qp then (some none, s)
  else match s.uncRead Who.zci (s.ctxAt qp / 64) (fZciQctbase_KEYID.get (s.rd kZciQctbase)) false with
    | (none, s) => (none, s)
    | (some (d, p), s) => (some (s.ctxOf d p src), s)

/-- Read the contexts of several pairs: all of them, a failure, or a wait. -/
def State.readCtxs (s : State) (qps : List Nat) (src : Nat) : Option (Option (List (Nat × QPair))) × State :=
  qps.foldl (fun (a : Option (Option (List (Nat × QPair))) × State) q =>
    match a.1 with
    | some (some l) => match a.2.readCtx q src with
      | (some (some p), s) => (some (some (l ++ [(q, p)])), s)
      | (some none, s) => (some none, s)
      | (none, s) => (none, s)
    | _ => a) (some (some []), s)

/-- Whether a pair has commands outstanding, other than one command. -/
def State.qpBusy (s : State) (qp : Nat) (but : Nat) : Bool :=
  s.zci.outs.any (fun o => decide (o.z.qp = qp ∧ o.id ≠ but))

/-- Stop a pair (R411 OP 1): DISABLED at once when nothing is outstanding, otherwise STOPPING until the
command `by'` sees it drained. -/
def State.stopPair (s : State) (qp by' : Nat) : State :=
  match s.pair qp with
  | none => s
  | some p => if s.qpBusy qp by' then s.setPair qp (some { p with st := 2, stopBy := some by' })
      else s.setPair qp none

/-- Whether pairs still drain for a command. -/
def State.draining (s : State) (id : Nat) : Bool := s.zci.pairs.any (fun p => p.2.stopBy = some id)

/-- Whether a pair's source is G, or it is a disabled pair numbered 64 or above (R411). -/
def State.settable (s : State) (q : Nat) : Bool :=
  decide (64 ≤ q ∧ q < 8192) && (decide (s.srcOf q = 5) || (s.pair q).isNone)

/-- ZCI_QUEUE_SET (R411). -/
def hQueueSet : Handler := fun id z s =>
  let first := z.f 16 2
  let count := z.f 18 2
  let op := z.f 20 1
  let qs := (List.range count).map (first + ·)
  if op > 1 ∨ first + count > 8192 ∨ !qs.all (fun q => s.settable q) then (badParam 0, s)
  else if op = 0 then
    let new := qs.filter (fun q => (s.pair q).isNone)
    match s.readCtxs new 5 with
    | (none, s) => (.again, s)
    | (some none, s) => (badParam dContext, s)
    | (some (some l), s) => (doneOk, l.foldl (fun s p => s.setPair p.1 (some p.2)) s)
  else
    let s := qs.foldl (fun s q => s.stopPair q id) s
    if s.draining id then (.later, s) else (doneOk, s)

/-- ZCI_IDENTIFY (R411). -/
def hIdentify : Handler := fun _ z s =>
    let owner := match s.ownerOf z.qp with | some n => n | none => 0xFFFF
    (.done 0 (leBytes 8 (s.rd kMgtEffcap).toNat ++ leBytes 2 z.qp ++ leBytes 1 (s.srcOf z.qp) ++ [0] ++
      leBytes 2 owner), s)

/-- ZCI_NOP (R411). -/
def hNop : Handler := fun _ _ s => (doneOk, s)

end Sys2Proof.Machine
end

