-- ==== Sys2Proof/Machine/Svi.lean ====
section
/-! DEFINITION.
Service instances (R412–R422): class 0x08 and its completions. -/

namespace Sys2Proof.Machine

/-- An instance that is not FREE. -/
def State.inst (s : State) (n : Nat) : Option Inst := SMap.find s.zci.insts n

/-- The pairs of an instance. -/
def Inst.qps (i : Inst) : List Nat := (List.range i.qcount).map (i.qfirst + ·)

/-- The outstanding commands of an instance's pairs. -/
def State.instOuts (s : State) (n : Nat) : List ZOut := s.zci.outs.filter (fun o => decide (s.ownerOf o.z.qp = some n))

/-- The class 0x08 gate (R414): BUSY while an "A+F" command runs for the instance. -/
def State.sviBusy (s : State) (n : Nat) : Bool := match s.inst n with
  | some i => decide (i.op ≠ 0)
  | none => false

/-- Set the state of every pair of an instance; one in ERROR leaves it only by a reset (ZCI_QSTAT). -/
def State.pairsTo (s : State) (i : Inst) (st : Nat) : State :=
  i.qps.foldl (fun s q => match s.pair q with
    | some p => if p.st = 5 ∧ st ≠ 4 then s else s.setPair q (some { p with st := st })
    | none => s) s

/-- Whether a write of the command interface is still to be performed at a home. -/
def State.zciWrites (s : State) : Bool :=
  let w (k : ReqKind) (r : HomeReq) : Bool := decide (r.src = 3 ∧ (k = .wrf ∨ k = .wrp))
  s.home.asked.any (fun p => w p.kind p.req) ||
  s.home.slices.any fun x => x.2.trans.any (fun t => w t.kind t.req) || (x.2.waiting ++ x.2.parked).any (fun p => w p.kind p.req)

/-- Whether replies of an instance are still to be written. -/
def State.owesReplies (s : State) (n : Nat) : Bool := s.zci.reps.any (fun r => decide (s.ownerOf r.qp = some n))

/-- What SVI_CONFIG does with its parameters (R415): the instance has the pairs named, those of `l` are
enabled from their contexts, and those of `gone` stop. -/
def State.sviAssign (s : State) (id n qf qc mo wt : Nat) (l : List (Nat × QPair)) (gone : List Nat) : State :=
  let x : Inst := match s.inst n with
    | some i => { i with qfirst := qf, qcount := qc, maxout := mo, weight := wt }
    | none => ⟨1, qf, qc, mo, wt, 0, 0, 0, 0, false, false⟩
  let s := (s.setInst n (some x)).evt 15 0x1D 0
  let s := l.foldl (fun s p => s.setPair p.1 (some { p.2 with owner := some n })) s
  gone.foldl (fun s q => s.stopPair q id) s

/-- SVI_CONFIG (R415). -/
def hSviConfig : Handler := fun id z s =>
  let n := z.inst
  let qf := z.f 16 2
  let qc := z.f 18 2
  let mo := z.f 20 2
  let wt := z.f 22 1
  let new := (List.range qc).map (qf + ·)
  let old := match s.inst n with | some i => i.qps | none => []
  let added := new.filter (fun q => !old.contains q)
  let frozen := match s.inst n with | some i => decide (i.st = 2) | none => false
  if s.sviBusy n then (.fail zBusy 0, s)
  else if frozen then (.fail zNotPermitted 0, s)
  else if qc < 1 ∨ qc > 64 ∨ qf < 64 ∨ qf + qc > 8192 ∨ mo < 1 ∨ mo > 4096 ∨ wt < 1 ∨ wt > 16 then (badParam 0, s)
  else if added.any (fun q => (s.pair q).isSome || (s.ownerOf q).isSome) then (badParam 0, s)
  else match s.readCtxs added 6 with
    | (none, s) => (.again, s)
    | (some none, s) => (badParam dContext, s)
    | (some (some l), s) =>
      let s := s.sviAssign id n qf qc mo wt l (old.filter (fun q => !new.contains q))
      if s.draining id then
        match s.inst n with
        | some i => (.later, s.setInst n (some { i with op := 1, opId := id }))
        | none => (.later, s)
      else (doneOk, s)

/-- Stop the commands of an instance at once (R416): they write no further reply, those that have finished do, and read
data that arrives afterwards is discarded. -/
def State.squash (s : State) (n : Nat) : State :=
  let gone := s.instOuts n
  let ids := gone.map (·.id)
  ({ s with cdn := s.cdn.filter (fun j => !ids.contains j.id),
            zci := { s.zci with outs := s.zci.outs.filter (fun o => !ids.contains o.id),
                                reps := s.zci.reps.filter (fun r => !gone.any fun o => decide (o.z.qp = r.qp ∧ o.z.tag = r.tag)) } } : State).forget
    fun _ r => decide (r.src = 3)

/-- SVI_RESET in a mode: 0 drain, 1 squash, 2 release (R416). -/
def sviReset (mode : Nat) : Handler := fun id z s =>
  let n := z.inst
  if s.sviBusy n then (.fail zBusy 0, s)
  else match s.inst n with
    | none => (doneOk, s)
    | some i =>
      if i.st = 2 ∧ mode = 0 then (.fail zNotPermitted 0, s)
      else
        let c := (s.instOuts n).length
        let s := (s.pairsTo i 4).setInst n (some { i with op := 2, opId := id, mode := mode, count := c })
        let s := if mode = 0 then s else s.squash n
        (.later, s.evt 15 0x1D 1)

def hSviReset : Handler := fun id z s =>
  if z.f 16 1 > 2 then (badParam 0, s) else sviReset (z.f 16 1) id z s

/-- The pairs of an instance read their contexts again (R417); none while a context waits. -/
def State.renewCtxs (s : State) (i : Inst) : Option (List (Nat × Option QPair)) × State :=
  i.qps.foldl (fun (a : Option (List (Nat × Option QPair)) × State) q => match a.1 with
    | none => a
    | some l => match a.2.readCtx q 6 with
      | (some r, s) => (some (l ++ [(q, r)]), s)
      | (none, s) => (none, s)) (some [], s)

/-- A pair restarts with its new context; one whose context fails is disabled with CTXERR. -/
def State.renewPair (n : Nat) (s : State) (p : Nat × Option QPair) : State := match p.2 with
  | none => (s.setPair p.1 none).fput (kZciQstat p.1) fZciQstat_CTXERR 1
  | some x => s.setPair p.1 (some { x with owner := some n })

/-- A reset is done (R417): with every command finished or stopped, its replies written and its transfers ended, drain
and squash enable the pairs again with fresh contexts, release frees the instance; the log is emptied. -/
def sviResetCompleteRun (n : Nat) (s : State) : State :=
  let s := s.zciFlush
  match s.inst n with
  | none => s
  | some i =>
    if i.op ≠ 2 ∨ !(s.instOuts n).isEmpty ∨ s.owesReplies n ∨ s.zciWrites then s
    else
      let s := { s with zci := { s.zci with wlog := s.zci.wlog.filter (fun e => e.1 ≠ n) } }
      let fin (s : State) : State := (s.final i.opId zDone 0 (leBytes 4 i.count)).zciFlush
      if i.mode = 2 then
        fin ((i.qps.foldl (fun s q => s.setPair q none) s).setInst n none)
      else match s.renewCtxs i with
        | (none, s) => s
        | (some l, s) => fin ((l.foldl (State.renewPair n) s).setInst n
            (some { i with st := 1, op := 0, opId := 0, logging := false, overflow := false }))

/-- SVI_QUERY (Table 13-12). -/
def hSviQuery : Handler := fun _ z s =>
  let n := z.inst
  match s.inst n with
    | none => (.done 0 (List.replicate 14 0), s)
    | some i =>
      let held := (s.zci.wlog.filter (fun e => e.1 = n)).length
      (.done 0 (leBytes 1 i.st ++ leBytes 1 i.op ++ leBytes 2 i.qfirst ++ leBytes 2 i.qcount ++ leBytes 2 i.maxout ++
        leBytes 2 (s.instOuts n).length ++ leBytes 1 i.weight ++
        leBytes 1 ((if i.logging then 1 else 0) + (if i.overflow then 2 else 0)) ++ leBytes 2 held), s)

/-- SVI_LOG OP 0: start logging (R418). -/
def sviLogStart : Handler := fun _ z s =>
  match s.inst z.inst with
  | none => (.fail zNotPermitted 0, s)
  | some i =>
    if i.logging then (doneOk, s)
    else if (s.zci.insts.filter (fun p => p.2.logging)).length ≥ 16 then (.fail zNoSpace 0, s)
    else (doneOk, s.setInst z.inst (some { i with logging := true }))

/-- SVI_LOG OP 1: move entries to the buffer (R418). -/
def sviLogRead : Handler := fun _ z s =>
  let n := z.inst
  let cap := z.f 32 4
  match s.inst n with
  | none => (.fail zNotPermitted 0, s)
  | some i =>
    if cap < 1 ∨ cap > 65536 then (badParam 0, s)
    else if !s.bufOk z (z.f 24 8) (8 * cap) then (badParam dBuffer, s)
    else
      let mine := s.zci.wlog.filter (fun e => e.1 = n)
      let take := mine.take cap
      match s.zwrite z (z.f 24 8) (take.flatMap (fun e => leBytes 8 (e.2 * 4096))) with
      | (.ok _ _, s) =>
        let s := { s with zci := { s.zci with wlog := s.zci.wlog.filter (fun e => !take.contains e) } }
        let s := (s.setInst n (some { i with overflow := false })).evt 15 0x1D 7
        (.done 0 (leBytes 4 take.length ++ leBytes 4 (mine.length - take.length) ++ [if i.overflow then 1 else 0]), s)
      | (r, s) => (r.fail, s)

/-- SVI_LOG OP 2: stop logging and empty the entries (R418). -/
def sviLogStop : Handler := fun _ z s =>
  match s.inst z.inst with
  | none => (.fail zNotPermitted 0, s)
  | some i =>
    let s := { s with zci := { s.zci with wlog := s.zci.wlog.filter (fun e => e.1 ≠ z.inst) } }
    (doneOk, s.setInst z.inst (some { i with logging := false }))

def hSviLog : Handler := fun id z s =>
  let op := z.f 16 1
  if s.sviBusy z.inst then (.fail zBusy 0, s)
  else match op with
    | 0 => sviLogStart id z s
    | 1 => sviLogRead id z s
    | 2 => sviLogStop id z s
    | _ => (badParam 0, s)

/-- SVI_FREEZE (R420): nothing more is taken and running commands pause. -/
def hSviFreeze : Handler := fun id z s =>
  let n := z.inst
  if s.sviBusy n then (.fail zBusy 0, s)
  else match s.inst n with
    | none => (.fail zNotPermitted 0, s)
    | some i =>
      if i.st = 2 then (doneOk, s)
      else
        let ids := (s.instOuts n).map (·.id)
        let outs := s.zci.outs.map fun (o : ZOut) => if ids.contains o.id then { o with paused := true } else o
        let s := { s with zci := { s.zci with outs := outs } }
        (.later, ((s.pairsTo i 3).setInst n (some { i with op := 5, opId := id })).evt 15 0x1D 2)

/-- No transfer of a freezing instance is in flight, and the replies that were due are written: it is FROZEN (R420). -/
def sviFreezeCompleteRun (n : Nat) (s : State) : State :=
  let s := s.zciFlush
  match s.inst n with
  | none => s
  | some i =>
    if i.op ≠ 5 ∨ s.owesReplies n ∨ s.zciWrites then s
    else ((s.setInst n (some { i with st := 2, op := 0, opId := 0 })).final i.opId zDone 0 []).zciFlush

/-- SVI_THAW (R420). -/
def hSviThaw : Handler := fun _ z s =>
  let n := z.inst
  if s.sviBusy n then (.fail zBusy 0, s)
  else match s.inst n with
    | none => (.fail zNotPermitted 0, s)
    | some i =>
      if i.st = 1 then (doneOk, s)
      else
        let ids := (s.instOuts n).map (·.id)
        let outs := s.zci.outs.map fun (o : ZOut) => if ids.contains o.id then { o with paused := false } else o
        let s := { s with zci := { s.zci with outs := outs } }
        (doneOk, (s.pairsTo i 1).setInst n (some { i with st := 1 }))

/-- IOD stepping byte of an image (Table 13-13). -/
def State.iodStep (s : State) : Nat := bitsOf s.fuses.iodWord 48 8

/-- What an image of a frozen instance stands for: the positions of its pairs, its commands and their jobs (R421). -/
def State.svPieces (s : State) (n : Nat) (i : Inst) : List QPair × List ZOut × List CdnJob :=
  let outs := s.instOuts n
  (i.qps.filterMap (fun q => s.pair q), outs, s.cdn.filter (fun j => outs.any (fun o => o.id = j.id)))

/-- The state bytes of an image, which are not architectural (R421, log 9). -/
def State.svState (s : State) (n : Nat) (i : Inst) : List Byte :=
  let x := s.svPieces n i
  let code := x.1.flatMap (fun p => [p.head, p.tail, p.rtail, p.rqhead, if p.phase then 1 else 0]) ++
    x.2.1.flatMap (fun o => [o.z.qp - i.qfirst, o.z.cmd.toNat]) ++
    x.2.2.flatMap (fun j => [j.left, j.used, if j.compress then 1 else 0, j.crc.toNat, leNat j.out])
  (List.range 4032).map (Config.imageState code)

/-- The 4 KiB of an image (Table 13-13). -/
def State.svBytes (s : State) (n : Nat) (i : Inst) : List Byte :=
  leBytes 2 1 ++ leBytes 1 (s.iodStep) ++ [0] ++ leBytes 2 i.qcount ++ [0, 0] ++ leBytes 8 s.time ++
    sm3 (s.svState n i) ++ List.replicate 16 0 ++ s.svState n i

/-- SVI_SAVE (R421). -/
def hSviSave : Handler := fun _ z s =>
  let n := z.inst
  if s.sviBusy n then (.fail zBusy 0, s)
  else match s.inst n with
    | none => (.fail zNotPermitted 0, s)
    | some i =>
      if i.st ≠ 2 then (.fail zNotPermitted 0, s)
      else if !s.bufOk z (z.f 24 8) 4096 then (badParam dBuffer, s)
      else
        let p := s.svPieces n i
        let x : SvImage := ⟨sm3 (s.svState n i), i.qfirst, p.1, p.2.1, p.2.2⟩
        match s.zwrite z (z.f 24 8) (s.svBytes n i) with
        | (.ok _ _, s) =>
          (doneOk, ({ s with zci := { s.zci with images := s.zci.images ++ [x] } }).evt 15 0x1D 3)
        | (r, s) => (r.fail, s)

/-- Give an instance the state of an image that this package made. -/
def State.restoreImage (s : State) (n : Nat) (i : Inst) (x : SvImage) : State :=
  let s := s.squash n
  let s := (i.qps.zip x.pairs).foldl (fun s (p : Nat × QPair) => match s.pair p.1 with
    | some q => s.setPair p.1 (some { q with head := p.2.head, tail := p.2.tail, rtail := p.2.rtail, rqhead := p.2.rqhead, phase := p.2.phase })
    | none => s) s
  x.outs.foldl (fun s o =>
    let id := s.zci.nextId
    let o' := { o with id := id, z := { o.z with qp := o.z.qp - x.first + i.qfirst }, prev := none, paused := true }
    let s := { s with zci := { s.zci with outs := s.zci.outs ++ [o'], nextId := id + 1 } }
    match x.jobs.find? (fun j => j.id = o.id) with
    | some j => { s with cdn := s.cdn ++ [{ j with id := id }] }
    | none => s) s

/-- Give an instance the positions of an image of unknown making: what its state bytes stand for is
not architectural, so every position is a free value (log 9). -/
def State.restoreOpen (s : State) (n : Nat) (i : Inst) : State :=
  i.qps.foldl (fun s q => match s.pair q with
    | some p =>
      let r := s.fresh
      let v := r.1
      let m := 2 ^ p.qlog
      r.2.setPair q (some { p with head := bitsOf v 0 12 % m, tail := bitsOf v 12 12 % m, rtail := bitsOf v 24 12 % m,
                                   rqhead := bitsOf v 36 12 % m, phase := v.getLsbD 48 })
    | none => s) (s.squash n)

/-- SVI_RESTORE (R421, R422): whether the fields of a state of unknown making are consistent is open (log 9). -/
def hSviRestore : Handler := fun _ z s =>
  let n := z.inst
  if s.sviBusy n then (.fail zBusy 0, s)
  else match s.inst n with
    | none => (.fail zNotPermitted 0, s)
    | some i =>
      if i.st ≠ 2 then (.fail zNotPermitted 0, s)
      else match s.zread z (z.f 24 8) 4096 with
        | (.ok _ true, s) => s.poisonedBuffer
        | (.ok b false, s) =>
          let state := b.drop 64
          let dig := sm3 state
          if leNat (sliceB b 0 2) ≠ 1 ∨ sliceB b 16 32 ≠ dig ∨ leNat (sliceB b 4 2) ≠ i.qcount then (badParam 0, s)
          else
            let t := s.evt 15 0x1D 4
            match s.zci.images.find? (fun x => x.digest = dig) with
            | some x => (doneOk, t.restoreImage n i x)
            | none => if Config.imageOk state then (doneOk, t.restoreOpen n i) else (badParam 0, s)
        | (r, s) => (r.fail, s)

/-- A pair that was stopping has no command left: it is DISABLED, and the command that waited for its
last pair ends (R411, R415). -/
def queueDrainCompleteRun (qp : Nat) (s : State) : State :=
  let s := s.zciFlush
  match s.pair qp with
  | none => s
  | some p => match p.stopBy with
    | none => s
    | some id =>
      if s.qpBusy qp id then s
      else
        let s := s.setPair qp none
        if s.draining id then s
        else
          let s := s.zci.insts.foldl (fun s i => if i.2.op = 1 ∧ i.2.opId = id then
            s.setInst i.1 (some { i.2 with op := 0, opId := 0 }) else s) s
          (s.final id zDone 0 []).zciFlush

-- EXEC: SVI_RESET_COMPLETE SVI_FREEZE_COMPLETE QUEUE_DRAIN_COMPLETE
/-- SVI_RESET_COMPLETE (R417): the effect of a well-formed command. -/
def execSviResetComplete (inst : Nat) (s : State) : Res :=
  runs (wfInst inst) (sviResetCompleteRun inst) s

/-- SVI_FREEZE_COMPLETE (R420): the effect of a well-formed command. -/
def execSviFreezeComplete (inst : Nat) (s : State) : Res :=
  runs (wfInst inst) (sviFreezeCompleteRun inst) s

/-- QUEUE_DRAIN_COMPLETE (R415): the effect of a well-formed command. -/
def execQueueDrainComplete (qp : Nat) (s : State) : Res :=
  runs (wfQp qp) (queueDrainCompleteRun qp) s
-- END EXEC

end Sys2Proof.Machine
end

