-- ==== Sys2Proof/Machine/Tier.lean ====
section
/-! DEFINITION.
The Enlarger's commands and scheduler (R259, R274–R282, R299): class 0x10, the use of a free
migration slot, evacuation, heat decay and the rows of the slots' events. -/

namespace Sys2Proof.Machine

/-! ### Checks of class 0x10 (R277, R278) -/

/-- Whether `len` bytes from an HPA lie wholly within this package's tiered memory. -/
def State.inTiered (s : State) (hpa len : Nat) : Bool :=
  decide (s.tiered.1 ≤ hpa ∧ hpa + len ≤ s.tiered.2)

/-- Whether a range of frames includes a Darkroom region of this package (R277). -/
def State.hasDarkRegion (s : State) (hpa len : Nat) : Bool :=
  match s.darkRange s.sock with
  | some (b, t) =>
    let lo := hpa / 2 ^ 21 * 2 ^ 21
    let hi := (hpa + len + 2 ^ 21 - 1) / 2 ^ 21 * 2 ^ 21
    decide (lo < t ∧ b < hi)
  | none => false

/-- Whether another move, pin, discard, report or evacuate command would exceed 256 (R278). -/
def State.tierFull (s : State) : Bool := decide (s.enl.cmds.length ≥ 256)

/-- The Darkroom rule: only SL acts on Darkroom regions. -/
def State.tierDark (s : State) (z : ZCmd) (hpa len : Nat) : Bool :=
  decide (s.srcOf z.qp ≠ 3) && s.hasDarkRegion hpa len

/-- Queue a command's frames. -/
def State.tierQueue (s : State) (id : Nat) (k : TierKind) (first count : Nat) : State :=
  { s with enl := { s.enl with cmds := s.enl.cmds ++ [⟨id, k, first, count, 0, 0, 0, 0, 0, 0⟩] } }

/-- The checks of a command over a range of frames, then what it does. -/
def tierRange (bad : ZCmd → Bool) (limit : Bool)
    (k : Nat → ZCmd → Nat → Nat → State → ZDo × State) : Handler := fun id z s =>
  let hpa := z.f 16 8
  let n := z.f 24 4
  if hpa % 4096 ≠ 0 ∨ n < 1 ∨ n > 262144 ∨ !s.inTiered hpa (n * 4096) ∨ bad z then (badParam 0, s)
  else if s.tierDark z hpa (n * 4096) then (.fail zNotPermitted 0, s)
  else if limit && s.tierFull then (.fail zBusy 0, s)
  else k id z (hpa / 4096) n s

/-- TIER_QUERY (Table 8-7). -/
def hTierQuery : Handler := fun _ z s =>
  let g := z.f 17 1
  if z.f 16 1 > 1 then (badParam 0, s)
  else
    let (t0, f0, t1, f1, units, remap) := s.enlTotals
    let zeros := (s.tiered.2 - s.tiered.1) / 4096 - (s.enl.frames.filter (fun p => p.2.tier ≠ 3)).length
    let v := if z.f 16 1 = 0 then [t0, f0, t1, f1, units, s.enl.pools.length, remap, zeros]
      else [s.charged 0 g, s.charged 1 g, s.chargedUnits g, (s.quota g).1, (s.quota g).2,
            SMap.get (fun _ => 0) s.enl.overq g, 0, 0]
    match s.zwrite z (z.f 24 8) (v.flatMap (leBytes 8)) with
    | (.ok _ _, s) => (doneOk, s)
    | (r, s) => (r.fail, s)

/-- A placement record (R280). -/
def FrameEnt.report (e : FrameEnt) : Nat :=
  let b (x : Bool) (i : Nat) : Nat := if x then 2 ^ i else 0
  e.tier * 2 ^ 14 + b e.move 13 + b e.pin 12 + b e.incomp 11 + b e.mixed 10 + e.heat * 64 + e.units * 8

/-- The placement records of a region's 512 frames (R280). -/
def State.regionRecords (s : State) (f : Nat) : List Byte := (List.range 512).flatMap fun j => leBytes 2 (s.ent (f + j)).report

/-- Write the records of `n` regions from frame `f` to a command's buffer, in ascending order (R280). -/
def State.reportRegions (s : State) (z : ZCmd) (f n : Nat) : BufRes × State :=
  (List.range n).foldl (fun (a : BufRes × State) i => match a.1 with
    | .ok _ _ => a.2.zwrite z (z.f 32 8 + 1024 * i) (a.2.regionRecords (f + 512 * i))
    | _ => a) (.ok [] false, s)

/-- TIER_REPORT (R280). -/
def hTierReport : Handler := fun _ z s =>
  let hpa := z.f 16 8
  let n := z.f 24 4
  if hpa % 2 ^ 21 ≠ 0 ∨ n < 1 ∨ n > 1024 ∨ !s.inTiered hpa (n * 2 ^ 21) then (badParam 0, s)
  else if s.tierDark z hpa (n * 2 ^ 21) then (.fail zNotPermitted 0, s)
  else if s.tierFull then (.fail zBusy 0, s)
  else if !s.bufOk z (z.f 32 8) (1024 * n) then (badParam dBuffer, s)
  else match s.reportRegions z (hpa / 4096) n with
    | (.ok _ _, s) => (doneOk, s)
    | (r, s) => (r.fail, s)

/-- TIER_MOVE (R279). -/
def hTierMove : Handler :=
  tierRange (fun z => decide (z.f 28 1 > 3)) true fun id z f n s =>
    (.later, s.tierQueue id (.move (z.f 28 1) (decide (z.f 29 1 % 2 = 1))) f n)

/-- TIER_PIN (R272). -/
def hTierPin : Handler :=
  tierRange (fun z => decide (z.f 28 1 > 1)) true fun id z f n s =>
    (.later, s.tierQueue id (.pin (z.f 28 1) (z.f 30 2 % 16384)) f n)

/-- TIER_DISCARD (R281). -/
def hTierDiscard : Handler :=
  tierRange (fun _ => false) true fun id _ f n s => (.later, s.tierQueue id .discard f n)

/-- TIER_UNPIN (R277): PIN is cleared on every frame. -/
def hTierUnpin : Handler :=
  tierRange (fun _ => false) false fun _ _ f n s =>
    (doneOk, s.each (s.enl.frames.filter (fun p => decide (f ≤ p.1 ∧ p.1 < f + n) && p.2.pin)) fun s p =>
      s.putEnt p.1 { s.ent p.1 with pin := false })

/-- TIER_SET_QUOTA (R270, R271): no frame moves. -/
def hTierSetQuota : Handler := fun _ z s =>
    let q := SMap.put (fun _ => (2 ^ 64 - 1, 2 ^ 64 - 1)) s.enl.quotas (z.f 17 1) (z.f 24 8, z.f 32 8)
    (doneOk, { s with enl := { s.enl with quotas := q } })

/-- TIER_EVACUATE (R274, R278). -/
def hTierEvacuate : Handler := fun id z s =>
  let tier := z.f 16 1
  let n := z.f 18 2
  if tier > 1 then (badParam 0, s)
  else if tier = 0 ∧ (n ≥ s.plat.sets.length ∨ s.enl.withheld.contains n) then (badParam 0, s)
  else if tier = 1 ∧ (n ≥ s.plat.t1.length ∨ n ≥ 64 ∨ !(s.rd kFioT1act).getLsbD n) then (badParam 0, s)
  else if s.enl.withdrawn.contains (tier * 256 + n) then (.fail zDone 0, s)
  else if s.tierFull then (.fail zBusy 0, s)
  else
    (.later, (s.tierQueue id .evacuate 0 0).evacStart tier n (some id) false)

/-- TIER_CANCEL (R281): drops the frames not yet started of the earliest command with the TAG. -/
def hTierCancel : Handler := fun id z s =>
    let named := s.zci.outs.find? (fun o => decide (o.z.qp = z.qp ∧ o.id ≠ id) && decide (o.z.tag = z.f 16 2))
    match named.bind (fun o => s.enl.cmds.find? (fun c => c.id = o.id)) with
    | none => (.done 0 (leBytes 4 0), s)
    | some c => match c.kind with
      | .evacuate | .report _ => (.done 0 (leBytes 4 0), s)
      | _ =>
        let c' := { c with left := 0, aborted := c.aborted + c.left }
        let s := { s with enl := { s.enl with cmds := s.enl.cmds.map fun (x : TierCmd) => if x.id = c.id then c' else x } }
        (.done 0 (leBytes 4 c.left), if c'.active = 0 then s.cmdFinish c' else s)

/-! ### The frames of a command -/

/-- Note that a command has passed `n` frames, all skipped. -/
def State.cmdSkip (s : State) (id n : Nat) : State :=
  if n = 0 then s
  else
    let l := s.enl.cmds.map fun (c : TierCmd) =>
      if c.id = id then { c with next := c.next + n, left := c.left - n, skipped := c.skipped + n } else c
    let s := ({ s with enl := { s.enl with cmds := l } }).evtBy 15 0x50 14 n
    match s.enl.cmds.find? (fun c => c.id = id) with
    | some c => if c.left = 0 ∧ c.active = 0 then s.cmdFinish c else s
    | none => s

/-- Note that the next frame of a command has started in a slot. -/
def State.cmdStart (s : State) (id : Nat) : State :=
  { s with enl := { s.enl with cmds := s.enl.cmds.map fun (c : TierCmd) =>
      if c.id = id then { c with next := c.next + 1, left := c.left - 1, active := c.active + 1 } else c } }

/-- Note that the next frame of a command has ended without a slot. -/
def State.cmdPass (s : State) (id : Nat) (e : FrameEnd) : State :=
  let s := { s with enl := { s.enl with cmds := s.enl.cmds.map fun (c : TierCmd) =>
      if c.id = id then { c with next := c.next + 1, left := c.left - 1 } else c } }
  s.cmdCount (some id) e false

/-- A free frame of an uncompressed tier for a command: none from the reserve, no other tier. -/
def State.allocFor (s : State) (tier f : Nat) : Option Nat :=
  let dark := s.isDark (f <<< 12)
  if tier = 0 then s.alloc0 dark false else s.alloc1 dark

/-- Start an uncompressed move of a frame in slot `n` (R260 steps 1 and 2). -/
def State.startCopy (s : State) (f n k : Nat) (t : Slot → Slot) (cmd : Option Nat) : State :=
  (s.useMedia k (some (.slot n))).beginMove f n (t (Slot.fresh .copy f (s.ent f).mediaOf k cmd))

/-- Start a unit copy of a frame's blob into pool frames of a tier (R275 step 4, Table 8-8). -/
def State.startUnitCopy (s : State) (f n pool : Nat) (t : Slot → Slot) (cmd : Option Nat) : Option State :=
  let e := s.ent f
  (s.allocUnits pool e.units f).map fun p =>
    p.2.beginMove f n (t { Slot.fresh .unitCopy f (blobKey e.pool e.unit) (blobKey pool p.1) cmd with srcUnits := true })

/-- Whether a key context admits Enlarger work that decrypts (R291). -/
def State.keyUsable (s : State) (key : Nat) : Bool := decide ((s.ctx key).st = 1 ∨ (s.ctx key).st = 2)

/-- Whether a frame stays where it is under Sealed partitioning (R453). -/
def State.sealPinned (s : State) (f : Nat) : Bool := s.fon kWldSeal fWldSeal_ACTIVE && s.isDark (f <<< 12)

/-- Move frame `f` into an uncompressed tier for a command: the frame's end, or none when slot `n` has
taken it. -/
def State.moveTo (s : State) (f n tier : Nat) (pin : Bool) (id : Nat) : Option FrameEnd × State :=
  let e := s.ent f
  if e.tier = 2 && !s.keyUsable e.fkey then (some .skipped, s)
  else if s.atQuota tier (groupOf e.fkey) then (some .nospace, s)
  else match s.allocFor tier f with
    | none => (some .nospace, s)
    | some k =>
      if e.tier = 2 then
        let r := s.startDecomp f n k (some id) false
        (none, r.2.setSlot n { r.1 with pinAfter := pin })
      else (none, s.startCopy f n k (fun t => { t with pinAfter := pin }) (some id))

/-- One frame of TIER_MOVE (R279, Table 8-8). -/
def State.moveFrame (s : State) (f n target : Nat) (force : Bool) (id : Nat) : Option FrameEnd × State :=
  let e := s.ent f
  if e.pin || e.move || decide (e.tier = 3) || s.sealPinned f then (some .skipped, s)
  else if target ≤ 1 then
    if e.tier = target then (some .skipped, s) else s.moveTo f n target false id
  else
    let pool := target - 2
    if e.mixed || (e.incomp && !force) then (some .skipped, s)
    else if e.tier = 2 then
      if e.pool = pool then (some .skipped, s)
      else if s.atQuota pool (groupOf e.fkey) then (some .nospace, s)
      else match s.startUnitCopy f n pool id' (some id) with
        | some s => (none, s)
        | none => (some .nospace, s)
    else if !s.keyUsable e.fkey then (some .skipped, s)
    else (none, s.beginMove f n (Slot.fresh (.compress pool) f e.mediaOf 0 (some id)))
where
  /-- No mark on the slot. -/
  id' (t : Slot) : Slot := t

/-- TIER_MOVE takes slot `n` for its next frame that moves; `l` holds the frames of the range that are
not zero frames. -/
def State.moveScan (s : State) (n target : Nat) (force : Bool) (id : Nat) : List Nat → Bool × State
  | [] => match s.enl.cmds.find? (fun c => c.id = id) with
    | some c => (false, s.cmdSkip id c.left)
    | none => (false, s)
  | f :: l => match s.enl.cmds.find? (fun c => c.id = id) with
    | none => (false, s)
    | some c =>
      let s := s.cmdSkip id (f - c.next)
      match s.moveFrame f n target force id with
      | (none, s) => (true, s.cmdStart id)
      | (some e, s) => (s.cmdPass id e).moveScan n target force id l

/-- The PIN of a frame that stands in its tier (R272). -/
def State.pinHere (s : State) (f : Nat) : FrameEnd × State :=
  let e := s.ent f
  if e.pin then (.moved, s)
  else if s.pinCount < s.fget kEnlPinlim fEnlPinlim_LIMIT then (.moved, (s.putEnt f { e with pin := true }).evt 15 0x50 16)
  else (.nospace, s)

/-- One frame of TIER_PIN (R272): a pin of a moving frame waits. -/
def State.pinFrame (s : State) (f n target key id : Nat) : Option State :=
  let e := s.ent f
  if e.move then none
  else if e.tier = 3 then
    if !s.keyUsable key then some (s.cmdPass id .skipped)
    else if s.atQuota target (groupOf key) ∨ ¬ s.pinCount < s.fget kEnlPinlim fEnlPinlim_LIMIT then some (s.cmdPass id .nospace)
    else match s.frameRegion (f / 512) with
      | none => some (s.cmdPass id .nospace)
      | some s' => match s'.allocFor target f with
        | none => some (s.cmdPass id .nospace)
        | some k =>
          let r := (s'.placeZero f k key).pinHere f
          some (r.2.cmdPass id r.1)
  else if e.tier = target then
    let r := s.pinHere f
    some (r.2.cmdPass id r.1)
  else match s.moveTo f n target true id with
    | (none, s) => some (s.cmdStart id)
    | (some x, s) => some (s.cmdPass id x)

/-- Whether a line of a frame that is discarded is ready (R281): no transaction is open on it, and every agent that holds
it answers at once. -/
def State.discardReady (s : State) (line : Nat) : Bool :=
  !s.lineHeld line && (match s.dirFind line with
    | some (_, e) => e.listed.all (fun a => s.answers a)
    | none => true)

/-- A line that another socket holds is invalidated there first (R196). -/
def State.discardAsk (s : State) (line : Nat) : State :=
  match s.dirFind line with
  | some (_, e) => if s.lineHeld line || e.listed.all (fun a => s.answers a) then s else s.dirEvict e
  | none => s

/-- Drop every copy of a line without write-back (R281). -/
def State.discardLine (s : State) (line : Nat) : State :=
  let s := match s.dirFind line with
    | none => s
    | some (k, e) =>
      let s := e.listed.foldl (fun (s : State) a => (s.snoopAgent a .i line none).2) s
      (s.dirPut k none).evtDir line e.dark 1
  { s with home := { s.home with wbuf := s.home.wbuf.filter (fun w => w.line ≠ line) } }

/-- One frame of TIER_DISCARD (R281): while a rekey slot or a line holds it up nothing of it is discarded; then the copies
of all its lines, a move of it and its media go in one step. -/
def State.discardFrame (s : State) (f id : Nat) : Option State × State :=
  let lines := (List.range 64).map (f * 64 + ·)
  let held := match s.slotOf f with
    | some (_, t) => match t.kind with
      | .rekey _ | .rekeyBlob _ => true
      | _ => false
    | none => false
  if held then (none, s)
  else if !lines.all (fun l => s.discardReady l) then (none, s.each lines State.discardAsk)
  else
    let s' := match s.slotOf f with
      | some (n, t) => s.abandonSlot n t .aborted
      | none => s
    (some ((((s'.each lines State.discardLine).zeroFrame f).evt 15 0x50 17).cmdPass id .moved), s)

/-- The listed frames of a range, in ascending order. -/
def State.framesIn (s : State) (lo n : Nat) : List Nat :=
  (s.enl.frames.filter (fun p => decide (lo ≤ p.1 ∧ p.1 < lo + n))).map (·.1)

/-- A command takes slot `n`: whether it used it, and the state after. -/
def State.cmdUse (s : State) (n : Nat) (c : TierCmd) : Bool × State :=
  if c.left = 0 then (false, s)
  else match c.kind with
    | .move target force => s.moveScan n target force c.id (s.framesIn c.next c.left)
    | .pin target key => match s.pinFrame c.next n target key c.id with
      | some s => (true, s)
      | none => (false, s)
    | .discard => match s.discardFrame c.next c.id with
      | (some s, _) => (true, s)
      | (none, s) => (false, s)
    | _ => (false, s)

/-! ### Evacuation (R274–R276) -/

/-- The first frame key and the length of the media of an evacuation. -/
def State.evacSpan (s : State) (e : Evac) : Nat × Nat :=
  if e.tier = 0 then match s.plat.sets[e.set]? with
    | some r => r.span
    | none => (0, 0)
  else match s.plat.t1[e.set]? with
    | some r => r.span
    | none => (0, 0)

/-- Whether a frame key lies in a span. -/
def inSpan (p : Nat × Nat) (k : Nat) : Bool := decide (p.1 ≤ k ∧ k < p.1 + p.2)

/-- Change the evacuation that runs. -/
def State.setEvac (s : State) (f : Evac → Evac) : State :=
  match s.enl.evacs with
  | e :: r => { s with enl := { s.enl with evacs := f e :: r } }
  | [] => s

/-- The remap-store frame that an evacuation moves next. -/
def State.evacRemap (s : State) (span : Nat × Nat) : Option Nat :=
  (s.enl.used.find? (fun p => inSpan span p.1 && decide (p.2 = .remap))).map (·.1)

/-- Copy one line of the remap store to another tier-0 frame: its tweak is that of its new MA (R284). -/
def State.moveStoreLine (s : State) (k k' i : Nat) : State :=
  let a := keyMa k + i * 64
  let b := keyMa k' + i * 64
  let m := s.mediaRead 0 a
  let s := if m.poison then s.mediaWrite 0 b m
    else if m.sealed = some (s.storeSeal a) then s.mediaWrite 0 b { m with sealed := some (s.storeSeal b) } else s
  s.evtBy 15 0x52 11 2

/-- Move a remap-store frame to another tier-0 set (R275 step 2); the region table, or the descriptor of the region whose
frame table it is, names its new place. -/
def State.moveRemap (s : State) (k k' : Nat) : State :=
  let sub (x : Nat) : Nat := if x = k then k' else x
  let rs := (s.enl.tables.filter (fun p => p.2 = k)).map (·.1)
  let s := s.each (List.range 64) fun s i => s.moveStoreLine k k' i
  let s := { s with enl := { s.enl with tables := s.enl.tables.map (fun (p : Nat × Nat) => (p.1, sub p.2)), regTab := s.enl.regTab.map sub } }
  ((s.each rs State.storeDesc).useMedia k' (some .remap)).useMedia k none |>.evt 15 0x50 25

/-- The next frame that an evacuation moves: in tier 0 or 1 with its media in the span, or a blob with
its units there, and not moving. -/
def State.evacFrame (s : State) (span : Nat × Nat) : Option (Nat × FrameEnt) :=
  s.enl.frames.find? fun p => !p.2.move &&
    (if p.2.tier ≤ 1 then inSpan span p.2.mediaOf else decide (p.2.tier = 2) && inSpan span (unitFrame p.2.pool p.2.unit))

/-- The destination of an evacuated frame: its own tier, else the other uncompressed tier; never the
reserve (R275 step 3). -/
def State.evacDst (s : State) (tier f : Nat) : Option Nat :=
  match s.allocFor tier f with
  | some k => some k
  | none => s.allocFor (1 - tier) f

/-- The slots that evacuation may use (ENL_CTL). -/
def State.evSlots (s : State) : Nat := max 1 (min 56 (s.fget kEnlCtl fEnlCtl_EVSLOTS))

/-- No destination is free: the evacuation pauses and the service firmware is told (R276). -/
def State.evacStall (s : State) : State :=
  ((s.setEvac fun e => { e with stall := true }).fput kEnlEvac fEnlEvac_STALL 1).vecSp 3

/-- The running evacuation takes slot `n`: whether it used it, and the state after. -/
def State.evacUse (s : State) (n : Nat) : Bool × State :=
  match s.enl.evacs with
  | [] => (false, s)
  | e :: _ =>
    if e.stall || decide ((s.enl.slots.filter (fun p => p.2.evac)).length ≥ s.evSlots) then (false, s)
    else
      let span := s.evacSpan e
      match s.evacRemap span with
      | some k => match s.alloc0 false false with
        | some k' => (true, s.moveRemap k k')
        | none => (false, s.evacStall)
      | none => match s.evacFrame span with
        | none => (false, s)
        | some (f, x) =>
          let mark (t : Slot) : Slot := { t with evac := true }
          if x.tier ≤ 1 then match s.evacDst x.tier f with
            | some k => (true, s.startCopy f n k mark none)
            | none => (false, s.evacStall)
          else match s.startUnitCopy f n x.pool mark none with
            | some s => (true, s)
            | none => match s.startUnitCopy f n (1 - x.pool) mark none with
              | some s => (true, s)
              | none => (false, s.evacStall)

/-- EVACUATION_RESUME (R276). -/
def evacuationResumeRun (s : State) : State :=
  match s.enl.evacs with
  | e :: _ => if e.stall then (s.setEvac fun e => { e with stall := false }).fput kEnlEvac fEnlEvac_STALL 0 else s
  | [] => s

/-- EVACUATION_COMPLETE (R275 step 5, R276): nothing is left in the media. -/
def evacuationCompleteRun (s : State) : State :=
  match s.enl.evacs with
  | [] => s
  | e :: r =>
    let span := s.evacSpan e
    if s.enl.used.any (fun p => inSpan span p.1) then s
    else
      let cmds := s.enl.cmds.filter (fun c => !e.cmds.contains c.id)
      let s := { s with enl := { s.enl with evacs := r, cmds := cmds } }
      let s := (s.fput kEnlEvac fEnlEvac_DONE 1).fput kEnlEvac fEnlEvac_STALL 0
      let s := s.config 3 15 0x50 [e.tier, e.set]
      (s.each e.cmds fun s id => s.final id zDone 0 []).zciFlush

/-! ### Rotations (R299, R301) -/

/-- How many rekey slots the rotations together may hold. -/
def State.rotSlots (s : State) : Nat := max 1 (min 16 (s.fget kDksCtl fDksCtl_ROTSLOTS))

/-- Store a rotation. -/
def State.setRot (s : State) (e : Nat) (r : Rot) : State := { s with dks := { s.dks with rots := SMap.set s.dks.rots e r } }

/-- A rotation passes the frames it skips and starts its next frame in slot `n`; `l` holds the listed
frames from its next frame on. -/
def State.rotScan (s : State) (n e : Nat) (r : Rot) : List Nat → Bool × State
  | [] =>
    let stop := r.first + r.count
    let r := { r with skipped := r.skipped + (stop - r.next), next := stop }
    (false, (s.setRot e r).rotAdvance e)
  | f :: l =>
    let x := s.ent f
    let r := { r with skipped := r.skipped + (f - r.next), next := f }
    if x.tier = 3 ∨ x.fkey ≠ r.key then s.rotScan n e { r with skipped := r.skipped + 1, next := f + 1 } l
    else if x.move then (false, (s.setRot e r).rotAdvance e)
    else if x.tier ≤ 1 ∧ x.mixed then s.rotScan n e { r with mixed := r.mixed + 1, next := f + 1 } l
    else
      let kind : SlotKind := if x.tier = 2 then .rekeyBlob e else .rekey e
      let s := (s.setRot e { r with next := f + 1 }).beginMove f n (Slot.fresh kind f 0 0 none)
      (true, s.rotAdvance e)

/-- A rotation takes slot `n`: rotations that wait are served in the order of acceptance. -/
def State.rotUse (s : State) (n : Nat) (p : Nat × Rot) : Bool × State :=
  if p.2.next ≥ p.2.first + p.2.count then (false, s)
  else s.rotScan n p.1 p.2 (s.framesIn p.2.next (p.2.first + p.2.count - p.2.next))

/-- The rotations by acceptance. -/
def orderRots : List (Nat × Rot) → List (Nat × Rot) → List (Nat × Rot)
  | acc, [] => acc
  | acc, p :: l => orderRots (acc.filter (fun q => decide (q.2.order < p.2.order)) ++ [p] ++
      acc.filter (fun q => decide (q.2.order ≥ p.2.order))) l

/-- Offer slot `n` to users in turn until one takes it. -/
def State.offer {α : Type} (s : State) (use : State → α → Bool × State) : List α → Bool × State
  | [] => (false, s)
  | x :: l => match use s x with
    | (true, s) => (true, s)
    | (false, s) => s.offer use l

/-- The slots that rotations hold. -/
def State.rekeyHeld (s : State) : Nat := (s.enl.slots.filter (fun p => match p.2.kind with
  | .rekey _ | .rekeyBlob _ => true
  | _ => false)).length

/-- The rotations are offered slot `n`, when they may hold another (R299); `held`: the slots they hold. -/
def State.offerRots (s : State) (held n : Nat) : Bool × State :=
  if held ≥ s.rotSlots then (false, s) else s.offer (fun s p => s.rotUse n p) (orderRots [] s.dks.rots)

/-- MIGRATION_SLOT_FREE (R299, R275): a free slot goes to an evacuation, then to a rotation, then to
queued command frames. -/
def migrationSlotFreeRun (s : State) : State :=
  match (if s.down then none else s.cmdSlot) with
  | none => s
  | some n =>
    let r := match s.evacUse n with
      | (true, s) => (true, s)
      | (false, u) => match u.offerRots s.rekeyHeld n with
        | (true, s) => (true, s)
        | (false, s) => s.offer (fun s c => s.cmdUse n c) s.enl.cmds
    r.2.zciFlush

/-! ### Heat decay (R259) -/

/-- HEAT_DECAY_VISIT (R259): the sweep halves the heat of its next frame; it pauses in PS2 (R507). -/
def heatDecayVisitRun (s : State) : State :=
  let n := (s.tiered.2 - s.tiered.1) / 4096
  if s.fget kEnlHeat fEnlHeat_DECAY = 0 ∨ n = 0 ∨ s.fget kPwrPkg fPwrPkg_PS = 2 then s
  else
    let p := if s.enl.decayOn then s.enl.decayPos else 0
    let f := s.tiered.1 / 4096 + p
    let e := s.ent f
    let s := if e.tier = 3 ∨ e.heat = 0 then s else s.putEnt f { e with heat := e.heat / 2 }
    ({ s with enl := { s.enl with decayPos := (p + 1) % n, decayOn := true } }).evt 15 0x50 6

/-- The effect of a write of ENL_HEAT: a write of DECAY ends the running sweep; the next one starts at
the tiered base. -/
def State.decayRestart (s : State) (v : Word) : State :=
  { s with enl := { s.enl with decayPos := 0, decayOn := decide (fEnlHeat_DECAY.get v ≠ 0) } }

/-! ### Slot events -/

/-- MIGRATION_COPY (R260 step 3, R263 step 1). -/
def migrationCopyRun (slot line : Nat) (parity : Bool) (s : State) : State := (s.copyLine slot line parity false).zciFlush
/-- SOURCE_FRAME_FREE (R260 step 6). -/
def sourceFrameFreeRun (slot : Nat) (s : State) : State := (s.sourceFree slot).zciFlush
/-- COMPRESSION_COMPLETE (R263 steps 3–5). -/
def compressionCompleteRun (slot : Nat) (s : State) : State := (s.compressDone slot).zciFlush
/-- UNIT_COPY_COMPLETE (R275 step 4). -/
def unitCopyCompleteRun (slot : Nat) (s : State) : State := (s.unitCopyDone slot).zciFlush
/-- BLOB_REKEY_COMPLETE (R299). -/
def blobRekeyCompleteRun (slot : Nat) (s : State) : State := (s.rekeyBlobDone slot).zciFlush
/-- REKEY_TRANSACTION (R299). -/
def rekeyTransactionRun (slot line : Nat) (s : State) : State := (s.rekeyLine slot line false).zciFlush
/-- DECOMPRESSED_LINE (R266 step 4). -/
def decompressedLineRun (slot : Nat) (checkFails : Bool) (s : State) : State := (s.decompLine slot checkFails).zciFlush

/-! ### Accesses of a home (R255) -/

/-- The port number of a tier-1 range and the CXL address of an MA (R347). -/
def State.t1Port (s : State) (ma : Nat) : Nat × Nat :=
  match (s.t1Range ma).bind (fun r => s.plat.t1[r]?) with
  | some r => (4 * r.group + r.port, r.cxlBase + (ma - r.maBase))
  | none => (0, 0)

/-- The tier-1 media frame that an access reaches through a port; none when it is served otherwise. -/
def State.t1Access (s : State) (a : TierAccess) : Option Nat :=
  let e := s.ent (a.line / 64)
  if (s.keyRefusal a.key a.dark).isSome then none
  else if e.tier ≤ 1 then match s.lineAt (a.line / 64) (a.line % 64) e with
    | .media k => if keyTier k = 1 && !s.mediaDead 1 (keyMa k) then some k else none
    | _ => none
  else none

/-- Tell a home what the Enlarger answered. -/
def State.enlReply (s : State) (a : TierAccess) (r : EnlRes) : State :=
  match r with
  | .wait => s
  | .deferred => s.emit (.defr 0 a.line)
  | .line d p _ => s.emit (.reply 16 a.line d p false)

/-- The Enlarger holds an access that waits (R258). -/
def State.holdAccess (s : State) (a : TierAccess) : State := { s with enl := { s.enl with held := s.enl.held ++ [a] } }

/-- An access to tier 1 leaves through its port as ciphertext (R27, R283), under the seal that its line has now; it is
answered by TIER1_MEMORY_COMPLETION. -/
def State.t1Send (s : State) (a : TierAccess) (k : Nat) : State :=
  let s := if a.write then (s.enlWrite a).2 else s
  let tag := s.fio.tag
  let ma := keyMa k + (a.line % 64) * 64
  let p := s.t1Port ma
  let x : T1Pend := ⟨tag, a, k, some (s.lineSeal a.key a.line)⟩
  let s := { s with fio := { s.fio with tag := tag + 1, t1 := s.fio.t1 ++ [x] } }
  s.emit (.portReq p.1 tag p.2 a.write (if a.write then (s.mediaRead 1 ma).wire else 0) false)

/-- TIERED_ACCESS (R255, R258, Table 8-4): an access to tier 1 leaves through its port; one that waits, or that follows one
that waits on its line, is held. -/
def State.tieredOk (s : State) (a : TierAccess) : State :=
  if s.enl.held.any (fun b => decide (b.line = a.line)) then s.holdAccess a
  else match s.t1Access a with
    | some k => s.t1Send a k
    | none => match (if a.write then s.enlWrite a else s.enlRead a false) with
      | (.wait, s) => (s.holdAccess a).zciFlush
      | (r, s) => (s.enlReply a r).zciFlush

/-- STARVED_REQUEST_RESUME (R258): the requests that waited for media are tried again, at each slice the first that can go
on, and at the Enlarger those that it holds, in their order. -/
def starvedRequestResumeRun (s : State) : State :=
  if s.down then s
  else
    let s := s.each (List.range 32) fun s n => (s.retrySlice n).getD s
    let l := s.enl.held
    ({ s with enl := { s.enl with held := [] } } : State).each l State.tieredOk

/-- The slot whose copy or rekey of a line is still to come (R204). -/
def State.copyOf (s : State) (line : Nat) : Option (Nat × Slot) :=
  s.enl.slots.find? fun p => decide (p.2.frame = line / 64) && !p.2.draining && !p.2.closed && !p.2.moved.getLsbD (line % 64) &&
    (match p.2.kind with
      | .copy | .compress _ | .rekey _ => true
      | _ => false)

/-- The memory timer of an access that the Enlarger holds, or of a copy or rekey of a line, expires in Cydric poison mode
(R207): a read returns poisoned data and a write is dropped. -/
def State.heldTimeout (s : State) (line : Nat) : State :=
  match s.enl.held.find? (fun a => decide (a.line = line)) with
  | some a =>
    let s := s.deferredErr 0x74 (some (line * 64)) (some a.key) (s.isDark (line * 64)) 0x1F
    (({ s with enl := { s.enl with held := s.enl.held.erase a } } : State).fed line).enlReply a (.line 0 (!a.write) false)
  | none => match s.copyOf line with
    | some (n, t) =>
      let s := s.deferredErr 0x74 (some (line * 64)) (some (s.ent t.frame).fkey) (s.isDark (line * 64)) 0x1F
      (s.copyLine n (line % 64) false true).rekeyLine n (line % 64) true
    | none => s

/-- A memory timer expires (R205, R207): in native mode the domain goes down; in Cydric poison mode a read returns poisoned
data and a write is dropped, as a Deferred error, and its request waits for media no longer (R258). -/
def memoryTimeoutRun (line : Nat) (s : State) : State :=
  if s.down then s
  else match s.transOf line with
    | some t =>
      if t.await.isEmpty && !t.granted && !t.fabric then
        if s.fon kHaGctl fHaGctl_MODE then
          let s := (s.deferredErr 0x74 (some (line * 64)) (some t.req.key) (s.isDark (line * 64)) 0x1F).fed line
          if t.kind = .atf then
            let p := s.closeEnd t none (.reply 0 true false false)
            p.2.deliver t.pend p.1
          else s.settle { t with mem := some (0, true), dropped := true }
        else s.domainDown 2 (msgType t.kind) 0x1F line s.sock
      else s
    | none =>
      if (s.enl.held.find? (fun a => decide (a.line = line))).isNone && (s.copyOf line).isNone then s
      else if s.fon kHaGctl fHaGctl_MODE then (s.heldTimeout line).zciFlush
      else s.domainDown 2 (if (s.copyOf line).isSome then 0x0E else 0) 0x1F line s.sock

/-- An uncorrectable error of a key context (R292): it is FAULTED and its keys are gone, a rotation of it ends with the
counts reached, and the error is Deferred. -/
def State.keyFault (s : State) (key : Nat) (dark : Bool) : State :=
  let s := match s.rotOf key with
    | some (e, r) => s.rotEnd e r zInternal 0
    | none => s
  let s := s.setCtx key { s.ctx key with st := 3, k1 := 0, k2 := 0, oalg := 0, o1 := 0, o2 := 0 }
  s.dksShow.raise { cls := 1, kind := 0x41, key := some key, dark := dark || (s.ctx key).dark }

/-- TIERED_ACCESS: the access, after the fault that its key context shows (R255, R292). -/
def tieredAccessRun (a : TierAccess) (s : State) : State :=
  if s.down then s else (if a.ctxErr then s.keyFault a.key a.dark else s).tieredOk a

/-- TIER1_MEMORY_COMPLETION (R348, R261): the completion of a CXL.mem request, under the seal with which it was issued
(R302). What the medium holds under a seal is what this package wrote; a line that no seal produced is the device's own
data. -/
def tier1MemoryCompletionRun (tag : Nat) (data : Line) (poison : Bool) (s : State) : State :=
  match s.fio.t1.find? (fun t => t.tag = tag) with
  | none => s
  | some t =>
    let s := { s with fio := { s.fio with t1 := s.fio.t1.filter (fun x => x.tag ≠ tag) } }
    let s := if t.a.write then s.enlReply t.a (.line 0 false false)
      else
        let ma := keyMa t.k + (t.a.line % 64) * 64
        let m := s.mediaRead 1 ma
        let s := if poison then s.mediaWrite 1 ma ⟨0, none, true⟩
          else if m.sealed.isNone then s.mediaWrite 1 ma ⟨data, none, false⟩ else s
        let d := (s.mediaRead 1 ma).opened (t.sealed.getD (s.lineSeal t.a.key t.a.line))
        (((s.looked t.a (.line d.1 d.2 false, s)).2.mediaEvt t.k t.a.dark false).evtW t.a.dark 0x52 1).enlReply t.a (.line d.1 d.2 false)
    s.zciFlush

-- EXEC: STARVED_REQUEST_RESUME MEMORY_TIMEOUT MIGRATION_SLOT_FREE EVACUATION_RESUME EVACUATION_COMPLETE HEAT_DECAY_VISIT MIGRATION_COPY SOURCE_FRAME_FREE COMPRESSION_COMPLETE UNIT_COPY_COMPLETE BLOB_REKEY_COMPLETE REKEY_TRANSACTION DECOMPRESSED_LINE TIERED_ACCESS TIER1_MEMORY_COMPLETION
/-- STARVED_REQUEST_RESUME (R258): the effect of a well-formed command. -/
def execStarvedRequestResume (s : State) : Res := runs true starvedRequestResumeRun s

/-- MEMORY_TIMEOUT (R207): the effect of a well-formed command. -/
def execMemoryTimeout (line : Nat) (s : State) : Res := runs (wfLine line) (memoryTimeoutRun line) s

/-- MIGRATION_SLOT_FREE (R299): the effect of a well-formed command. -/
def execMigrationSlotFree (s : State) : Res := runs true migrationSlotFreeRun s

/-- EVACUATION_RESUME (R276): the effect of a well-formed command. -/
def execEvacuationResume (s : State) : Res := runs true evacuationResumeRun s

/-- EVACUATION_COMPLETE (R275): the effect of a well-formed command. -/
def execEvacuationComplete (s : State) : Res := runs true evacuationCompleteRun s

/-- HEAT_DECAY_VISIT (R259): the effect of a well-formed command. -/
def execHeatDecayVisit (s : State) : Res := runs true heatDecayVisitRun s

/-- MIGRATION_COPY (R260): the effect of a well-formed command. -/
def execMigrationCopy (slot : Nat) (line : Nat) (parity : Bool) (s : State) : Res :=
  runs (wfSlot slot && decide (line < 64)) (migrationCopyRun slot line parity) s

/-- SOURCE_FRAME_FREE (R260): the effect of a well-formed command. -/
def execSourceFrameFree (slot : Nat) (s : State) : Res :=
  runs (wfSlot slot) (sourceFrameFreeRun slot) s

/-- COMPRESSION_COMPLETE (R263): the effect of a well-formed command. -/
def execCompressionComplete (slot : Nat) (s : State) : Res :=
  runs (wfSlot slot) (compressionCompleteRun slot) s

/-- UNIT_COPY_COMPLETE (R275): the effect of a well-formed command. -/
def execUnitCopyComplete (slot : Nat) (s : State) : Res :=
  runs (wfSlot slot) (unitCopyCompleteRun slot) s

/-- BLOB_REKEY_COMPLETE (R299): the effect of a well-formed command. -/
def execBlobRekeyComplete (slot : Nat) (s : State) : Res :=
  runs (wfSlot slot) (blobRekeyCompleteRun slot) s

/-- REKEY_TRANSACTION (R299): the effect of a well-formed command. -/
def execRekeyTransaction (slot : Nat) (line : Nat) (s : State) : Res :=
  runs (wfSlot slot && decide (line < 64)) (rekeyTransactionRun slot line) s

/-- DECOMPRESSED_LINE (R266): the effect of a well-formed command. -/
def execDecompressedLine (slot : Nat) (checkFails : Bool) (s : State) : Res :=
  runs (wfSlot slot) (decompressedLineRun slot checkFails) s

/-- TIERED_ACCESS (R255): the effect of a well-formed command. -/
def execTieredAccess (a : TierAccess) (s : State) : Res := runs a.wf (tieredAccessRun a) s

/-- TIER1_MEMORY_COMPLETION (R348): the effect of a well-formed command. -/
def execTier1MemoryCompletion (tag : Nat) (data : Line) (poison : Bool) (s : State) : Res :=
  runs true (tier1MemoryCompletionRun tag data poison) s
-- END EXEC

end Sys2Proof.Machine
end

