-- ==== Sys2Proof/Machine/Key.lean ====
section
/-! DEFINITION.
Key context commands (class 0x12, R293–R303, R594) and the signed quote (R481). -/

namespace Sys2Proof.Machine

/-! ### Quotes (R481) -/

/-- A random scalar for a signature. -/
def State.nonce (s : State) : Nat × State :=
  let d := s.draw
  (d.1.toNat % (sm2N - 1) + 1, d.2)

/-- A quote over the registers of `mask`, with its signature; none without an identity key. -/
def State.quote (s : State) (mask : BitVec 32) (nonce : List Byte) : Option (List Byte) × State :=
  match s.wld.idPriv with
  | none => (none, s)
  | some d =>
    let b5 := s.fget kWldLife fWldLife_STATE + (if s.fon kWldLife fWldLife_DBGAUTH then 128 else 0)
    let regs := (List.range 32).flatMap fun n => if mask.getLsbD n then s.xr n else []
    let body := leBytes 4 0x54515248 ++ [1, BitVec.ofNat 8 b5, 0, 0] ++ leBytes 4 mask.toNat ++
      leBytes 4 (s.fget kXrcStat fXrcStat_COUNT) ++ leBytes 8 s.time ++ leBytes 8 s.fuses.serial.toNat ++
      sliceB nonce 0 32 ++ leBytes 8 (s.rd kMgtEffcap).toNat ++ List.replicate 24 0 ++ regs
    let k := s.nonce
    (some (body ++ sm2Sign d.toNat k.1 body), k.2)

/-! ### Class 0x12 -/

/-- DETAIL values of Table 9-9. -/
def dCtxLoaded : Nat := 1
def dCtxEmpty : Nat := 2
def dWorld : Nat := 3
def dErased : Nat := 4
def dKeyid : Nat := 5
def dWeak : Nat := 6
def dValue : Nat := 7
def dCtxZero : Nat := 8

/-- KEYID (Table 9-6). -/
def keyIdOf (z : ZCmd) : Nat := z.f 16 2
/-- Whether SOURCE is WRAPPED (Table 9-6). -/
def isWrapped (z : ZCmd) : Bool := decide (z.f 18 1 = 1)

/-- Checks 1 to 4 of R594. -/
def State.keyCheck (s : State) (z : ZCmd) (query source : Bool) (worlds : Option (Nat → Bool)) : Option (Nat × Nat) :=
  let h := decide (s.srcOf z.qp = 2)
  let c := s.ctx (keyIdOf z)
  if (keyIdOf z) > 16383 then some (zBadParam, dValue)
  else if (keyIdOf z) = 0 ∧ !query then some (zNotPermitted, dCtxZero)
  else if h && decide (c.st ≠ 0) && c.dark then some (zNotPermitted, dWorld)
  else if source && (decide (z.f 18 1 > 1) || (decide (z.f 18 1 = 0) && decide (z.f 19 1 > 1)) ||
      (isWrapped z && decide (z.f 32 4 ≠ 177))) then some (zBadParam, dValue)
  else match worlds with
    | some ok => if ok (z.f 20 1) then none else some (zBadParam, dValue)
    | none => none

/-- A key pair: ALG and its two halves. -/
structure KeyPair where
  alg : Nat
  k1  : BitVec 256
  k2  : BitVec 256
  deriving DecidableEq, Repr

/-- The low bytes of a key half as ALG uses them (Tables 9-2 and 9-4). -/
def keyHalf (alg : Nat) (b : List Byte) : BitVec 256 := BitVec.ofNat 256 (leNat (if alg = 1 then b.take 16 else b))

/-- Steps 9 and 10 of R594: the new pair, drawn or unwrapped. -/
def State.newKey (s : State) (z : ZCmd) : (ZDo ⊕ KeyPair) × State :=
  let weak (p : KeyPair) (s : State) : (ZDo ⊕ KeyPair) × State :=
    if p.k1 = p.k2 then (.inl (badParam dWeak), s) else (.inr p, s)
  if !(isWrapped z) then
    let d := s.draw
    let b := leBytes 64 d.1.toNat
    let alg := z.f 19 1
    weak ⟨alg, keyHalf alg (b.take 32), keyHalf alg (b.drop 32)⟩ d.2
  else match s.zread z (z.f 24 8) 177 with
    | (.ok _ true, s) => (.inl s.poisonedBuffer.1, s.poisonedBuffer.2)
    | (.ok b false, s) => match sm2Decrypt s.dks.tpriv.toNat b with
      | none => (.inl (.fail zSigFail 0), s)
      | some r =>
        let alg := leNat (sliceB r 1 1)
        let hi := alg = 1 ∧ (leNat (sliceB r 32 16) ≠ 0 ∨ leNat (sliceB r 64 16) ≠ 0)
        if leNat (sliceB r 0 1) ≠ 1 ∨ alg > 1 ∨ leNat (sliceB r 4 12) ≠ 0 ∨ hi then (.inl (badParam 0), s)
        else if leNat (sliceB r 2 2) ≠ (keyIdOf z) then (.inl (badParam dKeyid), s)
        else weak ⟨alg, keyHalf alg (sliceB r 16 32), keyHalf alg (sliceB r 48 32)⟩ s
    | (r, s) => (.inl r.fail, s)

/-- KEY_TRANSPORT (R294). -/
def hKeyTransport : Handler := fun _ z s =>
  let len := z.f 32 4
  if s.wld.idPriv.isNone then (.fail zNotPermitted 0, s)
  else if !s.bufOk z (z.f 24 8) len then (badParam dBuffer, s)
  else if len < 512 then (.fail zNoSpace 0, s)
  else
    let pub := sm2Pub s.dks.tpriv.toNat
    match s.quote 0x1FF#32 (sm3 pub) with
    | (none, s) => (.fail zNotPermitted 0, s)
    | (some q, s) => match s.zwrite z (z.f 24 8) (pub ++ q) with
      | (.ok _ _, s) => (.done 0 (leBytes 4 512), s)
      | (r, s) => (r.fail, s)

/-- KEY_LOAD (R296). -/
def hKeyLoad : Handler := fun _ z s =>
  let h := decide (s.srcOf z.qp = 2)
  match s.keyCheck z false true (some fun w => decide (w ≤ 1) && !(h && decide (w ≠ 0))) with
  | some (st, d) => (.fail st d, s)
  | none =>
    let c := s.ctx (keyIdOf z)
    if c.st ≠ 0 then (.fail zNotPermitted dCtxLoaded, s)
    else match s.newKey z with
      | (.inl e, s) => (e, s)
      | (.inr p, s) =>
        let c' : KeyCtx := { st := 1, alg := p.alg, dark := decide (z.f 20 1 = 1), k1 := p.k1, k2 := p.k2,
                             oalg := 0, o1 := 0, o2 := 0, gen := c.gen + 1 }
        (doneOk, ((s.setCtx (keyIdOf z) c').dksShow).evt 15 0x52 8)

/-- KEY_ROTATE (R297). -/
def hKeyRotate : Handler := fun id z s =>
  match s.keyCheck z false true none with
  | some (st, d) => (.fail st d, s)
  | none =>
    let c := s.ctx (keyIdOf z)
    let hpa := z.f 40 8
    let n := z.f 48 8
    if c.st ≠ 1 then (.fail zNotPermitted dCtxEmpty, s)
    else if hpa % 4096 ≠ 0 ∨ n = 0 ∨ n > 2 ^ 33 ∨ !s.inTiered hpa (n * 4096) then (badParam 0, s)
    else if s.srcOf z.qp = 2 ∧ s.hasDarkRegion hpa (n * 4096) then (.fail zNotPermitted dWorld, s)
    else match firstGap (s.dks.rots.map (·.1)) 0 16 with
      | none => (.fail zBusy 0, s)
      | some e => match s.newKey z with
        | (.inl x, s) => (x, s)
        | (.inr p, s) =>
          let c' : KeyCtx := { c with st := 2, alg := p.alg, k1 := p.k1, k2 := p.k2, oalg := c.alg, o1 := c.k1,
                                      o2 := c.k2, gen := c.gen + 1 }
          let f := hpa / 4096
          let ord := s.dks.rots.foldl (fun a q => max a (q.2.order + 1)) 0
          let r : Rot := { key := (keyIdOf z), first := f, count := n, p := f, next := f, finished := [],
                           frames := 0, blobs := 0, skipped := 0, mixed := 0, cmd := id, order := ord }
          (.later, (((s.setCtx (keyIdOf z) c').setRot e r).rotAdvance e).dksShow)

/-- KEY_ERASE (R302): the context is EMPTY at once; DONE follows when every access that began under the key ID has
completed. -/
def hKeyErase : Handler := fun _ z s =>
  match s.keyCheck z false false none with
  | some (st, d) => (.fail st d, s)
  | none =>
    let key := keyIdOf z
    let s := match s.rotOf key with
      | some (e, r) => s.rotEnd e r zNotPermitted dErased
      | none => s
    let c' : KeyCtx := { s.ctx key with st := 0, k1 := 0, k2 := 0, oalg := 0, o1 := 0, o2 := 0 }
    let s := (s.setCtx key c').dksShow
    if s.fio.t1.any (fun t => decide (t.a.key = key)) then (.again, s) else (doneOk, s.evt 15 0x52 9)

/-- KEY_QUERY (R303). -/
def hKeyQuery : Handler := fun _ z s =>
  match s.keyCheck z true false none with
  | some (st, d) => (.fail st d, s)
  | none =>
    let c := s.ctx (keyIdOf z)
    (.done 0 ([BitVec.ofNat 8 c.st, BitVec.ofNat 8 c.alg, if c.dark then 1 else 0, 0] ++ leBytes 2 c.gen.toNat), s)

end Sys2Proof.Machine
end

