-- ==== Sys2Proof/Machine/Cdn.lean ====
section
/-! DEFINITION.
The Condenser's service commands (class 0x11, R305, R307–R311). -/

namespace Sys2Proof.Machine

/-- The lanes that service commands may use at once (CDN_CTL). -/
def State.svcLanes (s : State) (compress : Bool) : Nat :=
  if compress then min 16 (s.fget kCdnCtl fCdnCtl_SVCCMP) else min 12 (s.fget kCdnCtl fCdnCtl_SVCDEC)

/-- Whether a job's command is paused by a freeze (R420). -/
def State.jobPaused (s : State) (j : CdnJob) : Bool :=
  s.zci.outs.any (fun o => decide (o.id = j.id) && o.paused)

/-- Free lanes take the oldest waiting jobs (R305). -/
def State.cdnFill (s : State) : State :=
  let step (a : (Nat × Nat) × List CdnJob) (j : CdnJob) : (Nat × Nat) × List CdnJob :=
    let left := if j.compress then a.1.1 else a.1.2
    if j.lane || decide (left = 0) || s.jobPaused j then (a.1, a.2 ++ [j])
    else ((if j.compress then (a.1.1 - 1, a.1.2) else (a.1.1, a.1.2 - 1)), a.2 ++ [{ j with lane := true }])
  let used (c : Bool) : Nat := (s.cdn.filter (fun j => decide (j.compress = c) && j.lane)).length
  { s with cdn := (s.cdn.foldl step ((s.svcLanes true - used true, s.svcLanes false - used false), [])).2 }

/-- Whether two buffers overlap. -/
def overlaps (a n b m : Nat) : Bool := decide (a < b + m ∧ b < a + n)

/-- The parameter checks of class 0x11 (Tables 9-7 and 9-8): the DETAIL of BAD_PARAM. -/
def cdnBad (z : ZCmd) (compress : Bool) : Option Nat :=
  let src := z.f 16 8
  let n := z.f 24 4
  let dst := z.f 32 8
  let cap := z.f 40 4
  let hasDict := decide (z.f 30 1 / 4 % 2 = 1)
  let dl := if hasDict then z.f 44 4 else 0
  let da := z.f 48 8
  let wlog := z.f 31 1
  if z.f 28 1 > 1 then some 6
  else if n < 1 ∨ n > 67108864 then some 7
  else if compress && (decide (z.f 29 1 > 9) || decide (wlog ≠ 0 ∧ (wlog < 10 ∨ wlog > 23))) then some 7
  else if hasDict && decide (dl < 1 ∨ dl > 65536) then some 3
  else if overlaps src n dst cap || overlaps src n da dl || overlaps dst cap da dl then some 5
  else none

/-- The job of a command over its input and dictionary, with the outcome that its standard gives (R310,
log 8). -/
def cdnJob (id : Nat) (z : ZCmd) (compress : Bool) (input dict : List Byte) : CdnJob :=
  let n := z.f 24 4
  let dst := z.f 32 8
  let cap := z.f 40 4
  let level := if z.f 29 1 = 0 then 3 else z.f 29 1
  let wlog := if z.f 31 1 = 0 then 23 else z.f 31 1
  let r : Nat × Nat × List Byte :=
    if compress then (0, n, Config.compress (z.f 28 1) level wlog (z.f 30 1) dict input)
    else Config.decompress (z.f 28 1) dict input
  let plain := if compress then input else r.2.2
  if r.1 ≠ 0 then
    { id := id, compress := compress, left := n, lane := false, status := zBadParam, detail := r.1,
      out := (List.range cap).map (Config.failedOutput input), dest := dst, used := 0, crc := 0 }
  else if r.2.2.length > cap then
    { id := id, compress := compress, left := n, lane := false, status := zNoSpace, detail := 0,
      out := r.2.2.take cap, dest := dst, used := r.2.1, crc := crc32c plain }
  else
    { id := id, compress := compress, left := n, lane := false, status := zDone, detail := 0,
      out := r.2.2, dest := dst, used := r.2.1, crc := crc32c plain }

/-- The dictionary of a command, if it names one (Tables 9-7 and 9-8). -/
def State.cdnDict (s : State) (z : ZCmd) : BufRes × State :=
  if z.f 30 1 / 4 % 2 = 1 then s.zread z (z.f 48 8) (z.f 44 4) else (.ok [] false, s)

/-- CDN_COMPRESS and CDN_DECOMPRESS (R310): the input and dictionary are read as the command begins, and
the outcome is that of the standard (log 8). -/
def hCdn (compress : Bool) : Handler := fun id z s =>
  if !s.fon kCdnCtl fCdnCtl_SVCEN then (.fail zNotPermitted 0, s)
  else match cdnBad z compress with
    | some d => (badParam d, s.evt 15 0x51 10)
    | none =>
      if !s.bufOk z (z.f 32 8) (z.f 40 4) then (badParam dBuffer, s)
      else match s.zread z (z.f 16 8) (z.f 24 4) with
        | (.ok _ true, s) => s.poisonedBuffer
        | (.ok input _, s) => match s.cdnDict z with
          | (.ok _ true, s) => s.poisonedBuffer
          | (.ok dict _, s) =>
            (.later, ({ s with cdn := s.cdn ++ [cdnJob id z compress input dict] }).cdnFill.evt 15 0x51 9)
          | (x, s) => (x.fail, s)
        | (x, s) => (x.fail, s)

def hCdnCompress : Handler := hCdn true
def hCdnDecompress : Handler := hCdn false

/-- A job's last segment is done: its output is written and its final reply is due. `false` while the
destination waits. -/
def State.cdnEnd (s : State) (j : CdnJob) (z : ZCmd) : Bool × State :=
  let drop (s : State) : State := ({ s with cdn := s.cdn.filter (fun x => x.id ≠ j.id) }).cdnFill
  match s.zwrite z j.dest j.out with
  | (.wait, s) => (false, s)
  | (.ok _ _, s) =>
    let s := s.evtBy 15 0x51 7 (j.out.length / 64)
    if j.status = zBadParam then (true, (drop (s.final j.id j.status j.detail [])).evt 15 0x51 10)
    else if j.status = zNoSpace then
      let a := s.fresh
      let b := a.2.fresh
      (true, (drop (b.2.final j.id j.status 0 (leBytes 4 j.out.length ++ leBytes 4 a.1.toNat ++ leBytes 4 b.1.toNat))).evt 15 0x51 10)
    else (true, drop (s.final j.id j.status 0 (leBytes 4 j.out.length ++ leBytes 4 j.used ++ leBytes 4 j.crc.toNat)))
  | (r, s) => match r.fail with
    | .fail st d => (true, (drop (s.final j.id st d [])).evt 15 0x51 10)
    | _ => (true, drop s)

/-- SEGMENT_COMPLETE (R305): a lane of the kind finishes a segment of at most 64 KiB. -/
def segmentCompleteRun (compress : Bool) (s : State) : State :=
  let s := s.cdnFill
  match s.cdn.find? (fun j => decide (j.compress = compress) && j.lane && !s.jobPaused j) with
  | none => s
  | some j =>
    let seg := min j.left 65536
    let count (s : State) : State := (s.evt 15 0x51 11).evtBy 15 0x51 6 (seg / 64)
    if j.left > 65536 then
      let s := count s
      { s with cdn := s.cdn.map fun x => if x.id = j.id then { x with left := j.left - seg } else x }
    else match s.zci.outs.find? (fun o => o.id = j.id) with
      | none => ({ s with cdn := s.cdn.filter (fun x => x.id ≠ j.id) }).cdnFill
      | some o => match s.cdnEnd j o.z with
        | (true, s) => (count s).zciFlush
        | (false, s) => s

-- EXEC: SEGMENT_COMPLETE
/-- SEGMENT_COMPLETE (R305): the effect of a well-formed command. -/
def execSegmentComplete (compress : Bool) (s : State) : Res :=
  runs true (segmentCompleteRun compress) s
-- END EXEC

end Sys2Proof.Machine
end

