-- ==== Sys2Proof/Machine/Links.lean ====
section
/-! DEFINITION.
The rows of the Sceuc links (spec/07): flits received, replay, audits, width changes, training, link
loss, bursts and power states. -/

namespace Sys2Proof.Machine

/-! ### Link down (R239) -/

/-- A link is down: both ends stop driving their lanes, the timers that wait on the die expire, and
the die is lost; `sticky` until the next cold reset (R34, R40). -/
def State.linkDown (s : State) (n : Nat) (sticky : Bool) : State :=
  let i : LinkEnd := ⟨true, n⟩
  if (s.lk i).dead then s
  else
    let one (s : State) (e : LinkEnd) : State :=
      ((s.setLkState e 0).setLk e { LinkSt.reset with dead := true }).lkMsg e 8 0 0
    let s := one (one s i) ⟨false, n⟩
    let s := s.raise { cls := 2, kind := 0x24, agent := n, syn0 := s.rd (kSclUpmask i), syn1 := s.rd (kSclDnmask i) }
    let was := (s.unit n 0xFF).sticky
    let s := s.dieGone n
    if sticky || was || s.home.lost.contains n then s else s.putUnit n 0xFF { s.unit n 0xFF with sticky := false }

/-! ### Receiving a flit (R216, R219, R220) -/

/-- What became of a received flit. -/
inductive Rx where
  | none | header | accepted
  deriving DecidableEq, Repr

/-- The header of a flit as a number. -/
def headerOf (f : Flit) : Nat := fieldAt f 0 8
/-- A field of a header. -/
def hdr (h lo n : Nat) : Nat := (h >>> lo) % 2 ^ n
/-- Whether the CRC-64 of a flit passes. -/
def crcOk (f : Flit) : Bool :=
  decide ((crc64 (leBytes 120 f.toNat)).toNat = fieldAt f 120 8)

/-- Enter LP2 once the handshake is done and the replay buffer is empty (R246). -/
def State.lp2Try (s : State) (e : LinkEnd) : State :=
  let x := s.lk e
  if x.pmOk && x.replay.isEmpty then
    ((s.setLk e { x with pmSent := false, pmOk := false }).fput (kSclStat e) fSclStat_PWR 2).lkMsg e 7 0 0
  else s

/-- Take an acknowledgement that names an unacknowledged flit; a replay in progress does not send again what it covers
(R220, R221, R223). -/
def State.lkAck (s : State) (e : LinkEnd) (ack : Nat) : State :=
  let x := s.lk e
  if x.replay.any (fun f => f.seq = ack) then
    let l := (x.replay.dropWhile (fun f => f.seq ≠ ack)).drop 1
    (s.setLk e { x with replay := l, replays := 0, resend := x.resend.filter (fun f => l.any (fun g => g.seq = f.seq)) }).lp2Try e
  else s

/-- Take the header fields of a flit whose CRC passes (R216, R225); what waited for them is sent. -/
def State.lkHeader (s : State) (e : LinkEnd) (h : Nat) : State :=
  let s := s.lkAck e (hdr h 36 12)
  let x := s.lk e
  let sh := hdr h 26 10
  let c := hdr h 23 3
  let n := hdr h 18 5
  let x := { x with gotSh := x.gotSh + sh, res := setNth x.res c (min 16 (x.res.getD c 0 + n)),
                    gotRes := setNth x.gotRes c (x.gotRes.getD c 0 + n) }
  let av := min 432 (s.fget (kSclCredit e) fSclCredit_SHAVAIL + sh)
  ((s.setLk e x).fput (kSclCredit e) fSclCredit_SHAVAIL av).lkPump e

/-- Whether Agitation discards this sequenced flit (R565, NAK). -/
def State.agtNak (s : State) (e : LinkEnd) : Bool × State :=
  (s.agtEnd 2 e).foldl (fun (a : Bool × State) p =>
    let n := SMap.get (fun _ => 0) a.2.cnt.agt p.1 + 1
    let hit := decide (fAgtSlot_VALUE.get p.2 ≤ n)
    (a.1 || hit, { a.2 with cnt := { a.2.cnt with agt := SMap.put (fun _ => 0) a.2.cnt.agt p.1 (if hit then 0 else n) } }))
    (false, s)

/-- The slots of a flit that hold message content (Table 7-2). -/
def slotsOf (f : Flit) : List (BitVec 128) :=
  (List.range 7).filterMap fun k =>
    if (hdr (headerOf f) 11 7).testBit k then some (BitVec.ofNat 128 (fieldAt f (8 + 16 * k) 16)) else none

/-- An accepted PROT flit: its slots are freed as their messages are taken, and their credits are owed to the pools
that they came from (R225; log 26); the first slot that names a tag whose burst has not come starts its timer
(R243). -/
def LinkSt.takeSlots (x : LinkSt) (f : Flit) : LinkSt :=
  (slotsOf f).foldl (fun (x : LinkSt) b =>
    let c := Config.slotClass b
    let x := if c.2 then { x with retSh := x.retSh + 1 }
      else { x with retRes := setNth x.retRes (c.1 % 5) (x.retRes.getD (c.1 % 5) 0 + 1) }
    match Config.slotTag b with
    | some (t, u) =>
      if u.toNat = SMap.get (fun _ => 0) x.rxUse t.toNat && !x.rxOpen.contains t.toNat then { x with rxOpen := x.rxOpen ++ [t.toNat] } else x
    | none => x) x

/-- A sequenced flit is accepted: E advances, and the acknowledgement leaves in the next header (R219). -/
def State.takeFlit (s : State) (e : LinkEnd) (f : Flit) : State :=
  let x := s.lk e
  let x := { x with expect := (x.expect + 1) % 4096, nakFor := none }
  (s.setLk e (if hdr (headerOf f) 60 4 = 1 then x.takeSlots f else x)).sendFlit e 0 0 0 0

/-- A flit arrives at an end. -/
def State.rxFlit (s : State) (e : LinkEnd) (f : Flit) : Rx × State :=
  if !s.lkUp e then (.none, s)
  else if !crcOk f then (.none, (s.evtL e 3 1).sendNak e)
  else
    let h := headerOf f
    let s := s.lkHeader e h
    let typ := hdr h 60 4
    let seq := hdr h 48 12
    if typ > 3 then (.none, s.retrain e.link false)
    else if typ = 0 then (.header, s)
    else if typ = 2 then
      let s := s.lkAck e ((seq + 4095) % 4096)
      (.header, if (s.lk e).inReplay seq then s else s.replayFrom e seq)
    else
      let x := s.lk e
      let a := s.agtNak e
      if a.1 then
        -- a flit that Agitation discards has arrived (R219)
        (.none, (if seq = x.expect then a.2.setLk e { x with nakFor := none } else a.2).sendNak e)
      else if seq = x.expect then (.accepted, a.2.takeFlit e f)
      else if (x.expect + 4096 - seq - 1) % 4096 < 2048 then (.none, a.2.evtL e 6 1)
      else (.none, a.2.sendNak e)

/-- PROT (R219). A flit accepted after PM_REQ or PM_ACK keeps the link in LP0 (R246). -/
def protRun (e : LinkEnd) (flit : Flit) (s : State) : State :=
  match s.rxFlit e flit with
  | (.accepted, s) =>
    if hdr (headerOf flit) 60 4 ≠ 1 then s
    else
      let s := s.evtL e 2 1
      let x := s.lk e
      if x.pmSent || x.pmOk then (s.setLk e { x with pmSent := false, pmOk := false }).sendCtl e 8 else s
  | (_, s) => s

/-- NULL (R216). -/
def nullFlitRun (e : LinkEnd) (flit : Flit) (s : State) : State := (s.rxFlit e flit).2
/-- NAK (R223). -/
def nakRun (e : LinkEnd) (flit : Flit) (s : State) : State := (s.rxFlit e flit).2
/-- FLIT_CRC_FAILURE (R216, R219). -/
def flitCrcFailureRun (e : LinkEnd) (flit : Flit) (s : State) : State := (s.rxFlit e flit).2
/-- RESERVED_TYPE_FLIT (R216). -/
def reservedTypeFlitRun (e : LinkEnd) (flit : Flit) (s : State) : State := (s.rxFlit e flit).2

/-- Whether a flit is link control with a command of Table 7-4. -/
def isCtl (f : Flit) (cmd : Nat) : Bool := decide (hdr (headerOf f) 60 4 = 3 ∧ fieldAt f 8 1 = cmd)

/-- What an accepted link-control flit does. -/
def State.onCtl (s : State) (e : LinkEnd) (f : Flit) (cmd : Nat) (k : State → State) : State :=
  match s.rxFlit e f with
  | (.accepted, s) => if isCtl f cmd then k s else s
  | (_, s) => s

/-- REPLAY_TIMEOUT (R222). -/
def replayTimeoutRun (e : LinkEnd) (s : State) : State :=
  if !s.lkUp e then s
  else match (s.lk e).replay with
    | f :: _ => s.replayFrom e f.seq
    | [] => s

/-! ### Audits (R227, R228) -/

/-- AUDIT_SEND (R227): the counts are formed as the flit is sent. -/
def auditSendRun (e : LinkEnd) (s : State) : State := if s.lkUp e then s.sendCtl e 5 else s

/-- The difference of two 32-bit cumulative counts. -/
def deficit (sent : BitVec 32) (got : Nat) : Nat := (sent - BitVec.ofNat 32 got).toNat

/-- AUDIT (R228). -/
def auditRun (e : LinkEnd) (flit : Flit) (shared : BitVec 32) (reserved : List (BitVec 32)) (s : State) : State :=
  s.onCtl e flit 5 fun s =>
    let x := s.lk e
    let d := deficit shared x.gotSh
    let bad := (List.range 5).filter fun c => decide (deficit (reserved.getD c 0) (x.gotRes.getD c 0) ≠ 0)
    let s := s.setLk e { x with gotSh := shared.toNat, gotRes := (List.range 5).map fun c => (reserved.getD c 0).toNat }
    let s := ((s.fadd (kSclCredit e) fSclCredit_SHDEF d).evtL e 7 1).evtL e 8 d
    let r := bad.foldl (fun m c => m ||| 2 ^ c) (s.fget (kSclCredit e) fSclCredit_RESDEF)
    let s := s.fput (kSclCredit e) fSclCredit_RESDEF r
    let lim := s.fget (kSclCtl e) fSclCtl_LEAKRT
    if !bad.isEmpty || decide (lim ≠ 0 ∧ s.fget (kSclCredit e) fSclCredit_SHDEF ≥ lim) then s.retrain e.link false else s

/-! ### Width changes (R236, R237) -/

/-- Both MAPSWITCHes are through: the end computes the new maps and retrains. -/
def State.widthEnd (s : State) (e : LinkEnd) : State :=
  let x := s.lk e
  if x.width = 3 ∧ x.switched then (s.setLk e { x with width := 0, switched := false }).retrain e.link false else s

/-- WIDTH_REQ (R236, R237). -/
def widthReqRun (e : LinkEnd) (flit : Flit) (masks : Masks) (s : State) : State :=
  s.onCtl e flit 1 fun s =>
    let x := s.lk e
    let s := s.lkMsg e 12 masks.up masks.down
    if x.width = 0 then ((s.setLk e { x with width := 2 }).setLkState e 4).sendWidth e 2
    else if x.width = 1 ∧ !e.iod then
      let s := (s.setLk e { x with width := 2, recheck := true }).sendCtl e 3
      (s.lkMsg e 13 (BitVec.ofNat 64 x.reqSeq) 0).sendWidth e 2
    else s

/-- WIDTH_ACK (R236). -/
def widthAckRun (e : LinkEnd) (flit : Flit) (masks : Masks) (s : State) : State :=
  s.onCtl e flit 2 fun s =>
    let x := s.lk e
    let s := s.lkMsg e 12 masks.up masks.down
    if x.width = 1 then s.setLk e { x with width := 2 } else s

/-- WIDTH_WDRAW (R237): the request that the IOD end ignored is withdrawn. -/
def widthWdrawRun (e : LinkEnd) (flit : Flit) (seq : BitVec 12) (s : State) : State :=
  s.onCtl e flit 3 fun s => s.lkMsg e 14 (seq.setWidth 64) 0

/-- MAPSWITCH (R236). -/
def mapswitchRun (e : LinkEnd) (flit : Flit) (s : State) : State :=
  s.onCtl e flit 4 fun s =>
    let x := s.lk e
    if x.width = 0 then s else (s.setLk e { x with switched := true }).widthEnd e

/-- REPLAY_BUFFER_DRAINED (R236 step 4). -/
def replayBufferDrainedRun (e : LinkEnd) (s : State) : State :=
  let x := s.lk e
  if x.width = 2 ∧ x.replay.isEmpty ∧ s.lkUp e then
    ((s.setLk e { x with width := 3 }).sendCtl e 4).widthEnd e
  else s

/-! ### Training (R230–R235) -/

/-- FULL_TRAINING (R213, R230): waits for SCL_SPLIT.LOCK; a link that is down and a die
retired do not train.  The maps in force before stay known, for R235. -/
def State.fullTrain (s : State) (n : Nat) : State :=
  let i : LinkEnd := ⟨true, n⟩
  if !s.fon (kSclSplit n) fSclSplit_LOCK || (s.lk i).dead || decide ((s.unit n 0xFF).st = .retired) then s
  else
    let one (s : State) (e : LinkEnd) : State :=
      ((s.setLk e { LinkSt.reset with mapUp := (s.lk e).mapUp, mapDn := (s.lk e).mapDn }).setLkState e 1).lkMsg e 1 0 0
    one (one s i) ⟨false, n⟩

/-- Full training in a DIE reset of the compute die: a link that is down trains again (R233, R239). -/
def State.fullTrainDie (s : State) (n : Nat) : State :=
  let one (s : State) (e : LinkEnd) : State := s.setLk e { s.lk e with dead := false }
  (one (one s ⟨true, n⟩) ⟨false, n⟩).fullTrain n

def fullTrainingRun (e : LinkEnd) (s : State) : State :=
  if s.lkState e = 1 then s else s.fullTrain e.link

/-- TRAINING_PATTERN_DETECT (R233): the IOD end discards its sequence state and replay buffer; the transactions that
waited on the die and the die itself are treated as after a reset that the die made of itself (R535). -/
def trainingPatternDetectRun (e : LinkEnd) (s : State) : State :=
  if e.iod && decide (s.lkState e = 2 ∨ s.lkState e = 4) then (s.dieGone e.link).fullTrain e.link else s

/-- TRAINING_TIMEOUT (R231). -/
def trainingTimeoutRun (e : LinkEnd) (s : State) : State :=
  if !s.boot.windowOpen && decide (s.lkState e = 1 ∨ s.lkState e = 3) then s.linkDown e.link false else s

/-- Remove the lanes that a receiving end found bad in step 2 (R230).  A failure counts against its lane; in a retrain
started under R224 on a link without LK_LANEATTR the errors count against the link as a whole (R234). -/
def State.badLanes (s : State) (n : Nat) (up : Bool) (m : Masks) : State :=
  let e : LinkEnd := ⟨up, n⟩
  let lo := if up then m.up else m.down
  let sp := if up then m.upSp else m.dnSp
  let bad := lo.toNat + sp.toNat * 2 ^ 64
  let gone := (List.range 68).filter (fun i => bad.testBit i && (s.laneMask e up).testBit i)
  let k := if up then kSclUpmask e else kSclDnmask e
  let f := if up then fSclSpmask_UP else fSclSpmask_DN
  let s := s.wr k (s.rd k &&& ~~~ lo)
  let s := s.fput (kSclSpmask e) f (s.fget (kSclSpmask e) f &&& (15 - sp.toNat))
  if (s.lk ⟨true, n⟩).attr && !s.linkFeat n 4 then
    if gone.isEmpty then s else s.raise { cls := 0, kind := 0x20, agent := n, recovered := true, counts := false }
  else
    gone.foldl (fun s i =>
      s.raise { cls := 0, kind := 0x20, recovered := true,
                element := elem 15 (0x30 + n) 1 ((if up then 0 else 128) + i) }) s

/-- Record that the two ends' masks of a direction differ (R232, R235).  Where both directions differ in one training the log
holds the up direction, which is recorded first (DESIGN CHOICE, log 35). -/
def State.disagree (s : State) (n : Nat) (up : Bool) : State :=
  let a := s.laneMask ⟨true, n⟩ up
  let b := s.laneMask ⟨false, n⟩ up
  if a = b then s
  else
    let s := if s.fon (kSclWdlog0 n) fSclWdlog0_VALID then s else
      let v := fSclWdlog0_VALID.put 0 1
      let v := fSclWdlog0_DIR.put v (if up then 0 else 1)
      let v := fSclWdlog0_CDSP.put v (b / 2 ^ 64)
      let s := s.wr (kSclWdlog0 n) (fSclWdlog0_IODSP.put v (a / 2 ^ 64))
      (s.wr (kSclWdlog1 n) (BitVec.ofNat 64 a)).wr (kSclWdlog2 n) (BitVec.ofNat 64 b)
    let s := s.raise { cls := 0, kind := 0x21, agent := n, recovered := true,
                       syn0 := s.rd (kSclUpmask ⟨true, n⟩), syn1 := s.rd (kSclDnmask ⟨true, n⟩) }
    s.config 2 15 (0x30 + n) []

/-- What the capability exchange of full training finds (R34, R36, R40): 0 accepted, 1 rejected, 2 changed, 3 a die that
comes after the effective set is fixed.  A word that differs from the one of an earlier training has changed, whatever
else is wrong with it. -/
def State.capCheck (s : State) (n : Nat) (w : Word) : Nat :=
  let old := s.rd (kSclPeercap n)
  if old ≠ 0 ∧ old ≠ w then 2
  else if fSclLocalcap_KIND.get w ≠ 1 ∨ fSclLocalcap_FORMAT.get w ≠ 1 ∨ fSclLocalcap_LINK_FEAT.get w % 8 ≠ 7 ∨
      fSclLocalcap_PKG_FEAT.get w % 2 ≠ 1 then 1
  else if old = 0 ∧ s.boot.effFixed then 3
  else 0

/-- Set the widths of a direction at both ends; whether they differ from those of an earlier training
(R235; log 35). -/
def State.setWidths (s : State) (n : Nat) (up : Bool) : Bool × State :=
  let good := s.laneMask ⟨true, n⟩ up &&& s.laneMask ⟨false, n⟩ up
  let w := widthOf (popBelow good 68)
  let pkt := s.fget (kSclSplit n) (if up then fSclSplit_PKTUP else fSclSplit_PKTDN)
  let p := min pkt w
  let fw := if up then fSclStat_WUP else fSclStat_WDN
  let fp := if up then fSclStat_PUP else fSclStat_PDN
  let st := kSclStat ⟨true, n⟩
  let changed := decide (s.fget st fw ≠ 0) && decide (s.fget st fw ≠ w ∨ s.fget st fp ≠ p)
  let one (s : State) (e : LinkEnd) : State := (s.fput (kSclStat e) fw w).fput (kSclStat e) fp p
  (changed, one (one s ⟨true, n⟩) ⟨false, n⟩)

/-- Step 7 and ACTIVE at one end (R218, R229): the receiver's buffers are free, and PROT flits in the replay buffer are
charged again when they are replayed.  A retrain ends a width change that is open (DESIGN CHOICE, log 35: R236 does
not say what another retrain does to it). -/
def State.endActive (s : State) (full : Bool) (e : LinkEnd) : State :=
  let x := s.lk e
  let x := if full then { LinkSt.reset with next := 0, expect := 0 } else
    { x with replay := x.replay.map (fun f => { f with charged := decide (f.typ = 3) }), resend := [], lp1 := false, retSh := 0, retRes := [0, 0, 0, 0, 0], sentSh := 0, sentRes := [0, 0, 0, 0, 0],
             gotSh := 0, gotRes := [0, 0, 0, 0, 0], replays := 0, attr := false, width := 0, switched := false,
             lockLost := false, unequal := 0 }
  let s := s.setLk e { x with res := [16, 16, 16, 16, 16] }
  let s := s.wr (kSclCredit e) (fSclCredit_SHAVAIL.put 0 432)
  let s := (s.fput (kSclStat e) fSclStat_STRDISDN 0).fput (kSclStat e) fSclStat_STRDISUP 0
  let s := if full then s.fput (kSclStat e) fSclStat_RETRAINS 0 else s
  (s.fput (kSclStat e) fSclStat_PWR 0).setLkState e 2

/-- The masks of a link after a training's lane check (R230, R232, R234). -/
def State.trained (s : State) (n : Nat) (t : Training) : State :=
  (((s.badLanes n true t.iodBad).badLanes n false t.cdBad).disagree n true).disagree n false

/-- The features that both ends of a link have are in force (R34). -/
def State.takeCaps (s : State) (n : Nat) (cap : Word) : State :=
  let s := s.wr (kSclPeercap n) cap
  let lf := fSclLocalcap_LINK_FEAT.get cap &&& fSclLocalcap_LINK_FEAT.get s.fuses.iodWord
  s.wr (kSclLinkcap n) (fSclLinkcap_FORMAT.put (fSclLinkcap_LINK_FEAT.put 0 lf) 1)

/-- The widths of both directions are set; a map or a width other than the old ones is recorded (R235). -/
def State.setMaps (s : State) (n : Nat) (old : List Nat × List Nat) : State :=
  let a := s.setWidths n true
  let b := a.2.setWidths n false
  if a.1 || b.1 || decide (old ≠ (b.2.mapNow n true, b.2.mapNow n false)) then
    (b.2.raise { cls := 0, kind := 0x20, agent := n, recovered := true, counts := false,
                 syn0 := b.2.rd (kSclUpmask ⟨true, n⟩), syn1 := b.2.rd (kSclDnmask ⟨true, n⟩) }).config 1 15 (0x30 + n) []
  else b.2

/-- Both ends become ACTIVE with their maps in force (R229, R230). -/
def State.trainEnd (s : State) (n : Nat) (full : Bool) : State :=
  let s := (s.endActive full ⟨true, n⟩).endActive full ⟨false, n⟩
  s.setLk ⟨true, n⟩ { s.lk ⟨true, n⟩ with mapUp := s.mapNow n true, mapDn := s.mapNow n false }

/-- What waited at the ends of a link goes on once it is ACTIVE: an end that put off a width change looks at its masks
again, and the messages that waited are sent (R236, R237). -/
def State.trainGo (s : State) (n : Nat) : State :=
  let one (s : State) (e : LinkEnd) : State :=
    let x := s.lk e
    let s := s.setLk e { x with recheck := false }
    (if x.recheck then s.widthCheck e else s).lkPump e
  one (one s ⟨true, n⟩) ⟨false, n⟩

/-- A die that has not trained in time is retired for the boot and its link is down (R36). -/
def State.cdLate (s : State) (n : Nat) : State :=
  let s := (s.setLkState ⟨true, n⟩ 0).setLkState ⟨false, n⟩ 0
  let s := (s.setLk ⟨true, n⟩ { LinkSt.reset with dead := true }).setLk ⟨false, n⟩ { LinkSt.reset with dead := true }
  s.lose n 0xFF true

/-- TRAINING_COMPLETE (R230): steps 2 to 8 with what they measured and exchanged. -/
def trainingCompleteRun (n : Nat) (t : Training) (s : State) : State :=
  let i : LinkEnd := ⟨true, n⟩
  let st := s.lkState i
  let full := decide (st = 1)
  if st ≠ 1 ∧ st ≠ 3 then s
  else
    let old := (s.mapHeld n true, s.mapHeld n false)
    let s := s.trained n t
    let cap := if full then s.capCheck n t.capWord else 0
    if cap = 1 then s.linkDown n true
    else if cap = 2 then
      let w := s.rd (kSclPeercap n)
      (s.raise { cls := 2, kind := 0x22, agent := n, syn0 := w, syn1 := t.capWord }).linkDown n true
    else if cap = 3 then s.cdLate n
    else if s.mapNow n true = [] ∨ s.mapNow n false = [] then s.linkDown n false
    else if !t.equal then
      let x := s.lk i
      if x.unequal ≥ 2 then s.linkDown n false else s.setLk i { x with unequal := x.unequal + 1 }
    else
      let s := (((if full then s.takeCaps n t.capWord else s).setMaps n old).trainEnd n full).trainGo n
      if full then s.releaseDie n else s

/-! ### Lock (R238) -/

/-- LOCK_LOSS (R238): electrical idle in a low-power state is no loss of lock. -/
def lockLossRun (e : LinkEnd) (s : State) : State :=
  if s.lkState e = 0 || s.lkAsleep e then s
  else
    let s := s.setLk e { s.lk e with lockLost := true }
    s.retrain e.link false

/-- LOCK_REGAINED (R231). -/
def lockRegainedRun (e : LinkEnd) (s : State) : State :=
  if (s.lk e).lockLost then (s.setLk e { s.lk e with lockLost := false }).retrain e.link false else s

/-- LOCK_TIMEOUT (R238). -/
def lockTimeoutRun (e : LinkEnd) (s : State) : State :=
  if (s.lk e).lockLost then s.linkDown e.link false else s

/-! ### The stream role (R242, R243) -/

/-- The bytes of a burst before its CRC. -/
def BurstBytes (b : BurstMsg) : List Byte :=
  [b.tag, b.use, BitVec.ofNat 8 b.lines.length] ++ List.replicate 13 0 ++ b.lines.flatMap lineBytes

/-- BURST (R243): the first burst of a tag with its USE and a CRC that passes is taken into the tag's buffer (R240), and
its timer is cancelled. -/
def burstRun (e : LinkEnd) (b : BurstMsg) (s : State) : State :=
  let t := b.tag.toNat
  let x := s.lk e
  if !s.lkUp e || decide (t > 63) then s
  else if crc32p (BurstBytes b) ≠ b.crc then (s.evtL e 10 1).lkMsg e 6 (BitVec.ofNat 64 t) 0
  else if b.use.toNat = SMap.get (fun _ => 0) x.rxUse t ∧ 1 ≤ b.lines.length ∧ b.lines.length ≤ 32 then
    (s.setLk e { x with rxUse := SMap.put (fun _ => 0) x.rxUse t ((b.use.toNat + 1) % 16),
                        rxBuf := SMap.put (fun _ => []) x.rxBuf t b.lines,
                        rxOpen := x.rxOpen.filter (fun o => o ≠ t) }).lkMsg e 2 (BitVec.ofNat 64 t) 0
  else s

/-- BURST_TIMEOUT (R243): the timer runs for a tag that a slot has named and whose burst has not been taken. -/
def burstTimeoutRun (e : LinkEnd) (tag : BitVec 6) (s : State) : State :=
  if s.lkUp e && (s.lk e).rxOpen.contains tag.toNat then (s.evtL e 10 1).lkMsg e 6 (tag.setWidth 64) 0 else s

/-- SBA (R242): the tag is free again. -/
def sbaRun (e : LinkEnd) (tag : BitVec 6) (s : State) : State :=
  let x := s.lk e
  s.setLk e { x with tags := x.tags.filter (fun u => u.tag ≠ tag.toNat) }

/-- The third re-request of a burst fails: its data goes as DAT messages, and the direction's stream is disabled until the
next retrain.  The tag stays in use, as no SBA of it has come (R242, R243). -/
def State.burstFails (s : State) (e : LinkEnd) (u : TagUse) : State :=
  let f := if e.iod then fSclStat_STRDISDN else fSclStat_STRDISUP
  let s := (s.fput (kSclStat e) f 1).fput (kSclStat (otherEnd e)) f 1
  let s := s.raise { cls := 0, kind := 0x23, agent := e.link, recovered := true, counts := false,
                     syn0 := s.rd (kSclUpmask ⟨true, e.link⟩), syn1 := s.rd (kSclDnmask ⟨true, e.link⟩) }
  u.lines.foldl (fun s d => s.lkMessage e 3 5 (.burstData e.iod e.link d)) s

/-- SBR (R243): the burst is sent again, with its TAG and USE; at the third re-request it has failed. -/
def sbrRun (e : LinkEnd) (tag : BitVec 6) (s : State) : State :=
  let x := s.lk e
  match x.tags.find? (fun u => u.tag = tag.toNat) with
  | none => s
  | some u =>
    let tags := x.tags.map fun (v : TagUse) => if v.tag = u.tag then { v with asked := v.asked + 1 } else v
    let s := s.setLk e { x with tags := tags }
    if u.asked < 2 then
      let b : BurstMsg := ⟨BitVec.ofNat 8 u.tag, BitVec.ofNat 8 u.use, u.lines, 0⟩
      s.emit (.burst e.iod e.link u.tag u.use u.lines (crc32p (BurstBytes b)))
    else if u.asked = 2 then s.burstFails e u
    else s

/-! ### Power states (R245, R246) -/

/-- Whether an end is idle (R246). -/
def State.lkIdle (s : State) (e : LinkEnd) : Bool :=
  let x := s.lk e
  s.lkUp e && x.replay.isEmpty && x.queue.isEmpty && decide (x.width = 0) && s.fon (kSclPm e) fSclPm_LP2EN

/-- LP2_IDLE (R246). -/
def lp2IdleRun (e : LinkEnd) (s : State) : State :=
  let x := s.lk e
  if s.lkIdle e && !x.pmSent && !x.pmOk then (s.setLk e { x with pmSent := true }).sendCtl e 6 else s

/-- PM_REQ (R246): two that cross act as each other's PM_ACK. -/
def pmReqRun (e : LinkEnd) (flit : Flit) (s : State) : State :=
  s.onCtl e flit 6 fun s =>
    let x := s.lk e
    if x.pmSent then (s.setLk e { x with pmOk := true }).lp2Try e
    else if s.lkIdle e then ((s.setLk e { x with pmOk := true }).sendCtl e 7).lp2Try e
    else s.sendCtl e 8

/-- PM_ACK (R246). -/
def pmAckRun (e : LinkEnd) (flit : Flit) (s : State) : State :=
  s.onCtl e flit 7 fun s =>
    let x := s.lk e
    if x.pmSent then (s.setLk e { x with pmOk := true }).lp2Try e else s

/-- PM_NAK (R246). -/
def pmNakRun (e : LinkEnd) (flit : Flit) (s : State) : State :=
  s.onCtl e flit 8 fun s =>
    let x := s.lk e
    s.setLk e { x with pmSent := false, pmOk := false }

/-- LP1_ENTRY (R245): the stream lanes of the direction that the end sends go idle. -/
def lp1EntryRun (e : LinkEnd) (s : State) : State :=
  let st := kSclStat e
  let w := s.fget st (if e.iod then fSclStat_WDN else fSclStat_WUP)
  let p := s.fget st (if e.iod then fSclStat_PDN else fSclStat_PUP)
  if s.lkUp e && s.fon (kSclPm e) fSclPm_LP1EN && decide (p < w) && !(s.lk e).lp1 then
    ((s.setLk e { s.lk e with lp1 := true }).showLp1 e.link).lkMsg e 7 1 0
  else s

/-! ### The end of the compute-die phase (R36, R37, R458) -/

/-- The effective package capability is fixed, once in a cold boot, from the dies of the links that trained
(R36, R37). -/
def State.fixCaps (s : State) (up : List Nat) : State :=
  if s.boot.effFixed then s
  else
    let pkg := up.foldl (fun a n => a &&& fSclPeercap_PKG_FEAT.get (s.rd (kSclPeercap n)))
      (fSclPeercap_PKG_FEAT.get s.fuses.iodWord &&& fSclPeercap_PKG_FEAT.get (s.rd kMgtCapmask))
    let lf := up.foldl (fun a n => a &&& fSclPeercap_LINK_FEAT.get (s.rd (kSclLinkcap n))) (fSclPeercap_LINK_FEAT.get s.fuses.iodWord)
    let s := s.wr kMgtEffcap (fSclPeercap_FORMAT.put (fSclPeercap_PKG_FEAT.put (fSclPeercap_LINK_FEAT.put 0 lf) pkg) 1)
    { s with boot := { s.boot with effFixed := true } }

/-- The links that trained within the compute-die phase: before the effective set is fixed those whose compute die has
given its word in this cold boot (R33, R36), in a later boot those that are up. -/
def State.trainedNow (s : State) : List Nat :=
  (List.range 12).filter fun n =>
    if s.boot.effFixed then s.linkActive n || decide (s.lkState ⟨true, n⟩ = 3) else decide (s.rd (kSclPeercap n) ≠ 0)

/-- This package sends its MGT_EFFCAP over a Sceuc-X link (R41). -/
def State.sendEffcap (s : State) (g : Nat) : State := s.emit (.socketMsg g 1 (s.rd kMgtEffcap) 0)

/-- The Sceuc-X links that have trained and not joined. -/
def State.xTrained (s : State) : List Nat :=
  (List.range 8).filter fun g => decide (s.fget (kFioGcfg g) fFioGcfg_ROLE = 5 ∧ s.fget (kFioXstat g) fFioXstat_STATE = 1)

/-- COMPUTE_DIE_PHASE_END (R36, R41): the effective set is fixed from the links that trained, and sent over the Sceuc-X
links that wait for it; a die that has not trained is retired for the boot. -/
def computeDiePhaseEndRun (s : State) : State :=
  if !s.boot.windowOpen || !s.boot.cdPhase then s
  else
    let up := s.trainedNow
    let late := (List.range 12).filter fun n => !up.contains n &&
      decide ((s.unit n 0xFF).st ≠ .retired ∧ ((s.unit n 0xFF).st ≠ .lost ∨ (!s.boot.effFixed && !(s.unit n 0xFF).sticky)))
    let s := { s with boot := { s.boot with cdPhase := false } }
    let t := s.fixCaps up
    late.foldl State.cdLate (if s.boot.effFixed then t else t.each t.xTrained State.sendEffcap)

-- EXEC: PROT NULL NAK FLIT_CRC_FAILURE RESERVED_TYPE_FLIT REPLAY_TIMEOUT AUDIT_SEND AUDIT WIDTH_REQ WIDTH_ACK WIDTH_WDRAW MAPSWITCH REPLAY_BUFFER_DRAINED FULL_TRAINING TRAINING_PATTERN_DETECT TRAINING_TIMEOUT TRAINING_COMPLETE LOCK_LOSS LOCK_REGAINED LOCK_TIMEOUT BURST BURST_TIMEOUT SBA SBR LP2_IDLE PM_REQ PM_ACK PM_NAK LP1_ENTRY COMPUTE_DIE_PHASE_END
/-- PROT (R219): the effect of a well-formed command. -/
def execProt (e : LinkEnd) (flit : Flit) (s : State) : Res := runs e.wf (protRun e flit) s

/-- NULL (R216): the effect of a well-formed command. -/
def execNullFlit (e : LinkEnd) (flit : Flit) (s : State) : Res := runs e.wf (nullFlitRun e flit) s

/-- NAK (R223): the effect of a well-formed command. -/
def execNak (e : LinkEnd) (flit : Flit) (s : State) : Res := runs e.wf (nakRun e flit) s

/-- FLIT_CRC_FAILURE (R216): the effect of a well-formed command. -/
def execFlitCrcFailure (e : LinkEnd) (flit : Flit) (s : State) : Res :=
  runs e.wf (flitCrcFailureRun e flit) s

/-- RESERVED_TYPE_FLIT (R216): the effect of a well-formed command. -/
def execReservedTypeFlit (e : LinkEnd) (flit : Flit) (s : State) : Res :=
  runs e.wf (reservedTypeFlitRun e flit) s

/-- REPLAY_TIMEOUT (R222): the effect of a well-formed command. -/
def execReplayTimeout (e : LinkEnd) (s : State) : Res := runs e.wf (replayTimeoutRun e) s

/-- AUDIT_SEND (R227): the effect of a well-formed command. -/
def execAuditSend (e : LinkEnd) (s : State) : Res := runs e.wf (auditSendRun e) s

/-- AUDIT (R228): the effect of a well-formed command. -/
def execAudit (e : LinkEnd) (flit : Flit) (shared : BitVec 32) (reserved : List (BitVec 32)) (s : State) : Res :=
  runs e.wf (auditRun e flit shared reserved) s

/-- WIDTH_REQ (R236): the effect of a well-formed command. -/
def execWidthReq (e : LinkEnd) (flit : Flit) (masks : Masks) (s : State) : Res :=
  runs e.wf (widthReqRun e flit masks) s

/-- WIDTH_ACK (R236): the effect of a well-formed command. -/
def execWidthAck (e : LinkEnd) (flit : Flit) (masks : Masks) (s : State) : Res :=
  runs e.wf (widthAckRun e flit masks) s

/-- WIDTH_WDRAW (R237): the effect of a well-formed command. -/
def execWidthWdraw (e : LinkEnd) (flit : Flit) (seq : BitVec 12) (s : State) : Res :=
  runs e.wf (widthWdrawRun e flit seq) s

/-- MAPSWITCH (R236): the effect of a well-formed command. -/
def execMapswitch (e : LinkEnd) (flit : Flit) (s : State) : Res := runs e.wf (mapswitchRun e flit) s

/-- REPLAY_BUFFER_DRAINED (R236): the effect of a well-formed command. -/
def execReplayBufferDrained (e : LinkEnd) (s : State) : Res :=
  runs e.wf (replayBufferDrainedRun e) s

/-- FULL_TRAINING (R230): the effect of a well-formed command. -/
def execFullTraining (e : LinkEnd) (s : State) : Res := runs e.wf (fullTrainingRun e) s

/-- TRAINING_PATTERN_DETECT (R233): the effect of a well-formed command. -/
def execTrainingPatternDetect (e : LinkEnd) (s : State) : Res :=
  runs e.wf (trainingPatternDetectRun e) s

/-- TRAINING_TIMEOUT (R231): the effect of a well-formed command. -/
def execTrainingTimeout (e : LinkEnd) (s : State) : Res := runs e.wf (trainingTimeoutRun e) s

/-- TRAINING_COMPLETE (R230): the effect of a well-formed command. -/
def execTrainingComplete (link : Nat) (t : Training) (s : State) : Res :=
  runs (wfLink link) (trainingCompleteRun link t) s

/-- LOCK_LOSS (R238): the effect of a well-formed command. -/
def execLockLoss (e : LinkEnd) (s : State) : Res := runs e.wf (lockLossRun e) s

/-- LOCK_REGAINED (R231): the effect of a well-formed command. -/
def execLockRegained (e : LinkEnd) (s : State) : Res := runs e.wf (lockRegainedRun e) s

/-- LOCK_TIMEOUT (R238): the effect of a well-formed command. -/
def execLockTimeout (e : LinkEnd) (s : State) : Res := runs e.wf (lockTimeoutRun e) s

/-- BURST (R243): the effect of a well-formed command. -/
def execBurst (e : LinkEnd) (b : BurstMsg) (s : State) : Res := runs e.wf (burstRun e b) s

/-- BURST_TIMEOUT (R243): the effect of a well-formed command. -/
def execBurstTimeout (e : LinkEnd) (tag : BitVec 6) (s : State) : Res :=
  runs e.wf (burstTimeoutRun e tag) s

/-- SBA (R242): the effect of a well-formed command. -/
def execSba (e : LinkEnd) (tag : BitVec 6) (s : State) : Res := runs e.wf (sbaRun e tag) s

/-- SBR (R243): the effect of a well-formed command. -/
def execSbr (e : LinkEnd) (tag : BitVec 6) (s : State) : Res := runs e.wf (sbrRun e tag) s

/-- LP2_IDLE (R246): the effect of a well-formed command. -/
def execLp2Idle (e : LinkEnd) (s : State) : Res := runs e.wf (lp2IdleRun e) s

/-- PM_REQ (R246): the effect of a well-formed command. -/
def execPmReq (e : LinkEnd) (flit : Flit) (s : State) : Res := runs e.wf (pmReqRun e flit) s

/-- PM_ACK (R246): the effect of a well-formed command. -/
def execPmAck (e : LinkEnd) (flit : Flit) (s : State) : Res := runs e.wf (pmAckRun e flit) s

/-- PM_NAK (R246): the effect of a well-formed command. -/
def execPmNak (e : LinkEnd) (flit : Flit) (s : State) : Res := runs e.wf (pmNakRun e flit) s

/-- LP1_ENTRY (R245): the effect of a well-formed command. -/
def execLp1Entry (e : LinkEnd) (s : State) : Res := runs e.wf (lp1EntryRun e) s

/-- COMPUTE_DIE_PHASE_END (R36): the effect of a well-formed command. -/
def execComputeDiePhaseEnd (s : State) : Res := runs true computeDiePhaseEndRun s
-- END EXEC

end Sys2Proof.Machine
end

