-- ==== Sys2Proof/Machine/Lend.lean ====
section
/-! DEFINITION.
The Lend endpoint (spec/12): CXL.mem requests of the remote host, the mailbox and its DMA, resets,
configuration writes, and the commands of class 0x18.  Payload layouts of the mailbox are those of
Compute Express Link 3.1 (PRESUMED, log 28). -/

namespace Sys2Proof.Machine

/-! ### Ranges and decoders (R367, R370) -/

/-- Base, size and key ID of a lent range. -/
def State.lentRange (s : State) (fn r : Nat) : Nat × Nat × Nat :=
  let a := s.rd (kLndRangea fn r)
  (fLndRangea_BASE.get a <<< 21, fLndRangeb_SIZE.get (s.rd (kLndRangeb fn r)) <<< 21, fLndRangea_KEYID.get a)

/-- The bytes a function lends. -/
def State.lentSize (s : State) (fn : Nat) : Nat :=
  (List.range 16).foldl (fun n r => n + (s.lentRange fn r).2.1) 0

/-- The HPA and the key ID of a DPA (R370). -/
def State.lentAt (s : State) (fn dpa : Nat) : Option (Nat × Nat) :=
  ((List.range 16).foldl (fun (a : Nat × Option (Nat × Nat)) r =>
    let (b, n, k) := s.lentRange fn r
    (a.1 + n, if a.1 ≤ dpa ∧ dpa < a.1 + n then some (b + (dpa - a.1), k) else a.2)) (0, none)).2

/-- The DPA of a host address by the committed HDM decoders (R370; CXL 3.1). -/
def LendFn.dpaOf (x : LendFn) (addr : Nat) : Option Nat :=
  (x.decs.foldl (fun (a : Nat × Option Nat) p =>
    let d := p.2
    let base := a.1 + d.skip
    let o := addr - d.base
    let hit := decide (d.base ≤ addr ∧ addr < d.base + d.size)
    (base + d.size / d.ways,
     if hit then some (base + o / (d.gran * d.ways) * d.gran + o % d.gran) else a.2)) (0, none)).2

/-! ### Serving CXL.mem (R371–R377) -/

/-- Perform a request at its home: its data and poison, or none while it waits. -/
def State.lendDo (s : State) (fn : Nat) (q : LendReq) : Option (Line × Bool) × State :=
  let r : HomeReq := { uncReq (Who.lend fn) q.line q.key false with
    rt := true, data := q.data, poison := q.poison,
    mask := if q.kind = 1 then BitVec.allOnes 64 else q.mask }
  if q.kind = 0 then match s.homeSync .rdc r with
    | (.reply d p _ _, s) => (some (d, p), s)
    | (_, s) => (none, s)
  else match s.homeSync (if q.kind = 1 then .wrf else .wrp) r with
    | (.done, s) => (some (0, false), s)
    | (_, s) => (none, s)

/-- Note whether the line of an answered request is known poisoned (log 28). -/
def LendFn.note (x : LendFn) (dpa : Nat) (poison : Bool) : LendFn :=
  let l := x.poison.filter (fun d => d ≠ dpa)
  { x with poison := if poison then (l ++ [dpa]).mergeSort (fun a b => decide (a ≤ b)) else l }

/-- Answer a performed request (R372), counting the tier it came from. -/
def State.lendAnswer (s : State) (fn : Nat) (q : LendReq) (t2 : Bool) (d : Line) (p : Bool) : State :=
  let x := s.lf fn
  let x := { x with reqs := x.reqs.filter (fun y => y.tag ≠ q.tag) }
  let x := if q.kind = 2 then x else x.note q.dpa (if q.kind = 0 then p else q.poison)
  let s := s.lendBudget fn q t2
  (((s.setLf fn x).emit (.lend fn q.tag d (decide (q.kind = 0) && p) false)).evtLnd fn (if t2 then 3 else 2)).lendOcc fn

/-- Perform the requests of the input buffer, those for one line in order (R372). -/
def State.lendServe (s : State) (fn : Nat) : State :=
  ((s.lf fn).reqs.foldl (fun (a : List Nat × State) q =>
    if a.1.contains q.line then a
    else
      let t2 := decide ((a.2.ent (q.line / 64)).tier = 2)
      match a.2.lendDo fn q with
      | (some (d, p), s) => (a.1, s.lendAnswer fn q t2 d p)
      | (none, s) => (a.1 ++ [q.line], s)) (([], s) : List Nat × State)).2

/-- Serve both functions. -/
def State.lendTick (s : State) : State := (s.lendServe 0).lendServe 1

/-- An M2S request arrives (R370, R374, R378). -/
def State.lendIn (s : State) (fn addr tag kind : Nat) (data : Line) (mask : BitVec 64) (poison : Bool) : State :=
  let x := s.lf fn
  if x.link ≠ 2 ∨ x.cxr ∨ x.reqs.length ≥ 512 ∨ x.reqs.any (fun q => q.tag = tag) then s
  else
    let s := s.evtLnd fn (if kind = 0 then 0 else 1)
    if s.lendFrozen fn then s.lendFrozenAns fn tag (decide (kind = 0))
    else
      let place := if x.memEn then (x.dpaOf (addr / 64 * 64)).bind (fun d => (s.lentAt fn d).map (fun p => (d, p.1, p.2)))
        else none
      match place with
      | none =>
        let s := (s.fadd (kLndStat fn) fLndStat_DECERR 1).evtLnd fn 5
        let s := s.lendFrozenAns fn tag (decide (kind = 0))
        if s.fon (kLndCtl fn) fLndCtl_DECFRZ then s.lendFreeze fn 3 else s
      | some (d, h, k) =>
        let q : LendReq := ⟨tag, h / 64, k, d / 64 * 64, kind, data, mask, poison, s.time⟩
        ((s.setLf fn { x with reqs := x.reqs ++ [q] }).lendOcc fn).lendServe fn

/-- MEMRD (R371). -/
def memrdRun (fn addr tag : Nat) (s : State) : State := s.lendIn fn addr tag 0 0 0 false
/-- MEMWR (R371). -/
def memwrRun (fn addr tag : Nat) (data : Line) (poison : Bool) (s : State) : State :=
  s.lendIn fn addr tag 1 data (BitVec.allOnes 64) poison
/-- MEMWRPTL (R371). -/
def memwrptlRun (fn addr tag : Nat) (data : Line) (mask : BitVec 64) (s : State) : State :=
  s.lendIn fn addr tag 2 data mask false

/-- LEND_ANSWER_TIMEOUT (R377): the request has missed its budget too (R376).  A write that has
reached its home is still performed, another is not; what comes for the request later is discarded (R19). -/
def lendAnswerTimeoutRun (fn tag : Nat) (s : State) : State :=
  let x := s.lf fn
  match x.reqs.find? (fun q => q.tag = tag) with
  | none => s
  | some q =>
    let t2 := decide ((s.ent (q.line / 64)).tier = 2)
    let s := (s.lendMiss fn t2).lendForget fn q
    let s := ((s.setLf fn { x with reqs := x.reqs.filter (fun y => y.tag ≠ tag) }).lendPoisoned fn q).lendOcc fn
    if q.kind ≠ 0 || s.fon (kLndCtl fn) fLndCtl_TMOFRZ then s.lendFreeze fn 2 else s

/-! ### Expansion ROM (R366) -/

/-- EXPANSION_ROM_READ: the 64 bytes that hold the offset; an Unsupported Request with the enable bit
clear. -/
def expansionRomReadRun (fn off : Nat) (s : State) : State :=
  let x := s.lf fn
  if x.link ≠ 2 then s
  else if x.flr then s.emit (.lendMsg fn 3)
  else if !x.romEn then s.emit (.lend fn 0 0 false true)
  else s.emit (.lend fn 0 (lineOf (sliceB x.rom (off / 64 * 64) 64)) false false)

/-! ### The mailbox (R380) -/

/-- Whether the mailbox takes a command: the link is up, no reset runs and no command holds the
doorbell. -/
def State.mboxFree (s : State) (fn : Nat) : Bool :=
  let x := s.lf fn
  decide (x.link = 2) && !x.flr && !x.cxr && x.cmd.isNone

/-- Answer a mailbox command. -/
def State.mbox (s : State) (fn op code : Nat) (payload : List Byte) : State := s.emit (.lendMbox fn op code payload)

/-- A mailbox command that answers at once. -/
def State.mboxSay (s : State) (fn op : Nat) (payload : State → List Byte) : State :=
  if s.mboxFree fn then s.mbox fn op 0 (payload s) else s

/-- Bytes that no rule gives (log 28). -/
def lendOpen (op lo n : Nat) : List Byte := (List.range n).map (fun i => Config.lendField op (lo + i))

/-- IDENTIFY: vendor 0x1C6B (R589), device 0x2160, subsystem (not given), serial, message size 4 KiB, Type 3. -/
def identifyRun (fn : Nat) (s : State) : State :=
  s.mboxSay fn 0x0001 fun s => leBytes 2 0x1C6B ++ leBytes 2 0x2160 ++ lendOpen 1 4 4 ++
    leBytes 8 s.fuses.serial.toNat ++ [12, 3]

/-- BACKGROUND_OPERATION_STATUS. -/
def backgroundOperationStatusRun (fn : Nat) (s : State) : State :=
  s.mboxSay fn 0x0002 fun s =>
    let x := s.lf fn
    [if x.bgRuns then 1 else if x.bgOp = 0 then 0 else 200, 0] ++ leBytes 2 x.bgOp ++ leBytes 4 0

/-- The 128 bytes of an event record: the identifier that no rule gives, length, handle, time, cause. -/
def eventRecord (e : Nat × Nat × Nat) : List Byte :=
  lendOpen 0x100 0 16 ++ [128, 0, 0, 0] ++ leBytes 2 e.1 ++ leBytes 2 0 ++ leBytes 8 e.2.2 ++
  List.replicate 16 0 ++ sliceB [BitVec.ofNat 8 e.2.1] 0 80

/-- GET_EVENT_RECORDS: as many of the oldest records as the 4 KiB payload holds. -/
def getEventRecordsRun (fn : Nat) (s : State) : State :=
  s.mboxSay fn 0x0100 fun s =>
    let l := (s.lf fn).events
    let t := l.take 31
    [if l.length > 31 then 2 else 0, 0] ++ List.replicate 18 0 ++ leBytes 2 t.length ++ List.replicate 10 0 ++
      t.flatMap eventRecord

/-- CLEAR_EVENT_RECORDS: the handles named must be the oldest held ones in order. -/
def clearEventRecordsRun (fn : Nat) (handles : List Nat) (s : State) : State :=
  if !s.mboxFree fn then s
  else
    let x := s.lf fn
    if (x.events.take handles.length).map (fun e => e.1) = handles then
      (s.setLf fn { x with events := x.events.drop handles.length }).mbox fn 0x0101 0 []
    else s.mbox fn 0x0101 0x0E []

/-- GET_EVENT_INTERRUPT_POLICY. -/
def getEventInterruptPolicyRun (fn : Nat) (s : State) : State :=
  s.mboxSay fn 0x0102 fun s => leBytes 4 (s.lf fn).policy.toNat

/-- SET_EVENT_INTERRUPT_POLICY. -/
def setEventInterruptPolicyRun (fn : Nat) (policy : BitVec 32) (s : State) : State :=
  if s.mboxFree fn then (s.setLf fn { s.lf fn with policy := policy }).mbox fn 0x0103 0 [] else s

/-- The Command Effects Log (CXL 3.1): opcode and effects of every command the mailbox accepts. -/
def effectsLog : List Byte :=
  [(0x0001, 0), (0x0002, 0), (0x0100, 0), (0x0101, 16), (0x0102, 0), (0x0103, 8), (0x0400, 0), (0x0401, 0),
   (0x4000, 0), (0x4100, 0), (0x4200, 0), (0x4300, 0), (0x4400, 68), (0xC001, 0), (0xC002, 0), (0xC003, 4)].flatMap
    fun p => leBytes 2 p.1 ++ leBytes 2 p.2

/-- The identifier of the Command Effects Log (CXL 3.1). -/
def celUuid : List Byte :=
  [0x0D, 0xA9, 0xC0, 0xB5, 0xBF, 0x41, 0x4B, 0x78, 0x8F, 0x79, 0x96, 0xB1, 0x62, 0x3B, 0x3F, 0x17]

/-- GET_SUPPORTED_LOGS. -/
def getSupportedLogsRun (fn : Nat) (s : State) : State :=
  s.mboxSay fn 0x0400 fun _ => leBytes 2 1 ++ List.replicate 6 0 ++ celUuid ++ leBytes 4 effectsLog.length

/-- GET_LOG. -/
def getLogRun (fn : Nat) (s : State) : State := s.mboxSay fn 0x0401 fun _ => effectsLog

/-- IDENTIFY_MEMORY_DEVICE: the lent capacity in units of 256 MiB, all of it volatile (R367). -/
def identifyMemoryDeviceRun (fn : Nat) (s : State) : State :=
  s.mboxSay fn 0x4000 fun s =>
    let n := s.lentSize fn / 268435456
    lendOpen 0x4000 0 16 ++ leBytes 8 n ++ leBytes 8 n ++ leBytes 8 0 ++ leBytes 8 0 ++ lendOpen 0x4000 48 21

/-- GET_PARTITION_INFO: volatile capacity only. -/
def getPartitionInfoRun (fn : Nat) (s : State) : State :=
  s.mboxSay fn 0x4100 fun s => leBytes 8 (s.lentSize fn / 268435456) ++ List.replicate 24 0

/-- GET_HEALTH_INFO. -/
def getHealthInfoRun (fn : Nat) (s : State) : State := s.mboxSay fn 0x4200 fun _ => lendOpen 0x4200 0 18

/-- The poison list of a DPA range: one record for each poisoned line. -/
def LendFn.poisonBytes (x : LendFn) (dpa len most : Nat) : List Byte :=
  let l := x.poison.filter (fun d => decide (dpa ≤ d ∧ d < dpa + len))
  let t := l.take most
  [if l.length > most then 1 else 0, 0] ++ leBytes 8 0 ++ leBytes 2 t.length ++ List.replicate 20 0 ++
    t.flatMap fun d => leBytes 8 d ++ leBytes 4 1 ++ leBytes 4 0

/-- GET_POISON_LIST: `len` bytes from `dpa`. -/
def getPoisonListRun (fn dpa len : Nat) (s : State) : State :=
  s.mboxSay fn 0x4300 fun s => (s.lf fn).poisonBytes dpa len 254

/-- Queue the discard of `count` frames from the one that holds an HPA (R281). -/
def State.lendDiscard (s : State) (fn hpa count : Nat) : State :=
  let x := s.lf fn
  let c : TierCmd := ⟨lendId fn x.disc, .discard, hpa / 4096, count, 0, 0, 0, 0, 0, 0⟩
  { s.setLf fn { x with disc := (x.disc + 1) % 1048576 } with enl := { s.enl with cmds := s.enl.cmds ++ [c] } }

/-- Queue the discard of every lent range of a function. -/
def State.lendDiscardAll (s : State) (fn : Nat) : State :=
  s.each (List.range 16) fun s r =>
    let (b, n, _) := s.lentRange fn r
    if n = 0 then s else s.lendDiscard fn b (n / 4096)

/-- SANITIZE: every lent range is discarded in the background. -/
def sanitizeRun (fn : Nat) (s : State) : State :=
  if !s.mboxFree fn then s
  else
    let x := s.lf fn
    if x.bgRuns then s.mbox fn 0x4400 6 []
    else
      let s := (s.setLf fn { x with bgOp := 0x4400, bgRuns := true }).mbox fn 0x4400 1 []
      (s.lendDiscardAll fn).lendTierDone fn

/-! ### Mailbox DMA (R381, R382) -/

/-- End the DMA command that holds the mailbox, with the mailbox's MSI-X interrupt where bus mastering permits; no rule
gives its vector (log 28). -/
def State.mboxEnd (s : State) (fn code : Nat) : State :=
  let x := s.lf fn
  match x.cmd with
  | some c =>
    let s := (s.setLf fn { x with cmd := none }).mbox fn c.op code []
    if x.bme && !x.d3 then s.emit (.lendMsix fn ((Config.lendField 0 0).toNat % 16)) else s
  | none => s

/-- The pieces of a read list: offset and length. -/
def readPieces (fuel off len most : Nat) : List (Nat × Nat) :=
  match fuel with
  | 0 => []
  | f + 1 => if len = 0 then [] else (off, min len most) :: readPieces f (off + min len most) (len - most) most

/-- Start the DMA command: writes leave at once, reads are issued piece by piece (R381). -/
def State.mboxStart (s : State) (fn : Nat) : State :=
  let x := s.lf fn
  match x.cmd with
  | none => s
  | some c =>
    if c.phase ≠ 0 ∨ !x.bme ∨ x.d3 then s
    else if c.op = 0xC003 then
      let ps := readPieces (c.len / max 128 x.mrrs + 1) 0 c.len (max 128 x.mrrs)
      let rs := ps.zipIdx.map fun p => (⟨x.rtag + p.2, p.1.1, p.1.2, false⟩ : LendRead)
      let s := s.setLf fn { x with reads := x.reads ++ rs, rtag := x.rtag + rs.length, cmd := some { c with phase := 1 } }
      let s := rs.foldl (fun s r => s.emit (.lendDma fn r.tag (c.addr + r.off) r.len)) s
      if rs.isEmpty then s.mboxEnd fn 0 else s
    else
      let bytes := if c.op = 0xC001 then x.poisonBytes 0 (2 ^ 52) (2 ^ 20)
        else x.events.flatMap eventRecord
      (s.emit (.lendWrite fn c.addr (bytes.take c.len))).mboxEnd fn 0

/-- A DMA command is rung in (R381): one with a bad length ends with Invalid Input. -/
def State.mboxDma (s : State) (fn op addr len : Nat) : State :=
  if !s.mboxFree fn then s
  else if len % 64 ≠ 0 ∨ len > 16777216 then s.mbox fn op 2 []
  else (s.setLf fn { s.lf fn with cmd := some ⟨op, addr, len, [], 0⟩ }).mboxStart fn

/-- GET_POISON_LIST_DMA (R381). -/
def getPoisonListDmaRun (fn addr len : Nat) (s : State) : State := s.mboxDma fn 0xC001 addr len
/-- GET_EVENT_RECORDS_DMA (R381). -/
def getEventRecordsDmaRun (fn addr len : Nat) (s : State) : State := s.mboxDma fn 0xC002 addr len
/-- DISCARD_RANGES_DMA (R381). -/
def discardRangesDmaRun (fn addr len : Nat) (s : State) : State := s.mboxDma fn 0xC003 addr len

/-- The entries of a read list: DPA and length. -/
def discardList (c : LendCmd) : List (Nat × Nat) :=
  (chunks (c.len / 16 + 1) 16 (c.got.flatMap (·.2))).map fun b => (leNat (b.take 8), leNat (b.drop 8))

/-- The whole list has arrived: every entry is checked, then each range is discarded frame by frame. -/
def State.mboxDiscard (s : State) (fn : Nat) (c : LendCmd) : State :=
  let l := (discardList c).filter (fun e => decide (e.2 ≠ 0))
  if l.any (fun e => decide (e.1 % 4096 ≠ 0 ∨ e.2 % 4096 ≠ 0)) then s.mboxEnd fn 2
  else if l.any (fun e => decide (e.1 + e.2 > s.lentSize fn)) then s.mboxEnd fn 0x0F
  else
    let s := s.setLf fn { s.lf fn with cmd := some { c with phase := 3 } }
    -- an entry may cross lent ranges: one discard for the part in each
    let s := l.foldl (fun s e => ((List.range 16).foldl (fun (a : Nat × State) r =>
      let (b, n, _) := a.2.lentRange fn r
      let lo := max a.1 e.1
      let hi := min (a.1 + n) (e.1 + e.2)
      (a.1 + n, if lo < hi then a.2.lendDiscard fn (b + (lo - a.1)) ((hi - lo) / 4096) else a.2)) (0, s)).2) s
    s.lendTierDone fn

/-- What follows once no DMA read is outstanding: a cut-short command ends when Bus Master Enable is
set (R382), a reset reports done (R383, R384). -/
def State.readsDone (s : State) (fn : Nat) : State :=
  let x := s.lf fn
  let s := match x.cmd with
    | some c => if c.phase = 2 ∧ x.bme ∧ x.reads.isEmpty then s.mboxEnd fn zAbortedMaster else s
    | none => s
  s.lendResetDone fn

/-- MAILBOX_DMA_COMPLETION (R382). -/
def mailboxDmaCompletionRun (fn tag : Nat) (bytes : List Byte) (s : State) : State :=
  let x := s.lf fn
  match x.reads.find? (fun r => r.tag = tag) with
  | none => s
  | some r =>
    let x := { x with reads := x.reads.filter (fun y => y.tag ≠ tag) }
    if r.stale then (s.setLf fn x).readsDone fn
    else match x.cmd with
      | none => s.setLf fn x
      | some c =>
        let c := { c with got := SMap.set c.got r.off (sliceB bytes 0 r.len) }
        let s := s.setLf fn { x with cmd := some c }
        if x.reads.any (fun y => !y.stale) then s else s.mboxDiscard fn c

/-- Make every outstanding read one whose completion is discarded. -/
def LendFn.staleAll (x : LendFn) : LendFn := { x with reads := x.reads.map (fun r => { r with stale := true }) }

/-- MAILBOX_DMA_TIMEOUT (R381): the command returns Internal Error and acts on nothing. -/
def mailboxDmaTimeoutRun (fn tag : Nat) (s : State) : State :=
  let x := s.lf fn
  match x.reads.find? (fun r => r.tag = tag) with
  | none => s
  | some r =>
    let x := { x with reads := x.reads.filter (fun y => y.tag ≠ tag) }
    if r.stale then (s.setLf fn x).readsDone fn
    else ((s.setLf fn x.staleAll).mboxEnd fn 4).readsDone fn

/-- BUS_MASTER_ENABLE_CLEAR (R382). -/
def busMasterEnableClearRun (fn : Nat) (s : State) : State :=
  let x := s.lf fn
  if x.link ≠ 2 ∨ x.flr then s
  else
    let cmd := x.cmd.map fun c => if c.phase = 1 then { c with phase := 2 } else c
    s.setLf fn { x.staleAll with bme := false, cmd := cmd }

/-- BUS_MASTER_ENABLE_SET (R382). -/
def busMasterEnableSetRun (fn : Nat) (s : State) : State :=
  let x := s.lf fn
  if x.link ≠ 2 ∨ x.flr then s else ((s.setLf fn { x with bme := true }).readsDone fn).mboxStart fn

/-! ### Resets (R383, R384, R592) -/

/-- The mailbox's commands and the state of CXL.io go (R383). -/
def LendFn.ioReset (x : LendFn) : LendFn :=
  { x.staleAll with cmd := none, romEn := false, bme := false, d3 := false, cto := 0, mrrs := 512, bgRuns := false }

/-- What the commands of a function have not yet discarded stays (R383); a discard that a CXL Reset began goes on. -/
def State.lendAbandon (s : State) (fn : Nat) : State :=
  let mine (c : TierCmd) : Bool := decide (c.id ≥ 2 ^ 32) && decide (lendOf c.id = fn)
  let kept : List TierCmd := (s.enl.cmds.filter (fun c => !(mine c && decide (c.active = 0)))).map
    (fun c => if mine c then { c with left := 0, aborted := c.aborted + c.left } else c)
  if (s.lf fn).cxr then s else { s with enl := { s.enl with cmds := kept } }

/-- FUNCTION_LEVEL_RESET (R383). -/
def functionLevelResetRun (fn : Nat) (s : State) : State :=
  let x := s.lf fn
  if x.link ≠ 2 then s
  else ((s.setLf fn { x.ioReset with rom := [], flr := true }).lendAbandon fn).lendResetDone fn

/-- CXL_RESET (R384). -/
def cxlResetRun (fn : Nat) (memoryClear : Bool) (s : State) : State :=
  if (s.lf fn).link ≠ 2 then s
  else
    let s := s.lendFlush fn
    let x := s.lf fn
    let s := s.setLf fn { x.ioReset with memEn := false, decs := [], cxr := true }
    (if memoryClear then s.lendDiscardAll fn else s).lendTierDone fn

/-- LEND_PERST (R592): a fundamental reset of the function. -/
def lendPerstRun (fn : Nat) (s : State) : State :=
  if (s.lendGroup fn).isNone then s
  else
    let s := s.lendFreeze fn 5
    let x := s.lf fn
    s.setLf fn { x.ioReset with decs := [], memEn := false, link := 0, flr := false, cxr := false }

/-! ### Configuration writes (R364–R370) -/

/-- A decoder commit that CXL 3.1 accepts: decoders in order, ways and granularity as R370 names. -/
def LendFn.decOk (x : LendFn) (i : Nat) (d : LendDec) : Bool :=
  decide (i < 2) && [1, 2, 4, 8].contains d.ways && [256, 512, 1024, 2048, 4096, 8192, 16384].contains d.gran &&
  decide (d.base % 268435456 = 0 ∧ d.size % 268435456 = 0 ∧ d.size > 0) &&
  (decide (i = 0) || (SMap.find x.decs 0).isSome) &&
  x.decs.all (fun p => decide (p.1 = i ∨ d.base + d.size ≤ p.2.base ∨ p.2.base + p.2.size ≤ d.base))

/-- LEND_CONFIG_ACCESS (R369): while a function-level reset runs, requests are answered with a retry
(R383). -/
def lendConfigAccessRun (fn : Nat) (w : LendCfg) (s : State) : State :=
  let x := s.lf fn
  if x.link ≠ 2 then s
  else if x.flr then s.emit (.lendMsg fn 3)
  else match w with
    | .memEnable on => s.setLf fn { x with memEn := on }
    | .romEnable on => s.setLf fn { x with romEn := on }
    | .decoder i base size ways gran skip commit =>
      let d : LendDec := ⟨base, size, ways, gran, skip⟩
      if !commit then s.setLf fn { x with decs := x.decs.filter (fun p => decide (p.1 < i)) }
      else if x.decOk i d then s.setLf fn { x with decs := SMap.set x.decs i d } else s
    | .completionTimeout v => s.setLf fn { x with cto := v }
    | .maxReadRequest v => s.setLf fn { x with mrrs := v }
    | .d3hot on => (s.setLf fn { x with d3 := on }).mboxStart fn

/-! ### Class 0x18 (R385) -/

/-- The function of a command, if the package has it. -/
def State.lendFunc (s : State) (z : ZCmd) : Option Nat :=
  let fn := z.f 16 1
  if fn < 2 ∧ (s.lendGroup fn).isSome then some fn else none

/-- A handler of a Lend function: a FUNC that names none ends with BAD_PARAM. -/
def onFunc (k : Nat → ZCmd → State → ZDo × State) : Handler := fun _ z s =>
  match s.lendFunc z with
  | some fn => k fn z s
  | none => (badParam 0, s)

/-- LEND_SET_RANGE (R367–R369). -/
def hLendSetRange : Handler := onFunc fun fn z s =>
  let r := z.f 17 1
  let key := z.f 18 2 % 16384
  let base := z.f 24 8
  let size := z.f 32 8
  let others := ([0, 1].flatMap (fun f => (List.range 16).map (fun i => (f, i)))).filter (fun p => p ≠ (fn, r))
  let hit := others.any fun p =>
    let (b, n, _) := s.lentRange p.1 p.2
    decide (n ≠ 0 ∧ base < b + n ∧ b < base + size)
  if r > 15 then (badParam 0, s)
  else if size ≠ 0 ∧ (base % 2097152 ≠ 0 ∨ size % 2097152 ≠ 0 ∨ hit) then (badParam 0, s)
  else if size ≠ 0 ∧ !s.inTiered base size then (badParam 0, s)
  else if size ≠ 0 ∧ (s.hasDarkRegion base size ∨ (s.ctx key).dark) then (.fail zNotPermitted 0, s)
  else if (s.lf fn).memEn then (.fail zBusy 0, s)
  else
    let a := if size = 0 then (0 : Word)
      else fLndRangea_KEYID.put (fLndRangea_BASE.put (fLndRangea_V.put 0 1) (base >>> 21)) key
    let b := if size = 0 then (0 : Word) else fLndRangeb_SIZE.put 0 (size >>> 21)
    let s := (s.wr (kLndRangea fn r) a).wr (kLndRangeb fn r) b
    (doneOk, s.config 11 15 (0x1A + fn) [r, a.toNat, b.toNat])

/-- LEND_QUERY. -/
def hLendQuery : Handler := onFunc fun fn _ s =>
  let st := kLndStat fn
  let b := kLndBudget fn
  (.done 0 ([BitVec.ofNat 8 (s.fget st fLndStat_STATE), BitVec.ofNat 8 (s.fget st fLndStat_CAUSE), 0, 0] ++
    leBytes 4 (min (2 ^ 32 - 1) (s.fget b fLndBudget_MISS2 + s.fget b fLndBudget_MISS01)) ++
    leBytes 4 (s.fget st fLndStat_FROZANS)), s)

/-- LEND_FREEZE (R378). -/
def hLendFreeze : Handler := onFunc fun fn _ s => (doneOk, s.lendFreeze fn 1)

/-- LEND_RELEASE (R379). -/
def hLendRelease : Handler := onFunc fun fn _ s =>
  let x := s.lf fn
  if !s.lendFrozen fn then (doneOk, s)
  else match s.fget (kLndStat fn) fLndStat_CAUSE with
    | 6 => (.fail zNotPermitted 0, s)
    | c =>
      if c = 5 ∧ x.link ≠ 2 then (.fail zBusy 0, s)
      else (doneOk, (s.fput (kLndStat fn) fLndStat_STATE x.link).fput (kLndStat fn) fLndStat_CAUSE 0)

/-- LEND_ROM_LOAD (R366). -/
def hLendRomLoad : Handler := onFunc fun fn z s =>
  if (s.lf fn).romEn then (.fail zBusy 0, s)
  else match s.zread z (z.f 24 8) 65536 with
    | (.ok _ true, s) => s.poisonedBuffer
    | (.ok b false, s) =>
      let s := s.setLf fn { s.lf fn with rom := b }
      (doneOk, s.config 10 15 (0x1A + fn) ((chunks 5 8 (sm3 b)).map leNat))
    | (r, s) => (r.fail, s)

-- EXEC: MEMRD MEMWR MEMWRPTL LEND_ANSWER_TIMEOUT EXPANSION_ROM_READ IDENTIFY BACKGROUND_OPERATION_STATUS GET_EVENT_RECORDS CLEAR_EVENT_RECORDS GET_EVENT_INTERRUPT_POLICY SET_EVENT_INTERRUPT_POLICY GET_SUPPORTED_LOGS GET_LOG IDENTIFY_MEMORY_DEVICE GET_PARTITION_INFO GET_HEALTH_INFO GET_POISON_LIST SANITIZE GET_POISON_LIST_DMA GET_EVENT_RECORDS_DMA DISCARD_RANGES_DMA MAILBOX_DMA_COMPLETION MAILBOX_DMA_TIMEOUT BUS_MASTER_ENABLE_CLEAR BUS_MASTER_ENABLE_SET FUNCTION_LEVEL_RESET CXL_RESET LEND_PERST LEND_CONFIG_ACCESS
/-- MEMRD (R371): the effect of a well-formed command. -/
def execMemrd (fn : Nat) (addr : Nat) (tag : Nat) (s : State) : Res :=
  runs (wfFn fn) (memrdRun fn addr tag) s

/-- MEMWR (R371): the effect of a well-formed command. -/
def execMemwr (fn : Nat) (addr : Nat) (tag : Nat) (data : Line) (poison : Bool) (s : State) : Res :=
  runs (wfFn fn) (memwrRun fn addr tag data poison) s

/-- MEMWRPTL (R371): the effect of a well-formed command. -/
def execMemwrptl (fn : Nat) (addr : Nat) (tag : Nat) (data : Line) (mask : BitVec 64) (s : State) : Res :=
  runs (wfFn fn) (memwrptlRun fn addr tag data mask) s

/-- LEND_ANSWER_TIMEOUT (R377): the effect of a well-formed command. -/
def execLendAnswerTimeout (fn : Nat) (tag : Nat) (s : State) : Res :=
  runs (wfFn fn) (lendAnswerTimeoutRun fn tag) s

/-- EXPANSION_ROM_READ (R366): the effect of a well-formed command. -/
def execExpansionRomRead (fn : Nat) (off : Nat) (s : State) : Res :=
  runs (wfFn fn && decide (off < 65536)) (expansionRomReadRun fn off) s

/-- IDENTIFY (R380): the effect of a well-formed command. -/
def execIdentify (fn : Nat) (s : State) : Res := runs (wfFn fn) (identifyRun fn) s

/-- BACKGROUND_OPERATION_STATUS (R380): the effect of a well-formed command. -/
def execBackgroundOperationStatus (fn : Nat) (s : State) : Res :=
  runs (wfFn fn) (backgroundOperationStatusRun fn) s

/-- GET_EVENT_RECORDS (R380): the effect of a well-formed command. -/
def execGetEventRecords (fn : Nat) (s : State) : Res := runs (wfFn fn) (getEventRecordsRun fn) s

/-- CLEAR_EVENT_RECORDS (R380): the effect of a well-formed command. -/
def execClearEventRecords (fn : Nat) (handles : List Nat) (s : State) : Res :=
  runs (wfFn fn) (clearEventRecordsRun fn handles) s

/-- GET_EVENT_INTERRUPT_POLICY (R380): the effect of a well-formed command. -/
def execGetEventInterruptPolicy (fn : Nat) (s : State) : Res :=
  runs (wfFn fn) (getEventInterruptPolicyRun fn) s

/-- SET_EVENT_INTERRUPT_POLICY (R380): the effect of a well-formed command. -/
def execSetEventInterruptPolicy (fn : Nat) (policy : BitVec 32) (s : State) : Res :=
  runs (wfFn fn) (setEventInterruptPolicyRun fn policy) s

/-- GET_SUPPORTED_LOGS (R380): the effect of a well-formed command. -/
def execGetSupportedLogs (fn : Nat) (s : State) : Res := runs (wfFn fn) (getSupportedLogsRun fn) s

/-- GET_LOG (R380): the effect of a well-formed command. -/
def execGetLog (fn : Nat) (s : State) : Res := runs (wfFn fn) (getLogRun fn) s

/-- IDENTIFY_MEMORY_DEVICE (R380): the effect of a well-formed command. -/
def execIdentifyMemoryDevice (fn : Nat) (s : State) : Res :=
  runs (wfFn fn) (identifyMemoryDeviceRun fn) s

/-- GET_PARTITION_INFO (R380): the effect of a well-formed command. -/
def execGetPartitionInfo (fn : Nat) (s : State) : Res := runs (wfFn fn) (getPartitionInfoRun fn) s

/-- GET_HEALTH_INFO (R380): the effect of a well-formed command. -/
def execGetHealthInfo (fn : Nat) (s : State) : Res := runs (wfFn fn) (getHealthInfoRun fn) s

/-- GET_POISON_LIST (R380): the effect of a well-formed command. -/
def execGetPoisonList (fn : Nat) (dpa : Nat) (len : Nat) (s : State) : Res :=
  runs (wfFn fn) (getPoisonListRun fn dpa len) s

/-- SANITIZE (R380): the effect of a well-formed command. -/
def execSanitize (fn : Nat) (s : State) : Res := runs (wfFn fn) (sanitizeRun fn) s

/-- GET_POISON_LIST_DMA (R381): the effect of a well-formed command. -/
def execGetPoisonListDma (fn : Nat) (addr : Nat) (len : Nat) (s : State) : Res :=
  runs (wfFn fn) (getPoisonListDmaRun fn addr len) s

/-- GET_EVENT_RECORDS_DMA (R381): the effect of a well-formed command. -/
def execGetEventRecordsDma (fn : Nat) (addr : Nat) (len : Nat) (s : State) : Res :=
  runs (wfFn fn) (getEventRecordsDmaRun fn addr len) s

/-- DISCARD_RANGES_DMA (R381): the effect of a well-formed command. -/
def execDiscardRangesDma (fn : Nat) (addr : Nat) (len : Nat) (s : State) : Res :=
  runs (wfFn fn) (discardRangesDmaRun fn addr len) s

/-- MAILBOX_DMA_COMPLETION (R382): the effect of a well-formed command. -/
def execMailboxDmaCompletion (fn : Nat) (tag : Nat) (bytes : List Byte) (s : State) : Res :=
  runs (wfFn fn) (mailboxDmaCompletionRun fn tag bytes) s

/-- MAILBOX_DMA_TIMEOUT (R381): the effect of a well-formed command. -/
def execMailboxDmaTimeout (fn : Nat) (tag : Nat) (s : State) : Res :=
  runs (wfFn fn) (mailboxDmaTimeoutRun fn tag) s

/-- BUS_MASTER_ENABLE_CLEAR (R382): the effect of a well-formed command. -/
def execBusMasterEnableClear (fn : Nat) (s : State) : Res :=
  runs (wfFn fn) (busMasterEnableClearRun fn) s

/-- BUS_MASTER_ENABLE_SET (R382): the effect of a well-formed command. -/
def execBusMasterEnableSet (fn : Nat) (s : State) : Res :=
  runs (wfFn fn) (busMasterEnableSetRun fn) s

/-- FUNCTION_LEVEL_RESET (R383): the effect of a well-formed command. -/
def execFunctionLevelReset (fn : Nat) (s : State) : Res :=
  runs (wfFn fn) (functionLevelResetRun fn) s

/-- CXL_RESET (R384): the effect of a well-formed command. -/
def execCxlReset (fn : Nat) (memoryClear : Bool) (s : State) : Res :=
  runs (wfFn fn) (cxlResetRun fn memoryClear) s

/-- LEND_PERST (R592): the effect of a well-formed command. -/
def execLendPerst (fn : Nat) (s : State) : Res := runs (wfFn fn) (lendPerstRun fn) s

/-- LEND_CONFIG_ACCESS (R369): the effect of a well-formed command. -/
def execLendConfigAccess (fn : Nat) (w : LendCfg) (s : State) : Res :=
  runs (wfFn fn) (lendConfigAccessRun fn w) s
-- END EXEC

end Sys2Proof.Machine
end

