-- ==== Sys2Proof/Machine/Fio.lean ====
section
/-! DEFINITION.
Flexible I/O (spec/11): requests that leave through root ports, completion timeouts, containment, IDE
keys, the states of port links, and Sceuc-X socket links. -/

namespace Sys2Proof.Machine

/-! ### Ports (R340, R342, R343) -/

/-- STATE of a port (FIO_PSTAT). -/
def State.portState (s : State) (p : Nat) : Nat := s.fget (kFioPstat (p / 4) (p % 4)) fFioPstat_STATE
/-- Set STATE of a port. -/
def State.setPort (s : State) (p st width gen : Nat) : State :=
  let k := kFioPstat (p / 4) (p % 4)
  ((s.fput k fFioPstat_STATE st).fput k fFioPstat_WIDTH width).fput k fFioPstat_GEN gen

/-- The role of a group (FIO_GCFG). -/
def State.role (s : State) (g : Nat) : Nat := s.fget (kFioGcfg g) fFioGcfg_ROLE
/-- Whether a group is a root port group. -/
def State.isRoot (s : State) (g : Nat) : Bool := decide (s.role g = 1 ∨ s.role g = 2)

/-- The lanes of port `q` under BIF (Table 11-2); 0: no such port. -/
def bifLanes (b q : Nat) : Nat := ([[16], [8, 8], [8, 4, 4], [4, 4, 4, 4], [8]][b]?.getD [])[q]?.getD 0

/-- Whether a port exists in its group. -/
def State.portThere (s : State) (p : Nat) : Bool := decide (bifLanes (s.fget (kFioGcfg (p / 4)) fFioGcfg_BIF) (p % 4) > 0)

/-- The port of a group that carries device windows: its first port that is up, else its first (log 30). -/
def State.groupPort (s : State) (g : Nat) : Nat :=
  ((List.range 4).map (4 * g + ·)).find? (fun p => decide (s.portState p = 2)) |>.getD (4 * g)

/-- The group whose bus range holds a bus (R342). -/
def State.busGroup (s : State) (bus : Nat) : Option Nat :=
  (List.range 8).find? fun g => s.isRoot g &&
    decide (s.fget (kFioGcfg g) fFioGcfg_BUSBASE ≤ bus ∧ bus ≤ s.fget (kFioGcfg g) fFioGcfg_BUSLIM)

/-- Enable Relaxed Ordering, IDO Request Enable and IDO Completion Enable of a root port, from bit 0 (R102): set at
reset. -/
def State.portCtl (s : State) (p : Nat) : BitVec 3 := SMap.get (fun _ => 7#3) s.fio.ctl p

/-- Send a request out of a port: its tag.  Relaxed Ordering needs its enable (R102). -/
def State.portSend (s : State) (p addr : Nat) (write : Bool) (data : Line) (ro : Bool) : Nat × State :=
  let tag := s.fio.tag
  let ro := ro && (s.portCtl p).getLsbD 0
  let s := { s with fio := { s.fio with tag := tag + 1 } }
  (tag, (s.evt 15 (0x10 + p / 4) 1).emit (.portReq p tag addr write data ro))

/-- The Device Control registers of a root port's own configuration space: port q of a group is device q on the group's
first bus, Device Control lies at 0x48 and Device Control 2 at 0x68, and the enables stand in bit 4, and in bits 8 and 9
(PRESUMED, log 64).  The port that a configuration access reaches so. -/
def State.ownConfig (s : State) (bus dev off : Nat) : Option Nat :=
  (s.busGroup bus).bind fun g =>
    if bus = s.fget (kFioGcfg g) fFioGcfg_BUSBASE ∧ dev % 8 = 0 ∧ s.portThere (4 * g + dev / 8) ∧ dev / 8 < 4 ∧ (off = 0x48 ∨ off = 0x68) then
      some (4 * g + dev / 8)
    else none

/-- Write the enables of a root port that a Device Control register holds. -/
def State.ctlWrite (s : State) (p off : Nat) (v : Word) : State :=
  let c := s.portCtl p
  let c : BitVec 3 := if off = 0x48 then BitVec.ofNat 3 (c.toNat / 2 * 2 + bitsOf v 4 1)
    else BitVec.ofNat 3 (c.toNat % 2 + bitsOf v 8 2 * 2)
  { s with fio := { s.fio with ctl := SMap.put (fun _ => 7#3) s.fio.ctl p c } }

/-- Read a Device Control register of a root port: the enables, and free values in its other bits (log 64). -/
def State.ctlRead (s : State) (p off : Nat) : Word × State :=
  let f := s.fresh
  let c := s.portCtl p
  let w : Word := if off = 0x48 then (f.1 &&& ~~~ 0x10#64) ||| BitVec.ofNat 64 (c.toNat % 2 * 16)
    else (f.1 &&& ~~~ 0x300#64) ||| BitVec.ofNat 64 (c.toNat / 2 * 256)
  (w &&& 0xFFFFFFFF#64, f.2)

/-- What a request completes with when its timer expires or its port is contained (R343): all bytes
0xFF, or poison; FIO_PSTAT.CTO counts it. -/
def State.portFail (s : State) (p : Nat) : (Line × Bool) × State :=
  let pois := s.fon (kFioGcfg (p / 4)) fFioGcfg_CTOPOIS
  let s := (s.fadd (kFioPstat (p / 4) (p % 4)) fFioPstat_CTO 1).evt 15 (0x10 + p / 4) 5
  let s := s.raise { cls := 1, kind := 0x51, agent := p, detail := if pois then 1 else 0 }
  ((if pois then 0 else BitVec.allOnes 512, pois), s)

/-- The core that waits on a tag of a port. -/
def State.devWaiter (s : State) (p tag : Nat) : Option (Nat × DevWait) :=
  s.cores.findSome? fun c => (c.2.dev.find? fun d => decide (d.tag = tag ∧ d.port = p) && d.done.isNone).map fun d => (c.1, d)

/-- Give a waiting core its data. -/
def State.devDone (s : State) (w : Nat × DevWait) (data : Line) (poison : Bool) : State :=
  let c := s.core w.1
  s.setCore w.1 { c with dev := c.dev.map fun (d : DevWait) => if d = w.2 then { d with done := some (data, poison) } else d }

/-- A completion arrives (R343); a late one is discarded. With an unsuccessful status the spec gives no
data: it is a free value (log 30). -/
def pcieCompletionRun (port tag : Nat) (data : Word) (status : Bool) (s : State) : State :=
  match s.devWaiter port tag with
  | none => s
  | some w =>
    let s := s.evt 15 (0x10 + port / 4) 2
    if status then s.devDone w (BitVec.ofNat 512 data.toNat) false
    else
      let f := s.fresh
      f.2.devDone w (BitVec.ofNat 512 f.1.toNat) false

/-- The completion timer of a core's request expires (R343). -/
def completionTimeoutRun (port tag : Nat) (s : State) : State :=
  match s.devWaiter port tag with
  | none => s
  | some w =>
    let f := s.portFail port
    f.2.devDone w f.1.1 f.1.2

/-- A configuration request (R342): one for a bus outside every range is an Unsupported Request, one for a Device Control
register of a root port is answered there (R102), one to a contained port completes as R344 states, and any other leaves
through its port. -/
def configRequestRun (bus dev off : Nat) (write : Bool) (data : Word) (s : State) : State :=
  match s.busGroup bus with
  | none => s.emit (.config bus dev off (BitVec.allOnes 64) true)
  | some g => match s.ownConfig bus dev off with
  | some q => if write then s.ctlWrite q off data else (s.ctlRead q off).2.emit (.config bus dev off (s.ctlRead q off).1 false)
  | none =>
    let p := s.groupPort g
    if s.portState p = 3 then
      (if write then s
       else
        let f := s.portFail p
        f.2.emit (.config bus dev off (BitVec.ofNat 64 f.1.1.toNat) false))
    else (s.portSend p (bus <<< 20 + dev <<< 12 + off) write (BitVec.ofNat 512 data.toNat) false).2

/-! ### Containment (R344, R345) -/

/-- Outstanding requests of cores at a port complete as if their timers had expired. -/
def State.failWaiters (s : State) (p : Nat) : State :=
  let l := s.cores.flatMap fun c => (c.2.dev.filter fun d => decide (d.port = p) && d.done.isNone).map fun d => (c.1, d)
  l.foldl (fun s w =>
    let f := s.portFail p
    f.2.devDone w f.1.1 f.1.2) s

/-- The tier-1 ranges behind a port (R347). -/
def State.portRanges (s : State) (p : Nat) : List Nat :=
  (s.plat.t1.zipIdx.filter (fun r => decide (4 * r.1.group + r.1.port = p))).map (·.2)

/-- Answer the tier-1 requests outstanding at a contained port: reads with poison, writes dropped. -/
def State.failT1 (s : State) (p : Nat) : State :=
  let l := s.fio.t1.filter (fun t => decide ((s.t1Port (keyMa t.k + (t.a.line % 64) * 64)).1 = p))
  let s := { s with fio := { s.fio with t1 := s.fio.t1.filter (fun t => !l.contains t) } }
  l.foldl (fun s t =>
    let s := if t.a.write then s.dropDead 1 (keyMa t.k + (t.a.line % 64) * 64) else s
    s.enlReply t.a (.line 0 (!t.a.write) false)) s

/-- Containment of a CXL port that carries tier-1 ranges (R345). -/
def State.containT1 (s : State) (p : Nat) : State :=
  let rs := s.portRanges p
  if rs.isEmpty then s
  else
    let s := { s with enl := { s.enl with dead := s.enl.dead ++ rs.filter (fun r => !s.enl.dead.contains r) } }
    let s := s.failT1 p
    let s := s.config 8 15 (0x10 + p / 4) [p % 4, rs.foldl (fun n r => n + 2 ^ r) 0]
    s.each rs fun s r => s.evacStart 1 r none false

/-- The inbound DMA of a port that no home has taken up is discarded, and what comes for the rest of it has no requester
any more (R344). -/
def State.dropInbound (s : State) (p : Nat) : State :=
  let gone (d : Dma) : Bool := decide (4 * d.group + d.port = p)
  let post (m : ReqMode) : ReqMode := match m with
    | .port d => if gone d then .post else m
    | _ => m
  let pend (q : Pend) : Pend := { q with mode := post q.mode }
  let slice (x : Slice) : Slice :=
    { x with trans := x.trans.map (fun (t : Trans) => { t with mode := post t.mode }), waiting := x.waiting.map pend,
             parked := x.parked.map pend }
  { s with
    fio := { s.fio with inq := s.fio.inq.filter (fun e => e.sent.isSome || !gone e.dma) },
    home := { s.home with slices := s.home.slices.map (fun q => (q.1, slice q.2)), asked := s.home.asked.map pend } }

/-- The package drives PERST_N of a port (true is asserted) or releases it (R591, Table 21-4). -/
def State.setPerst (s : State) (port : Nat) (on : Bool) : State :=
  if s.pins.perst.contains port = !on then s
  else ({ s with pins := { s.pins with perst := if on then s.pins.perst.filter (fun p => p ≠ port) else s.pins.perst ++ [port] } }).emit
    (.pin ("PERST_N " ++ toString port) on)

/-- DPC_TRIGGER (R344, R345). -/
def dpcTriggerRun (port : Nat) (reason : BitVec 8) (s : State) : State :=
  if !s.isRoot (port / 4) || !s.portThere port || decide (s.portState port = 3) then s
  else
    let s := { s.setPort port 3 0 0 with fio := { s.fio with dpc := SMap.set s.fio.dpc port reason.toNat } }
    let s := (s.setPerst port true).evt 15 (0x10 + port / 4) 9
    let s := s.raise { cls := 2, kind := 0x52, agent := port, detail := reason.toNat }
    ((s.failWaiters port).dropInbound port).containT1 port

/-- DPC_RELEASE (R344): a trigger in the same cycle prevails, with its reason. -/
def dpcReleaseRun (port : Nat) (retrigger : Option (BitVec 8)) (s : State) : State :=
  if s.portState port ≠ 3 then s
  else match retrigger with
    | some r => { s with fio := { s.fio with dpc := SMap.set s.fio.dpc port r.toNat } }
    | none => { s.setPort port 0 0 0 with fio := { s.fio with dpc := s.fio.dpc.del port } }

/-! ### IDE keys (R346, Table 11-4) -/

/-- IDE_KEY_INSTALL. -/
def ideKeyInstallRun (port : Nat) (slot : BitVec 6) (key : BitVec 256) (iv : BitVec 64) (s : State) : State :=
  if !s.isRoot (port / 4) then s
  else { s with fio := { s.fio with ide := SMap.set s.fio.ide (port * 64 + slot.toNat) (key, iv) } }

/-- IDE_KEY_CLEAR. -/
def ideKeyClearRun (port : Nat) (slot : BitVec 6) (s : State) : State :=
  { s with fio := { s.fio with ide := s.fio.ide.del (port * 64 + slot.toNat) } }

/-! ### Tier-1 ranges and fabric windows (R348, R351) -/

/-- Bring tier-1 ranges under management (R348): a bit once set stays set; only ranges that the block
describes exist. -/
def State.t1Activate (s : State) (v : Word) : State := s.wr kFioT1act (s.rd kFioT1act ||| v)

/-! ### Port links (R339, R340, R378) -/

/-- The Lend function on a group. -/
def State.lendOfGroup (s : State) (g : Nat) : Option Nat := [0, 1].find? (fun fn => decide (s.lendGroup fn = some g))

/-- The most lanes that a port trains with: those of Table 11-2, or half of them while one is permanent (R340, R532;
log 36). -/
def State.portLanes (s : State) (port : Nat) : Nat :=
  let b := s.fget (kFioGcfg (port / 4)) fFioGcfg_BIF
  let n := bifLanes b (port % 4)
  let lo := ((List.range (port % 4)).map (bifLanes b)).sum
  if s.laneOut (port / 4) lo n then n / 2 else n

/-- PORT_LINK_UP: no group trains before its role is locked (R339); the lanes of the port bound its width (R340), and
Table 11-3 its rate. -/
def portLinkUpRun (port : Nat) (width : BitVec 8) (gen : BitVec 4) (s : State) : State :=
  let g := port / 4
  let lanes := s.portLanes port
  let w := min width.toNat lanes
  if !s.fon (kFioGcfg g) fFioGcfg_LOCK || decide (lanes = 0) then s
  else match s.role g with
    | 1 | 2 => if s.portState port = 3 ∨ gen = 0#4 ∨ 6 < gen.toNat then s else ((s.setPort port 2 w gen.toNat).setPerst port false).evt 15 (0x10 + g) 6
    | 3 => if gen = 6#4 then (s.setPort port 2 w 6).setPerst port false else s
    | 4 => match s.lendOfGroup g with
      | some fn =>
        let s := s.setLf fn { s.lf fn with link := 2 }
        if s.lendFrozen fn then s else s.fput (kLndStat fn) fLndStat_STATE 2
      | none => s
    | 5 => if decide (s.fget (kFioXstat g) fFioXstat_STATE = 0) && !s.fio.xdown.contains g && decide (s.xWidth g > 0) then
        let s := (s.fput (kFioXstat g) fFioXstat_STATE 1).fput (kFioXstat g) fFioXstat_WIDTH (s.xWidth g)
        if s.boot.effFixed then s.sendEffcap g else s
      else s
    | _ => s

/-! ### Sceuc-X (R359–R362) -/

/-- A Sceuc-X link goes down until the next warm or cold reset, and every timer that waits on the peer expires (R204,
R362): a request timer, or the loss of the only peer of a domain of two sockets, takes the domain down in both modes
(R209). -/
def State.socketDown (s : State) (g reason : Nat) : State :=
  let s := ((s.fput (kFioXstat g) fFioXstat_STATE 0).fput (kFioXstat g) fFioXstat_REASON reason).fput (kFioXstat g)
    fFioXstat_WIDTH 0
  let s := { s with fio := { s.fio with xdown := s.fio.xdown ++ [g] } }
  let j := s.fget (kFioGcfg g) fFioGcfg_PEER
  let two := decide ((s.plat.groups.filter (fun x => x.role = 5)).length = 1)
  let asked := s.home.asked.filter fun q => decide (s.lineKind q.req.line = .remote j) && !s.queued q
  match asked, s.awaiting (12 + j) with
  | q :: _, _ => s.domainDown 5 (msgType q.kind) (12 + j) q.req.line s.sock
  | [], t :: _ => if s.fon kHaGctl fHaGctl_MODE && !two then s.agentLost (12 + j)
      else s.domainDown 5 (msgType t.kind) (12 + j) t.req.line s.sock
  | [], [] => if two then s.domainDown 5 0 (12 + j) 0 s.sock else s

/-- PORT_LINK_DOWN (R362, R378). -/
def portLinkDownRun (port : Nat) (s : State) : State :=
  let g := port / 4
  match s.role g with
  | 1 | 2 | 3 => if s.portState port = 3 then s else s.setPort port 0 0 0
  | 4 => match s.lendOfGroup g with
    | some fn =>
      let x := s.lf fn
      let s := s.setLf fn { x with link := 0 }
      if !x.reqs.isEmpty then s.lendFreeze fn 5
      else if s.lendFrozen fn then s else s.fput (kLndStat fn) fLndStat_STATE 0
    | none => s
  | 5 => match s.fget (kFioXstat g) fFioXstat_STATE with
    | 2 => s.socketDown g 0
    | 1 => s.fput (kFioXstat g) fFioXstat_STATE 0
    | _ => s
  | _ => s

/-- Hold a Sceuc-X link down, logging both values (R41, R360; log 28). -/
def State.holdSocket (s : State) (g reason : Nat) (a b : Word) : State :=
  ((s.fput (kFioXstat g) fFioXstat_STATE 3).fput (kFioXstat g) fFioXstat_REASON reason).raise
    { cls := 0, kind := 0x25, agent := g, detail := reason, syn0 := a, syn1 := b, counts := false }

/-- SCEUC_X_JOIN (R41, R360, R361, R425): the peer's values have come.  This package has sent its own, or does so now; the
checks follow in order, and a link that joins exchanges the Darkroom ranges.  A join after the window has closed is
late. -/
def sceucXJoinRun (group : Nat) (peerSocket peerPeer : BitVec 2) (peerCap : Word) (peerMode : Bool)
    (peerRange : Word) (s : State) : State :=
  if s.role group ≠ 5 ∨ !s.boot.windowOpen ∨ !s.boot.effFixed ∨ s.fget (kFioXstat group) fFioXstat_STATE ≥ 2 ∨
      s.xWidth group = 0 ∨ s.fio.xdown.contains group ∨ s.home.lost.contains (12 + s.fget (kFioGcfg group) fFioGcfg_PEER) then s
  else
    let s := if s.fget (kFioXstat group) fFioXstat_STATE = 1 then s else s.sendEffcap group
    if peerSocket.toNat ≠ s.fget (kFioGcfg group) fFioGcfg_PEER ∨ peerPeer.toNat ≠ s.sock then
      s.holdSocket group 1 (BitVec.ofNat 64 s.sock) (BitVec.ofNat 64 peerSocket.toNat)
    else if peerCap ≠ s.rd kMgtEffcap then s.holdSocket group 2 (s.rd kMgtEffcap) peerCap
    else if peerMode ≠ s.fon kHaGctl fHaGctl_MODE then
      s.holdSocket group 2 (if s.fon kHaGctl fHaGctl_MODE then 1 else 0) (if peerMode then 1 else 0)
    else
      let v := fWldDrrange_V.put (fWldDrrange_BASE.put (fWldDrrange_TOP.put 0 (fWldDrrange_TOP.get peerRange))
        (fWldDrrange_BASE.get peerRange)) (fWldDrrange_V.get peerRange)
      let s := s.wr (kWldDrrange peerSocket.toNat) v
      ((s.fput (kFioXstat group) fFioXstat_STATE 2).fput (kFioXstat group) fFioXstat_WIDTH (s.xWidth group)).emit
        (.socketMsg group 2 (s.rd (kWldDrrange s.sock)) 0)

/-- SCEUC_X_LANE_FAIL (R362). -/
def sceucXLaneFailRun (group : Nat) (lowGood highGood : Bool) (s : State) : State :=
  if s.fget (kFioXstat group) fFioXstat_STATE ≠ 2 then s
  else if (lowGood && !s.laneOut group 0 8) || (highGood && !s.laneOut group 8 8) then
    let s := (s.fput (kFioXstat group) fFioXstat_WIDTH 8).evt 15 (0x10 + group) 6
    s.config 9 15 (0x10 + group) [(s.rd (kFioXstat group)).toNat]
  else s.socketDown group 0

/-- SCEUC_X_LOCK_TIMEOUT (R362). -/
def sceucXLockTimeoutRun (group : Nat) (s : State) : State :=
  if s.fget (kFioXstat group) fFioXstat_STATE ≠ 2 then s else s.socketDown group 3

/-- SCEUC_X_REPLAY (R362): the eighth in a row without progress takes the link down. -/
def sceucXReplayRun (group : Nat) (progress : Bool) (s : State) : State :=
  if s.fget (kFioXstat group) fFioXstat_STATE ≠ 2 then s
  else
    let n := if progress then 0 else SMap.get (fun _ => 0) s.fio.xreps group + 1
    let s := { s with fio := { s.fio with xreps := SMap.put (fun _ => 0) s.fio.xreps group (if n ≥ 8 then 0 else n) } }
    let s := s.evt 15 (0x10 + group) 7
    if n ≥ 8 then s.socketDown group 4 else s

-- EXEC: CONFIG_REQUEST COMPLETION_TIMEOUT PCIE_COMPLETION DPC_TRIGGER DPC_RELEASE IDE_KEY_INSTALL IDE_KEY_CLEAR PORT_LINK_UP PORT_LINK_DOWN SCEUC_X_JOIN SCEUC_X_LANE_FAIL SCEUC_X_LOCK_TIMEOUT SCEUC_X_REPLAY
/-- CONFIG_REQUEST (R342): the effect of a well-formed command. -/
def execConfigRequest (bus : Nat) (dev : Nat) (off : Nat) (write : Bool) (data : Word) (s : State) : Res :=
  runs (decide (bus < 256) && decide (dev < 256) && decide (off < 4096)) (configRequestRun bus dev off write data) s

/-- COMPLETION_TIMEOUT (R343): the effect of a well-formed command. -/
def execCompletionTimeout (port : Nat) (tag : Nat) (s : State) : Res :=
  runs (wfPort port) (completionTimeoutRun port tag) s

/-- PCIE_COMPLETION (R343): the effect of a well-formed command. -/
def execPcieCompletion (port : Nat) (tag : Nat) (data : Word) (status : Bool) (s : State) : Res :=
  runs (wfPort port) (pcieCompletionRun port tag data status) s

/-- DPC_TRIGGER (R344): the effect of a well-formed command. -/
def execDpcTrigger (port : Nat) (reason : BitVec 8) (s : State) : Res :=
  runs (wfPort port) (dpcTriggerRun port reason) s

/-- DPC_RELEASE (R344): the effect of a well-formed command. -/
def execDpcRelease (port : Nat) (retrigger : Option (BitVec 8)) (s : State) : Res :=
  runs (wfPort port) (dpcReleaseRun port retrigger) s

/-- IDE_KEY_INSTALL (R346): the effect of a well-formed command. -/
def execIdeKeyInstall (port : Nat) (slot : BitVec 6) (key : BitVec 256) (iv : BitVec 64) (s : State) : Res :=
  runs (wfPort port) (ideKeyInstallRun port slot key iv) s

/-- IDE_KEY_CLEAR (R346): the effect of a well-formed command. -/
def execIdeKeyClear (port : Nat) (slot : BitVec 6) (s : State) : Res :=
  runs (wfPort port) (ideKeyClearRun port slot) s

/-- PORT_LINK_UP (R340): the effect of a well-formed command. -/
def execPortLinkUp (port : Nat) (width : BitVec 8) (gen : BitVec 4) (s : State) : Res :=
  runs (wfPort port) (portLinkUpRun port width gen) s

/-- PORT_LINK_DOWN (R378): the effect of a well-formed command. -/
def execPortLinkDown (port : Nat) (s : State) : Res := runs (wfPort port) (portLinkDownRun port) s

/-- SCEUC_X_JOIN (R360): the effect of a well-formed command. -/
def execSceucXJoin (group : Nat) (peerSocket : BitVec 2) (peerPeer : BitVec 2) (peerCap : Word) (peerMode : Bool) (peerRange : Word) (s : State) : Res :=
  runs (wfGroup group) (sceucXJoinRun group peerSocket peerPeer peerCap peerMode peerRange) s

/-- SCEUC_X_LANE_FAIL (R362): the effect of a well-formed command. -/
def execSceucXLaneFail (group : Nat) (lowGood : Bool) (highGood : Bool) (s : State) : Res :=
  runs (wfGroup group) (sceucXLaneFailRun group lowGood highGood) s

/-- SCEUC_X_LOCK_TIMEOUT (R362): the effect of a well-formed command. -/
def execSceucXLockTimeout (group : Nat) (s : State) : Res :=
  runs (wfGroup group) (sceucXLockTimeoutRun group) s

/-- SCEUC_X_REPLAY (R362): the effect of a well-formed command. -/
def execSceucXReplay (group : Nat) (progress : Bool) (s : State) : Res :=
  runs (wfGroup group) (sceucXReplayRun group progress) s
-- END EXEC

end Sys2Proof.Machine
end

