-- ==== Sys2Proof/Machine/Retire.lean ====
section
/-! DEFINITION.
Retirement, resets of a compute die and the commands of class 0x28 (spec/18). -/

namespace Sys2Proof.Machine

/-! ### Planned retirement (R531, R533, Table 18-6) -/

/-- Retire a core: it stops with REASON RETIRED and its caches are drained. -/
def State.retireCore (s : State) (n : Nat) : State := ((s.haltCore n 3).drainCore n).drainWb

/-- Retire an L3 slice: its lines are written back and invalidated, it allocates no more, and the directory is swept
(R203). -/
def State.retireL3 (s : State) (g : Nat) : State :=
  let s := (s.drainL3 g).drainWb
  ({ s with home := { s.home with lostL3 := s.home.lostL3.filter (fun m => m ≠ g) ++ [g] } }).startSweep

/-- The cores and L3 slices of a die. -/
def dieCores (d : Nat) : List Nat := (List.range 18).map (18 * d + ·)
def dieSlices (d : Nat) : List Nat := (List.range 16).map (16 * d + ·)

/-- The steps of a planned retirement. -/
def State.retireSteps (s : State) (die blk : Nat) : State :=
  let s := s.putUnit die blk { s.unit die blk with started := true }
  if blk = 0xFF then
    let s := s.each (dieCores die) State.retireCore
    (s.each (dieSlices die) State.retireL3).dieDelist die
  else if die < 12 ∧ blk < 0x12 then s.retireCore (18 * die + blk)
  else if die < 12 ∧ 0x70 ≤ blk ∧ blk < 0x80 then s.retireL3 (16 * die + (blk - 0x70))
  else if 0x60 ≤ blk ∧ blk < 0x70 then match s.setOf (blk - 0x60) with
    | some set => if s.enl.withdrawn.contains set ∨
          (!s.fon kEnlCtl fEnlCtl_AUTOEVAC && (s.unit die blk).cause.isSome) then s
        else s.evacStart 0 set none true
    | none => s
  else if 0x10 ≤ blk ∧ blk < 0x18 then
    s.each ((List.range 4).map (4 * (blk - 0x10) + ·)) fun s p => s.containT1 p
  else s

/-- PLANNED_RETIREMENT_START (R531): once Safelight runs and the unit carries no hold. -/
def plannedRetirementStartRun (u : UnitId) (s : State) : State :=
  let x := s.unit u.die u.block
  if x.st = .retiring && !x.started && s.safelight && (s.heldUnit u.die u.block).isNone then s.retireSteps u.die u.block
  else s

/-- Whether the steps of a retirement have finished: a channel's set is evacuated. -/
def State.retireReady (s : State) (die blk : Nat) : Bool :=
  if die = 15 ∧ 0x60 ≤ blk ∧ blk < 0x70 then match s.setOf (blk - 0x60) with
    | some set => s.enl.withdrawn.contains set && !s.enl.evacs.any (fun e => decide (e.tier = 0 ∧ e.set = set))
    | none => true
  else true

/-- What a finished retirement leaves of the unit; a die's cores are retired with it, through RETIRING
(Table 18-6). -/
def State.retireEnd (s : State) (die blk : Nat) : State :=
  if blk = 0xFF then
    let one (s : State) (e : LinkEnd) : State := (s.setLkState e 0).setLk e LinkSt.reset
    let s := one (one s ⟨true, die⟩) ⟨false, die⟩
    s.each (dieCores die) fun s n =>
      let s := match (s.unit die (n % 18)).st with
        | .retired | .lost => s
        | _ => (s.setUnit die (n % 18) .retiring).setUnit die (n % 18) .retired
      s.fput (kCoreId n) fCoreId_RETIRED 1
  else if die < 12 ∧ blk < 0x12 then s.fput (kCoreId (18 * die + blk)) fCoreId_RETIRED 1
  else if die = 15 ∧ 0x60 ≤ blk ∧ blk < 0x70 then s.fput (kMcStat (blk - 0x60)) fMcStat_STATE 0
  else s

/-- A finished retirement is recorded (R533): the unit is RETIRED, CONFIG subtype 4 is extended, and a
record of KIND RETIRED is made. A die whose cores are all retired is retired too. -/
def State.retireRecord (s : State) (die blk : Nat) (cause : Option Nat) : State :=
  let s := { s with ras := { s.ras with retired := s.ras.retired.filter (fun p => p ≠ (die, blk)) ++ [(die, blk)] } }
  s.config 4 die blk [cause.getD 0]

/-- RETIREMENT_COMPLETE (R533). -/
def retirementCompleteRun (u : UnitId) (s : State) : State :=
  let x := s.unit u.die u.block
  if x.st = .retiring && x.started && s.retireReady u.die u.block then
    let s := (s.setUnit u.die u.block .retired).retireEnd u.die u.block
    let s := s.retireRecord u.die u.block x.cause
    let s := s.raise { cls := 2, kind := 0x11, element := x.cause.getD noElem, lost := true, counts := false }
    if u.die < 12 ∧ u.block < 0x12 ∧ (List.range 18).all (fun l => decide ((s.unit u.die l).st = .retired)) then
      s.planRetire u.die 0xFF x.cause
    else s
  else s

/-! ### Resets of a compute die (R535, R538) -/

/-- The registers of a die's blocks return to their reset values (Table 0-2), but for RWS bits. -/
def State.pcsDieReset (s : State) (die : Nat) : State :=
  let keep (p : Nat × Word) : Option (Nat × Word) :=
    if pcsDie p.1 ≠ die then some p
    else match regDefAt p.1 with
      | some d =>
        if d.dom = .cold ∨ d.dom = .warm then some p
        else
          let m := BitVec.ofNat 64 d.rws
          let v := (p.2 &&& m) ||| (pcsReset p.1 &&& ~~~ m)
          if v = pcsReset p.1 then none else some (p.1, v)
      | none => none
  { s with pcs := s.pcs.filterMap keep }

/-- A compute die is reset: its cores, caches and registers (R535, R538). GFLOOR stays. -/
def State.dieReset (s : State) (die : Nat) : State :=
  let g := s.fget (kPwrDstat die) fPwrDstat_GFLOOR
  let s := (s.dieCoresStop die).pcsDieReset die
  let s := s.each (dieCores die) fun s n => s.setCore n (coreReset n)
  let s := ((s.fput (kPwrDstat die) fPwrDstat_GFLOOR g).fput (kPwrDstat die) fPwrDstat_DSTATE 0).fput
    (kPwrDctl die) fPwrDctl_PARKED 0
  s.pwrEval die

/-- DIE_SELF_RESET (R535). -/
def dieSelfResetRun (die : Nat) (s : State) : State :=
  if s.dieOut die then s
  else
    let i : LinkEnd := ⟨true, die⟩
    let s := s.raise { cls := 2, kind := 0x24, agent := die, syn0 := s.rd (kSclUpmask i), syn1 := s.rd (kSclDnmask i) }
    ((s.dieReset die).dieGone die).fullTrainDie die

/-- ERR_N_RELEASE (R586). -/
def errNReleaseRun (s : State) : State :=
  if s.pins.err then ({ s with pins := { s.pins with err := false } }).emit (.pin "ERR_N" false) else s

/-! ### Class 0x28 (R530, R538, R542) -/

/-- The 64 bytes of a record (Table 18-8) as a reader other than Safelight sees it, or not (R439). -/
def ErrRec.bytes (r : ErrRec) (all : Bool) : List Byte :=
  let hide := !all && r.flags.getLsbD 0
  let fl := if hide then r.flags &&& 0xC7#8 else r.flags
  let v (x : Nat) : Nat := if hide then 0 else x
  leBytes 4 r.seq ++ leBytes 4 r.element ++ leBytes 8 r.time ++ leBytes 1 r.cls ++ [fl] ++ leBytes 2 r.kind ++
  leBytes 4 r.count ++ leBytes 8 (v r.hpa) ++ leBytes 8 (v r.ma.toNat) ++ leBytes 2 (v r.key) ++ leBytes 2 r.agent ++
  leBytes 4 r.detail ++ leBytes 8 r.syn0.toNat ++ leBytes 8 r.syn1.toNat

/-- RAS_RECORDS. -/
def hRasRecords : Handler := fun _ z s =>
  let len := z.f 32 4
  if !s.bufOk z (z.f 24 8) len then (badParam dBuffer, s)
  else if len < 64 then (.fail zNoSpace 0, s)
  else if len % 64 ≠ 0 then (badParam 0, s)
  else
    let l := s.ras.log.filter (fun r => decide (r.seq ≥ z.f 20 4))
    let w := l.take (len / 64)
    let next := match l.drop (len / 64) with
      | r :: _ => r.seq
      | [] => s.fget kRasNextseq fRasNextseq_SEQ
    let res := leBytes 4 w.length ++ leBytes 4 next ++ leBytes 4 (s.fget kRasLogstat fRasLogstat_LOST)
    match s.zwrite z (z.f 24 8) (w.flatMap (·.bytes (decide (s.srcOf z.qp = 3)))) with
    | (.ok _ _, s) => (.done 0 res, s)
    | (r, s) => (r.fail, s)

/-- Whether DIE and BLOCK name a unit (R542). -/
def unitNamed (die blk : Nat) : Bool :=
  if blk = 0xFF then decide (die < 12) else decide (die < 12 ∨ die = 15) && blockAssigned die blk

/-- The STATE code of Table 18-4. -/
def UnitState.code : UnitState → Nat
  | .online => 0 | .degraded => 1 | .retiring => 2 | .retired => 3 | .lost => 4

/-- The state and GEN of a unit as a result carries them. -/
def UnitSt.result (u : UnitSt) : List Byte := leBytes 2 u.st.code ++ leBytes 2 u.gen.toNat

/-- RAS_UNIT_STATE. -/
def hRasUnitState : Handler := fun _ z s =>
  if !unitNamed (z.f 17 1) (z.f 18 1) then (badParam 0, s)
  else
    let u := s.unit (z.f 17 1) (z.f 18 1)
    (.done 0 (u.result ++ leBytes 4 (u.perm.getD noElem)), s)

/-- The units that RAS_RETIRE OP 0 accepts. -/
def State.retirable (s : State) (die blk : Nat) : Bool :=
  if die < 12 then decide (blk = 0xFF ∨ blk < 0x12 ∨ (0x70 ≤ blk ∧ blk < 0x80))
  else decide (0x60 ≤ blk ∧ blk < 0x70) || (decide (0x10 ≤ blk ∧ blk < 0x18) && decide (s.role (blk - 0x10) = 2))

/-- A command decided on a stale view ends with STATE_SKEW (R530). -/
def State.skewed (s : State) (u : UnitSt) : ZDo × State :=
  (.failWith zStateSkew 0 u.result, (s.raise { cls := 0, kind := 0x72, counts := false }).evt 15 8 7)

/-- RAS_RETIRE OP 0 (R531). -/
def hRetire : Handler := fun _ z s =>
  let die := z.f 17 1
  let blk := z.f 18 1
  let u := s.unit die blk
  if !unitNamed die blk then (badParam 0, s)
  else if !s.retirable die blk then (.fail zNotPermitted 0, s)
  else if z.f 20 2 ≠ u.gen.toNat then s.skewed u
  else match (if s.srcOf z.qp = 2 then s.heldUnit die blk else none) with
    | some b => (.fail zBusySecure ((die <<< 8) + b), s.holdRefused 0 die b (z.f 0 2))
    | none => (doneOk, s.planRetire die blk none)

/-- Whether a compute die may be reset by command (R538). -/
def State.dieStill (s : State) (die : Nat) : Bool :=
  (s.fon (kPwrDctl die) fPwrDctl_PARKED || (dieCores die).all (fun n => !(s.core n).released)) &&
  s.home.dir.all (fun p => !p.2.listed.contains die)

/-- RAS_RETIRE OP 1 (R538): the die resets, its link trains in full, and its cores are released when it
has. -/
def hDieReset : Handler := fun _ z s =>
  let die := z.f 17 1
  let u := s.unit die 0xFF
  if die ≥ 12 ∨ z.f 18 1 ≠ 0xFF then (badParam 0, s)
  else if z.f 20 2 ≠ u.gen.toNat then s.skewed u
  else match (if s.srcOf z.qp = 2 then s.heldOn die else none) with
    | some b => (.fail zBusySecure ((die <<< 8) + b), s.holdRefused 2 die b (z.f 0 2))
    | none =>
      if !s.dieStill die then (.fail zBusy 0, s)
      else
        let s := s.dieReset die
        let s := { s with ras := { s.ras with entry := SMap.set s.ras.entry die (BitVec.ofNat 64 (z.f 24 8)) } }
        (doneOk, s.fullTrainDie die)

/-- RAS_RETIRE. -/
def hRasRetire : Handler := fun id z s => match z.f 16 1 with
  | 0 => hRetire id z s
  | 1 => hDieReset id z s
  | _ => (badParam 0, s)

/-- RAS_CLEAR. -/
def hRasClear : Handler := fun _ z s => match z.f 16 1 with
  | 0 =>
    let l := s.ras.log.filter (fun r => decide (r.seq ≥ z.f 20 4))
    (doneOk, { s with ras := { s.ras with log := l } }.fput kRasLogstat fRasLogstat_HELD l.length)
  | 1 =>
    let e := z.f 20 4
    if s.ras.perm.contains e then (.fail zNotPermitted 0, s)
    else (doneOk, { s with ras := { s.ras with tracked := s.ras.tracked.filter (fun p => p.1 ≠ e) } })
  | _ => (badParam 0, s)

-- EXEC: PLANNED_RETIREMENT_START RETIREMENT_COMPLETE DIE_SELF_RESET ERR_N_RELEASE
/-- PLANNED_RETIREMENT_START (R531): the effect of a well-formed command. -/
def execPlannedRetirementStart (u : UnitId) (s : State) : Res :=
  runs u.wf (plannedRetirementStartRun u) s

/-- RETIREMENT_COMPLETE (R533): the effect of a well-formed command. -/
def execRetirementComplete (u : UnitId) (s : State) : Res := runs u.wf (retirementCompleteRun u) s

/-- DIE_SELF_RESET (R535): the effect of a well-formed command. -/
def execDieSelfReset (die : Nat) (s : State) : Res := runs (wfCd die) (dieSelfResetRun die) s

/-- ERR_N_RELEASE (R586): the effect of a well-formed command. -/
def execErrNRelease (s : State) : Res := runs true errNReleaseRun s
-- END EXEC

end Sys2Proof.Machine
end

