-- ==== Sys2Proof/Machine/Reset.lean ====
section
/-! DEFINITION.
Resets and the package's own signals (spec/18 R536–R537, R595; spec/21; R448–R450). -/

namespace Sys2Proof.Machine

/-! ### Warm reset (R537) -/

/-- Record an event in WLD_RSTCAUSE. -/
def State.rstCause (s : State) (c : Nat) : State :=
  (s.fput kWldRstcause fWldRstcause_CAUSE c).fput kWldRstcause fWldRstcause_TIME s.time

/-- What a warm reset leaves of a register (R15): all of one of domain COLD, the RWS bits of any other;
none when it holds its reset value again. -/
def warmKeep (p : Nat × Word) : Option (Nat × Word) := match regDefAt p.1 with
  | some d =>
    if d.dom = .cold then some p
    else
      let m := BitVec.ofNat 64 d.rws
      let v := (p.2 &&& m) ||| (pcsReset p.1 &&& ~~~ m)
      if v = pcsReset p.1 then none else some (p.1, v)
  | none => none

/-- The registers after a warm reset (R15). -/
def State.pcsWarm (s : State) : State := { s with pcs := s.pcs.filterMap warmKeep }

/-- A unit across a warm reset (R595). -/
def State.unitWarm (s : State) (k : Nat) (u : UnitSt) : UnitSt :=
  match u.st with
  | .retiring => { u with st := .retired, gen := u.gen + 1 }
  | .lost => if u.sticky then u else { u with st := .online, gen := u.gen + 1 }
  | .degraded =>
    if s.ras.perm.any (fun e => decide ((elemUnit e).1 * 256 + (elemUnit e).2 = k)) then u
    else { u with st := .online, gen := u.gen + 1 }
  | _ => u

/-- The error and retirement state across a warm reset (R527, R537, R595): units that were RETIRING are
due their CONFIG event and Wear Log record. -/
def State.rasWarm (s : State) : RasSt :=
  let going := s.ras.units.filter (fun p => p.2.st = .retiring)
  { s.ras with
    units := (s.ras.units.map (fun p => (p.1, s.unitWarm p.1 p.2))).filter (fun p => p.2 ≠ UnitSt.reset),
    due := s.ras.due ++ going.map (fun p => (p.1 / 256, p.1 % 256, p.2.cause.getD 0)), entry := [] }

/-- A warm reset (R537) up to the scratch wipe. What survives: registers of domain COLD, RWS bits, TIME,
the wear history, the error log, the fuses, lost agents, the signals and media that nothing reaches. -/
def State.warmReset (s : State) : State :=
  let going := s.ras.units.filter (fun p => p.2.st = .retiring)
  let ras := s.rasWarm
  let p := s.pcsWarm
  let b := State.reset
  let s' : State :=
    { b with
      pending := s.pending, time := s.time, pcs := p.pcs, fuses := s.fuses, media := s.media,
      plat := { b.plat with socket := s.plat.socket, wearGen := s.plat.wearGen, wear := s.plat.wear,
                            coldKey := s.plat.coldKey },
      home := { b.home with lost := s.home.lost },
      chans := (s.chans.filter (fun c => !c.2.erased.isEmpty)).map (fun c => (c.1, { Chan.reset with erased := c.2.erased })),
      wld := { s.wld with kicked := s.time, warned := false },
      boot := { b.boot with effFixed := s.boot.effFixed, warm := true },
      pwr := { b.pwr with cprMin := s.pwr.cprMin },
      ssm := { b.ssm with words := s.ssm.words, poison := s.ssm.poison },
      ras := ras,
      pins := { s.pins with fatal := false, perst := [] },
      free := s.free, rnd := s.rnd, out := s.out }
  let s' := s'.each s'.chans fun s c =>
    s.fput (kMcStat c.1) fMcStat_ERASED (c.2.erased.foldl (fun m i => m ||| 2 ^ (i / 20)) 0)
  let s' := if s.pins.fatal then s'.emit (.pin "FATAL_N" false) else s'
  -- links of dies that stay out do not train; cores of newly retired units show it
  let out := (List.range 12).filter (fun d => s'.dieOut d)
  let s' := s'.each out fun s d => s.setLk ⟨true, d⟩ { LinkSt.reset with dead := true }
  s'.each going fun s q => s.retireEnd (q.1 / 256) (q.1 % 256)

/-- A warm-reset event: one that meets a running reset joins it (R584). -/
def State.warmEvent (s : State) : State := if s.ssm.wiping then s else s.warmReset

/-- WARM_RST_N (R584). -/
def warmRstNRun (s : State) : State := s.warmEvent

/-! ### Secure watchdog (R450) -/

/-- WATCHDOG_WARNING: vector 5 is raised on SP0. -/
def watchdogWarningRun (s : State) : State :=
  if s.wld.warned then s else { s.vec 216 5 with wld := { s.wld with warned := true } }

/-- WATCHDOG_EXPIRY: WDOG is recorded and a warm reset applied; a kick in the same TCLK cycle is taken (R17). -/
def watchdogExpiryRun (s : State) : State := if s.wld.kicked = s.time then s else (s.rstCause 1).warmEvent

/-! ### Tamper and lifecycle changes (R448, R449, R585) -/

/-- Steps 1 and 2 of R448: every context becomes EMPTY, the internal and transport keys are erased, the
secure partition is zeroed. -/
def State.wipeKeys (s : State) : State := ({ s with dks := DksSt.reset }).dksShow.wipeSecure

/-- TAMPER (R449, R585): one event for each continuous low period. -/
def tamperRun (s : State) : State :=
  let s := { s with pins := { s.pins with tamperN := false }, wld := { s.wld with tamperLow := true } }
  if s.wld.tamperUsed then s
  else
    let s := { s with wld := { s.wld with tamperUsed := true } }
    let s := ((s.evt 15 2 7).vec 216 8).wipeKeys
    ((s.rstCause 2).fadd kWldRstcause fWldRstcause_TAMPERS 1).warmEvent

/-- TAMPER_N_RELEASE (R585). -/
def tamperNReleaseRun (s : State) : State :=
  { s with pins := { s.pins with tamperN := true }, wld := { s.wld with tamperLow := false, tamperUsed := false } }

/-- An accepted lifecycle change (R448). -/
def State.lifecycle (s : State) (target : Nat) : State :=
  let old := s.fuses.lifecycle
  let s := s.wipeKeys
  let s := if target = 1 then
      let d := s.draw
      { d.2 with wld := { s.wld with idPriv := some (BitVec.ofNat 256 (1 + d.1.toNat % (sm2N - 2))) } }
    else if target = 3 ∨ target = 4 then { s with wld := { s.wld with idPriv := none } }
    else s
  let s := { s with fuses := { s.fuses with lifecycle := target }, wld := { s.wld with oldLife := some old } }
  (s.rstCause 3).warmReset

/-! ### Power and cold reset (R581–R583, R587) -/

/-- A cold reset holds the whole package: every register returns to its reset value, and of the rest
only the fuses, the identity key and the standby logic keep theirs (R15, R587). -/
def State.coldHold (s : State) (pwrgood coldRstN : Bool) : State :=
  let b := State.reset
  { b with
    pending := s.pending, fuses := s.fuses, free := s.free, rnd := s.rnd, out := s.out,
    wld := { b.wld with idPriv := s.wld.idPriv, tamperLow := s.wld.tamperLow, oldLife := s.wld.oldLife },
    pins := { b.pins with pwrgood := pwrgood, coldRstN := coldRstN, warmRstN := s.pins.warmRstN,
                          tamperN := s.pins.tamperN, pid := s.pins.pid, inCold := true,
                          tripped := s.pins.tripped || s.pins.thermtrip } }

/-- POWER_ON (R581). -/
def powerOnRun (s : State) : State := s.coldHold true true
/-- COLD_RESET (R582). -/
def coldResetRun (s : State) : State := s.coldHold s.pins.pwrgood false
/-- SUPPLY_FAULT (R583): with PWRGOOD high the result is a cold reset. -/
def supplyFaultRun (s : State) : State := if s.pins.pwrgood then s.coldHold true s.pins.coldRstN else s

/-- COLD_RESET_END (R582, R588): TIME is 0, the scratch wipe begins, and a new provisioned ID is drawn;
a package that finds TESTEN high halts. A boot after a thermal trip records it (R587; log 31). -/
def coldResetEndRun (testen : Bool) (s : State) : State :=
  if !s.pins.inCold then s
  else
    let d := s.draw
    let s := d.2
    let s := { s with pins := { s.pins with inCold := false, pwrgood := true, coldRstN := true, testen := testen,
                                            pid := (0x5CF#16).zeroExtend 48 <<< 32 ||| (d.1.setWidth 32).zeroExtend 48 } }
    let s := if s.pins.tripped then
        let f := s.fresh
        { f.2.fput kWldRstcause fWldRstcause_CAUSE f.1.toNat with pins := { s.pins with tripped := false } }
      else s
    if testen then s.setStage 6 else s

/-- THERMTRIP (R587): every compute core stops and the clocks stop, whatever is held. -/
def thermtripRun (_die : Nat) (s : State) : State :=
  let s := s.each (List.range 216) fun s n => s.haltCore n 3
  ({ s with pins := { s.pins with thermtrip := true } }).emit (.pin "THERMTRIP_N" true)

/-- ENTDAA (R588): the target takes a dynamic address when it has none. -/
def entdaaRun (addr : BitVec 7) (s : State) : State :=
  if s.pins.i3cAddr.isNone then { s with pins := { s.pins with i3cAddr := some addr } } else s

/-! ### The scratch wipe ends (R454, R473, R491) -/

/-- SCRATCH_WIPE_COMPLETE: SP0 leaves reset into stage 0; exposure registers are zero, WLD_CHAL is drawn
and ROM extended. A VOID package halts (R445). -/
def scratchWipeCompleteRun (s : State) : State :=
  if !s.ssm.wiping then s
  else
    let s := s.wipeDone
    let s : State := { s with boot := { s.boot with sp0Up := true, warm := false } }
    if s.stage = 6 then s
    else
      let d := s.draw
      let s := d.2
      let s := s.wr kWldChal (d.1.setWidth 64)
      let s := s.extend 1 0 (beBytes 32 s.fuses.romDigest.toNat)
      if s.fuses.lifecycle = 4 then s.setStage 6 else s

-- EXEC: WARM_RST_N WATCHDOG_WARNING WATCHDOG_EXPIRY TAMPER TAMPER_N_RELEASE THERMTRIP ENTDAA SCRATCH_WIPE_COMPLETE
/-- WARM_RST_N (R584): the effect of a well-formed command. -/
def execWarmRstN (s : State) : Res := runs true warmRstNRun s

/-- WATCHDOG_WARNING (R450): the effect of a well-formed command. -/
def execWatchdogWarning (s : State) : Res := runs true watchdogWarningRun s

/-- WATCHDOG_EXPIRY (R450): the effect of a well-formed command. -/
def execWatchdogExpiry (s : State) : Res := runs true watchdogExpiryRun s

/-- TAMPER (R585): the effect of a well-formed command. -/
def execTamper (s : State) : Res := runs true tamperRun s

/-- TAMPER_N_RELEASE (R585): the effect of a well-formed command. -/
def execTamperNRelease (s : State) : Res := runs true tamperNReleaseRun s

/-- THERMTRIP (R587): the effect of a well-formed command. -/
def execThermtrip (die : Nat) (s : State) : Res := runs (wfDie die) (thermtripRun die) s

/-- ENTDAA (R588): the effect of a well-formed command. -/
def execEntdaa (addr : BitVec 7) (s : State) : Res := runs true (entdaaRun addr) s

/-- SCRATCH_WIPE_COMPLETE (R491): the effect of a well-formed command. -/
def execScratchWipeComplete (s : State) : Res := runs true scratchWipeCompleteRun s
-- END EXEC

/-- POWER_ON (R581): the effect, whatever held the package before. -/
def execPowerOn (s : State) : Res := .next (s.effect powerOnRun)

/-- COLD_RESET (R582): the effect, whatever held the package before. -/
def execColdReset (s : State) : Res := .next (s.effect coldResetRun)

/-- SUPPLY_FAULT (R583): the effect, whatever held the package before. -/
def execSupplyFault (s : State) : Res := .next (s.effect supplyFaultRun)

/-- COLD_RESET_END (R582): the effect, whatever held the package before. -/
def execColdResetEnd (testen : Bool) (s : State) : Res := .next (s.effect (coldResetEndRun testen))

end Sys2Proof.Machine
end

