-- ==== Sys2Proof/Machine/Pdb.lean ====
section
/-! DEFINITION.
The Platform Description Block (spec/15 R466–R472): its sections, the rules that a block must meet, and
how Safelight applies an accepted block. -/

namespace Sys2Proof.Machine

/-- A byte field of a block. -/
def fieldB (l : List Byte) (lo n : Nat) : Nat := leNat (sliceB l lo n)
/-- Whether a range of bytes is zero. -/
def zeroB (l : List Byte) (lo n : Nat) : Bool := decide (fieldB l lo n = 0)

/-- A directory entry (Table 15-4). -/
structure PdbDir where
  typ   : Nat
  rsv   : Nat
  count : Nat
  off   : Nat
  len   : Nat
  deriving DecidableEq, Repr

/-- The directory of a block. -/
def pdbDirs (b : List Byte) : List PdbDir :=
  (List.range (fieldB b 6 2)).map fun i =>
    let e := 16 + 16 * i
    ⟨fieldB b e 2, fieldB b (e + 2) 2, fieldB b (e + 4) 4, fieldB b (e + 8) 4, fieldB b (e + 12) 4⟩

/-- The record size of a section, and its least and greatest COUNT (Table 15-5). -/
def pdbShape : Nat → Option (Nat × Nat × Nat)
  | 1 => some (96, 1, 1)
  | 2 => some (24, 5, 64)
  | 3 => some (64, 16, 16)
  | 4 => some (40, 0, 16)
  | 5 => some (32, 0, 64)
  | 6 => some (8, 8, 8)
  | 7 => some (2, 12, 12)
  | 8 => some (24, 0, 16384)
  | 9 => some (0, 0, 1)
  | 10 => some (120, 0, 1)
  | 11 => some (8, 0, 1)
  | _ => none

/-- A section's bytes. -/
def pdbSec (b : List Byte) (typ : Nat) : List Byte :=
  match (pdbDirs b).find? (fun d => d.typ = typ) with
  | some d => sliceB b d.off d.len
  | none => []

/-- A section's COUNT; 0 where it is absent. -/
def pdbCount (b : List Byte) (typ : Nat) : Nat :=
  match (pdbDirs b).find? (fun d => d.typ = typ) with
  | some d => d.count
  | none => 0

/-- A section's records. -/
def pdbRecs (b : List Byte) (typ : Nat) : List (List Byte) :=
  match pdbShape typ with
  | some (n, _) => let x := pdbSec b typ; (List.range (pdbCount b typ)).map fun i => sliceB x (n * i) n
  | none => []

/-- One rule a block must meet: whether it holds and how its failure is reported (R470). -/
structure PdbRule where
  ok     : Bool
  typ    : Nat
  idx    : Nat
  reason : Nat
  status : Nat
  deriving DecidableEq, Repr

/-- A rule whose failure ends with BAD_PARAM. -/
def rule (typ idx reason : Nat) (ok : Bool) : PdbRule := ⟨ok, typ, idx, reason, zBadParam⟩

/-- The DETAIL of R470. -/
def PdbRule.detail (r : PdbRule) : Nat := (r.typ <<< 24) + (r.idx <<< 8) + r.reason

/-- The rules over each record of a list. -/
def rulesOn {α : Type} (l : List α) (f : Nat → α → List PdbRule) : List PdbRule :=
  l.zipIdx.flatMap fun p => f p.2 p.1

/-- Whether two ranges of a list meet. -/
def clash (a b : Nat × Nat) : Bool := decide (a.1 < b.1 + b.2 ∧ b.1 < a.1 + a.2)
/-- Whether the i-th range meets an earlier one. -/
def clashAt (l : List (Nat × Nat)) (i : Nat) : Bool :=
  match l[i]? with
  | some r => (l.take i).any (fun q => clash q r)
  | none => false

/-! ### Records -/

/-- A MEMMAP record (R469). -/
def mapRec (r : List Byte) : MapRec := ⟨fieldB r 0 8, fieldB r 8 8, fieldB r 16 1, fieldB r 17 1, fieldB r 18 1, fieldB r 19 1⟩
/-- An INTERLEAVE record (Table 15-5). -/
def setRec (r : List Byte) : SetRec := ⟨(sliceB r 8 (fieldB r 0 1)).map (·.toNat), fieldB r 24 8, fieldB r 32 8⟩
/-- A TIER1 record (Table 11-5). -/
def t1Rec (r : List Byte) : T1Rec := ⟨fieldB r 0 1, fieldB r 1 1, fieldB r 8 8, fieldB r 16 8, fieldB r 24 8⟩
/-- A GROUPS record (Table 15-5). -/
def groupRec (r : List Byte) : GroupRec :=
  ⟨fieldB r 0 1, fieldB r 1 1, fieldB r 2 1, fieldB r 3 1, fieldB r 4 1, fieldB r 5 1, fieldB r 6 2⟩
/-- The Wear Log records of a WEARLOG section (R518). -/
def wearRecs (fuel : Nat) (l : List Byte) : List WearRec :=
  match fuel, l with
  | _, [] => []
  | 0, _ => []
  | f + 1, l =>
    let n := fieldB l 2 2
    ⟨fieldB l 0 2, fieldB l 4 1, fieldB l 5 1, sliceB l 8 n⟩ :: wearRecs f (l.drop (8 + n))

/-! ### Rules by section -/

/-- The header and directory (R466, R467). -/
def headRules (b : List Byte) : List PdbRule :=
  let n := b.length
  let top := 16 + 16 * fieldB b 6 2
  let ds := pdbDirs b
  let spans := ds.map fun d => (d.off, d.len)
  [rule 0 0 1 (decide (n ≥ 16 ∧ fieldB b 0 4 = 0x42445048 ∧ fieldB b 4 2 = 1 ∧ fieldB b 8 4 = n ∧ top ≤ n) && zeroB b 12 4)] ++
  rulesOn ds (fun i d =>
    [rule 0 i 1 (decide (d.rsv = 0 ∧ d.off % 8 = 0 ∧ top ≤ d.off ∧ d.off + d.len ≤ n)),
     rule 0 i 2 (pdbShape d.typ).isSome,
     rule 0 i 3 (!(ds.take i).any (fun e => e.typ = d.typ)),
     rule 0 i 1 (match pdbShape d.typ with
       | some (0, _) => decide (d.count = 1)
       | some (w, _) => decide (d.len = d.count * w)
       | none => false),
     rule 0 i 3 (!clashAt spans i)]) ++
  (List.range 11).flatMap (fun t => match pdbShape (t + 1) with
    | some (_, lo, hi) => [rule (t + 1) 0 5 (decide (lo ≤ pdbCount b (t + 1))), rule (t + 1) 0 4 (decide (pdbCount b (t + 1) ≤ hi))]
    | none => [])

/-- The PACKAGE record (R468, R424, R472, R39). -/
def packageRules (s : State) (b : List Byte) : List PdbRule :=
  let r := pdbSec b 1
  let mm := (pdbRecs b 2).map mapRec
  let t := match mm.find? (fun m => m.kind = 0) with | some m => (m.base, m.base + m.size) | none => (0, 0)
  let top := fieldB r 16 8
  let mb := fieldB r 24 8
  let ms := fieldB r 32 8
  let mon := decide (fieldB r 9 1 = 1)
  let key := fieldB r 10 2
  [rule 1 0 1 (zeroB r 12 4 && zeroB r 72 24),
   rule 1 0 2 (decide (fieldB r 0 1 ≤ 3 ∧ fieldB r 1 1 ≤ 1 ∧ fieldB r 8 1 ≤ 8 ∧ fieldB r 9 1 ≤ 1 ∧ fieldB r 2 2 % 2 = 1)),
   rule 1 0 2 (if mon then decide (1 ≤ key ∧ key ≤ 16383) else decide (key = 0)),
   rule 1 0 3 (match s.plat.coldKey with
     | some k => decide (k = (fieldB r 0 1, fieldB r 2 2))
     | none => true),
   rule 1 0 2 (decide (top % 0x200000 = 0 ∧ t.1 ≤ top ∧ top ≤ t.2)),
   rule 1 0 2 (if mon then
       decide (mb % 0x200000 = 0 ∧ ms % 0x200000 = 0 ∧ 0x200000 ≤ ms ∧ ms ≤ 0x40000000 ∧ t.1 ≤ mb ∧ mb + ms ≤ top ∧
         mb >>> 30 = (mb + ms - 1) >>> 30)
     else decide (mb = 0 ∧ ms = 0))]

/-- How many buses the root ports decode (R342). -/
def busesDecoded (gs : List GroupRec) : Nat :=
  gs.foldl (fun a g => if g.role = 1 ∨ g.role = 2 then a + (g.busLim + 1 - g.busBase) else a) 0

/-- The memory map (R469, R30, R31, R342, R350, R356, R391, R482). -/
def memmapRules (b : List Byte) : List PdbRule :=
  let rs := pdbRecs b 2
  let mm := rs.map mapRec
  let gs := (pdbRecs b 6).map groupRec
  let sock := fieldB (pdbSec b 1) 0 1
  let top := fieldB (pdbSec b 1) 16 8
  let spans := mm.map fun m => (m.base, m.size)
  rulesOn (rs.zip mm) (fun i p =>
    let m := p.2
    [rule 2 i 1 (zeroB p.1 20 4),
     rule 2 i 2 (decide (m.kind ≤ 7 ∧ (m.size > 0 ∨ m.kind = 4) ∧ m.base + m.size ≤ 2 ^ 52)),
     rule 2 i 4 (decide (m.kind > 5) || !(mm.take i).any (fun q => q.kind = m.kind)),
     rule 2 i 2 (match m.kind with
       | 0 | 7 => decide (m.base % 0x200000 = 0 ∧ m.size % 0x200000 = 0)
       | 1 => decide (m.size = 0x4000000 ∧ m.base % 0x4000000 = 0)
       | 2 => decide (m.size = 0x2000000 ∧ m.base % 0x2000000 = 0)
       | 3 => decide (m.size = 0x1000)
       | 4 => decide (m.size = busesDecoded gs * 0x100000)
       | 5 => decide (30 ≤ m.slotLog ∧ m.slotLog ≤ 36 ∧ m.size = 16384 * 2 ^ m.slotLog ∧ m.base % m.size = 0 ∧ top ≤ m.base)
       | _ => decide (m.group ≤ 7 ∧ m.base % 0x1000 = 0 ∧ m.size % 0x1000 = 0)),
     rule 2 i 4 (decide (m.kind ≠ 0 ∨ m.size ≤ 2 ^ 45)),
     rule 2 i 3 (decide (m.kind ≠ 7 ∨ (m.socket ≤ 3 ∧ m.socket ≠ sock))),
     rule 2 i 3 (match gs[m.group]? with
       | some g => decide (m.kind ≠ 6 ∨ g.role = 1 ∨ g.role = 2)
       | none => decide (m.kind ≠ 6)),
     rule 2 i 3 (decide (m.base + m.size ≤ apertureBase)),
     rule 2 i 3 (!clashAt spans i)]) ++
  (List.range 5).map (fun k => rule 2 0 5 (mm.any (fun m => m.kind = k)))

/-- The channel records (R317, R318, Table 10-2). -/
def chanRules (b : List Byte) : List PdbRule :=
  rulesOn (pdbRecs b 3) fun c r =>
    let t (k : Nat) : Nat := fieldB r (8 + 2 * k) 2
    let b2 := fieldB r 2 1
    let b3 := fieldB r 3 1
    let typ := b2 % 4
    let dpc2 := decide (b2 / 16 % 2 = 1)
    let ranks := b3 % 4
    let stack := b3 / 16 % 8
    let rate := fieldB r 1 1
    let rfm := decide (fieldB r 5 1 % 2 = 1)
    [rule 3 c 2 (decide (fieldB r 0 1 ≤ 1))] ++
    (if fieldB r 0 1 = 1 then
      [rule 3 c 1 (decide ((b2 / 4) % 4 = 0 ∧ b2 < 32 ∧ (b3 / 4) % 4 = 0 ∧ b3 < 128 ∧ fieldB r 5 1 < 2) && zeroB r 44 20),
       rule 3 c 2 ((decide (rate ≤ 2 ∧ typ = 0) || (decide ((rate = 3 ∨ rate = 4) ∧ typ = 1) && !dpc2)) &&
         decide (stack = 1 ∨ stack = 2 ∨ stack = 4) && decide (ranks = 1 ∨ ranks = 2) &&
         decide (fieldB r 4 1 = 16 ∨ fieldB r 4 1 = 24 ∨ fieldB r 4 1 = 32)),
       rule 3 c 2 ((List.range 16).all (fun k => decide (t k ≠ 0)) && decide (t 4 ≥ t 3 + t 2 ∧ t 6 ≥ t 5 ∧ t 10 ≥ t 9)),
       rule 3 c 2 (!rfm || decide (fieldB r 40 1 ≠ 0 ∧ fieldB r 42 2 ≠ 0))]
    else [])

/-- The interleave sets (R314, R315). -/
def setRules (b : List Byte) : List PdbRule :=
  let chs := pdbRecs b 3
  let rs := pdbRecs b 4
  let sets := rs.map setRec
  let spans := sets.map fun x => (x.maBase, x.size)
  let chan (c : Nat) : List Byte := chs[c]?.getD []
  rulesOn (rs.zip sets) (fun i p =>
    let n := fieldB p.1 0 1
    let x := p.2
    let first := chan (x.chans.headD 0)
    [rule 4 i 1 (zeroB p.1 1 7),
     rule 4 i 2 ([1, 2, 4, 8, 16].contains n && (sliceB p.1 (8 + n) (16 - n)).all (fun v => v = 0xFF) &&
       x.chans.all (fun c => decide (c < 16))),
     rule 4 i 3 (decide x.chans.Nodup && x.chans.all (fun c => decide (fieldB (chan c) 0 1 = 1) &&
       !(sets.take i).any (fun y => y.chans.contains c))),
     rule 4 i 3 (x.chans.all (fun c => decide (sliceB (chan c) 0 6 = sliceB first 0 6 ∧ sliceB (chan c) 8 56 = sliceB first 8 56))),
     rule 4 i 2 (decide (x.size > 0 ∧ x.maBase % (n * 0x200000) = 0 ∧ x.size % (n * 0x200000) = 0)),
     rule 4 i 4 (x.chans.all (fun c =>
       decide (x.size ≤ n * (ChanRec.capacity (BitVec.ofNat 512 (leNat (chan c))) - 0x100000)))),
     rule 4 i 4 (decide (x.maBase + x.size ≤ 2 ^ 45)),
     rule 4 i 3 (!clashAt spans i)]) ++
  [rule 4 0 4 (decide ((sets.map (·.size)).sum ≤ 2 ^ 43))]

/-- The groups a block's tier-1 ranges lie behind. -/
def t1Groups (l : List T1Rec) : List Nat := (List.range 8).filter (fun g => l.any (fun r => r.group = g))

/-- The tier-1 ranges (R347, R286). -/
def t1Rules (b : List Byte) : List PdbRule :=
  let rs := pdbRecs b 5
  let l := rs.map t1Rec
  let gs := (pdbRecs b 6).map groupRec
  let spans := l.map fun x => (x.maBase, x.size)
  rulesOn (rs.zip l) (fun i p =>
    let x := p.2
    let g := gs[x.group]?
    [rule 5 i 1 (zeroB p.1 2 6),
     rule 5 i 3 (match g with | some g => decide (g.role = 2) | none => false),
     rule 5 i 2 (match g with | some g => decide (bifLanes g.bifur x.port > 0) | none => false),
     rule 5 i 2 (decide (x.size > 0 ∧ x.cxlBase % 0x200000 = 0 ∧ x.size % 0x200000 = 0 ∧ x.maBase % 0x200000 = 0)),
     rule 5 i 4 (decide (x.maBase + x.size ≤ 2 ^ 45)),
     rule 5 i 3 (!clashAt spans i)]) ++
  [rule 5 0 4 (decide ((l.map (·.size)).sum ≤ 2 ^ 45)), rule 5 0 4 (decide ((t1Groups l).length ≤ 4))]

/-- The roles a BIF is allowed for (Table 11-2); a group that is OFF may name any listed BIF. -/
def bifAllows (b role : Nat) : Bool :=
  match b with
  | 0 => true
  | 1 => decide (role ≤ 2)
  | 2 | 3 => decide (role ≤ 1)
  | 4 => decide (role = 4 ∨ role = 0)
  | _ => false

/-- The groups (R339, R286, Tables 11-1 and 11-2). -/
def groupRules (b : List Byte) : List PdbRule :=
  let gs := (pdbRecs b 6).map groupRec
  let tg := t1Groups ((pdbRecs b 5).map t1Rec)
  let sock := fieldB (pdbSec b 1) 0 1
  rulesOn gs fun i g =>
    let root := decide (g.role = 1 ∨ g.role = 2)
    [rule 6 i 2 (decide (g.role ≤ 5) && bifAllows g.bifur g.role && decide (g.ownId < 4096)),
     rule 6 i 4 (decide (((gs.take (i + 1)).filter (fun h => h.role = g.role)).length ≤
       ([8, 8, 8, 4, 2, 3][g.role]?.getD 0))),
     rule 6 i 2 (!root || decide (g.busBase ≤ g.busLim)),
     rule 6 i 3 (!root || !(gs.take i).any (fun h => decide (h.role = 1 ∨ h.role = 2) &&
       decide (g.busBase ≤ h.busLim ∧ h.busBase ≤ g.busLim))),
     rule 6 i 2 (decide (g.role ≠ 5 ∨ g.peer ≤ 3)),
     rule 6 i 3 (decide (g.role ≠ 5 ∨ g.peer ≠ sock)),
     rule 6 i 2 (if tg.contains i then decide (g.pipe ≤ 3) else decide (g.pipe = 0xFF)),
     rule 6 i 3 (!(tg.contains i && (gs.zipIdx.take i).any (fun h => tg.contains h.2 && decide (h.1.pipe = g.pipe))))]

/-- The link splits (R213). -/
def linkRules (b : List Byte) : List PdbRule :=
  rulesOn (pdbRecs b 7) fun i r =>
    [rule 7 i 2 ((List.range 2).all fun k => [32, 40, 48, 56, 64].contains (fieldB r k 1))]

/-- The fabric windows (R351, Table 11-6). -/
def fabricRules (b : List Byte) : List PdbRule :=
  let ap := ((pdbRecs b 2).map mapRec).find? (fun m => m.kind = 5)
  rulesOn (pdbRecs b 8) fun i r =>
    let w0 := fieldB r 8 8
    [rule 8 i 1 (zeroB r 2 6 && decide (w0 / 2 ^ 56 % 8 = 0 ∧ w0 / 2 ^ 52 % 4 = 0 ∧ w0 / 2 ^ 16 % 2 ^ 24 = 0 ∧ fieldB r 16 8 % 2 ^ 21 = 0)),
     rule 8 i 5 ap.isSome,
     rule 8 i 2 (decide (fieldB r 0 2 < 16384 ∧ w0 / 2 ^ 62 % 2 = 0) && (match ap with
       | some m => decide (w0 % 2 ^ 16 ≤ 2 ^ (m.slotLog - 21))
       | none => true))]

/-- Whether each record of a Wear Log fits its section. -/
def wearFits (fuel : Nat) (l : List Byte) : Bool :=
  match fuel, l with
  | _, [] => true
  | 0, _ => false
  | f + 1, l => decide (8 ≤ l.length ∧ fieldB l 2 2 % 8 = 0 ∧ 8 + fieldB l 2 2 ≤ l.length) && zeroB l 6 2 &&
      wearFits f (l.drop (8 + fieldB l 2 2))

/-- The Wear Log (R518, R543). -/
def wearRules (s : State) (b : List Byte) : List PdbRule :=
  if pdbCount b 9 = 0 then []
  else
    let w := pdbSec b 9
    let l := wearRecs 32768 (w.drop 32)
    [rule 9 0 4 (decide (w.length ≤ 262144)),
     rule 9 0 1 (decide (w.length ≥ 32 ∧ fieldB w 0 4 = 0x4C575248 ∧ fieldB w 4 1 = 1) && zeroB w 5 3 && zeroB w 20 12),
     rule 9 0 6 (decide (fieldB w 8 8 = s.fuses.serial.toNat)),
     rule 9 0 1 (wearFits 32768 (w.drop 32))] ++
    rulesOn l (fun i r =>
      let d (k n : Nat) : Nat := fieldB r.data k n
      [rule 9 (i + 1) 2 ([1, 2, 3, 0x101, 0x102].contains r.typ),
       rule 9 (i + 1) 1 ((l.take i).all (fun q => decide (q.typ ≤ r.typ))),
       rule 9 (i + 1) 2 (decide (r.data.length = 8 ∧ (r.die ≤ 11 ∨ r.die = 15)) && (match r.typ with
         | 1 => decide (r.index = 0)
         | 2 => decide (r.index ≤ 63)
         | 3 => decide (r.die = 15 ∧ r.index ≤ 15)
         | 0x101 => decide (r.index = 0 ∧ d 4 4 = 0 ∧ elemDie (d 0 4) = r.die)
         | _ => decide (r.index = 0 ∧ d 1 7 = 0 ∧ (d 0 1 ≠ 0xFF ∨ r.die ≤ 11))))])

/-- The permitted targets of an authorisation record in a lifecycle state: whether the signature is
required (Table 14-8). -/
def authTarget (life target : Nat) : Option Bool :=
  match life, target with
  | 0, 1 => some true
  | 1, 2 => some false
  | 2, 3 => some true
  | 0, 4 | 1, 4 | 2, 4 | 3, 4 => some false
  | 1, 0x80 | 2, 0x80 | 3, 0x80 => some true
  | _, _ => none

/-- The digest of the identity key; zero where none exists (Table 14-9). -/
def State.idDigest (s : State) : List Byte :=
  match s.wld.idPriv with
  | some d => sm3 (sm2Pub d.toNat)
  | none => List.replicate 32 0

/-- The authorisation record (R446, R447). -/
def authRules (s : State) (b : List Byte) : List PdbRule :=
  rulesOn (pdbRecs b 10) fun _ r =>
    let t := authTarget s.fuses.lifecycle (fieldB r 1 1)
    [rule 10 0 1 (decide (fieldB r 0 1 = 1) && zeroB r 2 6),
     ⟨t.isSome, 10, 0, 2, zNotPermitted⟩,
     rule 10 0 6 (decide (fieldB r 8 8 = (s.rd kWldChal).toNat ∧ fieldB r 48 8 = s.fuses.serial.toNat ∧
       sliceB r 16 32 = s.idDigest)),
     ⟨t ≠ some true || sm2Verify s.boot.authKey (r.take 56) (sliceB r 56 64), 10, 0, 7, zSigFail⟩]

/-- The sealed record (R453). -/
def sealRules (b : List Byte) : List PdbRule :=
  rulesOn (pdbRecs b 11) fun _ r =>
    [rule 11 0 1 (zeroB r 4 4), rule 11 0 2 (decide (fieldB r 0 2 < 4096 ∧ fieldB r 2 2 < pdbCount b 4))]

/-- The first rule that a block breaks: its status and DETAIL (R470). -/
def State.pdbCheck (s : State) (b : List Byte) : Option (Nat × Nat) :=
  let first (l : List PdbRule) : Option PdbRule := l.find? (fun r => !r.ok)
  let r := match first (headRules b) with
    | some r => some r
    | none => first (packageRules s b ++ memmapRules b ++ chanRules b ++ setRules b ++ t1Rules b ++ groupRules b ++
        linkRules b ++ fabricRules b ++ wearRules s b ++ authRules s b ++ sealRules b)
  r.map fun r => (r.status, r.detail)

/-! ### Applying a block (R471) -/

/-- What the block supplies. -/
def State.platOf (s : State) (b : List Byte) : Plat :=
  let r := pdbSec b 1
  let w := pdbSec b 9
  let has := decide (pdbCount b 9 = 1)
  { accepted := true, socket := fieldB r 0 1,
    memmap := (pdbRecs b 2).map mapRec,
    sets := (pdbRecs b 4).map setRec,
    t1 := (pdbRecs b 5).map t1Rec,
    chans := (pdbRecs b 3).map fun x => BitVec.ofNat 512 (leNat x),
    groups := (pdbRecs b 6).map groupRec,
    ownerKey := BitVec.ofNat 256 (beNat (sliceB r 40 32)),
    monKey := fieldB r 10 2, monBase := fieldB r 24 8, monSize := fieldB r 32 8,
    wearGen := if has then fieldB w 16 4 else 0,
    wear := if has then wearRecs 32768 (w.drop 32) else [],
    coldKey := some (match s.plat.coldKey with | some k => k | none => (fieldB r 0 1, fieldB r 2 2)) }

/-- Apply one Wear Log record (R519, R543). -/
def State.wearApply (s : State) (r : WearRec) : State :=
  let d (k n : Nat) : Nat := fieldB r.data k n
  match r.typ with
  | 1 => if r.die < 12 then s.fput (kPwrDstat r.die) fPwrDstat_GFLOOR (d 0 2) else s.fput kPwrIodv fPwrIodv_GFLOOR (d 0 2)
  | 2 => if isCpr r.die r.index then s.cprSeen r.die r.index (margin16 (d 0 2)) else s.fput (kGrcSens r.die r.index) fGrcSens_EXT (d 0 2)
  | 3 => { s with pwr := { s.pwr with passes := SMap.put (fun _ => 0) s.pwr.passes r.index (d 3 1) } }
  | 0x101 => if s.ras.perm.contains (d 0 4) then s else s.addPerm (d 0 4)
  | _ =>
    let s := s.setUnit r.die (d 0 1) .retired
    let s := s.retireEnd r.die (d 0 1)
    if s.ras.retired.contains (r.die, d 0 1) then s
    else { s with ras := { s.ras with retired := s.ras.retired ++ [(r.die, d 0 1)] } }

/-- Write the registers of step 3 (R471). -/
def State.pdbRegs (s : State) (b : List Byte) : State :=
  let r := pdbSec b 1
  let s := s.fput kMgtCapmask fMgtCapmask_PKG_FEAT (fieldB r 2 2)
  let g := fHaGctl_MODE.put (fHaGctl_SNPTMO.put (fHaGctl_MEMTMO.put (s.rd kHaGctl) (fieldB r 6 2)) (fieldB r 4 2)) (fieldB r 1 1)
  let s := s.wr kHaGctl (fHaGctl_LOCK.put g 1)
  let v := fWldDrrange_BASE.put (fWldDrrange_TOP.put 0 (fieldB r 16 8 >>> 21)) (s.tiered.1 >>> 21)
  let s := s.wr (kWldDrrange s.sock) (fWldDrrange_V.put v 1)
  let s := (s.fput kSsmCtl fSsmCtl_SECURE (fieldB r 8 1)).fput kSsmCtl fSsmCtl_LOCK 1
  let s := (s.fput kWldCtl fWldCtl_MONEN (fieldB r 9 1)).fput kWldCtl fWldCtl_LOCK 1
  let s := match s.mapKind 2 with
    | some m => (s.fput kZciDbwin fZciDbwin_BASE (m.base >>> 25)).fput kZciDbwin fZciDbwin_LOCK 1
    | none => s
  let s := match s.mapKind 5 with
    | some m => (s.fput kFwtAper fFwtAper_SLOTLOG m.slotLog).fput kFwtAper fFwtAper_BASE (m.base >>> 30)
    | none => s
  let s := s.fput kFwtAper fFwtAper_LOCK 1
  let s := s.each (pdbRecs b 8) fun s x =>
    s.setFwt (fieldB x 0 2) (BitVec.ofNat 64 (fieldB x 8 8), BitVec.ofNat 64 (fieldB x 16 8))
  match pdbRecs b 11 with
  | x :: _ => ((s.fput kWldSeal fWldSeal_DIES (fieldB x 0 2)).fput kWldSeal fWldSeal_SET (fieldB x 2 2)).fput kWldSeal fWldSeal_ACTIVE 1
  | [] => s

/-- Step 4 (R471, R458, R213, R339): the locks are set, the boot training window opens and the links of
the dies in service begin full training. -/
def State.openWindow (s : State) (b : List Byte) : State :=
  let s := s.each (pdbRecs b 7).zipIdx fun s p =>
    let v := fSclSplit_PKTUP.put (fSclSplit_PKTDN.put (s.rd (kSclSplit p.2)) (fieldB p.1 1 1)) (fieldB p.1 0 1)
    s.wr (kSclSplit p.2) (fSclSplit_LOCK.put v 1)
  let s := s.each s.plat.groups.zipIdx fun s p =>
    let g := p.1
    let v := fFioGcfg_ROLE.put (fFioGcfg_BIF.put (s.rd (kFioGcfg p.2)) g.bifur) g.role
    let v := fFioGcfg_BUSBASE.put (fFioGcfg_BUSLIM.put (fFioGcfg_PEER.put v g.peer) g.busLim) g.busBase
    (s.wr (kFioGcfg p.2) (fFioGcfg_LOCK.put v 1)).fput (kFioFctl p.2) fFioFctl_OWNID g.ownId
  let s : State := { s with boot := { s.boot with windowOpen := true, cdPhase := true, windowTime := s.time } }
  (s.setStage 2).each (List.range 12) State.fullTrain

/-- Steps 3 and 4 (R471, R580): the Wear Log comes before the window, and each die in service has its rail
raised. No CPR has a margin yet, so each starts at the largest (DESIGN CHOICE, log 33). -/
def State.pdbWrite (s : State) (b : List Byte) : State :=
  let p := s.platOf b
  let s : State := { s with plat := p }
  let s := s.pdbRegs b
  let s := s.each (15 :: List.range 12) fun s d => s.each (cprsOf d) fun s i => s.fput (kGrcSens d i) fGrcSens_EXT 0x7FFF
  let s := s.each p.wear State.wearApply
  let s := s.each (List.range 12) fun s d => if (s.unit d 0xFF).st = .retired then s else s.railUp d
  (s.pwrEval railIod).openWindow b

/-- Apply a valid block (R471): PDB is extended before any register is written. -/
def State.pdbApply (s : State) (b : List Byte) : State :=
  let s := s.extend 3 1 (leBytes 4 b.length ++ [0, 0, 0, 0] ++ sm3 b)
  let target := match pdbRecs b 10 with | r :: _ => some (fieldB r 1 1) | [] => none
  match target with
  | some 0x80 =>
    let s := s.extend 6 5 [BitVec.ofNat 8 s.fuses.lifecycle, 0x80]
    (s.fput kWldLife fWldLife_DBGAUTH 1).pdbWrite b
  | some t => s.lifecycle t
  | none => s.pdbWrite b

end Sys2Proof.Machine
end

