-- ==== Sys2Proof/Machine/Boot.lean ====
section
/-! DEFINITION.
The boot stages, firmware images, the release of the cores and the commands of the Exposure Record
(spec/15). -/

namespace Sys2Proof.Machine

/-! ### Safelight starts (R454 stage 1) -/

/-- Safelight generates the internal, transport and context-0 keys (R285, R289, R294), extends RESET_CAUSE
and a lifecycle change (R448), and records the retirements of the warm reset (R595). -/
def State.safelightStart (s : State) : State :=
  let a := s.draw
  let b := a.2.draw
  let c := b.2.draw
  let lo (v : BitVec 512) : BitVec 256 := v.setWidth 256
  let hi (v : BitVec 512) : BitVec 256 := (v >>> 256).setWidth 256
  let s := c.2
  let s : State := { s with dks := { s.dks with ik1 := lo a.1, ik2 := hi a.1,
                                                tpriv := BitVec.ofNat 256 (1 + b.1.toNat % (sm2N - 2)) } }
  let s := (s.setCtx 0 { KeyCtx.empty with st := 1, k1 := lo c.1, k2 := hi c.1, gen := 1 }).dksShow
  let s := s.setStage 1
  let s := s.extend 5 5 ([kWldRstcause, kHaDdrec0, kHaDdrec1, kHaDdrec2].flatMap fun k => leBytes 8 (s.rd k).toNat)
  let s := match s.wld.oldLife with
    | some o => { s.extend 6 5 [BitVec.ofNat 8 o, BitVec.ofNat 8 s.fuses.lifecycle] with wld := { s.wld with oldLife := none } }
    | none => s
  let due := s.ras.due
  ({ s with ras := { s.ras with due := [] } }).each due fun s d => s.retireRecord d.1 d.2.1 (some d.2.2)

/-! ### The Platform Description Block (R466, R470) -/

/-- PDB_BEGIN. -/
def hPdbBegin : Handler := fun _ z s =>
  let n := z.f 16 4
  if s.plat.accepted then (.fail zNotPermitted 0, s)
  else if n < 16 ∨ n > 1048576 ∨ n % 8 ≠ 0 then (badParam 0, s)
  else (doneOk, { s with boot := { s.boot with pdb := some (n, []) } })

/-- PDB_DATA; after acceptance, NOT_PERMITTED as PDB_BEGIN (DEDUCED, log 33). -/
def hPdbData : Handler := fun _ z s =>
  let n := z.f 32 4
  match s.boot.pdb with
  | none => (if s.plat.accepted then .fail zNotPermitted 0 else badParam 0, s)
  | some (len, got) =>
    if z.f 16 4 ≠ got.length ∨ got.length + n > len then (badParam 0, s)
    else match s.zread z (z.f 24 8) n with
      | (.ok _ true, s) => s.poisonedBuffer
      | (.ok b false, s) => (doneOk, { s with boot := { s.boot with pdb := some (len, got ++ b) } })
      | (r, s) => (r.fail, s)

/-- PDB_COMMIT. -/
def hPdbCommit : Handler := fun _ _ s =>
  match s.boot.pdb with
  | none => (if s.plat.accepted then .fail zNotPermitted 0 else badParam 0, s)
  | some (len, b) =>
    if b.length ≠ len then (badParam 0, s)
    else
      let s : State := { s with boot := { s.boot with pdb := none } }
      match s.pdbCheck b with
      | some (st, d) =>
        (.fail st d, (s.extend 4 1 (leBytes 4 len ++ leBytes 4 d ++ sm3 b)).fput kMgtBoot fMgtBoot_REJECT d)
      | none => (doneOk, s.pdbApply b)

/-- PDB_STATUS. -/
def hPdbStatus : Handler := fun _ _ s =>
  (.done 0 ([BitVec.ofNat 8 s.stage, BitVec.ofNat 8 s.fuses.lifecycle, 0, 0] ++
    leBytes 4 (s.fget kMgtBoot fMgtBoot_REJECT) ++ leBytes 8 (s.rd kWldChal).toNat), s)

/-! ### Firmware images (R459–R463) -/

/-- The image of a component. -/
def State.image (s : State) (c : Nat) : List Byte := match s.boot.images[c]?.getD none with | some i => i.bytes | none => []
/-- Replace an image. -/
def State.setImage (s : State) (c : Nat) (i : Option Image) : State :=
  { s with boot := { s.boot with images := s.boot.images.zipIdx.map fun p => if p.2 = c then i else p.1 } }

/-- The largest body of a component (Table 15-2). -/
def State.bodyMax (s : State) : Nat → Nat
  | 0 => 0x80000
  | 1 => 0x800000
  | 2 => s.plat.monSize - 0x4000
  | _ => 0x10000000

/-- Whether LOAD and SIZE place a component as Table 15-2 requires. -/
def State.placed (s : State) (c load size : Nat) : Bool :=
  match c with
  | 0 | 1 => decide (load = 0)
  | 2 => s.fon kWldCtl fWldCtl_MONEN && decide (load = s.plat.monBase)
  | _ => decide (load % 4096 = 0 ∧ load + size ≤ s.tiered.2) && (match s.darkRange s.sock with
      | some (_, t) => decide (t ≤ load)
      | none => false)

/-- The whole image has been received. -/
def imageWhole (b : List Byte) : Bool := decide (256 ≤ b.length ∧ b.length = 256 + fieldB b 12 4)

/-- What the stage admits of FW_LOAD and FW_ACTIVATE (R456, R465): the failing status, or none. -/
def State.fwGate (s : State) (comp : Nat) : Option Nat :=
  if comp > 3 then some zBadParam
  else if s.boot.released then (if comp = 1 then none else some zNotPermitted)
  else
    let st := s.stage
    if (comp = 0 ∧ st = 0) ∨ (comp = 1 ∧ 2 ≤ st ∧ st < 6) ∨ (2 ≤ comp ∧ st = 4) then none else some zBusy

/-- Safelight's uncached writes: as SP0, in the Darkroom world. -/
def whoSafelight : Who := ⟨2, 0, 216⟩

/-- Context MONKEY is loaded before any chunk of component 2 is written (R462 step 1). -/
def State.loadMonkey (s : State) : State :=
  if (s.ctx s.plat.monKey).st ≠ 0 then s
  else
    let d := s.draw
    let c := d.2.ctx s.plat.monKey
    (d.2.setCtx s.plat.monKey { c with st := 1, alg := 0, dark := true, k1 := d.1.setWidth 256,
                                       k2 := (d.1 >>> 256).setWidth 256, gen := c.gen + 1 }).dksShow

/-- Write the body bytes of a chunk to their placement (R461–R463): whether every byte is written. -/
def State.placeChunk (s : State) (c : Nat) (img : List Byte) (off : Nat) : Bool × State :=
  let lo := max 256 off
  let body := (img.take (256 + fieldB img 12 4)).drop lo
  if body.isEmpty || decide (img.length < 256) || !s.placed c (fieldB img 16 8) (fieldB img 12 4) then (true, s)
  else match c with
    | 0 => (true, s)
    | 1 => s.ssmStore (some 0) (s.secureBytes + lo - 256) body
    | 2 => s.loadMonkey.uncPut whoSafelight (fieldB img 16 8 + lo - 256) s.plat.monKey true body
    | _ => s.uncPut whoSafelight (fieldB img 16 8 + lo - 256) 0 true body

/-- FW_LOAD. A chunk beyond the largest image of its component ends with BAD_PARAM (DEDUCED, log 34). -/
def hFwLoad : Handler := fun _ z s =>
  let c := z.f 16 1
  let off := z.f 20 4
  let n := z.f 32 4
  match s.fwGate c with
  | some st => (.fail st 0, s)
  | none =>
    let have_ := if off = 0 then 0 else (s.image c).length
    if n = 0 ∨ n > (if z.qp = 0 then 4096 else 0x1000000) ∨ off ≠ have_ ∨ off + n > 256 + s.bodyMax c then (badParam 0, s)
    else match s.zread z (z.f 24 8) n with
      | (.ok _ true, s) => s.poisonedBuffer
      | (.ok b false, s) =>
        let img := (s.image c).take have_ ++ b
        let w := s.placeChunk c img off
        if w.1 then (.done 0 (leBytes 4 img.length), w.2.setImage c (some ⟨img, img.length⟩)) else (.again, w.2)
      | (r, s) => (r.fail, s)

/-- The checks of FW_ACTIVATE (R461): the failing status, or none. Where OWNERKEY is zero, neither KEY nor
SIGNATURE is checked (DEDUCED, log 34). -/
def State.imageBad (s : State) (c : Nat) (b : List Byte) : Option Nat :=
  let size := fieldB b 12 4
  let entry := fieldB b 24 8
  let key := sliceB b 64 64
  let want := if c < 2 then s.fuses.authority else s.plat.ownerKey
  if !imageWhole b || decide (fieldB b 0 4 ≠ 0x57465248 ∨ fieldB b 4 1 ≠ c ∨ fieldB b 5 1 ≠ 1 ∨ size = 0 ∨ size > s.bodyMax c) ||
      !zeroB b 6 2 || !zeroB b 192 64 then some zBadParam
  else if !s.placed c (fieldB b 16 8) size || decide (entry ≥ size ∨ (c = 2 ∧ entry % 4096 ≠ 0)) then some zBadParam
  else if sm3 (b.drop 256) ≠ sliceB b 32 32 then some zSigFail
  else if (c < 2 ∨ want ≠ 0) ∧ (beNat (sm3 key) ≠ want.toNat ∨ !sm2Verify key (b.take 128) (sliceB b 128 64)) then some zSigFail
  else none

/-- A successful activation extends IMAGE and shows in COMPS (R461, R474). -/
def State.imageUp (s : State) (c : Nat) (b : List Byte) : State :=
  let s := s.extend 2 ([0, 2, 3, 4][c]?.getD 0)
    ([BitVec.ofNat 8 c, 0, 0, 0] ++ sliceB b 8 4 ++ sm3 (b.take 128) ++ sliceB b 32 32)
  let a : Active := ⟨fieldB b 8 4, fieldB b 12 4, fieldB b 24 8, fieldB b 16 8⟩
  let s : State := { s with boot := { s.boot with active := s.boot.active.zipIdx.map fun p => if p.2 = c then some a else p.1 } }
  s.fput kMgtBoot fMgtBoot_COMPS (s.fget kMgtBoot fMgtBoot_COMPS ||| 2 ^ c)

/-- The checks that every activation makes, then its action; a failed one discards the image. -/
def State.activate (s : State) (c : Nat) (act : List Byte → State → ZDo × State) : ZDo × State :=
  match s.fwGate c with
  | some st => (.fail st 0, s)
  | none =>
    let b := s.image c
    match s.imageBad c b with
    | some st => (.fail st 0, s.setImage c none)
    | none => act b s

/-- FW_ACTIVATE of component 0 (R461, R585). -/
def hFwSafelight : Handler := fun _ z s =>
  if z.f 16 1 = 0 ∧ s.stage = 0 ∧ !s.pins.tamperN then (.fail zBusy 0, s)
  else s.activate (z.f 16 1) fun b s =>
    let s : State := { s with boot := { s.boot with authKey := sliceB b 64 64 } }
    (doneOk, (s.imageUp 0 b).safelightStart)

/-- Start SP1–SP3 at the entry of the service firmware, translation disabled (R461). -/
def State.startServiceFw (s : State) (entry : Nat) : State :=
  s.each [217, 218, 219] fun s n => s.releaseCore n (BitVec.ofNat 64 (apertureBase + s.secureBytes + entry))

/-- The SF-path commands that the service firmware has accepted end with BUSY, SF_TIMEOUT (R465). -/
def State.dropAccepted (s : State) : State :=
  let l := s.zci.outs.filter fun o => o.begun && !o.sfWait && (match opInfo (o.z.f 0 2) with
    | some (2, _) => true
    | _ => false)
  s.each l fun s o => s.endCmd o zBusy dSfTimeout []

/-- FW_ACTIVATE of component 1 (R461, R465): before release it starts the service firmware, after release
it replaces it. -/
def hFwService : Handler := fun _ z s => s.activate (z.f 16 1) fun b s =>
  let s := if s.boot.released then s.dropAccepted else s
  (doneOk, (s.imageUp 1 b).startServiceFw (fieldB b 24 8))

/-- A Darkroom stage-1 table entry to `oa` (Table 4-3). -/
def tableEntry (oa typ : Nat) : Nat := oa % 2 ^ 50 / 4096 * 4096 + oa / 2 ^ 50 * 1024 + typ

/-- The 16 KiB of tables that map the monitor region to itself (R462 step 2). -/
def monTables (base size key : Nat) : List Byte :=
  let top := base + size - 0x4000
  let page (f : Nat → Nat) : List Byte := (List.range 512).flatMap fun i => leBytes 8 (f i)
  let one (lvl idx : Nat) : Nat → Nat := fun i => if i = idx then tableEntry (top + 4096 * (lvl + 1)) 3 else 0
  page (one 0 ((base >>> 48) % 512)) ++ page (one 1 ((base >>> 39) % 512)) ++ page (one 2 ((base >>> 30) % 512)) ++
  page (fun i =>
    let a := (base >>> 30 <<< 30) + i * 0x200000
    if base ≤ a ∧ a < base + size then key * 2 ^ 50 + tableEntry a 1 + 0x3C0 else 0)

/-- FW_ACTIVATE of component 2 (R462). -/
def hFwMonitor : Handler := fun _ z s => s.activate (z.f 16 1) fun b s =>
  let p := s.plat
  let w := s.uncPut whoSafelight (p.monBase + p.monSize - 0x4000) p.monKey true (monTables p.monBase p.monSize p.monKey)
  if w.1 then
    let s := w.2.imageUp 2 b
    (doneOk, { s with boot := { s.boot with monEntry := fieldB b 24 8 } })
  else (.again, w.2)

/-- The Darkroom regime state of a released core (R462 step 3). -/
def State.monRegs (s : State) (n : Nat) : State :=
  let p := s.plat
  let top := BitVec.ofNat 64 (p.monBase + p.monSize - 0x4000)
  let c := s.core n
  let put (m : SMap Word) (k : Nat) (v : Word) : SMap Word := SMap.put srReset m k v
  let m := put (put c.sr 0xD50 top) 0xD52 (BitVec.ofNat 64 (p.monKey <<< 34 ||| 3))
  let m := put (put (put m 0xD40 0x0202020202020200#64) 0xC25 (BitVec.ofNat 64 (p.monBase + s.boot.monEntry))) 0xC10 top
  s.setCore n { c with sr := m }

/-- FW_ACTIVATE of component 3: the release (R464). -/
def hFwHost : Handler := fun _ z s => s.activate (z.f 16 1) fun b s =>
  let up (c : Nat) : Bool := (s.boot.active[c]?.getD none).isSome
  let mon := s.fon kWldCtl fWldCtl_MONEN
  if !up 1 || (mon && !up 2) then (.fail zBusy 0, s)
  else
    let s := s.imageUp 3 b
    let cores := (List.range 216).filter (fun n => !s.coreOut n)
    if cores.isEmpty then (.fail zNotPermitted 0, s.setStage 6)
    else
      let s := s.fput kRasCtl fRasCtl_LOCK 1
      let s := s.extend 13 5 (leBytes 27 (cores.foldl (fun a n => a + 2 ^ n) 0))
      let pc := BitVec.ofNat 64 (fieldB b 16 8 + fieldB b 24 8)
      let s := s.each cores fun s n => let s := s.releaseCore n pc; if mon then s.monRegs n else s
      (doneOk, { s.setStage 5 with boot := { s.boot with released := true } })

/-- FW_QUERY (R461). A component above 3 ends with BAD_PARAM (DEDUCED, log 34). -/
def hFwQuery : Handler := fun _ z s =>
  let c := z.f 16 1
  if c > 3 then (badParam 0, s)
  else
    let whole := (List.range 4).foldl (fun a i => if imageWhole (s.image i) then a + 2 ^ i else a) 0
    let a := match s.boot.active[c]?.getD none with | some x => (x.svn, x.size) | none => (0, 0)
    (.done 0 ([BitVec.ofNat 8 s.stage, BitVec.ofNat 8 whole, BitVec.ofNat 8 (s.fget kMgtBoot fMgtBoot_COMPS), 0] ++
      leBytes 4 a.1 ++ leBytes 4 a.2), s)

/-! ### The Exposure Record's commands (R478, R480, R481) -/

/-- COUNT of the events extended. -/
def State.xrCount (s : State) : Nat := s.fget kXrcStat fXrcStat_COUNT

/-- Write an output to a command's buffer of `len` bytes, answering `res`. -/
def State.xrWrite (s : State) (z : ZCmd) (len : Nat) (b res : List Byte) : ZDo × State :=
  if !s.bufOk z (z.f 24 8) len then (badParam dBuffer, s)
  else if len < b.length then (.fail zNoSpace 0, s)
  else match s.zwrite z (z.f 24 8) b with
    | (.ok _ _, s) => (.done 0 (leBytes 4 b.length ++ leBytes 4 s.xrCount ++ res), s)
    | (r, s) => (r.fail, s)

/-- The log entries from the front that fit in `room` bytes. -/
def fitLog : List LogEnt → Nat → List LogEnt
  | [], _ => []
  | e :: t, room => if e.bytes.length ≤ room then e :: fitLog t (room - e.bytes.length) else []

/-- XR_READ. -/
def hXrRead : Handler := fun _ z s =>
  let len := z.f 32 4
  match z.f 16 1 with
  | 0 => s.xrWrite z len ((List.range 32).flatMap s.xr) []
  | 1 =>
    let l := s.boot.log.filter (fun e => decide (e.seq ≥ z.f 20 4))
    let w := fitLog l len
    let next := match l.drop w.length with | e :: _ => e.seq | [] => s.xrCount
    if !s.bufOk z (z.f 24 8) len then (badParam dBuffer, s)
    else if w.isEmpty && !l.isEmpty then (.fail zNoSpace 0, s)
    else s.xrWrite z len (w.flatMap (·.bytes)) (leBytes 4 next)
  | 2 => match s.wld.idPriv with
    | none => (.fail zNotPermitted 0, s)
    | some d => s.xrWrite z len (sm2Pub d.toNat ++ leBytes 8 s.fuses.serial.toNat) []
  | _ => (badParam 0, s)

/-- XR_QUOTE. -/
def hXrQuote : Handler := fun _ z s =>
  let len := z.f 20 4
  let mask := BitVec.ofNat 32 (z.f 16 4)
  let size := 160 + 32 * ((List.range 32).filter (fun i => mask.getLsbD i)).length
  if s.wld.idPriv.isNone then (.fail zNotPermitted 0, s)
  else if !s.bufOk z (z.f 24 8) len then (badParam dBuffer, s)
  else if len < size then (.fail zNoSpace 0, s)
  else match s.quote mask (leBytes 32 (z.f 32 32)) with
    | (none, s) => (.fail zNotPermitted 0, s)
    | (some q, s) => s.xrWrite z len q []

/-- XR_EXTEND. -/
def hXrExtend : Handler := fun _ z s =>
  let src := s.srcOf z.qp
  let x := z.f 16 1
  let n := z.f 20 4
  if !(decide (16 ≤ x ∧ x < 32) && (decide (src ≠ 2) || decide (24 ≤ x))) then (.fail zNotPermitted 0, s)
  else if n > 984 then (badParam 0, s)
  else
    let ev (desc : List Byte) (s : State) : State :=
      s.extend 14 x ([BitVec.ofNat 8 (if src = 1 then 1 else if src = 2 then 2 else 3), 0, 0, 0, 0, 0, 0, 0] ++
        leBytes 32 (z.f 32 32) ++ desc)
    if n = 0 then (doneOk, ev [] s)
    else match s.zread z (z.f 24 8) n with
      | (.ok _ true, s) => s.poisonedBuffer
      | (.ok b false, s) => (doneOk, ev b s)
      | (r, s) => (r.fail, s)

/-! ### The window closes and the Enlarger takes its store (R458, R361, R42, R454, R321) -/

/-- BOOT_WINDOW_CLOSE: at the close, a group of ROLE 5 that has not joined halts the package; otherwise
CAPABILITY is extended and stage 3 begins. The close comes at or after the end of the compute-die phase. -/
def bootWindowCloseRun (s : State) : State :=
  if !s.boot.windowOpen || s.boot.cdPhase then s
  else
    let s : State := { s with boot := { s.boot with windowOpen := false } }
    let gone := (List.range 8).filter fun g => decide (s.role g = 5 ∧ s.fget (kFioXstat g) fFioXstat_STATE ≠ 2)
    if !gone.isEmpty then
      (s.extend 8 5 [BitVec.ofNat 8 (gone.foldl (fun a g => a + 2 ^ g) 0)]).setStage 6
    else
      let s := s.setStage 3
      let peer := (List.range 12).map fun n => if s.dieOut n then 0 else (s.rd (kSclPeercap n)).toNat
      let w := [s.fuses.iodWord.toNat] ++ peer ++ [(s.rd kMgtCapmask).toNat, (s.rd kMgtEffcap).toNat]
      s.extend 7 5 (w.flatMap (leBytes 8))

/-- What Focus leaves in MC_FOCUS for one lane: values the spec leaves to the sweep, within its bounds
(R319–R321; log 33). -/
def State.focusLane (s : State) (k : Nat) : State :=
  let a := s.fresh
  let v := a.1.toNat
  let half (v : Nat) : Nat × Nat :=
    let win := 12 + v % 117
    (win, v / 256 % (129 - win) + (win - 1) / 2)
  let r := half v
  let w := half (v / 2 ^ 32)
  let s := a.2
  let x := fMcFocus_RDWIN.put (fMcFocus_RDDLY.put 0 r.2) r.1
  let x := fMcFocus_WRWIN.put (fMcFocus_WRDLY.put x w.2) w.1
  s.wr k (fMcFocus_WRVREF.put (fMcFocus_RDVREF.put x (v / 2 ^ 16 % 128)) (v / 2 ^ 48 % 128))

/-- Focus of one set (R321, R533). -/
def State.focusSet (s : State) (failing : List Nat) (p : SetRec × Nat) : State :=
  let chs := p.1.chans
  let ok := chs.filter (fun c => !failing.contains c && decide ((s.unit 15 (0x60 + c)).st ≠ .retired))
  let s := s.each ok fun s c =>
    let r := s.chanRec c
    (List.range (10 * r.physRanks)).foldl (fun s i => s.focusLane (kMcFocus c i)) s
  let hold (s : State) : State :=
    let s := s.config 5 15 (0x60 + chs.headD 0) [p.2]
    let s : State := { s with enl := { s.enl with withheld := s.enl.withheld ++ [p.2] } }
    s.each chs fun s c => s.fput (kMcStat c) fMcStat_STATE 3
  match chs.find? (fun c => failing.contains c), chs.find? (fun c => decide ((s.unit 15 (0x60 + c)).st = .retired)) with
  | some c, _ =>
    let a := s.fresh
    let rank := a.1.toNat % max 1 (s.chanRec c).physRanks
    let lane := a.1.toNat / 16 % 10
    hold (a.2.raise { cls := 2, kind := 0x34, detail := p.2 + (c <<< 16) + (rank <<< 24) + (lane <<< 28), counts := false })
  | none, some c => hold (s.raise { cls := 2, kind := 0x35, detail := p.2 + (c <<< 16), counts := false })
  | none, none => s.each chs fun s c => s.fput (kMcStat c) fMcStat_STATE 2

/-- Take the lowest free tier-0 frames for the region table (R252; log 20). -/
def State.takeFrames (s : State) : Nat → Option State
  | 0 => some s
  | n + 1 => match s.alloc0 false true with
    | some k =>
      let s := s.useMedia k (some .remap)
      ({ s with enl := { s.enl with regTab := s.enl.regTab ++ [k] } } : State).takeFrames n
    | none => none

/-- REMAP_STORE_TAKEN (R454): Focus has run, and the Enlarger takes its region table; an Enlarger that
cannot halts the package (R455). -/
def remapStoreTakenRun (ok : Bool) (failing : List Nat) (s : State) : State :=
  if s.stage ≠ 3 then s
  else
    let s := s.plat.sets.zipIdx.foldl (fun s p => s.focusSet failing p) s
    let size := s.tiered.2 - s.tiered.1
    match (if ok then s.takeFrames (ceilDiv (size / 0x200000 * 16) 4096) else none) with
    | some s => ({ s with enl := { s.enl with up := true } }).setStage 4
    | none => (s.config 13 15 0x50 []).setStage 6

-- EXEC: BOOT_WINDOW_CLOSE REMAP_STORE_TAKEN
/-- BOOT_WINDOW_CLOSE (R458): the effect of a well-formed command. -/
def execBootWindowClose (s : State) : Res := runs true bootWindowCloseRun s

/-- REMAP_STORE_TAKEN (R454): the effect of a well-formed command. -/
def execRemapStoreTaken (ok : Bool) (failing : List Nat) (s : State) : Res :=
  runs true (remapStoreTakenRun ok failing) s
-- END EXEC

end Sys2Proof.Machine
end

