-- ==== Sys2Proof/Machine/Wake.lean ====
section
/-! DEFINITION.
Core, die and package states, wakes, the class 0x20 commands and the Wear Log (spec/17). -/

namespace Sys2Proof.Machine

/-! ### Wake conditions (Table 2-11, R64, R67, R435) -/

/-- Set a state register of a core. -/
def Core.setSr (c : Core) (n : Nat) (v : Word) : Core := { c with sr := SMap.put srReset c.sr n v }

/-- The lowest set bit of a value below bit `n`. -/
def lowBit (v n : Nat) : Option Nat := (List.range n).find? (fun i => v.testBit i)

/-- Whether a timer interrupt is pending: TIMECMP_S, and in the Darkroom TIMECMP_M (R67, R435). -/
def State.timerIrq (s : State) (n : Nat) : Bool :=
  let c := s.core n
  decide ((c.srv 0x432).toNat ≤ s.time) || (c.darkW && decide ((c.srv 0xC32).toNat ≤ s.time))

/-- The pending interrupts of a core as wake sources: code and detail (Table 17-5). -/
def State.irqs (s : State) (n : Nat) : List (Nat × Nat) :=
  let c := s.core n
  (match lowBit (c.srv 0x431).toNat 64 with | some t => [(1, t)] | none => []) ++
  (if s.timerIrq n then [(2, 0)] else []) ++
  (match lowBit c.ext.toNat 256 with | some v => [(3, v)] | none => [])

/-- Whether a core has an interrupt pending, taken or masked. -/
def State.irq (s : State) (n : Nat) : Bool := !(s.irqs n).isEmpty

/-! ### Dies (R505, R506) -/

/-- DSTATE and PARKED of a die. -/
def State.dstate (s : State) (d : Nat) : Nat := s.fget (kPwrDstat d) fPwrDstat_DSTATE
def State.parked (s : State) (d : Nat) : Bool := s.fon (kPwrDctl d) fPwrDctl_PARKED
/-- CSTATE of a compute core. -/
def State.cstate (s : State) (n : Nat) : Nat := s.fget (kPwrCctl n) fPwrCctl_CSTATE

/-- A die enters DS3: its L3 is drained as evictions, CCLK stops, the rail goes to 0 V and the link to
LP3. -/
def State.dieSleep (s : State) (d : Nat) : State :=
  let s := (s.each (dieSlices d) State.drainL3).drainWb
  let s := ((s.fput (kPwrDstat d) fPwrDstat_DSTATE 2).fput (kClkCdctl d) fClkCdctl_NEFF 0).dieDelist d
  let lp3 (s : State) (e : LinkEnd) : State := s.fput (kSclStat e) fSclStat_PWR 3
  let s := if s.linkActive d then lp3 (lp3 s ⟨true, d⟩) ⟨false, d⟩ else s
  s.pwrEval d

/-- A die leaves DS1 or DS3; an exit from DS3 is recorded and ends PS1 and PS2 (R505, R507, R508). -/
def State.dieRouse (s : State) (d : Nat) (codes : List (Nat × Nat)) : State :=
  let deep := s.dstate d = 2
  let s := s.fput (kPwrDstat d) fPwrDstat_DSTATE 0
  if deep then ((((s.fput kPwrPkg fPwrPkg_PS 0).lastWake codes).evt d 0x20 6).pwrEval d).linkWake ⟨true, d⟩ else s

/-- The codes of Table 17-5. -/
def wakeCodes (l : List (Nat × Nat)) : List (Nat × Nat) := l.filter (fun c => decide (1 ≤ c.1 ∧ c.1 ≤ 10))

/-- DIE_WAKE (R505): a die that is parked or out of service does not wake. -/
def dieWakeRun (die : Nat) (codes : List (Nat × Nat)) (s : State) : State :=
  let l := wakeCodes codes
  if s.dstate die = 0 || s.parked die || s.dieOut die || l.isEmpty then s else s.dieRouse die l

/-- Whether a core's wake waits: its die is parked or a test holds it (R506, R561). -/
def State.wakeHeld (s : State) (n : Nat) : Bool :=
  decide (n < 216) && (s.parked (n / 18) || s.underTest (n / 18) (n % 18))

/-- CORE_WAKE (R504, R508): a core whose wake condition holds leaves its state; its die wakes first. -/
def coreWakeRun (core : Nat) (s : State) : State :=
  let c := s.core core
  let l := s.irqs core
  if !c.waiting || l.isEmpty || s.wakeHeld core then s
  else if core ≥ 216 ∨ s.cstate core = 0 then s.setCore core { c with waiting := false }
  else
    let s := if s.dstate (core / 18) ≠ 0 then s.dieRouse (core / 18) l else s
    let deep := s.cstate core ≥ 2
    let s := (s.fput (kPwrCctl core) fPwrCctl_CSTATE 0).fput (kPwrCctl core) fPwrCctl_WAKE (wakePick l).1
    let c := { c with waiting := false }
    s.setCore core (if deep then { c with pred := [], tlbs := ⟨[], [], [], c.tlbs.locked, [], []⟩ } else c)

/-- WFI in the Daylight world enters the state that WFIC selects; in the Darkroom and on a service core
it waits with clocks running (R436, R504). C6 drains the core's caches. -/
def State.coreSleep (s : State) (n : Nat) : State :=
  let c := s.core n
  let s := s.setCore n { c with waiting := true }
  if n ≥ 216 ∨ c.darkW then s
  else
    let w := s.fget (kPwrCctl n) fPwrCctl_WFIC
    let s := s.fput (kPwrCctl n) fPwrCctl_CSTATE (if w = 1 then 2 else if w = 2 then 3 else 1)
    if w = 2 then (s.drainCore n).drainWb else s

/-- A compute core that is in C3 or deeper, or out of service. -/
def State.coreDeep (s : State) (least n : Nat) : Bool := s.coreOut n || decide (s.cstate n ≥ least)

/-- DIE_STATE_ENTRY (R505). -/
def dieStateEntryRun (die : Nat) (s : State) : State :=
  let cs := dieCores die
  let most := s.fget (kPwrDctl die) fPwrDctl_MAXDS
  let ds := s.dstate die
  if ds = 2 || s.dieOut die || (s.heldOn die).isSome || cs.any s.irq || most = 0 then s
  else if most ≥ 2 && cs.all (s.coreDeep 3) then s.dieSleep die
  else if ds = 0 && cs.all (s.coreDeep 2) then s.fput (kPwrDstat die) fPwrDstat_DSTATE 1
  else s

/-- WAKE_PATTERN (R247): a link in LP2 or LP3 retrains, and a die in a low-power state wakes with the
link as the source. -/
def wakePatternRun (e : LinkEnd) (s : State) : State :=
  let s := dieWakeRun e.link [(4, e.link)] s
  if s.linkActive e.link && s.lkAsleep e then s.retrain e.link false else s

/-! ### The package (R507) -/

/-- PACKAGE_STATE_ENTRY: one state deeper where the condition of Table 17-4 holds. -/
def packageStateEntryRun (s : State) : State :=
  let ps := s.fget kPwrPkg fPwrPkg_PS
  let most := min 2 (s.fget kPwrPkg fPwrPkg_MAXPS)
  let asleep := (List.range 12).all fun d => decide (s.dstate d = 2) || s.parked d || s.dieOut d
  let quiet := (List.range 2).all (fun fn => !(s.lf fn).memEn) && s.enl.slots.isEmpty &&
    (List.range 8).all (fun g => !(decide (s.role g = 5) && decide (s.fget (kFioXstat g) fFioXstat_STATE = 2)))
  if !asleep ∨ ps ≥ most then s
  else if ps = 0 then s.fput kPwrPkg fPwrPkg_PS 1
  else if quiet then s.fput kPwrPkg fPwrPkg_PS 2 else s

/-- An access or link activity returns the package from PS2 to PS1. -/
def State.pkgTouch (s : State) (code detail : Nat) : State :=
  if s.fget kPwrPkg fPwrPkg_PS = 2 then (s.fput kPwrPkg fPwrPkg_PS 1).lastWake [(code, detail)] else s

/-- PACKAGE_STATE_EXIT: from PS2 to PS1 for any source, and from PS1 once a die has left DS3. -/
def packageStateExitRun (codes : List (Nat × Nat)) (s : State) : State :=
  let l := wakeCodes codes
  let awake := (List.range 12).any fun d => !(decide (s.dstate d = 2) || s.parked d || s.dieOut d)
  if l.isEmpty then s
  else match s.fget kPwrPkg fPwrPkg_PS with
    | 2 => (s.fput kPwrPkg fPwrPkg_PS 1).lastWake l
    | 1 => if awake then (s.fput kPwrPkg fPwrPkg_PS 0).lastWake l else s
    | _ => s

/-! ### AVSBus expiries (R500) -/

/-- A compute die whose rail has failed is lost at once, with its link (R500, R531, R580). -/
def State.railLost (s : State) (d : Nat) : State :=
  let was := (s.unit d 0xFF).sticky
  let s := s.dieGone d
  let s := if was || s.home.lost.contains d then s else s.putUnit d 0xFF { s.unit d 0xFF with sticky := false }
  let one (s : State) (e : LinkEnd) : State := (s.setLkState e 0).setLk e { LinkSt.reset with dead := true }
  (one (one s ⟨true, d⟩) ⟨false, d⟩).raise { cls := 2, kind := 0x62, element := elem d 0x20 6 0, lost := true }

/-- AVSBUS_TIMEOUT: the command is unconfirmed and the change starts again (log 35); the third expiry in
a row on a compute-die rail loses the die, on the IOD rail it stops the rail. -/
def avsbusTimeoutRun (rail : Nat) (s : State) : State :=
  match (s.rail rail).trans with
  | .raising _ _ | .lowering _ _ =>
    let s := s.avsExpire rail
    if rail < 12 ∧ (s.rail rail).expiries ≥ 3 then s.railLost rail else s.pwrEval rail
  | _ => s

/-! ### Class 0x20 (Table 17-6) -/

/-- A fresh value in 32 bits. -/
def State.fresh32 (s : State) : Nat × State := (s.fresh.1.toNat % 2 ^ 32, s.fresh.2)

/-- One record of PWR_QUERY; the power of a rail is a reading of the moment (log 35). -/
def State.pwrRecord (s : State) (r : Nat) : List Byte × State :=
  let p := s.fresh32
  let j := SMap.get (fun _ => (0 : Int)) s.pwr.junction (if r = railIod then 15 else r)
  let b := if r = railIod then [s.fget kPwrPkg fPwrPkg_PS, 0, 0, 0]
    else [s.dstate r, s.neff r, s.fget (kClkCdctl r) fClkCdctl_TARGET, s.fmax r (s.wantGuard r)]
  (b.flatMap (fun x => leBytes 1 x) ++ leBytes 2 (s.volt r) ++ leBytes 2 (s.wantGuard r) ++ leBytes 4 p.1 ++
    [BitVec.ofInt 8 (j / 10), 0, 0, 0], p.2)

/-- The records of PWR_QUERY: CD0 to CD11, then the IOD. -/
def State.pwrRecords (s : State) : List Byte × State :=
  (List.range 13).foldl (fun (a : List Byte × State) r =>
    let p := a.2.pwrRecord r
    (a.1 ++ p.1, p.2)) ([], s)

/-- The result bytes of PWR_QUERY (Table 17-6). -/
def State.pwrResult (s : State) : List Byte :=
  let bit (b : Bool) (i : Nat) : Nat := if b then 2 ^ i else 0
  let caps := bit (decide (s.fget kPwrPkg fPwrPkg_NCAP < 168)) 0 +
    bit ((List.range 12).any (fun d => decide (s.fget (kClkCdctl d) fClkCdctl_TCAP < 168))) 1
  let ds3 := (List.range 12).foldl (fun a d => a + bit (decide (s.dstate d = 2)) d) 0
  leBytes 4 s.pwr.mw1 ++ leBytes 4 s.pwr.mwTau ++ leBytes 1 (s.fget kPwrPkg fPwrPkg_PS) ++
    leBytes 1 (s.fget kPwrPkg fPwrPkg_MAXPS) ++ leBytes 1 (s.fget kPwrPkg fPwrPkg_NCAP) ++ leBytes 1 caps ++ leBytes 2 ds3

/-- PWR_QUERY. -/
def hPwrQuery : Handler := fun _ z s =>
  let len := z.f 32 4
  if len = 0 then (.done 0 s.pwrResult, s)
  else if len < 208 then (badParam 0, s)
  else match s.pwrRecords.2.zwrite z (z.f 24 8) s.pwrRecords.1 with
    | (.ok _ _, w) => (.done 0 s.pwrResult, w)
    | (r, w) => (r.fail, w)

/-- PWR_SET_LIMIT. -/
def hPwrLimit : Handler := fun _ z s =>
  let pl1 := z.f 16 2; let pl2 := z.f 18 2; let tau := z.f 20 4
  if pl1 < 100 ∨ pl1 > 640 ∨ pl2 < pl1 ∨ pl2 > 800 ∨ tau < 10 ∨ tau > 10000 then (badParam 0, s)
  else (doneOk, ((s.fput kPwrLimit fPwrLimit_PL1 pl1).fput kPwrLimit fPwrLimit_PL2 pl2).fput kPwrLimit fPwrLimit_TAU tau)

/-- PARK (R506). -/
def State.park (s : State) (z : ZCmd) (d : Nat) : ZDo × State :=
  match s.heldOn d with
  | some b => (.fail zBusySecure ((d <<< 8) + b), s.holdRefused 0 d b (z.f 0 2))
  | none =>
    if !(dieCores d).all (s.coreDeep 3) then (.fail zBusy 0, s)
    else
      let s := if s.dstate d = 2 then s else s.dieSleep d
      (doneOk, s.fput (kPwrDctl d) fPwrDctl_PARKED 1)

/-- UNPARK (R506): the die wakes and each core acts on its pending wake condition. -/
def State.unpark (s : State) (d : Nat) : State :=
  if !s.parked d then s
  else
    let s := s.fput (kPwrDctl d) fPwrDctl_PARKED 0
    if s.dieOut d then s
    else (s.dieRouse d [(9, d)]).each (dieCores d) (fun s n => coreWakeRun n s)

/-- PWR_SET_STATE. -/
def hPwrState : Handler := fun _ z s =>
  let d := z.f 17 1
  match z.f 16 1 with
  | 0 => if z.f 18 1 > 2 then (badParam 0, s) else (doneOk, s.fput kPwrPkg fPwrPkg_MAXPS (z.f 18 1))
  | 1 => if d > 11 ∨ z.f 20 2 < 32 ∨ z.f 20 2 > 168 then (badParam 0, s)
    else (doneOk, (s.fput (kClkCdctl d) fClkCdctl_TARGET (z.f 20 2)).pwrEval d)
  | 2 => if d > 11 then (badParam 0, s) else s.park z d
  | 3 => if d > 11 then (badParam 0, s) else (doneOk, s.unpark d)
  | _ => (badParam 0, s)

/-! ### The Wear Log (R518–R520, R543) -/

/-- A record of the Wear Log. -/
def wearBytes (typ die index : Nat) (data : List Byte) : List Byte :=
  leBytes 2 typ ++ leBytes 2 8 ++ leBytes 1 die ++ leBytes 1 index ++ [0, 0] ++ sliceB data 0 8

/-- The dies of the Wear Log. -/
def wearDies : List Nat := List.range 12 ++ [15]

/-- The passes that a die's received record carries. -/
def State.wearPasses (s : State) (die : Nat) : Nat :=
  match s.plat.wear.find? (fun r => decide (r.typ = 1 ∧ r.die = die)) with
  | some r => fieldB r.data 4 4
  | none => 0

/-- A DIEGUARD record; the IOD has no FMAX. -/
def State.wearGuard (s : State) (die : Nat) : List Byte :=
  let floor := if die = 15 then s.fget kPwrIodv fPwrIodv_GFLOOR else s.fget (kPwrDstat die) fPwrDstat_GFLOOR
  let fmax := if die = 15 then 0 else s.fmax die (s.wantGuard die)
  wearBytes 1 die 0 (leBytes 2 floor ++ leBytes 1 fmax ++ [0] ++
    leBytes 4 (s.wearPasses die + s.fget kGrcBrk fGrcBrk_PASSES))

/-- The SENSOR records of a die. -/
def State.wearSensors (s : State) (die : Nat) : List Byte :=
  (List.range 64).flatMap fun i =>
    let v := if isCpr die i then margin16' (SMap.get (fun _ => (0x7FFF : Int)) s.pwr.cprMin (die * 64 + i))
      else s.fget (kGrcSens die i) fGrcSens_EXT
    wearBytes 2 die i (leBytes 2 v)

/-- A DRAMREC record. Its recommended Vref values are free (log 35); its RATE is the channel's, or after
two passes below 12 steps the next lower one that suits its modules (Table 17-8). -/
def State.wearDram (s : State) (ch : Nat) : List Byte × State :=
  let f := s.fresh
  let n := SMap.get (fun _ => 0) s.pwr.passes ch
  let rate := (s.chanRec ch).rate
  (wearBytes 3 15 ch (leBytes 2 (f.1.toNat % 65536) ++ leBytes 1 (if n ≥ 2 ∧ rate ≠ 3 then rate - 1 else rate) ++ leBytes 1 n), f.2)

/-- The current Wear Log. -/
def State.wearLog (s : State) : List Byte × State :=
  let chans := (List.range 16).filter (fun ch => (s.chanRec ch).present)
  let d := chans.foldl (fun (a : List Byte × State) ch =>
    let p := a.2.wearDram ch
    (a.1 ++ p.1, p.2)) ([], s)
  (leBytes 4 0x4C575248 ++ [1, 0, 0, 0] ++ leBytes 8 s.fuses.serial.toNat ++ leBytes 4 (s.plat.wearGen + 1) ++
    List.replicate 12 0 ++ wearDies.flatMap s.wearGuard ++ wearDies.flatMap s.wearSensors ++ d.1 ++
    s.ras.perm.flatMap (fun e => wearBytes 0x101 (elemDie e) 0 (leBytes 4 e)) ++
    s.ras.retired.flatMap (fun u => wearBytes 0x102 u.1 0 (leBytes 1 u.2)), d.2)

/-- The values of every GRC_SENS register: CD0 to CD11, then the IOD (log 35). -/
def State.sensors (s : State) : List Byte :=
  wearDies.flatMap fun d => (List.range 64).flatMap fun i => leBytes 8 (s.rd (kGrcSens d i)).toNat

/-- GRC_READ. -/
def hGrcRead : Handler := fun _ z s =>
  let len := z.f 32 4
  let op := z.f 16 1
  if op > 1 then (badParam 0, s)
  else if !s.bufOk z (z.f 24 8) len then (badParam dBuffer, s)
  else
    let b := if op = 0 then (s.sensors, s) else s.wearLog
    if len < b.1.length then (.fail zNoSpace 0, s)
    else match b.2.zwrite z (z.f 24 8) b.1 with
      | (.ok _ _, s) => (.done 0 (leBytes 4 b.1.length), s)
      | (r, w) => (r.fail, w)

-- EXEC: CORE_WAKE DIE_STATE_ENTRY DIE_WAKE PACKAGE_STATE_ENTRY PACKAGE_STATE_EXIT AVSBUS_TIMEOUT WAKE_PATTERN
/-- CORE_WAKE (R504): the effect of a well-formed command. -/
def execCoreWake (core : Nat) (s : State) : Res := runs (wfCore core) (coreWakeRun core) s

/-- DIE_STATE_ENTRY (R505): the effect of a well-formed command. -/
def execDieStateEntry (die : Nat) (s : State) : Res := runs (wfCd die) (dieStateEntryRun die) s

/-- DIE_WAKE (R505): the effect of a well-formed command. -/
def execDieWake (die : Nat) (codes : List (Nat × Nat)) (s : State) : Res :=
  runs (wfCd die) (dieWakeRun die codes) s

/-- PACKAGE_STATE_ENTRY (R507): the effect of a well-formed command. -/
def execPackageStateEntry (s : State) : Res := runs true packageStateEntryRun s

/-- PACKAGE_STATE_EXIT (R507): the effect of a well-formed command. -/
def execPackageStateExit (codes : List (Nat × Nat)) (s : State) : Res :=
  runs true (packageStateExitRun codes) s

/-- AVSBUS_TIMEOUT (R500): the effect of a well-formed command. -/
def execAvsbusTimeout (rail : Nat) (s : State) : Res :=
  runs (decide (rail < 13)) (avsbusTimeoutRun rail) s

/-- WAKE_PATTERN (R247): the effect of a well-formed command. -/
def execWakePattern (e : LinkEnd) (s : State) : Res := runs e.wf (wakePatternRun e) s
-- END EXEC

end Sys2Proof.Machine
end

