-- ==== Sys2Proof/Machine/Observe.lean ====
section
/-! DEFINITION.
The Contact Sheet, Test Strip and Agitation (spec/19). -/

namespace Sys2Proof.Machine

/-! ### Counters in sheets (R549–R554) -/

/-- The dies in the order of a sheet (R552). -/
def sheetDies : List Nat := List.range 12 ++ [15]

/-- The addresses of the counters of one block, then of a selection of dies and blocks. -/
def blockCounters (die blk : Nat) : List Nat := (List.range (evtCount die blk)).map (kEvt die blk)
/-- The counters of a selection: die and block, 0xFF for all. -/
def countersOf (die blk : Nat) : List Nat :=
  (sheetDies.filter (fun d => decide (die = 0xFF ∨ d = die))).flatMap fun d =>
    ((List.range 256).filter (fun b => decide (blk = 0xFF ∨ b = blk))).flatMap (blockCounters d)

/-- A counter as a sheet holds it: COUNT and SAT. -/
def State.counterVal (s : State) (k : Nat) : Nat :=
  s.fget k fEvtCnt_COUNT + (if s.fon k fEvtCnt_SAT then 2 ^ 63 else 0)

/-- The 64 bytes of a sheet header (Table 19-2). -/
def State.sheetHeader (s : State) (delta full gap : Bool) (k n t last lost : Nat) : List Byte :=
  let bit (b : Bool) (i : Nat) : Nat := if b then 2 ^ i else 0
  leBytes 4 0x54435348 ++ [1] ++ leBytes 1 (bit delta 0 + bit full 1 + bit s.drCount 2 + bit gap 3) ++ [0, 0] ++
  leBytes 4 k ++ leBytes 4 n ++ leBytes 8 t ++ leBytes 8 last ++ leBytes 8 lost ++
  leBytes 8 (s.rd kMgtEffcap).toNat ++ List.replicate 16 0

/-- One delta value (R553). -/
def deltaOf (new old : Nat) : Nat :=
  let d := new % 2 ^ 48 - old % 2 ^ 48
  if new % 2 ^ 48 < old % 2 ^ 48 ∨ d > 0xFFFFFFFE ∨ (new ≥ 2 ^ 63 ∧ old < 2 ^ 63) then 0xFFFFFFFF else d

/-- The number of counters of the package (R544). -/
def nCount : Nat := 10284
/-- The bytes of a slot of the buffer (R550). -/
def sheetSlot : Nat := 64 * ceilDiv (64 + 8 * nCount) 64

def SheetRun.delta (r : SheetRun) : Bool := decide (r.z.f 16 1 % 2 = 1)
def SheetRun.period (r : SheetRun) : Nat := r.z.f 20 4
def SheetRun.sheets (r : SheetRun) : Nat := r.z.f 32 4
/-- When sample `next` is due. -/
def SheetRun.due (r : SheetRun) : Nat := r.t0 + r.next * r.period * 1000

/-- The bytes of the sheet being written. -/
def State.sheetBytes (s : State) (r : SheetRun) (w : Sample) : List Byte :=
  let full := !r.delta || decide (w.k % 256 = 0) || r.gap || r.last.isNone
  let values := match full, r.last with
    | false, some o => (w.values.zip o.values).flatMap fun p => leBytes 4 (deltaOf p.1 p.2)
    | _, _ => w.values.flatMap (leBytes 8)
  s.sheetHeader r.delta full r.gap w.k nCount w.t (match r.last with | some o => o.t | none => 0) r.lost ++ values

/-- Set the running Contact Sheet and show it. -/
def State.setSheet (s : State) (r : Option SheetRun) : State :=
  let s : State := { s with cnt := { s.cnt with sheet := r } }
  match r with
  | some r => (s.fput kCshStat fCshStat_RUN 1).fput kCshStat fCshStat_LOST (min r.lost 65535)
  | none => (s.fput kCshStat fCshStat_RUN 0).fput kCshStat fCshStat_DELTA 0

/-- A stopped Contact Sheet that writes no sheet ends, and the stops reply. -/
def State.sheetEnd (s : State) : State := match s.cnt.sheet with
  | some r =>
    if r.stopped && r.writing.isNone then
      let res := leBytes 4 (s.fget kCshStat fCshStat_WRITTEN) ++ leBytes 4 r.lost
      (s.setSheet none).each r.stops fun s id => s.final id zDone 0 res
    else s
  | none => s

/-- A due sample is taken into the shadow copy, or lost (R551). -/
def State.takeSample (s : State) (r : SheetRun) : State :=
  let open' := (s.fget kCshStat fCshStat_WRITTEN + 2 ^ 32 - s.fget kCshHead fCshHead_CONSUMED) % 2 ^ 32
  if r.writing.isSome ∨ open' = r.sheets then
    s.setSheet (some { r with next := r.next + 1, lost := r.lost + 1, gap := true })
  else
    let w : Sample := ⟨r.next, s.time, (countersOf 0xFF 0xFF).map s.counterVal⟩
    s.setSheet (some { r with next := r.next + 1, writing := some w })

/-- CONTACT_SHEET_SAMPLE (R549). -/
def contactSheetSampleRun (s : State) : State := match s.cnt.sheet with
  | some r => if r.stopped ∨ s.time < r.due then s else s.takeSample r
  | none => s

/-- SHEET_WRITTEN (R551): every byte is written before WRITTEN counts the sheet; a buffer fault stops the
Contact Sheet with ERR (R550). -/
def sheetWrittenRun (s : State) : State := match s.cnt.sheet with
  | none => s
  | some r => match r.writing with
    | none => s
    | some w =>
      match s.zwrite r.z (r.z.f 24 8 + (w.k % r.sheets) * sheetSlot) (s.sheetBytes r w) with
      | (.ok _ _, s) =>
        let n := (s.fget kCshStat fCshStat_WRITTEN + 1) % 2 ^ 32
        let s := s.fput kCshStat fCshStat_WRITTEN n
        let open' := (n + 2 ^ 32 - s.fget kCshHead fCshHead_CONSUMED) % 2 ^ 32
        let s := if open' = r.sheets / 2 ∨ open' = r.sheets then (s.vecSp 6).signal (r.z.f 36 2) else s
        ((s.setSheet (some { r with writing := none, gap := false, last := some w })).sheetEnd).zciFlush
      | (.wait, s) => s
      | (_, s) =>
        (((s.fput kCshStat fCshStat_ERR 1).setSheet (some { r with writing := none, stopped := true })).sheetEnd).zciFlush

/-- CSH_START. -/
def hCshStart : Handler := fun _ z s =>
  let period := z.f 20 4
  let sheets := z.f 32 4
  if period < 100 ∨ period > 1000000 ∨ sheets < 2 ∨ sheets > 65536 then (badParam 0, s)
  else if !s.bufOk z (z.f 24 8) (sheets * sheetSlot) then (badParam dBuffer, s)
  else if z.f 16 1 % 2 = 1 ∧ !(s.rd kMgtEffcap).getLsbD 18 then (.fail zNotPermitted 0, s)
  else if s.cnt.sheet.isSome then (.fail zBusy 0, s)
  else
    let r : SheetRun := ⟨z, s.time, 0, none, 0, false, [], false, none⟩
    let s := (s.wr kCshHead 0).fput kCshStat fCshStat_WRITTEN 0
    (doneOk, (s.fput kCshStat fCshStat_DELTA (z.f 16 1 % 2)).setSheet (some r))

/-- CSH_STOP: a sample that falls due now is still taken; with none running the reply repeats the counts
(DEDUCED, log 36). -/
def hCshStop : Handler := fun id _ s => match s.cnt.sheet with
  | none => (.done 0 (leBytes 4 (s.fget kCshStat fCshStat_WRITTEN) ++ leBytes 4 (s.fget kCshStat fCshStat_LOST)), s)
  | some _ =>
    let s := contactSheetSampleRun s
    match s.cnt.sheet with
    | some r => (.later, (s.setSheet (some { r with stopped := true, stops := r.stops ++ [id] })).sheetEnd)
    | none => (.later, s)

/-- EVT_SNAPSHOT (R554). A selection that holds no counter ends with BAD_PARAM (DEDUCED, log 36). -/
def hSnapshot : Handler := fun _ z s =>
  let die := z.f 16 1
  let ks := countersOf die (z.f 17 1)
  let len := z.f 32 4
  let n := 64 + 8 * ks.length
  if ks.isEmpty then (badParam 0, s)
  else if !s.bufOk z (z.f 24 8) len then (badParam dBuffer, s)
  else if len < n then (.fail zNoSpace 0, s)
  else
    let b := s.sheetHeader false true false 0 ks.length s.time 0 0 ++ ks.flatMap (fun k => leBytes 8 (s.counterVal k))
    match s.zwrite z (z.f 24 8) b with
    | (.ok _ _, s) => (.done 0 (leBytes 4 n), s)
    | (r, s) => (r.fail, s)

/-! ### Test Strip (R556–R563) -/

/-- What Table 19-4 says of a target. -/
inductive Target where
  | core | slice | die | channel | link | group
  deriving DecidableEq, Repr

/-- The target that a die and block name. -/
def targetOf (die blk : Nat) : Option Target :=
  if die < 12 then
    (if blk < 0x12 then some .core else if 0x70 ≤ blk ∧ blk < 0x80 then some .slice
     else if blk = 0xFF then some .die else none)
  else if die = 15 then
    (if 0x60 ≤ blk ∧ blk < 0x70 then some .channel else if 0x30 ≤ blk ∧ blk < 0x3C then some .link
     else if 0x10 ≤ blk ∧ blk < 0x18 then some .group else none)
  else none

/-- The kinds that a target takes: 0 MARCH, 1 SCAN, 2 LANE. -/
def Target.kinds : Target → List Nat
  | .core | .die => [0, 1]
  | .slice | .channel => [0]
  | .link | .group => [2]

/-- Whether a target is isolated as Table 19-4 requires. -/
def State.isolated (s : State) (t : Target) (die blk : Nat) : Bool :=
  match t with
  | .core => s.coreOut (18 * die + blk) || decide (s.cstate (18 * die + blk) = 3)
  | .slice => true
  | .die => s.parked die || s.dieOut die
  | .channel => decide ((s.unit 15 blk).st = .retired) || (s.setOf (blk - 0x60)).all (fun n => s.enl.withheld.contains n)
  | .link => s.parked (blk - 0x30) || s.dieOut (blk - 0x30)
  | .group => decide (s.role (blk - 0x10) = 0)

/-- Whether debug authorisation or the lifecycle state opens SCAN and Agitation (R555, R557, R564). -/
def State.debugOpen (s : State) : Bool :=
  decide (s.fuses.lifecycle = 1) ||
  (decide (s.fuses.lifecycle = 2 ∨ s.fuses.lifecycle = 3) && s.fon kWldLife fWldLife_DBGAUTH)

/-- What a SCAN leaves of a core (R558): the save array keeps its architectural state and its locked translations, unless
they are scanned too. -/
def Core.scanned (c : Core) (n : Nat) (saved : Bool) : Core :=
  let r := coreReset n
  if saved then
    { c with sb := [], fabric := [], deferred := [], dev := [], nearTry := none, pred := [], caches := r.caches,
             tlbs := ⟨[], [], [], c.tlbs.locked, [], []⟩ }
  else r

/-- Whether a SCAN of a target reaches a register.  Its value is zero while the test runs and its reset value from the
BLOCK reset on (R558, R561); CORE_ID shows the unit's state, and the power and link registers of a die hold the state to
which it returns (DESIGN CHOICE, log 36). -/
def scanReg (die blk k : Nat) : Bool :=
  let b := pcsBlock k
  decide (pcsDie k = die) && !(decide (b < 0x12) && decide (pcsOff k = 0)) &&
  (if blk = 0xFF then !decide (b = 0x20 ∨ b = 0x21 ∨ b = 0x30)
   else decide (b = blk ∨ b = 0x40 + blk ∨ b = 0x58 + blk ∨ b = 0x88 + blk))

/-- A SCAN zeroes every storage Element of its target first (R558). -/
def State.scanZero (s : State) (die blk : Nat) : State :=
  let cores := if blk = 0xFF then dieCores die else [18 * die + blk]
  let saved := decide (blk ≠ 0xFF) || !s.dieOut die
  let s := s.each cores fun s n => s.setCore n ((s.core n).scanned n saved)
  let s := if blk = 0xFF then s.each (dieSlices die) (fun s g => s.setL3 g []) else s
  { s with pcs := s.pcs.filter (fun p => !scanReg die blk p.1) }

/-- A test starts: its target is isolated, a SCAN zeroes it, and a die under test gets its rail and clock (R556, R558,
R559). -/
def State.testStart (s : State) (id die blk kind n voff : Nat) : State :=
  let s : State := { s with cnt := { s.cnt with test := some ⟨id, die, blk, kind, n, voff⟩, results := [] } }
  let v := fTstStat_KIND.put (fTstStat_BLOCK.put (fTstStat_DIE.put (fTstStat_RUN.put 0 1) die) blk) kind
  let s := s.wr kTstStat v
  let s := if kind = 1 then s.scanZero die blk else s
  match targetOf die blk with
  | some .slice => (s.drainL3 (16 * die + (blk - 0x70))).drainWb
  | some .die => s.pwrEval die
  | some .channel => s.fput (kMcStat (blk - 0x60)) fMcStat_STATE 0
  | _ => s

/-- TST_RUN. The order of the checks is DEDUCED (log 36): parameters, target and kind, hold, isolation. -/
def hTstRun : Handler := fun id z s =>
  let die := z.f 16 1; let blk := z.f 17 1; let kind := z.f 18 1
  let n := z.f 20 2; let voff := z.f 22 2; let ms := z.f 24 4
  let v := margin16 voff
  if kind > 2 ∨ (n ≠ 0 ∧ (n < 32 ∨ n > 168)) ∨ v < -100 ∨ v > 50 ∨ ms < 1 ∨ ms > 60000 then (badParam 0, s)
  else match targetOf die blk with
    | none => (.fail zNotPermitted 0, s)
    | some t =>
      if t ≠ .die ∧ (n ≠ 0 ∨ voff ≠ 0) then (badParam 0, s)
      else if !t.kinds.contains kind ∨ (kind = 1 ∧ !s.debugOpen) then (.fail zNotPermitted 0, s)
      else match s.heldUnit die blk with
        | some b => (.fail zBusySecure ((die <<< 8) + b), s.holdRefused 0 die b (z.f 0 2))
        | none =>
          if s.cnt.test.isSome ∨ !s.isolated t die blk then (.fail zBusy 0, s)
          else (.later, s.testStart id die blk kind n voff)

/-- A test that completes or is abandoned; a core's held wake then acts (R561). -/
def State.testOver (s : State) (complete : Bool) (found : List TestEntry) : State :=
  match s.cnt.test with
  | none => s
  | some t =>
    let s := s.testFinish complete found
    (match targetOf t.die t.block with
     | some .core => coreWakeRun (18 * t.die + t.block) s
     | _ => s).zciFlush

/-- TEST_END (R561). -/
def testEndRun (found : List TestEntry) (s : State) : State := s.testOver true found
/-- TEST_TIMEOUT (R560). -/
def testTimeoutRun (found : List TestEntry) (s : State) : State := s.testOver false found

/-- TST_RESULT. -/
def hTstResult : Handler := fun _ z s =>
  let len := z.f 32 4
  if len % 16 ≠ 0 then (badParam 0, s)
  else if !s.bufOk z (z.f 24 8) len then (badParam dBuffer, s)
  else
    let l := (s.cnt.results.drop (z.f 20 2)).take (len / 16)
    match s.zwrite z (z.f 24 8) (l.flatMap testBytes) with
    | (.ok _ _, s) => (.done 0 (leBytes 4 l.length), s)
    | (r, s) => (r.fail, s)

/-! ### Agitation (R564–R568) -/

/-- Whether a target and values suit a kind (Table 19-6). -/
def agtFits (kind die blk value every cls : Nat) : Bool :=
  let io (lo n : Nat) : Bool := decide (die = 15 ∧ lo ≤ blk ∧ blk < lo + n)
  let scl := decide (die < 12 ∧ blk = 0x30) || io 0x30 12
  let ev := decide (1 ≤ every ∧ every ≤ 4095)
  match kind with
  | 0 => (scl || io 0x80 32 || io 0x60 16 || io 0x10 8 || io 0x1A 2 || io 0x1C 1 || io 0xC0 32) && ev && decide (value ≤ 4095)
  | 1 => scl && ((decide (cls = 0xFF) && decide (1 ≤ value ∧ value ≤ 432)) || (decide (cls ≤ 4) && decide (1 ≤ value ∧ value ≤ 15)))
  | 2 => scl && decide (2 ≤ value ∧ value ≤ 4095)
  | 3 => io 0x80 32 && ev && decide (value ≤ 4095)
  | 4 => (io 0x60 16 || io 0xC0 32 || io 0x1A 2 || io 4 1) && ev && decide (value ≤ every)
  | _ => false

/-- Set or clear a slot, and show how many are in use. -/
def State.setAgt (s : State) (i : Nat) (v : Word) : State :=
  let s := s.wr (kAgtSlot i) v
  let s : State := { s with cnt := { s.cnt with agt := SMap.put (fun _ => 0) s.cnt.agt i 0 } }
  s.fput kAgtCtl fAgtCtl_ACTIVE ((List.range 64).filter (fun j => s.fon (kAgtSlot j) fAgtSlot_V)).length

/-- AGT_SET. -/
def hAgtSet : Handler := fun _ z s =>
  let i := z.f 16 1; let kind := z.f 17 1; let die := z.f 18 1; let blk := z.f 19 1
  let value := z.f 20 2
  let every := if kind = 1 ∨ kind = 2 then 0 else z.f 22 2
  let cls := if kind = 1 then z.f 24 1 else 0
  if !s.debugOpen then (.fail zNotPermitted 0, s)
  else if i > 63 ∨ !agtFits kind die blk value every cls then (badParam 0, s)
  else if s.held die blk then (.fail zBusySecure ((die <<< 8) + blk), s.holdRefused 0 die blk (z.f 0 2))
  else
    let s := s.extend 11 8 (leBytes 1 1 ++ leBytes 1 i ++ leBytes 1 kind ++ leBytes 1 die ++ leBytes 1 blk ++
      leBytes 1 cls ++ leBytes 2 value ++ leBytes 2 every)
    let v := fAgtSlot_BLOCK.put (fAgtSlot_DIE.put (fAgtSlot_KIND.put (fAgtSlot_V.put 0 1) kind) die) blk
    (doneOk, s.setAgt i (fAgtSlot_VALUE.put (fAgtSlot_EVERY.put (fAgtSlot_CLASS.put v cls) every) value))

/-- AGT_CLEAR. -/
def hAgtClear : Handler := fun _ z s =>
  let i := z.f 16 1
  if i > 63 ∧ i ≠ 0xFF then (badParam 0, s)
  else
    let s := s.extend 11 8 (leBytes 1 2 ++ leBytes 1 i ++ List.replicate 8 0)
    (doneOk, s.each (if i = 0xFF then List.range 64 else [i]) fun s j => s.setAgt j 0)

-- EXEC: CONTACT_SHEET_SAMPLE SHEET_WRITTEN TEST_TIMEOUT TEST_END
/-- CONTACT_SHEET_SAMPLE (R549): the effect of a well-formed command. -/
def execContactSheetSample (s : State) : Res := runs true contactSheetSampleRun s

/-- SHEET_WRITTEN (R551): the effect of a well-formed command. -/
def execSheetWritten (s : State) : Res := runs true sheetWrittenRun s

/-- TEST_TIMEOUT (R560): the effect of a well-formed command. -/
def execTestTimeout (found : List TestEntry) (s : State) : Res := runs true (testTimeoutRun found) s

/-- TEST_END (R561): the effect of a well-formed command. -/
def execTestEnd (found : List TestEntry) (s : State) : Res := runs true (testEndRun found) s
-- END EXEC

end Sys2Proof.Machine
end

