-- ==== Sys2Proof/Machine/Pcs.lean ====
section
/-! DEFINITION.
The Package Control Space: reads, write admission (R441), access codes (R13, R573), and what a write
of each register with a behaviour of its own does (R9–R15, R569–R574). -/

namespace Sys2Proof.Machine

/-! ### Reaching a register (R505, R571) -/

/-- Whether an access reaches the register, is answered by the IOD end of the link, or waits. -/
inductive PcsPath where
  | open | dark | wait
  deriving DecidableEq, Repr

/-- The way to a register: a compute-die access wakes a die in DS3 that is not parked. -/
def State.pcsPath (s : State) (k : Nat) : PcsPath × State :=
  let d := pcsDie k
  if d ≥ 12 then (.open, s)
  else
    let s := if s.dstate d = 2 && !s.parked d && !s.dieOut d then s.dieRouse d [(8, d)] else s
    let i : LinkEnd := ⟨true, d⟩
    if s.parked d || s.dieOut d || (s.lk i).dead || decide (s.lkState i = 0) then (.dark, s)
    else if s.lkState i = 1 ∨ s.lkState i = 3 then (.wait, s) else (.open, s)

/-- The registers whose last values the IOD end keeps: CORE_ID, CORE_STOP, SCL_LOCALCAP, EVT_CNT. -/
def pcsKept (k : Nat) : Bool :=
  (decide (pcsBlock k < 0x12) && decide (pcsOff k < 16)) || (decide (pcsBlock k = 0x30) && decide (pcsOff k = 0)) ||
  decide (0x3000 ≤ pcsOff k ∧ pcsOff k < 0x3100)

/-- A register that reads as zero and drops writes because its block is under test (R561). -/
def State.pcsTested (s : State) (k : Nat) : Bool :=
  s.underTest (pcsDie k) (pcsBlock k) && !decide (0x3000 ≤ pcsOff k ∧ pcsOff k < 0x3100)

/-! ### Reads -/

/-- The registers of the Enlarger that show its present totals. -/
def State.enlView (s : State) (k : Nat) : Word :=
  let (t0, f0, t1, f1, units, ovh) := s.enlTotals
  let v := s.rd k
  let n (x : Nat) : Word := BitVec.ofNat 64 x
  match pcsOff k with
  | 0x10 => fEnlStat_QCMD.put (fEnlStat_SLOTS.put v s.enl.slots.length) (min 256 s.enl.cmds.length)
  | 0x20 => n (min f0 (2 ^ 32 - 1) * 2 ^ 32 + min t0 (2 ^ 32 - 1))
  | 0x28 => n t1
  | 0x30 => n f1
  | 0x38 => n units
  | 0x40 => n ovh
  | 0x48 => fEnlPinlim_PINNED.put v s.pinCount
  | 0x50 => match s.enl.evacs with
    | [] => v
    | e :: _ =>
      let left := (s.enl.used.filter (fun p => inSpan (s.evacSpan e) p.1)).length
      fEnlEvac_REMAIN.put (fEnlEvac_SET.put (fEnlEvac_TIER.put (fEnlEvac_ACTIVE.put v 1) e.tier) e.set) (min left (2 ^ 32 - 1))
  | _ => v

/-- The effective holds of 64 blocks (R442). -/
def State.eholdView (s : State) (j : Nat) : Word :=
  let die := if j / 4 = 12 then 15 else j / 4
  BitVec.ofNat 64 ((List.range 64).foldl (fun a b => if s.held die (64 * (j % 4) + b) then a + 2 ^ b else a) 0)

/-- The registers of the IOD that show state kept elsewhere. `deep`: the reader is Safelight or a
Darkroom core (R439). -/
def State.iodView (s : State) (deep : Bool) (k : Nat) : Word :=
  let b := pcsBlock k
  let o := pcsOff k
  let v := s.rd k
  if o ≥ 0x3000 then v
  else if b = 1 ∧ o = 0x100 then s.fuses.iodWord
  else if b = 2 ∧ o = 8 then fWldLife_STATE.put v s.fuses.lifecycle
  else if b = 2 ∧ o = 0x18 then fWldWdog_ELAPSED.put v (min ((s.time - s.wld.kicked) / 1000000) (2 ^ 32 - 1))
  else if b = 2 ∧ 0x400 ≤ o ∧ o < 0x400 + 8 * 52 then s.eholdView ((o - 0x400) / 8)
  else if b = 4 ∧ (o = 0x40 ∨ o = 0x48) then BitVec.ofNat 64 (s.fuses.repair[(o - 0x40) / 8]?.getD 0)
  else if b = 5 ∧ o = 0x20 then fPwrIodv_VMAX.put v s.fuses.iodVmax
  else if b = 0xC ∧ 0x100 ≤ o then
    fAgtSlot_SUSP.put v (if fAgtSlot_V.on v && s.held (fAgtSlot_DIE.get v) (fAgtSlot_BLOCK.get v) then 1 else 0)
  else if b = 0x18 ∧ o = 0x10 then (s.fwtEnt (s.fget kFwtSel fFwtSel_INDEX)).1
  else if b = 0x18 ∧ o = 0x18 then (s.fwtEnt (s.fget kFwtSel fFwtSel_INDEX)).2
  else if 0xA0 ≤ b ∧ b < 0xC0 ∧ o = 0 then s.dirStat (b - 0xA0)
  else if b = 0x50 then s.enlView k
  else if b = 0x51 ∧ o = 8 then
    fCdnStat_SVCQ.put v (s.zci.outs.filter (fun x => decide (x.z.f 0 2 / 256 = 0x11))).length
  else if 0x60 ≤ b ∧ b < 0x70 ∧ k = kMcErrlog1 (b - 0x60) then
    (if deep then v else 0)
  else v

/-- The registers of a compute die that show fuses and the state of the die. -/
def State.dieView (s : State) (k : Nat) : Word :=
  let d := pcsDie k
  let b := pcsBlock k
  let o := pcsOff k
  let v := s.rd k
  if o ≥ 0x3000 then v
  else if b < 0x12 ∧ o = 0 then
    let v := fCoreId_SOCKET.put (fCoreId_DIE.put (fCoreId_LOCAL.put (fCoreId_CORE.put v (18 * d + b)) b) d) s.sock
    v
  else if b = 0x20 ∧ o < 0x40 then
    let p := (s.points d)[o / 8]?.getD (0, 0)
    fPwrVf_N.put (fPwrVf_MV.put 0 p.2) p.1
  else if b = 0x20 ∧ o = 0x48 then fPwrDstat_VMAX.put v (s.vmax d)
  else if b = 0x21 ∧ o = 0 then fClkCdctl_FMAX.put v (s.fmax d (s.wantGuard d))
  else if b = 0x30 ∧ o = 0 then s.fuses.cdWord[d]?.getD 0
  else v

/-- Whether an agent is Safelight or a Darkroom core. -/
def State.deepAgent (s : State) : Agent → Bool
  | .core n => if n < 216 then (s.core n).darkW else decide (n = 216)
  | .device => false

/-- A read of 4 or 8 aligned bytes (R10, R11, R571): the value, or a wait. -/
def State.pcsRead (s : State) (agent : Agent) (off size : Nat) : Option Word × State :=
  let k := off / 8 * 8
  if agent = .device ∨ (size ≠ 4 ∧ size ≠ 8) ∨ off % size ≠ 0 then (some 0, s)
  else match regDefAt k with
    | none => (some 0, s)
    | some _ =>
      let part (v : Word) : Word := if size = 8 then v else (v >>> (8 * (off % 8))) &&& 0xFFFFFFFF#64
      match s.pcsPath k with
      | (.wait, s) => (none, s)
      | (.dark, s) => (some (part (if pcsKept k then s.dieView k else 0)), s)
      | (.open, s) =>
        let v := if s.pcsTested k then 0
          else if pcsDie k = 15 then s.iodView (s.deepAgent agent) k else s.dieView k
        (some (part v), s)

/-! ### Write admission (R441) -/

/-- Whether an agent may write a register (Table 14-5). -/
def State.pcsAdmits (s : State) (agent : Agent) (k : Nat) : Bool :=
  let b := pcsBlock k
  let iod := decide (pcsDie k = 15)
  let evt := decide (0x3000 ≤ pcsOff k ∧ pcsOff k ≤ 0x3100)
  match agent with
  | .device => false
  | .core n =>
    if n = 216 then true
    else if n > 216 then
      evt || (if iod then decide (b = 5 ∨ b = 6 ∨ b = 7 ∨ b = 0xA) else decide (b = 0x20 ∨ b = 0x21 ∨ b = 0x22))
    else if (s.core n).darkW then !(iod && decide (b = 2) && decide (pcsOff k = 8 ∨ pcsOff k = 0x18))
    else !(iod && decide (b = 1 ∨ b = 2 ∨ b = 3 ∨ b = 0x52 ∨ b = 0xB ∨ b = 0xC))

/-- A dropped write is counted and held (R441). -/
def State.pcsRefuse (s : State) (agent : Agent) (off : Nat) : State :=
  let a := match agent with
    | .core n => if n > 216 then 1 else if (s.core n).darkW then 3 else 2
    | .device => 0
  let v := s.rd kWldPcsref
  let s := if fWldPcsref_VALID.on v then s else
    s.wr kWldPcsref (fWldPcsref_OFFSET.put (fWldPcsref_BLOCK.put (fWldPcsref_DIE.put (fWldPcsref_AGENT.put
      (fWldPcsref_VALID.put v 1) a) (pcsDie off)) (pcsBlock off)) (pcsOff off))
  (s.fadd kWldPcsref fWldPcsref_COUNT 1).evt 15 2 3

/-! ### Access codes (R13, R573) -/

/-- The stored value after a write of the bits of `m`: RWL fields are written while their lock is clear. -/
def RegDef.written (d : RegDef) (locked : Bool) (old v m : Word) : Word :=
  let bits (n : Nat) : Word := BitVec.ofNat 64 n &&& m
  let set := bits (d.rw ||| d.rws) ||| (if locked then 0 else bits d.rwl)
  ((old &&& ~~~ set) ||| (v &&& set)) &&& ~~~ (v &&& bits d.w1c) ||| (v &&& bits d.w1s)

/-- Whether the lock of a register's RWL fields is set; FIO_FCTL is locked by FIO_GCFG. -/
def State.pcsLocked (s : State) (k : Nat) (d : RegDef) : Bool :=
  if d.name = "FIO_FCTL" then s.fon (kFioGcfg (pcsBlock k - 0x10)) fFioGcfg_LOCK
  else decide (s.rd k &&& BitVec.ofNat 64 d.lock ≠ 0)

/-! ### Registers with a behaviour of their own -/

/-- L1C_CTL: a structure that the write disables is emptied first. -/
def State.writeL1c (s : State) (n : Nat) (old new : Word) : State :=
  let s := if fL1cCtl_VCEN.on old && !fL1cCtl_VCEN.on new then s.vcEmpty n else s
  if fL1cCtl_SBEN.on old && !fL1cCtl_SBEN.on new then
    let c := (s.core n).caches
    s.setCaches n (c.sbuf.foldl CoreCaches.vcOut { c with sbuf := [] })
  else s

/-- The bits set in a value below bit 16. -/
def ones16 (v : Nat) : Nat := ((List.range 16).filter (fun i => v.testBit i)).length

/-- A value that a register does not take: it keeps the bits that it ignores (R158, R168, R192). -/
def pcsIgnores (d : RegDef) (old new : Word) : Word :=
  if d.name = "L1C_LFSR" then
    let a := if new.toNat % 65536 = 0 then old.toNat % 65536 else new.toNat % 65536
    let b := if new.toNat / 65536 % 65536 = 0 then old.toNat / 65536 % 65536 else new.toNat / 65536 % 65536
    BitVec.ofNat 64 (b * 65536 + a)
  else if (d.name = "L3C_LFSR" ∨ d.name = "DIR_LFSR") ∧ new.toNat % 65536 = 0 then old
  else if d.name = "L3C_LOCK" ∧ ones16 new.toNat > 8 then old ||| BitVec.ofNat 64 (2 ^ 63)
  else if (d.name = "WLD_PCSREF" ∨ d.name = "WLD_HOLDLOG") ∧ fWldPcsref_VALID.on old ∧ !fWldPcsref_VALID.on new then
    fWldPcsref_COUNT.put new 0
  else new

/-- IOTU_FSTAT.POP discards the oldest entry of the fault log (R149). -/
def State.iotuPop (s : State) : State :=
  let l := s.iotu.log.drop 1
  let s : State := { s with iotu := { s.iotu with log := l } }
  let s := s.fput kIotuFstat fIotuFstat_COUNT l.length
  match l with
  | [] => (s.wr kIotuFloga 0).wr kIotuFlogb 0
  | e :: _ => (s.wr kIotuFloga e.addr).wr kIotuFlogb e.info

/-- The id that no command has: what stops queue pair 2 is the register. -/
def hqenId : Nat := 2 ^ 32 - 1

/-- ZCI_CTL.HQEN (R390): writing 1 enables queue pair 2 from its context, writing 0 disables it once it
has drained. None while the context's line waits. -/
def State.writeHqen (s : State) (on : Bool) : Option State :=
  if on then
    if (s.pair 2).isSome then some s
    else match s.readCtx 2 2 with
      | (none, _) => none
      | (some none, s) => some (s.fput (kZciQstat 2) fZciQstat_CTXERR 1)
      | (some (some p), s) => some (s.setPair 2 (some p))
  else some (s.stopPair 2 hqenId)

/-- WLD_WDOG.KICK restarts the secure watchdog (R450). -/
def State.kick (s : State) : State :=
  { s with wld := { s.wld with kicked := s.time, warned := false } }.evt 15 2 6

/-- What follows a write of the bits `m` that has stored its value: none while the write waits. -/
def State.pcsAfter (s : State) (k : Nat) (d : RegDef) (old new v m : Word) : Option State :=
  let bit63 := (v &&& m).getLsbD 63
  let die := pcsDie k
  let b := pcsBlock k
  match d.name with
  | "L1C_CTL" => some (s.writeL1c (18 * die + (b - 0x40)) old new)
  | "IOTU_FSTAT" => some (if bit63 then s.iotuPop else s)
  | "SCL_CTL" => some (if bit63 then s.retrain (if die = 15 then b - 0x30 else die) false else s)
  | "ENL_HEAT" => some (if m.getLsbD 32 then s.decayRestart new else s)
  | "FWT_DATA1" => some (s.fwtCommit (s.rd kFwtData0) new)
  | "ZCI_CTL" => if m.getLsbD 0 then s.writeHqen (new.getLsbD 0) else some s
  | "WLD_WDOG" => some (if bit63 then s.kick else s)
  | "SSM_BANKPWR" => some (s.bankpwrApply ((pcsOff k - 0x20) / 8) new)
  | "CLK_CDCTL" | "PWR_DCTL" => some (s.pwrEval die)
  | "PWR_IODV" => some (s.pwrEval railIod)
  | "CDN_CTL" => some s.cdnFill
  | _ => some s

/-- Whether a hold refuses a write: a Daylight write of SSM_BANKPWR that stops a bank (R443, R493). -/
def State.pcsHeld (s : State) (agent : Agent) (k : Nat) (d : RegDef) (new : Word) : Bool :=
  decide (d.name = "SSM_BANKPWR") && !s.deepAgent agent && s.held 15 4 && s.bankpwrStops ((pcsOff k - 0x20) / 8) new

/-- The bits that an access of `size` bytes reaches in its register (R10). -/
def pcsMask (off size : Nat) : Word := if size = 8 then BitVec.allOnes 64 else 0xFFFFFFFF#64 <<< (8 * (off % 8))

/-- A write of 4 or 8 aligned bytes; none while it waits. -/
def State.pcsTry (s : State) (agent : Agent) (off size : Nat) (value : Word) : Option State :=
  let k := off / 8 * 8
  if agent = .device ∨ (size ≠ 4 ∧ size ≠ 8) ∨ off % size ≠ 0 then some s
  else match regDefAt k with
    | none => some s
    | some d =>
      if !s.pcsAdmits agent k then some (s.pcsRefuse agent off)
      else match s.pcsPath k with
        | (.wait, _) => none
        | (.dark, s) => some s
        | (.open, s) =>
          let m := pcsMask off size
          let v := if size = 8 then value else value <<< (8 * (off % 8))
          let old := s.rd k
          let new := pcsIgnores d old (d.written (s.pcsLocked k d) old v m)
          if s.pcsTested k then some s
          else if s.pcsHeld agent k d new then some (s.holdRefused 1 (pcsDie k) (pcsBlock k) (pcsOff k))
          else (s.wr k new).pcsAfter k d old new v m

/-- What a write that waits has started: a wake that it caused, and for ZCI_CTL the read of the context of
queue pair 2. -/
def State.pcsPending (s : State) (k : Nat) : State :=
  let s := (s.pcsPath k).2
  if k = kZciCtl then (s.readCtx 2 2).2 else s

/-- A write; while it waits nothing happens but what it has started. -/
def State.pcsWrite (s : State) (agent : Agent) (off size : Nat) (value : Word) : State :=
  match s.pcsTry agent off size value with
  | some t => t
  | none => s.pcsPending (off / 8 * 8)

/-! ### The rows -/

/-- REGISTER_WRITE (R13). -/
def registerWriteRun (agent : Agent) (off : BitVec 26) (size : Nat) (value : Word) (s : State) : State :=
  s.pcsWrite agent off.toNat size value
/-- IOTU_FSTAT_POP (R149). -/
def iotuFstatPopRun (agent : Agent) (s : State) : State := s.pcsWrite agent kIotuFstat 8 (BitVec.ofNat 64 (2 ^ 63))
/-- L1C_CTL_WRITE (R163). -/
def l1cCtlWriteRun (agent : Agent) (core : Nat) (value : Word) (s : State) : State := s.pcsWrite agent (kL1cCtl core) 8 value
/-- L3C_LOCK_WRITE (R168). -/
def l3cLockWriteRun (agent : Agent) (slice : Nat) (value : Word) (s : State) : State := s.pcsWrite agent (kL3cLock slice) 8 value
/-- RETRAIN (R231): the other fields of SCL_CTL are written back as they are. -/
def retrainRun (agent : Agent) (e : LinkEnd) (s : State) : State :=
  s.pcsWrite agent (kSclCtl e) 8 (s.rd (kSclCtl e) ||| BitVec.ofNat 64 (2 ^ 63))
/-- DECAY_WRITE (R259). -/
def decayWriteRun (agent : Agent) (value : Word) (s : State) : State := s.pcsWrite agent kEnlHeat 8 value
/-- T1_RANGE_ACTIVATE (R348). -/
def t1RangeActivateRun (agent : Agent) (value : Word) (s : State) : State := s.pcsWrite agent kFioT1act 8 value
/-- FWT_COMMIT (R351). -/
def fwtCommitRun (agent : Agent) (word1 : Word) (s : State) : State := s.pcsWrite agent kFwtData1 8 word1
/-- WLD_HOLD_WRITE (R442). -/
def wldHoldWriteRun (agent : Agent) (i w : Nat) (value : Word) (s : State) : State := s.pcsWrite agent (kWldHold i w) 8 value
/-- WATCHDOG_KICK (R450): PERIOD is written back as it is. -/
def watchdogKickRun (agent : Agent) (s : State) : State :=
  s.pcsWrite agent kWldWdog 8 (s.rd kWldWdog ||| BitVec.ofNat 64 (2 ^ 63))
/-- SSM_CTL_LOCK (R490): a write of the upper half leaves SECURE. -/
def ssmCtlLockRun (agent : Agent) (s : State) : State := s.pcsWrite agent (kSsmCtl + 4) 4 0x80000000#64
/-- SSM_BANKPWR_WRITE (R492). -/
def ssmBankpwrWriteRun (agent : Agent) (r : Nat) (value : Word) (s : State) : State := s.pcsWrite agent (kSsmBankpwr r) 8 value
/-- TARGET_WRITE (R497). -/
def targetWriteRun (agent : Agent) (die : Nat) (value : BitVec 8) (s : State) : State :=
  s.pcsWrite agent (kClkCdctl die) 8 (value.setWidth 64)
/-- GUARD_WRITE (R515): die 15 names the IOD; MAXDS is written back as it is. -/
def guardWriteRun (agent : Agent) (die : Nat) (value : BitVec 16) (s : State) : State :=
  let k := if die = 15 then kPwrIodv else kPwrDctl die
  s.pcsWrite agent k 8 (fPwrDctl_GUARD.put (s.rd k) value.toNat)
/-- EVT_CNT_WRITE (R546). -/
def evtCntWriteRun (agent : Agent) (off : BitVec 26) (value : Word) (s : State) : State :=
  if 0x3000 ≤ pcsOff off.toNat ∧ pcsOff off.toNat < 0x3100 then s.pcsWrite agent off.toNat 8 value else s
/-- HQEN_ENABLE (R390). -/
def hqenEnableRun (agent : Agent) (s : State) : State := s.pcsWrite agent kZciCtl 8 1
/-- HQEN_DISABLE (R390). -/
def hqenDisableRun (agent : Agent) (s : State) : State := s.pcsWrite agent kZciCtl 8 0

-- EXEC: REGISTER_WRITE IOTU_FSTAT_POP L1C_CTL_WRITE L3C_LOCK_WRITE RETRAIN DECAY_WRITE T1_RANGE_ACTIVATE FWT_COMMIT WLD_HOLD_WRITE WATCHDOG_KICK SSM_CTL_LOCK SSM_BANKPWR_WRITE TARGET_WRITE GUARD_WRITE EVT_CNT_WRITE HQEN_ENABLE HQEN_DISABLE
/-- REGISTER_WRITE (R13): the effect of a well-formed command. -/
def execRegisterWrite (agent : Agent) (off : BitVec 26) (size : Nat) (value : Word) (s : State) : Res :=
  runs agent.wf (registerWriteRun agent off size value) s

/-- IOTU_FSTAT_POP (R149): the effect of a well-formed command. -/
def execIotuFstatPop (agent : Agent) (s : State) : Res := runs agent.wf (iotuFstatPopRun agent) s

/-- L1C_CTL_WRITE (R163): the effect of a well-formed command. -/
def execL1cCtlWrite (agent : Agent) (core : Nat) (value : Word) (s : State) : Res :=
  runs (agent.wf && wfCompute core) (l1cCtlWriteRun agent core value) s

/-- L3C_LOCK_WRITE (R168): the effect of a well-formed command. -/
def execL3cLockWrite (agent : Agent) (slice : Nat) (value : Word) (s : State) : Res :=
  runs (agent.wf && decide (slice < 192)) (l3cLockWriteRun agent slice value) s

/-- RETRAIN (R231): the effect of a well-formed command. -/
def execRetrain (agent : Agent) (e : LinkEnd) (s : State) : Res :=
  runs (agent.wf && e.wf) (retrainRun agent e) s

/-- DECAY_WRITE (R259): the effect of a well-formed command. -/
def execDecayWrite (agent : Agent) (value : Word) (s : State) : Res :=
  runs agent.wf (decayWriteRun agent value) s

/-- T1_RANGE_ACTIVATE (R348): the effect of a well-formed command. -/
def execT1RangeActivate (agent : Agent) (value : Word) (s : State) : Res :=
  runs agent.wf (t1RangeActivateRun agent value) s

/-- FWT_COMMIT (R351): the effect of a well-formed command. -/
def execFwtCommit (agent : Agent) (word1 : Word) (s : State) : Res :=
  runs agent.wf (fwtCommitRun agent word1) s

/-- WLD_HOLD_WRITE (R442): the effect of a well-formed command. -/
def execWldHoldWrite (agent : Agent) (i : Nat) (w : Nat) (value : Word) (s : State) : Res :=
  runs (agent.wf && decide (i < 13) && decide (w < 4)) (wldHoldWriteRun agent i w value) s

/-- WATCHDOG_KICK (R450): the effect of a well-formed command. -/
def execWatchdogKick (agent : Agent) (s : State) : Res := runs agent.wf (watchdogKickRun agent) s

/-- SSM_CTL_LOCK (R490): the effect of a well-formed command. -/
def execSsmCtlLock (agent : Agent) (s : State) : Res := runs agent.wf (ssmCtlLockRun agent) s

/-- SSM_BANKPWR_WRITE (R492): the effect of a well-formed command. -/
def execSsmBankpwrWrite (agent : Agent) (r : Nat) (value : Word) (s : State) : Res :=
  runs (agent.wf && decide (r < 2)) (ssmBankpwrWriteRun agent r value) s

/-- TARGET_WRITE (R497): the effect of a well-formed command. -/
def execTargetWrite (agent : Agent) (die : Nat) (value : BitVec 8) (s : State) : Res :=
  runs (agent.wf && wfCd die) (targetWriteRun agent die value) s

/-- GUARD_WRITE (R515): the effect of a well-formed command. -/
def execGuardWrite (agent : Agent) (die : Nat) (value : BitVec 16) (s : State) : Res :=
  runs (agent.wf && wfDie die) (guardWriteRun agent die value) s

/-- EVT_CNT_WRITE (R546): the effect of a well-formed command. -/
def execEvtCntWrite (agent : Agent) (off : BitVec 26) (value : Word) (s : State) : Res :=
  runs agent.wf (evtCntWriteRun agent off value) s

/-- HQEN_ENABLE (R390): the effect of a well-formed command. -/
def execHqenEnable (agent : Agent) (s : State) : Res := runs agent.wf (hqenEnableRun agent) s

/-- HQEN_DISABLE (R390): the effect of a well-formed command. -/
def execHqenDisable (agent : Agent) (s : State) : Res := runs agent.wf (hqenDisableRun agent) s
-- END EXEC

end Sys2Proof.Machine
end

