-- ==== Sys2Proof/Machine/Dev.lean ====
section
/-! DEFINITION.
Device windows: doorbells (R388, R391), the interrupt window (R356), ECAM (R342), the windows of
root ports (R343, R344); the uncached accesses of a core; inbound DMA, AtomicOps and MSI writes (R103, R147–R149); the commands of class
0x04 (R151). -/

namespace Sys2Proof.Machine

/-! ### Doorbells -/

/-- Whether a doorbell write of an agent to a queue pair is accepted (R388). -/
def State.dbAdmits (s : State) (agent : Agent) (qp : Nat) : Bool :=
  if qp = 0 then false
  else if qp = 1 then match agent with
    | .core n => decide (n < 216) && (s.core n).darkW
    | .device => false
  else if qp = 2 ∨ qp ≥ 64 then true
  else match agent with
    | .core n => if qp < 16 then decide (n = 216) else decide (n ≥ 216)
    | .device => false

/-- A write at an offset of a doorbell page (R391). A pair whose instance is being reset ignores it (R416). A pair that is
disabled has no ring: the write is ignored (log 37); the rings of pairs 1 and 3–63 are Safelight's (log 19). -/
def State.doorbell (s : State) (agent : Agent) (qp off size value : Nat) : State :=
  if !s.dbAdmits agent qp then s.evt 15 0x1C 1
  else
    let s := s.evt 15 0x1C 0
    match s.pair qp with
    | none => s
    | some p =>
      if p.st = 4 ∨ size ≠ 4 ∨ (off ≠ 0 ∧ off ≠ 4) then s
      else if value ≥ 2 ^ p.qlog then s.fput (kZciQstat qp) fZciQstat_DBERR 1
      else if off = 0 then s.setPair qp (some { p with tail := value })
      else s.setPair qp (some { p with rqhead := value })

/-- SQTAIL (R391). -/
def sqtailRun (agent : Agent) (qp : Nat) (value : BitVec 32) (s : State) : State := s.doorbell agent qp 0 4 value.toNat
/-- RQHEAD (R391). -/
def rqheadRun (agent : Agent) (qp : Nat) (value : BitVec 32) (s : State) : State := s.doorbell agent qp 4 4 value.toNat

/-! ### The interrupt window -/

/-- A write to the interrupt window (R356): anything but an aligned 4-byte write of a vector for a core
in service is discarded. No counter of Table 19-1 counts the discard (log 37). -/
def State.intWindow (s : State) (off size : Nat) (data : Word) : Bool × State :=
  let n := off / 4
  let v := data.toNat
  if size ≠ 4 ∨ off % 4 ≠ 0 ∨ n ≥ 216 ∨ v = 0 ∨ v > 255 ∨ s.coreOut n ∨ s.fon (kCoreId n) fCoreId_RETIRED then (false, s)
  else (true, s.vec n v)

/-- INTERRUPT_WINDOW_WRITE. -/
def interruptWindowWriteRun (off size : Nat) (data : Word) (s : State) : State := (s.intWindow off size data).2

/-! ### Root ports as a core reaches them -/

/-- The buses that root ports decode, ascending (R342). -/
def State.ecamBuses (s : State) : List Nat := (List.range 256).filter (fun b => (s.busGroup b).isSome)

/-- Where a window access leaves: a port and an address, an Unsupported Request, or no port. -/
inductive PortTo where
  | port (p addr : Nat)
  | unsupported
  deriving DecidableEq, Repr

/-- The target of an access at an offset of the ECAM window: its k-th MiB is the k-th decoded bus
(DEDUCED, log 30). -/
def State.ecamTo (s : State) (off : Nat) : PortTo :=
  match s.ecamBuses[off / 2 ^ 20]? with
  | none => .unsupported
  | some bus => match s.busGroup bus with
    | none => .unsupported
    | some g => .port (s.groupPort g) (bus * 2 ^ 20 + off % 2 ^ 20)

/-- The bus, device and register of an offset of the ECAM window. -/
def State.ecamAt (s : State) (off : Nat) : Option (Nat × Nat × Nat) :=
  (s.ecamBuses[off / 2 ^ 20]?).map fun b => (b, off % 2 ^ 20 / 4096, off % 4096)

/-- The target of an access in a window of a memory-map record. -/
def State.windowTo (s : State) (m : MapRec) (hpa : Nat) : PortTo :=
  if m.kind = 4 then s.ecamTo (hpa - m.base) else .port (s.groupPort m.group) hpa

/-- What a read found: a value of `size` bytes with its poison, or a wait. -/
inductive DevRes where
  | ok (v : Nat) (poison : Bool)
  | wait
  deriving DecidableEq, Repr

/-- A load of a core through a port (R101, R343, R344): sent once, answered when its completion has come. -/
def State.portRead (s : State) (n : Nat) (dst : PortTo) (hpa size : Nat) : DevRes × State :=
  match dst with
  | .unsupported => (.ok (2 ^ (8 * size) - 1) false, s)
  | .port p addr =>
    match (s.core n).dev.find? (fun d => decide (d.hpa = hpa ∧ d.size = size)) with
    | some d => match d.done with
      | some (v, q) => (.ok (v.toNat % 2 ^ (8 * size)) q, s)
      | none => (.wait, s)
    | none =>
      if s.portState p = 3 then
        let f := s.portFail p
        (.ok (f.1.1.toNat % 2 ^ (8 * size)) f.1.2, f.2)
      else
        let r := s.portSend p addr false 0 false
        (.wait, r.2.setCore n { r.2.core n with dev := (r.2.core n).dev ++ [⟨p, r.1, hpa, size, none⟩] })

/-- A posted store of a core through a port; a contained port drops it (R344). -/
def State.portWrite (s : State) (dst : PortTo) (data : Nat) (ro : Bool) : State :=
  match dst with
  | .unsupported => s
  | .port p addr => if s.portState p = 3 then s else (s.portSend p addr true (BitVec.ofNat 512 data) ro).2

/-! ### Device-type accesses of a core to a window -/

/-- A read of a window by a Device-type access. The doorbell window reads as zero (R391); the value of
a read of the interrupt window is not stated: a free value (log 37). -/
def State.winRead (s : State) (n : Nat) (m : MapRec) (hpa size : Nat) : DevRes × State :=
  match m.kind with
  | 1 => match s.pcsRead (.core n) (hpa - m.base) size with
    | (some v, s) => (.ok v.toNat false, s)
    | (none, s) => (.wait, s)
  | 2 => (.ok 0 false, s)
  | 3 => (.ok (s.fresh.1.toNat % 2 ^ (8 * size)) false, s.fresh.2)
  | 4 => match (s.ecamAt (hpa - m.base)).bind fun a => (s.ownConfig a.1 a.2.1 a.2.2).map fun p => (p, a.2.2) with
    | some (p, off) => (.ok ((s.ctlRead p off).1.toNat % 2 ^ (8 * size)) false, (s.ctlRead p off).2)
    | none => s.portRead n (s.windowTo m hpa) hpa size
  | _ => s.portRead n (s.windowTo m hpa) hpa size

/-- A write of a window by a Device-type access; `false`: it waits. -/
def State.winWrite (s : State) (n : Nat) (m : MapRec) (hpa size data : Nat) (ro : Bool) : Bool × State :=
  let off := hpa - m.base
  match m.kind with
  | 1 => match s.pcsTry (.core n) off size (BitVec.ofNat 64 data) with
    | some t => (true, t)
    | none => (false, s.pcsPending (off / 8 * 8))
  | 2 => (true, s.doorbell (.core n) (off / 4096) (off % 4096) size data)
  | 3 => (true, (s.intWindow off size (BitVec.ofNat 64 data)).2)
  | 4 => match (s.ecamAt off).bind fun a => (s.ownConfig a.1 a.2.1 a.2.2).map fun p => (p, a.2.2) with
    | some (p, o) => (true, s.ctlWrite p o (BitVec.ofNat 64 data))
    | none => (true, s.portWrite (s.windowTo m hpa) data ro)
  | _ => (true, s.portWrite (s.windowTo m hpa) data ro)

/-! ### Inbound requests (R103, R147–R149, R197, R344) -/

/-- The root port of an inbound request. -/
def dmaPort (d : Dma) : Nat := 4 * d.group + d.port

/-- Whether a request is taken in: from a root port that is not contained (R344). -/
def State.dmaTaken (s : State) (d : Dma) : Bool := s.isRoot d.group && decide (s.portState (dmaPort d) ≠ 3)

/-- A completion goes back to the requester: status 0 success, 1 Unsupported Request, 2 Completer Abort. -/
def State.dmaDone (s : State) (d : Dma) (data : Line) (poison : Bool) (status : Nat) : State :=
  s.emit (.completion d.group d.port d.rid data poison status)

/-- The HPA and key ID of an inbound request (R147–R149); a fault has ended it, aborted or unsupported. -/
def State.dmaXlate (s : State) (d : Dma) (k : InKind) : Xl (Nat × Nat) × State :=
  let answer (s : State) (st : Nat) : State := match k with
    | .read | .atomic _ _ _ _ => s.dmaDone d 0 false st
    | _ => s
  let acc := match k with | .read => 0 | .atomic _ _ _ _ => 3 | _ => 1
  let msi := match k with | .msi _ => true | _ => false
  match s.iotuXlateFor msi d.group d.rid d.addr.toNat acc with
  | (.fault y i, s) => (.fault y i, answer (s.iotuFault d.addr.toNat d.group d.rid y) 2)
  | r => r

/-- Whether a posted or completing request is still to be performed at its home. -/
def State.reqOpen (s : State) (k : ReqKind) (r : HomeReq) : Bool :=
  let x := s.slice (lineSlice r.line)
  x.trans.any (fun t => decide (t.kind = k ∧ t.req = r ∧ t.mode ≠ .held)) ||
  (x.waiting ++ x.parked ++ s.home.asked).any (fun p => decide (p.kind = k ∧ p.req = r ∧ p.mode ≠ .held))

/-- Whether an inbound request is a write. -/
def Inbound.writes (e : Inbound) : Bool := match e.kind with
  | .write _ _ | .msi _ => true
  | _ => false

/-- Whether an earlier request of the queue holds a later one back (R103): a write, an MSI and, as PCI Express orders
non-posted requests (PRESUMED, log 64), a read or AtomicOp follow the earlier writes of their requester, and with IDO clear
those of their port; a write with RO set follows none. -/
def Inbound.holds (e f : Inbound) : Bool :=
  let same := decide (e.dma.group = f.dma.group ∧ e.dma.rid = f.dma.rid)
  let port := decide (e.dma.group = f.dma.group ∧ e.dma.port = f.dma.port)
  e.writes && match f.kind with
    | .msi _ => same || (!f.dma.ro && !f.dma.ido && port)
    | .write _ _ => !f.dma.ro && (same || (!f.dma.ido && port))
    | _ => same || (!f.dma.ido && port)

/-- Give a home the request of an inbound request. -/
def State.inAsk (s : State) (e : Inbound) (k : ReqKind) (r : HomeReq) (m : ReqMode) : Option Inbound × State :=
  let s := s.homeOpen (Pend.fresh k r m)
  (if s.reqOpen k r then some { e with sent := some (k, r) } else none, s)

/-- Perform a translated inbound request (R148, R196, R197, R356). The vector of an MSI lands where the translated address
lies in the interrupt window (DEDUCED, log 37). -/
def State.inSend (s : State) (e : Inbound) (h key : Nat) : Option Inbound × State :=
  let d := e.dma
  let who := Who.dma d.group
  let store (s : State) (data : Line) (mask : BitVec 64) : Option Inbound × State :=
    let p := uncStore who (h / 64) key false data mask false
    s.inAsk e p.1 p.2 .post
  match e.kind with
  | .write data mask => store (s.evt 15 (0x10 + d.group) 3) data (mask &&& maskAt (h % 64) d.len)
  | .read => (s.evt 15 (0x10 + d.group) 4).inAsk e .rdc { uncReq who (h / 64) key false with offset := h % 64, size := d.len } (.port d)
  | .atomic op size operand compare => s.inAsk e .atf { uncReq who (h / 64) key false with
      op := op, offset := h % 64, size := size, operand := operand, compare := compare } (.port d)
  | .msi data => match s.mapOf h with
    | some m =>
      if m.kind = 3 then
        let r := s.intWindow (h - m.base) d.len data
        (none, if r.1 then r.2.evt 15 (0x10 + d.group) 12 else r.2)
      else store s (lineOf (List.replicate (h % 64) 0 ++ leBytes d.len data.toNat)) (maskAt (h % 64) d.len)
    | none => (none, s)

/-- Go on with an inbound request behind those that remain before it: what remains of it. -/
def State.inStep (s : State) (before : List Inbound) (e : Inbound) : Option Inbound × State :=
  match e.sent with
  | some (k, r) => (if s.reqOpen k r then some e else none, s)
  | none =>
    let x : Xl (Nat × Nat) × State := match e.at' with
      | some a => (.ok a, s)
      | none => s.dmaXlate e.dma e.kind
    match x with
    | (.ok (h, k), s) =>
      let e := { e with at' := some (h, k) }
      if before.any (fun b => b.holds e) then (some e, s) else s.inSend e h k
    | (.fault _ _, s) => (none, s)
    | (_, s) => (some e, s)

/-- Go on with the inbound requests, oldest first. -/
def State.inPump (s : State) : State :=
  let r := s.fio.inq.foldl (fun (a : List Inbound × State) e =>
    let p := a.2.inStep a.1 e
    (a.1 ++ p.1.toList, p.2)) ([], s)
  { r.2 with fio := { r.2.fio with inq := r.1 } }

/-- An inbound request arrives: one that is marked as translated or carries a PASID is unsupported (R149). -/
def State.inbound (s : State) (d : Dma) (k : InKind) : State :=
  if !s.dmaTaken d then s
  else
    let s := s.pkgTouch 5 d.group
    if d.ats then
      let s := s.evt 15 0x48 7
      match k with
      | .read | .atomic _ _ _ _ => s.dmaDone d 0 false 1
      | _ => s
    else
      let e : Inbound := ⟨d, k, none, none⟩
      ({ s with fio := { s.fio with inq := s.fio.inq ++ [e] } } : State).inPump

/-- DMA_WRITE (R103, R196). -/
def dmaWriteRun (d : Dma) (data : Line) (mask : BitVec 64) (s : State) : State := s.inbound d (.write data mask)
/-- DMA_READ (R197). -/
def dmaReadRun (d : Dma) (s : State) : State := s.inbound d .read
/-- An AtomicOp completes with the old value (R148), a FetchAdd, Swap or CAS of the operation's size; one
that finds poison is not performed and answers poisoned. -/
def dmaAtomicopRun (d : Dma) (op : AmoOp) (size : Nat) (operand compare : BitVec 128) (s : State) : State :=
  s.inbound d (.atomic op size operand compare)
/-- MSI_WRITE (R103, R356). -/
def msiWriteRun (d : Dma) (data : Word) (s : State) : State := s.inbound d (.msi data)

/-! ### Class 0x04 (Table 4-9) -/

/-- Remove the IOTU translations that a test names (R152); a walk in progress begins again. -/
def State.iotuDrop (s : State) (f : Nat × TlbEnt → Bool) : State :=
  ({ s with iotu := { s.iotu with tlb := s.iotu.tlb.filter (fun p => !f p) } } : State).forget fun k r =>
    decide (k = .rdc ∧ (r.src = 3 ∨ r.src = 4))

/-- Whether a request that the IOTU has translated is still to be performed (R152). -/
def State.iotuOpen (s : State) : Bool := s.fio.inq.any (fun e => e.at'.isSome) || s.zciWrites

/-- Remove translations, and answer once every request translated before has been performed (R152). -/
def State.iotuInv (s : State) (f : Nat × TlbEnt → Bool) : ZDo × State :=
  let s := (s.iotuDrop f).inPump
  if s.iotuOpen then (.again, s) else (doneOk, s.evt 15 0x48 6)

/-- Whether a translation has bytes in a range. -/
def TlbEnt.meets (t : TlbEnt) (addr len : Nat) : Bool := decide (t.base < addr + len ∧ addr < t.base + t.size)

/-- IOTU_INV_DEVICE: the context and every translation made under it.  A SOURCE above 8, for which R151 gives no status,
ends with BAD_PARAM (DESIGN CHOICE, log 62). -/
def hIotuDevice : Handler := fun _ z s =>
  let src := z.f 16 1
  let id := src * 65536 + z.f 18 2
  if src > 8 then (badParam 0, s)
  else ({ s with iotu := { s.iotu with ctxs := s.iotu.ctxs.filter (fun c => c.src ≠ id) } }).iotuInv (fun p => p.1 = id)

/-- IOTU_INV_VA. -/
def hIotuVa : Handler := fun _ z s =>
  let a := z.f 24 8; let len := z.f 32 8
  if a % 4096 ≠ 0 ∨ len % 4096 ≠ 0 then (badParam 0, s)
  else if len = 0 then (doneOk, s)
  else s.iotuInv fun p => decide (p.2.vmid = z.f 16 2) &&
    (decide (z.f 20 1 % 2 = 1) || decide (p.2.asid = some (z.f 18 2))) && p.2.meets a len

/-- IOTU_INV_IPA: with a length of 0 nothing is removed. -/
def hIotuIpa : Handler := fun _ z s =>
  let a := z.f 24 8; let len := z.f 32 8
  if a % 4096 ≠ 0 ∨ len % 4096 ≠ 0 then (badParam 0, s)
  else if len = 0 then (doneOk, s)
  else s.iotuInv fun p => decide (p.2.vmid = z.f 16 2)

/-- IOTU_INV_VMID. -/
def hIotuVmid : Handler := fun _ z s => s.iotuInv fun p => decide (p.2.vmid = z.f 16 2)

/-- IOTU_INV_ALL. -/
def hIotuAll : Handler := fun _ _ s => s.iotuInv fun _ => true

-- EXEC: INTERRUPT_WINDOW_WRITE DMA_WRITE DMA_READ MSI_WRITE DMA_ATOMICOP SQTAIL RQHEAD
/-- INTERRUPT_WINDOW_WRITE (R356): the effect of a well-formed command. -/
def execInterruptWindowWrite (off : Nat) (size : Nat) (data : Word) (s : State) : Res :=
  runs true (interruptWindowWriteRun off size data) s

/-- DMA_WRITE (R103): the effect of a well-formed command. -/
def execDmaWrite (d : Dma) (data : Line) (mask : BitVec 64) (s : State) : Res :=
  runs d.wf (dmaWriteRun d data mask) s

/-- DMA_READ (R197): the effect of a well-formed command. -/
def execDmaRead (d : Dma) (s : State) : Res := runs d.wf (dmaReadRun d) s

/-- MSI_WRITE (R103): the effect of a well-formed command. -/
def execMsiWrite (d : Dma) (data : Word) (s : State) : Res := runs d.wf (msiWriteRun d data) s

/-- DMA_ATOMICOP (R148): the effect of a well-formed command. -/
def execDmaAtomicop (d : Dma) (op : AmoOp) (size : Nat) (operand : BitVec 128) (compare : BitVec 128) (s : State) : Res :=
  runs d.wf (dmaAtomicopRun d op size operand compare) s

/-- SQTAIL (R391): the effect of a well-formed command. -/
def execSqtail (agent : Agent) (qp : Nat) (value : BitVec 32) (s : State) : Res :=
  runs (agent.wf && wfQp qp) (sqtailRun agent qp value) s

/-- RQHEAD (R391): the effect of a well-formed command. -/
def execRqhead (agent : Agent) (qp : Nat) (value : BitVec 32) (s : State) : Res :=
  runs (agent.wf && wfQp qp) (rqheadRun agent qp value) s
-- END EXEC

end Sys2Proof.Machine
end

