-- ==== Sys2Proof/Machine/CoreOps.lean ====
section
/-! DEFINITION.
What every instruction of a core shares (spec/02): general registers and windows, the store buffer,
loads and stores by memory type, exception entry, and the order in which an instruction is checked
(R62). -/

namespace Sys2Proof.Machine

/-! ### Registers and windows (R43–R48, R72) -/

/-- The frames of a core's window ring (R45, R80). -/
def frames (n : Nat) : Nat := if n < 216 then 16 else 8

/-- The physical register that a windowed number names in a window (R44, R45). -/
def physReg (n r w : Nat) : Nat := if r < 24 then 16 * w + (r - 8) else 16 * ((w + 1) % frames n) + (r - 24)

/-- A general register, seen from a window. -/
def State.regAt (s : State) (n r w : Nat) : Word :=
  let c := s.core n
  if r = 0 then 0 else if r < 8 then SMap.get (fun _ => 0) c.c r else SMap.get (fun _ => 0) c.win (physReg n r w)

/-- Write a general register, seen from a window; c0 ignores writes (R43). -/
def State.setRegAt (s : State) (n r w : Nat) (v : Word) : State :=
  let c := s.core n
  if r = 0 then s
  else if r < 8 then s.setCore n { c with c := SMap.put (fun _ => 0) c.c r v }
  else s.setCore n { c with win := SMap.put (fun _ => 0) c.win (physReg n r w) v }

/-- The parent window of the current one. -/
def State.parentWin (s : State) (n : Nat) : Nat := ((s.core n).cwp + frames n - 1) % frames n

/-- A source register of an instruction: the window prefix may name the parent's (R72). -/
def State.src (s : State) (x : Insn) (r : Reg) : Word :=
  s.regAt x.core r.toNat (if x.win.getLsbD 1 then s.parentWin x.core else (s.core x.core).cwp)

/-- Write the destination register of an instruction. -/
def State.dst (s : State) (x : Insn) (r : Reg) (v : Word) : State :=
  s.setRegAt x.core r.toNat (if x.win.getLsbD 0 then s.parentWin x.core else (s.core x.core).cwp) v

/-- Write a register that is a source as well, CMOR's and TLBIR's ra and rn (R78). -/
def State.dstSrc (s : State) (x : Insn) (r : Reg) (v : Word) : State :=
  s.setRegAt x.core r.toNat (if x.win.getLsbD 1 then s.parentWin x.core else (s.core x.core).cwp) v

/-- A predicate; p0 reads as 1. -/
def State.pr (s : State) (n : Nat) (p : PReg) : Bool := decide (p = 0) || (s.core n).preds.getLsbD p.toNat
/-- Write a predicate; p0 ignores writes. -/
def State.setPr (s : State) (n : Nat) (p : PReg) (v : Bool) : State :=
  if p = 0 then s
  else
    let c := s.core n
    let m : BitVec 16 := BitVec.ofNat 16 (2 ^ p.toNat)
    s.setCore n { c with preds := if v then c.preds ||| m else c.preds &&& ~~~ m }

/-- A vector register. -/
def State.vreg (s : State) (n : Nat) (r : Reg) : Line := SMap.get (fun _ => 0) (s.core n).v r.toNat
/-- Write a vector register. -/
def State.setVreg (s : State) (n : Nat) (r : Reg) (v : Line) : State :=
  s.setCore n { s.core n with v := SMap.put (fun _ => 0) (s.core n).v r.toNat v }

/-- Set the program counter (57 bits, R43). -/
def State.setPc (s : State) (n : Nat) (pc : Word) : State := s.setCore n { s.core n with pc := pcOf pc }

/-- The resident frames: from the oldest up to the current window's t-frame (R48). -/
def State.resident (s : State) (n : Nat) : Nat :=
  let m := frames n
  ((s.core n).cwp + 1 + m - (s.core n).oldest) % m + 1
/-- The free frames. -/
def State.freeFrames (s : State) (n : Nat) : Nat := frames n - s.resident n

/-- The owner code of a level and a world. -/
def ownerCode (level : Nat) (dark : Bool) : Nat := level * 2 + (if dark then 1 else 0)
/-- The owner of a frame. -/
def Core.owner (c : Core) (f : Nat) : Nat := SMap.get (fun _ => 0) c.owners f
/-- The owner of the running code. -/
def Core.self (c : Core) : Nat := ownerCode c.level c.darkW

/-- The window stack pointer of an owner (R49, Table 14-2). -/
def wspOf (n own : Nat) : Nat :=
  if n ≥ 216 then (if own / 2 = 0 then 0x010 else 0x410)
  else match own with
    | 0 => 0x010 | 2 => 0x410 | 4 => 0x810 | 1 => 0xD10 | 3 => 0xD11 | _ => 0xC10

/-- Zero the registers of a frame, all or only the high half. -/
def zeroWin (w : SMap Word) (f lo : Nat) : SMap Word := w.filter (fun p => !(decide (p.1 / 16 = f) && decide (lo ≤ p.1 % 16)))

/-- Slide the window up into a frame of an owner (R46–R48): its m registers and its t-frame read as zero. -/
def State.slide (s : State) (n own : Nat) : State :=
  let c := s.core n
  let m := frames n
  let f := (c.cwp + 1) % m
  let t := (c.cwp + 2) % m
  s.setCore n { c with win := zeroWin (zeroWin c.win f 8) t 0, cwp := f,
                       owners := SMap.set (SMap.set c.owners f own) t own }

/-- Slide the window down; the t-frame takes the owner of the current window (R48). -/
def State.unslide (s : State) (n : Nat) : State :=
  let c := s.core n
  let w := s.parentWin n
  s.setCore n { c with cwp := w, owners := SMap.set (SMap.del c.owners ((c.cwp + 1) % frames n)) c.cwp (c.owner w) }

/-! ### Exceptions (R59–R62) -/

/-- An exception: its cause, syndrome and address, the IPA of a stage-2 fault, the owner of a spilled or
filled frame, and the level that Table 2-6 names instead of the default. -/
structure Trap where
  cause  : Nat
  syn    : Nat := 0
  eva    : Nat := 0
  ipa    : Option Nat := none
  owner  : Option Nat := none
  target : Option Nat := none
  deriving DecidableEq, Repr

/-- Cause codes of Table 2-6. -/
def cUndef : Nat := 0x01
def cPriv : Nat := 0x02
def cVec : Nat := 0x03
def cMisal : Nat := 0x04
def cFetch : Nat := 0x08
def cData : Nat := 0x09
def cSpill : Nat := 0x0C
def cFill : Nat := 0x0D
def cScall : Nat := 0x10
def cHcall : Nat := 0x11
def cDcall : Nat := 0x12
def cBrk : Nat := 0x14
def cIrq : Nat := 0x18
def cPoison : Nat := 0x1C

/-- UNDEFINED_INSTRUCTION. -/
def undefTrap : Trap := { cause := cUndef }

/-- What a step of an instruction gives: a value, an exception, or a wait (the instruction has not
executed; what its accesses started stays started). -/
inductive Got (α : Type) where
  | ok (a : α)
  | trap (t : Trap)
  | wait

/-- Continue with the value of a step. -/
def andThen {α β : Type} (r : Got α × State) (f : α → State → Got β × State) : Got β × State :=
  match r with
  | (.ok a, s) => f a s
  | (.trap t, s) => (.trap t, s)
  | (.wait, s) => (.wait, s)

/-- The first of the exception registers EPC … EVEC of a level and world (Table 2-5, Table 14-2). -/
def excBase (n level : Nat) (dark : Bool) : Nat :=
  if level = 3 then 0xC20 else if level = 2 then 0x820 else if dark ∧ n < 216 then 0xD20 else 0x420

/-- Reset the contention predictor (R113); posted AMOs under way no longer train it. -/
def State.predReset (s : State) (n : Nat) : State :=
  let c := s.core n
  s.setCore n { c with pred := [], sb := c.sb.map fun (e : SbEnt) => { e with trains := false } }

/-- A core that finds no free frame stops with WINDOW_EXHAUST and is lost (R51, R82). -/
def State.exhaust (s : State) (n : Nat) : State :=
  let dark := s.coreDark n
  let s := s.haltCore n 1
  if n ≥ 216 then s.raise { cls := 2, kind := 0x10, dark := dark, lost := true, detail := 1 }
  else
    let s := s.raise { cls := 2, kind := 0x10, agent := s.sysCore n, dark := dark, lost := true, detail := (s.rd (kCoreStop n)).toNat }
    ((s.lose (n / 18) (n % 18) false).drainCore n).drainWb

/-- The level at which an exception is taken (R60, Table 2-6, R435). -/
def State.trapLevel (s : State) (n : Nat) (t : Trap) : Nat :=
  let c := s.core n
  let tl := match t.target with
    | some l => l
    | none => if t.ipa.isSome ∧ n < 216 then 2 else max c.level 1
  if tl = 2 ∧ c.darkW then 3 else tl

/-- Whether an exception is taken in the Darkroom world: at M always, otherwise in the world of the core. -/
def State.trapDark (s : State) (n level : Nat) : Bool :=
  if n ≥ 216 then (s.core n).darkW else decide (level = 3) || (s.core n).darkW

/-- The value of the cause register (R61); ILEN is 4 bits. -/
def Trap.ecause (e : Trap) (ilen : Nat) : Nat :=
  e.cause + (match e.owner with | some o => (o / 2) * 256 + (o % 2) * 1024 | none => 0) + ilen % 16 * 65536

/-- The exception registers that an entry writes, from the first of the target level (R59).  Where R61 gives a cause no
syndrome or no address, zero is written (DESIGN CHOICE, log 61). -/
def Core.trapRegs (c : Core) (b tl ilen : Nat) (e : Trap) (epc : Word) : Core :=
  let w (x : Nat) : Word := BitVec.ofNat 64 x
  let c := ((((c.setSr b epc).setSr (b + 1) (c.srv 0x400)).setSr (b + 2) (w (e.ecause ilen))).setSr (b + 3) (w e.syn)).setSr (b + 4) (w e.eva)
  match e.ipa with
  | some i => if tl = 2 then c.setSr 0x904 (w (i % 2 ^ 52)) else c
  | none => c

/-- WCTL after an entry at M: DLRET notes a Darkroom level, and a world entry clears it (R430, R433). -/
def Core.trapWctl (c : Core) (tl : Nat) (was : Bool) (lv : Nat) : Core :=
  if tl = 3 then
    if !was then c.setSr 0xD00 (c.srv 0xD00 &&& ~~~ 1#64)
    else if lv < 3 then c.setSr 0xD00 (c.srv 0xD00 ||| 1#64) else c
  else c

/-- The vector of an entry (Table 2-7). -/
def trapOff (irq same : Bool) : Word := if irq then 0x100#64 else if same then 0 else 0x80#64

/-- The status and the pc that an entry writes; the accesses of the instruction are over. -/
def Core.trapEnd (c : Core) (b tl : Nat) (dk irq same : Bool) : Core :=
  let c := c.setSr 0x400 (BitVec.ofNat 64 ((if dk then 2 ^ 31 else 0) + tl))
  { c with pc := pcOf (c.srv (b + 5) + trapOff irq same), dev := [], nearTry := none }

/-- Take an exception (R59): the exception registers of the target level, the window, the status, and
the vector; entering at M from Daylight is a world entry (R430). -/
def State.takeTrap (s : State) (n : Nat) (e : Trap) (epc : Word) (ilen : Nat) : State :=
  let c := s.core n
  let tl := s.trapLevel n e
  let dk := s.trapDark n tl
  let b := excBase n tl dk
  let irq := decide (e.cause = cIrq)
  let s := (s.evtC n 0 (if irq then 6 else 5)).setCore n (c.trapRegs b tl ilen e epc)
  if s.freeFrames n = 0 then s.exhaust n
  else
    let s := s.slide n (ownerCode tl dk)
    let s := s.setCore n (((s.core n).trapWctl tl c.darkW c.level).trapEnd b tl dk irq (decide (tl = c.level)))
    if tl = 3 && !c.darkW then (s.predReset n).evt 15 2 4 else s

/-! ### The store buffer (R87) -/

/-- The bytes of a store at their place in the line. -/
def SbEnt.placed (e : SbEnt) : Line := e.data <<< (8 * (e.hpa % 64))
/-- The bytes of the line that a store writes. -/
def SbEnt.mask (e : SbEnt) : BitVec 64 := maskAt (e.hpa % 64) e.size

/-- Update the contention predictor after an atomic (R110, R111). -/
def State.train (s : State) (n line : Nat) (contended : Bool) : State :=
  let c := s.core n
  let i := (line ^^^ (line >>> 10)) % 1024
  let v := SMap.get (fun _ => 1) c.pred i
  let s := s.setCore n { c with pred := SMap.put (fun _ => 1) c.pred i (if contended then min (v + 1) 3 else v - 1) }
  if contended then s.evtC n 0 9 else s

/-- The far atomic of a core (R107). -/
def State.farReq (s : State) (n hpa key : Nat) (dark : Bool) (op : AmoOp) (size operand compare : Nat) (posted : Bool) : HomeReq :=
  { coreReq s n (hpa / 64) key dark false true with
    op := op, offset := hpa % 64, size := size, operand := BitVec.ofNat 128 operand, compare := BitVec.ofNat 128 compare, posted := posted }

/-- Whether a write of a core to a fabric window awaits its endpoint's acknowledgement (R94). -/
def State.fabWaits (s : State) (n : Nat) : Bool :=
  s.fio.outs.any (fun o => o.write && decide (o.core = some n)) || s.home.wbuf.any (fun w => decide (w.core = some n))

/-- Perform one store of the store buffer; `false`: it waits.  A release at fabric scope waits for the endpoints (R84). -/
def State.sbOne (s : State) (n : Nat) (e : SbEnt) : Bool × State :=
  let line := e.hpa / 64
  if e.rel && e.fab && s.fabWaits n then (false, s)
  else match e.amo with
  | some (op, v) => match s.homeSync .atf (s.farReq n e.hpa e.key e.dark op e.size v 0 true) with
    | (.reply _ p c nf, s) =>
      (true, if e.type = 0 && e.trains && decide (s.lineKind line ≠ .fabric) && !p && !nf && decide (n < 216) then s.train n line c else s)
    | (.done, s) => (true, s)
    | (_, s) => (false, s)
  | none =>
    if e.type = 0 then s.storeLine n line e.key e.dark e.placed e.mask
    else s.uncWrite (s.whoCore n) line e.key e.dark e.placed e.mask false

/-- Perform stores of the store buffer, oldest first, at most `k`, each once the store before it has been
performed; whether every one has been. -/
def State.sbDrain (k : Nat) (s : State) (n : Nat) : Bool × State :=
  match k with
  | 0 => ((s.core n).sb.isEmpty, s)
  | k + 1 => match (s.core n).sb with
    | [] => (true, s)
    | e :: _ =>
      let p := s.sbOne n e
      match p.1 with
      | true => State.sbDrain k (p.2.setCore n { p.2.core n with sb := (p.2.core n).sb.drop 1 }) n
      | false => (false, p.2)

/-- Empty the store buffer: a wait when a store cannot be performed yet. -/
def State.sbEmpty (s : State) (n : Nat) : Got Unit × State :=
  match State.sbDrain (s.core n).sb.length s n with
  | (true, s) => (.ok (), s)
  | (false, s) => (.wait, s)

/-- The bytes of a line with the core's own buffered stores over them (R87). -/
def State.overlay (s : State) (n line : Nat) (d : Line) : Line :=
  (s.core n).sb.foldl (fun d e => if e.hpa / 64 = line ∧ e.amo.isNone then mergeLine d e.placed e.mask else d) d

/-- Whether a posted AMO to a line is under way (R108). -/
def State.amoPending (s : State) (n line : Nat) : Bool := (s.core n).sb.any (fun e => e.amo.isSome && decide (e.hpa / 64 = line))

/-! ### Translated accesses -/

/-- Translate one address of an access (Table 2-6): a fault is the cause given, with its syndrome. -/
def State.xl (s : State) (n acc level : Nat) (dark : Bool) (cause : Nat) (own : Option Nat) (va : Nat) : Got Xlat × State :=
  match s.translate n acc level dark false va with
  | (.ok x, s) => (.ok x, s)
  | (.fault y i, s) => (.trap { cause := cause, syn := y, eva := va, ipa := i, owner := own }, s)
  | (_, s) => (.wait, s)

/-- Translate an access of the running code. -/
def State.xlSelf (s : State) (n acc va : Nat) : Got Xlat × State :=
  s.xl n acc (s.core n).level (s.core n).darkW cData none va

/-- Translate every page of a range before anything is done: the pieces with their lengths. -/
def State.xlRange (fuel : Nat) (s : State) (n acc level : Nat) (dark : Bool) (cause : Nat) (own : Option Nat) (va len : Nat) :
    Got (List (Xlat × Nat)) × State :=
  match fuel with
  | 0 => (.ok [], s)
  | f + 1 =>
    if len = 0 then (.ok [], s)
    else
      let k := min len (4096 - va % 4096)
      andThen (s.xl n acc level dark cause own va) fun x s =>
        andThen (State.xlRange f s n acc level dark cause own ((va + k) % 2 ^ 64) (len - k)) fun r s => (.ok ((x, k) :: r), s)

/-- Whether a service core reaches the scratch aperture (R482). -/
def inScratch (n hpa : Nat) : Bool := decide (n ≥ 216 ∧ hpa ≥ apertureBase)

/-- An access of a service core to tiered memory is a wake source of the package (Table 17-5). -/
def State.spTouch (s : State) (n : Nat) : State := if n ≥ 216 then s.pkgTouch 10 (n - 216) else s

/-- The piece of the running instruction that reads or writes an HPA uncached, once made (R97). -/
def State.devFind (s : State) (n hpa size : Nat) : Option DevWait := (s.core n).dev.find? (fun d => decide (d.hpa = hpa ∧ d.size = size))
/-- Note an uncached piece as made, so that it is not repeated while another piece of the instruction waits; port 32 is
none. -/
def State.devNote (s : State) (n hpa size : Nat) (d : Line) (p : Bool) : State :=
  if (s.devFind n hpa size).isSome then s
  else s.setCore n { s.core n with dev := (s.core n).dev ++ [⟨32, 0, hpa, size, some (d, p)⟩] }

/-- Whether a Device access waits for stores of the core: an earlier Device store to tiered memory has not been performed
(R101). -/
def State.devHeld (s : State) (n : Nat) : Bool := (s.core n).sb.any (fun e => decide (e.type ≥ 2))

/-- Empty the store buffer first where a condition asks for it. -/
def State.sbFirst (s : State) (n : Nat) (b : Bool) : Got Unit × State := if b then s.sbEmpty n else (.ok (), s)

/-- Read a piece of one line of tiered or fabric memory, by type (R97, R98). -/
def State.ldLine (s : State) (n : Nat) (dark : Bool) (type key hpa len : Nat) : Got (List Byte × Bool) × State :=
  let line := hpa / 64
  let s := s.spTouch n
  let cut (d : Line) (p : Bool) (s : State) : Got (List Byte × Bool) × State :=
    (.ok (leBytes len (lineField (s.overlay n line d) (hpa % 64) len), p), s)
  andThen (s.sbFirst n (s.amoPending n line || decide (type ≥ 2))) fun _ s =>
    if type = 0 then match s.loadLine n line key dark false with
      | (.line l _, s) => cut l.data l.poison s
      | (_, s) => (.wait, s)
    else match s.devFind n hpa len with
      | some ⟨_, _, _, _, some (d, p)⟩ => cut d p s
      | _ => match s.uncRead (s.whoCore n) line key dark with
        | (some (d, p), s) => cut d p (s.devNote n hpa len d p)
        | (none, s) => (.wait, s)

/-- Load a piece through a device window, whole and once (R97, R101). -/
def State.ldWin (s : State) (n : Nat) (w : MapRec) (hpa len : Nat) : Got (List Byte × Bool) × State :=
  andThen (s.sbFirst n (s.devHeld n)) fun _ s =>
    match s.devFind n hpa len with
    | some ⟨_, _, _, _, some (d, p)⟩ => (.ok (leBytes len d.toNat, p), s)
    | _ => match s.winRead n w hpa len with
      | (.ok v p, s) => (.ok (leBytes len v, p), s.devNote n hpa len (BitVec.ofNat 512 v) p)
      | (.wait, s) => (.wait, s)

/-- Load the bytes of one translated piece, which lies in one page, and whether any is poisoned. -/
def State.ldPiece (s : State) (n : Nat) (dark : Bool) (x : Xlat) (len : Nat) : Got (List Byte × Bool) × State :=
  if inScratch n x.hpa then match s.ssmLoad (some (n - 216)) (x.hpa - apertureBase) len with
    | (some r, s) => (.ok r, s)
    | (none, s) => (.wait, s)
  else match s.lineKind (x.hpa / 64) with
    | .other m => match s.mapOf x.hpa, decide (x.type ≥ 2) with
      | some w, true => s.ldWin n w x.hpa len
      | _, _ => (.ok (List.replicate len 0, false), s.unmapped (x.hpa / 64) m dark)
    | _ => (linePieces 66 x.hpa len).foldl (fun (a : Got (List Byte × Bool) × State) p =>
        andThen a fun b s => andThen (s.ldLine n dark x.type x.key (p.1 * 64 + p.2.1) p.2.2) fun c s =>
          (.ok (b.1 ++ c.1, b.2 || c.2), s)) (.ok ([], false), s)

/-- Store a piece through a device window, whole and once (R97, R101): a Device-Strict store follows every earlier Device
access, a release store every earlier access. -/
def State.stWin (s : State) (n : Nat) (w : MapRec) (x : Xlat) (bytes : List Byte) (rel : Bool) : Got Unit × State :=
  let len := bytes.length
  andThen (s.sbFirst n (rel || s.devHeld n)) fun _ s =>
    if (s.devFind n x.hpa len).isSome then (.ok (), s)
    else match s.winWrite n w x.hpa len (leNat bytes) (decide (x.type = 3)) with
      | (true, s) => (.ok (), s.devNote n x.hpa len 0 false)
      | (false, s) => (.wait, s)

/-- Put a store into the store buffer, or perform it where it leaves for a device or scratch memory (R97–R99, R101). -/
def State.stPiece (s : State) (n : Nat) (dark : Bool) (x : Xlat) (bytes : List Byte) (rel fab : Bool) : Got Unit × State :=
  if inScratch n x.hpa then match s.ssmStore (some (n - 216)) (x.hpa - apertureBase) bytes with
    | (true, s) => (.ok (), s)
    | (false, s) => (.wait, s)
  else match s.lineKind (x.hpa / 64) with
    | .other m => match s.mapOf x.hpa, decide (x.type ≥ 2) with
      | some w, true => s.stWin n w x bytes rel
      | _, _ => (.ok (), s.unmapped (x.hpa / 64) m dark)
    | _ =>
      let s := s.spTouch n
      let es : List SbEnt := (linePieces 66 x.hpa bytes.length).map fun p =>
        let h := p.1 * 64 + p.2.1
        { hpa := h, size := p.2.2, data := lineOf (sliceB bytes (h - x.hpa) p.2.2), type := x.type, key := x.key,
          dark := dark, amo := none, rel := rel, fab := fab, trains := false }
      (.ok (), s.setCore n { s.core n with sb := (s.core n).sb ++ es })

/-- Load translated pieces in order: bytes; the first that is poisoned raises POISON at its address. -/
def State.ldPieces (s : State) (n : Nat) (dark : Bool) (va : Nat) (ps : List (Xlat × Nat)) : Got (List Byte) × State :=
  ps.foldl (fun (a : Got (List Byte) × State) p => andThen a fun b s =>
    andThen (s.ldPiece n dark p.1 p.2) fun r s =>
      if r.2 then (.trap { cause := cPoison, eva := (va + b.length) % 2 ^ 64 }, s) else (.ok (b ++ r.1), s)) (.ok [], s)

/-- Store bytes to translated pieces in order. -/
def State.stPieces (s : State) (n : Nat) (dark : Bool) (bytes : List Byte) (rel fab : Bool) (ps : List (Xlat × Nat)) : Got Unit × State :=
  andThen (ps.foldl (fun (a : Got Nat × State) p => andThen a fun k s =>
    andThen (s.stPiece n dark p.1 (sliceB bytes k p.2) rel fab) fun _ s => (.ok (k + p.2), s)) (.ok 0, s)) fun _ s => (.ok (), s)

/-- Load a range of virtual addresses of the running code; every page is translated first. -/
def State.ldVa (s : State) (n : Nat) (va len : Nat) : Got (List Byte) × State :=
  let c := s.core n
  andThen (State.xlRange 3 s n 0 c.level c.darkW cData none va len) fun ps s => s.ldPieces n c.darkW va ps

/-- Store bytes at a virtual address of the running code; every page is translated first. -/
def State.stVa (s : State) (n : Nat) (va : Nat) (bytes : List Byte) (rel fab : Bool) : Got Unit × State :=
  let c := s.core n
  andThen (State.xlRange 3 s n 1 c.level c.darkW cData none va bytes.length) fun ps s => s.stPieces n c.darkW bytes rel fab ps

/-- What the ordering prefix of an access waits for before it is performed (R84, Table 3-2): an acquire, for the earlier
release stores; one of fabric scope, for the endpoints of the core's earlier fabric writes. -/
def State.ordFirst (s : State) (x : Insn) : Got Unit × State :=
  let n := x.core
  andThen (s.sbFirst n (x.kind.getLsbD 0 && (s.core n).sb.any (·.rel))) fun _ s =>
    (if x.kind ≠ 0 ∧ x.scope = 2 ∧ s.fabWaits n then .wait else .ok (), s)

/-! ### Spills and fills (R49, R50) -/

/-- One register of a spill or fill: the pieces of its 8 bytes, as Normal-WB memory. -/
def State.winXl (s : State) (n acc cause own va : Nat) : Got (List (Xlat × Nat)) × State :=
  andThen (State.xlRange 3 s n acc (own / 2) (decide (own % 2 = 1)) cause (some own) va 8) fun ps s =>
    (.ok (ps.map fun p => ({ p.1 with type := 0 }, p.2)), s)

/-- Translate the sixteen registers of a frame on an owner's stack. -/
def State.winXls (s : State) (n acc cause own wsp : Nat) : Got (List (List (Xlat × Nat))) × State :=
  (List.range 16).foldl (fun (a : Got (List (List (Xlat × Nat))) × State) i => andThen a fun l s =>
    andThen (s.winXl n acc cause own ((wsp + 8 * i) % 2 ^ 64)) fun ps s => (.ok (l ++ [ps]), s)) (.ok [], s)

/-- Spill the oldest frame to its owner's stack: every register is translated before any is stored; WSP and the frame
change only when all is stored. -/
def State.spill (s : State) (n : Nat) : Got Unit × State :=
  let c := s.core n
  let f := c.oldest
  let own := c.owner f
  let sp := wspOf n own
  let wsp := (c.srv sp).toNat + (2 ^ 64 - 128)
  andThen (s.winXls n 1 cSpill own wsp) fun l s =>
    andThen (l.zipIdx.foldl (fun (a : Got Unit × State) p => andThen a fun _ s =>
      s.stPieces n (decide (own % 2 = 1)) (leBytes 8 (SMap.get (fun _ => 0) c.win (16 * f + p.2)).toNat) false false p.1) (.ok (), s)) fun _ s =>
      let c := s.core n
      (.ok (), (s.setCore n { c.setSr sp (BitVec.ofNat 64 wsp) with oldest := (f + 1) % frames n }).evtC n 0 3)

/-- Fill frame W − 1 from the stack of an owner; poison raises POISON. -/
def State.fill (s : State) (n own : Nat) : Got Unit × State :=
  let f := s.parentWin n
  let sp := wspOf n own
  let wsp := ((s.core n).srv sp).toNat
  andThen (s.winXls n 0 cFill own wsp) fun l s =>
    andThen (l.zipIdx.foldl (fun (a : Got (List Word) × State) p => andThen a fun vs s =>
      andThen (s.ldPieces n (decide (own % 2 = 1)) (wsp + 8 * p.2) p.1) fun b s => (.ok (vs ++ [BitVec.ofNat 64 (leNat b)]), s))
      (.ok [], s)) fun vs s =>
      let c := s.core n
      let win := vs.zipIdx.foldl (fun (m : SMap Word) p => SMap.put (fun _ => 0) m (16 * f + p.2) p.1) c.win
      (.ok (), (s.setCore n { c.setSr sp (BitVec.ofNat 64 (wsp + 128)) with
        win := win, oldest := f, owners := SMap.set c.owners f own }).evtC n 0 4)

/-- Fill frame W − 1 from an owner's stack if it is not resident. -/
def State.needFrame (s : State) (n own : Nat) : Got Unit × State := if s.resident n < 3 then s.fill n own else (.ok (), s)
/-- Fill frame W − 1 for the running code. -/
def State.needParent (s : State) (n : Nat) : Got Unit × State := s.needFrame n (s.core n).self

/-- Spill the oldest frames until `k` are free. -/
def State.spillUntil (fuel : Nat) (s : State) (n k : Nat) : Got Unit × State :=
  match fuel with
  | 0 => (.ok (), s)
  | f + 1 => if s.freeFrames n ≥ k then (.ok (), s) else andThen (s.spill n) fun _ s => State.spillUntil f s n k

/-! ### Executing an instruction (R55, R62, R63) -/

/-- What the encoding of an instruction and its table row fix: validity of its operands, whether it
names a general register, takes an ordering prefix, is a vector instruction, the lowest level that may
execute it, whether it is undefined in the present state, the exception of the state register it names, and MISALIGNED of
its operands. -/
structure Chk where
  valid : Bool := true
  gpr   : Bool := true
  ord   : Bool := false
  vec   : Bool := false
  level : Nat := 0
  undef : Bool := false
  sys   : Option Trap := none
  align : Option Trap := none

/-- Whether the encoding is valid (R70, R71, R90); DK-F has neither prefixes nor a negated guard (R74). -/
def validInsn (x : Insn) (k : Chk) : Bool :=
  x.valid && k.valid && (decide (x.kind = 0) || (k.ord && decide (x.scope ≠ 3))) && (decide (x.win = 0) || k.gpr) &&
  (decide (x.core < 216) || (decide (x.kind = 0) && decide (x.win = 0) && !x.neg))

/-- The exception of an instruction whose level is above the current one (R60, Table 2-6): an H-level
instruction is undefined where no level H exists (DEDUCED, log 38). -/
def State.levelTrap (s : State) (n least syn : Nat) : Option Trap :=
  let c := s.core n
  if c.level ≥ least then none
  else if least = 3 || (decide (least = 2) && (c.darkW || decide (n ≥ 216))) then some undefTrap
  else some { cause := cPriv, syn := syn, target := some least }

/-- MISALIGNED of the registers that hold an address and a length. -/
def State.alignTrap (s : State) (x : Insn) (ra rn : Reg) (m : Nat) : Option Trap :=
  if (s.src x ra).toNat % m ≠ 0 ∨ (s.src x rn).toNat % m ≠ 0 then some { cause := cMisal, eva := (s.src x ra).toNat } else none

/-- MISALIGNED as it is found before the parent frame that the operands name is filled (R62): the operands of a parent
that is not resident are not known yet. -/
def State.alignEarly (s : State) (x : Insn) (ra rn : Reg) (m : Nat) : Option Trap :=
  if x.win.getLsbD 1 ∧ s.resident x.core < 3 then none else s.alignTrap x ra rn m

/-- The checks after the guard and before the operands are used (R60, R62, R74). -/
def State.insnTrap (s : State) (x : Insn) (k : Chk) : Option Trap :=
  let c := s.core x.core
  if k.undef || (k.vec && decide (x.core ≥ 216)) then some undefTrap
  else (s.levelTrap x.core k.level 0).or (k.sys.or
    (if k.vec && !(c.srv 0x400).getLsbD 9 then some { cause := cVec }
     else if decide (x.core ≥ 216) && decide (c.pc.toNat % 4 ≠ 0) then some { cause := cMisal, eva := c.pc.toNat }
     else k.align))

/-- Take a line into the L1I through the L2 (R157): whether it is poisoned. -/
def State.l1iTake (s : State) (n line key : Nat) : Got Bool × State :=
  match (s.evtC n 0x40 1).getLine' n line key (s.core n).darkW false .l1i with
  | (.line l nf, s) => (.ok l.poison, if nf then s else s.l1iFill n ⟨line, key, l.dark, l.poison⟩)
  | (_, s) => (.wait, s)

/-- Fetch a translated piece of an instruction: Normal-WB lines of a compute core through its L1I, any other as a load. -/
def State.fetchPiece (s : State) (n va : Nat) (x : Xlat) (len : Nat) : Got Unit × State :=
  let c := s.core n
  let bad : Got Unit := .trap { cause := cPoison, eva := va }
  let cached := decide (n < 216 ∧ x.type = 0) && (match s.lineKind (x.hpa / 64) with | .other _ => false | _ => true)
  if cached then
    (linePieces 3 x.hpa len).foldl (fun (a : Got Unit × State) p => andThen a fun _ s =>
      match (s.core n).caches.l1i.find? (fun q => decide (q.2.line = p.1) && (c.darkW || !q.2.dark)) with
      | some q => (if q.2.poison then bad else .ok (), s)
      | none => andThen (s.l1iTake n p.1 x.key) fun b s => (if b then bad else .ok (), s)) (.ok (), s)
  else andThen (s.ldPiece n c.darkW x len) fun r s => (if r.2 then bad else .ok (), s)

/-- Fetch the instruction at the pc (R126, R135, R137): every page is translated, then its lines are taken. -/
def State.fetchHere (s : State) (n len : Nat) : Got Unit × State :=
  let c := s.core n
  andThen (State.xlRange 3 s n 2 c.level c.darkW cFetch none c.pc.toNat len) fun ps s =>
    andThen (ps.foldl (fun (a : Got Nat × State) p => andThen a fun va s =>
      andThen (s.fetchPiece n va p.1 p.2) fun _ s => (.ok (va + p.2), s)) (.ok c.pc.toNat, s)) fun _ s => (.ok (), s)

/-- The fetch of an instruction: as the command reports it, or found here (log 11). -/
def State.fetch (s : State) (x : Insn) : Got Unit × State :=
  let n := x.core
  let c := s.core n
  match x.fetch with
  | .ok => (.ok (), s)
  | .here => s.fetchHere n x.len
  | .fault y a i =>
    let ipa := if y.getLsbD 7 then some i.toNat else none
    (.trap { cause := cFetch, syn := y.toNat, eva := a.toNat, ipa := ipa }, s)
  | .poison => (.trap { cause := cPoison, eva := c.pc.toNat }, s)
  | .fill line key =>
    if n ≥ 216 then (.ok (), s)
    else andThen (s.l1iTake n line key) fun b s => (if b then .trap { cause := cPoison, eva := c.pc.toNat } else .ok (), s)

/-- Whether a core can execute its next instruction: it runs, and no fabric-scope FENCE is under way (R95). -/
def State.coreReady (s : State) (n : Nat) : Bool := (s.core n).released && !s.wakeHeld n && (s.core n).fabric.isEmpty

/-- A core that waits with clocks running continues once an interrupt is pending (Table 2-11, R436). -/
def State.awake (s : State) (n : Nat) : Bool × State :=
  let c := s.core n
  if !c.waiting then (true, s)
  else if s.irq n && (decide (n ≥ 216) || decide (s.cstate n = 0)) then (true, s.setCore n { c with waiting := false })
  else (false, s)

/-- The end of an instruction: the PC moves to the address given, or past it; its accesses are over. -/
def State.finishInsn (s : State) (x : Insn) (pc : Word) (target : Option Word) : State :=
  (s.setCore x.core { s.core x.core with
    pc := pcOf (target.getD (pc + BitVec.ofNat 64 x.len)), dev := [], nearTry := none }).evtC x.core 0 1

/-- Execute an instruction (R55, R59, R62): an array error that it detects first (R164–R167), fetch, validity, guard, the checks, the parent frame that a
window prefix needs, then the operation.  A trap that returns to the next instruction saves its address
(R59).  While the instruction waits, it has not executed. -/
def State.insn (s : State) (x : Insn) (k : Chk) (body : State → Got (Option Word) × State) : State :=
  let n := x.core
  let s := if s.coreReady n then s.arraysCheck x.err else s
  if !s.coreReady n then s
  else match s.awake n with
    | (false, s) => s
    | (true, s) =>
      let pc := (s.core n).pc
      let next := pcOf (pc + BitVec.ofNat 64 x.len)
      let take (s : State) (t : Trap) : State :=
        s.takeTrap n t (if t.cause = cScall ∨ t.cause = cHcall ∨ t.cause = cDcall then next else pc) x.len
      match s.fetch x with
      | (.wait, s) => s
      | (.trap t, s) => take s t
      | (.ok _, s) =>
        if !validInsn x k then take s undefTrap
        else if s.pr n x.pred == x.neg then s.finishInsn x pc none
        else match s.insnTrap x k with
          | some t => take s t
          | none =>
            match andThen (if x.win = 0 then (.ok (), s) else s.needParent n) fun _ s => body s with
            | (.ok t, s) => s.finishInsn x pc t
            | (.trap t, s) => take s t
            | (.wait, s) => s

/-- An operation that always completes and falls through to the next instruction. -/
def simply (f : State → State) (s : State) : Got (Option Word) × State := (.ok none, f s)
/-- An operation that ends with no value. -/
def endUnit (r : Got Unit × State) : Got (Option Word) × State := andThen r fun _ s => (.ok none, s)

end Sys2Proof.Machine
end

