-- ==== Sys2Proof/Machine/CoreSys.lean ====
section
/-! DEFINITION.
The computational, system, window, predicate and interrupt instructions of a core (Table 2-9, Table
2-11), the state registers (R66, R67, R431) and interrupts (R63, R64, R356, R435). -/

namespace Sys2Proof.Machine

/-! ### Computational instructions (R2, R73, R74) -/

/-- COMPUTATIONAL_INSTRUCTION with the destinations `rd` and the general, predicate and vector sources `ra`, `rb` and
`vec`: what it writes is what the Deckai Architecture Reference defines, a free value (log 3). -/
def computationalInstructionRun (x : Insn) (op : CompOp) (rd : CompDst) (ra : List Reg) (rb : List PReg) (vec : List Reg)
    (s : State) : State :=
  let n := x.core
  let known := if n < 216 then decide (op.code < 0x80) else decide (op.code < 0x20 ∨ (0x39 ≤ op.code ∧ op.code < 0x40))
  let vecs := !(vec.isEmpty && rd.vec.isEmpty)
  s.insn x { valid := known, gpr := !(ra.isEmpty && rd.gpr.isEmpty), vec := vecs } (simply fun s =>
    let g := ra.map (s.src x)
    let v := vec.map (s.vreg n)
    let p := rb.map (s.pr n)
    let s := rd.gpr.zipIdx.foldl (fun (s : State) d => s.dst x d.1 (Config.deckai op.code op.ops op.imm g v p d.2)) s
    let s := rd.vec.zipIdx.foldl (fun (s : State) d => s.setVreg n d.1 (Config.deckaiVec op.code op.ops op.imm g v p d.2)) s
    rd.pred.zipIdx.foldl (fun (s : State) d => s.setPr n d.1 (Config.deckaiPred op.code op.ops op.imm g v p d.2)) s)

/-! ### State registers -/

/-- The state registers of Table 2-5, Table 14-2 and the chapters on translation, ordering and counters. -/
def srListed (n : Nat) : Bool :=
  [0x001, 0x002, 0x010, 0x011, 0x400, 0x410, 0x430, 0x431, 0x432, 0x434, 0x440, 0x441, 0x600, 0x810, 0x830, 0x840,
   0x841, 0xC10, 0xC32, 0xD00, 0xD01, 0xD10, 0xD11, 0xD40].contains n ||
  decide ((0x040 ≤ n ∧ n < 0x060) ∨ (0x500 ≤ n ∧ n < 0x504) ∨ (0x900 ≤ n ∧ n < 0x905) ∨ (0xD50 ≤ n ∧ n < 0xD54)) ||
  (decide (n / 0x400 ≥ 1) && [0x420, 0x820, 0xC20, 0xD20].any (fun b => decide ((b ≤ n ∧ n < b + 6) ∨ (b + 8 ≤ n ∧ n < b + 12))))

/-- The Darkroom copy that U and S of the Darkroom world reach by a Daylight number (Table 14-2). -/
def srDark (n : Nat) : Nat :=
  if n = 0x010 then 0xD10 else if n = 0x410 then 0xD11
  else if (0x420 ≤ n ∧ n < 0x426) ∨ (0x428 ≤ n ∧ n < 0x42C) ∨ n = 0x440 ∨ (0x500 ≤ n ∧ n < 0x504) then
    (if n = 0x440 then 0xD40 else if n ≥ 0x500 then n - 0x500 + 0xD50 else n - 0x420 + 0xD20)
  else n

/-- The bits of a state register that software writes; the others are RSV or RO (R66). -/
def srMask (n : Nat) : Word :=
  if n = 0x010 ∨ n = 0xD10 then ~~~ 0x7F#64
  else if n = 0x421 ∨ n = 0x821 ∨ n = 0xC21 ∨ n = 0xD21 then 0x80000303#64
  else if n = 0x422 ∨ n = 0x822 ∨ n = 0xC22 ∨ n = 0xD22 then 0xF07FF#64
  else if n = 0x425 ∨ n = 0x825 ∨ n = 0xC25 ∨ n = 0xD25 then ~~~ 0xFFF#64
  else if n = 0x440 ∨ n = 0x840 ∨ n = 0xD40 then 0x0303030303030303#64
  else if n = 0x500 ∨ n = 0x501 ∨ n = 0x900 ∨ n = 0x902 ∨ n = 0xD50 ∨ n = 0xD51 then 0x000FFFFFFFFFF000#64
  else if n = 0x502 ∨ n = 0xD52 then 0xFFFFFFFC00000007#64
  else if n = 0x503 ∨ n = 0xD53 ∨ n = 0x841 ∨ n = 0x441 then 3
  else if n = 0x600 then 0xFFFFFFFF#64
  else if n = 0x830 ∨ n = 0xD00 then 1
  else if n = 0x901 then 0xFFFFFFFC00000001#64
  else if n = 0x903 then 0x0000FFFC00000001#64
  else if n = 0x904 then 0x000FFFFFFFFFFFFF#64
  else BitVec.allOnes 64

/-- The exception of an access to a state register (R60, R66, R80, R431, R548). -/
def State.srTrap (s : State) (n sr : Nat) (write : Bool) : Option Trap :=
  let c := s.core n
  let evt := decide (0x040 ≤ sr ∧ sr < 0x060)
  let dark := c.darkW && decide (n < 216) && decide (c.level < 3)
  let need (l : Nat) : Option Trap := if c.level < l then some { cause := cPriv, syn := sr, target := some l } else none
  if !srListed sr || (decide (n ≥ 216) && (decide (sr ≥ 0x800) || evt || decide (sr = 0x600))) then some undefTrap
  else if dark && (decide (sr ≥ 0x800) || decide (sr = 0x431 ∨ sr = 0x432 ∨ sr = 0x434)) then some undefTrap
  else if evt then
    if write then some undefTrap
    else if c.level = 0 ∧ !(c.srv 0x600).getLsbD (sr - 0x040) then need 1 else none
  else if sr / 0x400 = 3 ∧ c.level < 3 then some undefTrap
  else need (sr / 0x400)

/-- The register that a number reaches. -/
def State.srReach (s : State) (n sr : Nat) : Nat :=
  let c := s.core n
  if c.darkW ∧ n < 216 ∧ c.level < 3 then srDark sr else sr

/-- WSTATE. -/
def State.wstate (s : State) (n : Nat) : Word :=
  let c := s.core n
  BitVec.ofNat 64 (c.oldest * 1024 + min (s.freeFrames n) 2 * 256 + (s.resident n - 1) * 16 + c.cwp)

/-- The counter that EVTRDi reads (R548). -/
def evtrdKey (n i : Nat) : Nat :=
  let l := n % 18
  if i < 12 then kEvt (n / 18) l i else if i < 20 then kEvt (n / 18) (0x40 + l) (i - 12)
  else if i < 28 then kEvt (n / 18) (0x58 + l) (i - 20) else kEvt (n / 18) (0x88 + l) (i - 28)

/-- EXTCLAIM: the lowest pending vector, which is cleared (R357). -/
def State.extClaim (s : State) (n : Nat) : Word × State :=
  let c := s.core n
  match lowBit c.ext.toNat 256 with
  | some v => (BitVec.ofNat 64 v, s.setCore n { c with ext := c.ext &&& ~~~ BitVec.ofNat 256 (2 ^ v) })
  | none => (0, s)

/-- The value that MFSR reads. A service core has no system core number: a free value (log 38). -/
def State.srRead (s : State) (n sr : Nat) : Word × State :=
  let k := s.srReach n sr
  let c := s.core n
  if k = 0x001 then (BitVec.ofNat 64 s.time, s)
  else if k = 0x002 then (if n < 216 then (BitVec.ofNat 64 (s.sysCore n), s) else s.fresh)
  else if k = 0x011 then (s.wstate n, s)
  else if 0x040 ≤ k ∧ k < 0x060 then (s.rd (evtrdKey n (k - 0x040)), s)
  else if k = 0x434 then s.extClaim n
  else if k = 0xD01 then (s.rd (kWldDrrange s.sock), s)
  else (c.srv k, s)

/-- Send an IPI (R68): to a core of this package at once, to another socket as a message; NOTARGET
notes a core that is not populated or is retired. -/
def State.ipiSend (s : State) (n : Nat) (v : Word) : State :=
  let tag := bitsOf v 16 6
  let pend (s : State) (m : Nat) : State :=
    let c := s.core m
    s.setCore m (c.setSr 0x431 (c.srv 0x431 ||| BitVec.ofNat 64 (2 ^ tag)))
  let there (m : Nat) : Bool := !s.coreOut m && !s.fon (kCoreId m) fCoreId_RETIRED
  let others := (s.plat.memmap.filter (fun m => m.kind = 7)).map (·.socket)
  let note (s : State) (b : Bool) : State :=
    s.setCore n ((s.core n).setSr 0x430 (if b then BitVec.ofNat 64 (2 ^ 63) else 0))
  if v.getLsbD 10 then
    let s := s.each ((List.range 216).filter (fun m => decide (m ≠ n) && there m)) pend
    note (s.each others fun s j => s.emit (.ipi (1024 + j) tag)) false
  else
    let t := bitsOf v 0 10
    if t / 216 = s.sock then (if there (t % 216) then note (pend s (t % 216)) false else note s true)
    else if others.contains (t / 216) then note (s.emit (.ipi t tag)) false
    else note s true

/-- What MTSR does: a write of RO bits is ignored (R66); IPI_SEND is ordered after every earlier access. -/
def State.srWrite (s : State) (n sr : Nat) (v : Word) : Got Unit × State :=
  let k := s.srReach n sr
  let c := s.core n
  if [0x001, 0x002, 0x011, 0x434, 0xD01].contains k then (.ok (), s)
  else if k = 0x430 then andThen (s.sbEmpty n) fun _ s => (.ok (), s.ipiSend n v)
  else if k = 0x431 then (.ok (), s.setCore n (c.setSr k (c.srv k &&& ~~~ v)))
  else if k = 0x400 then (.ok (), s.setCore n (c.setSr k ((c.srv k &&& ~~~ 0x300#64) ||| (v &&& 0x300#64))))
  else
    let s := s.setCore n (c.setSr k (v &&& srMask k))
    (.ok (), if k = 0x441 ∧ v.getLsbD 8 then s.predReset n else s)

/-- MFSR (R66). -/
def mfsrRun (x : Insn) (rd : Reg) (sr : BitVec 12) (s : State) : State :=
  s.insn x { sys := s.srTrap x.core sr.toNat false } (simply fun s =>
    let r := s.srRead x.core sr.toNat
    r.2.dst x rd r.1)

/-- A write of a state register by an instruction. -/
def State.mtsrInsn (s : State) (x : Insn) (rs : Reg) (sr : Nat) : State :=
  s.insn x { sys := s.srTrap x.core sr true } fun s => endUnit (s.srWrite x.core sr (s.src x rs))

/-- MTSR (R66). -/
def mtsrRun (x : Insn) (rs : Reg) (sr : BitVec 12) (s : State) : State := s.mtsrInsn x rs sr.toNat
/-- IPI_SEND (R68). -/
def ipiSendRun (x : Insn) (rs : Reg) (s : State) : State := s.mtsrInsn x rs 0x430
/-- ATOMCTL_CLR (R113): an MTSR of ATOMCTL whose value sets CLR. -/
def atomctlClrRun (x : Insn) (rs : Reg) (s : State) : State := s.mtsrInsn x rs 0x441
/-- EXTCLAIM (R357). -/
def extclaimRun (x : Insn) (rd : Reg) (s : State) : State := mfsrRun x rd 0x434#12 s
/-- RDTIME. -/
def rdtimeRun (x : Insn) (rd : Reg) (s : State) : State :=
  s.insn x {} (simply fun s => s.dst x rd (BitVec.ofNat 64 s.time))

/-! ### Traps (R60, R430) -/

/-- SCALL. -/
def scallRun (x : Insn) (imm : BitVec 16) (s : State) : State :=
  s.insn x { gpr := false } fun s => (.trap { cause := cScall, syn := imm.toNat }, s)

/-- HCALL: undefined at U, in the Darkroom world (R431; at M too, which Table 2-6 does not name, log 38)
and on a service core (R80). -/
def hcallRun (x : Insn) (imm : BitVec 16) (s : State) : State :=
  let c := s.core x.core
  s.insn x { gpr := false, undef := decide (c.level = 0) || c.darkW || decide (x.core ≥ 216) } fun s =>
    (.trap { cause := cHcall, syn := imm.toNat, target := some 2 }, s)

/-- DCALL (R430): undefined at U, with no monitor, and on a service core. -/
def dcallRun (x : Insn) (imm : BitVec 16) (s : State) : State :=
  let c := s.core x.core
  s.insn x { gpr := false, undef := decide (c.level = 0) || decide (x.core ≥ 216) || !s.fon kWldCtl fWldCtl_MONEN } fun s =>
    (.trap { cause := cDcall, syn := imm.toNat, target := some 3 }, s)

/-- BRK. -/
def brkRun (x : Insn) (imm : BitVec 16) (s : State) : State :=
  s.insn x { gpr := false } fun s => (.trap { cause := cBrk, syn := imm.toNat }, s)

/-! ### ERET and the world exit (R65, R432, R433) -/

/-- Steps 2 to 4 of a world exit to a level. Darkroom frames below the caller's, which cannot leave the
contiguous run, stay zeroed and take the caller's level (DEDUCED, log 38). -/
def State.worldExit (s : State) (n level : Nat) : State :=
  let m := frames n
  let c := s.core n
  let w := c.cwp
  let run := (List.range (s.resident n)).map (fun k => (c.oldest + k) % m)
  let gone (f : Nat) : Bool := decide (f = w ∨ f = (w + 1) % m) || decide (c.owner f % 2 = 1)
  let win := run.foldl (fun v f => if gone f then zeroWin v f 0 else v) c.win
  let parent := s.parentWin n
  let dropped := run.takeWhile (fun f => decide (c.owner f % 2 = 1) && decide (f ≠ parent))
  let oldest := (c.oldest + dropped.length) % m
  let owners := run.foldl (fun o f => if c.owner f % 2 = 1 then SMap.set o f (ownerCode level false) else o) c.owners
  let s := s.setCore n { c with win := win, oldest := oldest, owners := owners, v := [], preds := 1,
                                c := c.c.filter (fun p => p.1 < 5) }
  let s := s.unslide n
  ((s.setCore n ((s.core n).setSr 0x400 ((s.core n).srv 0x400 &&& ~~~ 0x80000000#64))).predReset n).evt 15 2 5

/-- Whether a core lies on a die under Sealed partitioning, which it never leaves the Darkroom of (R453). -/
def State.sealedCore (s : State) (n : Nat) : Bool :=
  decide (n < 216) && s.fon kWldSeal fWldSeal_ACTIVE && (s.rd kWldSeal).getLsbD (n / 18)

/-- ERET: one that would leave the Darkroom on a sealed die is undefined (R453). -/
def eretRun (x : Insn) (s : State) : State :=
  let n := x.core
  let c := s.core n
  let level := c.level
  let b := excBase n level c.darkW
  let es := c.srv (b + 1)
  let tl := es.toNat % 4
  let exits := decide (level = 3 ∧ tl < 3) && !(c.srv 0xD00).getLsbD 0
  let bad := decide (1 ≤ level) &&
    (decide (tl > level) || (decide (level = 3 ∧ tl = 2) && (c.srv 0xD00).getLsbD 0) || (exits && s.sealedCore n))
  s.insn x { gpr := false, level := 1, undef := bad } fun s =>
    andThen (s.needFrame n (ownerCode tl (c.darkW && !exits))) fun _ s =>
      let s := if exits then s.worldExit n tl else s.unslide n
      let c := s.core n
      let st := (c.srv 0x400 &&& 0x80000000#64) ||| (es &&& 0x303#64)
      (.ok (some (c.srv b)), s.setCore n (c.setSr 0x400 st))

/-! ### WFI, ISYNC, RDTIME -/

/-- WFI: the stores of the core are performed first; with an interrupt pending the wait ends at once. -/
def wfiRun (x : Insn) (s : State) : State :=
  s.insn x { gpr := false, level := 1 } fun s =>
    andThen (s.sbEmpty x.core) fun _ s => (.ok none, if s.irq x.core then s else s.coreSleep x.core)

/-- ISYNC: later fetches observe earlier writes; SXG governs fetches from here on (R126), and the model applies every
other write at once. -/
def isyncRun (x : Insn) (s : State) : State :=
  s.insn x { gpr := false } (simply fun s =>
    let c := s.core x.core
    s.setCore x.core { c with sxgS := (c.srv 0x503).getLsbD 0, sxgD := (c.srv 0xD53).getLsbD 0 })

/-! ### Windows (R46, R50, R72, R79) -/

/-- Slide for a call and jump: the return address goes to the callee's n7. -/
def State.callTo (s : State) (x : Insn) (target : Word) : Got (Option Word) × State :=
  let n := x.core
  andThen (State.spillUntil (frames n) s n 3) fun _ s =>
    let back := pcOf ((s.core n).pc + BitVec.ofNat 64 x.len)
    let s := s.slide n (s.core n).self
    (.ok (some target), s.setRegAt n 15 (s.core n).cwp back)

/-- CALL. -/
def callRun (x : Insn) (disp : Word) (s : State) : State :=
  s.insn x { gpr := false } fun s => s.callTo x ((s.core x.core).pc + disp)
/-- CALLR. -/
def callrRun (x : Insn) (rs : Reg) (s : State) : State := s.insn x {} fun s => s.callTo x (s.src x rs)

/-- RET. -/
def retRun (x : Insn) (s : State) : State :=
  s.insn x { gpr := false } fun s =>
    let n := x.core
    let back := s.regAt n 15 (s.core n).cwp
    andThen (s.needParent n) fun _ s => (.ok (some back), s.unslide n)

/-- WKEEP. -/
def wkeepRun (x : Insn) (s : State) : State :=
  s.insn x { gpr := false } fun s => endUnit (State.spillUntil (frames x.core) s x.core 2)

/-- Spill frames until none is owned by a level, at most `most` of them: whether it is finished. -/
def State.flushFrames (fuel : Nat) (s : State) (n level most : Nat) : Got Bool × State :=
  match fuel with
  | 0 => (.ok true, s)
  | f + 1 =>
    let c := s.core n
    let run := (List.range (s.resident n)).map (fun k => (c.oldest + k) % frames n)
    if c.oldest = c.cwp || !run.any (fun f => decide (c.owner f / 2 = level)) then (.ok true, s)
    else if most = 0 then (.ok false, s)
    else andThen (s.spill n) fun _ s => State.flushFrames f s n level (most - 1)

/-- The exception of WFLUSH for a level not below the current one (R79): taken at the lowest Daylight
level above it, in the Darkroom at M, and at the default level where no level may execute it (DEDUCED,
log 38). -/
def State.flushTrap (s : State) (n level : Nat) : Option Trap :=
  let c := s.core n
  if level < c.level then none
  else
    let target := if n ≥ 216 then none else if c.darkW then some 3 else if level < 2 then some (level + 1) else none
    some { cause := cPriv, target := target }

/-- WFLUSH: an interrupt may end it between frames (`upto`), and it is executed again. -/
def wflushRun (x : Insn) (level : BitVec 2) (upto : Option Nat) (s : State) : State :=
  s.insn x { gpr := false, sys := s.flushTrap x.core level.toNat } fun s =>
    andThen (State.flushFrames (frames x.core) s x.core level.toNat (upto.getD (frames x.core))) fun done s =>
      (if done then .ok none else .wait, s)

/-- WPMOV: `dir` false reads the parent's register, true writes it; a window prefix makes the other
operand a parent's as well (R72). -/
def wpmovRun (x : Insn) (rd rs : Reg) (dir : Bool) (s : State) : State :=
  s.insn x {} fun s =>
    andThen (s.needParent x.core) fun _ s =>
      let p := s.parentWin x.core
      (.ok none, if dir then s.setRegAt x.core rd.toNat p (s.src x rs)
        else s.dst x rd (s.regAt x.core rs.toNat p))

/-! ### Predicates (R75) -/

/-- The condition CC of two values. -/
def condCode (cc : Nat) (a b : Word) : Bool :=
  match cc with
  | 0 => a == b
  | 1 => a != b
  | 2 => decide (a.toInt < b.toInt)
  | 3 => decide (a.toInt ≥ b.toInt)
  | 4 => decide (a.toNat < b.toNat)
  | 5 => decide (a.toNat ≥ b.toNat)
  | _ => (a &&& b) != 0

/-- A comparison: pd takes the result and pe its complement. -/
def State.compare (s : State) (x : Insn) (pd pe : PReg) (cc : BitVec 4) (ra : Reg) (b : State → Word) : State :=
  s.insn x { valid := decide (cc.toNat < 7) && !(decide (pd = pe) && decide (pd ≠ 0)) } (simply fun s =>
    let r := condCode cc.toNat (s.src x ra) (b s)
    (s.setPr x.core pd r).setPr x.core pe !r)

/-- PCMP. -/
def pcmpRun (x : Insn) (pd pe : PReg) (ra rb : Reg) (cc : BitVec 4) (s : State) : State :=
  s.compare x pd pe cc ra fun s => s.src x rb
/-- PCMPI: the immediate arrives extended. -/
def pcmpiRun (x : Insn) (pd pe : PReg) (ra : Reg) (imm : Word) (cc : BitVec 4) (s : State) : State :=
  s.compare x pd pe cc ra fun _ => imm
/-- PLOG. -/
def plogRun (x : Insn) (pd pa pb : PReg) (op : BitVec 2) (s : State) : State :=
  s.insn x { gpr := false } (simply fun s =>
    let a := s.pr x.core pa
    let b := s.pr x.core pb
    s.setPr x.core pd (match op.toNat with | 0 => a && b | 1 => a || b | 2 => a != b | _ => a && !b))
/-- PMOVR. -/
def pmovrRun (x : Insn) (rd : Reg) (s : State) : State :=
  s.insn x {} (simply fun s => s.dst x rd (((s.core x.core).preds ||| 1).setWidth 64))
/-- PMOVP. -/
def pmovpRun (x : Insn) (rs : Reg) (mask : BitVec 16) (s : State) : State :=
  s.insn x {} (simply fun s =>
    let v := s.src x rs
    s.each ((List.range 16).filter (fun i => mask.getLsbD i)) fun s i => s.setPr x.core (BitVec.ofNat 4 i) (v.getLsbD i))

/-! ### Interrupts -/

/-- The level at which a pending interrupt is taken now, if it may be (R64, R435). -/
def State.irqLevel (s : State) (n : Nat) : Option Nat :=
  let c := s.core n
  let ie := (c.srv 0x400).getLsbD 8
  if n ≥ 216 then (if c.level = 0 || ie then some 1 else none)
  else if c.darkW then (if c.level < 3 || ie then some 3 else none)
  else if (c.srv 0x830).getLsbD 0 then (if c.level ≤ 1 || (decide (c.level = 2) && ie) then some 2 else none)
  else if c.level = 0 || (decide (c.level = 1) && ie) then some 1 else none

/-- Whether an instruction of a core has begun and not ended: a part of it has been made, or a request of it other than a
fill is under way or answered (R63). -/
def State.midInsn (s : State) (n : Nat) : Bool :=
  let own (k : ReqKind) (r : HomeReq) : Bool := reqOfCore r n && !r.posted && decide (k ≠ .rds ∧ k ≠ .rdo ∧ k ≠ .upg ∧ k ≠ .wrf ∧ k ≠ .wrp)
  !(s.core n).dev.isEmpty || s.home.replies.any (fun h => own h.kind h.req) ||
  s.home.asked.any (fun p => decide (p.mode = .held) && own p.kind p.req) ||
  s.home.slices.any fun x => x.2.trans.any (fun t => decide (t.mode = .held) && own t.kind t.req) ||
    (x.2.waiting ++ x.2.parked).any (fun p => decide (p.mode = .held) && own p.kind p.req)

/-- INTERRUPT (R63): at an instruction boundary; among sources pending at once the lowest code is
reported (DEDUCED, log 38). -/
def interruptRun (core : Nat) (s : State) : State :=
  if !s.coreReady core || s.midInsn core then s
  else match s.irqs core, s.irqLevel core with
    | (code, _) :: _, some l => match s.awake core with
      | (false, s) => s
      | (true, s) => s.takeTrap core { cause := cIrq, syn := code - 1, target := some l } (s.core core).pc 0
    | _, _ => s

/-- TIMER_INTERRUPT (R67): pending while TIME is at or past the compare value; a core that waits with its
clocks running continues. -/
def timerInterruptRun (core : Nat) (s : State) : State :=
  if s.timerIrq core && (s.core core).released && !s.wakeHeld core then (s.awake core).2 else s

/-- IPI_ARRIVAL (R68): arrivals of one tag coalesce. -/
def ipiArrivalRun (core : Nat) (tag : BitVec 6) (s : State) : State :=
  let c := s.core core
  if (decide (core < 216) && s.coreOut core) || !c.released then s
  else s.setCore core (c.setSr 0x431 (c.srv 0x431 ||| BitVec.ofNat 64 (2 ^ tag.toNat)))

-- EXEC: COMPUTATIONAL_INSTRUCTION MFSR MTSR ERET WFI ISYNC RET WKEEP SCALL HCALL DCALL BRK RDTIME CALL CALLR WFLUSH WPMOV PCMP PCMPI PLOG PMOVR PMOVP INTERRUPT TIMER_INTERRUPT IPI_SEND IPI_ARRIVAL EXTCLAIM ATOMCTL_CLR
/-- COMPUTATIONAL_INSTRUCTION (R2): the effect of a well-formed command. -/
def execComputationalInstruction (x : Insn) (op : CompOp) (rd : CompDst) (ra : List Reg) (rb : List PReg) (vec : List Reg)
    (s : State) : Res :=
  runs x.wf (computationalInstructionRun x op rd ra rb vec) s

/-- MFSR (R66): the effect of a well-formed command. -/
def execMfsr (x : Insn) (rd : Reg) (sr : BitVec 12) (s : State) : Res :=
  runs x.wf (mfsrRun x rd sr) s

/-- MTSR (R66): the effect of a well-formed command. -/
def execMtsr (x : Insn) (rs : Reg) (sr : BitVec 12) (s : State) : Res :=
  runs x.wf (mtsrRun x rs sr) s

/-- ERET (R65): the effect of a well-formed command. -/
def execEret (x : Insn) (s : State) : Res := runs x.wf (eretRun x) s

/-- WFI (R504): the effect of a well-formed command. -/
def execWfi (x : Insn) (s : State) : Res := runs x.wf (wfiRun x) s

/-- ISYNC (R75): the effect of a well-formed command. -/
def execIsync (x : Insn) (s : State) : Res := runs x.wf (isyncRun x) s

/-- RET (R46): the effect of a well-formed command. -/
def execRet (x : Insn) (s : State) : Res := runs x.wf (retRun x) s

/-- WKEEP (R50): the effect of a well-formed command. -/
def execWkeep (x : Insn) (s : State) : Res := runs x.wf (wkeepRun x) s

/-- SCALL (R60): the effect of a well-formed command. -/
def execScall (x : Insn) (imm : BitVec 16) (s : State) : Res := runs x.wf (scallRun x imm) s

/-- HCALL (R60): the effect of a well-formed command. -/
def execHcall (x : Insn) (imm : BitVec 16) (s : State) : Res := runs x.wf (hcallRun x imm) s

/-- DCALL (R430): the effect of a well-formed command. -/
def execDcall (x : Insn) (imm : BitVec 16) (s : State) : Res := runs x.wf (dcallRun x imm) s

/-- BRK (R59): the effect of a well-formed command. -/
def execBrk (x : Insn) (imm : BitVec 16) (s : State) : Res := runs x.wf (brkRun x imm) s

/-- RDTIME (R75): the effect of a well-formed command. -/
def execRdtime (x : Insn) (rd : Reg) (s : State) : Res := runs x.wf (rdtimeRun x rd) s

/-- CALL (R46): the effect of a well-formed command. -/
def execCall (x : Insn) (disp : Word) (s : State) : Res := runs x.wf (callRun x disp) s

/-- CALLR (R46): the effect of a well-formed command. -/
def execCallr (x : Insn) (rs : Reg) (s : State) : Res := runs x.wf (callrRun x rs) s

/-- WFLUSH (R79): the effect of a well-formed command. -/
def execWflush (x : Insn) (level : BitVec 2) (upto : Option Nat) (s : State) : Res :=
  runs x.wf (wflushRun x level upto) s

/-- WPMOV (R72): the effect of a well-formed command. -/
def execWpmov (x : Insn) (rd : Reg) (rs : Reg) (dir : Bool) (s : State) : Res :=
  runs x.wf (wpmovRun x rd rs dir) s

/-- PCMP (R75): the effect of a well-formed command. -/
def execPcmp (x : Insn) (pd : PReg) (pe : PReg) (ra : Reg) (rb : Reg) (cc : BitVec 4) (s : State) : Res :=
  runs x.wf (pcmpRun x pd pe ra rb cc) s

/-- PCMPI (R75): the effect of a well-formed command. -/
def execPcmpi (x : Insn) (pd : PReg) (pe : PReg) (ra : Reg) (imm : Word) (cc : BitVec 4) (s : State) : Res :=
  runs x.wf (pcmpiRun x pd pe ra imm cc) s

/-- PLOG (R75): the effect of a well-formed command. -/
def execPlog (x : Insn) (pd : PReg) (pa : PReg) (pb : PReg) (op : BitVec 2) (s : State) : Res :=
  runs x.wf (plogRun x pd pa pb op) s

/-- PMOVR (R75): the effect of a well-formed command. -/
def execPmovr (x : Insn) (rd : Reg) (s : State) : Res := runs x.wf (pmovrRun x rd) s

/-- PMOVP (R75): the effect of a well-formed command. -/
def execPmovp (x : Insn) (rs : Reg) (mask : BitVec 16) (s : State) : Res :=
  runs x.wf (pmovpRun x rs mask) s

/-- INTERRUPT (R64): the effect of a well-formed command. -/
def execInterrupt (core : Nat) (s : State) : Res := runs (wfCore core) (interruptRun core) s

/-- TIMER_INTERRUPT (R67): the effect of a well-formed command. -/
def execTimerInterrupt (core : Nat) (s : State) : Res :=
  runs (wfCore core) (timerInterruptRun core) s

/-- IPI_SEND (R68): the effect of a well-formed command. -/
def execIpiSend (x : Insn) (rs : Reg) (s : State) : Res := runs x.wf (ipiSendRun x rs) s

/-- IPI_ARRIVAL (R68): the effect of a well-formed command. -/
def execIpiArrival (core : Nat) (tag : BitVec 6) (s : State) : Res :=
  runs (wfCore core) (ipiArrivalRun core tag) s

/-- EXTCLAIM (R357): the effect of a well-formed command. -/
def execExtclaim (x : Insn) (rd : Reg) (s : State) : Res := runs x.wf (extclaimRun x rd) s

/-- ATOMCTL_CLR (R113): the effect of a well-formed command. -/
def execAtomctlClr (x : Insn) (rs : Reg) (s : State) : Res := runs x.wf (atomctlClrRun x rs) s
-- END EXEC

end Sys2Proof.Machine
end

