-- ==== Sys2Proof/Machine/CoreData.lean ====
section
/-! DEFINITION.
Loads, stores, fences, atomics, cache maintenance, prefetches and the requests of an L2 (spec/03,
spec/05). -/

namespace Sys2Proof.Machine

/-! ### Loads and stores (R85–R90, R97) -/

/-- A speculative load (R114–R117): it fills caches and changes nothing else; a deferred line is noted. -/
def State.specLoad (s : State) (n va : Nat) : State :=
  let c := s.core n
  match s.translate n 0 c.level c.darkW true va with
  | (.ok x, s) =>
    if x.type ≠ 0 ∨ inScratch n x.hpa then s
    else match s.lineKind (x.hpa / 64) with
      | .other _ => s
      | _ => match s.loadLine n (x.hpa / 64) x.key c.darkW true with
        | (.deferred, s) => s.noteDeferred n (x.hpa / 64) x.key
        | (_, s) => s
  | (_, s) => s

/-- Loads that release, and stores that acquire, are invalid (R90). -/
def loadChk (x : Insn) (m : MemOp) : Chk := { valid := decide (x.kind ≠ 2), ord := true, vec := m.vec }
def storeChk (x : Insn) (m : MemOp) : Chk := { valid := decide (x.kind = 0 ∨ x.kind = 2), ord := true, vec := m.vec }

/-- LOAD. A speculative one is not the instruction's execution: its work may be discarded (R114). -/
def loadInsnRun (x : Insn) (m : MemOp) (s : State) : State :=
  let n := x.core
  if m.spec then (if s.coreReady n && !(s.core n).waiting then s.specLoad n (s.src x m.ra + m.off).toNat else s)
  else s.insn x (loadChk x m) fun s =>
    andThen (s.ordFirst x) fun _ s => andThen (s.ldVa n (s.src x m.ra + m.off).toNat m.size) fun b s =>
      let v := leNat b
      (.ok none, if m.vec then s.setVreg n m.reg (lineOf b)
        else s.dst x m.reg (if m.signed then sextW (8 * m.size) v else BitVec.ofNat 64 v))

/-- STORE. A speculative store does nothing (R116). -/
def storeInsnRun (x : Insn) (m : MemOp) (s : State) : State :=
  let n := x.core
  if m.spec then s
  else s.insn x (storeChk x m) fun s =>
    let b := if m.vec then lineBytes (s.vreg n m.reg) else leBytes m.size (s.src x m.reg).toNat
    endUnit (s.stVa n (s.src x m.ra + m.off).toNat b (decide (x.kind = 2)) (decide (x.scope = 2)))

/-! ### Fences (R92–R95) -/

/-- FENCE: with SL or SS the stores of the core are performed first; at fabric scope the lines that its maintenance writes
have left too, and later instructions wait for the acknowledgements that the fence awaits (R94). Loads complete in program
order (log 39). -/
def fenceRun (x : Insn) (set : BitVec 4) (scope : BitVec 2) (s : State) : State :=
  let n := x.core
  let stores := set.getLsbD 2 || set.getLsbD 3
  s.insn x { gpr := false, valid := decide (set ≠ 0 ∧ scope ≠ 3) } fun s =>
    if !stores then (.ok none, s)
    else andThen (s.sbEmpty n) fun _ s =>
      if scope ≠ 2 then (.ok none, s)
      else if s.home.wbuf.any (fun w => decide (w.core = some n)) then (.wait, s.drainWb)
      else
        let out := (s.fio.outs.filter (fun o => o.write && decide (o.core = some n))).map (·.tag)
        (.ok none, s.setCore n { s.core n with fabric := out })

/-- FABRIC_FENCE_COMPLETE (R95): once every access that the fence awaits has been acknowledged or has
expired. -/
def fabricFenceCompleteRun (core : Nat) (s : State) : State :=
  if (s.core core).fabric.any (fun t => (s.fabOut t).isSome) then s
  else s.setCore core { s.core core with fabric := [] }

/-! ### Atomics (R105–R113) -/

/-- Whether another core of the die holds a line, which makes a near atomic that must obtain it contended; the grant tells
of the copies of other dies, of other sockets and of the service cores (R111). -/
def State.dieCopy (s : State) (n line : Nat) : Bool := (s.holders (n / 18) line).any (fun m => decide (m ≠ n))

/-- A near atomic that must obtain its line notes once what it found (R111). -/
def State.nearStart (s : State) (n line : Nat) : State :=
  let c := s.core n
  if c.nearTry.any (fun p => decide (p.1 = line)) then s
  else s.setCore n { c with nearTry := some (line, s.dieCopy n line) }

/-- Whether a near atomic was contended. -/
def Core.nearShared (c : Core) (line : Nat) : Bool := match c.nearTry with
  | some (l, b) => decide (l = line) && b
  | none => false

/-- Whether an atomic goes far (R107–R110). -/
def State.goesFar (s : State) (n line type hint : Nat) : Bool :=
  let c := s.core n
  if n ≥ 216 ∨ type = 1 ∨ s.lineKind line = .fabric then true
  else
    let pick := [(c.srv 0x841).toNat % 4 % 3, hint, (c.srv 0x441).toNat % 4 % 3].find? (· ≠ 0)
    match pick with
    | some v => decide (v = 2)
    | none => decide (SMap.get (fun _ => 1) c.pred ((line ^^^ (line >>> 10)) % 1024) ≥ 2)

/-- A near atomic (R106): the old value, or poison. -/
def State.nearAtomic (s : State) (n : Nat) (x : Xlat) (dark : Bool) (op : AmoOp) (size operand compare : Nat) :
    Got (Nat × Bool) × State :=
  let line := x.hpa / 64
  let held : Bool := match (s.core n).caches.current line with
    | some l => seen l dark && decide (l.st = .m ∨ l.st = .e)
    | none => false
  let s := if held then s else s.nearStart n line
  match s.ownLine n line x.key dark true with
  | (.line l nf, s) =>
    if nf || l.poison then (.ok (0, l.poison), s)
    else
      let old := lineField l.data (x.hpa % 64) size
      let new := lineSet l.data (x.hpa % 64) size (amoCompute op size old operand compare)
      let contended := (s.core n).nearShared line
      let s := s.writeOwned n { l with data := new } new 0
      (.ok (old, false), (s.evtC n 0 7).train n line contended)
  | (_, s) => (.wait, s)

/-- A far atomic (R107): performed at the home; a posted one is put into the store buffer (R108). -/
def State.farAtomic (s : State) (x : Insn) (l : Xlat) (dark : Bool) (op : AmoOp) (size operand compare : Nat) (posted : Bool) :
    Got (Nat × Bool) × State :=
  let n := x.core
  let line := l.hpa / 64
  let s := (s.evtC n 0 8).spTouch n
  if posted then
    let e : SbEnt := { hpa := l.hpa, size := size, data := 0, type := l.type, key := l.key, dark := dark, amo := some (op, operand),
                       rel := decide (x.kind = 2), fab := decide (x.scope = 2), trains := true }
    (.ok (0, false), s.setCore n { s.core n with sb := (s.core n).sb ++ [e] })
  else match s.homeSync .atf (s.farReq n l.hpa l.key dark op size operand compare false) with
    | (.reply d p c nf, s) =>
      let trains := decide (l.type = 0) && decide (n < 216) && decide (s.lineKind line ≠ .fabric) && !p && !nf
      (.ok (lineField d 0 size, p), if trains then s.train n line c else s)
    | (_, s) => (.wait, s)

/-- The permission fault of an atomic that its memory does not take (R107, R488). -/
def atomicFault (x : Xlat) (va : Nat) : Trap :=
  { cause := cData, syn := syn 1 x.level (if x.ipa.isSome then 1 else 0) 3 false false, eva := va, ipa := x.ipa }

/-- An atomic of a service core at the scratch banks (R488). -/
def State.scratchAtomic (s : State) (n : Nat) (x : Xlat) (va : Nat) (op : AmoOp) (size operand : Nat) (posted : Bool) :
    Got (Nat × Bool) × State :=
  if op ≠ .add ∧ op ≠ .swap then (.trap (atomicFault x va), s)
  else match s.ssmReady (x.hpa - apertureBase) size with
    | (false, s) => (.wait, s)
    | (true, s) =>
      let r := s.ssmOne (some (n - 216)) (x.hpa - apertureBase) size true operand (some op)
      if r.1.2 && posted then (.ok (0, false), r.2.deferredErr 0x75 (some (x.hpa / 64 * 64)) none (decide (n = 216)) 0xFFFF)
      else (.ok (r.1.1.toNat, r.1.2), r.2)

/-- An atomic at a virtual address: its operand is aligned, its memory is not of a Device type, the
stores of the core come first; poison is consumed (R105). -/
def State.atomicVa (s : State) (x : Insn) (va : Nat) (op : AmoOp) (size operand compare hint : Nat) (posted : Bool) :
    Got Nat × State :=
  let n := x.core
  let dark := s.coreDark n
  if va % size ≠ 0 then (.trap { cause := cMisal, eva := va }, s)
  else andThen (s.ordFirst x) fun _ s => andThen (s.xlSelf n 3 va) fun l s =>
    if l.type ≥ 2 then (.trap (atomicFault l va), s)
    else if inScratch n l.hpa then
      andThen (s.scratchAtomic n l va op size operand posted) fun r s =>
        if r.2 then (.trap { cause := cPoison, eva := va }, s) else (.ok r.1, s)
    else match s.lineKind (l.hpa / 64) with
      | .other m => (.ok 0, s.unmapped (l.hpa / 64) m dark)
      | _ => andThen (s.sbEmpty n) fun _ s =>
          let r := if s.goesFar n (l.hpa / 64) l.type hint then s.farAtomic x l dark op size operand compare posted
            else s.nearAtomic n l dark op size operand compare
          andThen r fun r s => if r.2 then (.trap { cause := cPoison, eva := va }, s) else (.ok r.1, s)

/-- AMO with an OP (R75, R105): SZ acts on 32 bits and sign-extends; with rd c0 and no acquire kind it
is posted when far (R108). -/
def amoRun (op : AmoOp) (x : Insn) (rd ra rv : Reg) (hint : BitVec 2) (sz : Bool) (s : State) : State :=
  let size := if sz then 4 else 8
  let posted := decide (rd = 0) && decide (x.kind = 0 ∨ x.kind = 2)
  s.insn x { valid := decide (hint ≠ 3), ord := true, align := s.alignEarly x ra ra size } fun s =>
    andThen (s.atomicVa x (s.src x ra).toNat op size (s.src x rv).toNat 0 hint.toNat posted) fun old s =>
      (.ok none, s.dst x rd (if sz then sextW 32 old else BitVec.ofNat 64 old))

/-- AMO with each OP of Table 2-9. -/
def amoSwapRun (x : Insn) (rd ra rv : Reg) (hint : BitVec 2) (sz : Bool) (s : State) : State := amoRun .swap x rd ra rv hint sz s
def amoAddRun (x : Insn) (rd ra rv : Reg) (hint : BitVec 2) (sz : Bool) (s : State) : State := amoRun .add x rd ra rv hint sz s
def amoAndRun (x : Insn) (rd ra rv : Reg) (hint : BitVec 2) (sz : Bool) (s : State) : State := amoRun .and x rd ra rv hint sz s
def amoOrRun (x : Insn) (rd ra rv : Reg) (hint : BitVec 2) (sz : Bool) (s : State) : State := amoRun .or x rd ra rv hint sz s
def amoXorRun (x : Insn) (rd ra rv : Reg) (hint : BitVec 2) (sz : Bool) (s : State) : State := amoRun .xor x rd ra rv hint sz s
def amoMinRun (x : Insn) (rd ra rv : Reg) (hint : BitVec 2) (sz : Bool) (s : State) : State := amoRun .min x rd ra rv hint sz s
def amoMaxRun (x : Insn) (rd ra rv : Reg) (hint : BitVec 2) (sz : Bool) (s : State) : State := amoRun .max x rd ra rv hint sz s
def amoUminRun (x : Insn) (rd ra rv : Reg) (hint : BitVec 2) (sz : Bool) (s : State) : State := amoRun .umin x rd ra rv hint sz s
def amoUmaxRun (x : Insn) (rd ra rv : Reg) (hint : BitVec 2) (sz : Bool) (s : State) : State := amoRun .umax x rd ra rv hint sz s

/-- CAS. -/
def casRun (x : Insn) (rd ra rexp rnew : Reg) (hint : BitVec 2) (s : State) : State :=
  s.insn x { valid := decide (hint ≠ 3), ord := true, align := s.alignEarly x ra ra 8 } fun s =>
    andThen (s.atomicVa x (s.src x ra).toNat .cas 8 (s.src x rnew).toNat (s.src x rexp).toNat hint.toNat false) fun old s =>
      (.ok none, s.dst x rd (BitVec.ofNat 64 old))

/-- CAS128 (R38, R80): each field is even; the even register holds the low 8 bytes (DEDUCED, log 38). -/
def cas128Run (x : Insn) (rd ra rexp rnew : Reg) (hint : BitVec 2) (s : State) : State :=
  let even (r : Reg) : Bool := decide (r.toNat % 2 = 0)
  let pair (s : State) (r : Reg) : Nat := (s.src x r).toNat + (s.src x (r + 1)).toNat * 2 ^ 64
  s.insn x { valid := decide (hint ≠ 3) && even rd && even ra && even rexp && even rnew, ord := true,
             undef := decide (x.core ≥ 216) || !(s.rd kMgtEffcap).getLsbD 17, align := s.alignEarly x ra ra 16 } fun s =>
    andThen (s.atomicVa x (s.src x ra).toNat .cas128 16 (pair s rnew) (pair s rexp) hint.toNat false) fun old s =>
      (.ok none, (s.dst x rd (BitVec.ofNat 64 old)).dst x (rd + 1) (BitVec.ofNat 64 (old / 2 ^ 64)))

/-! ### Maintenance (R77, R78, R171–R177) -/

/-- The OP of CMO and CMOR. -/
inductive CmoOp where
  | clean | inval | cleaninv | zero
  deriving DecidableEq, Repr

/-- Remove the core's own copy of a line: dirty data that the operation writes goes to the home first,
the core's own M data of INVAL is discarded (R172). -/
def State.cmoOwn (s : State) (n line : Nat) (dark discard : Bool) : State :=
  if n ≥ 216 then match SMap.find s.spCache line with
    | some l =>
      if !seen l dark then s
      else
        let s := { s with spCache := SMap.del s.spCache line }
        if discard && decide (l.st = .m) then s.pushWb 16 { l with st := .e } else s.pushWbFor (some n) 16 l
    | none => s
  else
    let c := (s.core n).caches.merge line
    match c.l2Find line with
    | some (k, l) =>
      if !seen l dark then s
      else
        let c := c.dropUpper line
        let s := s.setCaches n { c with l2 := SMap.del c.l2 k }
        if discard && decide (l.st = .m) then s.pushWb (n / 18) { l with st := .e } else s.pushWbFor (some n) (n / 18) l
    | none => s

/-- Whether the core has a miss open on a line; INVAL and CLEANINV mark it (R175). -/
def State.cmoMiss (s : State) (n line : Nat) (mark : Bool) : Bool × State :=
  let c := (s.core n).caches
  if !s.missAt n line then (false, s)
  else (true, if mark then s.setCaches n { c with misses := c.misses.map fun (m : Miss) => if m.line = line then { m with maint := true } else m } else s)

/-- CMO on one line of Normal-WB tiered memory or of a fabric window; on any other it changes no cache
and completes at once (R171). -/
def State.cmoLine (s : State) (n : Nat) (op : CmoOp) (x : Xlat) : Got Unit × State :=
  let line := x.hpa / 64
  let dark := s.coreDark n
  let ask (k : ReqKind) (s : State) : Got Unit × State :=
    match s.homeSync k (coreReq s n line x.key dark false (decide (k = .cmz))) with
    | (.wait, s) => (.wait, s)
    | (_, s) => (.ok (), s)
  match s.lineKind line, decide (x.type = 0) && !inScratch n x.hpa with
  | .other _, _ => (.ok (), s)
  | _, false => (.ok (), s)
  | _, true => andThen (s.sbEmpty n) fun _ s =>
      match (s.spTouch n).cmoMiss n line (decide (op = .inval ∨ op = .cleaninv)) with
      | (true, s) => (.wait, s)
      | (false, s) => match op with
        | .clean => ask .cmc s
        | .inval => ask .cmi (s.cmoOwn n line dark true).drainWb
        | .cleaninv => ask .cmci (s.cmoOwn n line dark false).drainWb
        | .zero =>
          let held : Option CLine := if n ≥ 216 then SMap.find s.spCache line else (s.core n).caches.current line
          match held with
          | some l => if seen l dark && decide (l.st = .m ∨ l.st = .e) then (.ok (), s.writeOwned n l 0 (BitVec.allOnes 64))
              else ask .cmz s
          | none => ask .cmz s

/-- The ACCESS of a maintenance operation (R136). -/
def CmoOp.acc (op : CmoOp) : Nat := if op = .inval ∨ op = .zero then 1 else 0

/-- CMO on the line that holds a VA. -/
def State.cmoVa (s : State) (n : Nat) (op : CmoOp) (va : Nat) : Got Unit × State :=
  andThen (s.xlSelf n op.acc va) fun x s => s.cmoLine n op x

/-- CMO: INVAL needs level S. -/
def State.cmo (s : State) (x : Insn) (op : CmoOp) (ra : Reg) : State :=
  s.insn x { level := if op = .inval then 1 else 0 } fun s => endUnit (s.cmoVa x.core op (s.src x ra).toNat)

/-- CMO_CLEAN, CMO_INVAL, CMO_CLEANINV, CMO_ZERO. -/
def cmoCleanRun (x : Insn) (ra : Reg) (s : State) : State := s.cmo x .clean ra
def cmoInvalRun (x : Insn) (ra : Reg) (s : State) : State := s.cmo x .inval ra
def cmoCleaninvRun (x : Insn) (ra : Reg) (s : State) : State := s.cmo x .cleaninv ra
def cmoZeroRun (x : Insn) (ra : Reg) (s : State) : State := s.cmo x .zero ra

/-- The lines of a CMOR from ra upwards: after each, ra and rn describe the remainder (R78). -/
def State.cmorLoop (fuel : Nat) (s : State) (x : Insn) (op : CmoOp) (ra rn : Reg) : Got Unit × State :=
  match fuel with
  | 0 => (.ok (), s)
  | f + 1 =>
    let a := s.src x ra
    let r := s.src x rn
    if r = 0 then (.ok (), s)
    else andThen (s.cmoVa x.core op a.toNat) fun _ s =>
      State.cmorLoop f ((s.dstSrc x ra (a + 64)).dstSrc x rn (r - 64)) x op ra rn

/-- CMOR: `upto` lines at most before an interrupt ends it between lines. -/
def State.cmor (s : State) (x : Insn) (op : CmoOp) (ra rn : Reg) (upto : Option Nat) : State :=
  s.insn x { level := if op = .inval then 1 else 0, align := s.alignEarly x ra rn 64 } fun s =>
    match s.alignTrap x ra rn 64 with
    | some t => (.trap t, s)
    | none =>
      let r := (s.src x rn).toNat
      let most := min (upto.getD (r / 64)) (r / 64)
      andThen (State.cmorLoop most s x op ra rn) fun _ s => (if most = r / 64 then .ok none else .wait, s)

/-- CMOR_CLEAN, CMOR_INVAL, CMOR_CLEANINV. -/
def cmorCleanRun (x : Insn) (ra rn : Reg) (upto : Option Nat) (s : State) : State := s.cmor x .clean ra rn upto
def cmorInvalRun (x : Insn) (ra rn : Reg) (upto : Option Nat) (s : State) : State := s.cmor x .inval ra rn upto
def cmorCleaninvRun (x : Insn) (ra rn : Reg) (upto : Option Nat) (s : State) : State := s.cmor x .cleaninv ra rn upto

/-- ICINV (R174): the VA is translated as a read (DEDUCED, log 38). -/
def icinvRun (x : Insn) (ra : Reg) (s : State) : State :=
  s.insn x {} fun s => andThen (s.xlSelf x.core 0 (s.src x ra).toNat) fun l s =>
    let c := (s.core x.core).caches
    (.ok none, s.setCaches x.core { c with l1i := c.l1i.filter (fun p => p.2.line ≠ l.hpa / 64) })

/-- ICINV_ALL. -/
def icinvAllRun (x : Insn) (s : State) : State :=
  s.insn x { level := 1 } (simply fun s => s.setCaches x.core { (s.core x.core).caches with l1i := [] })

/-! ### Prefetches and deferred accesses (R114–R117, R162) -/

/-- Whether the L1D, the side buffer or the victim cache holds a line (R162, R163). -/
def CoreCaches.hasSector (c : CoreCaches) (line : Nat) : Bool :=
  (c.l1Sector line).isSome || (c.sbuf ++ c.vc).any (fun x => decide (x.line = line))

/-- HARDWARE_PREFETCH: into the L2, or for an enabled L1D prefetcher into the side buffer or L1D, unless the line is
there. -/
def hardwarePrefetchRun (core hpa key : Nat) (target : PfTarget) (s : State) : State :=
  let line := hpa / 64
  let dark := (s.core core).darkW
  let l1 := s.fon (kL1cCtl core) fL1cCtl_PFEN && !(s.core core).caches.hasSector line
  let mapped := match s.lineKind line with | .other _ => false | _ => true
  let fill (put : State → Sector → State) : State :=
    match s.getLine' core line key dark true .l1d with
    | (.line l nf, s) => if nf || ((s.core core).caches.l2Find line).isNone then s
        else put s ⟨line, l.data, l.poison, false, l.key, l.dark⟩
    | (_, s) => s
  if !s.coreReady core || (s.core core).waiting || !mapped then s
  else match target with
    | .l2 => if s.fon (kL2cCtl core) fL2cCtl_PFEN && ((s.core core).caches.l2Find line).isNone then
        ((s.evtC core 0x58 2).getLine' core line key dark true .none).2 else s
    | .sideBuffer => if l1 && s.fon (kL1cCtl core) fL1cCtl_SBEN then fill fun s x => s.sbFill core x else s
    | .l1d => if l1 then fill fun s x => s.l1Fill core x else s

/-- DEMAND_REISSUE (R117): the deferred access is asked for as a demand request. -/
def demandReissueRun (core line : Nat) (s : State) : State :=
  let c := s.core core
  match c.deferred.find? (fun p => p.1 = line) with
  | none => s
  | some (_, key) => match s.loadLine core line key c.darkW false with
    | (.line _ _, s) => s.setCore core { s.core core with deferred := (s.core core).deferred.filter (fun p => p.1 ≠ line) }
    | (_, s) => s

/-- L3_SLICE_REQUEST (R182): a request of an L2 is served on the die where the slice's line permits,
otherwise its miss opens and the request goes to the home. -/
def l3SliceRequestRun (core line : Nat) (kind : L3Kind) (key : Nat) (world spec : Bool) (s : State) : State :=
  let read := decide (kind = .read)
  if s.down || s.missAt core line || !s.missRoom core line .none then s
  else
    let r := if read then s.l3Read core line key world else s.l3Own core line key world
    match r with
    | (some _, s) => s
    | (none, s) =>
      let k : ReqKind := match kind with | .read => .rds | .write => .rdo | .upgrade => .upg
      (s.missOpen core line key (!read) spec .none).request k (coreReq s core line key world spec (!read))

-- EXEC: LOAD STORE FENCE FABRIC_FENCE_COMPLETE AMO_SWAP AMO_ADD AMO_AND AMO_OR AMO_XOR AMO_MIN AMO_MAX AMO_UMIN AMO_UMAX CAS CAS128 CMO_CLEAN CMO_INVAL CMO_CLEANINV CMO_ZERO CMOR_CLEAN CMOR_INVAL CMOR_CLEANINV ICINV ICINV_ALL HARDWARE_PREFETCH DEMAND_REISSUE L3_SLICE_REQUEST
/-- LOAD (R88): the effect of a well-formed command. -/
def execLoadInsn (x : Insn) (m : MemOp) (s : State) : Res := runs (x.wf && m.wf) (loadInsnRun x m) s

/-- STORE (R88): the effect of a well-formed command. -/
def execStoreInsn (x : Insn) (m : MemOp) (s : State) : Res :=
  runs (x.wf && m.wf) (storeInsnRun x m) s

/-- FENCE (R92): the effect of a well-formed command. -/
def execFence (x : Insn) (set : BitVec 4) (scope : BitVec 2) (s : State) : Res :=
  runs x.wf (fenceRun x set scope) s

/-- FABRIC_FENCE_COMPLETE (R95): the effect of a well-formed command. -/
def execFabricFenceComplete (core : Nat) (s : State) : Res :=
  runs (wfCore core) (fabricFenceCompleteRun core) s

/-- AMO_SWAP (R105): the effect of a well-formed command. -/
def execAmoSwap (x : Insn) (rd : Reg) (ra : Reg) (rv : Reg) (hint : BitVec 2) (sz : Bool) (s : State) : Res :=
  runs x.wf (amoSwapRun x rd ra rv hint sz) s

/-- AMO_ADD (R105): the effect of a well-formed command. -/
def execAmoAdd (x : Insn) (rd : Reg) (ra : Reg) (rv : Reg) (hint : BitVec 2) (sz : Bool) (s : State) : Res :=
  runs x.wf (amoAddRun x rd ra rv hint sz) s

/-- AMO_AND (R105): the effect of a well-formed command. -/
def execAmoAnd (x : Insn) (rd : Reg) (ra : Reg) (rv : Reg) (hint : BitVec 2) (sz : Bool) (s : State) : Res :=
  runs x.wf (amoAndRun x rd ra rv hint sz) s

/-- AMO_OR (R105): the effect of a well-formed command. -/
def execAmoOr (x : Insn) (rd : Reg) (ra : Reg) (rv : Reg) (hint : BitVec 2) (sz : Bool) (s : State) : Res :=
  runs x.wf (amoOrRun x rd ra rv hint sz) s

/-- AMO_XOR (R105): the effect of a well-formed command. -/
def execAmoXor (x : Insn) (rd : Reg) (ra : Reg) (rv : Reg) (hint : BitVec 2) (sz : Bool) (s : State) : Res :=
  runs x.wf (amoXorRun x rd ra rv hint sz) s

/-- AMO_MIN (R105): the effect of a well-formed command. -/
def execAmoMin (x : Insn) (rd : Reg) (ra : Reg) (rv : Reg) (hint : BitVec 2) (sz : Bool) (s : State) : Res :=
  runs x.wf (amoMinRun x rd ra rv hint sz) s

/-- AMO_MAX (R105): the effect of a well-formed command. -/
def execAmoMax (x : Insn) (rd : Reg) (ra : Reg) (rv : Reg) (hint : BitVec 2) (sz : Bool) (s : State) : Res :=
  runs x.wf (amoMaxRun x rd ra rv hint sz) s

/-- AMO_UMIN (R105): the effect of a well-formed command. -/
def execAmoUmin (x : Insn) (rd : Reg) (ra : Reg) (rv : Reg) (hint : BitVec 2) (sz : Bool) (s : State) : Res :=
  runs x.wf (amoUminRun x rd ra rv hint sz) s

/-- AMO_UMAX (R105): the effect of a well-formed command. -/
def execAmoUmax (x : Insn) (rd : Reg) (ra : Reg) (rv : Reg) (hint : BitVec 2) (sz : Bool) (s : State) : Res :=
  runs x.wf (amoUmaxRun x rd ra rv hint sz) s

/-- CAS (R105): the effect of a well-formed command. -/
def execCas (x : Insn) (rd : Reg) (ra : Reg) (rexp : Reg) (rnew : Reg) (hint : BitVec 2) (s : State) : Res :=
  runs x.wf (casRun x rd ra rexp rnew hint) s

/-- CAS128 (R105): the effect of a well-formed command. -/
def execCas128 (x : Insn) (rd : Reg) (ra : Reg) (rexp : Reg) (rnew : Reg) (hint : BitVec 2) (s : State) : Res :=
  runs x.wf (cas128Run x rd ra rexp rnew hint) s

/-- CMO_CLEAN (R171): the effect of a well-formed command. -/
def execCmoClean (x : Insn) (ra : Reg) (s : State) : Res := runs x.wf (cmoCleanRun x ra) s

/-- CMO_INVAL (R172): the effect of a well-formed command. -/
def execCmoInval (x : Insn) (ra : Reg) (s : State) : Res := runs x.wf (cmoInvalRun x ra) s

/-- CMO_CLEANINV (R171): the effect of a well-formed command. -/
def execCmoCleaninv (x : Insn) (ra : Reg) (s : State) : Res := runs x.wf (cmoCleaninvRun x ra) s

/-- CMO_ZERO (R173): the effect of a well-formed command. -/
def execCmoZero (x : Insn) (ra : Reg) (s : State) : Res := runs x.wf (cmoZeroRun x ra) s

/-- CMOR_CLEAN (R78): the effect of a well-formed command. -/
def execCmorClean (x : Insn) (ra : Reg) (rn : Reg) (upto : Option Nat) (s : State) : Res :=
  runs x.wf (cmorCleanRun x ra rn upto) s

/-- CMOR_INVAL (R78): the effect of a well-formed command. -/
def execCmorInval (x : Insn) (ra : Reg) (rn : Reg) (upto : Option Nat) (s : State) : Res :=
  runs x.wf (cmorInvalRun x ra rn upto) s

/-- CMOR_CLEANINV (R78): the effect of a well-formed command. -/
def execCmorCleaninv (x : Insn) (ra : Reg) (rn : Reg) (upto : Option Nat) (s : State) : Res :=
  runs x.wf (cmorCleaninvRun x ra rn upto) s

/-- ICINV (R174): the effect of a well-formed command. -/
def execIcinv (x : Insn) (ra : Reg) (s : State) : Res := runs x.wf (icinvRun x ra) s

/-- ICINV_ALL (R174): the effect of a well-formed command. -/
def execIcinvAll (x : Insn) (s : State) : Res := runs x.wf (icinvAllRun x) s

/-- HARDWARE_PREFETCH (R114): the effect of a well-formed command. -/
def execHardwarePrefetch (core : Nat) (hpa : Nat) (key : Nat) (target : PfTarget) (s : State) : Res :=
  runs (wfCompute core && decide (hpa < 2 ^ 52) && wfKey key) (hardwarePrefetchRun core hpa key target) s

/-- DEMAND_REISSUE (R117): the effect of a well-formed command. -/
def execDemandReissue (core : Nat) (line : Nat) (s : State) : Res :=
  runs (wfCompute core && wfLine line) (demandReissueRun core line) s

/-- L3_SLICE_REQUEST (R182): the effect of a well-formed command. -/
def execL3SliceRequest (core : Nat) (line : Nat) (kind : L3Kind) (key : Nat) (world : Bool) (spec : Bool) (s : State) : Res :=
  runs (wfCompute core && wfLine line && wfKey key) (l3SliceRequestRun core line kind key world spec) s
-- END EXEC

end Sys2Proof.Machine
end

