-- ==== Sys2Proof/Machine/CoreTlb.lean ====
section
/-! DEFINITION.
TLB maintenance of a core (R76, R78, R140–R143): TLBSYNC, TLBI, TLBIR, TLBLOCK and TLBUNLOCK. -/

namespace Sys2Proof.Machine

/-- The regime code, VMID and ASID under which a core runs (R142): at H the host regime, whose VMID is
ignored. -/
def State.tlbNow (s : State) (n : Nat) : Nat × Nat × Nat :=
  let c := s.core n
  if n ≥ 216 then (3, 0, bitsOf (c.srv 0x502) 48 16)
  else if c.darkRegime then (2, 0, bitsOf (c.srv 0xD52) 48 16)
  else if c.level = 2 then (1, 0, 0)
  else (0, bitsOf (c.srv 0x901) 48 16, bitsOf (c.srv 0x502) 48 16)

/-- Whether two ranges of a circular address space of size `m` meet. -/
def ringMeet (m a la b lb : Nat) : Bool :=
  decide (la > 0 ∧ lb > 0) && (decide ((b % m + m - a % m) % m < la) || decide ((a % m + m - b % m) % m < lb))

/-- Whether a walk-cache entry lies on the walk path of a range. -/
def WalkEnt.onPath (w : WalkEnt) (m a len : Nat) : Bool :=
  let sh := levelShift w.level + 9
  ringMeet m a len (w.prefx * 2 ^ sh) (2 ^ sh)

/-- Whether an ITLB or DTLB entry is a copy of a locked translation (R141). -/
def CoreTlbs.isLocked (t : CoreTlbs) (e : TlbEnt) : Bool :=
  t.locked.any fun l => decide (l.regime = e.regime ∧ l.vmid = e.vmid ∧ l.asid = e.asid) &&
    decide (l.base ≤ e.base ∧ e.base < l.base + l.size)

/-- Remove entries of the TLBs and walk caches of a core; locked translations and their copies only when
`locked` is set (R76, R141, R142). -/
def State.tlbRemove (s : State) (n : Nat) (locked : Bool) (gone : TlbEnt → Bool) (w1 w2 : WalkEnt → Bool) : State :=
  let c := s.core n
  let t := c.tlbs
  let first (l : List TlbEnt) : List TlbEnt := l.filter fun e => !gone e || (!locked && t.isLocked e)
  s.setCore n { c with tlbs := { t with
    itlb := first t.itlb, dtlb := first t.dtlb, l2tlb := t.l2tlb.filter (fun e => !gone e),
    locked := t.locked.filter (fun e => !(locked && gone e)),
    walk1 := t.walk1.filter (fun w => !w1 w), walk2 := t.walk2.filter (fun w => !w2 w) } }

/-- The removals of Table 4-6 for a range of addresses, current ASID or global (kind 0 and TLBIR), or
every ASID (kind 1). -/
def State.tlbVa (s : State) (n : Nat) (locked anyAsid : Bool) (va len : Nat) : State :=
  let now := s.tlbNow n
  s.tlbRemove n locked
    (fun e => decide (e.regime = now.1 ∧ e.vmid = now.2.1) && !e.s2only &&
      (anyAsid || decide (e.asid = none ∨ e.asid = some now.2.2)) && ringMeet (2 ^ 64) va len e.base e.size)
    (fun w => decide (w.regime = now.1 ∧ w.vmid = now.2.1) && w.onPath (2 ^ 57) va len)
    (fun _ => false)

/-- The removals of Table 4-6 for a range of IPAs (kind 4 and TLBIR with IPA = 1): every combined entry
of the current VMID goes too. -/
def State.tlbIpa (s : State) (n : Nat) (locked : Bool) (ipa len : Nat) : State :=
  let vmid := bitsOf ((s.core n).srv 0x901) 48 16
  s.tlbRemove n locked
    (fun e => decide (e.regime = 0 ∧ e.vmid = vmid) && (!e.s2only || ringMeet (2 ^ 64) ipa len e.base e.size))
    (fun _ => false)
    (fun w => decide (w.regime = 0 ∧ w.vmid = vmid) && w.onPath (2 ^ 64) ipa len)

/-- TLBI: S for kinds 0 to 3; H for kinds 4 to 6, which a service core does not have (R80). -/
def State.tlbi (s : State) (x : Insn) (ra : Reg) (host : Bool) (f : Nat → State → State) : State :=
  s.insn x { level := if host then 2 else 1, undef := host && decide (x.core ≥ 216) } (simply fun s => f (s.src x ra).toNat s)

/-- TLBI kind 0. -/
def tlbiVaAsidRun (x : Insn) (ra : Reg) (locked : Bool) (s : State) : State :=
  s.tlbi x ra false fun v s => s.tlbVa x.core locked false v 1
/-- TLBI kind 1. -/
def tlbiVaAllAsidRun (x : Insn) (ra : Reg) (locked : Bool) (s : State) : State :=
  s.tlbi x ra false fun v s => s.tlbVa x.core locked true v 1
/-- TLBI kind 2. -/
def tlbiAsidRun (x : Insn) (ra : Reg) (locked : Bool) (s : State) : State :=
  s.tlbi x ra false fun v s =>
    let now := s.tlbNow x.core
    s.tlbRemove x.core locked
      (fun e => decide (e.regime = now.1 ∧ e.vmid = now.2.1 ∧ e.asid = some (v % 65536)) && !e.s2only)
      (fun w => decide (w.regime = now.1 ∧ w.vmid = now.2.1)) (fun _ => false)
/-- TLBI kind 3. -/
def tlbiStage1VmRun (x : Insn) (ra : Reg) (locked : Bool) (s : State) : State :=
  s.tlbi x ra false fun _ s =>
    let now := s.tlbNow x.core
    s.tlbRemove x.core locked (fun e => decide (e.regime = now.1 ∧ e.vmid = now.2.1) && !e.s2only)
      (fun w => decide (w.regime = now.1 ∧ w.vmid = now.2.1)) (fun _ => false)
/-- TLBI kind 4. -/
def tlbiIpaRun (x : Insn) (ra : Reg) (locked : Bool) (s : State) : State :=
  s.tlbi x ra true fun v s => s.tlbIpa x.core locked v 1
/-- TLBI kind 5. -/
def tlbiVmidRun (x : Insn) (ra : Reg) (locked : Bool) (s : State) : State :=
  s.tlbi x ra true fun v s =>
    let hit (w : WalkEnt) : Bool := decide (w.regime = 0 ∧ w.vmid = v % 65536)
    s.tlbRemove x.core locked (fun e => decide (e.regime = 0 ∧ e.vmid = v % 65536)) hit hit
/-- TLBI kind 6: every regime that Daylight reaches, the guest's and the host's. -/
def tlbiAllRun (x : Insn) (ra : Reg) (locked : Bool) (s : State) : State :=
  s.tlbi x ra true fun _ s =>
    let hit (w : WalkEnt) : Bool := decide (w.regime < 2)
    s.tlbRemove x.core locked (fun e => decide (e.regime < 2)) hit hit

/-- TLBIR (R78): `upto` pages at most before an interrupt ends it between pages. -/
def State.tlbir (s : State) (x : Insn) (ra rn : Reg) (host : Bool) (upto : Option Nat) (f : Nat → Nat → State → State) : State :=
  s.insn x { level := if host then 2 else 1, undef := host && decide (x.core ≥ 216), align := s.alignEarly x ra rn 4096 } fun s =>
    let a := s.src x ra
    let r := s.src x rn
    match s.alignTrap x ra rn 4096 with
    | some t => (.trap t, s)
    | none => if r = 0 then (.ok none, s) else
      let pages := r.toNat / 4096
      let most := min (upto.getD pages) pages
      let len := most * 4096
      let s := if most = 0 then s else f a.toNat len s
      let s := (s.dstSrc x ra (a + BitVec.ofNat 64 len)).dstSrc x rn (r - BitVec.ofNat 64 len)
      (if most = pages then .ok none else .wait, s)

/-- TLBIR with IPA = 0. -/
def tlbirRun (x : Insn) (ra rn : Reg) (locked : Bool) (upto : Option Nat) (s : State) : State :=
  s.tlbir x ra rn false upto fun a len s => s.tlbVa x.core locked false a len
/-- TLBIR with IPA = 1. -/
def tlbirIpaRun (x : Insn) (ra rn : Reg) (locked : Bool) (upto : Option Nat) (s : State) : State :=
  s.tlbir x ra rn true upto fun a len s => s.tlbIpa x.core locked a len

/-- TLBSYNC (R143): every access translated with a removed entry is performed; the accesses that are not
are in the store buffer. -/
def tlbsyncRun (x : Insn) (s : State) : State :=
  s.insn x { gpr := false, level := 1 } fun s => endUnit (s.sbEmpty x.core)

/-- The locked set of a core holds at most 32 translations (Table 4-5). -/
def lockedMax : Nat := 32

/-- Lock the translation of a VA (R140): whether it is held. -/
def State.tlbLock (s : State) (n va : Nat) : Got Bool × State :=
  let c := s.core n
  let no (y : Nat) (i : Option Nat) : Got Bool := .trap { cause := cData, syn := y, eva := va, ipa := i }
  match s.regimeOf n c.level c.darkW false va with
  | none => (no (syn 0 0 0 0 false false) none, s)
  | some r =>
    if c.tlbs.locked.any (fun e => e.tags r va) || (r.s1.isNone && r.s2.isNone) then
      andThen (s.xlSelf n 0 va) fun _ s => (.ok true, s)
    else
      let a := s.xacc n 0 c.level c.darkW
      let a := if r.code = 1 then { a with level := 2 } else a
      match (s.evtC n 0x88 2).walkAgain r a va with
      | (.ok e, s) =>
        let c := s.core n
        if c.tlbs.locked.length ≥ lockedMax then (.ok false, s)
        else (.ok true, s.setCore n { c with tlbs := { c.tlbs with
          locked := c.tlbs.locked ++ [e], l2tlb := c.tlbs.l2tlb.filter (fun x => !x.tags r va) } })
      | (.fault y i, s) => (no y i, s)
      | (_, s) => (.wait, s)

/-- TLBLOCK (R140). -/
def tlblockRun (x : Insn) (pd : PReg) (ra : Reg) (s : State) : State :=
  s.insn x { level := 1 } fun s =>
    andThen (s.tlbLock x.core (s.src x ra).toNat) fun b s => (.ok none, s.setPr x.core pd b)

/-- Release locked translations (R141). -/
def State.tlbUnlock (s : State) (n : Nat) (gone : TlbEnt → Bool) : State :=
  let c := s.core n
  s.setCore n { c with tlbs := { c.tlbs with locked := c.tlbs.locked.filter (fun e => !gone e) } }

/-- TLBUNLOCK (R141): the locked translation of a VA under the current tags. -/
def tlbunlockRun (x : Insn) (ra : Reg) (s : State) : State :=
  s.insn x { level := 1 } (simply fun s =>
    let va := (s.src x ra).toNat
    let now := s.tlbNow x.core
    s.tlbUnlock x.core fun e => decide (e.regime = now.1 ∧ e.vmid = now.2.1) &&
      decide (e.asid = none ∨ e.asid = some now.2.2) && decide (e.base ≤ va ∧ va < e.base + e.size))

/-- TLBUNLOCK with ALL = 1 (R141). -/
def tlbunlockAllRun (x : Insn) (s : State) : State :=
  s.insn x { level := 1 } (simply fun s =>
    let now := s.tlbNow x.core
    s.tlbUnlock x.core fun e => decide (e.regime = now.1 ∧ e.vmid = now.2.1))

-- EXEC: TLBSYNC TLBI_VA_ASID TLBI_VA_ALL_ASID TLBI_ASID TLBI_STAGE1_VM TLBI_IPA TLBI_VMID TLBI_ALL TLBIR TLBIR_IPA TLBLOCK TLBUNLOCK TLBUNLOCK_ALL
/-- TLBSYNC (R143): the effect of a well-formed command. -/
def execTlbsync (x : Insn) (s : State) : Res := runs x.wf (tlbsyncRun x) s

/-- TLBI_VA_ASID (R142): the effect of a well-formed command. -/
def execTlbiVaAsid (x : Insn) (ra : Reg) (locked : Bool) (s : State) : Res :=
  runs x.wf (tlbiVaAsidRun x ra locked) s

/-- TLBI_VA_ALL_ASID (R142): the effect of a well-formed command. -/
def execTlbiVaAllAsid (x : Insn) (ra : Reg) (locked : Bool) (s : State) : Res :=
  runs x.wf (tlbiVaAllAsidRun x ra locked) s

/-- TLBI_ASID (R142): the effect of a well-formed command. -/
def execTlbiAsid (x : Insn) (ra : Reg) (locked : Bool) (s : State) : Res :=
  runs x.wf (tlbiAsidRun x ra locked) s

/-- TLBI_STAGE1_VM (R142): the effect of a well-formed command. -/
def execTlbiStage1Vm (x : Insn) (ra : Reg) (locked : Bool) (s : State) : Res :=
  runs x.wf (tlbiStage1VmRun x ra locked) s

/-- TLBI_IPA (R142): the effect of a well-formed command. -/
def execTlbiIpa (x : Insn) (ra : Reg) (locked : Bool) (s : State) : Res :=
  runs x.wf (tlbiIpaRun x ra locked) s

/-- TLBI_VMID (R142): the effect of a well-formed command. -/
def execTlbiVmid (x : Insn) (ra : Reg) (locked : Bool) (s : State) : Res :=
  runs x.wf (tlbiVmidRun x ra locked) s

/-- TLBI_ALL (R142): the effect of a well-formed command. -/
def execTlbiAll (x : Insn) (ra : Reg) (locked : Bool) (s : State) : Res :=
  runs x.wf (tlbiAllRun x ra locked) s

/-- TLBIR (R142): the effect of a well-formed command. -/
def execTlbir (x : Insn) (ra : Reg) (rn : Reg) (locked : Bool) (upto : Option Nat) (s : State) : Res :=
  runs x.wf (tlbirRun x ra rn locked upto) s

/-- TLBIR_IPA (R142): the effect of a well-formed command. -/
def execTlbirIpa (x : Insn) (ra : Reg) (rn : Reg) (locked : Bool) (upto : Option Nat) (s : State) : Res :=
  runs x.wf (tlbirIpaRun x ra rn locked upto) s

/-- TLBLOCK (R140): the effect of a well-formed command. -/
def execTlblock (x : Insn) (pd : PReg) (ra : Reg) (s : State) : Res :=
  runs x.wf (tlblockRun x pd ra) s

/-- TLBUNLOCK (R141): the effect of a well-formed command. -/
def execTlbunlock (x : Insn) (ra : Reg) (s : State) : Res := runs x.wf (tlbunlockRun x ra) s

/-- TLBUNLOCK_ALL (R141): the effect of a well-formed command. -/
def execTlbunlockAll (x : Insn) (s : State) : Res := runs x.wf (tlbunlockAllRun x) s
-- END EXEC

end Sys2Proof.Machine
end

