-- ==== Sys2Proof/Machine/ZciRows.lean ====
section
/-! DEFINITION.
The Zalzan Command Interface as a whole (spec/13): every command of Table 13-9 as a row, the taking of
commands from rings (R395), fence-before (R398), the SF path (R404, R405) and the boot mailbox (R407). -/

namespace Sys2Proof.Machine

/-- FW_ACTIVATE, by component; the first row takes a component that does not exist. -/
def hFwActivate : Handler := fun id z s => match z.f 16 1 with
  | 1 => hFwService id z s
  | 2 => hFwMonitor id z s
  | 3 => hFwHost id z s
  | _ => hFwSafelight id z s

/-- A command of a ring or of the boot mailbox, by OPCODE; commands of the SF path are passed to the
service firmware (R404). -/
def hAny : Handler := fun id z s => match z.f 0 2 with
  | 0x0001 => hIdentify id z s
  | 0x0002 => hNop id z s
  | 0x0003 => hQueueSet id z s
  | 0x0101 => hPdbBegin id z s
  | 0x0102 => hPdbData id z s
  | 0x0103 => hPdbCommit id z s
  | 0x0104 => hPdbStatus id z s
  | 0x0401 => hIotuDevice id z s
  | 0x0402 => hIotuVa id z s
  | 0x0403 => hIotuIpa id z s
  | 0x0404 => hIotuVmid id z s
  | 0x0405 => hIotuAll id z s
  | 0x0801 => hSviConfig id z s
  | 0x0802 => hSviReset id z s
  | 0x0803 => hSviQuery id z s
  | 0x0804 => hSviLog id z s
  | 0x0805 => hSviFreeze id z s
  | 0x0806 => hSviSave id z s
  | 0x0807 => hSviRestore id z s
  | 0x0808 => hSviThaw id z s
  | 0x1001 => hTierQuery id z s
  | 0x1002 => hTierReport id z s
  | 0x1003 => hTierMove id z s
  | 0x1004 => hTierPin id z s
  | 0x1005 => hTierUnpin id z s
  | 0x1006 => hTierDiscard id z s
  | 0x1007 => hTierSetQuota id z s
  | 0x1008 => hTierEvacuate id z s
  | 0x1009 => hTierCancel id z s
  | 0x1101 => hCdnCompress id z s
  | 0x1102 => hCdnDecompress id z s
  | 0x1201 => hKeyTransport id z s
  | 0x1202 => hKeyLoad id z s
  | 0x1203 => hKeyRotate id z s
  | 0x1204 => hKeyErase id z s
  | 0x1205 => hKeyQuery id z s
  | 0x1801 => hLendSetRange id z s
  | 0x1802 => hLendQuery id z s
  | 0x1803 => hLendFreeze id z s
  | 0x1804 => hLendRelease id z s
  | 0x1805 => hLendRomLoad id z s
  | 0x2001 => (.pass, s)
  | 0x2002 => (.pass, s)
  | 0x2003 => (.pass, s)
  | 0x2004 => (.pass, s)
  | 0x2801 => hRasRecords id z s
  | 0x2802 => hRasUnitState id z s
  | 0x2803 => hRasRetire id z s
  | 0x2804 => hRasClear id z s
  | 0x3001 => hXrRead id z s
  | 0x3002 => hXrQuote id z s
  | 0x3003 => hXrExtend id z s
  | 0x3801 => hTstRun id z s
  | 0x3802 => hTstResult id z s
  | 0x3C01 => hAgtSet id z s
  | 0x3C02 => hAgtClear id z s
  | 0x4001 => hSnapshot id z s
  | 0x4002 => hCshStart id z s
  | 0x4003 => hCshStop id z s
  | 0x7F01 => hFwLoad id z s
  | 0x7F02 => hFwActivate id z s
  | 0x7F03 => hFwQuery id z s
  | _ => (.fail zUnknown 0, s)

/-- Perform a command of the SF path: one that the firmware has accepted (R405) ends with its final
reply; otherwise the whole command runs, from taking to final reply. -/
def State.zfirm (s : State) (h : Handler) (z : ZCmd) : State :=
  match s.zciFlush.zci.outs.find? (fun o => decide (o.z = z) && o.begun && !o.sfWait) with
  | none => s.ztake h z
  | some o => match h o.id z s.zciFlush with
    | (.fail st d, s) => (s.endCmd o st d []).zciFlush
    | (.failWith st d r, s) => (s.endCmd o st d r).zciFlush
    | (.done d r, s) => (s.endCmd o zDone d r).zciFlush
    | (_, s) => s

/-- IOTU_INV_DEVICE (R151). The command removes a device context and every translation made under it. -/
def iotuInvDeviceRun (z : ZCmd) (s : State) : State := s.ztake hIotuDevice z
/-- IOTU_INV_VA (R151). The command removes IOTU translations of a VA range. -/
def iotuInvVaRun (z : ZCmd) (s : State) : State := s.ztake hIotuVa z
/-- IOTU_INV_IPA (R151). The command removes IOTU translations of an IPA range. -/
def iotuInvIpaRun (z : ZCmd) (s : State) : State := s.ztake hIotuIpa z
/-- IOTU_INV_VMID (R151). The command removes every IOTU translation of a VMID. -/
def iotuInvVmidRun (z : ZCmd) (s : State) : State := s.ztake hIotuVmid z
/-- IOTU_INV_ALL (R151). The command removes every IOTU context and translation. -/
def iotuInvAllRun (z : ZCmd) (s : State) : State := s.ztake hIotuAll z
/-- TIER_QUERY (R278). The command writes a 64-byte accounting record for the package or a group. -/
def tierQueryRun (z : ZCmd) (s : State) : State := s.ztake hTierQuery z
/-- TIER_REPORT (R280). The command writes placement records for a range of regions. -/
def tierReportRun (z : ZCmd) (s : State) : State := s.ztake hTierReport z
/-- TIER_MOVE (R279). The command moves frames toward a target tier. -/
def tierMoveRun (z : ZCmd) (s : State) : State := s.ztake hTierMove z
/-- TIER_PIN (R272). The command moves frames to tier 0 or 1 and pins them. -/
def tierPinRun (z : ZCmd) (s : State) : State := s.ztake hTierPin z
/-- TIER_UNPIN (R277). The command clears PIN on frames. -/
def tierUnpinRun (z : ZCmd) (s : State) : State := s.ztake hTierUnpin z
/-- TIER_DISCARD (R281). The command returns frames to zero frames by invalidating writes of zeros. -/
def tierDiscardRun (z : ZCmd) (s : State) : State := s.ztake hTierDiscard z
/-- TIER_SET_QUOTA (R270). The command sets T0MAX and T1MAX of a key-context group. -/
def tierSetQuotaRun (z : ZCmd) (s : State) : State := s.ztake hTierSetQuota z
/-- TIER_EVACUATE (R278). The command evacuates an interleave set or tier-1 range. -/
def tierEvacuateRun (z : ZCmd) (s : State) : State := s.ztake hTierEvacuate z
/-- TIER_CANCEL (R281). The command drops the not-yet-started frames of a named outstanding command. -/
def tierCancelRun (z : ZCmd) (s : State) : State := s.ztake hTierCancel z
/-- KEY_TRANSPORT (R294). The command writes the SM2 transport public key and a quote over it. -/
def keyTransportRun (z : ZCmd) (s : State) : State := s.ztake hKeyTransport z
/-- KEY_LOAD (R296). The command makes an EMPTY context LOADED with a generated or unwrapped key. -/
def keyLoadRun (z : ZCmd) (s : State) : State := s.ztake hKeyLoad z
/-- KEY_ROTATE (R297). The command makes a context ROTATING with a new key and starts rekeying a range. -/
def keyRotateRun (z : ZCmd) (s : State) : State := s.ztake hKeyRotate z
/-- KEY_ERASE (R302). The command zeroes a context's keys and makes it EMPTY. -/
def keyEraseRun (z : ZCmd) (s : State) : State := s.ztake hKeyErase z
/-- KEY_QUERY (R303). The command returns a context's STATE, ALG, WORLD and GEN. -/
def keyQueryRun (z : ZCmd) (s : State) : State := s.ztake hKeyQuery z
/-- CDN_COMPRESS (R310). The command compresses a buffer into DEFLATE or Zstandard. -/
def cdnCompressRun (z : ZCmd) (s : State) : State := s.ztake hCdnCompress z
/-- CDN_DECOMPRESS (R310). The command expands a DEFLATE or Zstandard stream. -/
def cdnDecompressRun (z : ZCmd) (s : State) : State := s.ztake hCdnDecompress z
/-- LEND_SET_RANGE (R368). The command sets or clears a lent range. -/
def lendSetRangeRun (z : ZCmd) (s : State) : State := s.ztake hLendSetRange z
/-- LEND_QUERY (R385). The command returns a Lend function's state, cause and counts. -/
def lendQueryRun (z : ZCmd) (s : State) : State := s.ztake hLendQuery z
/-- LEND_FREEZE (R378). The command freezes a Lend port with cause MANUAL. -/
def lendFreezeRun (z : ZCmd) (s : State) : State := s.ztake hLendFreeze z
/-- LEND_RELEASE (R379). The command releases a freeze where its cause permits. -/
def lendReleaseRun (z : ZCmd) (s : State) : State := s.ztake hLendRelease z
/-- LEND_ROM_LOAD (R366). The command copies 64 KiB into the ROM store and extends its digest. -/
def lendRomLoadRun (z : ZCmd) (s : State) : State := s.ztake hLendRomLoad z
/-- ZCI_IDENTIFY (R411). The command returns MGT_EFFCAP, the queue pair, source and instance. -/
def zciIdentifyRun (z : ZCmd) (s : State) : State := s.ztake hIdentify z
/-- ZCI_NOP (R411). The command completes at once with DONE. -/
def zciNopRun (z : ZCmd) (s : State) : State := s.ztake hNop z
/-- ZCI_QUEUE_SET_ENABLE (R411). ZCI_QUEUE_SET OP 0 enables queue pairs from their contexts. -/
def zciQueueSetEnableRun (z : ZCmd) (s : State) : State := s.ztake hQueueSet z
/-- ZCI_QUEUE_SET_DISABLE (R411). ZCI_QUEUE_SET OP 1 stops taking from queue pairs and disables them once drained. -/
def zciQueueSetDisableRun (z : ZCmd) (s : State) : State := s.ztake hQueueSet z
/-- SVI_CONFIG (R415). The command creates or resizes a service instance. -/
def sviConfigRun (z : ZCmd) (s : State) : State := s.ztake hSviConfig z
/-- SVI_RESET_DRAIN (R416). SVI_RESET MODE 0 stops taking and lets taken commands complete. -/
def sviResetDrainRun (z : ZCmd) (s : State) : State := s.ztake hSviReset z
/-- SVI_RESET_SQUASH (R416). SVI_RESET MODE 1 stops running commands at their next transfer boundary. -/
def sviResetSquashRun (z : ZCmd) (s : State) : State := s.ztake hSviReset z
/-- SVI_RESET_RELEASE (R416). SVI_RESET MODE 2 squashes and then frees the instance. -/
def sviResetReleaseRun (z : ZCmd) (s : State) : State := s.ztake hSviReset z
/-- SVI_QUERY (R414). The command reports a service instance's state. -/
def sviQueryRun (z : ZCmd) (s : State) : State := s.ztake hSviQuery z
/-- SVI_LOG_START (R418). SVI_LOG OP 0 starts the written-page log for an instance. -/
def sviLogStartRun (z : ZCmd) (s : State) : State := s.ztake hSviLog z
/-- SVI_LOG_READ (R418). SVI_LOG OP 1 moves logged page addresses to a buffer. -/
def sviLogReadRun (z : ZCmd) (s : State) : State := s.ztake hSviLog z
/-- SVI_LOG_STOP (R418). SVI_LOG OP 2 stops logging and empties the instance's entries. -/
def sviLogStopRun (z : ZCmd) (s : State) : State := s.ztake hSviLog z
/-- SVI_FREEZE (R420). The command stops an instance at Unit level, pausing running commands. -/
def sviFreezeRun (z : ZCmd) (s : State) : State := s.ztake hSviFreeze z
/-- SVI_SAVE (R421). The command writes a frozen instance's 4 KiB state image. -/
def sviSaveRun (z : ZCmd) (s : State) : State := s.ztake hSviSave z
/-- SVI_RESTORE (R422). The command checks and loads a state image into a frozen instance. -/
def sviRestoreRun (z : ZCmd) (s : State) : State := s.ztake hSviRestore z
/-- SVI_THAW (R420). The command resumes paused commands and makes the instance ACTIVE. -/
def sviThawRun (z : ZCmd) (s : State) : State := s.ztake hSviThaw z
/-- PDB_BEGIN (R466). The command starts receiving a Platform Description Block of a given length. -/
def pdbBeginRun (z : ZCmd) (s : State) : State := s.ztake hPdbBegin z
/-- PDB_DATA (R466). The command appends a piece of the Platform Description Block. -/
def pdbDataRun (z : ZCmd) (s : State) : State := s.ztake hPdbData z
/-- PDB_COMMIT (R471). The command validates the block, extends it, and applies it or rejects it. -/
def pdbCommitRun (z : ZCmd) (s : State) : State := s.ztake hPdbCommit z
/-- PDB_STATUS (R466). The command returns the stage, lifecycle state, last rejection and challenge. -/
def pdbStatusRun (z : ZCmd) (s : State) : State := s.ztake hPdbStatus z
/-- FW_LOAD (R461). The command writes a chunk of a firmware image to its placement. -/
def fwLoadRun (z : ZCmd) (s : State) : State := s.ztake hFwLoad z
/-- FW_ACTIVATE_SAFELIGHT (R461). FW_ACTIVATE of component 0 checks the image and starts Safelight on SP0. -/
def fwActivateSafelightRun (z : ZCmd) (s : State) : State := s.ztake hFwActivate z
/-- FW_ACTIVATE_SERVICE_FW (R465). FW_ACTIVATE of component 1 checks the image and starts or replaces the service firmware. -/
def fwActivateServiceFwRun (z : ZCmd) (s : State) : State := s.ztake hFwActivate z
/-- FW_ACTIVATE_MONITOR (R462). FW_ACTIVATE of component 2 checks the image and marks the Darkroom monitor ready. -/
def fwActivateMonitorRun (z : ZCmd) (s : State) : State := s.ztake hFwActivate z
/-- FW_ACTIVATE_HOST_FW (R464). FW_ACTIVATE of component 3 checks the image and releases the compute cores. -/
def fwActivateHostFwRun (z : ZCmd) (s : State) : State := s.ztake hFwActivate z
/-- FW_QUERY (R461). The command returns the boot stage and image status. -/
def fwQueryRun (z : ZCmd) (s : State) : State := s.ztake hFwQuery z
/-- XR_READ_REGISTERS (R480). XR_READ OP 0 writes XR0-XR31. -/
def xrReadRegistersRun (z : ZCmd) (s : State) : State := s.ztake hXrRead z
/-- XR_READ_LOG (R480). XR_READ OP 1 writes log entries from a SEQ. -/
def xrReadLogRun (z : ZCmd) (s : State) : State := s.ztake hXrRead z
/-- XR_READ_IDENTITY (R480). XR_READ OP 2 writes the identity public key and SERIAL. -/
def xrReadIdentityRun (z : ZCmd) (s : State) : State := s.ztake hXrRead z
/-- XR_QUOTE (R481). The command writes an SM2-signed quote over selected exposure registers. -/
def xrQuoteRun (z : ZCmd) (s : State) : State := s.ztake hXrQuote z
/-- XR_EXTEND (R478). The command extends a SOFTWARE event into XR16-XR31. -/
def xrExtendRun (z : ZCmd) (s : State) : State := s.ztake hXrExtend z
/-- PWR_QUERY (R509). The command returns package and per-die power state. -/
def pwrQueryRun (z : ZCmd) (s : State) : State := s.zfirm hPwrQuery z
/-- PWR_SET_LIMIT (R509). The command sets PL1, PL2 and TAU. -/
def pwrSetLimitRun (z : ZCmd) (s : State) : State := s.zfirm hPwrLimit z
/-- PWR_SET_MAXPS (R509). PWR_SET_STATE OP 0 sets the deepest package state. -/
def pwrSetMaxpsRun (z : ZCmd) (s : State) : State := s.zfirm hPwrState z
/-- PWR_SET_TARGET (R509). PWR_SET_STATE OP 1 sets a die's TARGET. -/
def pwrSetTargetRun (z : ZCmd) (s : State) : State := s.zfirm hPwrState z
/-- PARK (R506). PWR_SET_STATE OP 2 puts a die in DS3 and keeps it there. -/
def parkRun (z : ZCmd) (s : State) : State := s.zfirm hPwrState z
/-- UNPARK (R506). PWR_SET_STATE OP 3 wakes a parked die. -/
def unparkRun (z : ZCmd) (s : State) : State := s.zfirm hPwrState z
/-- GRC_READ_SENSORS (R509). GRC_READ OP 0 writes the Grey Card sensor values. -/
def grcReadSensorsRun (z : ZCmd) (s : State) : State := s.zfirm hGrcRead z
/-- GRC_READ_WEAR_LOG (R520). GRC_READ OP 1 writes the current Wear Log with GEN advanced. -/
def grcReadWearLogRun (z : ZCmd) (s : State) : State := s.zfirm hGrcRead z
/-- RAS_RECORDS (R542). The command writes error records from a SEQ. -/
def rasRecordsRun (z : ZCmd) (s : State) : State := s.ztake hRasRecords z
/-- RAS_UNIT_STATE (R542). The command returns a unit's STATE, GEN and latest permanent Element. -/
def rasUnitStateRun (z : ZCmd) (s : State) : State := s.ztake hRasUnitState z
/-- RAS_RETIRE (R542). RAS_RETIRE OP 0 checks GEN and makes a unit RETIRING. -/
def rasRetireRun (z : ZCmd) (s : State) : State := s.ztake hRasRetire z
/-- RAS_RETIRE_DIE_RESET (R538). RAS_RETIRE OP 1 resets a stopped or parked compute die and releases its cores. -/
def rasRetireDieResetRun (z : ZCmd) (s : State) : State := s.ztake hRasRetire z
/-- RAS_CLEAR_RECORDS (R542). RAS_CLEAR OP 0 discards records below a SEQ. -/
def rasClearRecordsRun (z : ZCmd) (s : State) : State := s.ztake hRasClear z
/-- RAS_CLEAR_ELEMENT (R542). RAS_CLEAR OP 1 discards the tracked history of a non-permanent Element. -/
def rasClearElementRun (z : ZCmd) (s : State) : State := s.ztake hRasClear z
/-- CSH_START (R550). The command starts a periodic Contact Sheet. -/
def cshStartRun (z : ZCmd) (s : State) : State := s.ztake hCshStart z
/-- CSH_STOP (R550). The command stops the Contact Sheet after its last sheet. -/
def cshStopRun (z : ZCmd) (s : State) : State := s.ztake hCshStop z
/-- EVT_SNAPSHOT (R554). The command writes one full sheet of selected counters. -/
def evtSnapshotRun (z : ZCmd) (s : State) : State := s.ztake hSnapshot z
/-- TST_RUN (R556). The command starts a MARCH, SCAN or LANE test on an isolated target. -/
def tstRunRun (z : ZCmd) (s : State) : State := s.ztake hTstRun z
/-- TST_RESULT (R560). The command writes held test result entries. -/
def tstResultRun (z : ZCmd) (s : State) : State := s.ztake hTstResult z
/-- AGT_SET (R565). The command extends an AGITATION event and sets an Agitation slot. -/
def agtSetRun (z : ZCmd) (s : State) : State := s.ztake hAgtSet z
/-- AGT_CLEAR (R566). The command extends an AGITATION event and clears one or all slots. -/
def agtClearRun (z : ZCmd) (s : State) : State := s.ztake hAgtClear z

/-! ### Taking commands (R395) -/

/-- The replies that a taken command may still write: two until an "A+F" command of the SF path has been
accepted, otherwise one, for its ACCEPTED reply is queued as it is taken. -/
def ZOut.owes (o : ZOut) : Nat :=
  if o.two && decide (o.z.f 0 2 / 256 = 0x20) && (o.sfWait || !o.begun) then 2 else 1

/-- The replies that a pair's ring must keep room for. -/
def State.reserved (s : State) (qp : Nat) : Nat :=
  ((s.zci.outs.filter (fun o => o.z.qp = qp)).map ZOut.owes).sum + (s.zci.reps.filter (fun r => r.qp = qp)).length

/-- The room of a reply ring. -/
def QPair.room (p : QPair) : Nat := 2 ^ p.qlog - 1 - (p.rtail + 2 ^ p.qlog - p.rqhead) % 2 ^ p.qlog

/-- The 64 bytes of the next command of a ring; `bad` when the ring access faults. -/
def State.readSlot (s : State) (qp : Nat) (p : QPair) : BufRes × State :=
  let a := p.sq + 64 * p.head
  let got (r : Option (List Byte × Bool) × State) : BufRes × State := match r with
    | (some (b, x), s) => (.ok b x, s)
    | (none, s) => (.wait, s)
  match s.ownerOf qp with
  | some n => match s.iotuXlate 8 n a 0 with
    | (.ok (h, k), s) => got (s.uncBytes Who.zci h 64 k false)
    | (.fault y _, s) => (.bad, s.iotuFault a 8 n y)
    | (_, s) => (.wait, s)
  | none => if s.rangeTiered a 64 then got (s.uncBytes Who.zci a 64 p.key (srcDark (s.srcOf qp))) else (.bad, s)

/-- Move past the slot of a command that was taken (R397). -/
def State.slotDone (s : State) (qp id : Nat) : State :=
  if s.zci.nextId = id then s
  else match s.pair qp with
    | some p => s.setPair qp (some { p with head := (p.head + 1) % 2 ^ p.qlog })
    | none => s

/-- Whether the instance of a pair has MAXOUT commands outstanding (R395). -/
def State.atMaxout (s : State) (qp : Nat) : Bool :=
  match (s.ownerOf qp).bind (fun n => (SMap.find s.zci.insts n).map (fun i => (n, i))) with
  | some (n, i) => decide ((s.instOuts n).length ≥ i.maxout)
  | none => false

/-- The replies that a command may write (R395): two for an "A+F" opcode. -/
def zneed (z : ZCmd) : Nat := if (opInfo (z.f 0 2)).any (fun x => x.2.2) then 2 else 1

/-- COMMAND_TAKE (R395): the next command of a RUNNING pair whose ring the ZCI reads, if reply room and
MAXOUT permit it.  A poisoned slot is an error on the command path (R410; log 29). -/
def commandTakeRun (qp : Nat) (s : State) : State :=
  let s := s.zciFlush
  match s.pair qp with
  | none => s
  | some p =>
    if p.st ≠ 1 ∨ p.head = p.tail ∨ s.atMaxout qp then s
    else match s.readSlot qp p with
      | (.ok b bad, s) =>
        let z : ZCmd := ⟨qp, BitVec.ofNat 512 (leNat b), []⟩
        if s.reserved qp + zneed z > p.room then s.evt 15 0x1C 14
        else
          let id := s.zci.nextId
          (s.ztake (if bad then fun _ _ s => s.poisonedBuffer else hAny) z).slotDone qp id
      | (.wait, s) => s
      | (_, s) => s.pairError qp

/-- FENCE_BEFORE_RELEASE (R398, R400). -/
def fenceBeforeReleaseRun (qp : Nat) (s : State) : State := s.zrelease hAny qp

/-- BOOT_MAILBOX_REQUEST (R406, R407); a request wakes the package (Table 17-5). -/
def bootMailboxRequestRun (cmd : BitVec 512) (attach : List Byte) (s : State) : State :=
  (s.pkgTouch 7 0).ztake hAny ⟨0, cmd, attach⟩

/-! ### The SF path (R404, R405) -/

/-- SF_ACCEPT: ACCEPTED is written; a later acceptance finds no command. -/
def sfAcceptRun (id : Nat) (s : State) : State :=
  match s.zci.outs.find? (fun o => decide (o.id = id) && o.sfWait) with
  | none => s
  | some o =>
    let outs := s.zci.outs.map fun (x : ZOut) => if x.id = id then { x with sfWait := false } else x
    let s := { s with zci := { s.zci with outs := outs } }
    (if o.two && decide (o.z.qp ≠ 0) then s.queueRep o.z zAccepted 0 [] false else s).zciFlush

/-- SF_ACCEPTANCE_TIMEOUT: the command is withdrawn. -/
def sfAcceptanceTimeoutRun (id : Nat) (s : State) : State :=
  match s.zci.outs.find? (fun o => decide (o.id = id) && o.sfWait) with
  | none => s
  | some o => ((s.evt 15 0x1C 7).endCmd o zBusy dSfTimeout []).zciFlush

/-- FIRMWARE_REPLY: the final reply of a command that Safelight or the service firmware performs; a
further one, or one of a command that neither performs, is discarded. -/
def firmwareReplyRun (id : Nat) (status : BitVec 16) (detail : BitVec 32) (result : BitVec 184) (s : State) : State :=
  let s := s.zciFlush
  match s.zci.outs.find? (fun o => decide (o.id = id) && o.begun && !o.sfWait) with
  | none => s
  | some o => match opInfo (o.z.f 0 2) with
    | some (0, _) => s
    | _ => (s.endCmd o status.toNat detail.toNat (leBytes 23 result.toNat)).zciFlush

-- EXEC: IOTU_INV_DEVICE IOTU_INV_VA IOTU_INV_IPA IOTU_INV_VMID IOTU_INV_ALL TIER_QUERY TIER_REPORT TIER_MOVE TIER_PIN TIER_UNPIN TIER_DISCARD TIER_SET_QUOTA TIER_EVACUATE TIER_CANCEL KEY_TRANSPORT KEY_LOAD KEY_ROTATE KEY_ERASE KEY_QUERY CDN_COMPRESS CDN_DECOMPRESS LEND_SET_RANGE LEND_QUERY LEND_FREEZE LEND_RELEASE LEND_ROM_LOAD ZCI_IDENTIFY ZCI_NOP ZCI_QUEUE_SET_ENABLE ZCI_QUEUE_SET_DISABLE SVI_CONFIG SVI_RESET_DRAIN SVI_RESET_SQUASH SVI_RESET_RELEASE SVI_QUERY SVI_LOG_START SVI_LOG_READ SVI_LOG_STOP SVI_FREEZE SVI_SAVE SVI_RESTORE SVI_THAW PDB_BEGIN PDB_DATA PDB_COMMIT PDB_STATUS FW_LOAD FW_ACTIVATE_SAFELIGHT FW_ACTIVATE_SERVICE_FW FW_ACTIVATE_MONITOR FW_ACTIVATE_HOST_FW FW_QUERY XR_READ_REGISTERS XR_READ_LOG XR_READ_IDENTITY XR_QUOTE XR_EXTEND PWR_QUERY PWR_SET_LIMIT PWR_SET_MAXPS PWR_SET_TARGET PARK UNPARK GRC_READ_SENSORS GRC_READ_WEAR_LOG RAS_RECORDS RAS_UNIT_STATE RAS_RETIRE RAS_RETIRE_DIE_RESET RAS_CLEAR_RECORDS RAS_CLEAR_ELEMENT CSH_START CSH_STOP EVT_SNAPSHOT TST_RUN TST_RESULT AGT_SET AGT_CLEAR COMMAND_TAKE FENCE_BEFORE_RELEASE SF_ACCEPT SF_ACCEPTANCE_TIMEOUT FIRMWARE_REPLY BOOT_MAILBOX_REQUEST
/-- IOTU_INV_DEVICE (R151): the effect of a well-formed command. -/
def execIotuInvDevice (z : ZCmd) (s : State) : Res := runs (z.is 0x0401) (iotuInvDeviceRun z) s

/-- IOTU_INV_VA (R151): the effect of a well-formed command. -/
def execIotuInvVa (z : ZCmd) (s : State) : Res := runs (z.is 0x0402) (iotuInvVaRun z) s

/-- IOTU_INV_IPA (R151): the effect of a well-formed command. -/
def execIotuInvIpa (z : ZCmd) (s : State) : Res := runs (z.is 0x0403) (iotuInvIpaRun z) s

/-- IOTU_INV_VMID (R151): the effect of a well-formed command. -/
def execIotuInvVmid (z : ZCmd) (s : State) : Res := runs (z.is 0x0404) (iotuInvVmidRun z) s

/-- IOTU_INV_ALL (R151): the effect of a well-formed command. -/
def execIotuInvAll (z : ZCmd) (s : State) : Res := runs (z.is 0x0405) (iotuInvAllRun z) s

/-- TIER_QUERY (R278): the effect of a well-formed command. -/
def execTierQuery (z : ZCmd) (s : State) : Res := runs (z.is 0x1001) (tierQueryRun z) s

/-- TIER_REPORT (R280): the effect of a well-formed command. -/
def execTierReport (z : ZCmd) (s : State) : Res := runs (z.is 0x1002) (tierReportRun z) s

/-- TIER_MOVE (R279): the effect of a well-formed command. -/
def execTierMove (z : ZCmd) (s : State) : Res := runs (z.is 0x1003) (tierMoveRun z) s

/-- TIER_PIN (R272): the effect of a well-formed command. -/
def execTierPin (z : ZCmd) (s : State) : Res := runs (z.is 0x1004) (tierPinRun z) s

/-- TIER_UNPIN (R277): the effect of a well-formed command. -/
def execTierUnpin (z : ZCmd) (s : State) : Res := runs (z.is 0x1005) (tierUnpinRun z) s

/-- TIER_DISCARD (R281): the effect of a well-formed command. -/
def execTierDiscard (z : ZCmd) (s : State) : Res := runs (z.is 0x1006) (tierDiscardRun z) s

/-- TIER_SET_QUOTA (R270): the effect of a well-formed command. -/
def execTierSetQuota (z : ZCmd) (s : State) : Res := runs (z.is 0x1007) (tierSetQuotaRun z) s

/-- TIER_EVACUATE (R278): the effect of a well-formed command. -/
def execTierEvacuate (z : ZCmd) (s : State) : Res := runs (z.is 0x1008) (tierEvacuateRun z) s

/-- TIER_CANCEL (R281): the effect of a well-formed command. -/
def execTierCancel (z : ZCmd) (s : State) : Res := runs (z.is 0x1009) (tierCancelRun z) s

/-- KEY_TRANSPORT (R294): the effect of a well-formed command. -/
def execKeyTransport (z : ZCmd) (s : State) : Res := runs (z.is 0x1201) (keyTransportRun z) s

/-- KEY_LOAD (R296): the effect of a well-formed command. -/
def execKeyLoad (z : ZCmd) (s : State) : Res := runs (z.is 0x1202) (keyLoadRun z) s

/-- KEY_ROTATE (R297): the effect of a well-formed command. -/
def execKeyRotate (z : ZCmd) (s : State) : Res := runs (z.is 0x1203) (keyRotateRun z) s

/-- KEY_ERASE (R302): the effect of a well-formed command. -/
def execKeyErase (z : ZCmd) (s : State) : Res := runs (z.is 0x1204) (keyEraseRun z) s

/-- KEY_QUERY (R303): the effect of a well-formed command. -/
def execKeyQuery (z : ZCmd) (s : State) : Res := runs (z.is 0x1205) (keyQueryRun z) s

/-- CDN_COMPRESS (R310): the effect of a well-formed command. -/
def execCdnCompress (z : ZCmd) (s : State) : Res := runs (z.is 0x1101) (cdnCompressRun z) s

/-- CDN_DECOMPRESS (R310): the effect of a well-formed command. -/
def execCdnDecompress (z : ZCmd) (s : State) : Res := runs (z.is 0x1102) (cdnDecompressRun z) s

/-- LEND_SET_RANGE (R368): the effect of a well-formed command. -/
def execLendSetRange (z : ZCmd) (s : State) : Res := runs (z.is 0x1801) (lendSetRangeRun z) s

/-- LEND_QUERY (R385): the effect of a well-formed command. -/
def execLendQuery (z : ZCmd) (s : State) : Res := runs (z.is 0x1802) (lendQueryRun z) s

/-- LEND_FREEZE (R378): the effect of a well-formed command. -/
def execLendFreeze (z : ZCmd) (s : State) : Res := runs (z.is 0x1803) (lendFreezeRun z) s

/-- LEND_RELEASE (R379): the effect of a well-formed command. -/
def execLendRelease (z : ZCmd) (s : State) : Res := runs (z.is 0x1804) (lendReleaseRun z) s

/-- LEND_ROM_LOAD (R366): the effect of a well-formed command. -/
def execLendRomLoad (z : ZCmd) (s : State) : Res := runs (z.is 0x1805) (lendRomLoadRun z) s

/-- ZCI_IDENTIFY (R411): the effect of a well-formed command. -/
def execZciIdentify (z : ZCmd) (s : State) : Res := runs (z.is 0x0001) (zciIdentifyRun z) s

/-- ZCI_NOP (R411): the effect of a well-formed command. -/
def execZciNop (z : ZCmd) (s : State) : Res := runs (z.is 0x0002) (zciNopRun z) s

/-- ZCI_QUEUE_SET_ENABLE (R411): the effect of a well-formed command. -/
def execZciQueueSetEnable (z : ZCmd) (s : State) : Res :=
  runs (z.isFirst 0x0003 20 [1]) (zciQueueSetEnableRun z) s

/-- ZCI_QUEUE_SET_DISABLE (R411): the effect of a well-formed command. -/
def execZciQueueSetDisable (z : ZCmd) (s : State) : Res :=
  runs (z.isOp 0x0003 20 1) (zciQueueSetDisableRun z) s

/-- SVI_CONFIG (R415): the effect of a well-formed command. -/
def execSviConfig (z : ZCmd) (s : State) : Res := runs (z.is 0x0801) (sviConfigRun z) s

/-- SVI_RESET_DRAIN (R416): the effect of a well-formed command. -/
def execSviResetDrain (z : ZCmd) (s : State) : Res :=
  runs (z.isFirst 0x0802 16 [1, 2]) (sviResetDrainRun z) s

/-- SVI_RESET_SQUASH (R416): the effect of a well-formed command. -/
def execSviResetSquash (z : ZCmd) (s : State) : Res :=
  runs (z.isOp 0x0802 16 1) (sviResetSquashRun z) s

/-- SVI_RESET_RELEASE (R416): the effect of a well-formed command. -/
def execSviResetRelease (z : ZCmd) (s : State) : Res :=
  runs (z.isOp 0x0802 16 2) (sviResetReleaseRun z) s

/-- SVI_QUERY (R414): the effect of a well-formed command. -/
def execSviQuery (z : ZCmd) (s : State) : Res := runs (z.is 0x0803) (sviQueryRun z) s

/-- SVI_LOG_START (R418): the effect of a well-formed command. -/
def execSviLogStart (z : ZCmd) (s : State) : Res :=
  runs (z.isFirst 0x0804 16 [1, 2]) (sviLogStartRun z) s

/-- SVI_LOG_READ (R418): the effect of a well-formed command. -/
def execSviLogRead (z : ZCmd) (s : State) : Res := runs (z.isOp 0x0804 16 1) (sviLogReadRun z) s

/-- SVI_LOG_STOP (R418): the effect of a well-formed command. -/
def execSviLogStop (z : ZCmd) (s : State) : Res := runs (z.isOp 0x0804 16 2) (sviLogStopRun z) s

/-- SVI_FREEZE (R420): the effect of a well-formed command. -/
def execSviFreeze (z : ZCmd) (s : State) : Res := runs (z.is 0x0805) (sviFreezeRun z) s

/-- SVI_SAVE (R421): the effect of a well-formed command. -/
def execSviSave (z : ZCmd) (s : State) : Res := runs (z.is 0x0806) (sviSaveRun z) s

/-- SVI_RESTORE (R422): the effect of a well-formed command. -/
def execSviRestore (z : ZCmd) (s : State) : Res := runs (z.is 0x0807) (sviRestoreRun z) s

/-- SVI_THAW (R420): the effect of a well-formed command. -/
def execSviThaw (z : ZCmd) (s : State) : Res := runs (z.is 0x0808) (sviThawRun z) s

/-- PDB_BEGIN (R466): the effect of a well-formed command. -/
def execPdbBegin (z : ZCmd) (s : State) : Res := runs (z.is 0x0101) (pdbBeginRun z) s

/-- PDB_DATA (R466): the effect of a well-formed command. -/
def execPdbData (z : ZCmd) (s : State) : Res := runs (z.is 0x0102) (pdbDataRun z) s

/-- PDB_COMMIT (R471): the effect of a well-formed command. -/
def execPdbCommit (z : ZCmd) (s : State) : Res := runs (z.is 0x0103) (pdbCommitRun z) s

/-- PDB_STATUS (R466): the effect of a well-formed command. -/
def execPdbStatus (z : ZCmd) (s : State) : Res := runs (z.is 0x0104) (pdbStatusRun z) s

/-- FW_LOAD (R461): the effect of a well-formed command. -/
def execFwLoad (z : ZCmd) (s : State) : Res := runs (z.is 0x7F01) (fwLoadRun z) s

/-- FW_ACTIVATE_SAFELIGHT (R461): the effect of a well-formed command. -/
def execFwActivateSafelight (z : ZCmd) (s : State) : Res :=
  runs (z.isFirst 0x7F02 16 [1, 2, 3]) (fwActivateSafelightRun z) s

/-- FW_ACTIVATE_SERVICE_FW (R465): the effect of a well-formed command. -/
def execFwActivateServiceFw (z : ZCmd) (s : State) : Res :=
  runs (z.isOp 0x7F02 16 1) (fwActivateServiceFwRun z) s

/-- FW_ACTIVATE_MONITOR (R462): the effect of a well-formed command. -/
def execFwActivateMonitor (z : ZCmd) (s : State) : Res :=
  runs (z.isOp 0x7F02 16 2) (fwActivateMonitorRun z) s

/-- FW_ACTIVATE_HOST_FW (R464): the effect of a well-formed command. -/
def execFwActivateHostFw (z : ZCmd) (s : State) : Res :=
  runs (z.isOp 0x7F02 16 3) (fwActivateHostFwRun z) s

/-- FW_QUERY (R461): the effect of a well-formed command. -/
def execFwQuery (z : ZCmd) (s : State) : Res := runs (z.is 0x7F03) (fwQueryRun z) s

/-- XR_READ_REGISTERS (R480): the effect of a well-formed command. -/
def execXrReadRegisters (z : ZCmd) (s : State) : Res :=
  runs (z.isFirst 0x3001 16 [1, 2]) (xrReadRegistersRun z) s

/-- XR_READ_LOG (R480): the effect of a well-formed command. -/
def execXrReadLog (z : ZCmd) (s : State) : Res := runs (z.isOp 0x3001 16 1) (xrReadLogRun z) s

/-- XR_READ_IDENTITY (R480): the effect of a well-formed command. -/
def execXrReadIdentity (z : ZCmd) (s : State) : Res :=
  runs (z.isOp 0x3001 16 2) (xrReadIdentityRun z) s

/-- XR_QUOTE (R481): the effect of a well-formed command. -/
def execXrQuote (z : ZCmd) (s : State) : Res := runs (z.is 0x3002) (xrQuoteRun z) s

/-- XR_EXTEND (R478): the effect of a well-formed command. -/
def execXrExtend (z : ZCmd) (s : State) : Res := runs (z.is 0x3003) (xrExtendRun z) s

/-- PWR_QUERY (R509): the effect of a well-formed command. -/
def execPwrQuery (z : ZCmd) (s : State) : Res := runs (z.is 0x2001) (pwrQueryRun z) s

/-- PWR_SET_LIMIT (R509): the effect of a well-formed command. -/
def execPwrSetLimit (z : ZCmd) (s : State) : Res := runs (z.is 0x2002) (pwrSetLimitRun z) s

/-- PWR_SET_MAXPS (R509): the effect of a well-formed command. -/
def execPwrSetMaxps (z : ZCmd) (s : State) : Res :=
  runs (z.isFirst 0x2003 16 [1, 2, 3]) (pwrSetMaxpsRun z) s

/-- PWR_SET_TARGET (R509): the effect of a well-formed command. -/
def execPwrSetTarget (z : ZCmd) (s : State) : Res := runs (z.isOp 0x2003 16 1) (pwrSetTargetRun z) s

/-- PARK (R506): the effect of a well-formed command. -/
def execPark (z : ZCmd) (s : State) : Res := runs (z.isOp 0x2003 16 2) (parkRun z) s

/-- UNPARK (R506): the effect of a well-formed command. -/
def execUnpark (z : ZCmd) (s : State) : Res := runs (z.isOp 0x2003 16 3) (unparkRun z) s

/-- GRC_READ_SENSORS (R509): the effect of a well-formed command. -/
def execGrcReadSensors (z : ZCmd) (s : State) : Res :=
  runs (z.isFirst 0x2004 16 [1]) (grcReadSensorsRun z) s

/-- GRC_READ_WEAR_LOG (R520): the effect of a well-formed command. -/
def execGrcReadWearLog (z : ZCmd) (s : State) : Res :=
  runs (z.isOp 0x2004 16 1) (grcReadWearLogRun z) s

/-- RAS_RECORDS (R542): the effect of a well-formed command. -/
def execRasRecords (z : ZCmd) (s : State) : Res := runs (z.is 0x2801) (rasRecordsRun z) s

/-- RAS_UNIT_STATE (R542): the effect of a well-formed command. -/
def execRasUnitState (z : ZCmd) (s : State) : Res := runs (z.is 0x2802) (rasUnitStateRun z) s

/-- RAS_RETIRE (R542): the effect of a well-formed command. -/
def execRasRetire (z : ZCmd) (s : State) : Res := runs (z.isFirst 0x2803 16 [1]) (rasRetireRun z) s

/-- RAS_RETIRE_DIE_RESET (R538): the effect of a well-formed command. -/
def execRasRetireDieReset (z : ZCmd) (s : State) : Res :=
  runs (z.isOp 0x2803 16 1) (rasRetireDieResetRun z) s

/-- RAS_CLEAR_RECORDS (R542): the effect of a well-formed command. -/
def execRasClearRecords (z : ZCmd) (s : State) : Res :=
  runs (z.isFirst 0x2804 16 [1]) (rasClearRecordsRun z) s

/-- RAS_CLEAR_ELEMENT (R542): the effect of a well-formed command. -/
def execRasClearElement (z : ZCmd) (s : State) : Res :=
  runs (z.isOp 0x2804 16 1) (rasClearElementRun z) s

/-- CSH_START (R550): the effect of a well-formed command. -/
def execCshStart (z : ZCmd) (s : State) : Res := runs (z.is 0x4002) (cshStartRun z) s

/-- CSH_STOP (R550): the effect of a well-formed command. -/
def execCshStop (z : ZCmd) (s : State) : Res := runs (z.is 0x4003) (cshStopRun z) s

/-- EVT_SNAPSHOT (R554): the effect of a well-formed command. -/
def execEvtSnapshot (z : ZCmd) (s : State) : Res := runs (z.is 0x4001) (evtSnapshotRun z) s

/-- TST_RUN (R556): the effect of a well-formed command. -/
def execTstRun (z : ZCmd) (s : State) : Res := runs (z.is 0x3801) (tstRunRun z) s

/-- TST_RESULT (R560): the effect of a well-formed command. -/
def execTstResult (z : ZCmd) (s : State) : Res := runs (z.is 0x3802) (tstResultRun z) s

/-- AGT_SET (R565): the effect of a well-formed command. -/
def execAgtSet (z : ZCmd) (s : State) : Res := runs (z.is 0x3C01) (agtSetRun z) s

/-- AGT_CLEAR (R566): the effect of a well-formed command. -/
def execAgtClear (z : ZCmd) (s : State) : Res := runs (z.is 0x3C02) (agtClearRun z) s

/-- COMMAND_TAKE (R395): the effect of a well-formed command. -/
def execCommandTake (qp : Nat) (s : State) : Res := runs (wfQp qp) (commandTakeRun qp) s

/-- FENCE_BEFORE_RELEASE (R398): the effect of a well-formed command. -/
def execFenceBeforeRelease (qp : Nat) (s : State) : Res :=
  runs (wfQp qp) (fenceBeforeReleaseRun qp) s

/-- SF_ACCEPT (R405): the effect of a well-formed command. -/
def execSfAccept (id : Nat) (s : State) : Res := runs true (sfAcceptRun id) s

/-- SF_ACCEPTANCE_TIMEOUT (R404): the effect of a well-formed command. -/
def execSfAcceptanceTimeout (id : Nat) (s : State) : Res := runs true (sfAcceptanceTimeoutRun id) s

/-- FIRMWARE_REPLY (R405): the effect of a well-formed command. -/
def execFirmwareReply (id : Nat) (status : BitVec 16) (detail : BitVec 32) (result : BitVec 184) (s : State) : Res :=
  runs true (firmwareReplyRun id status detail result) s

/-- BOOT_MAILBOX_REQUEST (R407): the effect of a well-formed command. -/
def execBootMailboxRequest (cmd : BitVec 512) (attach : List Byte) (s : State) : Res :=
  runs true (bootMailboxRequestRun cmd attach) s
-- END EXEC

end Sys2Proof.Machine
end

