-- ==== Sys2Proof/Machine/Dispatch.lean ====
section
/-! DEFINITION.
The dispatch of every command to its meaning, one arm per row of the opcode table. -/

namespace Sys2Proof.Machine

/-- The effect of a command on everything but the queue. -/
def exec (i : Instr) (s : State) : Host.Outcome State Fault Refusal :=
  match i with
  | .registerWrite agent off size value => Sys2Proof.Machine.execRegisterWrite agent off size value s
  | .computationalInstruction x op rd ra rb vec => Sys2Proof.Machine.execComputationalInstruction x op rd ra rb vec s
  | .loadInsn x m => Sys2Proof.Machine.execLoadInsn x m s
  | .storeInsn x m => Sys2Proof.Machine.execStoreInsn x m s
  | .mfsr x rd sr => Sys2Proof.Machine.execMfsr x rd sr s
  | .mtsr x rs sr => Sys2Proof.Machine.execMtsr x rs sr s
  | .eret x => Sys2Proof.Machine.execEret x s
  | .wfi x => Sys2Proof.Machine.execWfi x s
  | .isync x => Sys2Proof.Machine.execIsync x s
  | .ret x => Sys2Proof.Machine.execRet x s
  | .wkeep x => Sys2Proof.Machine.execWkeep x s
  | .tlbsync x => Sys2Proof.Machine.execTlbsync x s
  | .scall x imm => Sys2Proof.Machine.execScall x imm s
  | .hcall x imm => Sys2Proof.Machine.execHcall x imm s
  | .dcall x imm => Sys2Proof.Machine.execDcall x imm s
  | .brk x imm => Sys2Proof.Machine.execBrk x imm s
  | .rdtime x rd => Sys2Proof.Machine.execRdtime x rd s
  | .call x disp => Sys2Proof.Machine.execCall x disp s
  | .callr x rs => Sys2Proof.Machine.execCallr x rs s
  | .wflush x level upto => Sys2Proof.Machine.execWflush x level upto s
  | .wpmov x rd rs dir => Sys2Proof.Machine.execWpmov x rd rs dir s
  | .pcmp x pd pe ra rb cc => Sys2Proof.Machine.execPcmp x pd pe ra rb cc s
  | .pcmpi x pd pe ra imm cc => Sys2Proof.Machine.execPcmpi x pd pe ra imm cc s
  | .plog x pd pa pb op => Sys2Proof.Machine.execPlog x pd pa pb op s
  | .pmovr x rd => Sys2Proof.Machine.execPmovr x rd s
  | .pmovp x rs mask => Sys2Proof.Machine.execPmovp x rs mask s
  | .fence x set scope => Sys2Proof.Machine.execFence x set scope s
  | .fabricFenceComplete core => Sys2Proof.Machine.execFabricFenceComplete core s
  | .amoSwap x rd ra rv hint sz => Sys2Proof.Machine.execAmoSwap x rd ra rv hint sz s
  | .amoAdd x rd ra rv hint sz => Sys2Proof.Machine.execAmoAdd x rd ra rv hint sz s
  | .amoAnd x rd ra rv hint sz => Sys2Proof.Machine.execAmoAnd x rd ra rv hint sz s
  | .amoOr x rd ra rv hint sz => Sys2Proof.Machine.execAmoOr x rd ra rv hint sz s
  | .amoXor x rd ra rv hint sz => Sys2Proof.Machine.execAmoXor x rd ra rv hint sz s
  | .amoMin x rd ra rv hint sz => Sys2Proof.Machine.execAmoMin x rd ra rv hint sz s
  | .amoMax x rd ra rv hint sz => Sys2Proof.Machine.execAmoMax x rd ra rv hint sz s
  | .amoUmin x rd ra rv hint sz => Sys2Proof.Machine.execAmoUmin x rd ra rv hint sz s
  | .amoUmax x rd ra rv hint sz => Sys2Proof.Machine.execAmoUmax x rd ra rv hint sz s
  | .cas x rd ra rexp rnew hint => Sys2Proof.Machine.execCas x rd ra rexp rnew hint s
  | .cas128 x rd ra rexp rnew hint => Sys2Proof.Machine.execCas128 x rd ra rexp rnew hint s
  | .cmoClean x ra => Sys2Proof.Machine.execCmoClean x ra s
  | .cmoInval x ra => Sys2Proof.Machine.execCmoInval x ra s
  | .cmoCleaninv x ra => Sys2Proof.Machine.execCmoCleaninv x ra s
  | .cmoZero x ra => Sys2Proof.Machine.execCmoZero x ra s
  | .cmorClean x ra rn upto => Sys2Proof.Machine.execCmorClean x ra rn upto s
  | .cmorInval x ra rn upto => Sys2Proof.Machine.execCmorInval x ra rn upto s
  | .cmorCleaninv x ra rn upto => Sys2Proof.Machine.execCmorCleaninv x ra rn upto s
  | .icinv x ra => Sys2Proof.Machine.execIcinv x ra s
  | .icinvAll x => Sys2Proof.Machine.execIcinvAll x s
  | .tlbiVaAsid x ra locked => Sys2Proof.Machine.execTlbiVaAsid x ra locked s
  | .tlbiVaAllAsid x ra locked => Sys2Proof.Machine.execTlbiVaAllAsid x ra locked s
  | .tlbiAsid x ra locked => Sys2Proof.Machine.execTlbiAsid x ra locked s
  | .tlbiStage1Vm x ra locked => Sys2Proof.Machine.execTlbiStage1Vm x ra locked s
  | .tlbiIpa x ra locked => Sys2Proof.Machine.execTlbiIpa x ra locked s
  | .tlbiVmid x ra locked => Sys2Proof.Machine.execTlbiVmid x ra locked s
  | .tlbiAll x ra locked => Sys2Proof.Machine.execTlbiAll x ra locked s
  | .tlbir x ra rn locked upto => Sys2Proof.Machine.execTlbir x ra rn locked upto s
  | .tlbirIpa x ra rn locked upto => Sys2Proof.Machine.execTlbirIpa x ra rn locked upto s
  | .tlblock x pd ra => Sys2Proof.Machine.execTlblock x pd ra s
  | .tlbunlock x ra => Sys2Proof.Machine.execTlbunlock x ra s
  | .tlbunlockAll x => Sys2Proof.Machine.execTlbunlockAll x s
  | .interrupt core => Sys2Proof.Machine.execInterrupt core s
  | .timerInterrupt core => Sys2Proof.Machine.execTimerInterrupt core s
  | .ipiSend x rs => Sys2Proof.Machine.execIpiSend x rs s
  | .ipiArrival core tag => Sys2Proof.Machine.execIpiArrival core tag s
  | .extclaim x rd => Sys2Proof.Machine.execExtclaim x rd s
  | .interruptWindowWrite off size data => Sys2Proof.Machine.execInterruptWindowWrite off size data s
  | .atomctlClr x rs => Sys2Proof.Machine.execAtomctlClr x rs s
  | .hardwarePrefetch core hpa key target => Sys2Proof.Machine.execHardwarePrefetch core hpa key target s
  | .demandReissue core line => Sys2Proof.Machine.execDemandReissue core line s
  | .dmaWrite d data mask => Sys2Proof.Machine.execDmaWrite d data mask s
  | .dmaRead d => Sys2Proof.Machine.execDmaRead d s
  | .msiWrite d data => Sys2Proof.Machine.execMsiWrite d data s
  | .iotuInvDevice z => Sys2Proof.Machine.execIotuInvDevice z s
  | .iotuInvVa z => Sys2Proof.Machine.execIotuInvVa z s
  | .iotuInvIpa z => Sys2Proof.Machine.execIotuInvIpa z s
  | .iotuInvVmid z => Sys2Proof.Machine.execIotuInvVmid z s
  | .iotuInvAll z => Sys2Proof.Machine.execIotuInvAll z s
  | .iotuFstatPop agent => Sys2Proof.Machine.execIotuFstatPop agent s
  | .l3SliceRequest core line kind key world spec => Sys2Proof.Machine.execL3SliceRequest core line kind key world spec s
  | .l1cCtlWrite agent core value => Sys2Proof.Machine.execL1cCtlWrite agent core value s
  | .l3cLockWrite agent slice value => Sys2Proof.Machine.execL3cLockWrite agent slice value s
  | .rds r => Sys2Proof.Machine.execRds r s
  | .rdo r => Sys2Proof.Machine.execRdo r s
  | .upg r => Sys2Proof.Machine.execUpg r s
  | .rdc r => Sys2Proof.Machine.execRdc r s
  | .wrf r => Sys2Proof.Machine.execWrf r s
  | .wrp r => Sys2Proof.Machine.execWrp r s
  | .atf r => Sys2Proof.Machine.execAtf r s
  | .cmc r => Sys2Proof.Machine.execCmc r s
  | .cmi r => Sys2Proof.Machine.execCmi r s
  | .cmci r => Sys2Proof.Machine.execCmci r s
  | .cmz r => Sys2Proof.Machine.execCmz r s
  | .evc r => Sys2Proof.Machine.execEvc r s
  | .evd r => Sys2Proof.Machine.execEvd r s
  | .snps die line excl err => Sys2Proof.Machine.execSnps die line excl err s
  | .snpi die line excl err => Sys2Proof.Machine.execSnpi die line excl err s
  | .snpc die line excl err => Sys2Proof.Machine.execSnpc die line excl err s
  | .snpcur die line excl err => Sys2Proof.Machine.execSnpcur die line excl err s
  | .snoopAnswer line agent a => Sys2Proof.Machine.execSnoopAnswer line agent a s
  | .grant g => Sys2Proof.Machine.execGrant g s
  | .cmpack agent line => Sys2Proof.Machine.execCmpack agent line s
  | .evack agent line => Sys2Proof.Machine.execEvack agent line s
  | .defReply core line key => Sys2Proof.Machine.execDefReply core line key s
  | .waitingRequestResume slice => Sys2Proof.Machine.execWaitingRequestResume slice s
  | .snoopTimeout line agent => Sys2Proof.Machine.execSnoopTimeout line agent s
  | .memoryTimeout line => Sys2Proof.Machine.execMemoryTimeout line s
  | .requestTimeout agent line => Sys2Proof.Machine.execRequestTimeout agent line s
  | .domainDownNotice socket => Sys2Proof.Machine.execDomainDownNotice socket s
  | .domainDownExtension => Sys2Proof.Machine.execDomainDownExtension s
  | .sweepSetVisit slice => Sys2Proof.Machine.execSweepSetVisit slice s
  | .prot e flit => Sys2Proof.Machine.execProt e flit s
  | .nullFlit e flit => Sys2Proof.Machine.execNullFlit e flit s
  | .nak e flit => Sys2Proof.Machine.execNak e flit s
  | .widthReq e flit masks => Sys2Proof.Machine.execWidthReq e flit masks s
  | .widthAck e flit masks => Sys2Proof.Machine.execWidthAck e flit masks s
  | .widthWdraw e flit seq => Sys2Proof.Machine.execWidthWdraw e flit seq s
  | .mapswitch e flit => Sys2Proof.Machine.execMapswitch e flit s
  | .replayBufferDrained e => Sys2Proof.Machine.execReplayBufferDrained e s
  | .audit e flit shared reserved => Sys2Proof.Machine.execAudit e flit shared reserved s
  | .auditSend e => Sys2Proof.Machine.execAuditSend e s
  | .pmReq e flit => Sys2Proof.Machine.execPmReq e flit s
  | .pmAck e flit => Sys2Proof.Machine.execPmAck e flit s
  | .pmNak e flit => Sys2Proof.Machine.execPmNak e flit s
  | .lp2Idle e => Sys2Proof.Machine.execLp2Idle e s
  | .lp1Entry e => Sys2Proof.Machine.execLp1Entry e s
  | .wakePattern e => Sys2Proof.Machine.execWakePattern e s
  | .replayTimeout e => Sys2Proof.Machine.execReplayTimeout e s
  | .fullTraining e => Sys2Proof.Machine.execFullTraining e s
  | .trainingPatternDetect e => Sys2Proof.Machine.execTrainingPatternDetect e s
  | .trainingComplete link t => Sys2Proof.Machine.execTrainingComplete link t s
  | .trainingTimeout e => Sys2Proof.Machine.execTrainingTimeout e s
  | .retrain agent e => Sys2Proof.Machine.execRetrain agent e s
  | .lockLoss e => Sys2Proof.Machine.execLockLoss e s
  | .lockRegained e => Sys2Proof.Machine.execLockRegained e s
  | .lockTimeout e => Sys2Proof.Machine.execLockTimeout e s
  | .burst e b => Sys2Proof.Machine.execBurst e b s
  | .sba e tag => Sys2Proof.Machine.execSba e tag s
  | .sbr e tag => Sys2Proof.Machine.execSbr e tag s
  | .burstTimeout e tag => Sys2Proof.Machine.execBurstTimeout e tag s
  | .computeDiePhaseEnd => Sys2Proof.Machine.execComputeDiePhaseEnd s
  | .tieredAccess a => Sys2Proof.Machine.execTieredAccess a s
  | .decompressedLine slot checkFails => Sys2Proof.Machine.execDecompressedLine slot checkFails s
  | .starvedRequestResume => Sys2Proof.Machine.execStarvedRequestResume s
  | .heatDecayVisit => Sys2Proof.Machine.execHeatDecayVisit s
  | .decayWrite agent value => Sys2Proof.Machine.execDecayWrite agent value s
  | .migrationCopy slot line parity => Sys2Proof.Machine.execMigrationCopy slot line parity s
  | .sourceFrameFree slot => Sys2Proof.Machine.execSourceFrameFree slot s
  | .compressionComplete slot => Sys2Proof.Machine.execCompressionComplete slot s
  | .migrationSlotFree => Sys2Proof.Machine.execMigrationSlotFree s
  | .evacuationResume => Sys2Proof.Machine.execEvacuationResume s
  | .evacuationComplete => Sys2Proof.Machine.execEvacuationComplete s
  | .tierQuery z => Sys2Proof.Machine.execTierQuery z s
  | .tierReport z => Sys2Proof.Machine.execTierReport z s
  | .tierMove z => Sys2Proof.Machine.execTierMove z s
  | .tierPin z => Sys2Proof.Machine.execTierPin z s
  | .tierUnpin z => Sys2Proof.Machine.execTierUnpin z s
  | .tierDiscard z => Sys2Proof.Machine.execTierDiscard z s
  | .tierSetQuota z => Sys2Proof.Machine.execTierSetQuota z s
  | .tierEvacuate z => Sys2Proof.Machine.execTierEvacuate z s
  | .tierCancel z => Sys2Proof.Machine.execTierCancel z s
  | .keyTransport z => Sys2Proof.Machine.execKeyTransport z s
  | .keyLoad z => Sys2Proof.Machine.execKeyLoad z s
  | .keyRotate z => Sys2Proof.Machine.execKeyRotate z s
  | .keyErase z => Sys2Proof.Machine.execKeyErase z s
  | .keyQuery z => Sys2Proof.Machine.execKeyQuery z s
  | .rekeyTransaction slot line => Sys2Proof.Machine.execRekeyTransaction slot line s
  | .cdnCompress z => Sys2Proof.Machine.execCdnCompress z s
  | .cdnDecompress z => Sys2Proof.Machine.execCdnDecompress z s
  | .segmentComplete compress => Sys2Proof.Machine.execSegmentComplete compress s
  | .mcRead ch a o => Sys2Proof.Machine.execMcRead ch a o s
  | .mcWrite ch a data poison => Sys2Proof.Machine.execMcWrite ch a data poison s
  | .alert ch => Sys2Proof.Machine.execAlert ch s
  | .alertClear ch => Sys2Proof.Machine.execAlertClear ch s
  | .alertTimeout ch => Sys2Proof.Machine.execAlertTimeout ch s
  | .refresh ch rank => Sys2Proof.Machine.execRefresh ch rank s
  | .mr4Poll ch hot => Sys2Proof.Machine.execMr4Poll ch hot s
  | .panicAge ch => Sys2Proof.Machine.execPanicAge ch s
  | .scrubRead ch o => Sys2Proof.Machine.execScrubRead ch o s
  | .remeasurementStep ch sweeps => Sys2Proof.Machine.execRemeasurementStep ch sweeps s
  | .configRequest bus dev off write data => Sys2Proof.Machine.execConfigRequest bus dev off write data s
  | .completionTimeout port tag => Sys2Proof.Machine.execCompletionTimeout port tag s
  | .dpcTrigger port reason => Sys2Proof.Machine.execDpcTrigger port reason s
  | .dpcRelease port retrigger => Sys2Proof.Machine.execDpcRelease port retrigger s
  | .ideKeyInstall port slot key iv => Sys2Proof.Machine.execIdeKeyInstall port slot key iv s
  | .ideKeyClear port slot => Sys2Proof.Machine.execIdeKeyClear port slot s
  | .t1RangeActivate agent value => Sys2Proof.Machine.execT1RangeActivate agent value s
  | .fwtCommit agent word1 => Sys2Proof.Machine.execFwtCommit agent word1 s
  | .fabricWindowAccess a => Sys2Proof.Machine.execFabricWindowAccess a s
  | .fabricCompletion tag data err => Sys2Proof.Machine.execFabricCompletion tag data err s
  | .fabricCompletionTimeout tag => Sys2Proof.Machine.execFabricCompletionTimeout tag s
  | .sceucXJoin group peerSocket peerPeer peerCap peerMode peerRange => Sys2Proof.Machine.execSceucXJoin group peerSocket peerPeer peerCap peerMode peerRange s
  | .sceucXLaneFail group lowGood highGood => Sys2Proof.Machine.execSceucXLaneFail group lowGood highGood s
  | .sceucXLockTimeout group => Sys2Proof.Machine.execSceucXLockTimeout group s
  | .memrd fn addr tag => Sys2Proof.Machine.execMemrd fn addr tag s
  | .memwr fn addr tag data poison => Sys2Proof.Machine.execMemwr fn addr tag data poison s
  | .memwrptl fn addr tag data mask => Sys2Proof.Machine.execMemwrptl fn addr tag data mask s
  | .lendAnswerTimeout fn tag => Sys2Proof.Machine.execLendAnswerTimeout fn tag s
  | .expansionRomRead fn off => Sys2Proof.Machine.execExpansionRomRead fn off s
  | .identify fn => Sys2Proof.Machine.execIdentify fn s
  | .backgroundOperationStatus fn => Sys2Proof.Machine.execBackgroundOperationStatus fn s
  | .getEventRecords fn => Sys2Proof.Machine.execGetEventRecords fn s
  | .clearEventRecords fn handles => Sys2Proof.Machine.execClearEventRecords fn handles s
  | .getEventInterruptPolicy fn => Sys2Proof.Machine.execGetEventInterruptPolicy fn s
  | .setEventInterruptPolicy fn policy => Sys2Proof.Machine.execSetEventInterruptPolicy fn policy s
  | .getSupportedLogs fn => Sys2Proof.Machine.execGetSupportedLogs fn s
  | .getLog fn => Sys2Proof.Machine.execGetLog fn s
  | .identifyMemoryDevice fn => Sys2Proof.Machine.execIdentifyMemoryDevice fn s
  | .getPartitionInfo fn => Sys2Proof.Machine.execGetPartitionInfo fn s
  | .getHealthInfo fn => Sys2Proof.Machine.execGetHealthInfo fn s
  | .getPoisonList fn dpa len => Sys2Proof.Machine.execGetPoisonList fn dpa len s
  | .sanitize fn => Sys2Proof.Machine.execSanitize fn s
  | .getPoisonListDma fn addr len => Sys2Proof.Machine.execGetPoisonListDma fn addr len s
  | .getEventRecordsDma fn addr len => Sys2Proof.Machine.execGetEventRecordsDma fn addr len s
  | .discardRangesDma fn addr len => Sys2Proof.Machine.execDiscardRangesDma fn addr len s
  | .mailboxDmaCompletion fn tag bytes => Sys2Proof.Machine.execMailboxDmaCompletion fn tag bytes s
  | .mailboxDmaTimeout fn tag => Sys2Proof.Machine.execMailboxDmaTimeout fn tag s
  | .busMasterEnableClear fn => Sys2Proof.Machine.execBusMasterEnableClear fn s
  | .busMasterEnableSet fn => Sys2Proof.Machine.execBusMasterEnableSet fn s
  | .functionLevelReset fn => Sys2Proof.Machine.execFunctionLevelReset fn s
  | .cxlReset fn memoryClear => Sys2Proof.Machine.execCxlReset fn memoryClear s
  | .lendPerst fn => Sys2Proof.Machine.execLendPerst fn s
  | .lendSetRange z => Sys2Proof.Machine.execLendSetRange z s
  | .lendQuery z => Sys2Proof.Machine.execLendQuery z s
  | .lendFreeze z => Sys2Proof.Machine.execLendFreeze z s
  | .lendRelease z => Sys2Proof.Machine.execLendRelease z s
  | .lendRomLoad z => Sys2Proof.Machine.execLendRomLoad z s
  | .sqtail agent qp value => Sys2Proof.Machine.execSqtail agent qp value s
  | .rqhead agent qp value => Sys2Proof.Machine.execRqhead agent qp value s
  | .commandTake qp => Sys2Proof.Machine.execCommandTake qp s
  | .fenceBeforeRelease qp => Sys2Proof.Machine.execFenceBeforeRelease qp s
  | .sfAccept id => Sys2Proof.Machine.execSfAccept id s
  | .sfAcceptanceTimeout id => Sys2Proof.Machine.execSfAcceptanceTimeout id s
  | .firmwareReply id status detail result => Sys2Proof.Machine.execFirmwareReply id status detail result s
  | .bootMailboxRequest cmd attach => Sys2Proof.Machine.execBootMailboxRequest cmd attach s
  | .hqenEnable agent => Sys2Proof.Machine.execHqenEnable agent s
  | .hqenDisable agent => Sys2Proof.Machine.execHqenDisable agent s
  | .zciIdentify z => Sys2Proof.Machine.execZciIdentify z s
  | .zciNop z => Sys2Proof.Machine.execZciNop z s
  | .zciQueueSetEnable z => Sys2Proof.Machine.execZciQueueSetEnable z s
  | .zciQueueSetDisable z => Sys2Proof.Machine.execZciQueueSetDisable z s
  | .queueDrainComplete qp => Sys2Proof.Machine.execQueueDrainComplete qp s
  | .sviConfig z => Sys2Proof.Machine.execSviConfig z s
  | .sviResetDrain z => Sys2Proof.Machine.execSviResetDrain z s
  | .sviResetSquash z => Sys2Proof.Machine.execSviResetSquash z s
  | .sviResetRelease z => Sys2Proof.Machine.execSviResetRelease z s
  | .sviResetComplete inst => Sys2Proof.Machine.execSviResetComplete inst s
  | .sviQuery z => Sys2Proof.Machine.execSviQuery z s
  | .sviLogStart z => Sys2Proof.Machine.execSviLogStart z s
  | .sviLogRead z => Sys2Proof.Machine.execSviLogRead z s
  | .sviLogStop z => Sys2Proof.Machine.execSviLogStop z s
  | .sviFreeze z => Sys2Proof.Machine.execSviFreeze z s
  | .sviFreezeComplete inst => Sys2Proof.Machine.execSviFreezeComplete inst s
  | .sviSave z => Sys2Proof.Machine.execSviSave z s
  | .sviRestore z => Sys2Proof.Machine.execSviRestore z s
  | .sviThaw z => Sys2Proof.Machine.execSviThaw z s
  | .wldHoldWrite agent index w value => Sys2Proof.Machine.execWldHoldWrite agent index w value s
  | .plannedRetirementStart u => Sys2Proof.Machine.execPlannedRetirementStart u s
  | .retirementComplete u => Sys2Proof.Machine.execRetirementComplete u s
  | .tamper => Sys2Proof.Machine.execTamper s
  | .watchdogKick agent => Sys2Proof.Machine.execWatchdogKick agent s
  | .watchdogWarning => Sys2Proof.Machine.execWatchdogWarning s
  | .watchdogExpiry => Sys2Proof.Machine.execWatchdogExpiry s
  | .pdbBegin z => Sys2Proof.Machine.execPdbBegin z s
  | .pdbData z => Sys2Proof.Machine.execPdbData z s
  | .pdbCommit z => Sys2Proof.Machine.execPdbCommit z s
  | .pdbStatus z => Sys2Proof.Machine.execPdbStatus z s
  | .fwLoad z => Sys2Proof.Machine.execFwLoad z s
  | .fwActivateSafelight z => Sys2Proof.Machine.execFwActivateSafelight z s
  | .fwActivateServiceFw z => Sys2Proof.Machine.execFwActivateServiceFw z s
  | .fwActivateMonitor z => Sys2Proof.Machine.execFwActivateMonitor z s
  | .fwActivateHostFw z => Sys2Proof.Machine.execFwActivateHostFw z s
  | .fwQuery z => Sys2Proof.Machine.execFwQuery z s
  | .bootWindowClose => Sys2Proof.Machine.execBootWindowClose s
  | .remapStoreTaken ok failing => Sys2Proof.Machine.execRemapStoreTaken ok failing s
  | .xrReadRegisters z => Sys2Proof.Machine.execXrReadRegisters z s
  | .xrReadLog z => Sys2Proof.Machine.execXrReadLog z s
  | .xrReadIdentity z => Sys2Proof.Machine.execXrReadIdentity z s
  | .xrQuote z => Sys2Proof.Machine.execXrQuote z s
  | .xrExtend z => Sys2Proof.Machine.execXrExtend z s
  | .scratchAccess a => Sys2Proof.Machine.execScratchAccess a s
  | .correctedWordWriteback off => Sys2Proof.Machine.execCorrectedWordWriteback off s
  | .ssmCtlLock agent => Sys2Proof.Machine.execSsmCtlLock agent s
  | .ssmBankpwrWrite agent r value => Sys2Proof.Machine.execSsmBankpwrWrite agent r value s
  | .bankRetentionEntry bank => Sys2Proof.Machine.execBankRetentionEntry bank s
  | .bankWake bank => Sys2Proof.Machine.execBankWake bank s
  | .scratchWipeComplete => Sys2Proof.Machine.execScratchWipeComplete s
  | .targetWrite agent die value => Sys2Proof.Machine.execTargetWrite agent die value s
  | .guardWrite agent die value => Sys2Proof.Machine.execGuardWrite agent die value s
  | .avsbusComplete rail => Sys2Proof.Machine.execAvsbusComplete rail s
  | .avsbusTimeout rail => Sys2Proof.Machine.execAvsbusTimeout rail s
  | .powerManagerSample mw1 mwTau => Sys2Proof.Machine.execPowerManagerSample mw1 mwTau s
  | .thermalSample die tenths => Sys2Proof.Machine.execThermalSample die tenths s
  | .thermtrip die => Sys2Proof.Machine.execThermtrip die s
  | .coreWake core => Sys2Proof.Machine.execCoreWake core s
  | .dieStateEntry die => Sys2Proof.Machine.execDieStateEntry die s
  | .dieWake die codes => Sys2Proof.Machine.execDieWake die codes s
  | .packageStateEntry => Sys2Proof.Machine.execPackageStateEntry s
  | .packageStateExit codes => Sys2Proof.Machine.execPackageStateExit codes s
  | .pwrQuery z => Sys2Proof.Machine.execPwrQuery z s
  | .pwrSetLimit z => Sys2Proof.Machine.execPwrSetLimit z s
  | .pwrSetMaxps z => Sys2Proof.Machine.execPwrSetMaxps z s
  | .pwrSetTarget z => Sys2Proof.Machine.execPwrSetTarget z s
  | .park z => Sys2Proof.Machine.execPark z s
  | .unpark z => Sys2Proof.Machine.execUnpark z s
  | .grcReadSensors z => Sys2Proof.Machine.execGrcReadSensors z s
  | .grcReadWearLog z => Sys2Proof.Machine.execGrcReadWearLog z s
  | .greyCardSample die index value => Sys2Proof.Machine.execGreyCardSample die index value s
  | .bracketingPass bootPass margins => Sys2Proof.Machine.execBracketingPass bootPass margins s
  | .rasRecords z => Sys2Proof.Machine.execRasRecords z s
  | .rasUnitState z => Sys2Proof.Machine.execRasUnitState z s
  | .rasRetire z => Sys2Proof.Machine.execRasRetire z s
  | .rasRetireDieReset z => Sys2Proof.Machine.execRasRetireDieReset z s
  | .rasClearRecords z => Sys2Proof.Machine.execRasClearRecords z s
  | .rasClearElement z => Sys2Proof.Machine.execRasClearElement z s
  | .dieSelfReset die => Sys2Proof.Machine.execDieSelfReset die s
  | .errNRelease => Sys2Proof.Machine.execErrNRelease s
  | .evtCntWrite agent off value => Sys2Proof.Machine.execEvtCntWrite agent off value s
  | .contactSheetSample => Sys2Proof.Machine.execContactSheetSample s
  | .sheetWritten => Sys2Proof.Machine.execSheetWritten s
  | .cshStart z => Sys2Proof.Machine.execCshStart z s
  | .cshStop z => Sys2Proof.Machine.execCshStop z s
  | .evtSnapshot z => Sys2Proof.Machine.execEvtSnapshot z s
  | .tstRun z => Sys2Proof.Machine.execTstRun z s
  | .testTimeout found => Sys2Proof.Machine.execTestTimeout found s
  | .testEnd found => Sys2Proof.Machine.execTestEnd found s
  | .tstResult z => Sys2Proof.Machine.execTstResult z s
  | .agtSet z => Sys2Proof.Machine.execAgtSet z s
  | .agtClear z => Sys2Proof.Machine.execAgtClear z s
  | .powerOn => Sys2Proof.Machine.execPowerOn s
  | .coldReset => Sys2Proof.Machine.execColdReset s
  | .coldResetEnd testen => Sys2Proof.Machine.execColdResetEnd testen s
  | .warmRstN => Sys2Proof.Machine.execWarmRstN s
  | .supplyFault => Sys2Proof.Machine.execSupplyFault s
  | .entdaa addr => Sys2Proof.Machine.execEntdaa addr s
  | .flitCrcFailure e flit => Sys2Proof.Machine.execFlitCrcFailure e flit s
  | .reservedTypeFlit e flit => Sys2Proof.Machine.execReservedTypeFlit e flit s
  | .clockHopComplete die => Sys2Proof.Machine.execClockHopComplete die s
  | .pcieCompletion port tag data status => Sys2Proof.Machine.execPcieCompletion port tag data status s
  | .tier1MemoryCompletion tag data poison => Sys2Proof.Machine.execTier1MemoryCompletion tag data poison s
  | .unitCopyComplete slot => Sys2Proof.Machine.execUnitCopyComplete slot s
  | .blobRekeyComplete slot => Sys2Proof.Machine.execBlobRekeyComplete slot s
  | .portLinkUp port width gen => Sys2Proof.Machine.execPortLinkUp port width gen s
  | .portLinkDown port => Sys2Proof.Machine.execPortLinkDown port s
  | .sceucXReplay group progress => Sys2Proof.Machine.execSceucXReplay group progress s
  | .dmaAtomicop d op size operand compare => Sys2Proof.Machine.execDmaAtomicop d op size operand compare s
  | .lendConfigAccess fn w => Sys2Proof.Machine.execLendConfigAccess fn w s
  | .tamperNRelease => Sys2Proof.Machine.execTamperNRelease s

end Sys2Proof.Machine
end

