-- ==== Sys2Proof/Machine/Tick.lean ====
section
/-! DEFINITION.
What the block does by itself when no command waits. -/

namespace Sys2Proof.Machine

/-- A tick (DESIGN CHOICE, log 1): TIME counts, the oldest store of every store buffer is performed
(R87), the service command interface writes the replies that wait (R396), the eviction notices that wait
go to their homes (R186), the inbound requests go on (R103), the link ends go on
with replays and send what waits (R217, R223), and the Lend functions serve their input buffers (R372).  While the package
stands still nothing happens. -/
def State.tick (s : State) : State :=
  if s.stopped then s
  else
    let s : State := { s with time := s.time + 1 }
    let busy := (s.cores.filter (fun p => !p.2.sb.isEmpty)).map (·.1)
    let s := s.each busy fun s n => (State.sbDrain 1 s n).2
    let s := s.each s.lkBusy State.lkTick
    s.inPump.zciFlush.drainWb.lendTick

end Sys2Proof.Machine
end

