-- ==== Sys2Proof/Safety.lean ====
section
/-! DEFINITION.
What a safe step is, and the terms the claims use: a command that completes, an instruction that is
executed, and what an instruction leaves alone. -/

namespace Sys2Proof.Machine

/-- A step is safe when it answers a next state. -/
def Safe (s : State) : Prop := ∃ t, step s = .next t

/-- A command completes: `exec` answers a next state, of which `P` holds. -/
def Completes (c : Instr) (s : State) (P : State → Prop) : Prop := ∃ t, exec c s = .next t ∧ P t

/-! ### Instructions of a core -/

/-- When an instruction is executed normally up to its operation (R55, R62, R70): its core runs and does
not wait, no array error meets it, its fetch succeeds, its encoding is valid, its guard holds, none of the checks
before the operands raises an exception, and a window prefix finds the parent frame resident. -/
def State.Executes (s : State) (x : Insn) (k : Chk) : Prop :=
  x.wf = true ∧ s.stopped = false ∧ s.coreReady x.core = true ∧ (s.core x.core).waiting = false ∧ (x.err = none ∧ x.fetch = .ok) ∧
  validInsn x k = true ∧ s.pr x.core x.pred ≠ x.neg ∧ s.insnTrap x k = none ∧ (x.win = 0 ∨ 3 ≤ s.resident x.core)

/-- Where execution continues after an instruction that does not jump; a PC has 57 bits (R43). -/
def State.nextPc (s : State) (x : Insn) : Word := pcOf ((s.core x.core).pc + BitVec.ofNat 64 x.len)

/-- A core whose instruction has ended: it continues at `pc`, and the instruction's accesses are over. -/
def Core.past (c : Core) (pc : Word) : Core := { c with pc := pc, dev := [], nearTry := none }

/-- An instruction has completed and changed nothing outside its core: the package is as before but for
the cores and the Package Control Space, where every other core and every register but the core's count of
completed instructions are as before, and the core continues at `pc`. -/
def State.CoreOnly (s t : State) (x : Insn) (pc : Word) : Prop :=
  t = { s with cores := t.cores, pcs := t.pcs } ∧ (∀ m, m ≠ x.core → t.core m = s.core m) ∧
  (∀ k, k ≠ kEvt (x.core / 18) (x.core % 18) 1 → t.rd k = s.rd k) ∧ (t.core x.core).pc = pc

/-- Of its core an instruction changed at most the general registers, the predicates and the pc. -/
def Core.RegsOnly (c d : Core) : Prop := d = ({ c with c := d.c, win := d.win, preds := d.preds }).past d.pc

/-- Every general register, in every window, is as before. -/
def State.SameRegs (s t : State) (n : Nat) : Prop := ∀ r w, t.regAt n r w = s.regAt n r w

/-- Every predicate is as before. -/
def State.SamePreds (s t : State) (n : Nat) : Prop := ∀ p, t.pr n p = s.pr n p

/-- The window that an instruction's destination register stands in (R72). -/
def State.dstWin (s : State) (x : Insn) : Nat := if x.win.getLsbD 0 then s.parentWin x.core else (s.core x.core).cwp

/-- Whether register `r'` seen from window `w'` is register `r` seen from window `w`: two numbers of the window ring
may name one register (R44, R45); c0 is none that a write reaches (R43). -/
def IsReg (n r w r' w' : Nat) : Prop := r ≠ 0 ∧ (if r' < 8 then r' = r else 8 ≤ r ∧ physReg n r' w' = physReg n r w)

/-- A register was written and every other register is as before; a write of c0 is discarded (R43). -/
def State.RegWritten (s t : State) (n r w : Nat) (v : Word) : Prop :=
  ∀ r' w', (IsReg n r w r' w' → t.regAt n r' w' = v) ∧ (¬ IsReg n r w r' w' → t.regAt n r' w' = s.regAt n r' w')

/-- An element stands at a place of a list, and at no later one. -/
def LastAt {α : Type} (l : List α) (i : Nat) (d : α) : Prop := l[i]? = some d ∧ ∀ j, i < j → l[j]? ≠ some d

/-! ### Exceptions -/

/-- An exception has been taken at a level (R59): its saved pc, saved status, cause, syndrome and address, the
new status, the vector, a new window, and nothing changed outside the core but its counters. -/
def State.TrapTaken (s t : State) (n : Nat) (e : Trap) (level : Nat) (epc : Word) (ilen : Nat) : Prop :=
  let c := s.core n
  let d := t.core n
  let b := excBase n level (s.trapDark n level)
  d.srv b = epc ∧ d.srv (b + 1) = c.srv 0x400 ∧ d.srv (b + 2) = BitVec.ofNat 64 (e.ecause ilen) ∧ d.srv (b + 3) = BitVec.ofNat 64 e.syn ∧
  d.srv (b + 4) = BitVec.ofNat 64 e.eva ∧
  d.srv 0x400 = BitVec.ofNat 64 ((if s.trapDark n level then 2 ^ 31 else 0) + level) ∧
  (∀ j, j < b ∨ b + 4 < j → j ≠ 0x400 → j ≠ 0xD00 → (e.ipa = none ∨ j ≠ 0x904) → d.srv j = c.srv j) ∧
  d.pc = pcOf (c.srv (b + 5) + trapOff (decide (e.cause = cIrq)) (decide (level = c.level))) ∧
  d.cwp = (c.cwp + 1) % frames n ∧ d.dev = [] ∧ d.nearTry = none ∧
  d = { c with sr := d.sr, win := d.win, cwp := d.cwp, owners := d.owners, pc := d.pc, dev := d.dev, nearTry := d.nearTry,
               pred := d.pred, sb := d.sb } ∧
  (level < 3 ∨ c.darkW = true → d.pred = c.pred ∧ d.sb = c.sb) ∧ t = { s with cores := t.cores, pcs := t.pcs } ∧
  (∀ m, m ≠ n → t.core m = s.core m) ∧
  ∀ k, k ≠ kEvt (n / 18) (n % 18) (if e.cause = cIrq then 6 else 5) → k ≠ kEvt 15 2 4 → t.rd k = s.rd k

/-! ### Translations of a core -/

/-- A core lost exactly the translations that `gone` names, but for locked translations and their copies
unless `all` is set, the walk-cache entries that `w1` and `w2` name, and nothing else (R76, R141, R142). -/
def Core.TlbsLess (c d : Core) (all : Bool) (gone : TlbEnt → Prop) (w1 w2 : WalkEnt → Prop) : Prop :=
  d = ({ c with tlbs := d.tlbs }).past d.pc ∧
  (∀ e, e ∈ d.tlbs.l2tlb ↔ e ∈ c.tlbs.l2tlb ∧ ¬ gone e) ∧
  (∀ e, e ∈ d.tlbs.locked ↔ e ∈ c.tlbs.locked ∧ ¬ (all = true ∧ gone e)) ∧
  (∀ e, e ∈ d.tlbs.itlb ↔ e ∈ c.tlbs.itlb ∧ (¬ gone e ∨ (all = false ∧ c.tlbs.isLocked e = true))) ∧
  (∀ e, e ∈ d.tlbs.dtlb ↔ e ∈ c.tlbs.dtlb ∧ (¬ gone e ∨ (all = false ∧ c.tlbs.isLocked e = true))) ∧
  (∀ w, w ∈ d.tlbs.walk1 ↔ w ∈ c.tlbs.walk1 ∧ ¬ w1 w) ∧ (∀ w, w ∈ d.tlbs.walk2 ↔ w ∈ c.tlbs.walk2 ∧ ¬ w2 w)

/-! ### Accesses of a core that find what they need on the core -/

/-- An access of the running code at a VA is translated by the core's locked set or its DTLB, which grants it: no table
is read (R129, R138, R139, R140). -/
def State.Translates (s : State) (n acc va : Nat) (x : Xlat) : Prop :=
  let c := s.core n
  ∃ r e, s.regimeOf n c.level c.darkW false va = some r ∧ (c.tlbs.locked ++ c.tlbs.dtlb).find? (fun t => t.tags r va) = some e ∧
    (let a := s.xacc n acc c.level c.darkW
     e.grants (if r.code = 1 then { a with level := 2 } else a) = true) ∧
    x = ⟨(e.pa + (va - e.base)) % 2 ^ 52, e.key, s.typeOf n r.code acc e, if e.s2 then e.lv2 else e.lv1,
      if e.s2 then some (e.ipa + (va - e.base)) else none⟩

/-- A line is memory that caches hold: tiered memory or a fabric window of this package. -/
def State.Cacheable (s : State) (line : Nat) : Prop := s.lineKind line = .tiered ∨ s.lineKind line = .fabric

/-- The ordering prefix of an instruction waits for nothing (R84, Table 3-2): an acquire finds no release store in the
store buffer, and one of fabric scope no fabric write of the core that is outstanding. -/
def State.Ordered (s : State) (x : Insn) : Prop :=
  (x.kind.getLsbD 0 = true → (s.core x.core).sb.any (·.rel) = false) ∧ (x.kind ≠ 0 → x.scope = 2 → s.fabWaits x.core = false)

/-- A core's L2 holds a line in state M or E, not poisoned and visible to the running code; `c` is its current content. -/
def State.Owns (s : State) (n line : Nat) (c : CLine) : Prop :=
  n < 216 ∧ (s.core n).caches.current line = some c ∧ seen c (s.core n).darkW = true ∧ (c.st = .m ∨ c.st = .e) ∧ c.poison = false

/-- The L2 way of a line was used (R161). -/
def State.l2Used (s : State) (n line : Nat) : State := match (s.core n).caches.l2Find line with
  | some (k, _) => s.setCaches n ((s.core n).caches.touchL2 k)
  | none => s

/-- A core has performed a near atomic on a line that it owns, with content `c` (R106, R111). -/
def State.nearDone (s : State) (n : Nat) (x : Xlat) (op : AmoOp) (size operand compare : Nat) (c : CLine) : State :=
  let new := lineSet c.data (x.hpa % 64) size (amoCompute op size (lineField c.data (x.hpa % 64) size) operand compare)
  ((((s.l2Used n (x.hpa / 64)).writeOwned n { c with data := new } new 0).evtC n 0 7).train n (x.hpa / 64)
    ((s.core n).nearShared (x.hpa / 64)))

/-- Nothing of a line is under way at its home, a local one, no directory entry lists the line, and no eviction notice
waits: a request for the line meets nothing that it must wait for. -/
def State.Quiet (s : State) (line : Nat) : Prop :=
  s.down = false ∧ s.Cacheable line ∧ (s.slice (lineSlice line)).trans = [] ∧ (s.slice (lineSlice line)).waiting = [] ∧
  (s.slice (lineSlice line)).parked = [] ∧ s.home.wbuf = [] ∧ s.home.evq = [] ∧ s.home.asked = [] ∧ s.home.replies = [] ∧
  s.dirFind line = none

/-- Nothing of the caches, the directory, the memories or the cores but the running one has changed. -/
def State.CachesAsBefore (s t : State) (n : Nat) : Prop :=
  (∀ m, m ≠ n → t.core m = s.core m) ∧ t.spCache = s.spCache ∧ t.home.dir = s.home.dir ∧ t.home.wbuf = s.home.wbuf ∧
  t.media = s.media ∧ t.ssm = s.ssm ∧ t.fio = s.fio ∧ ∀ g, t.l3Of g = s.l3Of g

/-! ### Requests whose answers have come -/

/-- The requests of one attempt have been answered and their answers are kept, in order; `u` is the state in which they
are taken (R86; log 22). -/
def State.Answered (s u : State) (l : List (ReqKind × HomeReq)) (as : List HomeAns) : Prop :=
  ∃ rest, s.home.wbuf = [] ∧ s.home.evq = [] ∧ as.length = l.length ∧ HomeAns.wait ∉ as ∧
    s.home.replies = (l.zip as).map (fun p => ⟨p.1.1, p.1.2, p.2⟩) ++ rest ∧ u = { s with home := { s.home with replies := rest } }

/-- The IOTU's caches hold the device context and the translation of an access of a kind by a source, which grants it and
lands it where it may (R147, R148, R150): it reaches HPA `h` with key ID `k`. -/
def State.IotuHit (s : State) (src rid addr acc : Nat) (msi : Bool) (h k : Nat) : Prop :=
  ∃ (c : DevCtx) (e : TlbEnt),
    let key := bitsOf c.w0 48 14
    let s1 := c.w0.getLsbD 1
    let s2 := c.w0.getLsbD 2
    let id := src * 65536 + rid
    let r : Regime :=
      { code := 4, s1 := if s1 then some (bitsOf c.w1 12 40 * 4096) else none, s2 := if s2 then some (bitsOf c.w2 12 40 * 4096) else none,
        k1 := key, k2 := key, dark := false, core := 219, iotu := some (if src = 8 then Who.zci else Who.dma src), spec := false,
        vmid := bitsOf c.w0 16 16, asid := some (bitsOf c.w0 32 16) }
    s.fon kIotuCtl fIotuCtl_EN = true ∧ (if src = 8 then s.rd kIotuSictbase else s.rd (kIotuDctbase src)).getLsbD 0 = true ∧
    s.iotu.ctxs.find? (fun c => c.src = id) = some c ∧
    s.iotu.tlb.find? (fun p => decide (p.1 = id) && p.2.tags r addr) = some (id, e) ∧
    e.grants { acc := acc, level := 0, sxg := false, sag := false, marks := !c.w0.getLsbD 3 } = true ∧
    h = (e.pa + (addr - e.base)) % 2 ^ 52 ∧ k = (if s1 || s2 then e.key else key) ∧
    (s.isTiered h = true ∨ ∃ m, s.mapOf h = some m ∧ (m.kind = 5 ∨ (msi = true ∧ m.kind = 3)))

/-- An inbound request that is the only one is given to its home (R103, R196, R197): `s` is the state in which it was
translated, `b` what remains of it while its home has not performed it. -/
def State.inboundOpen (s : State) (b : Inbound) (k : ReqKind) (r : HomeReq) (m : ReqMode) : State :=
  let u := s.homeOpen (Pend.fresh k r m)
  { u with fio := { u.fio with inq := if u.reqOpen k r then [{ b with sent := some (k, r) }] else [] } }

/-! ### Buffers of commands -/

/-- A range of HPAs has been read uncached: its bytes, and whether any line was poisoned (R196). -/
def State.RangeRead (s u : State) (w : Who) (addr len key : Nat) (dark : Bool) (b : List Byte) (p : Bool) : Prop :=
  ∃ l, let ps := linePieces (len / 64 + 2) addr len
    s.Answered u (ps.map fun q => (.rdc, uncReq w q.1 key dark)) l ∧ p = l.any (fun a => a.data.2) ∧
    b = ((l.map HomeAns.data).zip ps).flatMap (fun q => sliceB (lineBytes q.1.1) q.2.2.1 q.2.2.2)

/-- A range of HPAs has been written uncached (R196). -/
def State.RangeWritten (s u : State) (w : Who) (addr key : Nat) (dark : Bool) (bytes : List Byte) : Prop :=
  ∃ l, s.Answered u (putReqs w addr key dark bytes) l

/-- The pages of a buffer of service instance `n`, each translated by what the IOTU holds, have been read (Table 13-6). -/
def PagesRead (n : Nat) : List (Nat × Nat) → State → State → List Byte → Bool → Prop
  | [], s, u, b, p => u = s ∧ b = [] ∧ p = false
  | (a, len) :: l, s, u, b, p => ∃ v h k b1 p1 b2 p2, s.IotuHit 8 n a 0 false h k ∧
      (s.evt 15 0x48 0).RangeRead v Who.zci h len k false b1 p1 ∧ PagesRead n l v u b2 p2 ∧ b = b1 ++ b2 ∧ p = (p1 || p2)

/-- The pages of a buffer of service instance `n` have been written: each is translated, logged where the instance logs
(R419), and its bytes, of `bytes` from address `base`, are visible. -/
def PagesWritten (n base : Nat) (bytes : List Byte) : List (Nat × Nat) → State → State → Prop
  | [], s, u => u = s
  | (a, len) :: l, s, u => ∃ v h k, s.IotuHit 8 n a 1 false h k ∧
      ((s.evt 15 0x48 0).logPages n a len).RangeWritten v Who.zci h k false (sliceB bytes (a - base) len) ∧ PagesWritten n base bytes l v u

/-- A command's buffer has been read (R402, Table 13-6): a boot-mailbox attachment, the scratch aperture, tiered memory, or
the pages of a service instance. -/
def State.BufRead (s u : State) (z : ZCmd) (addr len : Nat) (b : List Byte) (p : Bool) : Prop :=
  let src := s.srcOf z.qp
  s.bufOk z addr len = true ∧
  if src = 0 then addr + len ≤ z.attach.length ∧ u = s ∧ b = sliceB z.attach addr len ∧ p = false
  else if src = 6 then PagesRead ((s.ownerOf z.qp).getD 0) (pagePieces (len / 4096 + 2) addr len) s u b p
  else if apertureBase ≤ addr then s.ssmLoad none (addr - apertureBase) len = (some (b, p), u)
  else s.RangeRead u Who.zci addr len (s.pairKey z.qp) (srcDark src) b p

/-- A command's buffer has been written (R402, Table 13-6). -/
def State.BufWritten (s u : State) (z : ZCmd) (addr : Nat) (bytes : List Byte) : Prop :=
  let src := s.srcOf z.qp
  let o := s.zci.mailOut ++ List.replicate (addr - s.zci.mailOut.length) 0
  s.bufOk z addr bytes.length = true ∧
  if src = 0 then u = { s with zci := { s.zci with mailOut := o.take addr ++ bytes ++ o.drop (addr + bytes.length) } }
  else if src = 6 then
    PagesWritten ((s.ownerOf z.qp).getD 0) addr bytes (pagePieces (bytes.length / 4096 + 2) addr bytes.length) s u
  else if apertureBase ≤ addr then s.ssmStore none (addr - apertureBase) bytes = (true, u)
  else s.RangeWritten u Who.zci addr (s.pairKey z.qp) (srcDark src) bytes

/-- The placement records of regions, in order, have been written to a command's buffer (R280). -/
def RegionsWritten (z : ZCmd) (f : Nat) : List Nat → State → State → Prop
  | [], s, u => u = s
  | i :: l, s, u => ∃ v, s.BufWritten v z (z.f 32 8 + 1024 * i) (s.regionRecords (f + 512 * i)) ∧ RegionsWritten z f l v u

/-- The context of a queue pair has been read, and `r` is the pair that it enables (R389, R390): none where the table does
not hold it, or where it fails a check. -/
def State.CtxRead (s u : State) (qp src : Nat) (r : Option QPair) : Prop :=
  (s.ctxHeld qp = false ∧ u = s ∧ r = none) ∨
  (s.ctxHeld qp = true ∧ ∃ d p c nf,
    s.Answered u [(.rdc, uncReq Who.zci (s.ctxAt qp / 64) (fZciQctbase_KEYID.get (s.rd kZciQctbase)) false)] [.reply d p c nf] ∧
    r = u.ctxOf d p src)

/-- The contexts of several queue pairs have been read, and `l` says what each enables. -/
def CtxsRead (src : Nat) : List Nat → State → State → List (Nat × Option QPair) → Prop
  | [], s, u, l => u = s ∧ l = []
  | q :: qs, s, u, l => ∃ v r m, s.CtxRead v q src r ∧ CtxsRead src qs v u m ∧ l = (q, r) :: m

/-- The 64 bytes of the next command of a ring have been read (R395). -/
def State.SlotRead (s u : State) (qp : Nat) (p : QPair) (b : List Byte) (x : Bool) : Prop :=
  let a := p.sq + 64 * p.head
  match s.ownerOf qp with
  | some n => ∃ h k, s.IotuHit 8 n a 0 false h k ∧ (s.evt 15 0x48 0).RangeRead u Who.zci h 64 k false b x
  | none => s.rangeTiered a 64 = true ∧ s.RangeRead u Who.zci a 64 p.key (srcDark (s.srcOf qp)) b x

/-- A command names the key pair `p`, whose halves differ (R294, R296, R594): 64 drawn bytes, or the wrapped block of its
buffer, opened with the transport key. -/
def State.KeyGiven (s u : State) (z : ZCmd) (p : KeyPair) : Prop :=
  p.k1 ≠ p.k2 ∧
  if isWrapped z then
    ∃ b r, s.BufRead u z (z.f 24 8) 177 b false ∧ sm2Decrypt s.dks.tpriv.toNat b = some r ∧
      leNat (sliceB r 0 1) = 1 ∧ p.alg = leNat (sliceB r 1 1) ∧ p.alg ≤ 1 ∧ leNat (sliceB r 2 2) = keyIdOf z ∧ leNat (sliceB r 4 12) = 0 ∧
      (p.alg = 1 → leNat (sliceB r 32 16) = 0 ∧ leNat (sliceB r 64 16) = 0) ∧
      p.k1 = keyHalf p.alg (sliceB r 16 32) ∧ p.k2 = keyHalf p.alg (sliceB r 48 32)
  else
    u = s.draw.2 ∧ p.alg = z.f 19 1 ∧ p.k1 = keyHalf p.alg ((leBytes 64 s.draw.1.toNat).take 32) ∧
      p.k2 = keyHalf p.alg ((leBytes 64 s.draw.1.toNat).drop 32)

/-- The dictionary of a Condenser command, if it names one, has been read. -/
def State.DictRead (s u : State) (z : ZCmd) (b : List Byte) : Prop :=
  if z.f 30 1 / 4 % 2 = 1 then s.BufRead u z (z.f 48 8) (z.f 44 4) b false else u = s ∧ b = []

/-- The body bytes of a chunk have been written to their placement (R461–R463): none while the header is short or names no
placement of the component. -/
def State.ChunkPlaced (s u : State) (c : Nat) (img : List Byte) (off : Nat) : Prop :=
  let lo := max 256 off
  let body := (img.take (256 + fieldB img 12 4)).drop lo
  let at' := fieldB img 16 8 + lo - 256
  if body = [] ∨ img.length < 256 ∨ s.placed c (fieldB img 16 8) (fieldB img 12 4) = false ∨ c = 0 then u = s
  else if c = 1 then s.ssmStore (some 0) (s.secureBytes + lo - 256) body = (true, u)
  else if c = 2 then s.loadMonkey.RangeWritten u whoSafelight at' s.plat.monKey true body
  else s.RangeWritten u whoSafelight at' 0 true body

/-! ### Commands of the ZCI -/

/-- The state in which a command's own effect begins (R395, R403): the replies that waited are written, the
command is outstanding, and a command of Safelight's path has been signalled to it. -/
def State.zstarted (s : State) (z : ZCmd) : State :=
  if zpath z 1 then (s.zciFlush.zadmit z).vec 216 1 else s.zciFlush.zadmit z

/-- The identification under which the command becomes outstanding. -/
def State.zid (s : State) : Nat := s.zciFlush.zci.nextId

/-- When a command is taken and passes the checks that come before its own: the package runs, its queue pair
is RUNNING, the boot mailbox is free and no warm reset runs on it, and checks 1 to 5 of R394 pass (R394, R395, R407,
R589). -/
def State.ZAdmits (s : State) (z : ZCmd) : Prop :=
  s.stopped = false ∧ s.zciFlush.pairRuns z.qp = true ∧
  (z.qp = 0 → s.zciFlush.boot.warm = false ∧ s.zciFlush.zci.outs.any (fun o => o.z.qp = 0) = false) ∧ s.zciFlush.zcheck z = none

/-- When a command begins as it is taken: nothing before it holds it or broke its chain (R398, R400). -/
def State.ZReady (s : State) (z : ZCmd) : Prop :=
  s.ZAdmits z ∧ (s.zciFlush.zadmit z).zheld (s.zciFlush.zout z) = false ∧
  (s.zciFlush.zadmit z).chainBroken (s.zciFlush.zout z) = false

/-- A state after the ACCEPTED reply of a command that may write two (R396). -/
def State.zaccepted (s : State) (z : ZCmd) (v : State) : State :=
  if (s.zciFlush.zout z).two && decide (z.qp ≠ 0) then v.queueRep z zAccepted 0 [] false else v

/-- A command has run to its end: `v` is the state that its effect left, and it ends with DONE, a DETAIL and
result bytes. -/
def State.zdone (s : State) (z : ZCmd) (v : State) (detail : Nat) (result : List Byte) : State :=
  ((s.zaccepted z v).endCmd (s.zciFlush.zout z) zDone detail result).zciFlush

/-- A command ends with one failing reply. -/
def State.zfail (s : State) (z : ZCmd) (v : State) (status detail : Nat) : State :=
  (v.endCmd (s.zciFlush.zout z) status detail []).zciFlush

/-- A command whose accesses wait is not taken: `v` is the state that its attempt left (R402). -/
def State.zwaits (s : State) (z : ZCmd) (v : State) : State := v.zuntake s.zid z.qp (s.zciFlush.zout z).prev

/-- A command runs on after it was accepted, and its final reply comes later. -/
def State.zruns (s : State) (z : ZCmd) (v : State) : State :=
  let u := s.zaccepted z v
  ({ u with zci := { u.zci with outs := u.zci.outs.map fun (x : ZOut) => if x.id = s.zid then { x with begun := true } else x } }).zciFlush

/-! ### Accesses to the Package Control Space -/

/-- The way to a register is open (R505, R571), and `u` is the state in which it is reached: a register of the IOD at once;
one of a compute die, which an access wakes from DS3, while the die is not parked, is in service and its link is ACTIVE. -/
def State.PathOpen (s u : State) (k : Nat) : Prop :=
  let d := pcsDie k
  if d ≥ 12 then u = s
  else
    u = (if s.dstate d = 2 ∧ s.parked d = false ∧ s.dieOut d = false then s.dieRouse d [(8, d)] else s) ∧
    u.parked d = false ∧ u.dieOut d = false ∧ (u.lk ⟨true, d⟩).dead = false ∧
    u.lkState ⟨true, d⟩ ≠ 0 ∧ u.lkState ⟨true, d⟩ ≠ 1 ∧ u.lkState ⟨true, d⟩ ≠ 3

/-- A write of 8 bytes at `k` reaches register `d` in state `u` and is admitted (R10, R441, R443, R561, R571);
`v` is the value. -/
def State.Reaches (s u : State) (agent : Agent) (k : Nat) (d : RegDef) (v : Word) : Prop :=
  agent ≠ .device ∧ k % 8 = 0 ∧ regDefAt k = some d ∧ s.pcsAdmits agent k = true ∧ s.PathOpen u k ∧
  u.pcsTested k = false ∧
  u.pcsHeld agent k d (pcsIgnores d (u.rd k) (d.written (u.pcsLocked k d) (u.rd k) v (BitVec.allOnes 64))) = false

/-- What register `d` at `k` holds after a write of `v` that reaches it. -/
def State.regAfter (s : State) (k : Nat) (d : RegDef) (v : Word) : Word :=
  pcsIgnores d (s.rd k) (d.written (s.pcsLocked k d) (s.rd k) v (BitVec.allOnes 64))

/-- The registers whose writes do more than store a value, and those that ignore some values. -/
def pcsSpecial : List String :=
  ["L1C_CTL", "IOTU_FSTAT", "SCL_CTL", "ENL_HEAT", "FWT_DATA1", "ZCI_CTL", "WLD_WDOG", "SSM_BANKPWR", "CLK_CDCTL", "PWR_DCTL",
   "PWR_IODV", "CDN_CTL", "L1C_LFSR", "L3C_LFSR", "DIR_LFSR", "L3C_LOCK", "WLD_PCSREF", "WLD_HOLDLOG"]

/-! ### The order of an instruction's checks -/

/-- The checks of a computational instruction: the opcodes of the Deckai Architecture Reference (R2, R74), and whether it
names a general or a vector register. -/
def compChk (x : Insn) (op : CompOp) (rd : CompDst) (ra vec : List Reg) : Chk :=
  { valid := if x.core < 216 then decide (op.code < 0x80) else decide (op.code < 0x20 ∨ (0x39 ≤ op.code ∧ op.code < 0x40)),
    gpr := !(ra.isEmpty && rd.gpr.isEmpty), vec := !(vec.isEmpty && rd.vec.isEmpty) }

/-- The instruction that a command has a core execute, with the checks of its encoding and level (R62, R70,
Tables 2-6 and 2-9). A speculative access is none: its work may be discarded (R114). -/
def insnOf (s : State) : Instr → Option (Insn × Chk)
  | .computationalInstruction x op rd ra _ vec => some (x, compChk x op rd ra vec)
  | .loadInsn x m => if m.spec then none else some (x, loadChk x m)
  | .storeInsn x m => if m.spec then none else some (x, storeChk x m)
  | .mfsr x _ sr => some (x, { sys := s.srTrap x.core sr.toNat false })
  | .mtsr x _ sr => some (x, { sys := s.srTrap x.core sr.toNat true })
  | .ipiSend x _ => some (x, { sys := s.srTrap x.core 0x430 true })
  | .atomctlClr x _ => some (x, { sys := s.srTrap x.core 0x441 true })
  | .extclaim x _ => some (x, { sys := s.srTrap x.core 0x434 false })
  | .rdtime x _ | .callr x _ | .wpmov x _ _ _ | .pmovr x _ | .pmovp x _ _ | .icinv x _ | .cmoClean x _ | .cmoCleaninv x _ | .cmoZero x _ =>
    some (x, {})
  | .cmorClean x ra rn _ | .cmorCleaninv x ra rn _ => some (x, { align := s.alignEarly x ra rn 64 })
  | .wflush x level _ => some (x, { gpr := false, sys := s.flushTrap x.core level.toNat })
  | .isync x | .scall x _ | .brk x _ | .call x _ | .ret x | .wkeep x | .plog x _ _ _ _ => some (x, { gpr := false })
  | .wfi x | .tlbsync x => some (x, { gpr := false, level := 1 })
  | .hcall x _ => some (x, { gpr := false, undef := decide ((s.core x.core).level = 0) || (s.core x.core).darkW || decide (x.core ≥ 216) })
  | .dcall x _ =>
    some (x, { gpr := false, undef := decide ((s.core x.core).level = 0) || decide (x.core ≥ 216) || !s.fon kWldCtl fWldCtl_MONEN })
  | .eret x =>
    let c := s.core x.core
    let tl := (c.srv (excBase x.core c.level c.darkW + 1)).toNat % 4
    some (x, { gpr := false, level := 1, undef := decide (1 ≤ c.level) &&
      (decide (tl > c.level) || (decide (c.level = 3 ∧ tl = 2) && (c.srv 0xD00).getLsbD 0) ||
        (decide (c.level = 3 ∧ tl < 3) && !(c.srv 0xD00).getLsbD 0 && s.sealedCore x.core)) })
  | .pcmp x pd pe _ _ cc | .pcmpi x pd pe _ _ cc =>
    some (x, { valid := decide (cc.toNat < 7) && !(decide (pd = pe) && decide (pd ≠ 0)) })
  | .fence x set scope => some (x, { gpr := false, valid := decide (set ≠ 0 ∧ scope ≠ 3) })
  | .amoSwap x _ ra _ hint sz | .amoAdd x _ ra _ hint sz | .amoAnd x _ ra _ hint sz | .amoOr x _ ra _ hint sz | .amoXor x _ ra _ hint sz
  | .amoMin x _ ra _ hint sz | .amoMax x _ ra _ hint sz | .amoUmin x _ ra _ hint sz | .amoUmax x _ ra _ hint sz =>
    some (x, { valid := decide (hint ≠ 3), ord := true, align := s.alignEarly x ra ra (if sz then 4 else 8) })
  | .cas x _ ra _ _ hint => some (x, { valid := decide (hint ≠ 3), ord := true, align := s.alignEarly x ra ra 8 })
  | .cas128 x rd ra re rn hint =>
    some (x, { valid := decide (hint ≠ 3) && decide (rd.toNat % 2 = 0) && decide (ra.toNat % 2 = 0) && decide (re.toNat % 2 = 0) &&
                 decide (rn.toNat % 2 = 0), ord := true, undef := decide (x.core ≥ 216) || !(s.rd kMgtEffcap).getLsbD 17,
               align := s.alignEarly x ra ra 16 })
  | .cmorInval x ra rn _ => some (x, { level := 1, align := s.alignEarly x ra rn 64 })
  | .tlbir x ra rn _ _ => some (x, { level := 1, align := s.alignEarly x ra rn 4096 })
  | .tlbirIpa x ra rn _ _ => some (x, { level := 2, undef := decide (x.core ≥ 216), align := s.alignEarly x ra rn 4096 })
  | .cmoInval x _ | .icinvAll x | .tlbiVaAsid x _ _ | .tlbiVaAllAsid x _ _ | .tlbiAsid x _ _
  | .tlbiStage1Vm x _ _ | .tlblock x _ _ | .tlbunlock x _ | .tlbunlockAll x => some (x, { level := 1 })
  | .tlbiIpa x _ _ | .tlbiVmid x _ _ | .tlbiAll x _ _ => some (x, { level := 2, undef := decide (x.core ≥ 216) })
  | _ => none

/-! ### Memory -/

/-- The addressed memories are in canonical form: lines of media, words of scratch memory and their poison marks
stand in rising order of their addresses, and nothing listed equals what an unlisted address holds. -/
def Memory.wf (s : State) : Bool :=
  s.media.wf (fun _ => MLine.reset) && s.ssm.words.wf (fun _ => 0) && s.ssm.poison.wf (fun _ => false)

/-! ### Requests at the home -/

/-- The request that a command brings to its home slice. -/
def homeReqOf : Instr → Option (ReqKind × HomeReq)
  | .rds r => some (.rds, r) | .rdo r => some (.rdo, r) | .upg r => some (.upg, r) | .rdc r => some (.rdc, r)
  | .wrf r => some (.wrf, { r with mask := BitVec.allOnes 64 }) | .wrp r => some (.wrp, r) | .atf r => some (.atf, r)
  | .cmc r => some (.cmc, r) | .cmi r => some (.cmi, r) | .cmci r => some (.cmci, r) | .cmz r => some (.cmz, r)
  | .evc r => some (.evc, r) | .evd r => some (.evd, r)
  | _ => none

/-- A request that arrives as a message is opened in state `u`: the domain is up, its home is this package, it is not a
refused Daylight request for Darkroom memory, nothing is under way or waits for its line, an entry is free, and it has a
directory entry where it needs one (R186, R191, R192, R426). -/
def State.Opens (s u : State) (k : ReqKind) (r : HomeReq) : Prop :=
  s.down = false ∧ s.Cacheable r.line ∧ (r.dark = true ∨ s.ownDark (r.line * 64) = false) ∧ r.spec = false ∧
  s.lineHeld r.line = false ∧ s.olderWaits r.line = false ∧ s.sliceFull r.line r.dark = false ∧
  (if k.allocates = true ∧ s.dirFind r.line = none then
     ∃ w, (s.dirWays r.dark).find? (fun w => (SMap.find s.home.dir (dirBase r.line + w)).isNone &&
         !(s.slice (lineSlice r.line)).victims.contains (dirBase r.line + w)) = some w ∧
       u = s.dirPlace r.line w false (s.isDark (r.line * 64))
   else u = s)

/-- What a finished transaction leaves: its answer is given to its requester, or it waits for its memory. -/
def State.given (p : HomeAns × State) (q : Pend) : State := match p.1 with
  | .wait => p.2
  | a => p.2.deliver q a

/-- A transaction that an eviction notice of an awaited agent has reached: the first data stands (R194). -/
def Trans.noticed (t : Trans) (d : Option Line) (r : HomeReq) : Trans :=
  { t with data := (match t.data, d with | none, some x => some (x, r.poison, r.key) | y, _ => y), evFrom := some r.agent }

/-! ### Links -/

/-- A sequenced flit is accepted at a link end, which leaves state `u`: flits flow, its CRC passes, its SEQ is the one
expected and no Agitation discards it (R216, R219, R565). -/
def State.Accepts (s u : State) (e : LinkEnd) (f : Flit) : Prop :=
  ∃ w, s.lkUp e = true ∧ crcOk f = true ∧ (hdr (headerOf f) 60 4 = 1 ∨ hdr (headerOf f) 60 4 = 3) ∧
    (s.lkHeader e (headerOf f)).agtNak e = (false, w) ∧
    hdr (headerOf f) 48 12 = ((s.lkHeader e (headerOf f)).lk e).expect ∧ u = w.takeFlit e f

/-! ### The Lend endpoint -/

/-- The CXL.mem request that a command brings: function, address, tag, kind, data, byte mask and poison. -/
def lendReqOf : Instr → Option (Nat × Nat × Nat × Nat × Line × BitVec 64 × Bool)
  | .memrd fn addr tag => some (fn, addr, tag, 0, 0, 0, false)
  | .memwr fn addr tag data poison => some (fn, addr, tag, 1, data, BitVec.allOnes 64, poison)
  | .memwrptl fn addr tag data mask => some (fn, addr, tag, 2, data, mask, false)
  | _ => none

/-! ### Rows of the ZCI -/

/-- The command that a row of the ZCI brings (Table 13-9). -/
def zciRowOf : Instr → Option ZCmd
  | .iotuInvDevice z | .iotuInvVa z | .iotuInvIpa z | .iotuInvVmid z | .iotuInvAll z | .tierQuery z | .tierReport z
  | .tierMove z | .tierPin z | .tierUnpin z | .tierDiscard z | .tierSetQuota z | .tierEvacuate z | .tierCancel z
  | .keyTransport z | .keyLoad z | .keyRotate z | .keyErase z | .keyQuery z | .cdnCompress z | .cdnDecompress z
  | .lendSetRange z | .lendQuery z | .lendFreeze z | .lendRelease z | .lendRomLoad z | .zciIdentify z | .zciNop z
  | .zciQueueSetEnable z | .zciQueueSetDisable z | .sviConfig z | .sviResetDrain z | .sviResetSquash z | .sviResetRelease z
  | .sviQuery z | .sviLogStart z | .sviLogRead z | .sviLogStop z | .sviFreeze z | .sviSave z | .sviRestore z | .sviThaw z
  | .pdbBegin z | .pdbData z | .pdbCommit z | .pdbStatus z | .fwLoad z | .fwActivateSafelight z | .fwActivateServiceFw z
  | .fwActivateMonitor z | .fwActivateHostFw z | .fwQuery z | .xrReadRegisters z | .xrReadLog z | .xrReadIdentity z
  | .xrQuote z | .xrExtend z | .rasRecords z | .rasUnitState z | .rasRetire z | .rasRetireDieReset z | .rasClearRecords z
  | .rasClearElement z | .cshStart z | .cshStop z | .evtSnapshot z | .tstRun z | .tstResult z | .agtSet z | .agtClear z
  | .pwrQuery z | .pwrSetLimit z | .pwrSetMaxps z | .pwrSetTarget z | .park z | .unpark z | .grcReadSensors z
  | .grcReadWearLog z => some z
  | _ => none

/-- What a command of class 0x10 over a range of frames must meet (R278). -/
def State.TierRange (s : State) (z : ZCmd) : Prop :=
  z.f 16 8 % 4096 = 0 ∧ 1 ≤ z.f 24 4 ∧ z.f 24 4 ≤ 262144 ∧ s.inTiered (z.f 16 8) (z.f 24 4 * 4096) = true ∧
  s.tierDark z (z.f 16 8) (z.f 24 4 * 4096) = false

/-- Where a command of the service firmware's path is performed: it was taken earlier and the firmware has accepted it, or
its row takes it now; `u` is the state it begins in and `e` is how it ends (R403, R405). -/
def State.ZFirm (s : State) (z : ZCmd) (u : State) (e : State → List Byte → State) : Prop :=
  (s.stopped = false ∧ ∃ o, s.zciFlush.zci.outs.find? (fun o => decide (o.z = z) && o.begun && !o.sfWait) = some o ∧
    u = s.zciFlush ∧ e = fun v r => (v.endCmd o zDone 0 r).zciFlush) ∨
  (s.ZReady z ∧ (∀ o, o ∈ s.zciFlush.zci.outs → o.z ≠ z) ∧ u = s.zstarted z ∧ e = fun v r => s.zdone z v 0 r)

/-! ### Runs -/

/-- Take `n` steps, or stop where one stops. -/
def runSteps : Nat → State → Host.Outcome State Fault Refusal
  | 0, s => .next s
  | n + 1, s => match step s with
    | .next t => runSteps n t
    | o => o

/-- The commands that a held package takes: supply and reset events (R581–R583). -/
def Supply : Instr → Bool
  | .powerOn | .coldReset | .supplyFault | .coldResetEnd _ => true
  | _ => false

end Sys2Proof.Machine
end

