-- ==== Sys2Proof/Certificates/Slice0/Obligations.lean ====
section
/-! DEFINITION.
The statements about the model.  Each says, in its docstring, what it states and which rules of the spec it
rests on; `Completes c s P` says that `exec c s` answers a next state of which `P` holds. -/

open Sys2Proof Sys2Proof.Machine


/-- A step is the command at the front of the queue (R43, R572, notes/assumptions/1). For every command c and state s, a
step of s with c at the front of its queue is exec of c on s with the queue's rest. On an empty queue the step is
the model's tick (log 1: the model's choice). -/
def Obligations.StepRunsCommand : Prop :=
  (∀ (s : State) (c : Instr) (r : List Instr), s.pending = c :: r → step s = exec c { s with pending := r }) ∧
  (∀ s : State, s.pending = [] → step s = .next { s.tick with pending := [] })

/-- A queue of well-formed commands runs to its end (spec/opcode_table.json, R3, notes/assumptions/2). From every state,
exec of a well-formed command answers a next state and leaves the queue alone, exec of an ill-formed one answers the
fault illFormed, and as many steps as the queue has commands empty a queue of well-formed commands. No step refuses,
no ordinary data stops a run, and no command puts another into the queue. (That ill-formed commands fault is the
model's choice.) -/
def Obligations.WellFormedQueueRunsToItsEnd : Prop :=
  (∀ (c : Instr) (s : State), c.wf = true → ∃ t, exec c s = .next t ∧ t.pending = s.pending) ∧
  (∀ (c : Instr) (s : State), c.wf = false → exec c s = .fault .illFormed) ∧
  (∀ (s : State), (∀ c, c ∈ s.pending → c.wf = true) → ∃ t, runSteps s.pending.length s = .next t ∧ t.pending = [])

/-- A held package stands still (R582, R587, R583). While cold reset or a thermal trip holds the package, every well-
formed command but the four supply and reset rows (POWER_ON, COLD_RESET, SUPPLY_FAULT, COLD_RESET_END) leaves the
whole state as it is, and a step on an empty queue does nothing. -/
def Obligations.HeldPackageStandsStill : Prop :=
  ∀ (s : State), s.stopped = true →
    (∀ c, c.wf = true → Supply c = false → Completes c s fun t => t = s) ∧
    (s.pending = [] → step s = .next s)

/-- What reset leaves (R582, R495, R58, R250, R289, R473, R491, R525, R540, R487, R492). State.reset: TIME is 0, boot
stage 0, the scratch wipe runs, no core is released; every compute core is as it is released (level H, Daylight,
window 0, frames 0 and 1 owned by H, IE and VEN 0, both TIMECMP registers all ones); every frame is a zero frame,
every key context EMPTY, every exposure register zero; the reset values of RAS_CTL, SSM_ARB and SSM_PWRCTL; the
addressed memories are in canonical form. (The values chosen where the spec gives none are not part of it.) -/
def Obligations.ResetState : Prop :=
  State.reset.time = 0 ∧ State.reset.pending = [] ∧ State.reset.stage = 0 ∧ State.reset.ssm.wiping = true ∧ State.reset.stopped = false ∧
  -- every core as it is released (R58)
  (∀ n, n < 220 → (State.reset.core n).released = false ∧ (State.reset.core n).cwp = 0 ∧ (State.reset.core n).sb = []) ∧
  (∀ n, n < 216 → let c := State.reset.core n
    c.level = 2 ∧ c.darkW = false ∧ (c.srv 0x400).getLsbD 8 = false ∧ (c.srv 0x400).getLsbD 9 = false ∧
    c.srv 0x432 = BitVec.allOnes 64 ∧ c.srv 0xC32 = BitVec.allOnes 64 ∧ (∀ f, f < 2 → c.owner f = ownerCode 2 false) ∧
    State.reset.resident n = 2) ∧
  -- tiered memory is zero frames, no key is loaded, the exposure registers are zero (R250, R289, R473)
  (∀ f, (State.reset.ent f).tier = 3) ∧ (∀ k, (State.reset.ctx k).st = 0) ∧
  (∀ i, i < 32 → State.reset.xr i = List.replicate 32 0) ∧
  -- registers of the error, coherence, scratch and key blocks (spec/06, 16, 18)
  State.reset.fget kRasCtl fRasCtl_THRESH = 3 ∧ State.reset.fget kRasCtl fRasCtl_WINDOW = 24 ∧
  State.reset.fget kRasCtl fRasCtl_MERGEMS = 1000 ∧ State.reset.fget kSsmArb fSsmArb_DMAMAX = 64 ∧
  State.reset.fget kSsmPwrctl fSsmPwrctl_AUTO = 1 ∧ Memory.wf State.reset = true

/-- Fetch, encoding, guard and level are checked before an instruction acts (R55, R56, R60, R62, R70, R71, R74, R78,
R90, R126). For every instruction of a core that runs and does not wait: a fetch that faults is FETCH_FAULT, one of poisoned
bytes POISON; then, in the state u that the fetch leaves, an encoding that is not valid is UNDEFINED_INSTRUCTION; then a
false guard only advances the PC (the core's counter of completed instructions counts it); then the checks of level, state
register, vector enable and alignment (UNDEFINED_INSTRUCTION, PRIVILEGED, VECTOR_DISABLED, MISALIGNED) take their
exception. A speculative load or store is no execution and is not covered here. -/
def Obligations.InstructionChecksComeFirst : Prop :=
  ∀ (s : State) (c : Instr) (x : Insn) (k : Chk), insnOf s c = some (x, k) → c.wf = true → s.stopped = false →
    s.coreReady x.core = true → (s.core x.core).waiting = false → x.err = none →
    -- the fetch comes first
    (∀ y a i, x.fetch = .fault y a i → Completes c s fun t =>
      t = { s.takeTrap x.core { cause := cFetch, syn := y.toNat, eva := a.toNat, ipa := if y.getLsbD 7 then some i.toNat else none }
        (s.core x.core).pc x.len with pending := s.pending }) ∧
    (x.fetch = .poison → Completes c s fun t =>
      t = { s.takeTrap x.core { cause := cPoison, eva := (s.core x.core).pc.toNat } (s.core x.core).pc x.len with pending := s.pending }) ∧
    (∀ u e, s.fetch x = (.trap e, u) → e.cause = cFetch ∨ e.cause = cPoison → Completes c s fun t =>
      t = { u.takeTrap x.core e (s.core x.core).pc x.len with pending := s.pending }) ∧
    (∀ u, s.fetch x = (.ok (), u) →
      -- then the encoding
      (validInsn x k = false → Completes c s fun t =>
        t = { u.takeTrap x.core undefTrap (s.core x.core).pc x.len with pending := s.pending }) ∧
      -- then the guard: where it is false, only the PC advances, and the core counts the instruction
      (validInsn x k = true → u.pr x.core x.pred = x.neg → Completes c s fun t =>
        t = { u.finishInsn x (s.core x.core).pc none with pending := s.pending }) ∧
      -- then the level, the state register, the vector enable and the alignment
      (validInsn x k = true → u.pr x.core x.pred ≠ x.neg → ∀ e, u.insnTrap x k = some e → Completes c s fun t =>
        t = { u.takeTrap x.core e (s.core x.core).pc x.len with pending := s.pending })) ∧
    (x.fetch = .ok → validInsn x k = true → s.pr x.core x.pred = x.neg → Completes c s fun t =>
      s.CoreOnly t x (s.nextPc x) ∧ t.core x.core = (s.core x.core).past (s.nextPc x))

/-- Computational, RDTIME and predicate instructions: result, frame, completion (R2, R43, R44, R45, R57, R69, R71, R72,
R73, R75, R126, Table 2-9). COMPUTATIONAL_INSTRUCTION writes its destinations, general and vector registers and predicates,
and only them, with the Deckai results of its operands (uninterpreted functions of the opcode, its fields, its immediate and
its sources: log 3; of two destinations of one name the later one stands); RDTIME writes TIME; PMOVR the predicates; ISYNC
has the fetch guards take effect. PCMP and PCMPI write a result and its complement, PLOG a combination of two predicates,
PMOVP the predicates that its mask names; p0 never changes. Nothing else of the core changes but the PC, and nothing outside
the core but its instruction counter. -/
def Obligations.RegisterAndPredicateInstructionsComplete : Prop :=
  ((∀ (s : State) (x : Insn) (op : CompOp) (rd : CompDst) (ra : List Reg) (rb : List PReg) (vec : List Reg),
      s.Executes x (compChk x op rd ra vec) → Completes (.computationalInstruction x op rd ra rb vec) s fun t =>
        let n := x.core
        let g := ra.map (s.src x)
        let v := vec.map (s.vreg n)
        let p := rb.map (s.pr n)
        s.CoreOnly t x (s.nextPc x) ∧
        t.core n = ({ s.core n with c := (t.core n).c, win := (t.core n).win, v := (t.core n).v, preds := (t.core n).preds }).past (s.nextPc x) ∧
        (∀ (i : Nat) (d : Reg), LastAt rd.gpr i d → ∀ r w, IsReg n d.toNat (s.dstWin x) r w →
          t.regAt n r w = Config.deckai op.code op.ops op.imm g v p i) ∧
        (∀ r w, (∀ d, d ∈ rd.gpr → ¬ IsReg n d.toNat (s.dstWin x) r w) → t.regAt n r w = s.regAt n r w) ∧
        (∀ (i : Nat) (d : Reg), LastAt rd.vec i d → t.vreg n d = Config.deckaiVec op.code op.ops op.imm g v p i) ∧
        (∀ d, d ∉ rd.vec → t.vreg n d = s.vreg n d) ∧
        (∀ (i : Nat) (d : PReg), LastAt rd.pred i d → d ≠ 0 → t.pr n d = Config.deckaiPred op.code op.ops op.imm g v p i) ∧
        (∀ d, d ∉ rd.pred ∨ d = 0 → t.pr n d = s.pr n d)) ∧
    (∀ (s : State) (x : Insn) (rd : Reg), s.Executes x {} →
      Completes (.rdtime x rd) s fun t =>
        s.CoreOnly t x (s.nextPc x) ∧ (s.core x.core).RegsOnly (t.core x.core) ∧ s.SamePreds t x.core ∧
        s.RegWritten t x.core rd.toNat (s.dstWin x) (BitVec.ofNat 64 s.time)) ∧
    (∀ (s : State) (x : Insn) (rd : Reg), s.Executes x {} →
      Completes (.pmovr x rd) s fun t =>
        s.CoreOnly t x (s.nextPc x) ∧ (s.core x.core).RegsOnly (t.core x.core) ∧ s.SamePreds t x.core ∧
        ∃ v : Word, s.RegWritten t x.core rd.toNat (s.dstWin x) v ∧
          (∀ p : PReg, v.getLsbD p.toNat = s.pr x.core p) ∧ v.toNat < 2 ^ 16) ∧
    (∀ (s : State) (x : Insn), s.Executes x { gpr := false } →
      Completes (.isync x) s fun t =>
        let c := s.core x.core
        s.CoreOnly t x (s.nextPc x) ∧
        t.core x.core = ({ c with sxgS := (c.srv 0x503).getLsbD 0, sxgD := (c.srv 0xD53).getLsbD 0 }).past (s.nextPc x))) ∧
  ((∀ (s : State) (x : Insn) (pd pe : PReg) (ra rb : Reg) (cc : BitVec 4),
      s.Executes x { valid := decide (cc.toNat < 7) && !(decide (pd = pe) && decide (pd ≠ 0)) } →
      Completes (.pcmp x pd pe ra rb cc) s fun t =>
        s.CoreOnly t x (s.nextPc x) ∧ (s.core x.core).RegsOnly (t.core x.core) ∧ s.SameRegs t x.core ∧
        ∀ q, t.pr x.core q = if q ≠ 0 ∧ q = pd then condCode cc.toNat (s.src x ra) (s.src x rb)
          else if q ≠ 0 ∧ q = pe then !condCode cc.toNat (s.src x ra) (s.src x rb) else s.pr x.core q) ∧
    (∀ (s : State) (x : Insn) (pd pe : PReg) (ra : Reg) (imm : Word) (cc : BitVec 4),
      s.Executes x { valid := decide (cc.toNat < 7) && !(decide (pd = pe) && decide (pd ≠ 0)) } →
      Completes (.pcmpi x pd pe ra imm cc) s fun t =>
        s.CoreOnly t x (s.nextPc x) ∧ (s.core x.core).RegsOnly (t.core x.core) ∧ s.SameRegs t x.core ∧
        ∀ q, t.pr x.core q = if q ≠ 0 ∧ q = pd then condCode cc.toNat (s.src x ra) imm
          else if q ≠ 0 ∧ q = pe then !condCode cc.toNat (s.src x ra) imm else s.pr x.core q) ∧
    (∀ (s : State) (x : Insn) (pd pa pb : PReg) (op : BitVec 2), s.Executes x { gpr := false } →
      Completes (.plog x pd pa pb op) s fun t =>
        s.CoreOnly t x (s.nextPc x) ∧ (s.core x.core).RegsOnly (t.core x.core) ∧ s.SameRegs t x.core ∧
        ∀ q, t.pr x.core q = if q ≠ 0 ∧ q = pd then
            (if op = 0 then s.pr x.core pa && s.pr x.core pb else if op = 1 then s.pr x.core pa || s.pr x.core pb
              else if op = 2 then Bool.xor (s.pr x.core pa) (s.pr x.core pb) else s.pr x.core pa && !s.pr x.core pb)
          else s.pr x.core q) ∧
    (∀ (s : State) (x : Insn) (rs : Reg) (mask : BitVec 16), s.Executes x {} →
      Completes (.pmovp x rs mask) s fun t =>
        s.CoreOnly t x (s.nextPc x) ∧ (s.core x.core).RegsOnly (t.core x.core) ∧ s.SameRegs t x.core ∧
        ∀ q : PReg, t.pr x.core q = if q ≠ 0 ∧ mask.getLsbD q.toNat then (s.src x rs).getLsbD q.toNat else s.pr x.core q))

/-- MFSR, MTSR, EXTCLAIM, IPI_SEND and IPI_ARRIVAL (R66, R67, R68, R113, R357, R431, R548, Table 2-5). MFSR writes the
register that the number reaches, TIME, the core number, WSTATE, an event counter and the Darkroom range included (a service
core has no system core number: a free value, log 38). MTSR writes the fields that the register has (write-1-to-clear for
IPIPEND; of CSTAT only IE and VEN; nothing of a register that is read only) and no other register; a write of ATOMCTL.CLR
empties the predictor. EXTCLAIM returns the lowest pending vector and clears it, or 0. IPI_SEND, to one core of this package,
to one of another, to a core that is not there or to every core, sets the TAG bit in the target's IPIPEND and notes in
NOTARGET whether it has none; IPI_ARRIVAL sets one bit. -/
def Obligations.StateRegisterInstructionsComplete : Prop :=
  (∀ (s : State) (x : Insn) (rd : Reg) (sr : BitVec 12), s.Executes x { sys := s.srTrap x.core sr.toNat false } →
    s.srReach x.core sr.toNat ≠ 0x434 → (x.core < 216 ∨ s.srReach x.core sr.toNat ≠ 2) →
    Completes (.mfsr x rd sr) s fun t =>
      s.CoreOnly t x (s.nextPc x) ∧ (s.core x.core).RegsOnly (t.core x.core) ∧ s.SamePreds t x.core ∧
      s.RegWritten t x.core rd.toNat (s.dstWin x)
        (let k := s.srReach x.core sr.toNat
         if k = 0x001 then BitVec.ofNat 64 s.time else if k = 0x002 then BitVec.ofNat 64 (s.sysCore x.core)
         else if k = 0x011 then s.wstate x.core
         else if 0x040 ≤ k ∧ k < 0x060 then s.rd (evtrdKey x.core (k - 0x040))
         else if k = 0xD01 then s.rd (kWldDrrange s.sock) else (s.core x.core).srv k)) ∧
  (∀ (s : State) (x : Insn) (rd : Reg), s.Executes x { sys := s.srTrap x.core 2 false } → 216 ≤ x.core →
    Completes (.mfsr x rd 2) s fun t =>
      t = { s with cores := t.cores, pcs := t.pcs, free := s.free + 1 } ∧ (t.core x.core).pc = s.nextPc x ∧
      s.RegWritten t x.core rd.toNat (s.dstWin x) (Config.freeValue s.free)) ∧
  (∀ (s : State) (x : Insn) (rs : Reg) (sr : BitVec 12), s.Executes x { sys := s.srTrap x.core sr.toNat true } →
    [0x001, 0x002, 0x011, 0x434, 0xD01, 0x430].contains (s.srReach x.core sr.toNat) = false →
    Completes (.mtsr x rs sr) s fun t =>
      s.CoreOnly t x (s.nextPc x) ∧ s.SameRegs t x.core ∧ s.SamePreds t x.core ∧
      (let k := s.srReach x.core sr.toNat
       let v := s.src x rs
       let w := (s.core x.core).srv k
       (t.core x.core).srv k = (if k = 0x431 then w &&& ~~~ v
         else if k = 0x400 then (w &&& ~~~ 0x300#64) ||| (v &&& 0x300#64) else v &&& srMask k) ∧
       (∀ j, j ≠ k → (t.core x.core).srv j = (s.core x.core).srv j) ∧
       ((k ≠ 0x441 ∨ v.getLsbD 8 = false) →
         t.core x.core = ({ s.core x.core with sr := (t.core x.core).sr }).past (s.nextPc x)))) ∧
  (∀ (s : State) (x : Insn) (rs : Reg) (sr : BitVec 12), s.Executes x { sys := s.srTrap x.core sr.toNat true } →
    [0x001, 0x002, 0x011, 0x434, 0xD01].contains (s.srReach x.core sr.toNat) = true →
    Completes (.mtsr x rs sr) s fun t =>
      s.CoreOnly t x (s.nextPc x) ∧ t.core x.core = (s.core x.core).past (s.nextPc x)) ∧
  (∀ (s : State) (x : Insn) (rs : Reg), s.Executes x { sys := s.srTrap x.core 0x441 true } →
    s.srReach x.core 0x441 = 0x441 → (s.src x rs).getLsbD 8 = true →
    Completes (.atomctlClr x rs) s fun t =>
      s.CoreOnly t x (s.nextPc x) ∧ s.SameRegs t x.core ∧ s.SamePreds t x.core ∧
      (t.core x.core).pred = [] ∧ (t.core x.core).srv 0x441 = s.src x rs &&& 3#64 ∧
      (∀ j, j ≠ 0x441 → (t.core x.core).srv j = (s.core x.core).srv j) ∧
      t.core x.core = ({ s.core x.core with
        sr := (t.core x.core).sr, pred := [],
        sb := (s.core x.core).sb.map fun (e : SbEnt) => { e with trains := false } }).past (s.nextPc x)) ∧
  (∀ (s : State) (x : Insn) (rd : Reg) (v : Nat), s.Executes x { sys := s.srTrap x.core 0x434 false } →
    s.srReach x.core 0x434 = 0x434 → v < 256 → (s.core x.core).ext.getLsbD v = true →
    (∀ w, w < v → (s.core x.core).ext.getLsbD w = false) →
    Completes (.extclaim x rd) s fun t =>
      s.CoreOnly t x (s.nextPc x) ∧ s.SamePreds t x.core ∧
      s.RegWritten t x.core rd.toNat (s.dstWin x) (BitVec.ofNat 64 v) ∧
      (∀ w, (t.core x.core).ext.getLsbD w = (decide (w ≠ v) && (s.core x.core).ext.getLsbD w)) ∧
      t.core x.core = ({ s.core x.core with c := (t.core x.core).c, win := (t.core x.core).win, ext := (t.core x.core).ext }).past (s.nextPc x)) ∧
  (∀ (s : State) (x : Insn) (rd : Reg), s.Executes x { sys := s.srTrap x.core 0x434 false } →
    s.srReach x.core 0x434 = 0x434 → (s.core x.core).ext = 0 →
    Completes (.extclaim x rd) s fun t =>
      s.CoreOnly t x (s.nextPc x) ∧ (s.core x.core).RegsOnly (t.core x.core) ∧ s.SamePreds t x.core ∧
      s.RegWritten t x.core rd.toNat (s.dstWin x) 0) ∧
  -- IPI_SEND, once the stores before it are performed
  (∀ (s : State) (x : Insn) (rs : Reg), s.Executes x { sys := s.srTrap x.core 0x430 true } →
    s.srReach x.core 0x430 = 0x430 → (s.core x.core).sb = [] →
    let v := s.src x rs
    let tag : Word := BitVec.ofNat 64 (2 ^ bitsOf v 16 6)
    let m := bitsOf v 0 10 % 216
    let others := (s.plat.memmap.filter (fun k => k.kind = 7)).map (·.socket)
    let there (j : Nat) : Prop := s.coreOut j = false ∧ s.fon (kCoreId j) fCoreId_RETIRED = false
    (v.getLsbD 10 = false → bitsOf v 0 10 / 216 = s.sock → there m → m ≠ x.core →
      Completes (.ipiSend x rs) s fun t =>
        t = { s with cores := t.cores, pcs := t.pcs } ∧ (∀ j, j ≠ x.core → j ≠ m → t.core j = s.core j) ∧
        t.core m = (s.core m).setSr 0x431 ((s.core m).srv 0x431 ||| tag) ∧
        t.core x.core = ((s.core x.core).setSr 0x430 0).past (s.nextPc x)) ∧
    (v.getLsbD 10 = false → bitsOf v 0 10 / 216 = s.sock → there m → m = x.core →
      Completes (.ipiSend x rs) s fun t =>
        s.CoreOnly t x (s.nextPc x) ∧ (t.core m).srv 0x431 = (s.core m).srv 0x431 ||| tag ∧ (t.core m).srv 0x430 = 0) ∧
    (v.getLsbD 10 = false → bitsOf v 0 10 / 216 = s.sock → ¬ there m →
      Completes (.ipiSend x rs) s fun t =>
        s.CoreOnly t x (s.nextPc x) ∧ t.core x.core = ((s.core x.core).setSr 0x430 (BitVec.ofNat 64 (2 ^ 63))).past (s.nextPc x)) ∧
    (v.getLsbD 10 = false → bitsOf v 0 10 / 216 ≠ s.sock → others.contains (bitsOf v 0 10 / 216) = true →
      Completes (.ipiSend x rs) s fun t =>
        t = { s with cores := t.cores, pcs := t.pcs, out := t.out } ∧ t.out = s.out ++ [.ipi (bitsOf v 0 10) (bitsOf v 16 6)] ∧
        (∀ j, j ≠ x.core → t.core j = s.core j) ∧ t.core x.core = ((s.core x.core).setSr 0x430 0).past (s.nextPc x)) ∧
    (v.getLsbD 10 = false → bitsOf v 0 10 / 216 ≠ s.sock → others.contains (bitsOf v 0 10 / 216) = false →
      Completes (.ipiSend x rs) s fun t =>
        s.CoreOnly t x (s.nextPc x) ∧ t.core x.core = ((s.core x.core).setSr 0x430 (BitVec.ofNat 64 (2 ^ 63))).past (s.nextPc x)) ∧
    (v.getLsbD 10 = true → Completes (.ipiSend x rs) s fun t =>
      t = { s with cores := t.cores, pcs := t.pcs, out := t.out } ∧
      t.out = s.out ++ others.map (fun j => .ipi (1024 + j) (bitsOf v 16 6)) ∧
      (∀ j, j < 216 → j ≠ x.core → there j → (t.core j).srv 0x431 = (s.core j).srv 0x431 ||| tag) ∧
      (∀ j, j ≠ x.core → (216 ≤ j ∨ ¬ there j) → t.core j = s.core j) ∧
      t.core x.core = ((s.core x.core).setSr 0x430 0).past (s.nextPc x))) ∧
  (∀ (s : State) (n : Nat) (tag : BitVec 6), wfCore n = true → s.stopped = false → (s.core n).released = true →
    (n < 216 → s.coreOut n = false) →
    Completes (.ipiArrival n tag) s fun t =>
      t = { s with cores := t.cores } ∧ (∀ m, m ≠ n → t.core m = s.core m) ∧
      t.core n = { s.core n with sr := (t.core n).sr } ∧
      (∀ i, i < 64 → ((t.core n).srv 0x431).getLsbD i = (decide (i = tag.toNat) || ((s.core n).srv 0x431).getLsbD i)) ∧
      ∀ j, j ≠ 0x431 → (t.core n).srv j = (s.core n).srv j)

/-- SCALL, HCALL, DCALL, BRK and INTERRUPT take their exception (R59, R60, R61, R63, R64, R430, R435, Table 2-6). Each takes
its exception: EPC, ESTAT, ECAUSE, ESYN and EVA of the target level are written (EVA 0: log 61), CSTAT is the new level and
world with IE clear, the PC is the vector, a new window is entered, no other state register but WCTL.DLRET changes, and
nothing outside the core but the counters. SCALL and BRK go to level S from U and S (from S and U of the Darkroom world, to
its S), HCALL to H, DCALL to M in the Darkroom world. INTERRUPT takes the lowest pending source and code at the level that
R64 gives, between instructions. -/
def Obligations.TrapInstructionsComplete : Prop :=
  (∀ (s : State) (x : Insn) (imm : BitVec 16), s.Executes x { gpr := false } → s.freeFrames x.core ≠ 0 →
    Completes (.scall x imm) s fun t => ∃ l, (l = if max (s.core x.core).level 1 = 2 ∧ (s.core x.core).darkW then 3 else max (s.core x.core).level 1) ∧
      s.TrapTaken t x.core { cause := 0x10, syn := imm.toNat } l (s.nextPc x) x.len) ∧
  (∀ (s : State) (x : Insn) (imm : BitVec 16),
    s.Executes x { gpr := false, undef := decide ((s.core x.core).level = 0) || (s.core x.core).darkW || decide (x.core ≥ 216) } →
    s.freeFrames x.core ≠ 0 →
    Completes (.hcall x imm) s fun t =>
      s.TrapTaken t x.core { cause := 0x11, syn := imm.toNat, target := some 2 } 2 (s.nextPc x) x.len) ∧
  (∀ (s : State) (x : Insn) (imm : BitVec 16),
    s.Executes x { gpr := false, undef := decide ((s.core x.core).level = 0) || decide (x.core ≥ 216) || !s.fon kWldCtl fWldCtl_MONEN } →
    s.freeFrames x.core ≠ 0 →
    Completes (.dcall x imm) s fun t =>
      s.TrapTaken t x.core { cause := 0x12, syn := imm.toNat, target := some 3 } 3 (s.nextPc x) x.len ∧
      (t.core x.core).darkW = true ∧ (t.core x.core).level = 3) ∧
  (∀ (s : State) (x : Insn) (imm : BitVec 16), s.Executes x { gpr := false } → s.freeFrames x.core ≠ 0 →
    Completes (.brk x imm) s fun t => ∃ l, (l = if max (s.core x.core).level 1 = 2 ∧ (s.core x.core).darkW then 3 else max (s.core x.core).level 1) ∧
      s.TrapTaken t x.core { cause := 0x14, syn := imm.toNat } l (s.core x.core).pc x.len) ∧
  (∀ (s : State) (n code d l : Nat) (rest : List (Nat × Nat)), wfCore n = true → s.stopped = false →
    s.coreReady n = true → (s.core n).waiting = false → s.midInsn n = false → s.freeFrames n ≠ 0 →
    s.irqs n = (code, d) :: rest → s.irqLevel n = some l →
    Completes (.interrupt n) s fun t =>
      s.TrapTaken t n { cause := 0x18, syn := code - 1, target := some l }
        (if l = 2 ∧ (s.core n).darkW then 3 else l) (s.core n).pc 0)

/-- ERET, WFI and TIMER_INTERRUPT (R65, R433, R436, R504, Table 2-11, R64). ERET returns to the level and address saved,
restores IE and VEN and moves one window down; out of level M to a Daylight level it is a world exit: vector
registers, predicates and c5 to c7 are zeroed, the current frame and its t-frame are zeroed, Darkroom left. WFI, with no
store waiting, ends at once where an interrupt is pending, waits with clocks running in the Darkroom world and on a service
core, and otherwise puts the core into C1, C2 or C3 as WFIC says (C3 is stated where the caches hold nothing to send away).
TIMER_INTERRUPT ends a wait. -/
def Obligations.WaitAndReturnComplete : Prop :=
  (∀ (s : State) (n : Nat), wfCore n = true → s.stopped = false → s.timerIrq n = true → (s.core n).released = true →
    s.wakeHeld n = false → (s.core n).waiting = true → (n ≥ 216 ∨ s.cstate n = 0) →
    Completes (.timerInterrupt n) s fun t => t = s.setCore n { s.core n with waiting := false }) ∧
  (∀ (s : State) (x : Insn), s.Executes x { gpr := false, level := 1 } → (s.core x.core).sb = [] → s.irq x.core = true →
    Completes (.wfi x) s fun t =>
      s.CoreOnly t x (s.nextPc x) ∧ t.core x.core = (s.core x.core).past (s.nextPc x)) ∧
  (∀ (s : State) (x : Insn), s.Executes x { gpr := false, level := 1 } → (s.core x.core).sb = [] → s.irq x.core = false →
    (x.core ≥ 216 ∨ (s.core x.core).darkW = true) →
    Completes (.wfi x) s fun t =>
      s.CoreOnly t x (s.nextPc x) ∧ t.core x.core = ({ s.core x.core with waiting := true }).past (s.nextPc x)) ∧
  (∀ (s : State) (x : Insn), s.Executes x { gpr := false, level := 1 } → (s.core x.core).sb = [] → s.irq x.core = false →
    x.core < 216 → (s.core x.core).darkW = false → s.fget (kPwrCctl x.core) fPwrCctl_WFIC ≠ 2 →
    Completes (.wfi x) s fun t =>
      t = { s with cores := t.cores, pcs := t.pcs } ∧ (∀ m, m ≠ x.core → t.core m = s.core m) ∧
      t.core x.core = ({ s.core x.core with waiting := true }).past (s.nextPc x) ∧
      t.cstate x.core = (if s.fget (kPwrCctl x.core) fPwrCctl_WFIC = 1 then 2 else 1)) ∧
  (∀ (s : State) (x : Insn), s.Executes x { gpr := false, level := 1 } → (s.core x.core).sb = [] → s.irq x.core = false →
    x.core < 216 → (s.core x.core).darkW = false → s.fget (kPwrCctl x.core) fPwrCctl_WFIC = 2 →
    (s.core x.core).caches.l2 = [] → s.home.wbuf = [] → s.home.evq = [] →
    Completes (.wfi x) s fun t =>
      t = { s with cores := t.cores, pcs := t.pcs } ∧ (∀ m, m ≠ x.core → t.core m = s.core m) ∧
      t.core x.core = ({ s.core x.core with waiting := true, caches :=
        { (s.core x.core).caches with l1i := [], l1d := [], vc := [], sbuf := [] } }).past (s.nextPc x) ∧
      t.cstate x.core = 3) ∧
  (∀ (s : State) (x : Insn),
    let c := s.core x.core
    let b := excBase x.core c.level c.darkW
    let es := c.srv (b + 1)
    s.Executes x { gpr := false, level := 1 } → 1 ≤ c.level → es.toNat % 4 ≤ c.level →
    (c.level = 3 → es.toNat % 4 = 3 ∨ (es.toNat % 4 < 2 ∧ (c.srv 0xD00).getLsbD 0 = true)) → 3 ≤ s.resident x.core →
    Completes (.eret x) s fun t =>
      s.CoreOnly t x (pcOf (c.srv b)) ∧ (t.core x.core).level = es.toNat % 4 ∧ (t.core x.core).darkW = c.darkW ∧
      (t.core x.core).cwp = s.parentWin x.core ∧
      t.core x.core = ({ c with sr := (t.core x.core).sr, cwp := (t.core x.core).cwp, owners := (t.core x.core).owners }).past
        (pcOf (c.srv b)) ∧
      (∀ j, j ≠ 0x400 → (t.core x.core).srv j = c.srv j) ∧
      (∀ i, i = 8 ∨ i = 9 → ((t.core x.core).srv 0x400).getLsbD i = es.getLsbD i)) ∧
  (∀ (s : State) (x : Insn),
    let c := s.core x.core
    let es := c.srv 0xC21
    s.Executes x { gpr := false, level := 1 } → c.level = 3 → es.toNat % 4 < 3 → (c.srv 0xD00).getLsbD 0 = false →
    s.sealedCore x.core = false → 3 ≤ s.resident x.core →
    Completes (.eret x) s fun t =>
      t = { s with cores := t.cores, pcs := t.pcs } ∧ (∀ m, m ≠ x.core → t.core m = s.core m) ∧
      (∀ k, k ≠ kEvt (x.core / 18) (x.core % 18) 1 → k ≠ kEvt 15 2 5 → t.rd k = s.rd k) ∧
      (t.core x.core).pc = pcOf (c.srv 0xC20) ∧ (t.core x.core).level = es.toNat % 4 ∧ (t.core x.core).darkW = false ∧
      (∀ i, i = 8 ∨ i = 9 → ((t.core x.core).srv 0x400).getLsbD i = es.getLsbD i) ∧
      (∀ j, j ≠ 0x400 → (t.core x.core).srv j = c.srv j) ∧ (t.core x.core).pred = [] ∧
      (∀ r w, 5 ≤ r → r < 8 → t.regAt x.core r w = 0) ∧ (∀ r w, r < 5 → t.regAt x.core r w = s.regAt x.core r w) ∧
      (∀ i, i < 16 → (c.cwp < frames x.core → SMap.get (fun _ => 0) (t.core x.core).win (16 * c.cwp + i) = 0) ∧
        SMap.get (fun _ => 0) (t.core x.core).win (16 * ((c.cwp + 1) % frames x.core) + i) = 0) ∧
      (∀ r, t.vreg x.core r = 0) ∧ (∀ p, p ≠ 0 → t.pr x.core p = false) ∧ (t.core x.core).cwp = s.parentWin x.core)

/-- CALL, CALLR and RET slide the window by 16 registers (R43, R46). On a compute core, after the spills that make room (none
where three frames are free), CALL and CALLR make the window (W + 1) mod 16: the caller's t0-t7 are the callee's
n0-n7, n7 holds the address of the next instruction and overwrites the caller's t7, m0-m7 and t0-t7 read as zero,
and execution continues at the target. RET jumps to the address in n7 and makes the window (W - 1) mod 16. -/
def Obligations.CallSlidesTheWindow : Prop :=
  -- `u` is the state after the spills that make room; with three free frames it is `s`
  (∀ (s u : State) (x : Insn) (c : Instr) (tgt : Word), x.core < 216 →
    ((∃ disp, c = .call x disp ∧ tgt = (s.core x.core).pc + disp ∧ s.Executes x { gpr := false }) ∨
      (∃ rs, c = .callr x rs ∧ tgt = s.src x rs ∧ s.Executes x {})) →
    (3 ≤ s.freeFrames x.core → u = s) → (s.freeFrames x.core < 3 → State.spillUntil (frames x.core) s x.core 3 = (.ok (), u)) →
    Completes c s fun t =>
      let w := (u.core x.core).cwp
      (t.core x.core).pc = pcOf tgt ∧ (t.core x.core).cwp = (w + 1) % 16 ∧
      (∀ i, i < 7 → t.regAt x.core (8 + i) ((w + 1) % 16) = u.regAt x.core (24 + i) w) ∧
      t.regAt x.core 15 ((w + 1) % 16) = pcOf ((u.core x.core).pc + BitVec.ofNat 64 x.len) ∧
      t.regAt x.core 31 w = pcOf ((u.core x.core).pc + BitVec.ofNat 64 x.len) ∧
      ∀ r, 16 ≤ r → r < 32 → t.regAt x.core r ((w + 1) % 16) = 0) ∧
  (∀ (s u : State) (x : Insn), x.core < 216 → s.Executes x { gpr := false } → s.needParent x.core = (.ok (), u) →
    Completes (.ret x) s fun t =>
      (t.core x.core).pc = pcOf (s.regAt x.core 15 (s.core x.core).cwp) ∧ (t.core x.core).cwp = ((u.core x.core).cwp + 15) % 16)

/-- CALL, CALLR, RET, WKEEP, WFLUSH and WPMOV complete (R46, R47, R48, R49, R50, R72, R79). Each with the spills and
fills that it needs, given as the state u that they leave, and as it is where none is needed: CALL, CALLR and RET move the
window, the PC and the return address, and change nothing else of u outside the core's window state; WKEEP spills until two
frames are free; WFLUSH flushes the frames of a level, and is done where none is left; WPMOV moves one register between the
window and its parent. -/
def Obligations.WindowInstructionsComplete : Prop :=
  (∀ (s u : State) (x : Insn) (disp : Word), s.Executes x { gpr := false } →
    State.spillUntil (frames x.core) s x.core 3 = (.ok (), u) →
    Completes (.call x disp) s fun t =>
      (t.core x.core).pc = pcOf ((s.core x.core).pc + disp) ∧ (t.core x.core).cwp = ((u.core x.core).cwp + 1) % frames x.core ∧
      t.regAt x.core 15 (t.core x.core).cwp = pcOf ((u.core x.core).pc + BitVec.ofNat 64 x.len) ∧
      (u.pending = s.pending → t = { u with cores := t.cores, pcs := t.pcs }) ∧
      ∀ m, m ≠ x.core → t.core m = u.core m) ∧
  (∀ (s : State) (x : Insn) (disp : Word), s.Executes x { gpr := false } → 3 ≤ s.freeFrames x.core →
    Completes (.call x disp) s fun t =>
      s.CoreOnly t x (pcOf ((s.core x.core).pc + disp)) ∧ (t.core x.core).cwp = ((s.core x.core).cwp + 1) % frames x.core ∧
      t.regAt x.core 15 (t.core x.core).cwp = s.nextPc x ∧
      (∀ r, 1 ≤ r → r < 8 → t.regAt x.core r (t.core x.core).cwp = s.regAt x.core r (s.core x.core).cwp) ∧
      (∀ r, 16 ≤ r → r < 32 → t.regAt x.core r (t.core x.core).cwp = 0)) ∧
  (∀ (s u : State) (x : Insn) (rs : Reg), s.Executes x {} →
    State.spillUntil (frames x.core) s x.core 3 = (.ok (), u) →
    Completes (.callr x rs) s fun t =>
      (t.core x.core).pc = pcOf (s.src x rs) ∧ (t.core x.core).cwp = ((u.core x.core).cwp + 1) % frames x.core ∧
      t.regAt x.core 15 (t.core x.core).cwp = pcOf ((u.core x.core).pc + BitVec.ofNat 64 x.len) ∧
      (u.pending = s.pending → t = { u with cores := t.cores, pcs := t.pcs }) ∧
      ∀ m, m ≠ x.core → t.core m = u.core m) ∧
  (∀ (s : State) (x : Insn) (rs : Reg), s.Executes x {} → 3 ≤ s.freeFrames x.core →
    Completes (.callr x rs) s fun t =>
      s.CoreOnly t x (pcOf (s.src x rs)) ∧ (t.core x.core).cwp = ((s.core x.core).cwp + 1) % frames x.core ∧
      t.regAt x.core 15 (t.core x.core).cwp = s.nextPc x) ∧
  (∀ (s u : State) (x : Insn), s.Executes x { gpr := false } → s.needParent x.core = (.ok (), u) →
    Completes (.ret x) s fun t =>
      (t.core x.core).pc = pcOf (s.regAt x.core 15 (s.core x.core).cwp) ∧ (t.core x.core).cwp = u.parentWin x.core ∧
      (∀ r w, t.regAt x.core r w = u.regAt x.core r w) ∧
      (u.pending = s.pending → t = { u with cores := t.cores, pcs := t.pcs }) ∧
      ∀ m, m ≠ x.core → t.core m = u.core m) ∧
  (∀ (s : State) (x : Insn), s.Executes x { gpr := false } → 3 ≤ s.resident x.core →
    Completes (.ret x) s fun t =>
      s.CoreOnly t x (pcOf (s.regAt x.core 15 (s.core x.core).cwp)) ∧ (t.core x.core).cwp = s.parentWin x.core ∧
      s.SameRegs t x.core ∧ s.SamePreds t x.core) ∧
  (∀ (s : State) (x : Insn), s.Executes x { gpr := false } → 2 ≤ s.freeFrames x.core →
    Completes (.wkeep x) s fun t =>
      s.CoreOnly t x (s.nextPc x) ∧ t.core x.core = (s.core x.core).past (s.nextPc x)) ∧
  (∀ (s u : State) (x : Insn), s.Executes x { gpr := false } → s.freeFrames x.core = 1 →
    s.spill x.core = (.ok (), u) → 2 ≤ u.freeFrames x.core →
    Completes (.wkeep x) s fun t =>
      t = { u.finishInsn x (s.core x.core).pc none with pending := s.pending }) ∧
  (∀ (s u : State) (x : Insn) (level : BitVec 2) (upto : Option Nat), s.Executes x { gpr := false, sys := s.flushTrap x.core level.toNat } →
    State.flushFrames (frames x.core) s x.core level.toNat (upto.getD (frames x.core)) = (.ok true, u) →
    Completes (.wflush x level upto) s fun t =>
      t = { u.finishInsn x (s.core x.core).pc none with pending := s.pending }) ∧
  (∀ (s : State) (x : Insn) (level : BitVec 2) (upto : Option Nat), s.Executes x { gpr := false, sys := s.flushTrap x.core level.toNat } →
    (∀ k, k < s.resident x.core → (s.core x.core).owner (((s.core x.core).oldest + k) % frames x.core) / 2 ≠ level.toNat) →
    Completes (.wflush x level upto) s fun t =>
      s.CoreOnly t x (s.nextPc x) ∧ t.core x.core = (s.core x.core).past (s.nextPc x)) ∧
  (∀ (s : State) (x : Insn) (rd rs : Reg), s.Executes x {} → 3 ≤ s.resident x.core →
    Completes (.wpmov x rd rs false) s fun t =>
      s.CoreOnly t x (s.nextPc x) ∧ (s.core x.core).RegsOnly (t.core x.core) ∧ s.SamePreds t x.core ∧
      s.RegWritten t x.core rd.toNat (s.dstWin x) (s.regAt x.core rs.toNat (s.parentWin x.core))) ∧
  (∀ (s : State) (x : Insn) (rd rs : Reg), s.Executes x {} → 3 ≤ s.resident x.core →
    Completes (.wpmov x rd rs true) s fun t =>
      s.CoreOnly t x (s.nextPc x) ∧ (s.core x.core).RegsOnly (t.core x.core) ∧ s.SamePreds t x.core ∧
      s.RegWritten t x.core rd.toNat (s.parentWin x.core) (s.src x rs))

/-- LOAD_INSN, STORE_INSN, FENCE, FABRIC_FENCE_COMPLETE and TLBSYNC (R84, R87, R88, R92, R93, R94, R95, R97, R114, R116, R143). A
load whose ordering prefix waits for nothing, whose address the core's TLB translates and whose line its L1D holds writes
the line's bytes, with the core's own buffered stores over them, extended as it says, to its register, general or vector,
and changes nothing else; in general it writes the bytes that the access answers (v and u are the states that the prefix and
the access leave). A store to cacheable memory goes to the end of the core's store buffer with the bytes of its register;
any other store ends as its access does; a speculative store does nothing. FENCE waits for the store buffer where its set
names stores, and at fabric scope holds the core's outstanding fabric writes, which FABRIC_FENCE_COMPLETE releases once
they are answered. TLBSYNC waits for the store buffer. -/
def Obligations.MemoryInstructionsComplete : Prop :=
  (∀ (s : State) (x : Insn) (m : MemOp) (l : Xlat) (k : Sector), s.Executes x (loadChk x m) → m.wf = true → m.spec = false →
    x.core < 216 → s.Ordered x →
    let n := x.core
    let va := (s.src x m.ra + m.off).toNat
    s.Translates n 0 va l → l.type = 0 → va % 4096 + m.size ≤ 4096 → l.hpa % 64 + m.size ≤ 64 → s.Cacheable (l.hpa / 64) →
    s.amoPending n (l.hpa / 64) = false → (s.core n).caches.l1Sector (l.hpa / 64) = some k →
    ((s.core n).darkW = true ∨ k.dark = false) → k.poison = false →
    Completes (.loadInsn x m) s fun t =>
      let v := lineField (s.overlay n (l.hpa / 64) k.data) (l.hpa % 64) m.size
      s.CoreOnly t x (s.nextPc x) ∧
      (m.vec = false → (s.core n).RegsOnly (t.core n) ∧ s.SamePreds t n ∧
        s.RegWritten t n m.reg.toNat (s.dstWin x) (if m.signed then sextW (8 * m.size) v else BitVec.ofNat 64 v)) ∧
      (m.vec = true → t.core n = ({ s.core n with v := (t.core n).v }).past (s.nextPc x) ∧
        t.vreg n m.reg = BitVec.ofNat 512 v ∧ ∀ r, r ≠ m.reg → t.vreg n r = s.vreg n r)) ∧
  (∀ (s v u : State) (x : Insn) (m : MemOp) (b : List Byte), s.Executes x (loadChk x m) → m.wf = true → m.spec = false →
    m.vec = false → s.ordFirst x = (.ok (), v) → v.ldVa x.core (v.src x m.ra + m.off).toNat m.size = (.ok b, u) →
    u.pending = s.pending →
    Completes (.loadInsn x m) s fun t =>
      (t.core x.core).pc = s.nextPc x ∧ t = { u with cores := t.cores, pcs := t.pcs } ∧
      (∀ n, n ≠ x.core → t.core n = u.core n) ∧
      u.RegWritten t x.core m.reg.toNat (u.dstWin x)
        (if m.signed then sextW (8 * m.size) (leNat b) else BitVec.ofNat 64 (leNat b))) ∧
  (∀ (s v u : State) (x : Insn) (m : MemOp) (b : List Byte), s.Executes x (loadChk x m) → m.wf = true → m.spec = false →
    m.vec = true → s.ordFirst x = (.ok (), v) → v.ldVa x.core (v.src x m.ra + m.off).toNat m.size = (.ok b, u) →
    Completes (.loadInsn x m) s fun t =>
      (t.core x.core).pc = s.nextPc x ∧ (∀ n, n ≠ x.core → t.core n = u.core n) ∧
      t.vreg x.core m.reg = lineOf b ∧ ∀ r, r ≠ m.reg → t.vreg x.core r = u.vreg x.core r) ∧
  (∀ (s : State) (x : Insn) (m : MemOp) (l : Xlat), s.Executes x (storeChk x m) → m.wf = true → m.spec = false → x.core < 216 →
    let n := x.core
    let va := (s.src x m.ra + m.off).toNat
    s.Translates n 1 va l → va % 4096 + m.size ≤ 4096 → l.hpa % 64 + m.size ≤ 64 → s.Cacheable (l.hpa / 64) →
    Completes (.storeInsn x m) s fun t =>
      s.CoreOnly t x (s.nextPc x) ∧
      t.core n = ({ s.core n with
        sb := (s.core n).sb ++ [({
          hpa := l.hpa, size := m.size, type := l.type, key := l.key, dark := (s.core n).darkW, amo := none,
          data := lineOf (if m.vec then lineBytes (s.vreg n m.reg) else leBytes m.size (s.src x m.reg).toNat),
          rel := decide (x.kind = 2), fab := decide (x.scope = 2), trains := false } : SbEnt)] }).past (s.nextPc x)) ∧
  (∀ (s u : State) (x : Insn) (m : MemOp), s.Executes x (storeChk x m) → m.wf = true → m.spec = false →
    s.stVa x.core (s.src x m.ra + m.off).toNat
      (if m.vec then lineBytes (s.vreg x.core m.reg) else leBytes m.size (s.src x m.reg).toNat)
      (decide (x.kind = 2)) (decide (x.scope = 2)) = (.ok (), u) →
    Completes (.storeInsn x m) s fun t =>
      t = { u.finishInsn x (s.core x.core).pc none with pending := s.pending }) ∧
  (∀ (s : State) (x : Insn) (m : MemOp), x.wf = true → m.wf = true → s.stopped = false → m.spec = true →
    Completes (.storeInsn x m) s fun t => t = s) ∧
  (∀ (s u : State) (x : Insn) (set : BitVec 4) (scope : BitVec 2), s.Executes x { gpr := false } → set ≠ 0 → scope ≠ 3 →
    ((set.getLsbD 2 || set.getLsbD 3) = true → s.sbEmpty x.core = (.ok (), u) ∧
      (scope = 2 → u.home.wbuf.any (fun w => decide (w.core = some x.core)) = false)) →
    ((set.getLsbD 2 || set.getLsbD 3) = false → u = s) →
    Completes (.fence x set scope) s fun t =>
      (t.core x.core).pc = s.nextPc x ∧ (∀ n, n ≠ x.core → t.core n = u.core n) ∧
      (t.core x.core).fabric = (if (set.getLsbD 2 || set.getLsbD 3) && decide (scope = 2) then
        (u.fio.outs.filter (fun o => o.write && decide (o.core = some x.core))).map (·.tag) else (u.core x.core).fabric) ∧
      t.core x.core = ({ u.core x.core with fabric := (t.core x.core).fabric }).past (s.nextPc x)) ∧
  (∀ (s : State) (x : Insn) (set : BitVec 4) (scope : BitVec 2), s.Executes x { gpr := false } → set ≠ 0 → scope ≠ 3 →
    ((set.getLsbD 2 || set.getLsbD 3) = true → (s.core x.core).sb = [] ∧
      (scope = 2 → s.home.wbuf.any (fun w => decide (w.core = some x.core)) = false)) →
    Completes (.fence x set scope) s fun t =>
      s.CoreOnly t x (s.nextPc x) ∧
      t.core x.core = ({ s.core x.core with
        fabric := if (set.getLsbD 2 || set.getLsbD 3) && decide (scope = 2) then
            (s.fio.outs.filter (fun (o : FabOut) => o.write && decide (o.core = some x.core))).map FabOut.tag
          else (s.core x.core).fabric }).past (s.nextPc x)) ∧
  (∀ (s : State) (n : Nat), wfCore n = true → s.stopped = false →
    (s.core n).fabric.any (fun t => (s.fabOut t).isSome) = false →
    Completes (.fabricFenceComplete n) s fun t => t = s.setCore n { s.core n with fabric := [] }) ∧
  (∀ (s : State) (n : Nat), wfCore n = true → s.stopped = false →
    (s.core n).fabric.any (fun t => (s.fabOut t).isSome) = true →
    Completes (.fabricFenceComplete n) s fun t => t = s) ∧
  (∀ (s u : State) (x : Insn), s.Executes x { gpr := false, level := 1 } → s.sbEmpty x.core = (.ok (), u) →
    Completes (.tlbsync x) s fun t => t = { u.finishInsn x (s.core x.core).pc none with pending := s.pending }) ∧
  (∀ (s : State) (x : Insn), s.Executes x { gpr := false, level := 1 } → (s.core x.core).sb = [] →
    Completes (.tlbsync x) s fun t =>
      s.CoreOnly t x (s.nextPc x) ∧ t.core x.core = (s.core x.core).past (s.nextPc x))

/-- The atomics return the old value (R84, R85, R105, R106, R107, R108, R109, Table 2-9). Each AMO, CAS and CAS128 that goes near,
on an aligned address that the core's TLB translates to a line which the core owns, writes the old bytes to its destination
(sign-extended for 4 bytes; CAS128 to an even and an odd register, the even one low: DEDUCED, log 38), leaves the result in
the line and every other register as it was; an AMO that may be posted and goes far is put into the store buffer. In general
each writes the old value that its atomic access answers (u is the state that it leaves). -/
def Obligations.AtomicInstructionsComplete : Prop :=
  (∀ c, c ∈ [(Instr.amoSwap, AmoOp.swap), (.amoAdd, .add), (.amoAnd, .and), (.amoOr, .or), (.amoXor, .xor), (.amoMin, .min),
      (.amoMax, .max), (.amoUmin, .umin), (.amoUmax, .umax)] →
    ∀ (s : State) (x : Insn) (rd ra rv : Reg) (hint : BitVec 2) (sz : Bool),
      let n := x.core
      let size := if sz then 4 else 8
      let va := (s.src x ra).toNat
      s.Executes x { valid := decide (hint ≠ 3), ord := true, align := s.alignEarly x ra ra size } → va % size = 0 → s.Ordered x →
      -- near, on a line that the core owns
      (∀ (l : Xlat) (k : CLine), s.Translates n 3 va l → l.type = 0 → s.lineKind (l.hpa / 64) = .tiered → (s.core n).sb = [] →
        s.goesFar n (l.hpa / 64) l.type hint.toNat = false → s.Owns n (l.hpa / 64) k →
        Completes (c.1 x rd ra rv hint sz) s fun t =>
          let old := lineField k.data (l.hpa % 64) size
          let v := if sz then sextW 32 old else BitVec.ofNat 64 old
          t = { ((s.nearDone n l c.2 size (s.src x rv).toNat 0 k).dst x rd v).finishInsn x (s.core n).pc none with pending := s.pending } ∧
          (t.core n).pc = s.nextPc x ∧ s.RegWritten t n rd.toNat (s.dstWin x) v ∧ s.SamePreds t n ∧
          ∀ m, m ≠ n → t.core m = s.core m) ∧
      -- far and posted
      (∀ (l : Xlat), x.core < 216 → rd = 0 → x.kind.getLsbD 0 = false → s.Translates n 3 va l → l.type < 2 → s.Cacheable (l.hpa / 64) →
        (s.core n).sb = [] → s.goesFar n (l.hpa / 64) l.type hint.toNat = true →
        Completes (c.1 x rd ra rv hint sz) s fun t =>
          t = { s with cores := t.cores, pcs := t.pcs } ∧ (∀ m, m ≠ n → t.core m = s.core m) ∧
          t.core n = ({ s.core n with
            sb := [({
              hpa := l.hpa, size := size, data := 0, type := l.type, key := l.key, dark := s.coreDark n,
              amo := some (c.2, (s.src x rv).toNat), rel := decide (x.kind = 2), fab := decide (x.scope = 2), trains := true } : SbEnt)] }).past
            (s.nextPc x)) ∧
      -- whatever its access is
      (∀ (u : State) (old : Nat),
        s.atomicVa x va c.2 size (s.src x rv).toNat 0 hint.toNat (decide (rd = 0) && decide (x.kind = 0 ∨ x.kind = 2)) = (.ok old, u) →
        u.pending = s.pending →
        Completes (c.1 x rd ra rv hint sz) s fun t =>
          (t.core n).pc = s.nextPc x ∧ t = { u with cores := t.cores, pcs := t.pcs } ∧
          (∀ m, m ≠ n → t.core m = u.core m) ∧
          u.RegWritten t n rd.toNat (u.dstWin x) (if sz then sextW 32 old else BitVec.ofNat 64 old))) ∧
  (∀ (s : State) (x : Insn) (rd ra rexp rnew : Reg) (hint : BitVec 2),
    let n := x.core
    let va := (s.src x ra).toNat
    s.Executes x { valid := decide (hint ≠ 3), ord := true, align := s.alignEarly x ra ra 8 } → va % 8 = 0 → s.Ordered x →
    (∀ (l : Xlat) (k : CLine), s.Translates n 3 va l → l.type = 0 → s.lineKind (l.hpa / 64) = .tiered → (s.core n).sb = [] →
      s.goesFar n (l.hpa / 64) l.type hint.toNat = false → s.Owns n (l.hpa / 64) k →
      Completes (.cas x rd ra rexp rnew hint) s fun t =>
        let old := lineField k.data (l.hpa % 64) 8
        t = { ((s.nearDone n l .cas 8 (s.src x rnew).toNat (s.src x rexp).toNat k).dst x rd (BitVec.ofNat 64 old)).finishInsn x
          (s.core n).pc none with pending := s.pending } ∧
        (t.core n).pc = s.nextPc x ∧ s.RegWritten t n rd.toNat (s.dstWin x) (BitVec.ofNat 64 old) ∧ s.SamePreds t n ∧
        ∀ m, m ≠ n → t.core m = s.core m) ∧
    (∀ (u : State) (old : Nat), s.atomicVa x va .cas 8 (s.src x rnew).toNat (s.src x rexp).toNat hint.toNat false = (.ok old, u) →
      u.pending = s.pending →
      Completes (.cas x rd ra rexp rnew hint) s fun t =>
        (t.core n).pc = s.nextPc x ∧ t = { u with cores := t.cores, pcs := t.pcs } ∧ (∀ m, m ≠ n → t.core m = u.core m) ∧
        u.RegWritten t n rd.toNat (u.dstWin x) (BitVec.ofNat 64 old))) ∧
  (∀ (s : State) (x : Insn) (rd ra rexp rnew : Reg) (hint : BitVec 2),
    let n := x.core
    let va := (s.src x ra).toNat
    let new := (s.src x rnew).toNat + (s.src x (rnew + 1)).toNat * 2 ^ 64
    let exp := (s.src x rexp).toNat + (s.src x (rexp + 1)).toNat * 2 ^ 64
    s.Executes x { valid := decide (hint ≠ 3), ord := true, align := s.alignEarly x ra ra 16 } → va % 16 = 0 → s.Ordered x →
    n < 216 → (s.rd kMgtEffcap).getLsbD 17 = true →
    rd.toNat % 2 = 0 → ra.toNat % 2 = 0 → rexp.toNat % 2 = 0 → rnew.toNat % 2 = 0 →
    (∀ (l : Xlat) (k : CLine), s.Translates n 3 va l → l.type = 0 → s.lineKind (l.hpa / 64) = .tiered → (s.core n).sb = [] →
      s.goesFar n (l.hpa / 64) l.type hint.toNat = false → s.Owns n (l.hpa / 64) k →
      Completes (.cas128 x rd ra rexp rnew hint) s fun t =>
        let old := lineField k.data (l.hpa % 64) 16
        t = { (((s.nearDone n l .cas128 16 new exp k).dst x rd (BitVec.ofNat 64 old)).dst x (rd + 1) (BitVec.ofNat 64 (old / 2 ^ 64))).finishInsn x
          (s.core n).pc none with pending := s.pending } ∧
        (t.core n).pc = s.nextPc x ∧ t.regAt n (rd + 1).toNat (s.dstWin x) = BitVec.ofNat 64 (old / 2 ^ 64) ∧
        (rd ≠ 0 → t.regAt n rd.toNat (s.dstWin x) = BitVec.ofNat 64 old) ∧ ∀ m, m ≠ n → t.core m = s.core m) ∧
    (∀ (u : State) (old : Nat), s.atomicVa x va .cas128 16 new exp hint.toNat false = (.ok old, u) → u.pending = s.pending →
      Completes (.cas128 x rd ra rexp rnew hint) s fun t =>
        (t.core n).pc = s.nextPc x ∧ t = { u with cores := t.cores, pcs := t.pcs } ∧ (∀ m, m ≠ n → t.core m = u.core m) ∧
        t.regAt n (rd + 1).toNat (u.dstWin x) = BitVec.ofNat 64 (old / 2 ^ 64) ∧
        (rd ≠ 0 → t.regAt n rd.toNat (u.dstWin x) = BitVec.ofNat 64 old)))

/-- A near atomic works on the line that the core owns (R105, R106, R111). A near atomic on a line that the core holds in M or
E, not poisoned and visible to its world, answers the old bytes and leaves the line with the result in them; its
counter counts it and the contention predictor is trained, as contended where an earlier attempt of it found another copy. -/
def Obligations.NearAtomicUpdatesLine : Prop :=
  ∀ (s : State) (n : Nat) (x : Xlat) (op : AmoOp) (size operand compare : Nat) (l : CLine), s.Owns n (x.hpa / 64) l →
    s.nearAtomic n x (s.core n).darkW op size operand compare =
      (.ok (lineField l.data (x.hpa % 64) size, false), s.nearDone n x op size operand compare l) ∧
    ∃ new, new = lineSet l.data (x.hpa % 64) size (amoCompute op size (lineField l.data (x.hpa % 64) size) operand compare) ∧
      s.nearDone n x op size operand compare l =
        (((s.l2Used n (x.hpa / 64)).writeOwned n { l with data := new } new 0).evtC n 0 7).train n (x.hpa / 64)
          (match (s.core n).nearTry with | some (a, b) => decide (a = x.hpa / 64) && b | none => false)

/-- The arithmetic of the atomics (R75, R105). For 4 and 8 bytes, as bit vectors: SWAP gives the operand, ADD the sum,
AND, OR and XOR the bitwise results, MIN and MAX the lesser and greater as signed numbers, UMIN and UMAX as unsigned
ones, and CAS the operand where the old value equals the comparand and the old value elsewhere. -/
def Obligations.AtomicArithmetic : Prop :=
  ∀ (n : Nat), n = 4 ∨ n = 8 → ∀ (a b c : BitVec (8 * n)),
    let f (op : AmoOp) : BitVec (8 * n) := BitVec.ofNat (8 * n) (amoCompute op n a.toNat b.toNat c.toNat)
    f .swap = b ∧ f .add = a + b ∧ f .and = a &&& b ∧ f .or = a ||| b ∧ f .xor = a ^^^ b ∧
    f .min = (if a.toInt ≤ b.toInt then a else b) ∧ f .max = (if a.toInt ≥ b.toInt then a else b) ∧
    f .umin = (if a.toNat ≤ b.toNat then a else b) ∧ f .umax = (if a.toNat ≥ b.toNat then a else b) ∧
    f .cas = (if a = c then b else a)

/-- CMO, CMOR and ICINV (R77, R78, R171, R172, R173, R174, R176, Table 2-9). On a line that is not Normal-WB CMO and CMOR have
no effect but CMOR's on its registers; CLEAN, INVAL and CLEANINV of a line that nobody holds and whose home is at rest complete
and leave every cache, the directory and memory as they were; a ZERO of a line that the core owns writes 64 zero bytes. In
general CMO and CMOR end as their maintenance of the line or lines does (u is the state that it leaves). ICINV removes the
line from the core's L1I and ICINV_ALL empties it; nothing else of the core changes but the PC. -/
def Obligations.CacheMaintenanceComplete : Prop :=
  (∀ c, c ∈ [(Instr.cmoClean, CmoOp.clean, 0), (.cmoInval, .inval, 1), (.cmoCleaninv, .cleaninv, 0), (.cmoZero, .zero, 0)] →
    ∀ (s : State) (x : Insn) (ra : Reg), s.Executes x { level := c.2.2 } →
      (∀ u, s.cmoVa x.core c.2.1 (s.src x ra).toNat = (.ok (), u) →
        Completes (c.1 x ra) s fun t => t = { u.finishInsn x (s.core x.core).pc none with pending := s.pending }) ∧
      (∀ l, s.Translates x.core c.2.1.acc (s.src x ra).toNat l → l.type ≠ 0 →
        Completes (c.1 x ra) s fun t => s.CoreOnly t x (s.nextPc x) ∧ t.core x.core = (s.core x.core).past (s.nextPc x)) ∧
      (∀ l, c.2.1 ≠ .zero → s.Translates x.core c.2.1.acc (s.src x ra).toNat l → l.type = 0 → x.core < 216 →
        (s.core x.core).sb = [] → s.missAt x.core (l.hpa / 64) = false → s.Quiet (l.hpa / 64) →
        (s.coreDark x.core = true ∨ s.ownDark (l.hpa / 64 * 64) = false) →
        (s.core x.core).caches.l2Find (l.hpa / 64) = none →
        Completes (c.1 x ra) s fun t => s.CachesAsBefore t x.core ∧ t.core x.core = (s.core x.core).past (s.nextPc x))) ∧
  (∀ (s : State) (x : Insn) (ra : Reg) (l : Xlat) (e : CLine), s.Executes x {} →
    s.Translates x.core 1 (s.src x ra).toNat l → l.type = 0 → s.Cacheable (l.hpa / 64) → (s.core x.core).sb = [] →
    s.missAt x.core (l.hpa / 64) = false → s.Owns x.core (l.hpa / 64) e →
    Completes (.cmoZero x ra) s fun t =>
      t = { (s.writeOwned x.core e 0 (BitVec.allOnes 64)).finishInsn x (s.core x.core).pc none with pending := s.pending }) ∧
  (∀ c, c ∈ [(Instr.cmorClean, CmoOp.clean, 0), (.cmorInval, .inval, 1), (.cmorCleaninv, .cleaninv, 0)] →
    ∀ (s : State) (x : Insn) (ra rn : Reg), s.Executes x { level := c.2.2, align := s.alignEarly x ra rn 64 } →
      (s.src x ra).toNat % 64 = 0 → (s.src x rn).toNat % 64 = 0 →
      (∀ u, State.cmorLoop ((s.src x rn).toNat / 64) s x c.2.1 ra rn = (.ok (), u) →
        Completes (c.1 x ra rn none) s fun t => t = { u.finishInsn x (s.core x.core).pc none with pending := s.pending }) ∧
      (ra ≠ 0 → rn ≠ 0 → ra ≠ rn → (∀ i, i < (s.src x rn).toNat / 64 →
          ∃ l, s.Translates x.core c.2.1.acc (s.src x ra + BitVec.ofNat 64 (64 * i)).toNat l ∧ l.type ≠ 0) →
        Completes (c.1 x ra rn none) s fun t =>
          s.CoreOnly t x (s.nextPc x) ∧ (s.core x.core).RegsOnly (t.core x.core) ∧ s.SamePreds t x.core ∧
          t.src x ra = s.src x ra + s.src x rn ∧ t.src x rn = 0) ∧
      (∀ l, ra ≠ 0 → rn ≠ 0 → ra ≠ rn → s.src x rn = 64 → s.Translates x.core c.2.1.acc (s.src x ra).toNat l → l.type = 0 → x.core < 216 →
        (s.core x.core).sb = [] → s.missAt x.core (l.hpa / 64) = false → s.Quiet (l.hpa / 64) →
        (s.coreDark x.core = true ∨ s.ownDark (l.hpa / 64 * 64) = false) →
        (s.core x.core).caches.l2Find (l.hpa / 64) = none →
        Completes (c.1 x ra rn none) s fun t => s.CachesAsBefore t x.core ∧ (t.core x.core).pc = s.nextPc x ∧
          (t.core x.core).caches = (s.core x.core).caches ∧ t.src x ra = s.src x ra + 64 ∧ t.src x rn = 0)) ∧
  (∀ (s u : State) (x : Insn) (ra : Reg) (l : Xlat), s.Executes x {} →
    s.xlSelf x.core 0 (s.src x ra).toNat = (.ok l, u) →
    Completes (.icinv x ra) s fun t =>
      (t.core x.core).pc = s.nextPc x ∧ (∀ n, n ≠ x.core → t.core n = u.core n) ∧
      (∀ p, p ∈ (t.core x.core).caches.l1i ↔ p ∈ (u.core x.core).caches.l1i ∧ p.2.line ≠ l.hpa / 64) ∧
      t.core x.core = ({ u.core x.core with caches := { (u.core x.core).caches with l1i := (t.core x.core).caches.l1i } }).past (s.nextPc x)) ∧
  (∀ (s : State) (x : Insn) (ra : Reg) (l : Xlat), s.Executes x {} → s.Translates x.core 0 (s.src x ra).toNat l →
    Completes (.icinv x ra) s fun t =>
      s.CoreOnly t x (s.nextPc x) ∧
      (∀ p, p ∈ (t.core x.core).caches.l1i ↔ p ∈ (s.core x.core).caches.l1i ∧ p.2.line ≠ l.hpa / 64) ∧
      t.core x.core = ({ s.core x.core with caches := { (s.core x.core).caches with l1i := (t.core x.core).caches.l1i } }).past (s.nextPc x)) ∧
  (∀ (s : State) (x : Insn), s.Executes x { level := 1 } →
    Completes (.icinvAll x) s fun t =>
      s.CoreOnly t x (s.nextPc x) ∧
      t.core x.core = ({ s.core x.core with caches := { (s.core x.core).caches with l1i := [] } }).past (s.nextPc x))

/-- HARDWARE_PREFETCH, DEMAND_REISSUE and L3_SLICE_REQUEST (R114, R115, R117, R153, R155, R156, R162, R175, R182, R186). A
prefetch into the L2, where its enable is set, requests the line; one into the L1D or side buffer takes the line that the
core's L2 holds, or that its request answers (u is the state that it leaves), and changes no register. A reissued demand
that finds its line in the L1D, or gets it, is no longer deferred. A request that the die's L3 slice holds in a state that
permits it is served there; one that it cannot serve becomes a miss of the core and a request of the right kind at the home. -/
def Obligations.CacheRequestsComplete : Prop :=
  (∀ (s : State) (n hpa key : Nat), n < 216 → hpa < 2 ^ 52 → key < 16384 → s.stopped = false → s.coreReady n = true →
    (s.core n).waiting = false → s.Cacheable (hpa / 64) →
    s.fon (kL2cCtl n) fL2cCtl_PFEN = true → (s.core n).caches.l2Find (hpa / 64) = none →
    Completes (.hardwarePrefetch n hpa key .l2) s fun t =>
      t = { ((s.evtC n 0x58 2).getLine' n (hpa / 64) key (s.core n).darkW true .none).2 with pending := s.pending }) ∧
  (∀ (s : State) (n hpa key : Nat), n < 216 → hpa < 2 ^ 52 → key < 16384 → s.stopped = false → s.coreReady n = true →
    (s.core n).waiting = false → s.Cacheable (hpa / 64) →
    s.fon (kL1cCtl n) fL1cCtl_PFEN = true → (s.core n).caches.hasSector (hpa / 64) = false →
    -- the L2 holds the line
    (∀ l, (s.core n).caches.current (hpa / 64) = some l → seen l (s.core n).darkW = true →
      Completes (.hardwarePrefetch n hpa key .l1d) s (fun t =>
        t = { (s.l2Used n (hpa / 64)).l1Fill n ⟨hpa / 64, l.data, l.poison, false, l.key, l.dark⟩ with pending := s.pending }) ∧
      (s.fon (kL1cCtl n) fL1cCtl_SBEN = true → Completes (.hardwarePrefetch n hpa key .sideBuffer) s (fun t =>
        t = { (s.l2Used n (hpa / 64)).sbFill n ⟨hpa / 64, l.data, l.poison, false, l.key, l.dark⟩ with pending := s.pending }))) ∧
    -- whoever answers
    (∀ l u, s.getLine' n (hpa / 64) key (s.core n).darkW true .l1d = (.line l false, u) →
      ((u.core n).caches.l2Find (hpa / 64)).isSome = true →
      Completes (.hardwarePrefetch n hpa key .l1d) s (fun t =>
        t = { u.l1Fill n ⟨hpa / 64, l.data, l.poison, false, l.key, l.dark⟩ with pending := s.pending }) ∧
      (s.fon (kL1cCtl n) fL1cCtl_SBEN = true → Completes (.hardwarePrefetch n hpa key .sideBuffer) s (fun t =>
        t = { u.sbFill n ⟨hpa / 64, l.data, l.poison, false, l.key, l.dark⟩ with pending := s.pending })))) ∧
  (∀ (s : State) (n line key : Nat), n < 216 → line < 2 ^ 46 → s.stopped = false →
    (s.core n).deferred.find? (fun p => p.1 = line) = some (line, key) →
    (∀ k, (s.core n).caches.l1Sector line = some k → ((s.core n).darkW = true ∨ k.dark = false) →
      Completes (.demandReissue n line) s fun t =>
        (∀ p, p ∈ (t.core n).deferred ↔ p ∈ (s.core n).deferred ∧ p.1 ≠ line) ∧
        t = s.setCore n { s.core n with deferred := (t.core n).deferred }) ∧
    (∀ l nf u, s.loadLine n line key (s.core n).darkW false = (.line l nf, u) →
      Completes (.demandReissue n line) s fun t =>
        (∀ p, p ∈ (t.core n).deferred ↔ p ∈ (u.core n).deferred ∧ p.1 ≠ line) ∧
        t = { u.setCore n { u.core n with deferred := (t.core n).deferred } with pending := s.pending })) ∧
  (∀ (s : State) (n line key : Nat) (kind : L3Kind) (world spec : Bool), n < 216 → line < 2 ^ 46 → key < 16384 →
    s.stopped = false → s.down = false → s.missAt n line = false → s.missRoom n line .none = true →
    let d := n / 18
    let u := s.evtX world d (0x70 + l3Slice (line * 64)) 0
    -- the slice holds the line for a read
    (∀ k l, kind = .read → s.l3Closed (l3Idx d line) = false → s.l3Find d line = some (k, l) → seen l world = true →
      Completes (.l3SliceRequest n line kind key world spec) s fun t =>
        t = { (u.l3Set d k { l with st := snoopNext .s l.st }).l2Fill n { l with st := .s, key := key } with pending := s.pending }) ∧
    -- it holds the line in E or M for a write, and no other core of the die does
    (∀ k l, kind ≠ .read → s.l3Closed (l3Idx d line) = false → s.l3Find d line = some (k, l) → seen l world = true →
      (l.st = .e ∨ l.st = .m) → (∀ m, m ∈ s.holders d line → m = n) →
      Completes (.l3SliceRequest n line kind key world spec) s fun t =>
        t = { (u.l3Drop d line).l2Fill n { l with st := .m, key := key } with pending := s.pending }) ∧
    -- it does not hold the line
    (s.l3Closed (l3Idx d line) = false → s.l3Find d line = none →
      Completes (.l3SliceRequest n line kind key world spec) s fun t =>
        let w := u.evtX world d (0x70 + l3Slice (line * 64)) 1
        t = { (w.missOpen n line key (decide (kind ≠ .read)) spec .none).request (match kind with | .read => .rds | .write => .rdo | .upgrade => .upg)
          (coreReq w n line key world spec (decide (kind ≠ .read))) with pending := s.pending }))

/-- TLBI, TLBIR, TLBLOCK and TLBUNLOCK (R76, R78, R138, R139, R140, R141, R142, Table 4-6). Each TLBI and TLBIR removes
exactly the translations and walk-cache entries that Table 4-6 names from the executing core, leaves locked
translations and their copies unless the locked form is used, and changes nothing else; TLBIR also advances its
address and clears its count, and does nothing for a count of 0. TLBLOCK locks the translation of its walk and
answers its predicate; TLBUNLOCK unlocks the translation of one VA, or all
under the current tags. (Regime codes, and which stage-1 entries an IPA invalidation takes, are the model's
readings: log 38.) -/
def Obligations.TlbInstructionsComplete : Prop :=
  (∀ (s : State) (x : Insn) (ra : Reg) (locked : Bool), s.Executes x { level := 1 } →
    Completes (.tlbiVaAsid x ra locked) s fun t =>
      s.CoreOnly t x (s.nextPc x) ∧ (s.core x.core).TlbsLess (t.core x.core) locked
        (fun e => e.regime = (s.tlbNow x.core).1 ∧ e.vmid = (s.tlbNow x.core).2.1 ∧ e.s2only = false ∧
          (e.asid = none ∨ e.asid = some (s.tlbNow x.core).2.2) ∧ ringMeet (2 ^ 64) (s.src x ra).toNat 1 e.base e.size = true)
        (fun w => w.regime = (s.tlbNow x.core).1 ∧ w.vmid = (s.tlbNow x.core).2.1 ∧ w.onPath (2 ^ 57) (s.src x ra).toNat 1 = true)
        (fun _ => False)) ∧
  (∀ (s : State) (x : Insn) (ra : Reg) (locked : Bool), s.Executes x { level := 1 } →
    Completes (.tlbiVaAllAsid x ra locked) s fun t =>
      s.CoreOnly t x (s.nextPc x) ∧ (s.core x.core).TlbsLess (t.core x.core) locked
        (fun e => e.regime = (s.tlbNow x.core).1 ∧ e.vmid = (s.tlbNow x.core).2.1 ∧ e.s2only = false ∧
          ringMeet (2 ^ 64) (s.src x ra).toNat 1 e.base e.size = true)
        (fun w => w.regime = (s.tlbNow x.core).1 ∧ w.vmid = (s.tlbNow x.core).2.1 ∧ w.onPath (2 ^ 57) (s.src x ra).toNat 1 = true)
        (fun _ => False)) ∧
  (∀ (s : State) (x : Insn) (ra : Reg) (locked : Bool), s.Executes x { level := 1 } →
    Completes (.tlbiAsid x ra locked) s fun t =>
      s.CoreOnly t x (s.nextPc x) ∧ (s.core x.core).TlbsLess (t.core x.core) locked
        (fun e => e.regime = (s.tlbNow x.core).1 ∧ e.vmid = (s.tlbNow x.core).2.1 ∧ e.s2only = false ∧
          e.asid = some ((s.src x ra).toNat % 65536))
        (fun w => w.regime = (s.tlbNow x.core).1 ∧ w.vmid = (s.tlbNow x.core).2.1) (fun _ => False)) ∧
  (∀ (s : State) (x : Insn) (ra : Reg) (locked : Bool), s.Executes x { level := 1 } →
    Completes (.tlbiStage1Vm x ra locked) s fun t =>
      s.CoreOnly t x (s.nextPc x) ∧ (s.core x.core).TlbsLess (t.core x.core) locked
        (fun e => e.regime = (s.tlbNow x.core).1 ∧ e.vmid = (s.tlbNow x.core).2.1 ∧ e.s2only = false)
        (fun w => w.regime = (s.tlbNow x.core).1 ∧ w.vmid = (s.tlbNow x.core).2.1) (fun _ => False)) ∧
  (∀ (s : State) (x : Insn) (ra : Reg) (locked : Bool), s.Executes x { level := 2 } → x.core < 216 →
    Completes (.tlbiIpa x ra locked) s fun t =>
      let vmid := bitsOf ((s.core x.core).srv 0x901) 48 16
      s.CoreOnly t x (s.nextPc x) ∧ (s.core x.core).TlbsLess (t.core x.core) locked
        (fun e => e.regime = 0 ∧ e.vmid = vmid ∧
          (e.s2only = false ∨ ringMeet (2 ^ 64) (s.src x ra).toNat 1 e.base e.size = true))
        (fun _ => False) (fun w => w.regime = 0 ∧ w.vmid = vmid ∧ w.onPath (2 ^ 64) (s.src x ra).toNat 1 = true)) ∧
  (∀ (s : State) (x : Insn) (ra : Reg) (locked : Bool), s.Executes x { level := 2 } → x.core < 216 →
    Completes (.tlbiVmid x ra locked) s fun t =>
      s.CoreOnly t x (s.nextPc x) ∧ (s.core x.core).TlbsLess (t.core x.core) locked
        (fun e => e.regime = 0 ∧ e.vmid = (s.src x ra).toNat % 65536)
        (fun w => w.regime = 0 ∧ w.vmid = (s.src x ra).toNat % 65536)
        (fun w => w.regime = 0 ∧ w.vmid = (s.src x ra).toNat % 65536)) ∧
  (∀ (s : State) (x : Insn) (ra : Reg) (locked : Bool), s.Executes x { level := 2 } → x.core < 216 →
    Completes (.tlbiAll x ra locked) s fun t =>
      s.CoreOnly t x (s.nextPc x) ∧ (s.core x.core).TlbsLess (t.core x.core) locked
        (fun e => e.regime < 2) (fun w => w.regime < 2) (fun w => w.regime < 2)) ∧
  (∀ (s : State) (x : Insn) (ra rn : Reg) (locked : Bool), s.Executes x { level := 1, align := s.alignEarly x ra rn 4096 } →
    (s.src x ra).toNat % 4096 = 0 → (s.src x rn).toNat % 4096 = 0 → s.src x rn ≠ 0 →
    Completes (.tlbir x ra rn locked none) s fun t =>
      let u := s.tlbVa x.core locked false (s.src x ra).toNat (s.src x rn).toNat
      (s.core x.core).TlbsLess (u.core x.core) locked
        (fun e => e.regime = (s.tlbNow x.core).1 ∧ e.vmid = (s.tlbNow x.core).2.1 ∧ e.s2only = false ∧
          (e.asid = none ∨ e.asid = some (s.tlbNow x.core).2.2) ∧
          ringMeet (2 ^ 64) (s.src x ra).toNat (s.src x rn).toNat e.base e.size = true)
        (fun w => w.regime = (s.tlbNow x.core).1 ∧ w.vmid = (s.tlbNow x.core).2.1 ∧
          w.onPath (2 ^ 57) (s.src x ra).toNat (s.src x rn).toNat = true)
        (fun _ => False) ∧
      t = ((u.dstSrc x ra (s.src x ra + s.src x rn)).dstSrc x rn 0).finishInsn x (s.core x.core).pc none) ∧
  (∀ (s : State) (x : Insn) (ra rn : Reg) (locked : Bool), s.Executes x { level := 2, align := s.alignEarly x ra rn 4096 } → x.core < 216 →
    (s.src x ra).toNat % 4096 = 0 → (s.src x rn).toNat % 4096 = 0 → s.src x rn ≠ 0 →
    Completes (.tlbirIpa x ra rn locked none) s fun t =>
      let u := s.tlbIpa x.core locked (s.src x ra).toNat (s.src x rn).toNat
      let vmid := bitsOf ((s.core x.core).srv 0x901) 48 16
      (s.core x.core).TlbsLess (u.core x.core) locked
        (fun e => e.regime = 0 ∧ e.vmid = vmid ∧
          (e.s2only = false ∨ ringMeet (2 ^ 64) (s.src x ra).toNat (s.src x rn).toNat e.base e.size = true))
        (fun _ => False)
        (fun w => w.regime = 0 ∧ w.vmid = vmid ∧ w.onPath (2 ^ 64) (s.src x ra).toNat (s.src x rn).toNat = true) ∧
      t = ((u.dstSrc x ra (s.src x ra + s.src x rn)).dstSrc x rn 0).finishInsn x (s.core x.core).pc none) ∧
  (∀ c, c ∈ [(Instr.tlbir, 1), (.tlbirIpa, 2)] → ∀ (s : State) (x : Insn) (ra rn : Reg) (locked : Bool) (upto : Option Nat),
    s.Executes x { level := c.2, align := s.alignEarly x ra rn 4096 } → x.core < 216 →
    (s.src x ra).toNat % 4096 = 0 → s.src x rn = 0 →
    Completes (c.1 x ra rn locked upto) s fun t =>
      s.CoreOnly t x (s.nextPc x) ∧ t.core x.core = (s.core x.core).past (s.nextPc x)) ∧
  (∀ (s u : State) (x : Insn) (pd : PReg) (ra : Reg) (b : Bool), s.Executes x { level := 1 } →
    s.tlbLock x.core (s.src x ra).toNat = (.ok b, u) →
    Completes (.tlblock x pd ra) s fun t =>
      t = { (u.setPr x.core pd b).finishInsn x (s.core x.core).pc none with pending := s.pending } ∧
      (pd ≠ 0 → t.pr x.core pd = b)) ∧
  -- the translation is locked already, or no stage is enabled
  (∀ (s : State) (x : Insn) (pd : PReg) (ra : Reg) (r : Regime) (l : Xlat), s.Executes x { level := 1 } →
    let c := s.core x.core
    let va := (s.src x ra).toNat
    s.regimeOf x.core c.level c.darkW false va = some r → (c.tlbs.locked.any (fun e => e.tags r va) = true ∨ (r.s1 = none ∧ r.s2 = none)) →
    s.Translates x.core 0 va l →
    Completes (.tlblock x pd ra) s fun t =>
      s.CoreOnly t x (s.nextPc x) ∧ (s.core x.core).RegsOnly (t.core x.core) ∧ s.SameRegs t x.core ∧
      ∀ q, t.pr x.core q = (decide (q = pd) || s.pr x.core q)) ∧
  -- a walk that its walk cache serves down to the last level, with the table's line in the core's L2
  (∀ (s : State) (x : Insn) (pd : PReg) (ra : Reg) (r : Regime) (base table : Nat) (k : CLine), s.Executes x { level := 1 } → x.core < 216 →
    let c := s.core x.core
    let va := (s.src x ra).toNat
    let h := table + 8 * (va / 4096 % 512)
    let e : Word := BitVec.ofNat 64 (lineField k.data (h % 64) 8)
    let a := s.xacc x.core 0 c.level c.darkW
    s.regimeOf x.core c.level c.darkW false va = some r → c.tlbs.locked.any (fun e => e.tags r va) = false → c.tlbs.locked.length < lockedMax →
    r.s1 = some base → r.s2 = none → s.walkHit r false base 4 (va % 2 ^ 57) = some table →
    s.isTiered h = true → (r.dark = true ∨ s.isDark h = false) →
    c.caches.current (h / 64) = some k → seen k r.dark = true → k.poison = false →
    entType e = 1 → goodLeaf e 4 = true →
    s1Check (if r.code = 1 then { a with level := 2 } else a) (e.getLsbD 5) (e.getLsbD 6) (e.getLsbD 7) (e.getLsbD 8) (e.getLsbD 9) = none →
    Completes (.tlblock x pd ra) s fun t =>
      t = { s with cores := t.cores, pcs := t.pcs } ∧ (∀ m, m ≠ x.core → t.core m = s.core m) ∧ (t.core x.core).pc = s.nextPc x ∧
      s.SameRegs t x.core ∧ (∀ q, t.pr x.core q = (decide (q = pd) || s.pr x.core q)) ∧
      ∃ q : TlbEnt, (t.core x.core).tlbs.locked = c.tlbs.locked ++ [q] ∧ q.regime = r.code ∧ q.vmid = r.vmid ∧ q.asid = r.asid ∧
        q.base = va / 4096 * 4096 ∧ q.size = 4096 ∧ q.pa = entOA e ∧ q.key = entKey e ∧ q.attr1 = some (bitsOf e 2 3) ∧
        q.u = e.getLsbD 5 ∧ q.w = e.getLsbD 6 ∧ q.x = e.getLsbD 7 ∧ q.s2 = false) ∧
  (∀ (s : State) (x : Insn) (ra : Reg), s.Executes x { level := 1 } →
    Completes (.tlbunlock x ra) s fun t =>
      s.CoreOnly t x (s.nextPc x) ∧
      t.core x.core = ({ s.core x.core with tlbs := { (s.core x.core).tlbs with locked := (t.core x.core).tlbs.locked } }).past (s.nextPc x) ∧
      ∀ e, e ∈ (t.core x.core).tlbs.locked ↔ e ∈ (s.core x.core).tlbs.locked ∧
        ¬ (e.regime = (s.tlbNow x.core).1 ∧ e.vmid = (s.tlbNow x.core).2.1 ∧
          (e.asid = none ∨ e.asid = some (s.tlbNow x.core).2.2) ∧ e.base ≤ (s.src x ra).toNat ∧
          (s.src x ra).toNat < e.base + e.size)) ∧
  (∀ (s : State) (x : Insn), s.Executes x { level := 1 } →
    Completes (.tlbunlockAll x) s fun t =>
      s.CoreOnly t x (s.nextPc x) ∧
      t.core x.core = ({ s.core x.core with tlbs := { (s.core x.core).tlbs with locked := (t.core x.core).tlbs.locked } }).past (s.nextPc x) ∧
      ∀ e, e ∈ (t.core x.core).tlbs.locked ↔ e ∈ (s.core x.core).tlbs.locked ∧
        ¬ (e.regime = (s.tlbNow x.core).1 ∧ e.vmid = (s.tlbNow x.core).2.1))

/-- A register write follows the access codes of its fields (R10, R13, R14, R573, Table 0-1). A write of 8 bytes that
reaches a register without a behaviour of its own changes that register alone: RW, RWS and unlocked RWL bits take
the written value, W1C bits written 1 clear, W1S bits written 1 set, and every other bit keeps its value. -/
def Obligations.RegisterWriteFollowsAccessCodes : Prop :=
  ∀ (s u : State) (agent : Agent) (off : BitVec 26) (value : Word) (d : RegDef), agent.wf = true → s.stopped = false →
    s.Reaches u agent off.toNat d value → pcsSpecial.contains d.name = false → u.pending = s.pending →
    Completes (.registerWrite agent off 8 value) s fun t =>
      t = { u with pcs := t.pcs } ∧ (∀ k, k ≠ off.toNat → t.rd k = u.rd k) ∧
      ∀ i, i < 64 → (t.rd off.toNat).getLsbD i =
        (let old := (u.rd off.toNat).getLsbD i
         let v := value.getLsbD i
         if d.rw.testBit i || d.rws.testBit i || (d.rwl.testBit i && !u.pcsLocked off.toNat d) then
           (v && !(v && d.w1c.testBit i)) || (v && d.w1s.testBit i)
         else (old && !(v && d.w1c.testBit i)) || (v && d.w1s.testBit i))

/-- A lock is applied after the values written with it (R573). A write that sets the LOCK bit of a register (of those
without a behaviour of their own) and also writes its RWL fields takes the written values, and the lock is then set;
any later write that reaches the register, from any agent and in any state in which the register still holds this
value, leaves the RWL fields and the lock as they are. (FIO_FCTL, which another register locks, is not covered.) -/
def Obligations.LockTakesWrittenValuesFirst : Prop :=
  ∀ (s u : State) (a : Agent) (off : BitVec 26) (v : Word) (d : RegDef), a.wf = true → s.stopped = false →
    s.Reaches u a off.toNat d v → pcsSpecial.contains d.name = false → d.name ≠ "FIO_FCTL" → u.pending = s.pending →
    u.pcsLocked off.toNat d = false → v &&& BitVec.ofNat 64 d.lock ≠ 0 →
    Completes (.registerWrite a off 8 v) s fun t =>
      (∀ i, i < 64 → d.rwl.testBit i = true → (t.rd off.toNat).getLsbD i = v.getLsbD i) ∧ t.pcsLocked off.toNat d = true ∧
      -- a later write, in any state in which the register still holds what this one left
      ∀ (s' u' : State) (a' : Agent) (v' : Word), a'.wf = true → s'.stopped = false → s'.Reaches u' a' off.toNat d v' →
        u'.pending = s'.pending → u'.rd off.toNat = t.rd off.toNat →
        Completes (.registerWrite a' off 8 v') s' fun t' =>
          (∀ i, i < 64 → d.rwl.testBit i = true → (t'.rd off.toNat).getLsbD i = (t.rd off.toNat).getLsbD i) ∧
          t'.pcsLocked off.toNat d = true

/-- Writes to the Package Control Space are admitted as Table 14-5 states (R441). For every agent and address, whether a
write is admitted is Table 14-5's entry. A write that is not admitted changes no register but WLD_PCSREF, which
counts it and holds the first refused write's agent, die, block and offset, and the WLD counter of dropped writes. A
read does not depend on admission: two agents that see the same of Darkroom state read the same value. A device
reads zero and its writes do nothing. -/
def Obligations.RefusedRegisterWriteIsDropped : Prop :=
  -- Table 14-5, agent by agent
  (∀ (s : State) (n k : Nat), n < 220 → (s.pcsAdmits (.core n) k = true ↔
    n = 216 ∨ (n < 216 ∧ (s.core n).darkW = true ∧ ¬ (pcsDie k = 15 ∧ pcsBlock k = 2 ∧ (pcsOff k = 8 ∨ pcsOff k = 0x18))) ∨
    (n < 216 ∧ (s.core n).darkW = false ∧ ¬ (pcsDie k = 15 ∧ pcsBlock k ∈ [1, 2, 3, 0x52, 0xB, 0xC])) ∨
    (216 < n ∧ ((0x3000 ≤ pcsOff k ∧ pcsOff k ≤ 0x3100) ∨ (pcsDie k = 15 ∧ pcsBlock k ∈ [5, 6, 7, 0xA]) ∨
      (pcsDie k ≠ 15 ∧ pcsBlock k ∈ [0x20, 0x21, 0x22]))))) ∧
  -- a write that is not admitted is dropped, counted and held
  (∀ (s : State) (n : Nat) (off : BitVec 26) (value : Word) (d : RegDef), wfCore n = true → s.stopped = false →
    off.toNat % 8 = 0 → regDefAt off.toNat = some d → s.pcsAdmits (.core n) off.toNat = false →
    off.toNat ≠ kWldPcsref → off.toNat ≠ kEvt 15 2 3 →
    Completes (.registerWrite (.core n) off 8 value) s fun t =>
      t = { s with pcs := t.pcs } ∧ (∀ k, k ≠ kWldPcsref → k ≠ kEvt 15 2 3 → t.rd k = s.rd k) ∧
      t.fget kWldPcsref fWldPcsref_COUNT = min (s.fget kWldPcsref fWldPcsref_COUNT + 1) (2 ^ fWldPcsref_COUNT.w - 1) ∧
      t.fon kWldPcsref fWldPcsref_VALID = true ∧
      (s.fon kWldPcsref fWldPcsref_VALID = false →
        t.fget kWldPcsref fWldPcsref_AGENT = (if n > 216 then 1 else if (s.core n).darkW then 3 else 2) ∧
        t.fget kWldPcsref fWldPcsref_DIE = pcsDie off.toNat ∧ t.fget kWldPcsref fWldPcsref_BLOCK = pcsBlock off.toNat ∧
        t.fget kWldPcsref fWldPcsref_OFFSET = pcsOff off.toNat)) ∧
  -- every agent may read every register; a device reaches none
  (∀ (s : State) (n m off size : Nat), (s.pcsPath (off / 8 * 8)).2.deepAgent (.core n) = (s.pcsPath (off / 8 * 8)).2.deepAgent (.core m) →
    s.pcsRead (.core n) off size = s.pcsRead (.core m) off size) ∧
  (∀ (s : State) (off : BitVec 26) (size : Nat) (value : Word), s.stopped = false →
    s.pcsRead .device off.toNat size = (some 0, s) ∧ Completes (.registerWrite .device off size value) s fun t => t = s)

/-- An unassigned register reads zero and ignores writes (R11). An aligned access of 4 or 8 bytes, by any agent, to an
address at which no register stands reads zero and leaves the state alone; a write of it is a next state equal to
the state before, so nothing is counted or reported. -/
def Obligations.UnassignedRegistersReadZero : Prop :=
  ∀ (s : State) (a : Agent) (off : BitVec 26) (size : Nat) (v : Word), a.wf = true → s.stopped = false → size = 4 ∨ size = 8 →
    off.toNat % size = 0 → regDefAt (off.toNat / 8 * 8) = none →
    s.pcsRead a off.toNat size = (some 0, s) ∧ Completes (.registerWrite a off size v) s fun t => t = s

/-- The register rows with a behaviour of their own (R163, R168, R231, R259, R348, R351, R390, R442, R450, R492, R497,
R546). Each row that writes one such register (L1C_CTL, L3C_LOCK, IOTU_FSTAT.POP, SCL_CTL.RETRAIN, ENL_HEAT.DECAY,
FIO_T1ACT, FWT_DATA1, WLD_HOLD, WLD_WDOG.KICK, SSM_CTL.LOCK, SSM_BANKPWR, CLK_CDCTL.TARGET, PWR_DCTL and PWR_IODV
GUARD, EVT_CNT, ZCI_CTL.HQEN), where the write reaches it, stores the value and then acts: a cache structure is
emptied, more than 8 locked ways only set LOCK's error bit, the fault log drops its oldest entry, the link retrains,
heat decay restarts, a forwarding entry is committed, the watchdog restarts, banks change state, the operating point
is evaluated again, queue pair 2 starts or stops. -/
def Obligations.RegisterRowsComplete : Prop :=
  (∀ (s u : State) (a : Agent) (c : Nat) (v : Word) (d : RegDef), a.wf = true → s.stopped = false → c < 216 →
    s.Reaches u a (kL1cCtl c) d v → d.name = "L1C_CTL" → Completes (.l1cCtlWrite a c v) s fun t =>
      t = { (u.wr (kL1cCtl c) (u.regAfter (kL1cCtl c) d v)).writeL1c (18 * pcsDie (kL1cCtl c) + (pcsBlock (kL1cCtl c) - 0x40))
        (u.rd (kL1cCtl c)) (u.regAfter (kL1cCtl c) d v) with pending := s.pending }) ∧
  (∀ (s u : State) (a : Agent) (i : Nat) (v : Word) (d : RegDef), a.wf = true → s.stopped = false → i < 192 →
    s.Reaches u a (kL3cLock i) d v → d.name = "L3C_LOCK" → Completes (.l3cLockWrite a i v) s fun t =>
      t = { u.wr (kL3cLock i) (if ones16 (d.written (u.pcsLocked (kL3cLock i) d) (u.rd (kL3cLock i)) v (BitVec.allOnes 64)).toNat > 8
        then u.rd (kL3cLock i) ||| BitVec.ofNat 64 (2 ^ 63)
        else d.written (u.pcsLocked (kL3cLock i) d) (u.rd (kL3cLock i)) v (BitVec.allOnes 64)) with pending := s.pending }) ∧
  (∀ (s u : State) (a : Agent) (d : RegDef), a.wf = true → s.stopped = false →
    s.Reaches u a kIotuFstat d (BitVec.ofNat 64 (2 ^ 63)) → d.name = "IOTU_FSTAT" → Completes (.iotuFstatPop a) s fun t =>
      t = { (u.wr kIotuFstat (u.regAfter kIotuFstat d (BitVec.ofNat 64 (2 ^ 63)))).iotuPop with pending := s.pending } ∧
      t.iotu.log = u.iotu.log.drop 1) ∧
  (∀ (s u : State) (a : Agent) (e : LinkEnd) (d : RegDef), a.wf = true → e.wf = true → s.stopped = false →
    s.Reaches u a (kSclCtl e) d (s.rd (kSclCtl e) ||| BitVec.ofNat 64 (2 ^ 63)) → d.name = "SCL_CTL" →
    Completes (.retrain a e) s fun t =>
      t = { (u.wr (kSclCtl e) (u.regAfter (kSclCtl e) d (s.rd (kSclCtl e) ||| BitVec.ofNat 64 (2 ^ 63)))).retrain
        (if pcsDie (kSclCtl e) = 15 then pcsBlock (kSclCtl e) - 0x30 else pcsDie (kSclCtl e)) false with pending := s.pending }) ∧
  (∀ (s u : State) (a : Agent) (v : Word) (d : RegDef), a.wf = true → s.stopped = false →
    s.Reaches u a kEnlHeat d v → d.name = "ENL_HEAT" → Completes (.decayWrite a v) s fun t =>
      t = { u.wr kEnlHeat (u.regAfter kEnlHeat d v) with
        enl := { u.enl with decayPos := 0, decayOn := decide (fEnlHeat_DECAY.get (u.regAfter kEnlHeat d v) ≠ 0) },
        pending := s.pending }) ∧
  (∀ (s u : State) (a : Agent) (v : Word) (d : RegDef), a.wf = true → s.stopped = false →
    s.Reaches u a kFioT1act d v → d.name = "FIO_T1ACT" → Completes (.t1RangeActivate a v) s fun t =>
      t = { u.wr kFioT1act (u.regAfter kFioT1act d v) with pending := s.pending }) ∧
  (∀ (s u : State) (a : Agent) (v : Word) (d : RegDef), a.wf = true → s.stopped = false →
    s.Reaches u a kFwtData1 d v → d.name = "FWT_DATA1" → Completes (.fwtCommit a v) s fun t =>
      t = { (u.wr kFwtData1 (u.regAfter kFwtData1 d v)).fwtCommit (u.rd kFwtData0) (u.regAfter kFwtData1 d v) with pending := s.pending } ∧
      t.fwtEnt (u.fget kFwtSel fFwtSel_INDEX) = (fFwtData0_FAIL.put (u.rd kFwtData0) 0, u.regAfter kFwtData1 d v)) ∧
  (∀ (s u : State) (a : Agent) (i w : Nat) (v : Word) (d : RegDef), a.wf = true → s.stopped = false → i < 13 → w < 4 →
    s.Reaches u a (kWldHold i w) d v → d.name = "WLD_HOLD" → Completes (.wldHoldWrite a i w v) s fun t =>
      t = { u.wr (kWldHold i w) (u.regAfter (kWldHold i w) d v) with pending := s.pending }) ∧
  (∀ (s u : State) (a : Agent) (d : RegDef), a.wf = true → s.stopped = false →
    s.Reaches u a kWldWdog d (s.rd kWldWdog ||| BitVec.ofNat 64 (2 ^ 63)) → d.name = "WLD_WDOG" →
    Completes (.watchdogKick a) s fun t => t.wld = { u.wld with kicked := u.time, warned := false } ∧ t = { u with wld := t.wld, pcs := t.pcs, pending := s.pending }) ∧
  (∀ (s u : State) (a : Agent) (r : Nat) (v : Word) (d : RegDef), a.wf = true → s.stopped = false → r < 2 →
    s.Reaches u a (kSsmBankpwr r) d v → d.name = "SSM_BANKPWR" → Completes (.ssmBankpwrWrite a r v) s fun t =>
      t = { (u.wr (kSsmBankpwr r) (u.regAfter (kSsmBankpwr r) d v)).bankpwrApply ((pcsOff (kSsmBankpwr r) - 0x20) / 8)
        (u.regAfter (kSsmBankpwr r) d v) with pending := s.pending }) ∧
  (∀ (s u : State) (a : Agent) (n : Nat) (v : BitVec 8) (d : RegDef), a.wf = true → s.stopped = false → n < 12 →
    s.Reaches u a (kClkCdctl n) d (v.setWidth 64) → d.name = "CLK_CDCTL" → Completes (.targetWrite a n v) s fun t =>
      t = { (u.wr (kClkCdctl n) (u.regAfter (kClkCdctl n) d (v.setWidth 64))).pwrEval (pcsDie (kClkCdctl n)) with pending := s.pending }) ∧
  (∀ (s u : State) (a : Agent) (n : Nat) (v : BitVec 16) (d : RegDef), a.wf = true → s.stopped = false → n < 12 →
    s.Reaches u a (kPwrDctl n) d (fPwrDctl_GUARD.put (s.rd (kPwrDctl n)) v.toNat) → d.name = "PWR_DCTL" →
    Completes (.guardWrite a n v) s fun t =>
      t = { (u.wr (kPwrDctl n) (u.regAfter (kPwrDctl n) d (fPwrDctl_GUARD.put (s.rd (kPwrDctl n)) v.toNat))).pwrEval
        (pcsDie (kPwrDctl n)) with pending := s.pending }) ∧
  (∀ (s u : State) (a : Agent) (v : BitVec 16) (d : RegDef), a.wf = true → s.stopped = false →
    s.Reaches u a kPwrIodv d (fPwrDctl_GUARD.put (s.rd kPwrIodv) v.toNat) → d.name = "PWR_IODV" →
    Completes (.guardWrite a 15 v) s fun t =>
      t = { (u.wr kPwrIodv (u.regAfter kPwrIodv d (fPwrDctl_GUARD.put (s.rd kPwrIodv) v.toNat))).pwrEval railIod with pending := s.pending }) ∧
  (∀ (s u : State) (a : Agent) (off : BitVec 26) (v : Word) (d : RegDef), a.wf = true → s.stopped = false →
    0x3000 ≤ pcsOff off.toNat → pcsOff off.toNat < 0x3100 → s.Reaches u a off.toNat d v → d.name = "EVT_CNT" →
    Completes (.evtCntWrite a off v) s fun t =>
      t = { u.wr off.toNat (u.regAfter off.toNat d v) with pending := s.pending }) ∧
  -- HQEN starts queue pair 2 from its context, once the context's line has been read
  (∀ (s u : State) (a : Agent) (d : RegDef), a.wf = true → s.stopped = false → s.Reaches u a kZciCtl d 1 → d.name = "ZCI_CTL" →
    let v := u.wr kZciCtl (u.regAfter kZciCtl d 1)
    let tb := v.rd kZciQctbase
    let line := (fZciQctbase_BASE.get tb * 2 ^ 19 + 128) / 64
    (u.regAfter kZciCtl d 1).getLsbD 0 = true →
    ((v.pair 2).isSome = true → Completes (.hqenEnable a) s fun t => t = { v with pending := s.pending }) ∧
    (v.pair 2 = none → (fZciQctbase_V.on tb = false ∨ v.rangeTiered (fZciQctbase_BASE.get tb * 2 ^ 19 + 128) 64 = false) →
      Completes (.hqenEnable a) s fun t => t = { v.fput (kZciQstat 2) fZciQstat_CTXERR 1 with pending := s.pending }) ∧
    (∀ (w : State) (x : Line) (c nf : Bool), v.pair 2 = none → fZciQctbase_V.on tb = true →
      v.rangeTiered (fZciQctbase_BASE.get tb * 2 ^ 19 + 128) 64 = true →
      v.Answered w [(.rdc, uncReq Who.zci line (fZciQctbase_KEYID.get tb) false)] [.reply x false c nf] →
      let w0 : Word := BitVec.ofNat 64 (lineField x 0 8)
      let q := bitsOf w0 4 4
      let sq := lineField x 8 8
      let rq := lineField x 16 8
      w0.getLsbD 0 = true → 4 ≤ q → q ≤ 12 → sq % (64 * 2 ^ q) = 0 → rq % (32 * 2 ^ q) = 0 →
      w.rangeTiered sq (64 * 2 ^ q) = true → w.rangeDaylight sq (64 * 2 ^ q) = true →
      w.rangeTiered rq (32 * 2 ^ q) = true → w.rangeDaylight rq (32 * 2 ^ q) = true →
      Completes (.hqenEnable a) s fun t => t = { w.setPair 2 (t.pair 2) with pending := s.pending } ∧
        ∃ p, t.pair 2 = some p ∧ p.st = 1 ∧ p.head = 0 ∧ p.tail = 0 ∧ p.qlog = q ∧ p.sq = sq ∧ p.rq = rq ∧
          p.vec = bitsOf w0 16 16 ∧ p.key = bitsOf w0 32 14 ∧ p.ie = w0.getLsbD 8)) ∧
  (∀ (s u : State) (a : Agent) (d : RegDef), a.wf = true → s.stopped = false → s.Reaches u a kZciCtl d 0 → d.name = "ZCI_CTL" →
    (u.regAfter kZciCtl d 0).getLsbD 0 = false →
    Completes (.hqenDisable a) s fun t =>
      t = { (u.wr kZciCtl (u.regAfter kZciCtl d 0)).stopPair 2 hqenId with pending := s.pending }) ∧
  (∀ (s : State) (a : Agent) (d : RegDef), a.wf = true → s.stopped = false → a ≠ .device →
    regDefAt kSsmCtl = some d → d.name = "SSM_CTL" → s.pcsAdmits a kSsmCtl = true → s.pcsTested kSsmCtl = false →
    Completes (.ssmCtlLock a) s fun t => t = s.wr kSsmCtl (d.written (s.pcsLocked kSsmCtl d) (s.rd kSsmCtl) (BitVec.ofNat 64 (2 ^ 63))
      (0xFFFFFFFF#64 <<< 32)))

/-- Device requests, interrupt messages and doorbells (R148, R149, R196, R197, R356, R357, R388, R391). An interrupt-
window write of vector v sets bit v of the core's pending vectors and no other. A device read, write or AtomicOp
that the IOTU translates reaches the home as RdC, WrF or WrP, or AtF, and a read or AtomicOp is answered with the data of
the home's reply; one marked as translated is unsupported, one without a device context is aborted and logged. An MSI that
translates into the interrupt window signals its vector. SQTAIL and RQHEAD store an index below
2^QLOG into their queue pair and no other; a larger one sets DBERR. -/
def Obligations.InboundRequestsComplete : Prop :=
  (∀ (s : State) (n v : Nat), n < 216 → 1 ≤ v → v < 256 → s.stopped = false → s.coreOut n = false →
    s.fon (kCoreId n) fCoreId_RETIRED = false →
    Completes (.interruptWindowWrite (4 * n) 4 (BitVec.ofNat 64 v)) s fun t =>
      t = s.setCore n { s.core n with ext := (t.core n).ext } ∧
      ∀ i, i < 256 → (t.core n).ext.getLsbD i = (decide (i = v) || (s.core n).ext.getLsbD i)) ∧
  -- the only request under way, translated by what the IOTU holds: its home has it
  (∀ (s : State) (d : Dma) (h k : Nat), d.wf = true → s.stopped = false → s.dmaTaken d = true → d.ats = false → s.fio.inq = [] →
    let u (e : Inbound) : State :=
      ({ s.pkgTouch 5 d.group with fio := { (s.pkgTouch 5 d.group).fio with inq := [e] } } : State).evt 15 0x48 0
    let who := Who.dma d.group
    let e (x : InKind) : Inbound := ⟨d, x, none, none⟩
    let b (x : InKind) : Inbound := ⟨d, x, some (h, k), none⟩
    (∀ data mask, (s.pkgTouch 5 d.group).IotuHit d.group d.rid d.addr.toNat 1 false h k → Completes (.dmaWrite d data mask) s fun t =>
      let p := uncStore who (h / 64) k false data (mask &&& maskAt (h % 64) d.len) false
      t = { ((u (e (.write data mask))).evt 15 (0x10 + d.group) 3).inboundOpen (b (.write data mask)) p.1 p.2 .post with pending := s.pending }) ∧
    ((s.pkgTouch 5 d.group).IotuHit d.group d.rid d.addr.toNat 0 false h k → Completes (.dmaRead d) s fun t =>
      t = { ((u (e .read)).evt 15 (0x10 + d.group) 4).inboundOpen (b .read) .rdc
        { uncReq who (h / 64) k false with offset := h % 64, size := d.len } (.port d) with pending := s.pending }) ∧
    (∀ op size operand compare, (s.pkgTouch 5 d.group).IotuHit d.group d.rid d.addr.toNat 3 false h k → Completes (.dmaAtomicop d op size operand compare) s fun t =>
      t = { (u (e (.atomic op size operand compare))).inboundOpen (b (.atomic op size operand compare)) .atf
        { uncReq who (h / 64) k false with op := op, offset := h % 64, size := size, operand := operand, compare := compare }
        (.port d) with pending := s.pending }) ∧
    (∀ (data : Word) m, (s.pkgTouch 5 d.group).IotuHit d.group d.rid d.addr.toNat 1 true h k → s.mapOf h = some m → m.kind = 3 →
      d.len = 4 → (h - m.base) % 4 = 0 → (h - m.base) / 4 < 216 → 1 ≤ data.toNat → data.toNat < 256 →
      s.coreOut ((h - m.base) / 4) = false → s.fon (kCoreId ((h - m.base) / 4)) fCoreId_RETIRED = false →
      Completes (.msiWrite d data) s fun t =>
        let w := ((u (e (.msi data))).vec ((h - m.base) / 4) data.toNat).evt 15 (0x10 + d.group) 12
        t = { w with fio := { w.fio with inq := [] }, pending := s.pending }) ∧
    -- one without a device context is aborted
    (s.fon kIotuCtl fIotuCtl_EN = false → Completes (.dmaRead d) s fun t =>
      let w := ((u (e .read)).iotuFault d.addr.toNat d.group d.rid (syn 0 0 0 0 false false)).dmaDone d 0 false 2
      t = { w with fio := { w.fio with inq := [] }, pending := s.pending })) ∧
  -- the home's answer to a read or an AtomicOp goes back to the requester
  (∀ (s : State) (d : Dma) (r : HomeReq) (k : ReqKind) (l : Line) (q c nf : Bool), k = .rdc ∨ k = .atf →
    s.deliver ⟨k, r, .port d, none⟩ (.reply l q c nf) =
      { s with out := s.out ++ [.completion d.group d.port d.rid (if k = .atf then l else BitVec.ofNat 512 (lineField l r.offset r.size)) q 0] }) ∧
  -- a request marked as translated is unsupported
  (∀ (s : State) (d : Dma), d.wf = true → s.stopped = false → s.dmaTaken d = true → d.ats = true →
    Completes (.dmaRead d) s fun t =>
      t = ((s.pkgTouch 5 d.group).evt 15 0x48 7).dmaDone d 0 false 1) ∧
  (∀ (s : State) (d : Dma) (data : Line) (mask : BitVec 64), d.wf = true → s.stopped = false → s.dmaTaken d = true → d.ats = true →
    Completes (.dmaWrite d data mask) s fun t => t = (s.pkgTouch 5 d.group).evt 15 0x48 7) ∧
  (∀ (s : State) (a : Agent) (qp : Nat) (v : BitVec 32) (p : QPair), a.wf = true → qp < 8192 → s.stopped = false →
    s.dbAdmits a qp = true → s.pair qp = some p →
    -- a queue pair that is being reset ignores both
    (p.st = 4 → Completes (.sqtail a qp v) s (fun t => t = s.evt 15 0x1C 0) ∧ Completes (.rqhead a qp v) s (fun t => t = s.evt 15 0x1C 0)) ∧
    (p.st ≠ 4 → v.toNat < 2 ^ p.qlog →
    Completes (.sqtail a qp v) s (fun t =>
      t = { (s.evt 15 0x1C 0).setPair qp (some { p with tail := v.toNat }) with pending := s.pending } ∧
      t.pair qp = some { p with tail := v.toNat } ∧ ∀ q, q ≠ qp → t.pair q = s.pair q) ∧
    Completes (.rqhead a qp v) s (fun t =>
      t = { (s.evt 15 0x1C 0).setPair qp (some { p with rqhead := v.toNat }) with pending := s.pending } ∧
      t.pair qp = some { p with rqhead := v.toNat } ∧ ∀ q, q ≠ qp → t.pair q = s.pair q))) ∧
  (∀ (s : State) (a : Agent) (qp : Nat) (v : BitVec 32) (p : QPair), a.wf = true → qp < 8192 → s.stopped = false →
    s.dbAdmits a qp = true → s.pair qp = some p → p.st ≠ 4 → 2 ^ p.qlog ≤ v.toNat →
    Completes (.sqtail a qp v) s fun t =>
      t = (s.evt 15 0x1C 0).fput (kZciQstat qp) fZciQstat_DBERR 1)

/-- The home slice is the XOR of ten 5-bit groups of the HPA (R179). For every HPA of 52 bits, the slice of its line is
the exclusive or, over k from 0 to 9, of the five bits from bit 6 + 5k. -/
def Obligations.HomeSliceOfALine : Prop :=
  ∀ hpa, hpa < 2 ^ 52 → lineSlice (hpa / 64) = (List.range 10).foldl (fun slice k => slice ^^^ ((hpa >>> (6 + 5 * k)) &&& 0x1F)) 0

/-- A request at its home is opened and snoops or answers (R178, R180, R186, R188, R191, R204, R209, R312, R426, R522).
Each of RdS, RdO, Upg, RdC, WrF, WrP, AtF, CmC, CmI, CmCI and CmZ that its home can open (the conditions on the state are
State.Opens) sends the snoops of Table 6-5 to the agents that it awaits and becomes a transaction, or, awaiting
nobody, is finished and its answer delivered, or waits for its memory; of a die or the service cores it is outstanding
until then.  One whose line has an open transaction waits behind it. A request that meets an uncorrectable error in its
directory or transaction entry takes the domain down with cause 7 and names the Element; an error in its data buffer is
Corrected, or poisons the data (Table 9-10). -/
def Obligations.HomeRequestsComplete : Prop :=
  (∀ (c : Instr) (k : ReqKind) (r : HomeReq) (s v u : State), homeReqOf c = some (k, r) → k ≠ .evc → k ≠ .evd → r.wf = true →
    r.err = none → s.stopped = false → s.down = false → s.home.lost.contains r.agent = false →
    v = (if r.agent < 12 ∨ r.agent = 16 then { s with home := { s.home with asked := s.home.asked ++ [Pend.fresh k r .msg] } } else s) →
    (v.Opens u k r →
      let p := u.begin' (Pend.fresh k r .msg)
      (p.1.await ≠ [] → Completes c s fun t =>
        t = { p.2.sendSnoops p.1 with pending := s.pending } ∧ t.transOf r.line = some p.1 ∧
        (∀ a, a ∈ p.1.await → a ∉ s.home.lost ∧ (snoopsOf k r ((u.dirFind r.line).map (·.2))).1.contains a = true)) ∧
      (p.1.await = [] → Completes c s fun t => t = { State.given (p.2.homeFinish p.1) (Pend.fresh k r .msg) with pending := s.pending })) ∧
    (s.Cacheable r.line → (r.dark = true ∨ s.ownDark (r.line * 64) = false) → s.lineHeld r.line = true → Completes c s fun t =>
      t = { v.setSlice (lineSlice r.line) { v.slice (lineSlice r.line) with
        waiting := (v.slice (lineSlice r.line)).waiting ++ [Pend.fresh k r .msg] } with pending := s.pending })) ∧
  -- an uncorrectable error in an entry takes the domain down, and names its Element
  (∀ (c : Instr) (k : ReqKind) (r : HomeReq) (s : State) (dir : Bool) (i : Nat), homeReqOf c = some (k, r) → r.wf = true →
    r.err = some (.entry dir i) → s.stopped = false → Completes c s fun t =>
      t = { s.domainDown 7 (msgType k) r.agent r.line s.sock (elem 15 ((if dir then 0xA0 else 0x80) + lineSlice r.line) 4 i)
        with pending := s.pending }) ∧
  -- an error in a data buffer is corrected, or poisons the data
  (∀ (r q : HomeReq) (s u : State) (i : Nat) (b : Bool), r.wf = true → r.err = some (.buffer i b) → s.stopped = false →
    q = { r with err := none, poison := r.poison || b } →
    u = s.raise { cls := if b then 1 else 0, kind := 0x55, element := elem 15 (0x80 + lineSlice r.line) 5 i, recovered := !b,
                  hpa := some (r.line * 64), dark := r.dark } →
    (Completes (.wrp r) s fun t => t = { u.request .wrp q with pending := s.pending }) ∧
    (Completes (.wrf r) s fun t => t = { u.request .wrf { q with mask := BitVec.allOnes 64 } with pending := s.pending }) ∧
    (Completes (.evd r) s fun t => t = { u.evictMsg q (some q.data) with pending := s.pending }))

/-- EvC and EvD at the home (R183, R190, R193, R194, R199, R209, Table 6-5). With no transaction on its line an eviction
notice of the owner is taken and answered with EvAck. Where a transaction awaits the sender, the first copy of the data
stands and EvAck is owed until the snoop answer. A notice whose data a snoop answer has already carried is only
acknowledged, and one that meets a transaction which awaits its sender no longer waits for it. A notice without an
eviction credit, and one of an agent that does not own the line, takes the domain down with cause 8. At a proxy the
notice goes on to the line's home. -/
def Obligations.EvictionNoticesComplete : Prop :=
  ∀ (s : State) (r : HomeReq) (d : Option Line), r.wf = true → r.err = none → s.stopped = false → s.down = false →
    s.home.lost.contains r.agent = false →
    let c := match d with | none => Instr.evc r | some x => Instr.evd { r with data := x }
    let w : WbEnt := ⟨r.agent, r.line, d, r.poison, r.key, r.dark, false, none⟩
    let crossed := (s.slice (lineSlice r.line)).crossed
    let down := { s.domainDown 8 (if d.isSome then 0x0D else 0x0C) r.agent r.line s.sock with pending := s.pending }
    ((∀ j, s.lineKind r.line ≠ .remote j) →
      (2 ≤ s.evCredit r.line r.agent → Completes c s fun t => t = down) ∧
      (s.evCredit r.line r.agent < 2 →
        let s1 := s.setCredit r.line r.agent (s.evCredit r.line r.agent + 1)
        -- a snoop answer has carried its data
        (crossed.contains (r.agent, r.line) = true → Completes c s fun t =>
          t = { (s1.setSlice (lineSlice r.line) { s1.slice (lineSlice r.line) with
            crossed := (s1.slice (lineSlice r.line)).crossed.erase (r.agent, r.line) }).toAgent r.agent 2 none (.evAck r.agent r.line)
              with pending := s.pending }) ∧
        (crossed.contains (r.agent, r.line) = false →
          -- no transaction: the home takes the owner's notice and acknowledges it
          (∀ k e, s.transOf r.line = none → s.dirFind r.line = some (k, e) → e.own = some r.agent → (d.isSome = true ∨ e.st = .x) →
            Completes c s fun t => t = { (s1.takeEvict w).toAgent r.agent 2 none (.evAck r.agent r.line) with pending := s.pending }) ∧
          -- an agent that does not own the line has no notice to give
          (s.transOf r.line = none → (∀ k e, s.dirFind r.line = some (k, e) → e.own ≠ some r.agent) →
            Completes c s fun t => t = down) ∧
          -- an open transaction that awaits the agent takes the data; EvAck is owed until the snoop answer
          (∀ tr, s.transOf r.line = some tr → r.agent ∈ tr.await → Completes c s fun t =>
            t.transOf r.line = some (tr.noticed d r) ∧ t.out = s.out) ∧
          -- one that has its answer is over first
          (∀ tr, s.transOf r.line = some tr → r.agent ∉ tr.await → Completes c s fun t =>
            t = { s1 with home := { s1.home with evq := s.home.evq ++ [w] } })))) ∧
    -- at a proxy it goes on to the home
    (∀ j, s.lineKind r.line = .remote j → (r.agent < 12 ∨ r.agent = 16) → Completes c s fun t =>
      t = { ({ s with home := { s.home with wbuf := s.home.wbuf ++ [w] } } : State).drainWb with pending := s.pending })

/-- An agent answers a snoop (R184, R186, R194, R195, R199, R203). SnpS, SnpI, SnpC and SnpCur to a compute die are
answered with what its caches hold (after the array error that the snoop met, if any), and dirty data also leaves as a
burst of the die's stream port; the service cores answer from their own copies; and this package, as the proxy that the
home of another socket snoops, with the copies of the dies that its entry lists, or with NONE. -/
def Obligations.SnoopsComplete : Prop :=
  ∀ (s : State) (a line : Nat) (excl : Option Nat) (err : Option ArrayErr) (k : SnpKind), line < 2 ^ 46 →
    wfErr err (fun n => n / 18 = a) = true → s.stopped = false → s.down = false →
    let c := match k with | .s => Instr.snps a line excl err | .i => .snpi a line excl err | .c => .snpc a line excl err
                          | .cur => .snpcur a line excl err
    -- a die in service, in the state after the array error that the snoop met, if any
    (∀ u x, a < 12 → s.dieOut a = false → s.home.lost.contains a = false → u = s.arraysCheck err → x = u.dieAnswer a k line excl →
      Completes c s fun t => t = { (match x.1.data with
        | some d => x.2.sendData ⟨false, a⟩ d (.answer a line x.1)
        | none => x.2.lkMessage ⟨false, a⟩ 2 1 (.answer a line x.1)) with pending := s.pending }) ∧
    -- the service cores; a snoop to the core that makes the request removes nothing
    (a = 16 → excl = none → Completes c s fun t =>
      t = { ((s.arraysCheck err).spSnoop k line).2.emit (.answer a line ((s.arraysCheck err).spSnoop k line).1) with pending := s.pending }) ∧
    (a = 16 → excl.isSome = true → Completes c s fun t =>
      t = { (s.arraysCheck err).emit (.answer a line ⟨.shared, false, none, false, 0, false⟩) with pending := s.pending }) ∧
    -- this package as a proxy
    (a = 12 + s.sock → s.sock < 4 →
      (s.dirFind line = none → (∀ w, w ∈ s.home.wbuf → w.line ≠ line) → Completes c s fun t =>
        t = s.emit (.answer a line ⟨.none, false, none, false, 0, false⟩)) ∧
      (∀ w, s.dirFind line = none → s.home.wbuf.find? (fun w => w.line = line) = some w → Completes c s fun t =>
        t = s.emit (.answer a line ⟨.none, true, w.data, w.poison, w.key, false⟩)) ∧
      (∀ key e, s.dirFind line = some (key, e) → Completes c s fun t =>
        t = { (s.proxySnoop k line excl).2.emit (.answer a line (s.proxySnoop k line excl).1) with pending := s.pending }))

/-- Snoop answers, grants, acknowledgements and waiting requests (R117, R175, R176, R180, R186, R187, R188, R190, R191,
R192, R194, R209). A snoop answer is taken into its transaction, which ends and delivers its answer once it awaits nobody.
CmpAck frees the entry of a granted transaction. EvAck frees the write-back buffer and its credit. A deferred reply
puts the line among the core's deferred demands. A grant that answers a request of this package is installed and
acknowledged. A waiting or parked request that can go on leaves its queue and is opened. An answer, a CmpAck, an EvAck, a
grant or a Def that nothing expects takes the domain down with cause 8. -/
def Obligations.HomeMessagesComplete : Prop :=
  ((∀ (s : State) (line agent : Nat) (a : SnoopAns), line < 2 ^ 46 → agent < 17 → s.stopped = false →
      s.down = false → s.home.lost.contains agent = false →
      (∀ tr, s.transOf line = some tr → agent ∈ tr.await →
        let p := s.takeAnswer tr agent a
        (p.1.await ≠ [] → Completes (.snoopAnswer line agent a) s fun t => t = { p.2 with pending := s.pending }) ∧
        (p.1.await = [] → tr.granted = false → Completes (.snoopAnswer line agent a) s fun t =>
          t = { State.given (p.2.homeFinish p.1) p.1.pend with pending := s.pending })) ∧
      ((∀ tr, s.transOf line = some tr → agent ∉ tr.await) → Completes (.snoopAnswer line agent a) s fun t =>
        t = { s.domainDown 8 (match s.transOf line with | some tr => msgType tr.kind | none => 0) agent line s.sock with pending := s.pending })) ∧
    (∀ (s : State) (agent line : Nat), agent < 17 → line < 2 ^ 46 → s.stopped = false → s.down = false →
      s.home.lost.contains agent = false →
      (∀ tr, s.transOf line = some tr → tr.granted = true → tr.req.agent = agent → Completes (.cmpack agent line) s fun t =>
        t = { s.release line with pending := s.pending }) ∧
      ((∀ tr, s.transOf line = some tr → tr.granted = false ∨ tr.req.agent ≠ agent) → Completes (.cmpack agent line) s fun t =>
        t = { s.domainDown 8 (match s.transOf line with | some tr => msgType tr.kind | none => 0) agent line s.sock with pending := s.pending })) ∧
    (∀ (s : State) (agent line : Nat), agent < 17 → line < 2 ^ 46 → s.stopped = false → s.down = false →
      s.home.lost.contains agent = false →
      (s.evCredit line agent ≠ 0 ∨ (∃ w, w ∈ s.home.wbuf ∧ w.sent = true ∧ w.agent = agent ∧ w.line = line) →
        Completes (.evack agent line) s fun t =>
          t.home.wbuf = s.home.wbuf.eraseP (fun w => decide (w.agent = agent) && decide (w.line = line)) ∧
          t.evCredit line agent = s.evCredit line agent - 1 ∧ (∀ a, a ≠ agent → t.evCredit line a = s.evCredit line a) ∧
          t = { s with home := t.home } ∧ t.home = { s.home with slices := t.home.slices, wbuf := t.home.wbuf } ∧
          t.slice (lineSlice line) = { s.slice (lineSlice line) with evUsed := (t.slice (lineSlice line)).evUsed } ∧
          ∀ n, n ≠ lineSlice line → t.slice n = s.slice n) ∧
      (s.evCredit line agent = 0 → (∀ w, w ∈ s.home.wbuf → w.sent = true → w.agent = agent → w.line ≠ line) →
        Completes (.evack agent line) s fun t => t = { s.domainDown 8 0 agent line s.sock with pending := s.pending })) ∧
    (∀ (s : State) (core line key : Nat), core < 220 → line < 2 ^ 46 → key < 16384 → s.stopped = false → s.down = false →
      (∀ p, s.askedBy core line (fun p => p.req.spec) = some p → (∀ j, s.lineKind line ≠ .remote j) →
        Completes (.defReply core line key) s fun t =>
          (t.core core).deferred = (s.core core).deferred.filter (fun p => p.1 ≠ line) ++ [(line, key)] ∧
          (∀ m, m ∈ (t.core core).caches.misses ↔ m ∈ (s.core core).caches.misses ∧ m.line ≠ line) ∧
          t.home = { s.home with asked := s.home.asked.erase p } ∧
          (∀ n, n ≠ core → t.core n = s.core n) ∧ t = { s with cores := t.cores, pcs := t.pcs, home := t.home }) ∧
      (s.askedBy core line (fun p => p.req.spec) = none → Completes (.defReply core line key) s fun t =>
        t = { s.domainDown 8 0 (coreAgent core) line s.sock with pending := s.pending })) ∧
    (∀ (s : State) (g : GrantMsg), g.wf = true → s.stopped = false → s.down = false → s.home.lost.contains (coreAgent g.core) = false →
      ((∀ j, s.lineKind g.line ≠ .remote j) →
        (∀ p, s.askedBy g.core g.line (fun p => p.kind.allocates) = some p → p.kind.allocates = true → Completes (.grant g) s fun t =>
          t = { (((s.dropAsked p).takeGrant p g).fromAgent (coreAgent g.core) none (.cmpAck (coreAgent g.core) g.line)).drainWb
            with pending := s.pending }) ∧
        (s.askedBy g.core g.line (fun p => p.kind.allocates) = none → Completes (.grant g) s fun t =>
          t = { s.domainDown 8 0 (coreAgent g.core) g.line s.sock with pending := s.pending })) ∧
      (∀ j p, s.lineKind g.line = .remote j → s.askedBy g.core g.line (fun _ => true) = some p →
        (p.kind.allocates = true → Completes (.grant g) s fun t =>
          t = { ((((s.dropAsked p).takeGrant p g).proxyGrant g (!((s.dropAsked p).missDone p).1 && !g.noFill)).emit
            (.cmpAck (12 + s.sock) g.line)).drainWb with pending := s.pending }) ∧
        (p.kind = .rdc ∨ p.kind = .atf → Completes (.grant g) s fun t =>
          t = { (s.dropAsked p).deliver p (.reply (g.data.getD 0) g.poison g.shared g.noFill) with pending := s.pending }) ∧
        (p.kind ∈ [.wrf, .wrp, .cmc, .cmi, .cmci] → Completes (.grant g) s fun t =>
          t = { (s.dropAsked p).deliver p .done with pending := s.pending })))) ∧
  ((∀ (s u : State) (n : Nat), n < 32 → s.stopped = false → s.down = false → s.retrySlice n = some u →
      Completes (.waitingRequestResume n) s fun t => t = { u with pending := s.pending }) ∧
    (∀ (s : State) (n i : Nat), n < 32 → s.stopped = false → s.down = false → s.retrySlice n = none →
      (s.resumable (s.slice n).waiting false = some i → Completes (.waitingRequestResume n) s fun t =>
        t = { s.resumeAt n i false with pending := s.pending }) ∧
      (s.resumable (s.slice n).waiting false = none → s.resumable (s.slice n).parked true = some i →
        Completes (.waitingRequestResume n) s fun t => t = { s.resumeAt n i true with pending := s.pending })) ∧
    -- a request that resumes on its line's free entry leaves its queue and is opened
    (∀ (s : State) (n i : Nat) (p : Pend), n < 32 → s.stopped = false → s.down = false → (s.slice n).trans = [] →
      s.resumable (s.slice n).waiting false = some i → (s.slice n).waiting[i]? = some p → (∀ j, s.lineKind p.req.line ≠ .remote j) →
      let v := s.setSlice n { s.slice n with waiting := (s.slice n).waiting.eraseIdx i }
      (v.homeAdmit p.kind p.req false) = (.go, v) → Completes (.waitingRequestResume n) s fun t =>
        t = { (match v.openTrans p with
          | (.ans a, u) => u.deliver p a
          | (_, u) => u) with pending := s.pending }) ∧
    (∀ (s : State), s.stopped = false → s.down = false →
      Completes .starvedRequestResume s fun t =>
        let u := s.each (List.range 32) fun s n => (s.retrySlice n).getD s
        t = { ({ u with enl := { u.enl with held := [] } } : State).each u.enl.held State.tieredOk with pending := s.pending }))

/-- Home timers, domain-down, the directory sweep and fabric completions (R203, R204, R205, R206, R207, R208, R209,
R355). In native mode a snoop, memory or request timer takes the domain down with its cause and raises FATAL; in
Cydric poison mode a snoop timer loses the die or socket, and a memory timer poisons a read or drops a write with a
Deferred record, as it does where an access or a copy of the Enlarger waits. A domain-down notice takes the domain
down; Safelight then extends DOMAIN_DOWN into XR7 once. A sweep visit serves the 16 ways of one set and moves on. A
fabric completion, or its timeout, ends the outbound request of its tag, and one without a request does nothing.
(In Cydric poison mode too the service cores' silence takes the domain down: that clause is the model's choice,
notes/assumptions/59.) -/
def Obligations.HomeTimersComplete : Prop :=
  ((∀ (s : State) (line agent : Nat) (tr : Trans), wfLine line = true → agent < 17 → s.stopped = false → s.down = false →
      s.transOf line = some tr →
      (agent ∈ tr.await → (s.fon kHaGctl fHaGctl_MODE = false ∨ agent = 16) → Completes (.snoopTimeout line agent) s fun t =>
        t = { s.domainDown 1 (msgType tr.kind) agent line s.sock with pending := s.pending } ∧ t.pins.fatal = true) ∧
      (agent ∈ tr.await → s.fon kHaGctl fHaGctl_MODE = true → agent ≠ 16 → Completes (.snoopTimeout line agent) s fun t =>
        t = { s.agentLost agent with pending := s.pending }) ∧
      (tr.await = [] → tr.granted = false → tr.fabric = false → s.fon kHaGctl fHaGctl_MODE = false →
        Completes (.memoryTimeout line) s fun t =>
          t = { s.domainDown 2 (msgType tr.kind) 0x1F line s.sock with pending := s.pending } ∧ t.pins.fatal = true) ∧
      (tr.await = [] → tr.granted = false → tr.fabric = false → s.fon kHaGctl fHaGctl_MODE = true →
        let u := (s.deferredErr 0x74 (some (line * 64)) (some tr.req.key) (s.isDark (line * 64)) 0x1F).fed line
        (tr.kind ≠ .atf → Completes (.memoryTimeout line) s fun t =>
          t = { State.given (u.homeFinish { tr with mem := some (0, true), dropped := true }) tr.pend with pending := s.pending }) ∧
        (tr.kind = .atf → Completes (.memoryTimeout line) s fun t =>
          t = { (u.closeEnd tr none (.reply 0 true false false)).2.deliver tr.pend (.reply 0 true false false) with pending := s.pending }))) ∧
    (∀ (s : State) (line : Nat), wfLine line = true → s.stopped = false → s.down = false → s.transOf line = none →
      ((∃ a, a ∈ s.enl.held ∧ a.line = line) ∨ (s.copyOf line).isSome = true) →
      (s.fon kHaGctl fHaGctl_MODE = false → Completes (.memoryTimeout line) s fun t =>
        t = { s.domainDown 2 (if (s.copyOf line).isSome then 0x0E else 0) 0x1F line s.sock with pending := s.pending } ∧ t.pins.fatal = true) ∧
      (s.fon kHaGctl fHaGctl_MODE = true → Completes (.memoryTimeout line) s fun t =>
        t = { (s.heldTimeout line).zciFlush with pending := s.pending })) ∧
    (∀ (s : State) (agent line : Nat), agent < 17 → wfLine line = true → s.stopped = false → s.down = false →
      s.asks agent line = true → Completes (.requestTimeout agent line) s fun t =>
        t = { s.domainDown 3 (match s.transOf line with | some t => msgType t.kind | none => 0) agent line s.sock with pending := s.pending } ∧
        t.pins.fatal = true) ∧
    (∀ (s : State) (j : BitVec 2), s.stopped = false → s.down = false → Completes (.domainDownNotice j) s fun t =>
      t = { s.domainDown 6 0 (12 + j.toNat) 0 j.toNat with pending := s.pending } ∧ t.pins.fatal = true) ∧
    (∀ (s : State), s.stopped = false → s.down = true → s.boot.sp0Up = true →
      s.boot.log.any (fun l => l.bytes.take 2 = [0x0A, 0]) = false →
      Completes .domainDownExtension s fun t =>
        t = { s.extend 0x0A 7 (leBytes 8 (s.rd kHaDdrec0).toNat ++ (leBytes 8 (s.rd kHaDdrec1).toNat ++ leBytes 8 (s.rd kHaDdrec2).toNat))
          with pending := s.pending })) ∧
  ((∀ (s : State) (n : Nat), n < 32 → s.stopped = false → s.down = false → (s.slice n).passes ≠ 0 →
      let u := (((s.home.dir.filter fun p => decide ((n * 32768 + (s.slice n).sweep) * 16 ≤ p.1 ∧
        p.1 < (n * 32768 + (s.slice n).sweep) * 16 + 16)).map (·.2.line)).foldl (fun s l => (s.clearLost l).snoopLost l) (s.evt 15 (0xA0 + n) 4))
      Completes (.sweepSetVisit n) s fun t =>
        t.slice n = (if (u.slice n).sweep = 32767 then { u.slice n with sweep := 0, passes := (u.slice n).passes - 1 }
          else { u.slice n with sweep := (u.slice n).sweep + 1 }) ∧
        (∀ m, m ≠ n → t.slice m = u.slice m) ∧ t.home.dir = u.home.dir ∧ t.media = u.media ∧
        (t.fget kHaGstat fHaGstat_SWEEP = 1 ↔ ∃ p, p ∈ t.home.slices ∧ p.2.passes ≠ 0)) ∧
    (∀ (s : State) (tag : Nat) (data : Line) (err : Bool) (o : FabOut), s.stopped = false → s.fabOut tag = some o →
      Completes (.fabricCompletion tag data err) s (fun t => t = { s.fabEnd o data err with pending := s.pending }) ∧
      Completes (.fabricCompletionTimeout tag) s (fun t => t = { (s.evt 15 0x18 5).fabEnd o 0 true with pending := s.pending })) ∧
    (∀ (s : State) (tag : Nat) (data : Line) (err : Bool), s.stopped = false → s.fabOut tag = none →
      Completes (.fabricCompletion tag data err) s fun t => t = s))

/-- Flits at a link end (R215, R216, R219, R220, R223, R246, R565). A flit whose CRC fails is counted and answered with
NAK; one of a reserved type has its header taken and retrains the link; a NULL flit has its header taken; NAK
acknowledges up to its sequence number and replays from it, unless it names a flit of the replay in progress; a
duplicate is counted and discarded; a sequenced flit that leaves a gap, and one that Agitation discards, is answered
with NAK; an accepted PROT flit is counted and answered with PM_NAK where a power request was under way. -/
def Obligations.FlitsAreReceived : Prop :=
  ∀ (s : State) (e : LinkEnd) (f : Flit), e.wf = true → s.stopped = false → s.lkUp e = true →
    let v := s.lkHeader e (headerOf f)
    let typ := hdr (headerOf f) 60 4
    let seq := hdr (headerOf f) 48 12
    (crcOk f = false → Completes (.flitCrcFailure e f) s fun t =>
      t = { (s.evtL e 3 1).sendNak e with pending := s.pending }) ∧
    (crcOk f = true → 3 < typ → Completes (.reservedTypeFlit e f) s fun t =>
      t = { v.retrain e.link false with pending := s.pending }) ∧
    (crcOk f = true → typ = 0 → Completes (.nullFlit e f) s fun t => t = { v with pending := s.pending }) ∧
    (crcOk f = true → typ = 2 → Completes (.nak e f) s fun t =>
      let w := v.lkAck e ((seq + 4095) % 4096)
      t = { (if (w.lk e).inReplay seq then w else w.replayFrom e seq) with pending := s.pending }) ∧
    -- a sequenced flit that is not the one expected, and one that Agitation discards
    (crcOk f = true → typ = 1 → ∀ b w, v.agtNak e = (b, w) →
      (b = false → seq ≠ (v.lk e).expect → ((v.lk e).expect + 4096 - seq - 1) % 4096 < 2048 → Completes (.prot e f) s fun t =>
        t = { w.evtL e 6 1 with pending := s.pending }) ∧
      (b = false → seq ≠ (v.lk e).expect → 2048 ≤ ((v.lk e).expect + 4096 - seq - 1) % 4096 → Completes (.prot e f) s fun t =>
        t = { w.sendNak e with pending := s.pending }) ∧
      (b = true → seq = (v.lk e).expect → Completes (.prot e f) s fun t =>
        t = { (w.setLk e { v.lk e with nakFor := none }).sendNak e with pending := s.pending })) ∧
    -- one that is accepted
    (typ = 1 → ∀ u, s.Accepts u e f →
      (((u.evtL e 2 1).lk e).pmSent = false → ((u.evtL e 2 1).lk e).pmOk = false →
        Completes (.prot e f) s fun t => t = { u.evtL e 2 1 with pending := s.pending }) ∧
      (((u.evtL e 2 1).lk e).pmSent = true ∨ ((u.evtL e 2 1).lk e).pmOk = true →
        Completes (.prot e f) s fun t =>
          t = { ((u.evtL e 2 1).setLk e { (u.evtL e 2 1).lk e with pmSent := false, pmOk := false }).sendCtl e 8
            with pending := s.pending }))

/-- Control flits at a link end (R227, R228, R236, R237, R246, notes/assumptions/26). An accepted AUDIT adds the shared
deficit to SHDEF, sets RESDEF for every class with a reserved deficit and retrains where R228 says so. WIDTH_REQ,
WIDTH_ACK, WIDTH_WITHDRAW and MAPSWITCH run the width change, and where both ends have asked the IOD's request
stands. PM_REQ, PM_ACK and PM_NAK run the entry to LP2. (The payload encodings are the model's: log 26.) -/
def Obligations.LinkControlFlitsComplete : Prop :=
  ∀ (s u : State) (e : LinkEnd) (f : Flit), e.wf = true → s.stopped = false → s.Accepts u e f →
    let x := u.lk e
    (∀ (shared : BitVec 32) (reserved : List (BitVec 32)), isCtl f 5 = true → Completes (.audit e f shared reserved) s fun t =>
      let v := (((u.setLk e { x with gotSh := shared.toNat, gotRes := (List.range 5).map fun c => (reserved.getD c 0).toNat }).fadd
        (kSclCredit e) fSclCredit_SHDEF (deficit shared x.gotSh)).evtL e 7 1).evtL e 8 (deficit shared x.gotSh)
      let bad := (List.range 5).filter fun c => decide (deficit (reserved.getD c 0) (x.gotRes.getD c 0) ≠ 0)
      let w := v.fput (kSclCredit e) fSclCredit_RESDEF (bad.foldl (fun m c => m ||| 2 ^ c) (v.fget (kSclCredit e) fSclCredit_RESDEF))
      t = { (if !bad.isEmpty || decide (w.fget (kSclCtl e) fSclCtl_LEAKRT ≠ 0 ∧
        w.fget (kSclCredit e) fSclCredit_SHDEF ≥ w.fget (kSclCtl e) fSclCtl_LEAKRT) then w.retrain e.link false else w)
        with pending := s.pending }) ∧
    (∀ m : Masks, isCtl f 1 = true →
      (x.width = 0 → Completes (.widthReq e f m) s fun t =>
        t = { (((u.lkMsg e 12 m.up m.down).setLk e { x with width := 2 }).setLkState e 4).sendWidth e 2 with pending := s.pending }) ∧
      (x.width = 1 → e.iod = false → Completes (.widthReq e f m) s fun t =>
        t = { (((((u.lkMsg e 12 m.up m.down).setLk e { x with width := 2, recheck := true }).sendCtl e 3).lkMsg e 13
          (BitVec.ofNat 64 x.reqSeq) 0).sendWidth e 2) with pending := s.pending }) ∧
      (x.width = 1 → e.iod = true → Completes (.widthReq e f m) s fun t =>
        t = { u.lkMsg e 12 m.up m.down with pending := s.pending })) ∧
    (∀ m : Masks, isCtl f 2 = true → x.width = 1 → Completes (.widthAck e f m) s fun t =>
      t = { (u.lkMsg e 12 m.up m.down).setLk e { x with width := 2 } with pending := s.pending }) ∧
    (∀ q : BitVec 12, isCtl f 3 = true → Completes (.widthWdraw e f q) s fun t =>
      t = { u with out := u.out ++ [.linkMsg e.iod e.link 14 (q.setWidth 64) 0], pending := s.pending }) ∧
    (isCtl f 4 = true → x.width ≠ 0 → Completes (.mapswitch e f) s fun t =>
      t = { (u.setLk e { x with switched := true }).widthEnd e with pending := s.pending }) ∧
    (isCtl f 6 = true →
      (x.pmSent = true → Completes (.pmReq e f) s fun t =>
        t = { (u.setLk e { x with pmOk := true }).lp2Try e with pending := s.pending }) ∧
      (x.pmSent = false → u.lkIdle e = true → Completes (.pmReq e f) s fun t =>
        t = { ((u.setLk e { x with pmOk := true }).sendCtl e 7).lp2Try e with pending := s.pending }) ∧
      (x.pmSent = false → u.lkIdle e = false → Completes (.pmReq e f) s fun t =>
        t = { u.sendCtl e 8 with pending := s.pending })) ∧
    (isCtl f 7 = true → x.pmSent = true → Completes (.pmAck e f) s fun t =>
      t = { (u.setLk e { x with pmOk := true }).lp2Try e with pending := s.pending }) ∧
    (isCtl f 8 = true → Completes (.pmNak e f) s fun t =>
      t = { u.setLk e { x with pmSent := false, pmOk := false } with pending := s.pending })

/-- Training, retraining and loss of lock (R34, R36, R40, R218, R229, R230, R231, R233, R235, R237, R238, R239).
FULL_TRAINING puts both ends into training with everything of the link reset but the maps that R235 compares with; a
detect pattern at an active IOD end ends the die's transactions and starts it; a training timeout outside the boot
window takes the link down; loss of lock starts a retrain, regained lock ends the loss, its timeout takes the link
down. TRAINING_COMPLETE with usable maps and equal widths makes both ends ACTIVE, and what waited goes on; after full
training the capability exchange is done too and the die is released. A rejected or changed capability word, a map of no
lane and a third unequal width take the link down, and a die that trains after the set is fixed is retired. -/
def Obligations.LinkTrainingComplete : Prop :=
  (∀ (s : State) (e : LinkEnd), e.wf = true → s.stopped = false → s.lkState e ≠ 1 → s.fon (kSclSplit e.link) fSclSplit_LOCK = true →
    (s.lk ⟨true, e.link⟩).dead = false → (s.unit e.link 0xFF).st ≠ .retired → Completes (.fullTraining e) s fun t =>
      t.lkState ⟨true, e.link⟩ = 1 ∧ t.lkState ⟨false, e.link⟩ = 1 ∧
      (∀ i, t.lk ⟨i, e.link⟩ = { LinkSt.reset with mapUp := (s.lk ⟨i, e.link⟩).mapUp, mapDn := (s.lk ⟨i, e.link⟩).mapDn }) ∧
      t = { s with pcs := t.pcs, links := t.links, out := t.out } ∧
      t.out = s.out ++ [.linkMsg true e.link 1 0 0, .linkMsg false e.link 1 0 0]) ∧
  (∀ (s : State) (e : LinkEnd), e.wf = true → s.stopped = false → e.iod = true → (s.lkState e = 2 ∨ s.lkState e = 4) →
    Completes (.trainingPatternDetect e) s fun t => t = { (s.dieGone e.link).fullTrain e.link with pending := s.pending }) ∧
  (∀ (s : State) (e : LinkEnd), e.wf = true → s.stopped = false → s.boot.windowOpen = false → (s.lkState e = 1 ∨ s.lkState e = 3) →
    Completes (.trainingTimeout e) s fun t => t = { s.linkDown e.link false with pending := s.pending }) ∧
  (∀ (s : State) (e : LinkEnd), e.wf = true → s.stopped = false → s.lkState e ≠ 0 → s.lkAsleep e = false →
    Completes (.lockLoss e) s fun t =>
      t = { (s.setLk e { s.lk e with lockLost := true }).retrain e.link false with pending := s.pending }) ∧
  (∀ (s : State) (e : LinkEnd), e.wf = true → s.stopped = false → (s.lk e).lockLost = true →
    Completes (.lockRegained e) s (fun t =>
      t = { (s.setLk e { s.lk e with lockLost := false }).retrain e.link false with pending := s.pending }) ∧
    Completes (.lockTimeout e) s (fun t => t = { s.linkDown e.link false with pending := s.pending })) ∧
  (∀ (s : State) (n : Nat) (tr : Training), n < 12 → s.stopped = false →
    let v := s.trained n tr
    let old := (s.mapHeld n true, s.mapHeld n false)
    -- a retrain ends: the masks, the widths, both ends active, and what waited goes on
    (s.lkState ⟨true, n⟩ = 3 → v.mapNow n true ≠ [] → v.mapNow n false ≠ [] → tr.equal = true →
      let u := (v.setMaps n old).trainEnd n false
      u.lkState ⟨true, n⟩ = 2 ∧ u.lkState ⟨false, n⟩ = 2 ∧
      Completes (.trainingComplete n tr) s fun t => t = { u.trainGo n with pending := s.pending }) ∧
    -- full training ends: the capability exchange too, and the die is released
    (s.lkState ⟨true, n⟩ = 1 → v.capCheck n tr.capWord = 0 → v.mapNow n true ≠ [] → v.mapNow n false ≠ [] → tr.equal = true →
      let u := ((v.takeCaps n tr.capWord).setMaps n old).trainEnd n true
      u.lkState ⟨true, n⟩ = 2 ∧ u.lkState ⟨false, n⟩ = 2 ∧
      Completes (.trainingComplete n tr) s fun t => t = { (u.trainGo n).releaseDie n with pending := s.pending }) ∧
    -- the capability word is rejected, has changed, or comes after the set is fixed
    (s.lkState ⟨true, n⟩ = 1 →
      (v.capCheck n tr.capWord = 1 → Completes (.trainingComplete n tr) s fun t =>
        t = { v.linkDown n true with pending := s.pending }) ∧
      (v.capCheck n tr.capWord = 2 → Completes (.trainingComplete n tr) s fun t =>
        t = { (v.raise { cls := 2, kind := 0x22, agent := n, syn0 := v.rd (kSclPeercap n), syn1 := tr.capWord }).linkDown n true
          with pending := s.pending }) ∧
      (v.capCheck n tr.capWord = 3 → Completes (.trainingComplete n tr) s fun t => t = { v.cdLate n with pending := s.pending })) ∧
    -- no lane is left, or the ends' widths differ
    (s.lkState ⟨true, n⟩ = 3 →
      (v.mapNow n true = [] ∨ v.mapNow n false = [] → Completes (.trainingComplete n tr) s fun t =>
        t = { v.linkDown n false with pending := s.pending }) ∧
      (v.mapNow n true ≠ [] → v.mapNow n false ≠ [] → tr.equal = false → 2 ≤ (v.lk ⟨true, n⟩).unequal →
        Completes (.trainingComplete n tr) s fun t => t = { v.linkDown n false with pending := s.pending }) ∧
      (v.mapNow n true ≠ [] → v.mapNow n false ≠ [] → tr.equal = false → (v.lk ⟨true, n⟩).unequal < 2 →
        Completes (.trainingComplete n tr) s fun t =>
          t = { v.setLk ⟨true, n⟩ { v.lk ⟨true, n⟩ with unequal := (v.lk ⟨true, n⟩).unequal + 1 } with pending := s.pending })))

/-- Link timers, audits, low power and bursts (R222, R223, R227, R236, R240, R241, R243, R244, R245, R246, R247,
notes/assumptions/27). A replay timeout replays from the oldest unacknowledged flit; an audit sends the credit
counts; a drained replay buffer continues a width change; LP1 and LP2 are entered under their conditions; the wake
pattern wakes the die or the link. A burst with the right CRC and USE is accepted once, its lines are buffered, SBA
answers it and USE advances; a bad one, or the timer of a tag that a slot has named, is answered with SBR; SBR sends the
burst again, and after two the data goes as DAT messages and the stream is disabled and recorded. -/
def Obligations.LinkEventsComplete : Prop :=
  (∀ (s : State) (e : LinkEnd), e.wf = true → s.stopped = false →
      (∀ f l, s.lkUp e = true → (s.lk e).replay = f :: l → Completes (.replayTimeout e) s fun t =>
        t = { s.replayFrom e f.seq with pending := s.pending }) ∧
      (s.lkUp e = true → Completes (.auditSend e) s fun t => t = { s.sendCtl e 5 with pending := s.pending } ∧
        -- an end that may send does so, and the counts leave with the flit
        ((s.lk e).queue = [] → (s.lk e).replay.length < 256 → (s.lk e).resend = [] → ∃ f : Flit, t.out = s.out ++
          .flit e.iod e.link f :: .linkMsg e.iod e.link 10 5 (BitVec.ofNat 64 (t.lk e).sentSh) ::
          (List.range 5).map (fun c => .linkMsg e.iod e.link 10 (BitVec.ofNat 64 c) (BitVec.ofNat 64 ((t.lk e).sentRes.getD c 0))))) ∧
      ((s.lk e).width = 2 → (s.lk e).replay = [] → s.lkUp e = true → Completes (.replayBufferDrained e) s fun t =>
        t = { ((s.setLk e { s.lk e with width := 3 }).sendCtl e 4).widthEnd e with pending := s.pending }) ∧
      (s.lkIdle e = true → (s.lk e).pmSent = false → (s.lk e).pmOk = false → Completes (.lp2Idle e) s fun t =>
        t = { (s.setLk e { s.lk e with pmSent := true }).sendCtl e 6 with pending := s.pending }) ∧
      (s.lkUp e = true → s.fon (kSclPm e) fSclPm_LP1EN = true → (s.lk e).lp1 = false →
        s.fget (kSclStat e) (if e.iod then fSclStat_PDN else fSclStat_PUP) < s.fget (kSclStat e) (if e.iod then fSclStat_WDN else fSclStat_WUP) →
        Completes (.lp1Entry e) s fun t =>
          t = ((s.setLk e { s.lk e with lp1 := true }).showLp1 e.link).lkMsg e 7 1 0 ∧ t.fget (kSclStat e) fSclStat_PWR = 1) ∧
      (s.dstate e.link ≠ 0 → s.parked e.link = false → s.dieOut e.link = false → Completes (.wakePattern e) s fun t =>
        let u := s.dieRouse e.link [(4, e.link)]
        t = { (if u.linkActive e.link && u.lkAsleep e then u.retrain e.link false else u) with pending := s.pending }) ∧
      (s.dstate e.link = 0 → s.linkActive e.link = true → s.lkAsleep e = true →
        Completes (.wakePattern e) s fun t => t = { s.retrain e.link false with pending := s.pending })) ∧
  (∀ (s : State) (e : LinkEnd), e.wf = true → s.stopped = false →
      (∀ b : BurstMsg, s.lkUp e = true → b.tag.toNat < 64 → crc32p (BurstBytes b) ≠ b.crc → Completes (.burst e b) s fun t =>
        t = { (s.evtL e 10 1).lkMsg e 6 (BitVec.ofNat 64 b.tag.toNat) 0 with pending := s.pending }) ∧
      (∀ b : BurstMsg, s.lkUp e = true → b.tag.toNat < 64 → crc32p (BurstBytes b) = b.crc → 1 ≤ b.lines.length → b.lines.length ≤ 32 →
        b.use.toNat = SMap.get (fun _ => 0) (s.lk e).rxUse b.tag.toNat → Completes (.burst e b) s fun t =>
          t = { s with links := t.links, out := s.out ++ [.linkMsg e.iod e.link 2 (BitVec.ofNat 64 b.tag.toNat) 0] } ∧
          t.lk e = { s.lk e with rxUse := (t.lk e).rxUse, rxBuf := (t.lk e).rxBuf,
                                 rxOpen := (s.lk e).rxOpen.filter (fun o => o ≠ b.tag.toNat) } ∧
          SMap.get (fun _ => 0) (t.lk e).rxUse b.tag.toNat = (b.use.toNat + 1) % 16 ∧
          SMap.get (fun _ => []) (t.lk e).rxBuf b.tag.toNat = b.lines ∧
          (∀ g, g ≠ b.tag.toNat → SMap.get (fun _ => 0) (t.lk e).rxUse g = SMap.get (fun _ => 0) (s.lk e).rxUse g ∧
            SMap.get (fun _ => []) (t.lk e).rxBuf g = SMap.get (fun _ => []) (s.lk e).rxBuf g) ∧
          ∀ f, endKey f ≠ endKey e → t.lk f = s.lk f) ∧
      (∀ g : BitVec 6, s.lkUp e = true →
        ((s.lk e).rxOpen.contains g.toNat = true → Completes (.burstTimeout e g) s fun t =>
          t = { (s.evtL e 10 1).lkMsg e 6 (g.setWidth 64) 0 with pending := s.pending }) ∧
        ((s.lk e).rxOpen.contains g.toNat = false → Completes (.burstTimeout e g) s fun t => t = s)) ∧
      (∀ g : BitVec 6, Completes (.sba e g) s fun t =>
        t = { s with links := t.links } ∧ (∀ f, endKey f ≠ endKey e → t.lk f = s.lk f) ∧ t.lk e = { s.lk e with tags := (t.lk e).tags } ∧
        ∀ u, u ∈ (t.lk e).tags ↔ u ∈ (s.lk e).tags ∧ u.tag ≠ g.toNat) ∧
      (∀ (g : BitVec 6) (u : TagUse), (s.lk e).tags.find? (fun u => u.tag = g.toNat) = some u →
        let v := s.setLk e { s.lk e with tags := (s.lk e).tags.map fun (v : TagUse) => if v.tag = u.tag then { v with asked := v.asked + 1 } else v }
        (u.asked < 2 → Completes (.sbr e g) s fun t =>
          t = v.emit (.burst e.iod e.link u.tag u.use u.lines
              (crc32p (BurstBytes ⟨BitVec.ofNat 8 u.tag, BitVec.ofNat 8 u.use, u.lines, 0⟩)))) ∧
        (u.asked = 2 → Completes (.sbr e g) s fun t =>
          let f := if e.iod then fSclStat_STRDISDN else fSclStat_STRDISUP
          let w := (v.fput (kSclStat e) f 1).fput (kSclStat (otherEnd e)) f 1
          t = { u.lines.foldl (fun s d => s.lkMessage e 3 5 (.burstData e.iod e.link d))
            (w.raise { cls := 0, kind := 0x23, agent := e.link, recovered := true, counts := false,
                       syn0 := w.rd (kSclUpmask ⟨true, e.link⟩), syn1 := w.rd (kSclDnmask ⟨true, e.link⟩) }) with pending := s.pending })))

/-- The end of the compute-die phase fixes the effective capability (R33, R36, R37, R41, R458). At the end of the phase
MGT_EFFCAP, where it is not yet fixed for this cold boot, becomes the AND of the fused IOD word, the platform's mask
and the words of the links that trained (PKG_FEAT), and of their link features (LINK_FEAT); no other register
changes with it, and it is sent over every Sceuc-X link that has trained; every die that is late is retired for the
boot. Where it was fixed already it does not change. -/
def Obligations.ComputeDiePhaseEnds : Prop :=
  ∀ (s : State), s.stopped = false → s.boot.windowOpen = true → s.boot.cdPhase = true →
    (s.boot.effFixed = true →
      let up := (List.range 12).filter fun n => s.linkActive n || decide (s.lkState ⟨true, n⟩ = 3)
      let late := (List.range 12).filter fun n => !up.contains n && decide ((s.unit n 0xFF).st ≠ .retired ∧ (s.unit n 0xFF).st ≠ .lost)
      Completes .computeDiePhaseEnd s fun t =>
        t = { late.foldl State.cdLate ({ s with boot := { s.boot with cdPhase := false } } : State) with pending := s.pending }) ∧
    (s.boot.effFixed = false →
      let up := (List.range 12).filter fun n => decide (s.rd (kSclPeercap n) ≠ 0)
      let late := (List.range 12).filter fun n => !up.contains n &&
        decide ((s.unit n 0xFF).st ≠ .retired ∧ ((s.unit n 0xFF).st ≠ .lost ∨ (s.unit n 0xFF).sticky = false))
      let u := ({ s with boot := { s.boot with cdPhase := false } } : State).fixCaps up
      u = { s with pcs := u.pcs, boot := { s.boot with cdPhase := false, effFixed := true } } ∧
      (∀ k, k ≠ kMgtEffcap → u.rd k = s.rd k) ∧ fSclPeercap_FORMAT.get (u.rd kMgtEffcap) = 1 ∧
      fSclPeercap_PKG_FEAT.get (u.rd kMgtEffcap) = up.foldl (fun a n => a &&& fSclPeercap_PKG_FEAT.get (s.rd (kSclPeercap n)))
        (fSclPeercap_PKG_FEAT.get s.fuses.iodWord &&& fSclPeercap_PKG_FEAT.get (s.rd kMgtCapmask)) ∧
      fSclPeercap_LINK_FEAT.get (u.rd kMgtEffcap) = up.foldl (fun a n => a &&& fSclPeercap_LINK_FEAT.get (s.rd (kSclLinkcap n)))
        (fSclPeercap_LINK_FEAT.get s.fuses.iodWord) ∧
      Completes .computeDiePhaseEnd s fun t =>
        t = { late.foldl State.cdLate ({ u with out := s.out ++ s.xTrained.map (fun g => .socketMsg g 1 (u.rd kMgtEffcap) 0) } : State)
          with pending := s.pending })

/-- The steps of moves, compressions and rekeys (R260, R261, R262, R263, R264, R265, R266, R268, R276, R298, R299, R302). A
line of an uncompressed move is copied ciphertext, seal and all, and the frame switches with its last line (with poison
where the copy's parity fails); a move whose destination is lost is abandoned; a line of a compressing move is staged; a
rekeyed line is opened under OLD and sealed under KEY in its place; a rekeyed blob likewise; a unit copy moves the
blob; a decompression produces its next line, poisoned from the first on where the blob's check failed; a compression
completes once every line is staged, with a blob or, where it does not fit, without; a source frame whose accesses
are over is freed. -/
def Obligations.MoveStepsComplete : Prop :=
  ∀ (s : State) (n line : Nat) (x : Slot), n < 64 → line < 64 → s.stopped = false → s.down = false → SMap.find s.enl.slots n = some x →
    let e := s.ent x.frame
    let dark := s.isDark (x.frame <<< 12)
    let y : Slot := { x with moved := x.moved ||| BitVec.ofNat 64 (2 ^ line) }
    let last (u : State) : State := if y.moved = BitVec.allOnes 64 then u.switchCopy n y else u
    let open' := x.draining = false ∧ x.closed = false ∧ x.moved.getLsbD line = false ∧ s.lineBusy (x.frame * 64 + line) = false
    -- a line of a move is copied as it stands in its source, seal and all
    (open' → x.kind = .copy → s.dstGone x = false →
      Completes (.migrationCopy n line false) s (fun t =>
        t = { (last ((s.mediaWrite (keyTier x.dst) (keyMa x.dst + line * 64)
          (s.mediaRead (keyTier x.src) (keyMa x.src + line * 64))).setSlot n y)).zciFlush with pending := s.pending }) ∧
      Completes (.migrationCopy n line true) s fun t =>
        t = { (last ((((s.mediaWrite (keyTier x.dst) (keyMa x.dst + line * 64) ⟨0, none, true⟩).evtW dark 0x50 27).raise
          { cls := 1, kind := 0x43, hpa := some (x.frame * 4096 + line * 64), dark := dark }).setSlot n y)).zciFlush with pending := s.pending }) ∧
    (open' → x.kind = .copy → s.dstGone x = true →
      ∀ b, Completes (.migrationCopy n line b) s fun t => t = { (s.abandonSlot n x .aborted).zciFlush with pending := s.pending }) ∧
    -- a line of a compressing move is staged
    (∀ p, open' → x.kind = .compress p → Completes (.migrationCopy n line false) s fun t =>
      t = { (s.setSlot n { y with
        staging := SMap.set y.staging line ⟨(s.getLine x.src (x.frame * 64 + line) e.fkey).1, (s.getLine x.src (x.frame * 64 + line) e.fkey).2, false⟩
        closed := decide (y.moved = BitVec.allOnes 64) }).zciFlush with pending := s.pending }) ∧
    (x.draining = true → (∀ r, x.kind ≠ .rekey r ∧ x.kind ≠ .rekeyBlob r) → (∀ p, p ∈ s.fio.t1 → p.k ≠ x.src) →
      Completes (.sourceFrameFree n) s fun t =>
        t = { (((s.freeFrame x.src).delSlot n).unframeRegion (x.frame / 512)).zciFlush with pending := s.pending }) ∧
    -- a line of a rekey slot is opened under OLD and written to the same place under KEY
    (∀ r, x.kind = .rekey r → x.draining = false → x.moved.getLsbD line = false → s.lineBusy (x.frame * 64 + line) = false →
      let c := s.ctx e.fkey
      let a := keyMa e.mediaOf + line * 64
      let d := (s.mediaRead (keyTier e.mediaOf) a).opened (c.seal' false ((x.frame * 64 + line) * 64))
      let u := s.mediaWrite (keyTier e.mediaOf) a ⟨d.1, some (c.seal' true ((x.frame * 64 + line) * 64)), d.2⟩
      let v := (u.setSlot n y).evtW (u.isDark (x.frame <<< 12)) 0x52 6
      Completes (.rekeyTransaction n line) s fun t =>
        t = { (if y.moved = BitVec.allOnes 64 then v.rekeyDone n r y false else v).zciFlush with pending := s.pending }) ∧
    (∀ r b, x.kind = .rekeyBlob r → x.draining = false → s.blob e.pool e.unit = some b →
      let c := s.ctx e.fkey
      let b' : Blob := { b with bad := b.bad || decide (b.sealed ≠ c.seal' false (2 ^ 127 + x.frame * 4096)),
                                sealed := c.seal' true (2 ^ 127 + x.frame * 4096) }
      let u : State := { s with blobs := SMap.set s.blobs (blobKey e.pool e.unit) b' }
      Completes (.blobRekeyComplete n) s fun t =>
        t = { ((u.evtBy 15 0x52 2 e.units).rekeyDone n r x true).zciFlush with pending := s.pending }) ∧
    (x.kind = .unitCopy → x.draining = false → s.dstGone x = false →
      let b := s.blob e.pool e.unit
      let u := s.freeUnits e.pool e.unit e.units
      let v : State := match b with
        | some b => { u with blobs := SMap.set u.blobs x.dst { b with bad := b.bad || s.mediaDead e.pool (e.unit * 512) } }
        | none => u
      let w := ((v.putEnt x.frame { e with pool := x.dst >>> 40, unit := x.dst % 2 ^ 40, move := false }).delSlot n).evt 15 0x50 13
      Completes (.unitCopyComplete n) s fun t =>
        t = { ((if x.evac then w.evt 15 0x50 18 else w).cmdCount x.cmd .moved true).zciFlush with pending := s.pending }) ∧
    (∀ i, x.kind = .decompress → s.dstGone x = false → (List.range 64).find? (fun i => !x.moved.getLsbD i) = some i →
      Completes (.decompressedLine n false) s (fun t =>
        t = { ((s.produce n x i).2.switchDecomp n (s.produce n x i).1).zciFlush with pending := s.pending }) ∧
      (x.moved = 0 → x.bad = false →
        let p := (s.blobFailed x.frame e).produce n { x with bad := true } i
        Completes (.decompressedLine n true) s fun t => t = { (p.2.switchDecomp n p.1).zciFlush with pending := s.pending })) ∧
    -- the lines of a compressing move make a blob of its units, or the move ends without success
    (∀ p, x.kind = .compress p → x.closed = true → x.draining = false →
      let v := s.evtW dark 0x51 4
      let size := Config.blobPayload x.lines
      let units := ceilDiv (16 + size) 512
      (3568 < size → Completes (.compressionComplete n) s fun t =>
        t = { (((v.evtW dark 0x50 11).evtW dark 0x51 12).endCompress n x { e with incomp := true } .incomp).zciFlush with pending := s.pending }) ∧
      (size ≤ 3568 → (v.atQuota p (groupOf e.fkey) = true ∨ v.allocUnits p units x.frame = none) →
        Completes (.compressionComplete n) s fun t => t = { (v.endCompress n x e .nospace).zciFlush with pending := s.pending }) ∧
      (∀ u w, size ≤ 3568 → v.atQuota p (groupOf e.fkey) = false → v.allocUnits p units x.frame = some (u, w) →
        let b : Blob := { lines := x.lines, poison := x.pmap, units := units, sealed := w.blobSeal e.fkey x.frame, bad := false }
        let z := ({ w with blobs := SMap.set w.blobs (blobKey p u) b } : State).putEnt x.frame
          { e with tier := 2, unit := u, units := units, pool := p, move := false, incomp := false }
        Completes (.compressionComplete n) s fun t =>
          t = { (((((z.useMedia x.src (some (.slot n))).setSlot n { x with draining := true, staging := [] }).evtBy 15 0x52 2 units).evtW
            dark 0x50 10).cmdCount x.cmd .moved true).zciFlush with pending := s.pending }))

/-- Slots, evacuations, heat decay, accesses and the Condenser lanes (R27, R255, R258, R259, R274, R275, R276, R283, R292,
R302, R304, R305, notes/assumptions/18). A free slot goes to an evacuation, a rotation or the oldest command; a stalled
evacuation resumes; one that is done answers its commands; a heat visit halves the heat of one frame and changes no
other; a tiered access is answered as the Enlarger serves it (a fault of its key context first), is held where it waits,
or leaves through its tier-1 port as ciphertext under its seal, and is answered with the completion; a Condenser lane
advances its job by one segment or ends it. -/
def Obligations.EnlargerEventsComplete : Prop :=
  (∀ (s : State) (n : Nat), s.stopped = false → s.down = false → s.cmdSlot = some n →
    let a := s.evacUse n
    let b := a.2.offerRots s.rekeyHeld n
    Completes .migrationSlotFree s fun t =>
      t = { (if a.1 then a.2 else if b.1 then b.2 else (b.2.offer (fun s c => s.cmdUse n c) b.2.enl.cmds).2).zciFlush with pending := s.pending }) ∧
  (∀ (s : State) (e : Evac) (r : List Evac), s.stopped = false → s.enl.evacs = e :: r → e.stall = true →
    Completes .evacuationResume s fun t =>
      t.enl.evacs = { e with stall := false } :: r ∧ t.fget kEnlEvac fEnlEvac_STALL = 0 ∧
      t = { s with enl := { s.enl with evacs := t.enl.evacs }, pcs := t.pcs } ∧ ∀ k, k ≠ kEnlEvac → t.rd k = s.rd k) ∧
  (∀ (s : State) (e : Evac) (r : List Evac), s.stopped = false → s.enl.evacs = e :: r →
    s.enl.used.any (fun p => inSpan (s.evacSpan e) p.1) = false →
    let u : State := { s with enl := { s.enl with evacs := r, cmds := s.enl.cmds.filter (fun c => !e.cmds.contains c.id) } }
    let v := ((u.fput kEnlEvac fEnlEvac_DONE 1).fput kEnlEvac fEnlEvac_STALL 0).config 3 15 0x50 [e.tier, e.set]
    Completes .evacuationComplete s fun t =>
      t = { (v.each e.cmds fun s id => s.final id zDone 0 []).zciFlush with pending := s.pending }) ∧
  (∀ (s : State), s.stopped = false → s.fget kEnlHeat fEnlHeat_DECAY ≠ 0 → (s.tiered.2 - s.tiered.1) / 4096 ≠ 0 →
    s.fget kPwrPkg fPwrPkg_PS ≠ 2 →
    let p := if s.enl.decayOn then s.enl.decayPos else 0
    let f := s.tiered.1 / 4096 + p
    let u := if (s.ent f).tier = 3 ∨ (s.ent f).heat = 0 then s else s.putEnt f { s.ent f with heat := (s.ent f).heat / 2 }
    Completes .heatDecayVisit s fun t =>
      t.ent f = (if (s.ent f).tier = 3 ∨ (s.ent f).heat = 0 then s.ent f else { s.ent f with heat := (s.ent f).heat / 2 }) ∧
      (∀ g, g ≠ f → t.ent g = s.ent g) ∧ t.enl.decayPos = (p + 1) % ((s.tiered.2 - s.tiered.1) / 4096) ∧ t.enl.decayOn = true ∧
      t = { u with enl := t.enl, pcs := t.pcs, pending := s.pending } ∧ t.enl.slots = s.enl.slots) ∧
  -- an access meets the fault of its key context first, if it has one
  (∀ (s u : State) (a : TierAccess), a.wf = true → s.stopped = false → s.down = false →
    u = (if a.ctxErr then s.keyFault a.key a.dark else s) →
    (u.enl.held.any (fun b => decide (b.line = a.line)) = true → Completes (.tieredAccess a) s fun t =>
      t = { u with enl := { u.enl with held := u.enl.held ++ [a] }, pending := s.pending }) ∧
    (u.enl.held.any (fun b => decide (b.line = a.line)) = false → u.t1Access a = none →
      let r := if a.write then u.enlWrite a else u.enlRead a false
      Completes (.tieredAccess a) s fun t =>
        t = { (match r.1 with
          | .wait => r.2.holdAccess a
          | .deferred => r.2.emit (.defr 0 a.line)
          | .line d p _ => r.2.emit (.reply 16 a.line d p false)).zciFlush with pending := s.pending }) ∧
    (∀ k, u.enl.held.any (fun b => decide (b.line = a.line)) = false → u.t1Access a = some k →
      let v := if a.write then (u.enlWrite a).2 else u
      let ma := keyMa k + (a.line % 64) * 64
      let p := v.t1Port ma
      Completes (.tieredAccess a) s fun t =>
        t = { v with fio := { v.fio with tag := v.fio.tag + 1, t1 := v.fio.t1 ++ [⟨v.fio.tag, a, k, some (v.lineSeal a.key a.line)⟩] },
                     out := v.out ++ [.portReq p.1 v.fio.tag p.2 a.write (if a.write then (v.mediaRead 1 ma).wire else 0) false],
                     pending := s.pending })) ∧
  (∀ (s : State) (tag : Nat) (data : Line) (poison : Bool) (x : T1Pend), s.stopped = false →
    s.fio.t1.find? (fun t => t.tag = tag) = some x →
    let u : State := { s with fio := { s.fio with t1 := s.fio.t1.filter (fun y => y.tag ≠ tag) } }
    let ma := keyMa x.k + (x.a.line % 64) * 64
    (x.a.write = true → Completes (.tier1MemoryCompletion tag data poison) s fun t =>
      t = { (u.emit (.reply 16 x.a.line 0 false false)).zciFlush with pending := s.pending }) ∧
    (x.a.write = false →
      let v := if poison then u.mediaWrite 1 ma ⟨0, none, true⟩
        else if (u.mediaRead 1 ma).sealed.isNone then u.mediaWrite 1 ma ⟨data, none, false⟩ else u
      let d := (v.mediaRead 1 ma).opened (x.sealed.getD (v.lineSeal x.a.key x.a.line))
      let w := v.remapLook (x.a.line / 64) (v.framed (x.a.line / 64 / 512)) x.a.dark
      Completes (.tier1MemoryCompletion tag data poison) s fun t =>
        t = { (((w.mediaEvt x.k x.a.dark false).evtW x.a.dark 0x52 1).emit (.reply 16 x.a.line d.1 d.2 false)).zciFlush with pending := s.pending })) ∧
  (∀ (s : State) (compress : Bool) (j : CdnJob), s.stopped = false →
    s.cdnFill.cdn.find? (fun j => decide (j.compress = compress) && j.lane && !s.cdnFill.jobPaused j) = some j →
    (65536 < j.left →
      let u := ((s.cdnFill.evt 15 0x51 11).evtBy 15 0x51 6 1024)
      Completes (.segmentComplete compress) s fun t =>
        t = { u with cdn := u.cdn.map (fun x => if x.id = j.id then { x with left := j.left - 65536 } else x), pending := s.pending }) ∧
    (∀ o, j.left ≤ 65536 → s.cdnFill.zci.outs.find? (fun o => o.id = j.id) = some o →
      let r := s.cdnFill.cdnEnd j o.z
      Completes (.segmentComplete compress) s fun t =>
        t = { (if r.1 then ((r.2.evt 15 0x51 11).evtBy 15 0x51 6 (j.left / 64)).zciFlush else r.2) with pending := s.pending }))

/-- DDR5 channels: reads, writes, alerts, refresh, scrub and measurement (R316, R323, R325, R326, R327, R328, R329,
R330, R332, R333, R334, R335, R336). A clean read answers what the line holds, ciphertext where it is sealed; a corrected
one answers it and records the error; an uncorrectable one answers poison, logs and records
it; a write stores data or poison at its line and nowhere else. ALERT_n holds what arrives until it clears and the
queue is performed in order; the fourth alerted attempt or the alert's timeout takes the channel down. Refresh is
owed up to four intervals while alerted or in panic and performed otherwise; MR4, panic age, scrub and re-
measurement advance their own state only. Every access counts at its bank, and on a DRAM that requires refresh management
a count that an access leaves is below RAAIMT, or, under panic, at most RAAIMT × RAAMMT where it was so before (that an
access activates its row, and that RFM lowers the count by RAAIMT, is the model's choice: notes/assumptions/65). -/
def Obligations.ChannelCommandsComplete : Prop :=
  (∀ (s : State) (ch : Nat), ch < 16 → s.stopped = false → s.chanUp ch = true →
      -- reads and writes
      (∀ (a : ChanAccess) (o : ReadOutcome), a.wf = true → (s.chan ch).alerted = false → (s.chan ch).attempts = 0 →
        ((s.mline (s.chanKey ch a.addr)).poison = true ∨ s.eraseOutcome ch o = .clean) → Completes (.mcRead ch a o) s fun t =>
          t.out = s.out ++ [.chanData ch a.addr (s.mline (s.chanKey ch a.addr)).wire (s.mline (s.chanKey ch a.addr)).poison] ∧
          t = { s with pcs := t.pcs, out := t.out, chans := t.chans } ∧ t.chan ch = { s.chan ch with raa := (t.chan ch).raa } ∧
          ∀ c, c ≠ ch → t.chan c = s.chan c) ∧
      (∀ (a : ChanAccess) (o : ReadOutcome) (d : Nat), a.wf = true → (s.chan ch).alerted = false → (s.chan ch).attempts = 0 →
        let v := s.rowOpen ch a.addr
        let u := (if a.rt then v.evtW (s.chanDark ch a.addr) (0x60 + ch) 5 else v).evtW (s.chanDark ch a.addr) (0x60 + ch) 1
        (u.mline (u.chanKey ch a.addr)).poison = false →
        (u.eraseOutcome ch o = .uncorrectable d → Completes (.mcRead ch a o) s fun t =>
          t = { ((((u.evtW (u.chanDark ch a.addr) (0x60 + ch) 11).errLog ch 1 a.addr (devOf d)).setMline (u.chanKey ch a.addr) ⟨0, none, true⟩).dramErr
            ch a.addr 1 0x31 (devOf d) false).emit (.chanData ch a.addr 0 true) with pending := s.pending }) ∧
        (u.eraseOutcome ch o = .corrected d → Completes (.mcRead ch a o) s fun t =>
          t = { ((u.evtW (u.chanDark ch a.addr) (0x60 + ch) 10).dramErr ch a.addr 0 0x30 (devOf d) false).emit
            (.chanData ch a.addr (u.mline (u.chanKey ch a.addr)).wire false) with pending := s.pending })) ∧
      (∀ (a : ChanAccess) (data : Line) (poison : Bool), a.wf = true → (s.chan ch).alerted = false → (s.chan ch).attempts = 0 →
        Completes (.mcWrite ch a data poison) s fun t =>
          t.mline (s.chanKey ch a.addr) = (if poison then ⟨0, none, true⟩ else ⟨data, none, false⟩) ∧
          (∀ k, k ≠ s.chanKey ch a.addr → t.mline k = s.mline k) ∧ t = { s with pcs := t.pcs, media := t.media, chans := t.chans } ∧
          t.chan ch = { s.chan ch with raa := (t.chan ch).raa } ∧ (∀ c, c ≠ ch → t.chan c = s.chan c) ∧
          -- refresh management: the activation counts
          ((s.chanRec ch).rfm = none → (t.chan ch).raa = (s.chan ch).raa) ∧
          (∀ im mm, (s.chanRec ch).rfm = some (im, mm) →
            (s.panics ch = false → s.raaOf ch (bankAt ch a.addr) < im →
              t.raaOf ch (bankAt ch a.addr) = (if s.raaOf ch (bankAt ch a.addr) + 1 = im then 0 else s.raaOf ch (bankAt ch a.addr) + 1)) ∧
            (s.panics ch = true → s.raaOf ch (bankAt ch a.addr) ≤ im * mm → t.raaOf ch (bankAt ch a.addr) ≤ im * mm) ∧
            ∀ b, b ≠ bankAt ch a.addr → t.raaOf ch b = s.raaOf ch b)) ∧
      -- an alerted channel holds what arrives; the fourth alerted attempt takes the channel down
      ((s.chan ch).alerted = false → (s.chan ch).attempts < 4 → Completes (.alert ch) s fun t =>
        t.chan ch = { s.chan ch with alerted := true } ∧ (∀ c, c ≠ ch → t.chan c = s.chan c) ∧ t = { s with chans := t.chans }) ∧
      ((s.chan ch).alerted = false → 4 ≤ (s.chan ch).attempts → Completes (.alert ch) s fun t =>
        t = { s.chanDown ch 3 0 with pending := s.pending }) ∧
      (∀ (a : ChanAccess) (data : Line) (poison : Bool), a.wf = true → (s.chan ch).alerted = true →
        Completes (.mcWrite ch a data poison) s fun t => t.media = s.media ∧
          (t.chan ch).queue = (s.chan ch).queue ++ [⟨a.addr, a.rt, true, data, poison, .clean⟩]) ∧
      ((s.chan ch).alerted = true → Completes (.alertTimeout ch) s fun t => t = { s.chanDown ch 4 0 with pending := s.pending }) ∧
      ((s.chan ch).alerted = true → Completes (.alertClear ch) s fun t =>
        let c := s.chan ch
        let u := (((s.fadd (kMcStat ch) fMcStat_RETRIES 1).evt 15 (0x60 + ch) 12).setChan ch
          { c with alerted := false, attempts := c.attempts + 1, queue := [] })
        t = { ((u.each (serveOrder (c.lendPanic || c.agePanic) c.queue) fun s q => s.chanDo ch q).chanShow ch) with pending := s.pending })) ∧
  (∀ (s : State) (ch : Nat), ch < 16 → s.stopped = false → s.chanUp ch = true →
      (∀ rank, rank < 4 → (s.chan ch).alerted = true → Completes (.refresh ch rank) s fun t =>
        SMap.get (fun _ => 0) (t.chan ch).owed rank = min 4 (SMap.get (fun _ => 0) (s.chan ch).owed rank + 1) ∧ t.media = s.media) ∧
      (∀ rank, rank < 4 → (s.chan ch).alerted = false → (s.chan ch).attempts = 0 → s.panics ch = true →
        SMap.get (fun _ => 0) (s.chan ch).owed rank < 4 → Completes (.refresh ch rank) s fun t =>
          SMap.get (fun _ => 0) (t.chan ch).owed rank = SMap.get (fun _ => 0) (s.chan ch).owed rank + 1 ∧ t.media = s.media) ∧
      (∀ rank, rank < 4 → (s.chan ch).alerted = false → (s.chan ch).attempts = 0 → s.panics ch = false →
        Completes (.refresh ch rank) s fun t =>
          SMap.get (fun _ => 0) (t.chan ch).owed rank = 0 ∧ t.media = s.media ∧
          (∀ im mm, (s.chanRec ch).rfm = some (im, mm) → (∀ b, s.raaOf ch b < 2 * im) → ∀ b, t.raaOf ch b < im) ∧
          (∀ r, r ≠ rank → SMap.get (fun _ => 0) (t.chan ch).owed r = SMap.get (fun _ => 0) (s.chan ch).owed r)) ∧
      (∀ hot : List Bool, Completes (.mr4Poll ch hot) s fun t =>
        t = { s with chans := t.chans } ∧ (∀ c, c ≠ ch → t.chan c = s.chan c) ∧ t.chan ch = { s.chan ch with hot := (t.chan ch).hot } ∧
        (t.chan ch).hot = (hot.take (s.chanRec ch).physRanks).zipIdx.foldl
          (fun (m : SMap Bool) p => SMap.put (fun _ => false) m p.2 p.1) (s.chan ch).hot) ∧
      (s.fget (kMcRtctl ch) fMcRtctl_AGE ≠ 0 → (s.chan ch).queue.any (·.rt) = true → Completes (.panicAge ch) s fun t =>
        t.chan ch = { s.chan ch with agePanic := true } ∧ t.fget (kMcStat ch) fMcStat_PANIC = 1 ∧
        (∀ c, c ≠ ch → t.chan c = s.chan c) ∧ t = { s with chans := t.chans, pcs := t.pcs }) ∧
      (∀ o, (s.chan ch).alerted = false → s.panics ch = false → (s.setOf ch).isSome = true → (s.chan ch).attempts = 0 →
        s.fget (kMcScrub ch) fMcScrub_HOURS ≠ 0 → s.fget kPwrPkg fPwrPkg_PS ≠ 2 →
        let pos := s.fget (kMcScrub ch) fMcScrub_POS
        let r := ((s.rowOpen ch (pos * 64)).chanRead ch (pos * 64) o 2).2.evt 15 (0x60 + ch) 13
        Completes (.scrubRead ch o) s fun t =>
          t = { r.fput (kMcScrub ch) fMcScrub_POS (if pos + 1 < ((s.chanRec ch).capacity - 1048576) / 64 then pos + 1 else 0)
            with pending := s.pending }) ∧
      ((s.chan ch).alerted = false → s.panics ch = false → (s.chan ch).attempts = 0 →
        s.fget (kMcRemeas ch) fMcRemeas_PERIOD ≠ 0 → s.fget kPwrPkg fPwrPkg_PS ≠ 2 →
        Completes (.remeasurementStep ch []) s fun t =>
          t.chan ch = { s.chan ch with rank := ((s.chan ch).rank + 1) % max 1 (s.chanRec ch).physRanks, window := none } ∧
          t = { s with chans := t.chans, pcs := t.pcs } ∧ ∀ c, c ≠ ch → t.chan c = s.chan c) ∧
      -- lane 0 of the rank is swept and set again where its centre has moved by SHIFT steps or more
      (∀ w : LaneSweep, (s.chan ch).rank < 4 → (s.chan ch).alerted = false → s.panics ch = false → (s.chan ch).attempts = 0 →
        s.fget (kMcRemeas ch) fMcRemeas_PERIOD ≠ 0 → s.fget kPwrPkg fPwrPkg_PS ≠ 2 →
        let k := kMcFocus ch ((s.chan ch).rank * 10)
        let r := recentre (s.fget k fMcFocus_RDDLY) w.read
        let x := recentre (s.fget k fMcFocus_WRDLY) w.write
        let shift := max 1 (s.fget (kMcRemeas ch) fMcRemeas_SHIFT)
        12 ≤ r.2 → 12 ≤ x.2 → Completes (.remeasurementStep ch [w]) s fun t =>
          t.rd k = fMcFocus_WRDLY.put (fMcFocus_RDDLY.put (fMcFocus_WRWIN.put (fMcFocus_RDWIN.put (s.rd k) r.2) x.2)
            (if delayDiff r.1 (s.fget k fMcFocus_RDDLY) ≥ shift then r.1 else s.fget k fMcFocus_RDDLY))
            (if delayDiff x.1 (s.fget k fMcFocus_WRDLY) ≥ shift then x.1 else s.fget k fMcFocus_WRDLY) ∧
          t = { s with chans := t.chans, pcs := t.pcs }))

/-- Flexible I/O: configuration, device and fabric windows, containment, Sceuc-X (R41, R102, R340, R342, R343, R344, R345,
R352, R355, R360, R362, R591). A configuration request goes out at the port of its bus's group, is answered
all ones where no group has the bus, as a failed read where the port is CONTAINED, and by the port itself where it names a
Device Control register of its own (whose place is the model's: notes/assumptions/64). A completion, or its timeout
(all ones, or poison under CTOPOIS), answers the device load that waits. DPC containment of a root port and its
release, IDE keys, and links up and down as the group's role has it. Sceuc-X: lock timeout, lane failures, replays,
and a join only where peer, capability and mode agree, after both packages have sent their EFFCAP. A fabric-window access becomes an outbound request. -/
def Obligations.PortCommandsComplete : Prop :=
  ((∀ (s : State) (bus dev off : Nat) (write : Bool) (data : Word), bus < 256 → dev < 256 → off < 4096 → s.stopped = false →
      (s.busGroup bus = none → Completes (.configRequest bus dev off write data) s fun t =>
        t = { s with out := s.out ++ [.config bus dev off (BitVec.allOnes 64) true] }) ∧
      (∀ q, s.ownConfig bus dev off = some q →
        Completes (.configRequest bus dev off true data) s (fun t =>
          t = { s with fio := { s.fio with ctl := t.fio.ctl } } ∧ (∀ p, p ≠ q → t.portCtl p = s.portCtl p) ∧
          (off = 0x48 → (t.portCtl q).toNat = (s.portCtl q).toNat / 2 * 2 + bitsOf data 4 1) ∧
          (off = 0x68 → (t.portCtl q).toNat = (s.portCtl q).toNat % 2 + bitsOf data 8 2 * 2)) ∧
        Completes (.configRequest bus dev off false data) s (fun t => ∃ w : Word,
          t = { s with free := t.free, out := s.out ++ [.config bus dev off w false] } ∧
          (off = 0x48 → w.getLsbD 4 = (s.portCtl q).getLsbD 0) ∧
          (off = 0x68 → w.getLsbD 8 = (s.portCtl q).getLsbD 1 ∧ w.getLsbD 9 = (s.portCtl q).getLsbD 2))) ∧
      (∀ g, s.busGroup bus = some g → s.ownConfig bus dev off = none → s.portState (s.groupPort g) ≠ 3 → Completes (.configRequest bus dev off write data) s fun t =>
        t.out = s.out ++ [.portReq (s.groupPort g) s.fio.tag (bus <<< 20 + dev <<< 12 + off) write (BitVec.ofNat 512 data.toNat) false] ∧
        t = { s with fio := { s.fio with tag := s.fio.tag + 1 }, pcs := t.pcs, out := t.out }) ∧
      (∀ g, s.busGroup bus = some g → s.ownConfig bus dev off = none → s.portState (s.groupPort g) = 3 → Completes (.configRequest bus dev off false data) s fun t =>
        let f := s.portFail (s.groupPort g)
        t = { f.2 with out := f.2.out ++ [.config bus dev off (BitVec.ofNat 64 f.1.1.toNat) false], pending := s.pending })) ∧
    (∀ (s : State) (port tag : Nat) (data : Word) (w : Nat × DevWait), port < 32 → s.stopped = false →
      s.devWaiter port tag = some w →
      let given (c : Core) (x : Line × Bool) : Core :=
        { c with dev := c.dev.map fun (d : DevWait) => if d = w.2 then { d with done := some x } else d }
      Completes (.pcieCompletion port tag data true) s (fun t =>
        t.core w.1 = given (s.core w.1) (BitVec.ofNat 512 data.toNat, false) ∧ (∀ n, n ≠ w.1 → t.core n = s.core n) ∧
        t = { s with cores := t.cores, pcs := t.pcs }) ∧
      Completes (.pcieCompletion port tag data false) s (fun t =>
        t.core w.1 = given (s.core w.1) (BitVec.ofNat 512 s.fresh.1.toNat, false) ∧ (∀ n, n ≠ w.1 → t.core n = s.core n) ∧
        t = { s.fresh.2 with cores := t.cores, pcs := t.pcs }) ∧
      Completes (.completionTimeout port tag) s (fun t =>
        let f := s.portFail port
        t = { f.2.setCore w.1 (given (f.2.core w.1) f.1) with pending := s.pending } ∧
        f.1 = if s.fon (kFioGcfg (port / 4)) fFioGcfg_CTOPOIS then (0, true) else (BitVec.allOnes 512, false))) ∧
    (∀ (s : State) (port : Nat) (r : BitVec 8), port < 32 → s.stopped = false → s.isRoot (port / 4) = true →
      s.portThere port = true → s.portState port ≠ 3 → Completes (.dpcTrigger port r) s fun t =>
        let u := (({ s.setPort port 3 0 0 with fio := { s.fio with dpc := SMap.set s.fio.dpc port r.toNat } } : State).setPerst port true).evt
          15 (0x10 + port / 4) 9
        u.portState port = 3 ∧
        t = { ((((u.raise { cls := 2, kind := 0x52, agent := port, detail := r.toNat }).failWaiters port).dropInbound port).containT1 port)
          with pending := s.pending }) ∧
    (∀ (s : State) (port : Nat), port < 32 → s.stopped = false → s.portState port = 3 →
      Completes (.dpcRelease port none) s (fun t =>
        t.portState port = 0 ∧ SMap.find t.fio.dpc port = none ∧ (∀ p, p ≠ port → SMap.find t.fio.dpc p = SMap.find s.fio.dpc p) ∧
        (∀ k, k ≠ kFioPstat (port / 4) (port % 4) → t.rd k = s.rd k) ∧
        t = { s with pcs := t.pcs, fio := { s.fio with dpc := t.fio.dpc } }) ∧
      ∀ r : BitVec 8, Completes (.dpcRelease port (some r)) s fun t =>
        t = { s with fio := { s.fio with dpc := t.fio.dpc } } ∧ SMap.find t.fio.dpc port = some r.toNat) ∧
    (∀ (s : State) (port : Nat) (slot : BitVec 6) (key : BitVec 256) (iv : BitVec 64), port < 32 → s.stopped = false →
      (s.isRoot (port / 4) = true → Completes (.ideKeyInstall port slot key iv) s fun t =>
        SMap.find t.fio.ide (port * 64 + slot.toNat) = some (key, iv) ∧
        (∀ k, k ≠ port * 64 + slot.toNat → SMap.find t.fio.ide k = SMap.find s.fio.ide k) ∧
        t = { s with fio := { s.fio with ide := t.fio.ide } }) ∧
      Completes (.ideKeyClear port slot) s fun t =>
        SMap.find t.fio.ide (port * 64 + slot.toNat) = none ∧
        (∀ k, k ≠ port * 64 + slot.toNat → SMap.find t.fio.ide k = SMap.find s.fio.ide k) ∧
        t = { s with fio := { s.fio with ide := t.fio.ide } })) ∧
  ((∀ (s : State) (port : Nat) (w : BitVec 8) (gen : BitVec 4), port < 32 → s.stopped = false →
      s.fon (kFioGcfg (port / 4)) fFioGcfg_LOCK = true → s.portLanes port ≠ 0 →
      let u := s.setPort port 2 (min w.toNat (s.portLanes port)) gen.toNat
      (s.isRoot (port / 4) = true → s.portState port ≠ 3 → 1 ≤ gen.toNat → gen.toNat ≤ 6 → u.portState port = 2 ∧ Completes (.portLinkUp port w gen) s fun t =>
        t = { (u.setPerst port false).evt 15 (0x10 + port / 4) 6 with pending := s.pending }) ∧
      (s.role (port / 4) = 3 → gen = 6#4 → u.portState port = 2 ∧ Completes (.portLinkUp port w gen) s fun t =>
        t = { u.setPerst port false with pending := s.pending }) ∧
      (∀ fn, s.role (port / 4) = 4 → s.lendOfGroup (port / 4) = some fn → s.lendFrozen fn = false →
        Completes (.portLinkUp port w gen) s fun t =>
          t = (s.setLf fn { s.lf fn with link := 2 }).fput (kLndStat fn) fLndStat_STATE 2) ∧
      (s.role (port / 4) = 5 → s.fget (kFioXstat (port / 4)) fFioXstat_STATE = 0 → s.fio.xdown.contains (port / 4) = false →
        0 < s.xWidth (port / 4) → Completes (.portLinkUp port w gen) s fun t =>
          t.fget (kFioXstat (port / 4)) fFioXstat_STATE = 1 ∧ t.fget (kFioXstat (port / 4)) fFioXstat_WIDTH = s.xWidth (port / 4) ∧
          (∀ k, k ≠ kFioXstat (port / 4) → t.rd k = s.rd k) ∧ t = { s with pcs := t.pcs, out := t.out } ∧
          t.out = s.out ++ if s.boot.effFixed then [.socketMsg (port / 4) 1 (s.rd kMgtEffcap) 0] else [])) ∧
    (∀ (s : State) (port : Nat), port < 32 → s.stopped = false →
      (s.isRoot (port / 4) = true ∨ s.role (port / 4) = 3 → s.portState port ≠ 3 → Completes (.portLinkDown port) s fun t =>
        t = s.setPort port 0 0 0 ∧ t.portState port = 0) ∧
      (∀ fn, s.role (port / 4) = 4 → s.lendOfGroup (port / 4) = some fn → (s.lf fn).reqs ≠ [] → Completes (.portLinkDown port) s fun t =>
        t = { (s.setLf fn { s.lf fn with link := 0 }).lendFreeze fn 5 with pending := s.pending }) ∧
      (s.role (port / 4) = 5 → s.fget (kFioXstat (port / 4)) fFioXstat_STATE = 2 → Completes (.portLinkDown port) s fun t =>
        t = { s.socketDown (port / 4) 0 with pending := s.pending })) ∧
    (∀ (s : State) (g : Nat), g < 8 → s.stopped = false → s.fget (kFioXstat g) fFioXstat_STATE = 2 →
      Completes (.sceucXLockTimeout g) s (fun t => t = { s.socketDown g 3 with pending := s.pending }) ∧
      (∀ a b, (a && !s.laneOut g 0 8 || b && !s.laneOut g 8 8) = false → Completes (.sceucXLaneFail g a b) s fun t =>
        t = { s.socketDown g 0 with pending := s.pending }) ∧
      (∀ a b, (a && !s.laneOut g 0 8 || b && !s.laneOut g 8 8) = true → Completes (.sceucXLaneFail g a b) s fun t =>
        let u := (s.fput (kFioXstat g) fFioXstat_WIDTH 8).evt 15 (0x10 + g) 6
        t = { u.config 9 15 (0x10 + g) [(u.rd (kFioXstat g)).toNat] with pending := s.pending }) ∧
      Completes (.sceucXReplay g true) s (fun t =>
        SMap.get (fun _ => 0) t.fio.xreps g = 0 ∧ t = { s with fio := { s.fio with xreps := t.fio.xreps }, pcs := t.pcs }) ∧
      (SMap.get (fun _ => 0) s.fio.xreps g < 7 → Completes (.sceucXReplay g false) s fun t =>
        SMap.get (fun _ => 0) t.fio.xreps g = SMap.get (fun _ => 0) s.fio.xreps g + 1 ∧
        t = { s with fio := { s.fio with xreps := t.fio.xreps }, pcs := t.pcs }) ∧
      (7 ≤ SMap.get (fun _ => 0) s.fio.xreps g → Completes (.sceucXReplay g false) s fun t =>
        t = { (({ s with fio := { s.fio with xreps := SMap.put (fun _ => 0) s.fio.xreps g 0 } } : State).evt 15 (0x10 + g) 7).socketDown g 4
          with pending := s.pending })) ∧
    (∀ (s : State) (g : Nat) (ps pp : BitVec 2) (cap : Word) (mode : Bool) (range : Word), g < 8 → s.stopped = false →
      s.role g = 5 → s.boot.windowOpen = true → s.boot.effFixed = true → s.fget (kFioXstat g) fFioXstat_STATE < 2 →
      s.xWidth g ≠ 0 → s.fio.xdown.contains g = false → s.home.lost.contains (12 + s.fget (kFioGcfg g) fFioGcfg_PEER) = false →
      -- this package has sent its own set, or sends it now
      let u := if s.fget (kFioXstat g) fFioXstat_STATE = 1 then s else s.emit (.socketMsg g 1 (s.rd kMgtEffcap) 0)
      (ps.toNat = s.fget (kFioGcfg g) fFioGcfg_PEER → pp.toNat = s.sock → cap = s.rd kMgtEffcap → mode = s.fon kHaGctl fHaGctl_MODE →
        Completes (.sceucXJoin g ps pp cap mode range) s fun t =>
          t.fget (kFioXstat g) fFioXstat_STATE = 2 ∧ t.fget (kFioXstat g) fFioXstat_WIDTH = s.xWidth g ∧
          fWldDrrange_V.get (t.rd (kWldDrrange ps.toNat)) = fWldDrrange_V.get range ∧
          fWldDrrange_BASE.get (t.rd (kWldDrrange ps.toNat)) = fWldDrrange_BASE.get range ∧
          fWldDrrange_TOP.get (t.rd (kWldDrrange ps.toNat)) = fWldDrrange_TOP.get range ∧
          (∀ k, k ≠ kFioXstat g → k ≠ kWldDrrange ps.toNat → t.rd k = s.rd k) ∧ t = { s with pcs := t.pcs, out := t.out } ∧
          t.out = u.out ++ [.socketMsg g 2 (t.rd (kWldDrrange s.sock)) 0]) ∧
      (ps.toNat ≠ s.fget (kFioGcfg g) fFioGcfg_PEER ∨ pp.toNat ≠ s.sock → Completes (.sceucXJoin g ps pp cap mode range) s fun t =>
        t = { u.holdSocket g 1 (BitVec.ofNat 64 s.sock) (BitVec.ofNat 64 ps.toNat) with pending := s.pending }) ∧
      (ps.toNat = s.fget (kFioGcfg g) fFioGcfg_PEER → pp.toNat = s.sock → cap ≠ s.rd kMgtEffcap →
        Completes (.sceucXJoin g ps pp cap mode range) s fun t =>
          t = { u.holdSocket g 2 (s.rd kMgtEffcap) cap with pending := s.pending }) ∧
      (ps.toNat = s.fget (kFioGcfg g) fFioGcfg_PEER → pp.toNat = s.sock → cap = s.rd kMgtEffcap → mode ≠ s.fon kHaGctl fHaGctl_MODE →
        Completes (.sceucXJoin g ps pp cap mode range) s fun t =>
          t = { u.holdSocket g 2 (if s.fon kHaGctl fHaGctl_MODE then 1 else 0) (if mode then 1 else 0) with pending := s.pending })) ∧
    (∀ (s : State) (a : FabricAccess), a.wf = true → s.stopped = false →
      (∀ i fa, s.fabCheck a.hpa a.write a.atom = some (i, fa) → Completes (.fabricWindowAccess a) s fun t =>
        t.fio = { s.fio with tag := s.fio.tag + 1, outs := s.fio.outs ++
          [{ tag := s.fio.tag, hpa := a.hpa, entry := i, gen := s.fwtGen i, write := a.write, atom := a.atom, home := false, core := none }] } ∧
        t.out = s.out ++ [.fabricReq s.fio.tag fa a.write a.atom a.data (BitVec.allOnes 64) false] ∧
        t = { s with fio := t.fio, pcs := t.pcs, out := t.out }) ∧
      (s.fabCheck a.hpa a.write a.atom = none →
        (a.write = true → a.atom = false → Completes (.fabricWindowAccess a) s fun t =>
          t = { (s.evt 15 0x18 3).deferredErr 0x50 (some a.hpa) none false 0xFFFF with pending := s.pending }) ∧
        (a.write = false ∨ a.atom = true → Completes (.fabricWindowAccess a) s fun t =>
          t = { (s.evt 15 0x18 3).emit (.reply 0 (a.hpa / 64) 0 true false) with pending := s.pending }))))

/-- CXL.mem requests at the Lend endpoint (R366, R370, R371, R372, R374, R375, R376, R377, R378). MemRd, MemWr and MemWrPtl: a
frozen port answers at once (poisoned data, or Cmp); an address that no decoder and lent range holds is a decode
error, and freezes the port where DECFRZ says so; any other becomes a request of the line's home, and the oldest is
served and answered. An answer timeout counts the miss and, for a write or under TMOFRZ, freezes the port with cause
2. An expansion ROM read answers the ROM store. -/
def Obligations.LendRequestsComplete : Prop :=
  (∀ (s : State) (c : Instr) (fn addr tag kind : Nat) (data : Line) (mask : BitVec 64) (poison : Bool),
    lendReqOf c = some (fn, addr, tag, kind, data, mask, poison) → fn < 2 → s.stopped = false →
    (s.lf fn).link = 2 → (s.lf fn).cxr = false → (s.lf fn).reqs.length < 512 → (∀ q, q ∈ (s.lf fn).reqs → q.tag ≠ tag) →
    let u := s.evtLnd fn (if kind = 0 then 0 else 1)
    -- a frozen port answers at once
    (u.lendFrozen fn = true → Completes c s fun t => t = { u.lendFrozenAns fn tag (decide (kind = 0)) with pending := s.pending }) ∧
    -- an address that no committed decoder and range holds
    (u.lendFrozen fn = false →
      ((s.lf fn).memEn = false ∨ ((s.lf fn).dpaOf (addr / 64 * 64)).bind (fun d => (u.lentAt fn d).map (fun p => (d, p.1, p.2))) = none) →
      let v := ((u.fadd (kLndStat fn) fLndStat_DECERR 1).evtLnd fn 5).lendFrozenAns fn tag (decide (kind = 0))
      Completes c s fun t => t = { (if v.fon (kLndCtl fn) fLndCtl_DECFRZ then v.lendFreeze fn 3 else v) with pending := s.pending }) ∧
    -- an address of a lent range
    (∀ d h k, u.lendFrozen fn = false → (s.lf fn).memEn = true → (s.lf fn).dpaOf (addr / 64 * 64) = some d → u.lentAt fn d = some (h, k) →
      let q : LendReq := ⟨tag, h / 64, k, d / 64 * 64, kind, data, mask, poison, s.time⟩
      let w := (u.setLf fn { s.lf fn with reqs := (s.lf fn).reqs ++ [q] }).lendOcc fn
      Completes c s (fun t => t = { w.lendServe fn with pending := s.pending }) ∧
      -- a request that is alone and whose answer has come is answered, and no other is
      ∀ v l p, (s.lf fn).reqs = [] →
        let r : HomeReq := { uncReq (Who.lend fn) (h / 64) k false with rt := true, data := data, poison := poison,
                                                                        mask := if kind = 1 then BitVec.allOnes 64 else mask }
        (kind = 0 → (∃ f n, w.Answered v [(.rdc, r)] [.reply l p f n]) →
          w.lendServe fn = v.lendAnswer fn q (decide ((w.ent (h / 64 / 64)).tier = 2)) l p) ∧
        (kind = 1 → w.Answered v [(.wrf, r)] [.done] → w.lendServe fn = v.lendAnswer fn q (decide ((w.ent (h / 64 / 64)).tier = 2)) 0 false) ∧
        (kind = 2 → w.Answered v [(.wrp, r)] [.done] → w.lendServe fn = v.lendAnswer fn q (decide ((w.ent (h / 64 / 64)).tier = 2)) 0 false))) ∧
  (∀ (s : State) (fn tag : Nat) (q : LendReq), fn < 2 → s.stopped = false → (s.lf fn).reqs.find? (fun q => q.tag = tag) = some q →
    let v := (s.fadd (kLndBudget fn) (if decide ((s.ent (q.line / 64)).tier = 2) then fLndBudget_MISS2 else fLndBudget_MISS01) 1).lendForget fn q
    let w := ((v.setLf fn { s.lf fn with reqs := (s.lf fn).reqs.filter (fun y => y.tag ≠ tag) }).lendPoisoned fn q).lendOcc fn
    Completes (.lendAnswerTimeout fn tag) s fun t =>
      t = { (if q.kind ≠ 0 || w.fon (kLndCtl fn) fLndCtl_TMOFRZ then w.lendFreeze fn 2 else w) with pending := s.pending }) ∧
  (∀ (s : State) (fn off : Nat), fn < 2 → off < 65536 → s.stopped = false → (s.lf fn).link = 2 → (s.lf fn).flr = false →
    (s.lf fn).romEn = true → Completes (.expansionRomRead fn off) s fun t =>
      t = { s with out := s.out ++ [.lend fn 0 (lineOf (sliceB (s.lf fn).rom (off / 64 * 64) 64)) false false] })

/-- The Lend mailbox, its DMA, resets and configuration (R364, R367, R380, R381, R382, R383, R384, R592). A free mailbox
answers each command with return code 0 and the payload that the state gives (bytes that the CXL specification
leaves to the device are free values: log 28); Clear Event Records drops the oldest records named in order; Sanitize
discards every lent range; DMA commands of at most 16 MiB in whole lines start, others end with Invalid Input. Bus
Master Enable, function-level reset, CXL Reset, PERST_N and configuration writes change what R382-R384 and R592
state and nothing else. -/
def Obligations.MailboxAndLendControlComplete : Prop :=
  (∀ (s : State) (fn : Nat), fn < 2 → s.stopped = false → s.mboxFree fn = true →
      let answers (c : Instr) (op : Nat) (payload : List Byte) : Prop :=
        Completes c s fun t => t = { s with out := s.out ++ [.lendMbox fn op 0 payload] }
      answers (.identify fn) 0x0001 (leBytes 2 0x1C6B ++ leBytes 2 0x2160 ++ lendOpen 1 4 4 ++ leBytes 8 s.fuses.serial.toNat ++ [12, 3]) ∧
      answers (.backgroundOperationStatus fn) 0x0002
        ([if (s.lf fn).bgRuns then 1 else if (s.lf fn).bgOp = 0 then 0 else 200, 0] ++ leBytes 2 (s.lf fn).bgOp ++ leBytes 4 0) ∧
      answers (.getEventRecords fn) 0x0100 ([if (s.lf fn).events.length > 31 then 2 else 0, 0] ++ List.replicate 18 0 ++
        leBytes 2 ((s.lf fn).events.take 31).length ++ List.replicate 10 0 ++ ((s.lf fn).events.take 31).flatMap eventRecord) ∧
      answers (.getEventInterruptPolicy fn) 0x0102 (leBytes 4 (s.lf fn).policy.toNat) ∧
      answers (.getSupportedLogs fn) 0x0400 (leBytes 2 1 ++ List.replicate 6 0 ++ celUuid ++ leBytes 4 effectsLog.length) ∧
      answers (.getLog fn) 0x0401 effectsLog ∧
      answers (.identifyMemoryDevice fn) 0x4000 (lendOpen 0x4000 0 16 ++ leBytes 8 (s.lentSize fn / 268435456) ++
        leBytes 8 (s.lentSize fn / 268435456) ++ leBytes 8 0 ++ leBytes 8 0 ++ lendOpen 0x4000 48 21) ∧
      answers (.getPartitionInfo fn) 0x4100 (leBytes 8 (s.lentSize fn / 268435456) ++ List.replicate 24 0) ∧
      answers (.getHealthInfo fn) 0x4200 (lendOpen 0x4200 0 18) ∧
      (∀ dpa len, answers (.getPoisonList fn dpa len) 0x4300 ((s.lf fn).poisonBytes dpa len 254)) ∧
      (∀ hs, ((s.lf fn).events.take hs.length).map (fun e => e.1) = hs → Completes (.clearEventRecords fn hs) s fun t =>
        (t.lf fn).events = (s.lf fn).events.drop hs.length ∧ t.lf fn = { s.lf fn with events := (t.lf fn).events } ∧
        t = { s with lend := t.lend, out := s.out ++ [.lendMbox fn 0x0101 0 []] }) ∧
      (∀ p, Completes (.setEventInterruptPolicy fn p) s fun t =>
        t.lf fn = { s.lf fn with policy := p } ∧ t = { s with lend := t.lend, out := s.out ++ [.lendMbox fn 0x0103 0 []] }) ∧
      ((s.lf fn).bgRuns = false → Completes (.sanitize fn) s fun t =>
        t = { ((((s.setLf fn { s.lf fn with bgOp := 0x4400, bgRuns := true }).mbox fn 0x4400 1 []).lendDiscardAll fn).lendTierDone fn)
          with pending := s.pending }) ∧
      (∀ addr len op c, (op, c) ∈ [(0xC001, Instr.getPoisonListDma fn addr len), (0xC002, .getEventRecordsDma fn addr len),
          (0xC003, .discardRangesDma fn addr len)] →
        (len % 64 = 0 → len ≤ 16777216 → Completes c s fun t =>
          t = { (s.setLf fn { s.lf fn with cmd := some ⟨op, addr, len, [], 0⟩ }).mboxStart fn with pending := s.pending }) ∧
        (len % 64 ≠ 0 ∨ 16777216 < len → Completes c s fun t => t = { s with out := s.out ++ [.lendMbox fn op 2 []] }))) ∧
  (∀ (s : State) (fn : Nat), fn < 2 → s.stopped = false →
      (∀ tag bytes r c, (s.lf fn).reads.find? (fun r => r.tag = tag) = some r → r.stale = false → (s.lf fn).cmd = some c →
        let d : LendCmd := { c with got := SMap.set c.got r.off (sliceB bytes 0 r.len) }
        let u := s.setLf fn { s.lf fn with reads := (s.lf fn).reads.filter (fun y => y.tag ≠ tag), cmd := some d }
        Completes (.mailboxDmaCompletion fn tag bytes) s fun t =>
          t = { (if ((s.lf fn).reads.filter (fun y => y.tag ≠ tag)).any (fun y => !y.stale) then u else u.mboxDiscard fn d)
            with pending := s.pending }) ∧
      (∀ tag r, (s.lf fn).reads.find? (fun r => r.tag = tag) = some r → r.stale = false →
        Completes (.mailboxDmaTimeout fn tag) s fun t =>
          t = { ((s.setLf fn ({ s.lf fn with reads := (s.lf fn).reads.filter (fun y => y.tag ≠ tag) } : LendFn).staleAll).mboxEnd fn 4).readsDone fn
            with pending := s.pending }) ∧
      ((s.lf fn).link = 2 → (s.lf fn).flr = false → Completes (.busMasterEnableClear fn) s fun t =>
        (t.lf fn).bme = false ∧ (t.lf fn).reads = (s.lf fn).reads.map (fun r => { r with stale := true }) ∧
        (t.lf fn).cmd = (s.lf fn).cmd.map (fun c => if c.phase = 1 then { c with phase := 2 } else c) ∧
        t.lf fn = { s.lf fn with bme := (t.lf fn).bme, reads := (t.lf fn).reads, cmd := (t.lf fn).cmd } ∧ t = { s with lend := t.lend }) ∧
      ((s.lf fn).link = 2 → (s.lf fn).flr = false → Completes (.busMasterEnableSet fn) s fun t =>
        t = { ((s.setLf fn { s.lf fn with bme := true }).readsDone fn).mboxStart fn with pending := s.pending }) ∧
      ((s.lf fn).link = 2 → Completes (.functionLevelReset fn) s fun t =>
        t = { ((s.setLf fn { (s.lf fn).ioReset with rom := [], flr := true }).lendAbandon fn).lendResetDone fn with pending := s.pending } ∧
        (t.lf fn).cmd = none ∧ (t.lf fn).romEn = false ∧ (t.lf fn).bme = false ∧ (t.lf fn).rom = [] ∧
        (t.lf fn).memEn = (s.lf fn).memEn ∧ (t.lf fn).decs = (s.lf fn).decs ∧ (t.lf fn).reqs = (s.lf fn).reqs) ∧
      (∀ mc, (s.lf fn).link = 2 → Completes (.cxlReset fn mc) s fun t =>
        let u := s.lendFlush fn
        let v := u.setLf fn { (u.lf fn).ioReset with memEn := false, decs := [], cxr := true }
        t = { (if mc then v.lendDiscardAll fn else v).lendTierDone fn with pending := s.pending }) ∧
      ((s.lendGroup fn).isSome = true → Completes (.lendPerst fn) s fun t =>
        (t.lf fn).decs = [] ∧ (t.lf fn).memEn = false ∧ (t.lf fn).link = 0 ∧ (t.lf fn).bme = false ∧ (t.lf fn).cmd = none ∧
        t = { s.lendFreeze fn 5 with lend := t.lend, pending := s.pending }) ∧
      ((s.lf fn).link = 2 → (s.lf fn).flr = false →
        (∀ b, Completes (.lendConfigAccess fn (.memEnable b)) s fun t => t = s.setLf fn { s.lf fn with memEn := b }) ∧
        (∀ b, Completes (.lendConfigAccess fn (.romEnable b)) s fun t => t = s.setLf fn { s.lf fn with romEn := b }) ∧
        (∀ i b n w g k, (s.lf fn).decOk i ⟨b, n, w, g, k⟩ = true → Completes (.lendConfigAccess fn (.decoder i b n w g k true)) s fun t =>
          t = s.setLf fn { s.lf fn with decs := SMap.set (s.lf fn).decs i ⟨b, n, w, g, k⟩ }) ∧
        (∀ i b n w g k, Completes (.lendConfigAccess fn (.decoder i b n w g k false)) s fun t =>
          t = s.setLf fn { s.lf fn with decs := (s.lf fn).decs.filter (fun p => decide (p.1 < i)) }) ∧
        (∀ v, Completes (.lendConfigAccess fn (.completionTimeout v)) s fun t => t = s.setLf fn { s.lf fn with cto := v }) ∧
        (∀ v, Completes (.lendConfigAccess fn (.maxReadRequest v)) s fun t => t = s.setLf fn { s.lf fn with mrrs := v }) ∧
        (∀ b, Completes (.lendConfigAccess fn (.d3hot b)) s fun t =>
          t = { (s.setLf fn { s.lf fn with d3 := b }).mboxStart fn with pending := s.pending })))

/-- The checks that come before every ZCI command (R394, R395, R398, R400, R407, R589). For every row of the ZCI: a boot-
mailbox request while one runs or while a warm reset runs is answered BUSY; VERSION, reserved bits and the source fail the command in that
order with BAD_PARAM or NOT_PERMITTED and their DETAIL, and it has no effect; a command that passes waits behind its
fence, writing ACCEPTED where it replies twice, and one whose chain is broken ends with NOT_PERMITTED, CHAIN_BROKEN. -/
def Obligations.ZciChecksComeFirst : Prop :=
  ∀ (s : State) (c : Instr) (z : ZCmd), zciRowOf c = some z → c.wf = true → s.stopped = false → s.zciFlush.pairRuns z.qp = true →
    (zpath z 2 = true → ∀ o, o ∈ s.zciFlush.zci.outs → o.z ≠ z) →
    -- the boot mailbox performs one command at a time, and none while a warm reset runs
    (z.qp = 0 → (s.zciFlush.boot.warm = true ∨ s.zciFlush.zci.outs.any (fun o => o.z.qp = 0) = true) →
      Completes c s fun t => t = { (s.zciFlush.queueRep z zBusy 0 [] true).zciFlush with pending := s.pending }) ∧
    ((z.qp = 0 → s.zciFlush.boot.warm = false ∧ s.zciFlush.zci.outs.any (fun o => o.z.qp = 0) = false) →
      let fails (st d : Nat) : Prop := Completes c s fun t => t = { s.zfail z (s.zciFlush.zadmit z) st d with pending := s.pending }
      (z.f 5 1 ≠ 1 → fails zBadParam dVersion) ∧
      (z.f 5 1 = 1 → (z.flags ≥ 8 ∨ z.f 8 8 ≠ 0 ∨ z.f 6 2 ≥ 4096) → fails zBadParam dReserved) ∧
      (z.f 5 1 = 1 → ¬ (z.flags ≥ 8 ∨ z.f 8 8 ≠ 0 ∨ z.f 6 2 ≥ 4096) → ∀ p l w, opInfo (z.f 0 2) = some (p, l, w) →
        l.contains (s.zciFlush.srcOf z.qp) = false → fails zNotPermitted dSource) ∧
      (∀ st d, s.zciFlush.zcheck z = some (st, d) → fails st d) ∧
      (s.zciFlush.zcheck z = none →
        -- fence-before and chains
        ((s.zciFlush.zadmit z).zheld (s.zciFlush.zout z) = true → Completes c s fun t =>
          t = { (if (s.zciFlush.zout z).two && decide (z.qp ≠ 0) && !zpath z 2 then
            (s.zciFlush.zadmit z).queueRep z zAccepted 0 [] false else s.zciFlush.zadmit z).zciFlush with pending := s.pending }) ∧
        ((s.zciFlush.zadmit z).zheld (s.zciFlush.zout z) = false → (s.zciFlush.zadmit z).chainBroken (s.zciFlush.zout z) = true →
          fails zNotPermitted dChain)))

/-- ZCI_NOP, ZCI_IDENTIFY, ZCI_QUEUE_SET and the IOTU invalidations (R151, R152, R390, R396, R411, Table 4-9, Table
13-9). ZCI_NOP ends with DONE and its reply; ZCI_IDENTIFY returns MGT_EFFCAP, the queue pair, its source and owner;
ZCI_QUEUE_SET enables the queue pairs that are not, with the contexts read, or stops them and is done once they have
drained; each IOTU command drops exactly the contexts or translations that it names, and ends once every request
that was translated before it has been performed. -/
def Obligations.BasicZciCommandsComplete : Prop :=
  ∀ (s : State) (z : ZCmd), s.ZReady z →
    let u := s.zstarted z
    let done (c : Instr) (v : State) (r : List Byte) : Prop :=
      Completes c s fun t => t = { s.zdone z v 0 r with pending := s.pending }
    (z.is 0x0002 = true → done (.zciNop z) u [] ∧
      -- on a boot mailbox that owes nothing, the reply is all that leaves the package
      (z.qp = 0 → s.zci.finals = [] → s.zci.reps = [] → Completes (.zciNop z) s fun t =>
        t.out = s.out ++ [.mailbox (BitVec.ofNat 256 (leNat (replyBytes ⟨0, z.tag, 0, 0, [], z.ioc⟩ true))) s.zci.mailOut])) ∧
    (z.is 0x0001 = true → done (.zciIdentify z) u (leBytes 8 (u.rd kMgtEffcap).toNat ++ leBytes 2 z.qp ++
      leBytes 1 (u.srcOf z.qp) ++ [0] ++ leBytes 2 ((u.ownerOf z.qp).getD 0xFFFF))) ∧
    -- ZCI_QUEUE_SET
    (∀ first count, first = z.f 16 2 → count = z.f 18 2 → first + count ≤ 8192 →
      (∀ q, first ≤ q → q < first + count → u.settable q = true) →
      let qs := (List.range count).map (first + ·)
      (z.isFirst 0x0003 20 [1] = true → z.f 20 1 = 0 → ∀ (l : List (Nat × QPair)) v,
        CtxsRead 5 (qs.filter (fun q => (u.pair q).isNone)) u v (l.map fun p => (p.1, some p.2)) →
        done (.zciQueueSetEnable z) (l.foldl (fun s p => s.setPair p.1 (some p.2)) v) []) ∧
      (z.isOp 0x0003 20 1 = true →
        let v := qs.foldl (fun w q => w.stopPair q s.zid) u
        (v.draining s.zid = false → done (.zciQueueSetDisable z) v []) ∧
        (v.draining s.zid = true → Completes (.zciQueueSetDisable z) s fun t => t = { s.zruns z v with pending := s.pending }))) ∧
    -- class 0x04: once every request that was translated before has been performed
    (∀ c f, (c, f) ∈ [(Instr.iotuInvVa z, fun (p : Nat × TlbEnt) => decide (p.2.vmid = z.f 16 2) &&
          (decide (z.f 20 1 % 2 = 1) || decide (p.2.asid = some (z.f 18 2))) && p.2.meets (z.f 24 8) (z.f 32 8)),
        (.iotuInvIpa z, fun p => decide (p.2.vmid = z.f 16 2)), (.iotuInvVmid z, fun p => decide (p.2.vmid = z.f 16 2)),
        (.iotuInvAll z, fun _ => true)] → c.wf = true →
      ((c = .iotuInvVa z ∨ c = .iotuInvIpa z) → z.f 24 8 % 4096 = 0 ∧ z.f 32 8 % 4096 = 0) →
      ((c = .iotuInvVa z ∨ c = .iotuInvIpa z) ∧ z.f 32 8 = 0 → done c u []) ∧
      (¬ ((c = .iotuInvVa z ∨ c = .iotuInvIpa z) ∧ z.f 32 8 = 0) →
        let v := (u.iotuDrop f).inPump
        (v.iotuOpen = false → done c (v.evt 15 0x48 6) []) ∧
        (v.iotuOpen = true → Completes c s fun t => t = { s.zwaits z v with pending := s.pending }))) ∧
    (z.is 0x0401 = true → z.f 16 1 ≤ 8 →
      let id := z.f 16 1 * 65536 + z.f 18 2
      let v := (({ u with iotu := { u.iotu with ctxs := u.iotu.ctxs.filter (fun c => c.src ≠ id) } }).iotuDrop (fun p => p.1 = id)).inPump
      (v.iotuOpen = false → done (.iotuInvDevice z) (v.evt 15 0x48 6) []) ∧
      (v.iotuOpen = true → Completes (.iotuInvDevice z) s fun t => t = { s.zwaits z v with pending := s.pending }))

/-- Commands of class 0x10 (R271, R272, R274, R278, R279, R280, R281, R401, Table 8-6). TIER_QUERY writes the totals or
a group's charges; TIER_REPORT the records of its regions; TIER_MOVE, TIER_PIN and TIER_DISCARD queue their frames
and run on; TIER_UNPIN clears the pin of the frames of its range; TIER_SET_QUOTA stores a quota; TIER_EVACUATE
starts an evacuation; TIER_CANCEL ends what is left of the command that its TAG names and returns the count. -/
def Obligations.TierCommandsComplete : Prop :=
  ∀ (s : State) (z : ZCmd), s.ZReady z →
    let u := s.zstarted z
    let f := z.f 16 8 / 4096
    let n := z.f 24 4
    let done (c : Instr) (v : State) (r : List Byte) : Prop :=
      Completes c s fun t => t = { s.zdone z v 0 r with pending := s.pending }
    let runsOn (c : Instr) (v : State) : Prop := Completes c s fun t => t = { s.zruns z v with pending := s.pending }
    (z.is 0x1001 = true →
      (∀ t0 f0 t1 f1 units remap w, z.f 16 1 = 0 → u.enlTotals = (t0, f0, t1, f1, units, remap) →
        u.BufWritten w z (z.f 24 8) ([t0, f0, t1, f1, units, u.enl.pools.length, remap,
          (u.tiered.2 - u.tiered.1) / 4096 - (u.enl.frames.filter (fun p => p.2.tier ≠ 3)).length].flatMap (leBytes 8)) →
        done (.tierQuery z) w []) ∧
      (∀ w, z.f 16 1 = 1 → u.BufWritten w z (z.f 24 8) ([u.charged 0 (z.f 17 1), u.charged 1 (z.f 17 1), u.chargedUnits (z.f 17 1),
          (u.quota (z.f 17 1)).1, (u.quota (z.f 17 1)).2, SMap.get (fun _ => 0) u.enl.overq (z.f 17 1), 0, 0].flatMap (leBytes 8)) →
        done (.tierQuery z) w [])) ∧
    (z.is 0x1002 = true → z.f 16 8 % 2 ^ 21 = 0 → 1 ≤ n → n ≤ 1024 → u.inTiered (z.f 16 8) (n * 2 ^ 21) = true →
      u.tierDark z (z.f 16 8) (n * 2 ^ 21) = false → u.tierFull = false → u.bufOk z (z.f 32 8) (1024 * n) = true →
      ∀ w, RegionsWritten z f (List.range n) u w → done (.tierReport z) w []) ∧
    (u.TierRange z → u.tierFull = false →
      (z.is 0x1003 = true → z.f 28 1 ≤ 3 →
        runsOn (.tierMove z) (u.tierQueue s.zid (.move (z.f 28 1) (decide (z.f 29 1 % 2 = 1))) f n)) ∧
      (z.is 0x1004 = true → z.f 28 1 ≤ 1 → runsOn (.tierPin z) (u.tierQueue s.zid (.pin (z.f 28 1) (z.f 30 2 % 16384)) f n)) ∧
      (z.is 0x1006 = true → runsOn (.tierDiscard z) (u.tierQueue s.zid .discard f n))) ∧
    (z.is 0x1005 = true → u.TierRange z →
      done (.tierUnpin z) (u.each (u.enl.frames.filter (fun p => decide (f ≤ p.1 ∧ p.1 < f + n) && p.2.pin)) fun s p =>
        s.putEnt p.1 { s.ent p.1 with pin := false }) []) ∧
    (z.is 0x1007 = true → done (.tierSetQuota z) { u with enl := { u.enl with
      quotas := SMap.put (fun _ => (2 ^ 64 - 1, 2 ^ 64 - 1)) u.enl.quotas (z.f 17 1) (z.f 24 8, z.f 32 8) } } []) ∧
    (∀ tier k, z.is 0x1008 = true → tier = z.f 16 1 → k = z.f 18 2 →
      (tier = 0 ∧ k < u.plat.sets.length ∧ u.enl.withheld.contains k = false) ∨
      (tier = 1 ∧ k < u.plat.t1.length ∧ k < 64 ∧ (u.rd kFioT1act).getLsbD k = true) →
      u.enl.withdrawn.contains (tier * 256 + k) = false → u.tierFull = false →
      runsOn (.tierEvacuate z) ((u.tierQueue s.zid .evacuate 0 0).evacStart tier k (some s.zid) false)) ∧
    (z.is 0x1009 = true →
      let named := (u.zci.outs.find? (fun o => decide (o.z.qp = z.qp ∧ o.id ≠ s.zid) && decide (o.z.tag = z.f 16 2))).bind
        (fun o => u.enl.cmds.find? (fun c => c.id = o.id))
      (named = none → done (.tierCancel z) u (leBytes 4 0)) ∧
      (∀ c, named = some c → (c.kind = .evacuate ∨ ∃ i, c.kind = .report i) → done (.tierCancel z) u (leBytes 4 0)) ∧
      (∀ c, named = some c → c.kind ≠ .evacuate → (∀ i, c.kind ≠ .report i) →
        let c' : TierCmd := { c with left := 0, aborted := c.aborted + c.left }
        let v : State := { u with enl := { u.enl with cmds := u.enl.cmds.map fun (x : TierCmd) => if x.id = c.id then c' else x } }
        done (.tierCancel z) (if c'.active = 0 then v.cmdFinish c' else v) (leBytes 4 c.left)))

/-- Commands of class 0x12 (R288, R294, R296, R297, R299, R302, R303, R594, Table 9-6). KEY_TRANSPORT writes the
transport key and a quote over it; KEY_LOAD makes an EMPTY context LOADED with the key pair given or generated;
KEY_ROTATE keeps the old pair as OLD, takes the new one and starts a rotation over its range; KEY_ERASE makes the
context EMPTY with both pairs zero, and ends a rotation of it with NOT_PERMITTED, ERASED; KEY_QUERY returns state,
algorithm, world and generation. -/
def Obligations.KeyCommandsComplete : Prop :=
  ∀ (s : State) (z : ZCmd), s.ZReady z →
    let u := s.zstarted z
    let k := z.f 16 2
    let done (c : Instr) (v : State) (r : List Byte) : Prop :=
      Completes c s fun t => t = { s.zdone z v 0 r with pending := s.pending }
    (z.is 0x1201 = true → u.wld.idPriv.isSome = true → u.bufOk z (z.f 24 8) (z.f 32 4) = true → 512 ≤ z.f 32 4 →
      ∀ q w, q = u.quote 0x1FF#32 (sm3 (sm2Pub u.dks.tpriv.toNat)) →
        q.2.BufWritten w z (z.f 24 8) (sm2Pub u.dks.tpriv.toNat ++ q.1.getD []) → done (.keyTransport z) w (leBytes 4 512)) ∧
    (z.is 0x1202 = true → u.keyCheck z false true (some fun w => decide (w ≤ 1) && !(decide (u.srcOf z.qp = 2) && decide (w ≠ 0))) = none →
      (u.ctx k).st = 0 → ∀ p v, u.KeyGiven v z p →
        let c' : KeyCtx := { KeyCtx.empty with st := 1, alg := p.alg, dark := decide (z.f 20 1 = 1), k1 := p.k1, k2 := p.k2, gen := (u.ctx k).gen + 1 }
        done (.keyLoad z) (((v.setCtx k c').dksShow).evt 15 0x52 8) []) ∧
    (z.is 0x1203 = true → u.keyCheck z false true none = none → (u.ctx k).st = 1 → z.f 40 8 % 4096 = 0 → 1 ≤ z.f 48 8 →
      z.f 48 8 ≤ 2 ^ 33 → u.inTiered (z.f 40 8) (z.f 48 8 * 4096) = true →
      (u.srcOf z.qp = 2 → u.hasDarkRegion (z.f 40 8) (z.f 48 8 * 4096) = false) →
      ∀ e p v, firstGap (u.dks.rots.map (·.1)) 0 16 = some e → u.KeyGiven v z p →
        let f := z.f 40 8 / 4096
        let r : Rot := ⟨k, f, z.f 48 8, f, f, [], 0, 0, 0, 0, s.zid, v.dks.rots.foldl (fun a q => max a (q.2.order + 1)) 0⟩
        let c := u.ctx k
        let c' : KeyCtx := { c with st := 2, alg := p.alg, k1 := p.k1, k2 := p.k2, oalg := c.alg, o1 := c.k1, o2 := c.k2, gen := c.gen + 1 }
        Completes (.keyRotate z) s fun t =>
          t = { s.zruns z ((((v.setCtx k c').setRot e r).rotAdvance e).dksShow) with pending := s.pending }) ∧
    (z.is 0x1204 = true → u.keyCheck z false false none = none →
      let erased (v : State) : State := (v.setCtx k { v.ctx k with st := 0, k1 := 0, k2 := 0, oalg := 0, o1 := 0, o2 := 0 }).dksShow
      ∀ v, ((u.rotOf k = none ∧ v = erased u) ∨ ∃ e r, u.rotOf k = some (e, r) ∧ v = erased (u.rotEnd e r zNotPermitted dErased)) →
        -- DONE waits for the tier-1 accesses that began under the key ID
        (v.fio.t1.any (fun t => decide (t.a.key = k)) = false → done (.keyErase z) (v.evt 15 0x52 9) []) ∧
        (v.fio.t1.any (fun t => decide (t.a.key = k)) = true →
          Completes (.keyErase z) s fun t => t = { s.zwaits z v with pending := s.pending })) ∧
    (z.is 0x1205 = true → u.keyCheck z true false none = none →
      done (.keyQuery z) u ([BitVec.ofNat 8 (u.ctx k).st, BitVec.ofNat 8 (u.ctx k).alg, if (u.ctx k).dark then 1 else 0, 0] ++
        leBytes 2 (u.ctx k).gen.toNat))

/-- CDN_COMPRESS and CDN_DECOMPRESS start their job (R304, R305, R310, Table 9-7). With SVCEN set and the parameters,
buffers, input and dictionary right, each puts its job behind those that wait for a lane, fills the lanes and runs
on. -/
def Obligations.CondenserCommandsComplete : Prop :=
  ∀ (s : State) (z : ZCmd), s.ZReady z →
    let u := s.zstarted z
    u.fon kCdnCtl fCdnCtl_SVCEN = true →
    ∀ c compress, (c, compress) ∈ [(Instr.cdnCompress z, true), (.cdnDecompress z, false)] → c.wf = true →
      cdnBad z compress = none → u.bufOk z (z.f 32 8) (z.f 40 4) = true →
        ∀ input v dict w, u.BufRead v z (z.f 16 8) (z.f 24 4) input false → v.DictRead w z dict →
          let x : State := { w with cdn := w.cdn ++ [cdnJob s.zid z compress input dict] }
          Completes c s fun t => t = { s.zruns z (x.cdnFill.evt 15 0x51 9) with pending := s.pending }

/-- Commands of classes 0x18 and 0x28 (R366, R368, R369, R378, R379, R385, R475, R530, R533, R538, R542, Table 18-11).
LEND_SET_RANGE stores or clears a range and extends a CONFIG event; LEND_QUERY returns the state; LEND_FREEZE
freezes; LEND_RELEASE releases what Table 12-3 permits; LEND_ROM_LOAD loads the ROM. RAS_RECORDS writes records from
FIRST on; RAS_UNIT_STATE returns the unit; RAS_RETIRE plans a retirement or resets a still die; RAS_CLEAR discards
records below SEQ or an Element's history. -/
def Obligations.LendAndRasCommandsComplete : Prop :=
  (∀ (s : State) (z : ZCmd), s.ZReady z →
      let u := s.zstarted z
      let done (c : Instr) (v : State) (r : List Byte) : Prop :=
        Completes c s fun t => t = { s.zdone z v 0 r with pending := s.pending }
      ∀ fn, fn = z.f 16 1 → fn < 2 → (u.lendGroup fn).isSome = true →
        (z.is 0x1801 = true → z.f 17 1 ≤ 15 → (u.lf fn).memEn = false →
          (z.f 32 8 = 0 → done (.lendSetRange z) (((u.wr (kLndRangea fn (z.f 17 1)) 0).wr (kLndRangeb fn (z.f 17 1)) 0).config 11 15 (0x1A + fn)
            [z.f 17 1, 0, 0]) []) ∧
          (∀ base size key a b, base = z.f 24 8 → size = z.f 32 8 → key = z.f 18 2 % 16384 → size ≠ 0 → base % 2097152 = 0 →
            size % 2097152 = 0 → u.inTiered base size = true → u.hasDarkRegion base size = false → (u.ctx key).dark = false →
            -- no other lent range of the package overlaps
            (∀ f i, f < 2 → i < 16 → (f, i) ≠ (fn, z.f 17 1) → ¬ ((u.lentRange f i).2.1 ≠ 0 ∧
              base < (u.lentRange f i).1 + (u.lentRange f i).2.1 ∧ (u.lentRange f i).1 < base + size)) →
            a = fLndRangea_KEYID.put (fLndRangea_BASE.put (fLndRangea_V.put 0 1) (base >>> 21)) key →
            b = fLndRangeb_SIZE.put 0 (size >>> 21) →
            done (.lendSetRange z) (((u.wr (kLndRangea fn (z.f 17 1)) a).wr (kLndRangeb fn (z.f 17 1)) b).config 11 15 (0x1A + fn)
              [z.f 17 1, a.toNat, b.toNat]) [])) ∧
        (z.is 0x1802 = true → done (.lendQuery z) u
          ([BitVec.ofNat 8 (u.fget (kLndStat fn) fLndStat_STATE), BitVec.ofNat 8 (u.fget (kLndStat fn) fLndStat_CAUSE), 0, 0] ++
            leBytes 4 (min (2 ^ 32 - 1) (u.fget (kLndBudget fn) fLndBudget_MISS2 + u.fget (kLndBudget fn) fLndBudget_MISS01)) ++
            leBytes 4 (u.fget (kLndStat fn) fLndStat_FROZANS))) ∧
        (z.is 0x1803 = true → done (.lendFreeze z) (u.lendFreeze fn 1) []) ∧
        (z.is 0x1804 = true → (u.lendFrozen fn = false → done (.lendRelease z) u []) ∧
          (u.lendFrozen fn = true → u.fget (kLndStat fn) fLndStat_CAUSE ≠ 6 →
            ¬ (u.fget (kLndStat fn) fLndStat_CAUSE = 5 ∧ (u.lf fn).link ≠ 2) →
            done (.lendRelease z) ((u.fput (kLndStat fn) fLndStat_STATE (u.lf fn).link).fput (kLndStat fn) fLndStat_CAUSE 0) [])) ∧
        (z.is 0x1805 = true → (u.lf fn).romEn = false → ∀ b v, u.BufRead v z (z.f 24 8) 65536 b false →
          done (.lendRomLoad z) ((v.setLf fn { v.lf fn with rom := b }).config 10 15 (0x1A + fn) ((chunks 5 8 (sm3 b)).map leNat)) [])) ∧
  (∀ (s : State) (z : ZCmd), s.ZReady z →
      let u := s.zstarted z
      let die := z.f 17 1
      let blk := z.f 18 1
      let done (c : Instr) (v : State) (r : List Byte) : Prop :=
        Completes c s fun t => t = { s.zdone z v 0 r with pending := s.pending }
      (z.is 0x2801 = true → u.bufOk z (z.f 24 8) (z.f 32 4) = true → 64 ≤ z.f 32 4 → z.f 32 4 % 64 = 0 →
        let l := u.ras.log.filter (fun r => decide (r.seq ≥ z.f 20 4))
        let m := z.f 32 4 / 64
        ∀ w, u.BufWritten w z (z.f 24 8) ((l.take m).flatMap (·.bytes (decide (u.srcOf z.qp = 3)))) →
          done (.rasRecords z) w (leBytes 4 (l.take m).length ++
            leBytes 4 (((l.drop m).head?.map (·.seq)).getD (u.fget kRasNextseq fRasNextseq_SEQ)) ++
            leBytes 4 (u.fget kRasLogstat fRasLogstat_LOST))) ∧
      (z.is 0x2802 = true → unitNamed die blk = true →
        done (.rasUnitState z) u ((u.unit die blk).result ++ leBytes 4 ((u.unit die blk).perm.getD noElem))) ∧
      (z.isFirst 0x2803 16 [1] = true → z.f 16 1 = 0 → unitNamed die blk = true → u.retirable die blk = true →
        z.f 20 2 = (u.unit die blk).gen.toNat → (u.srcOf z.qp = 2 → u.heldUnit die blk = none) →
        done (.rasRetire z) (u.planRetire die blk none) []) ∧
      (z.isOp 0x2803 16 1 = true → die < 12 → blk = 0xFF → z.f 20 2 = (u.unit die 0xFF).gen.toNat →
        (u.srcOf z.qp = 2 → u.heldOn die = none) → u.dieStill die = true →
        ∀ v, v = u.dieReset die →
        done (.rasRetireDieReset z) (({ v with ras := { v.ras with entry := SMap.set v.ras.entry die (BitVec.ofNat 64 (z.f 24 8)) } }).fullTrainDie die) []) ∧
      (z.isFirst 0x2804 16 [1] = true → z.f 16 1 = 0 →
        let l := u.ras.log.filter (fun r => decide (r.seq ≥ z.f 20 4))
        done (.rasClearRecords z) (({ u with ras := { u.ras with log := l } }).fput kRasLogstat fRasLogstat_HELD l.length) []) ∧
      (z.isOp 0x2804 16 1 = true → u.ras.perm.contains (z.f 20 4) = false →
        done (.rasClearElement z) { u with ras := { u.ras with tracked := u.ras.tracked.filter (fun p => p.1 ≠ z.f 20 4) } } []))

/-- Commands of class 0x08 (R412, R414, R415, R416, R417, R418, R420, R421, R422). SVI_QUERY returns the fields of the
instance, or zeros; SVI_CONFIG creates or changes it and waits for queue pairs that leave; SVI_RESET drains,
squashes or releases it; SVI_LOG starts, reads and stops the written-page log; SVI_FREEZE, SVI_THAW, SVI_SAVE and
SVI_RESTORE as R420-R422 state. (A restore of an image that this package did not save takes the fields that the
layout gives and free values for the opaque rest, whose consistency check is open: log 9.) -/
def Obligations.ServiceInstancesComplete : Prop :=
  ∀ (s : State) (z : ZCmd), s.ZReady z →
    let u := s.zstarted z
    let n := z.inst
    let done (c : Instr) (v : State) (r : List Byte) : Prop :=
      Completes c s fun t => t = { s.zdone z v 0 r with pending := s.pending }
    let runsOn (c : Instr) (v : State) : Prop := Completes c s fun t => t = { s.zruns z v with pending := s.pending }
    -- SVI_QUERY
    (z.is 0x0803 = true → (u.inst n = none → done (.sviQuery z) u (List.replicate 14 0)) ∧
      ∀ i, u.inst n = some i → done (.sviQuery z) u (leBytes 1 i.st ++ leBytes 1 i.op ++ leBytes 2 i.qfirst ++ leBytes 2 i.qcount ++
        leBytes 2 i.maxout ++ leBytes 2 (u.instOuts n).length ++ leBytes 1 i.weight ++
        leBytes 1 ((if i.logging then 1 else 0) + (if i.overflow then 2 else 0)) ++ leBytes 2 (u.zci.wlog.filter (fun e => e.1 = n)).length)) ∧
    (u.sviBusy n = false →
      -- SVI_CONFIG
      (∀ qf qc mo wt, z.is 0x0801 = true → qf = z.f 16 2 → qc = z.f 18 2 → mo = z.f 20 2 → wt = z.f 22 1 →
        (∀ i, u.inst n = some i → i.st ≠ 2) → 1 ≤ qc → qc ≤ 64 → 64 ≤ qf → qf + qc ≤ 8192 → 1 ≤ mo → mo ≤ 4096 → 1 ≤ wt → wt ≤ 16 →
        let new := (List.range qc).map (qf + ·)
        let old := ((u.inst n).map Inst.qps).getD []
        (∀ q, q ∈ new → q ∉ old → u.pair q = none ∧ u.ownerOf q = none) →
        ∀ (l : List (Nat × QPair)) v w, CtxsRead 6 (new.filter (fun q => !old.contains q)) u v (l.map fun p => (p.1, some p.2)) →
          w = v.sviAssign s.zid n qf qc mo wt l (old.filter (fun q => !new.contains q)) →
          (w.draining s.zid = false → done (.sviConfig z) w []) ∧
          (∀ i, w.draining s.zid = true → w.inst n = some i →
            runsOn (.sviConfig z) (w.setInst n (some { i with op := 1, opId := s.zid })))) ∧
      -- SVI_RESET
      (∀ c mode, (c, mode) ∈ [(Instr.sviResetDrain z, 0), (.sviResetSquash z, 1), (.sviResetRelease z, 2)] → c.wf = true → z.f 16 1 = mode →
        (u.inst n = none → done c u []) ∧
        ∀ i, u.inst n = some i → ¬ (i.st = 2 ∧ mode = 0) →
          let i' : Inst := { i with op := 2, opId := s.zid, mode := mode, count := (u.instOuts n).length }
          let w := (u.pairsTo i 4).setInst n (some i')
          runsOn c ((if mode = 0 then w else w.squash n).evt 15 0x1D 1)) ∧
      (∀ i, u.inst n = some i →
        -- SVI_LOG
        (z.isFirst 0x0804 16 [1, 2] = true → z.f 16 1 = 0 → (i.logging = true → done (.sviLogStart z) u []) ∧
          (i.logging = false → (u.zci.insts.filter (fun p => p.2.logging)).length < 16 →
            done (.sviLogStart z) (u.setInst n (some { i with logging := true })) [])) ∧
        (z.isOp 0x0804 16 1 = true → 1 ≤ z.f 32 4 → z.f 32 4 ≤ 65536 → u.bufOk z (z.f 24 8) (8 * z.f 32 4) = true →
          let mine := u.zci.wlog.filter (fun e => e.1 = n)
          let take := mine.take (z.f 32 4)
          ∀ w, u.BufWritten w z (z.f 24 8) (take.flatMap (fun e => leBytes 8 (e.2 * 4096))) →
            let v : State := { w with zci := { w.zci with wlog := w.zci.wlog.filter (fun e => !take.contains e) } }
            done (.sviLogRead z) ((v.setInst n (some { i with overflow := false })).evt 15 0x1D 7)
              (leBytes 4 take.length ++ leBytes 4 (mine.length - take.length) ++ [if i.overflow then 1 else 0])) ∧
        (z.isOp 0x0804 16 2 = true →
          let v : State := { u with zci := { u.zci with wlog := u.zci.wlog.filter (fun e => e.1 ≠ n) } }
          done (.sviLogStop z) (v.setInst n (some { i with logging := false })) []) ∧
        -- SVI_FREEZE, SVI_THAW, SVI_SAVE and SVI_RESTORE
        (∀ ids, ids = (u.instOuts n).map (·.id) →
          let pause (on : Bool) : State := { u with zci := { u.zci with
            outs := u.zci.outs.map fun (o : ZOut) => if ids.contains o.id then { o with paused := on } else o } }
          (z.is 0x0805 = true → (i.st = 2 → done (.sviFreeze z) u []) ∧ (i.st ≠ 2 →
            runsOn (.sviFreeze z) ((((pause true).pairsTo i 3).setInst n (some { i with op := 5, opId := s.zid })).evt 15 0x1D 2))) ∧
          (z.is 0x0808 = true → (i.st = 1 → done (.sviThaw z) u []) ∧ (i.st ≠ 1 →
            done (.sviThaw z) (((pause false).pairsTo i 1).setInst n (some { i with st := 1 })) []))) ∧
        (z.is 0x0806 = true → i.st = 2 → u.bufOk z (z.f 24 8) 4096 = true →
          ∀ w, u.BufWritten w z (z.f 24 8) (u.svBytes n i) →
            let x : SvImage := ⟨sm3 (u.svState n i), i.qfirst, (u.svPieces n i).1, (u.svPieces n i).2.1, (u.svPieces n i).2.2⟩
            done (.sviSave z) (({ w with zci := { w.zci with images := w.zci.images ++ [x] } }).evt 15 0x1D 3) []) ∧
        (z.is 0x0807 = true → i.st = 2 → ∀ b v, u.BufRead v z (z.f 24 8) 4096 b false → leNat (sliceB b 0 2) = 1 →
          sliceB b 16 32 = sm3 (b.drop 64) → leNat (sliceB b 4 2) = i.qcount →
          let w := v.evt 15 0x1D 4
          (∀ x, v.zci.images.find? (fun x => x.digest = sm3 (b.drop 64)) = some x → done (.sviRestore z) (w.restoreImage n i x) []) ∧
          (v.zci.images.find? (fun x => x.digest = sm3 (b.drop 64)) = none → Completes (.sviRestore z) s fun t =>
            t = { (if Config.imageOk (b.drop 64) then s.zdone z (w.restoreOpen n i) 0 [] else s.zfail z v zBadParam 0) with
              pending := s.pending }))))

/-- The end of a freeze, a reset and a queue drain (R390, R415, R417, R420). Once the replies of the instance are written
and no transfer of the command interface is under way, a freeze ends with the instance FROZEN; a
reset ends once no command of the instance is left, with its count, and frees or renews the instance; a stopped
queue pair that has drained is disabled, and the command that stopped it ends once the last of them has. -/
def Obligations.ServiceCompletionsComplete : Prop :=
  (∀ (s : State) (n : Nat) (i : Inst), n < 2048 → s.stopped = false →
    let s0 := s.zciFlush
    s0.inst n = some i → s0.owesReplies n = false → s0.zciWrites = false →
    (i.op = 5 → Completes (.sviFreezeComplete n) s fun t =>
      t = { (((s0.setInst n (some { i with st := 2, op := 0, opId := 0 })).final i.opId zDone 0 []).zciFlush) with pending := s.pending }) ∧
    (i.op = 2 → s0.instOuts n = [] →
      let u : State := { s0 with zci := { s0.zci with wlog := s0.zci.wlog.filter (fun e => e.1 ≠ n) } }
      let fin (v : State) : State := (v.final i.opId zDone 0 (leBytes 4 i.count)).zciFlush
      (i.mode = 2 → Completes (.sviResetComplete n) s fun t =>
        t = { fin ((i.qps.foldl (fun s q => s.setPair q none) u).setInst n none) with pending := s.pending }) ∧
      (∀ l v, i.mode ≠ 2 → CtxsRead 6 i.qps u v l → Completes (.sviResetComplete n) s fun t =>
        t = { fin ((l.foldl (State.renewPair n) v).setInst n
          (some { i with st := 1, op := 0, opId := 0, logging := false, overflow := false })) with pending := s.pending }))) ∧
  (∀ (s : State) (qp : Nat) (p : QPair) (id : Nat), qp < 8192 → s.stopped = false →
    let u := s.zciFlush
    u.pair qp = some p → p.stopBy = some id → u.qpBusy qp id = false →
    let v := u.setPair qp none
    (v.draining id = true → Completes (.queueDrainComplete qp) s fun t => t = { v with pending := s.pending }) ∧
    (v.draining id = false → Completes (.queueDrainComplete qp) s fun t =>
      t = { ((v.zci.insts.foldl (fun s i => if i.2.op = 1 ∧ i.2.opId = id then s.setInst i.1 (some { i.2 with op := 0, opId := 0 }) else s) v).final
        id zDone 0 []).zciFlush with pending := s.pending }))

/-- The Platform Description Block and the firmware images (R456, R460, R461, R462, R463, R464, R465, R466, R470, R471,
notes/assumptions/33). PDB_BEGIN opens a block, PDB_DATA appends to it, PDB_COMMIT applies one that passes the
checks, PDB_STATUS returns stage, lifecycle, the last rejection and the challenge. FW_LOAD places a chunk of an
image; FW_ACTIVATE starts Safelight, the service firmware, the monitor or, releasing every core that is not out, the
host firmware, and extends its events; FW_QUERY returns the state of a component. -/
def Obligations.BootCommandsComplete : Prop :=
  ∀ (s : State) (z : ZCmd), s.ZReady z →
    let u := s.zstarted z
    let done (c : Instr) (v : State) (r : List Byte) : Prop :=
      Completes c s fun t => t = { s.zdone z v 0 r with pending := s.pending }
    -- the Platform Description Block
    (z.is 0x0101 = true → u.plat.accepted = false → 16 ≤ z.f 16 4 → z.f 16 4 ≤ 1048576 → z.f 16 4 % 8 = 0 →
      done (.pdbBegin z) { u with boot := { u.boot with pdb := some (z.f 16 4, []) } } []) ∧
    (∀ len got, z.is 0x0102 = true → u.boot.pdb = some (len, got) → z.f 16 4 = got.length → got.length + z.f 32 4 ≤ len →
      ∀ b v, u.BufRead v z (z.f 24 8) (z.f 32 4) b false →
        done (.pdbData z) { v with boot := { v.boot with pdb := some (len, got ++ b) } } []) ∧
    (∀ b v, z.is 0x0103 = true → u.boot.pdb = some (b.length, b) → v = { u with boot := { u.boot with pdb := none } } →
      v.pdbCheck b = none → done (.pdbCommit z) (v.pdbApply b) []) ∧
    (z.is 0x0104 = true → done (.pdbStatus z) u ([BitVec.ofNat 8 u.stage, BitVec.ofNat 8 u.fuses.lifecycle, 0, 0] ++
      leBytes 4 (u.fget kMgtBoot fMgtBoot_REJECT) ++ leBytes 8 (u.rd kWldChal).toNat)) ∧
    -- firmware images
    (∀ c old, z.is 0x7F01 = true → c = z.f 16 1 → u.fwGate c = none → old = (if z.f 20 4 = 0 then 0 else (u.image c).length) →
      1 ≤ z.f 32 4 → z.f 32 4 ≤ (if z.qp = 0 then 4096 else 0x1000000) → z.f 20 4 = old → old + z.f 32 4 ≤ 256 + u.bodyMax c →
      ∀ b v w, u.BufRead v z (z.f 24 8) (z.f 32 4) b false → v.ChunkPlaced w c ((v.image c).take old ++ b) (z.f 20 4) →
        done (.fwLoad z) (w.setImage c (some ⟨(v.image c).take old ++ b, ((v.image c).take old ++ b).length⟩))
          (leBytes 4 ((v.image c).take old ++ b).length)) ∧
    (∀ c b, c = z.f 16 1 → u.fwGate c = none → b = u.image c → u.imageBad c b = none →
      (z.isFirst 0x7F02 16 [1, 2, 3] = true → c = 0 → (u.stage = 0 → u.pins.tamperN = true) →
        done (.fwActivateSafelight z) (({ u with boot := { u.boot with authKey := sliceB b 64 64 } }).imageUp 0 b).safelightStart []) ∧
      (z.isOp 0x7F02 16 1 = true →
        done (.fwActivateServiceFw z) (((if u.boot.released then u.dropAccepted else u).imageUp 1 b).startServiceFw (fieldB b 24 8)) []) ∧
      (∀ w, z.isOp 0x7F02 16 2 = true → u.RangeWritten w whoSafelight (u.plat.monBase + u.plat.monSize - 0x4000) u.plat.monKey true
          (monTables u.plat.monBase u.plat.monSize u.plat.monKey) →
        let v := w.imageUp 2 b
        done (.fwActivateMonitor z) { v with boot := { v.boot with monEntry := fieldB b 24 8 } } []) ∧
      (z.isOp 0x7F02 16 3 = true → (u.boot.active[1]?.getD none).isSome = true →
        (u.fon kWldCtl fWldCtl_MONEN = true → (u.boot.active[2]?.getD none).isSome = true) →
        ∀ v cores, v = u.imageUp 3 b → cores = (List.range 216).filter (fun n => !v.coreOut n) → cores ≠ [] →
          let w := (v.fput kRasCtl fRasCtl_LOCK 1).extend 13 5 (leBytes 27 (cores.foldl (fun a n => a + 2 ^ n) 0))
          let x := (w.each cores fun s n =>
            let s := s.releaseCore n (BitVec.ofNat 64 (fieldB b 16 8 + fieldB b 24 8))
            if u.fon kWldCtl fWldCtl_MONEN then s.monRegs n else s).setStage 5
          done (.fwActivateHostFw z) { x with boot := { x.boot with released := true } } [])) ∧
    (z.is 0x7F03 = true → z.f 16 1 ≤ 3 →
      let whole := (List.range 4).foldl (fun a i => if imageWhole (u.image i) then a + 2 ^ i else a) 0
      let a := ((u.boot.active[z.f 16 1]?.getD none).map (fun x => (x.svn, x.size))).getD (0, 0)
      done (.fwQuery z) u ([BitVec.ofNat 8 u.stage, BitVec.ofNat 8 whole, BitVec.ofNat 8 (u.fget kMgtBoot fMgtBoot_COMPS), 0] ++
        leBytes 4 a.1 ++ leBytes 4 a.2))

/-- The Exposure Record, the end of the boot window and the remap store (R361, R458, R473, R474, R477, R478, R480, R481,
R42). XR_READ writes the registers, the log from FIRST or the identity key; XR_QUOTE a quote; XR_EXTEND extends a
SOFTWARE event. The boot window closes into MEMORY with CAPABILITY extended, or into HALTED with SOCKET_ABSENT where
a socket did not join. The Enlarger takes its remap store into LOAD, or the package halts where there is no room. -/
def Obligations.ExposureCommandsComplete : Prop :=
  (∀ (s : State) (z : ZCmd), s.ZReady z →
    let u := s.zstarted z
    let done (c : Instr) (v : State) (r : List Byte) : Prop :=
      Completes c s fun t => t = { s.zdone z v 0 r with pending := s.pending }
    -- an output that fits its buffer is written whole
    let writes (c : Instr) (v : State) (len : Nat) (b res : List Byte) : Prop :=
      v.bufOk z (z.f 24 8) len = true → b.length ≤ len → ∀ w, v.BufWritten w z (z.f 24 8) b →
        done c w (leBytes 4 b.length ++ leBytes 4 w.xrCount ++ res)
    (z.isFirst 0x3001 16 [1, 2] = true → z.f 16 1 = 0 → writes (.xrReadRegisters z) u (z.f 32 4) ((List.range 32).flatMap u.xr) []) ∧
    (z.isOp 0x3001 16 1 = true →
      let l := u.boot.log.filter (fun e => decide (e.seq ≥ z.f 20 4))
      let w := fitLog l (z.f 32 4)
      (w = [] → l = []) →
      writes (.xrReadLog z) u (z.f 32 4) (w.flatMap (·.bytes)) (leBytes 4 (((l.drop w.length).head?.map (·.seq)).getD u.xrCount))) ∧
    (∀ d, z.isOp 0x3001 16 2 = true → u.wld.idPriv = some d →
      writes (.xrReadIdentity z) u (z.f 32 4) (sm2Pub d.toNat ++ leBytes 8 u.fuses.serial.toNat) []) ∧
    (∀ q, z.is 0x3002 = true → u.wld.idPriv.isSome = true → u.bufOk z (z.f 24 8) (z.f 20 4) = true →
      160 + 32 * ((List.range 32).filter (fun i => (BitVec.ofNat 32 (z.f 16 4)).getLsbD i)).length ≤ z.f 20 4 →
      q = u.quote (BitVec.ofNat 32 (z.f 16 4)) (leBytes 32 (z.f 32 32)) → writes (.xrQuote z) q.2 (z.f 20 4) (q.1.getD []) []) ∧
    (z.is 0x3003 = true → 16 ≤ z.f 16 1 → z.f 16 1 < 32 → (u.srcOf z.qp = 2 → 24 ≤ z.f 16 1) → z.f 20 4 ≤ 984 →
      let ev (desc : List Byte) (v : State) : State := v.extend 14 (z.f 16 1)
        ([BitVec.ofNat 8 (if u.srcOf z.qp = 1 then 1 else if u.srcOf z.qp = 2 then 2 else 3), 0, 0, 0, 0, 0, 0, 0] ++
          leBytes 32 (z.f 32 32) ++ desc)
      (z.f 20 4 = 0 → done (.xrExtend z) (ev [] u) []) ∧
      (∀ b v, z.f 20 4 ≠ 0 → u.BufRead v z (z.f 24 8) (z.f 20 4) b false → done (.xrExtend z) (ev b v) []))) ∧
  -- the boot window closes
  (∀ (s : State), s.stopped = false → s.boot.windowOpen = true → s.boot.cdPhase = false →
    let u : State := { s with boot := { s.boot with windowOpen := false } }
    let gone := (List.range 8).filter fun g => decide (u.role g = 5 ∧ u.fget (kFioXstat g) fFioXstat_STATE ≠ 2)
    (gone ≠ [] → Completes .bootWindowClose s fun t =>
      t = { (u.extend 8 5 [BitVec.ofNat 8 (gone.foldl (fun a g => a + 2 ^ g) 0)]).setStage 6 with pending := s.pending }) ∧
    (gone = [] → ∀ v, v = u.setStage 3 → Completes .bootWindowClose s fun t =>
      t = { v.extend 7 5 (([v.fuses.iodWord.toNat] ++ ((List.range 12).map fun n => if v.dieOut n then 0 else (v.rd (kSclPeercap n)).toNat) ++
        [(v.rd kMgtCapmask).toNat, (v.rd kMgtEffcap).toNat]).flatMap (leBytes 8)) with pending := s.pending })) ∧
  -- the Enlarger takes its remap store
  (∀ (s : State) (failing : List Nat), s.stopped = false → s.stage = 3 →
    ∀ u, u = s.plat.sets.zipIdx.foldl (fun s p => s.focusSet failing p) s →
      (∀ v, u.takeFrames (ceilDiv ((u.tiered.2 - u.tiered.1) / 0x200000 * 16) 4096) = some v →
        Completes (.remapStoreTaken true failing) s fun t =>
          t = { ({ v with enl := { v.enl with up := true } }).setStage 4 with pending := s.pending }) ∧
      ∀ ok, (ok = false ∨ u.takeFrames (ceilDiv ((u.tiered.2 - u.tiered.1) / 0x200000 * 16) 4096) = none) →
        Completes (.remapStoreTaken ok failing) s fun t =>
          t = { (u.config 13 15 0x50 []).setStage 6 with pending := s.pending })

/-- Commands of class 0x20 (R502, R506, R509, R511, R520, Table 17-6). PWR_QUERY returns the states, PWR_SET_LIMIT
stores the limits, PWR_SET_STATE sets MAXPS, a target, parks a die whose cores are all in C6 or unparks it and wakes
its cores, GRC_READ writes the sensors or the Wear Log: each where it is performed, when the firmware has accepted
it or when its row takes it. -/
def Obligations.PowerCommandsComplete : Prop :=
  ∀ (s : State) (z : ZCmd) (u : State) (e : State → List Byte → State), s.ZFirm z u e →
    let done (c : Instr) (v : State) (r : List Byte) : Prop := Completes c s fun t => t = { e v r with pending := s.pending }
    let d := z.f 17 1
    (z.is 0x2001 = true → (z.f 32 4 = 0 → done (.pwrQuery z) u u.pwrResult) ∧
      (∀ w, 208 ≤ z.f 32 4 → u.pwrRecords.2.BufWritten w z (z.f 24 8) u.pwrRecords.1 → done (.pwrQuery z) w u.pwrResult)) ∧
    (∀ pl1 pl2 tau, z.is 0x2002 = true → pl1 = z.f 16 2 → pl2 = z.f 18 2 → tau = z.f 20 4 → 100 ≤ pl1 → pl1 ≤ 640 → pl1 ≤ pl2 → pl2 ≤ 800 →
      10 ≤ tau → tau ≤ 10000 → done (.pwrSetLimit z)
        (((u.fput kPwrLimit fPwrLimit_PL1 pl1).fput kPwrLimit fPwrLimit_PL2 pl2).fput kPwrLimit fPwrLimit_TAU tau) []) ∧
    (z.isFirst 0x2003 16 [1, 2, 3] = true → z.f 16 1 = 0 → z.f 18 1 ≤ 2 →
      done (.pwrSetMaxps z) (u.fput kPwrPkg fPwrPkg_MAXPS (z.f 18 1)) []) ∧
    (z.isOp 0x2003 16 1 = true → d < 12 → 32 ≤ z.f 20 2 → z.f 20 2 ≤ 168 →
      done (.pwrSetTarget z) ((u.fput (kClkCdctl d) fClkCdctl_TARGET (z.f 20 2)).pwrEval d) []) ∧
    (z.isOp 0x2003 16 2 = true → d < 12 → u.heldOn d = none → (dieCores d).all (u.coreDeep 3) = true →
      done (.park z) ((if u.dstate d = 2 then u else u.dieSleep d).fput (kPwrDctl d) fPwrDctl_PARKED 1) []) ∧
    (z.isOp 0x2003 16 3 = true → d < 12 →
      (u.parked d = false → done (.unpark z) u []) ∧
      (u.parked d = true → ∀ v, v = u.fput (kPwrDctl d) fPwrDctl_PARKED 0 →
        (v.dieOut d = true → done (.unpark z) v []) ∧
        (v.dieOut d = false → done (.unpark z) ((v.dieRouse d [(9, d)]).each (dieCores d) (fun s n => coreWakeRun n s)) []))) ∧
    (u.bufOk z (z.f 24 8) (z.f 32 4) = true → ∀ w,
      (z.isFirst 0x2004 16 [1] = true → z.f 16 1 = 0 → u.sensors.length ≤ z.f 32 4 → u.BufWritten w z (z.f 24 8) u.sensors →
        done (.grcReadSensors z) w (leBytes 4 u.sensors.length)) ∧
      (z.isOp 0x2004 16 1 = true → u.wearLog.1.length ≤ z.f 32 4 → u.wearLog.2.BufWritten w z (z.f 24 8) u.wearLog.1 →
        done (.grcReadWearLog z) w (leBytes 4 u.wearLog.1.length)))

/-- Taking commands from rings, the firmware path and the boot mailbox (R395, R397, R398, R400, R403, R404, R405, R406,
R407). COMMAND_TAKE takes the 64 bytes at HEAD where the reply ring has room for the replies, counts a stall where
it has not, and stops the pair where the read faults. A fence-before release begins the oldest held command or ends
a broken chain. SF_ACCEPT writes ACCEPTED where it is due, its timer ends the command with BUSY, SF_TIMEOUT;
FIRMWARE_REPLY ends a command of Safelight's or the firmware's path; a boot-mailbox request is performed and
answered. -/
def Obligations.CommandTakingCompletes : Prop :=
  (∀ (s : State) (qp : Nat), qp < 8192 → s.stopped = false →
      let u := s.zciFlush
      -- COMMAND_TAKE
      (∀ p, u.pair qp = some p → p.st = 1 → p.head ≠ p.tail →
        u.atMaxout qp = false →
        (∀ b v z, u.SlotRead v qp p b false → z = ⟨qp, BitVec.ofNat 512 (leNat b), []⟩ →
          (v.reserved qp + zneed z ≤ p.room → Completes (.commandTake qp) s fun t =>
            t = { (v.ztake hAny z).slotDone qp v.zci.nextId with pending := s.pending }) ∧
          (p.room < v.reserved qp + zneed z → Completes (.commandTake qp) s fun t => t = { v.evt 15 0x1C 14 with pending := s.pending })) ∧
        (u.ownerOf qp = none → u.rangeTiered (p.sq + 64 * p.head) 64 = false →
          Completes (.commandTake qp) s fun t => t = { u.pairError qp with pending := s.pending })) ∧
      -- FENCE_BEFORE_RELEASE
      (∀ o, u.zci.outs.find? (fun o => decide (o.z.qp = qp) && !o.begun && !o.sfWait && !o.paused && !u.zheld o) = some o →
        (u.chainBroken o = true → Completes (.fenceBeforeRelease qp) s fun t =>
          t = { (u.endCmd o zNotPermitted dChain []).zciFlush with pending := s.pending }) ∧
        (u.chainBroken o = false →
          let h := hAny o.id o.z u
          let begun (w : Bool) : State := { h.2 with zci := { h.2.zci with outs := h.2.zci.outs.map fun (x : ZOut) =>
            if x.id = o.id then { x with begun := true, sfWait := if w then true else x.sfWait } else x } }
          let gives (v : State) : Prop := Completes (.fenceBeforeRelease qp) s fun t => t = { v with pending := s.pending }
          match h.1 with
          | .done d r => o.z.f 0 2 / 256 ≠ 0x20 → gives (h.2.endCmd o zDone d r).zciFlush
          | .later => o.z.f 0 2 / 256 ≠ 0x20 → gives (begun false).zciFlush
          | .pass => gives ((begun true).vecSp 2).zciFlush
          | .again => gives h.2
          | .fail st d => ∀ x, h.2.zci.outs.find? (fun y => y.id = o.id) = some x → gives (h.2.endCmd x st d []).zciFlush
          | .failWith st d r => ∀ x, h.2.zci.outs.find? (fun y => y.id = o.id) = some x → gives (h.2.endCmd x st d r).zciFlush))) ∧
  (∀ (s : State), s.stopped = false →
      -- the acceptance, or its timer
      (∀ id o, s.zci.outs.find? (fun o => decide (o.id = id) && o.sfWait) = some o →
        (∀ u, u = { s with zci := { s.zci with outs := s.zci.outs.map fun (x : ZOut) => if x.id = id then { x with sfWait := false } else x } } →
          Completes (.sfAccept id) s fun t =>
            t = { (if o.two && decide (o.z.qp ≠ 0) then u.queueRep o.z zAccepted 0 [] false else u).zciFlush with pending := s.pending }) ∧
        Completes (.sfAcceptanceTimeout id) s fun t =>
          t = { ((s.evt 15 0x1C 7).endCmd o zBusy dSfTimeout []).zciFlush with pending := s.pending }) ∧
      (∀ id, s.zci.outs.find? (fun o => decide (o.id = id) && o.sfWait) = none →
        Completes (.sfAccept id) s (fun t => t = s) ∧ Completes (.sfAcceptanceTimeout id) s (fun t => t = s)) ∧
      -- the final reply
      (∀ id st d r o, s.zciFlush.zci.outs.find? (fun o => decide (o.id = id) && o.begun && !o.sfWait) = some o → zpath o.z 0 = false →
        Completes (.firmwareReply id st d r) s fun t =>
          t = { (s.zciFlush.endCmd o st.toNat d.toNat (leBytes 23 r.toNat)).zciFlush with pending := s.pending }) ∧
      -- a request of the boot mailbox
      (∀ cmd att, let u := s.pkgTouch 7 0
        let z : ZCmd := ⟨0, cmd, att⟩
        u.ZReady z →
        let h := hAny u.zid z (u.zstarted z)
        let gives (v : State) : Prop := Completes (.bootMailboxRequest cmd att) s fun t => t = { v with pending := s.pending }
        match h.1 with
        | .done d r => gives (u.zdone z h.2 d r)
        | .later => gives (u.zruns z h.2)
        | .again => gives (u.zwaits z h.2)
        | _ => True))

/-- Scratch memory: access, wipe, errors and bank states (R428, R484, R485, R487, R488, R489, R491, R492). An access
waits while the wipe runs or its bank wakes, is not granted out of turn, is refused as R428 states, and otherwise
reads, writes or performs ADD and SWAP on its word after the errors that the word showed; a partial write or an
atomic of a poisoned word does not change it. A word written whole holds its value unmarked, and no other word
changes. Write-back of a corrected word, retention and wake change the bank's state only, and a woken bank serves
what waited in order. -/
def Obligations.ScratchBanksServe : Prop :=
  ∀ (s : State), s.stopped = false →
    (∀ (a : ScratchAccess), a.wf = true →
      (s.ssm.wiping = true → Completes (.scratchAccess a) s fun t => t = { s with ssm := { s.ssm with waiting := s.ssm.waiting ++ [a] } }) ∧
      (s.ssm.wiping = false → s.bankState (ssmBank a.offset) ≠ 0 → ∀ u, u = s.ssmWake (ssmBank a.offset) →
        Completes (.scratchAccess a) s fun t => t = { u with ssm := { u.ssm with waiting := u.ssm.waiting ++ [a] }, pending := s.pending }) ∧
      (s.ssm.wiping = false → s.bankState (ssmBank a.offset) = 0 → s.ssmGrants a = false →
        Completes (.scratchAccess a) s fun t => t = s) ∧
      (s.ssm.wiping = false → s.bankState (ssmBank a.offset) = 0 → s.ssmGrants a = true →
        ∀ g (y : Word → Bool → Out), g = s.ssmTurn a → (∀ v p, y v p = .scratch (a.sp.getD 4) a.offset v p) →
          let dark := ssmDark a
          (g.ssmDenied (decide (a.sp = some 0)) dark a.offset = true →
            Completes (.scratchAccess a) s fun t => t = { ((g.wldRefuse (a.write || a.amo.isSome) 1 (if a.sp.isNone then 3 else 2)
              (a.sp.getD 0) (a.offset / 64)).emit (y 0 false)) with pending := s.pending }) ∧
          (g.ssmDenied (decide (a.sp = some 0)) dark a.offset = false →
            -- `u` is the state after the errors that the word showed
            ∀ u w old p lo, u = g.ssmFaults a → w = a.offset / 8 → old = u.ssmWord w → p = u.ssmPoison w → lo = a.offset % 8 →
              (a.amo = none → a.write = false → Completes (.scratchAccess a) s fun t =>
                t = { u.emit (y (BitVec.ofNat 64 (fieldAt old lo a.size)) p) with pending := s.pending }) ∧
              (a.amo = none → a.write = true → a.size = 8 → Completes (.scratchAccess a) s fun t =>
                t = { (u.setSsm w a.data false).emit (y 0 false) with pending := s.pending }) ∧
              (a.amo = none → a.write = true → a.size ≠ 8 → p = false → Completes (.scratchAccess a) s fun t =>
                t = { (u.setSsm w (setAt old lo a.size a.data.toNat) false).emit (y 0 false) with pending := s.pending }) ∧
              (a.amo = none → a.write = true → a.size ≠ 8 → p = true → Completes (.scratchAccess a) s fun t =>
                t = { (u.ssmErr a.sp.isNone a.offset dark).emit (y 0 false) with pending := s.pending }) ∧
              (∀ op, a.amo = some op → (op = .add ∨ op = .swap) → p = false → Completes (.scratchAccess a) s fun t =>
                t = { ((u.setSsm w (setAt old lo a.size (amoCompute op a.size (fieldAt old lo a.size) a.data.toNat 0)) false).evtW dark 4 3).emit
                  (y (BitVec.ofNat 64 (fieldAt old lo a.size)) false) with pending := s.pending }) ∧
              (∀ op, a.amo = some op → ((op ≠ .add ∧ op ≠ .swap) ∨ p = true) → Completes (.scratchAccess a) s fun t =>
                t = { u.emit (y (BitVec.ofNat 64 (fieldAt old lo a.size)) p) with pending := s.pending })))) ∧
    -- a word written in full holds the value without a mark, and every other word is as before
    (∀ w v p, (s.setSsm w v p).ssmWord w = v ∧ (s.setSsm w v p).ssmPoison w = p ∧
      ∀ w', w' ≠ w → (s.setSsm w v p).ssmWord w' = s.ssmWord w' ∧ (s.setSsm w v p).ssmPoison w' = s.ssmPoison w') ∧
    (∀ off, off < 33554432 → off % 8 = 0 → Completes (.correctedWordWriteback off) s fun t =>
      t = { s with ssm := { s.ssm with pendingWb := s.ssm.pendingWb.filter (fun o => o ≠ off) } }) ∧
    (∀ b, b < 64 →
      (s.fon kSsmPwrctl fSsmPwrctl_AUTO = true → s.bankState b = 0 → Completes (.bankRetentionEntry b) s fun t =>
        t = s.setBank b 1) ∧
      (s.fon kSsmPwrctl fSsmPwrctl_AUTO = false ∨ s.bankState b ≠ 0 → Completes (.bankRetentionEntry b) s fun t => t = s) ∧
      (s.bankState b = 0 ∨ b ∉ s.ssm.waking → Completes (.bankWake b) s fun t => t = s) ∧
      (s.bankState b ≠ 0 → b ∈ s.ssm.waking →
        ∀ mine dark u v, mine = s.ssm.waiting.filter (fun a => ssmBank a.offset = b) → dark = (!mine.isEmpty && mine.all ssmDark) →
          u = (if s.bankState b = 2 then (s.wipeBank b).evtW dark 4 5 else s.evtW dark 4 4).setBank b 0 →
          v = { u with ssm := { u.ssm with waking := u.ssm.waking.filter (fun x => x ≠ b),
                                           waiting := u.ssm.waiting.filter (fun a => ssmBank a.offset ≠ b) } } →
          Completes (.bankWake b) s fun t => t = { v.each mine State.ssmPerform with pending := s.pending }))

/-- Power, cold and warm resets, tamper, the watchdog and thermal trip (R17, R449, R450, R454, R491, R495, R503, R536, R537,
R581, R582, R585, R588). The supply rows hold the package: every register at its cold value, TIME 0, no cores'
state, fuses kept; COLD_RESET_END starts it. WARM_RST_N, the watchdog's expiry and tamper start a warm reset, or
join one that runs, and a kick in the cycle of the expiry prevails; the watchdog warns once; a thermal trip stops every core and drives THERMTRIP_N; ENTDAA sets the
I3C address once; the end of the scratch wipe starts the boot ROM, which draws the challenge and extends the ROM
event. (The cause shown after a thermal trip is a free value: log 31.) -/
def Obligations.ColdAndWarmResetsComplete : Prop :=
  (∀ (s : State),
      -- the four rows that a held package takes, whatever held it
      (∀ c p r, (c, p, r) ∈ [(Instr.powerOn, true, true), (.coldReset, s.pins.pwrgood, false)] ∨
          (s.pins.pwrgood = true ∧ (c, p, r) = (.supplyFault, true, s.pins.coldRstN)) →
        Completes c s fun t => t = { s.coldHold p r with pending := s.pending } ∧
          (∀ k, t.rd k = pcsReset k) ∧ t.time = 0 ∧ t.fuses = s.fuses ∧ t.pins.inCold = true ∧ t.stopped = true ∧
          t.cores = [] ∧ t.media = [] ∧ t.ssm = State.reset.ssm ∧ t.ras = State.reset.ras ∧ t.out = s.out) ∧
      (s.pins.pwrgood = false → Completes .supplyFault s fun t => t = s) ∧
      (s.pins.inCold = false → ∀ b, Completes (.coldResetEnd b) s fun t => t = s) ∧
      (∀ b w p u, s.pins.inCold = true → w = s.draw.2 →
        p = { w.pins with inCold := false, pwrgood := true, coldRstN := true, testen := b,
                          pid := (0x5CF#16).zeroExtend 48 <<< 32 ||| (s.draw.1.setWidth 32).zeroExtend 48 } →
        u = { w with pins := p } →
        let v : State := if u.pins.tripped then
          { u.fresh.2.fput kWldRstcause fWldRstcause_CAUSE u.fresh.1.toNat with pins := { u.pins with tripped := false } } else u
        Completes (.coldResetEnd b) s fun t => t = { (if b then v.setStage 6 else v) with pending := s.pending })) ∧
  (∀ (s : State), s.stopped = false →
      -- WARM_RST_N, the secure watchdog and tamper; an event that meets a running reset joins it
      (s.ssm.wiping = false → Completes .warmRstN s fun t => t = { s.warmReset with pending := s.pending }) ∧
      (s.ssm.wiping = true → Completes .warmRstN s fun t => t = s) ∧
      (s.wld.kicked ≠ s.time → ∀ u, u = s.rstCause 1 → Completes .watchdogExpiry s fun t =>
        t = { (if s.ssm.wiping then u else u.warmReset) with pending := s.pending }) ∧
      -- a kick in the cycle of the expiry prevails
      (s.wld.kicked = s.time → Completes .watchdogExpiry s fun t => t = s) ∧
      (s.wld.warned = false → Completes .watchdogWarning s fun t =>
        t = { s.vec 216 5 with wld := { s.wld with warned := true }, pending := s.pending }) ∧
      (s.wld.warned = true → Completes .watchdogWarning s fun t => t = s) ∧
      (s.wld.tamperUsed = true → Completes .tamper s fun t =>
        t = { s with pins := { s.pins with tamperN := false }, wld := { s.wld with tamperLow := true } }) ∧
      (s.wld.tamperUsed = false →
        ∀ u v, u = { s with pins := { s.pins with tamperN := false }, wld := { s.wld with tamperLow := true, tamperUsed := true } } →
          v = (((((u.evt 15 2 7).vec 216 8).wipeKeys).rstCause 2).fadd kWldRstcause fWldRstcause_TAMPERS 1) →
          Completes .tamper s fun t => t = { v.warmEvent with pending := s.pending }) ∧
      Completes .tamperNRelease s (fun t =>
        t = { s with pins := { s.pins with tamperN := true }, wld := { s.wld with tamperLow := false, tamperUsed := false } }) ∧
      -- a thermal trip, the I3C target and the end of the scratch wipe
      (∀ d, d < 12 ∨ d = 15 → Completes (.thermtrip d) s fun t => t.pins.thermtrip = true ∧ t.stopped = true ∧
        t = { ({ s.each (List.range 216) (fun s n => s.haltCore n 3) with pins :=
          { (s.each (List.range 216) (fun s n => s.haltCore n 3)).pins with thermtrip := true } }).emit (.pin "THERMTRIP_N" true)
            with pending := s.pending }) ∧
      (∀ a, (s.pins.i3cAddr = none → Completes (.entdaa a) s fun t => t = { s with pins := { s.pins with i3cAddr := some a } }) ∧
        (s.pins.i3cAddr.isSome = true → Completes (.entdaa a) s fun t => t = s)) ∧
      (s.ssm.wiping = true → ∀ u, u = { s.wipeDone with boot := { s.wipeDone.boot with sp0Up := true, warm := false } } →
        (u.stage = 6 → Completes .scratchWipeComplete s fun t => t = { u with pending := s.pending }) ∧
        (u.stage ≠ 6 → ∀ w v, w = u.draw.2.wr kWldChal (u.draw.1.setWidth 64) → v = w.extend 1 0 (beBytes 32 w.fuses.romDigest.toNat) →
          Completes .scratchWipeComplete s fun t => t = { (if v.fuses.lifecycle = 4 then v.setStage 6 else v) with pending := s.pending })))

/-- What a warm reset keeps (R15, R495, R537, R541, R595, Table 0-2). Through WARM_RST_N, from a state whose register
file is in canonical form and in which no unit is RETIRING, TIME, the fuses, the error log, permanent Elements, the
registers of domain COLD and the RWS fields of all others keep their values; every other field of a register returns
to its reset value; the scratch wipe restarts and the cores, the ZCI and the event log are as at reset. (Media keep
their cells, which every frame being a zero frame makes unreachable: the model's choice.) -/
def Obligations.WarmResetKeepsColdRegisters : Prop :=
  ∀ (s : State), s.stopped = false → s.ssm.wiping = false → s.pcs.wf pcsReset = true →
    (∀ p, p ∈ s.ras.units → p.2.st ≠ .retiring) →
    Completes .warmRstN s fun t => t.time = s.time ∧ t.fuses = s.fuses ∧ t.media = s.media ∧ t.ssm.wiping = true ∧
      t.cores = [] ∧ t.zci = State.reset.zci ∧ t.boot.log = [] ∧ t.ras.log = s.ras.log ∧ t.ras.perm = s.ras.perm ∧
      -- (MC_STAT of a channel that erased a DRAM row shows it again)
      ∀ k d, regDefAt k = some d → (∀ c x, (c, x) ∈ s.chans → x.erased ≠ [] → k ≠ kMcStat c) →
        (d.dom = .cold → t.rd k = s.rd k) ∧
        (d.dom ≠ .cold → t.rd k = (s.rd k &&& BitVec.ofNat 64 d.rws) ||| (pcsReset k &&& ~~~ BitVec.ofNat 64 d.rws))

/-- Rails, clock hops, power and thermal samples, monitors and Bracketing (R497, R498, R500, R501, R502, R503, R511,
R512, R513, R514, R517). An AVSBus completion, expiry or clock hop ends its step of a die's transition and the point
is evaluated again; the third expiry loses the die. The power sample lowers NCAP by 4 above a limit and raises it by
1 after 1 ms below 95 per cent of both; the thermal sample does the same with TCAP at 100 and 97 degrees; a monitor
sample sets CUR, EXT and, at its first crossing, FLAG with a mark; a Bracketing pass takes its samples and then
evaluates dies, IOD, channels and the lanes of Flexible I/O. -/
def Obligations.RailAndClockCommandsComplete : Prop :=
  (∀ (s : State), s.stopped = false → ∀ r x, x = s.rail r →
      -- the rail reaches the commanded voltage
      (r < 13 →
        (∀ n g u, x.trans = .raising n g → u = (s.setVolt r x.target).setRail r { x with expiries := 0 } →
          (r = railIod ∨ n = u.neff r ∨ u.dieDark r = true → Completes (.avsbusComplete r) s fun t =>
            t = { (u.setTrans r .idle).pwrEval r with pending := s.pending }) ∧
          (r ≠ railIod → n ≠ u.neff r → u.dieDark r = false → Completes (.avsbusComplete r) s fun t =>
            t = { u.setTrans r (.hopUp n g) with pending := s.pending })) ∧
        (∀ n g u, x.trans = .lowering n g → u = (s.setVolt r x.target).setRail r { x with expiries := 0 } →
          Completes (.avsbusComplete r) s fun t => t = { (u.setTrans r .idle).pwrEval r with pending := s.pending }) ∧
        ((∀ n g, x.trans ≠ .raising n g ∧ x.trans ≠ .lowering n g) →
          Completes (.avsbusComplete r) s (fun t => t = s) ∧ Completes (.avsbusTimeout r) s fun t => t = s) ∧
        (∀ n g u, x.trans = .raising n g ∨ x.trans = .lowering n g → u = s.avsExpire r →
          (r < 12 → 3 ≤ (u.rail r).expiries → Completes (.avsbusTimeout r) s fun t => t = { u.railLost r with pending := s.pending }) ∧
          (12 ≤ r ∨ (u.rail r).expiries < 3 → Completes (.avsbusTimeout r) s fun t => t = { u.pwrEval r with pending := s.pending }))) ∧
      -- the clock runs at its new point
      (r < 12 →
        (∀ n g, x.trans = .hopUp n g → Completes (.clockHopComplete r) s fun t =>
          t = { ((s.hopTo r n).setTrans r .idle).pwrEval r with pending := s.pending }) ∧
        (∀ n g, x.trans = .hopDown n g → Completes (.clockHopComplete r) s fun t =>
          t = { (((s.hopTo r n).setGuard r g).setTrans r .idle).pwrEval r with pending := s.pending }) ∧
        ((∀ n g, x.trans ≠ .hopUp n g ∧ x.trans ≠ .hopDown n g) → Completes (.clockHopComplete r) s fun t => t = s))) ∧
  (∀ (s : State), s.stopped = false →
      -- the package power: NCAP falls by 4 above a limit, rises by 1 after 1 ms below both, and otherwise stands
      (∀ m1 mt u cap p, p = { s.pwr with mw1 := m1, mwTau := mt } → u = ({ s with pwr := p }).fput kPwrPkg fPwrPkg_POWER (min m1 (2 ^ 32 - 1)) →
        cap = u.fget kPwrPkg fPwrPkg_NCAP →
        (mt > u.pl1 * 1000 ∨ m1 > u.pl2 * 1000 →
          (max 32 (cap - 4) = cap → Completes (.powerManagerSample m1 mt) s fun t =>
            t = { ({ u with pwr := { u.pwr with ncapAt := u.time } }).pwrEvalAll with pending := s.pending }) ∧
          (max 32 (cap - 4) ≠ cap → ∀ w, w = u.setNcap (max 32 (cap - 4)) → Completes (.powerManagerSample m1 mt) s fun t =>
            t = { (({ w with pwr := { w.pwr with ncapAt := w.time } }).evt 15 5 4).pwrEvalAll with pending := s.pending })) ∧
        (mt * 100 < u.pl1 * 95000 → m1 * 100 < u.pl2 * 95000 →
          (u.time < u.pwr.ncapAt + 1000000 → Completes (.powerManagerSample m1 mt) s fun t => t = { u with pending := s.pending }) ∧
          (u.pwr.ncapAt + 1000000 ≤ u.time → ∀ w, w = u.setNcap (min 168 (cap + 1)) → Completes (.powerManagerSample m1 mt) s fun t =>
            t = { ({ w with pwr := { w.pwr with ncapAt := w.time } }).pwrEvalAll with pending := s.pending })) ∧
        (mt ≤ u.pl1 * 1000 → m1 ≤ u.pl2 * 1000 → u.pl1 * 95000 ≤ mt * 100 ∨ u.pl2 * 95000 ≤ m1 * 100 →
          Completes (.powerManagerSample m1 mt) s fun t => t = { u with pwr := { u.pwr with ncapAt := u.time }, pending := s.pending })) ∧
      -- a junction temperature: TCAP falls by 4 above 100 °C, rises by 1 after 1 ms at or below 97 °C
      (∀ d T u cap p, d < 12 ∨ d = 15 → p = { s.pwr with junction := SMap.put (fun _ => (0 : Int)) s.pwr.junction d T } → u = { s with pwr := p } →
        cap = u.fget (kClkCdctl d) fClkCdctl_TCAP →
        (d = 15 → Completes (.thermalSample d T) s fun t => t = { u with pending := s.pending }) ∧
        (d < 12 → T > 1000 → ∀ n w, n = max 32 (cap - 4) → w = u.fput (kClkCdctl d) fClkCdctl_TCAP n →
          ∀ q, q = { w.pwr with tcapAt := SMap.put (fun _ => 0) w.pwr.tcapAt d w.time } →
          (n = cap → Completes (.thermalSample d T) s fun t => t = { ({ w with pwr := q }).pwrEval d with pending := s.pending }) ∧
          (n ≠ cap → Completes (.thermalSample d T) s fun t => t = { (({ w with pwr := q }).evt d 0x20 5).pwrEval d with pending := s.pending })) ∧
        (d < 12 → T ≤ 970 → ∀ a, a = SMap.get (fun _ => 0) u.pwr.tcapAt d →
          (u.time < a + 1000000 → Completes (.thermalSample d T) s fun t => t = { u with pending := s.pending }) ∧
          (a + 1000000 ≤ u.time → ∀ w q, w = u.fput (kClkCdctl d) fClkCdctl_TCAP (min 168 (cap + 1)) →
            q = { w.pwr with tcapAt := SMap.put (fun _ => 0) w.pwr.tcapAt d w.time } →
            Completes (.thermalSample d T) s fun t => t = { ({ w with pwr := q }).pwrEval d with pending := s.pending })) ∧
        (d < 12 → 970 < T → T ≤ 1000 → Completes (.thermalSample d T) s fun t =>
          t = { u with pwr := { u.pwr with tcapAt := SMap.put (fun _ => 0) u.pwr.tcapAt d u.time }, pending := s.pending })) ∧
      -- a monitor sample: CUR takes it, EXT its extreme, and the first crossing of the threshold is recorded
      (∀ d i (v : BitVec 16), d < 12 ∨ d = 15 → i < 64 →
        (s.dieHeld d = true → Completes (.greyCardSample d i v) s fun t => t = s) ∧
        (s.dieHeld d = false → ∀ k e e' u w, k = kGrcSens d i → e = s.fget k fGrcSens_EXT →
          e' = (if isCpr d i then (if margin16 v.toNat < margin16 e then v.toNat else e) else max e v.toNat) →
          u = ((s.fput k fGrcSens_CUR v.toNat).fput k fGrcSens_EXT e').evt d (grcBlock d) 0 →
          w = (if isCpr d i then u.cprSeen d i (margin16 v.toNat) else u) →
          ∀ cross, cross = (if isCpr d i then decide (margin16 v.toNat < (w.fget kGrcCtl fGrcCtl_CPRWARN : Int))
            else decide (v.toNat ≥ w.fget kGrcCtl fGrcCtl_ROWARN)) →
          (cross = false ∨ w.fon k fGrcSens_FLAG = true → Completes (.greyCardSample d i v) s fun t => t = { w with pending := s.pending }) ∧
          (cross = true → w.fon k fGrcSens_FLAG = false → Completes (.greyCardSample d i v) s fun t =>
            t = { ((w.fput k fGrcSens_FLAG 1).evt d (grcBlock d) 1).marginRec 0x60 (d * 256 + i) with pending := s.pending }))) ∧
      -- a Bracketing pass takes its samples, then each die, the IOD and the channels
      (∀ b m, (b = true → s.stage = 3) → ∀ u, u = s.each ((List.range 12 ++ [15]).zip m) (fun s p => s.passSamples p.1 p.2) →
        Completes (.bracketingPass b m) s fun t =>
          t = { ((((u.each (List.range 12) State.passDie).passIod).passChans).passLanes).fadd kGrcBrk fGrcBrk_PASSES 1
            with pending := s.pending }) ∧
      (∀ m, s.stage ≠ 3 → Completes (.bracketingPass true m) s fun t => t = s))

/-- Core, die and package states: entry, exit and wake causes (R504, R505, R506, R507, R508, Table 17-2, Table 17-3,
Table 17-4). A waiting core with a wake condition leaves its state, its die waking first, with the cause recorded,
and C6 loses translations and predictor but not locked translations; a die whose cores are deep enough enters DS1 or
DS3, and wakes for a cause where it is not parked; the package goes one state deeper where every die sleeps (and is
quiet, beyond PS1), and one state back for a cause. -/
def Obligations.SleepAndWakeComplete : Prop :=
  ∀ (s : State), s.stopped = false →
    -- a core whose wake condition holds leaves its state; its die wakes first (R504, R508)
    (∀ n c l, n < 220 → c = s.core n → l = s.irqs n →
      (c.waiting = false ∨ l = [] ∨ s.wakeHeld n = true → Completes (.coreWake n) s fun t => t = s) ∧
      (c.waiting = true → l ≠ [] → s.wakeHeld n = false →
        (216 ≤ n ∨ s.cstate n = 0 → Completes (.coreWake n) s fun t => t = s.setCore n { c with waiting := false }) ∧
        (n < 216 → s.cstate n ≠ 0 → ∀ u v, u = (if s.dstate (n / 18) ≠ 0 then s.dieRouse (n / 18) l else s) →
          v = (u.fput (kPwrCctl n) fPwrCctl_CSTATE 0).fput (kPwrCctl n) fPwrCctl_WAKE (wakePick l).1 →
          (u.cstate n < 2 → Completes (.coreWake n) s fun t => t = { v.setCore n { c with waiting := false } with pending := s.pending }) ∧
          (2 ≤ u.cstate n → ∀ p d, p = ([] : SMap Nat) → d = { c with waiting := false, tlbs := ⟨[], [], [], c.tlbs.locked, [], []⟩ } →
            Completes (.coreWake n) s fun t => t = { v.setCore n { d with pred := p } with pending := s.pending })))) ∧
    -- a die whose cores are idle enters DS1 or DS3 (R505), and wakes
    (∀ d, d < 12 → ∀ most, most = s.fget (kPwrDctl d) fPwrDctl_MAXDS →
      (s.dstate d = 2 ∨ s.dieOut d = true ∨ (s.heldOn d).isSome = true ∨ (dieCores d).any s.irq = true ∨ most = 0 →
        Completes (.dieStateEntry d) s fun t => t = s) ∧
      (s.dstate d ≠ 2 → s.dieOut d = false → s.heldOn d = none → (dieCores d).any s.irq = false → most ≠ 0 →
        (2 ≤ most → (dieCores d).all (s.coreDeep 3) = true → Completes (.dieStateEntry d) s fun t =>
          t = { s.dieSleep d with pending := s.pending }) ∧
        (most < 2 ∨ (dieCores d).all (s.coreDeep 3) = false →
          (s.dstate d = 0 → (dieCores d).all (s.coreDeep 2) = true → Completes (.dieStateEntry d) s fun t =>
            t = s.fput (kPwrDstat d) fPwrDstat_DSTATE 1) ∧
          (s.dstate d ≠ 0 ∨ (dieCores d).all (s.coreDeep 2) = false → Completes (.dieStateEntry d) s fun t => t = s))) ∧
      ∀ codes, (s.dstate d = 0 ∨ s.parked d = true ∨ s.dieOut d = true ∨ wakeCodes codes = [] → Completes (.dieWake d codes) s fun t => t = s) ∧
        (s.dstate d ≠ 0 → s.parked d = false → s.dieOut d = false → wakeCodes codes ≠ [] → Completes (.dieWake d codes) s fun t =>
          t = { s.dieRouse d (wakeCodes codes) with pending := s.pending })) ∧
    -- the package goes one state deeper where the condition of its state holds, and back for a wake source (R507)
    (∀ asleep ps most, asleep = (List.range 12).all (fun d => decide (s.dstate d = 2) || s.parked d || s.dieOut d) →
      ps = s.fget kPwrPkg fPwrPkg_PS → most = min 2 (s.fget kPwrPkg fPwrPkg_MAXPS) →
      ∀ quiet, quiet = ((List.range 2).all (fun fn => !(s.lf fn).memEn) && s.enl.slots.isEmpty &&
        (List.range 8).all (fun g => !(decide (s.role g = 5) && decide (s.fget (kFioXstat g) fFioXstat_STATE = 2)))) →
      (asleep = false ∨ most ≤ ps ∨ (ps ≠ 0 ∧ quiet = false) → Completes .packageStateEntry s fun t => t = s) ∧
      (asleep = true → ps < most → ps = 0 ∨ quiet = true → Completes .packageStateEntry s fun t =>
        t = s.fput kPwrPkg fPwrPkg_PS (if ps = 0 then 1 else 2)) ∧
      ∀ codes l, l = wakeCodes codes →
        (l = [] ∨ ps = 0 ∨ ps = 3 ∨ (ps = 1 ∧ asleep = true) → Completes (.packageStateExit codes) s fun t => t = s) ∧
        (l ≠ [] → ps = 2 → Completes (.packageStateExit codes) s fun t =>
          t = { (s.fput kPwrPkg fPwrPkg_PS 1).lastWake l with pending := s.pending }) ∧
        (l ≠ [] → ps = 1 → asleep = false → Completes (.packageStateExit codes) s fun t =>
          t = { (s.fput kPwrPkg fPwrPkg_PS 0).lastWake l with pending := s.pending }))

/-- Planned retirement, a die that resets itself, and ERR_N (R239, R531, R532, R533, R535, R586, Table 18-6). A planned
retirement starts once Safelight runs and no hold covers the unit, runs its steps, and when they are done the unit
is RETIRED and recorded, its die too where it was its last core. A die that resets itself is a Contained LINK_DOWN,
is lost and trains again. ERR_N_RELEASE releases the pin and shows it; on a pin that is not asserted it does
nothing. -/
def Obligations.RetirementComplete : Prop :=
  (∀ (s : State) (u : UnitId), u.wf = true → s.stopped = false → (s.unit u.die u.block).st = .retiring →
    ((s.unit u.die u.block).started = false → s.safelight = true → s.heldUnit u.die u.block = none →
      Completes (.plannedRetirementStart u) s fun t => t = { s.retireSteps u.die u.block with pending := s.pending }) ∧
    ((s.unit u.die u.block).started = true → s.retireReady u.die u.block = true →
      ∀ v, v = ((((s.setUnit u.die u.block .retired).retireEnd u.die u.block).retireRecord u.die u.block (s.unit u.die u.block).cause).raise
        { cls := 2, kind := 0x11, element := (s.unit u.die u.block).cause.getD noElem, lost := true, counts := false }) →
        Completes (.retirementComplete u) s fun t =>
          t = { (if u.die < 12 ∧ u.block < 0x12 ∧ (List.range 18).all (fun l => decide ((v.unit u.die l).st = .retired)) then
            v.planRetire u.die 0xFF (s.unit u.die u.block).cause else v) with pending := s.pending })) ∧
  (∀ (s : State) (die : Nat), die < 12 → s.stopped = false → s.dieOut die = false →
    Completes (.dieSelfReset die) s fun t =>
      t = { ((((s.raise { cls := 2, kind := 0x24, agent := die, syn0 := s.rd (kSclUpmask ⟨true, die⟩), syn1 := s.rd (kSclDnmask ⟨true, die⟩) }).dieReset
        die).dieGone die).fullTrainDie die) with pending := s.pending }) ∧
  (∀ (s : State), s.stopped = false →
    (s.pins.err = true → Completes .errNRelease s fun t =>
      t = { s with pins := { s.pins with err := false }, out := s.out ++ [.pin "ERR_N" false] }) ∧
    (s.pins.err = false → Completes .errNRelease s fun t => t = s))

/-- Counters, the Contact Sheet, Test Strip and Agitation (R549, R550, R551, R552, R554, R556, R560, R561, R564, R565,
R567, R568). CSH_START, CSH_STOP and EVT_SNAPSHOT start, stop and take samples; a due sample is written, or lost
where the buffer is full; a written sheet is counted and signalled at half and all of the buffer; TST_RUN starts a
test of an isolated target that no hold covers, which its end or timer finishes; TST_RESULT writes the results;
AGT_SET and AGT_CLEAR extend AGITATION and set or clear slots. -/
def Obligations.ObservationCommandsComplete : Prop :=
  (∀ (s : State) (z : ZCmd), s.ZReady z →
      let u := s.zstarted z
      let done (c : Instr) (v : State) (r : List Byte) : Prop :=
        Completes c s fun t => t = { s.zdone z v 0 r with pending := s.pending }
      let runsOn (c : Instr) (v : State) : Prop := Completes c s fun t => t = { s.zruns z v with pending := s.pending }
      -- the Contact Sheet and the snapshot
      (z.is 0x4002 = true → 100 ≤ z.f 20 4 → z.f 20 4 ≤ 1000000 → 2 ≤ z.f 32 4 → z.f 32 4 ≤ 65536 →
        u.bufOk z (z.f 24 8) (z.f 32 4 * sheetSlot) = true → (z.f 16 1 % 2 = 1 → (u.rd kMgtEffcap).getLsbD 18 = true) →
        u.cnt.sheet = none →
        let v := (u.wr kCshHead 0).fput kCshStat fCshStat_WRITTEN 0
        done (.cshStart z) ((v.fput kCshStat fCshStat_DELTA (z.f 16 1 % 2)).setSheet (some ⟨z, u.time, 0, none, 0, false, [], false, none⟩)) []) ∧
      (z.is 0x4003 = true →
        (u.cnt.sheet = none → done (.cshStop z) u (leBytes 4 (u.fget kCshStat fCshStat_WRITTEN) ++ leBytes 4 (u.fget kCshStat fCshStat_LOST))) ∧
        (∀ q r v, u.cnt.sheet = some q → v = contactSheetSampleRun u → v.cnt.sheet = some r →
          runsOn (.cshStop z) ((v.setSheet (some { r with stopped := true, stops := r.stops ++ [s.zid] })).sheetEnd))) ∧
      (z.is 0x4001 = true → ∀ ks, ks = countersOf (z.f 16 1) (z.f 17 1) → ks ≠ [] → u.bufOk z (z.f 24 8) (z.f 32 4) = true →
        64 + 8 * ks.length ≤ z.f 32 4 → ∀ w, u.BufWritten w z (z.f 24 8) (u.sheetHeader false true false 0 ks.length u.time 0 0 ++
          ks.flatMap (fun k => leBytes 8 (u.counterVal k))) → done (.evtSnapshot z) w (leBytes 4 (64 + 8 * ks.length))) ∧
      -- the Test Strip
      (∀ die blk kind n voff tg, z.is 0x3801 = true → die = z.f 16 1 → blk = z.f 17 1 → kind = z.f 18 1 → n = z.f 20 2 → voff = z.f 22 2 →
        kind ≤ 2 → (n ≠ 0 → 32 ≤ n ∧ n ≤ 168) → -100 ≤ margin16 voff → margin16 voff ≤ 50 → 1 ≤ z.f 24 4 → z.f 24 4 ≤ 60000 →
        targetOf die blk = some tg → (tg ≠ .die → n = 0 ∧ voff = 0) → tg.kinds.contains kind = true →
        (kind = 1 → u.debugOpen = true) → u.heldUnit die blk = none → u.cnt.test = none → u.isolated tg die blk = true →
        runsOn (.tstRun z) (u.testStart s.zid die blk kind n voff)) ∧
      (z.is 0x3802 = true → z.f 32 4 % 16 = 0 → u.bufOk z (z.f 24 8) (z.f 32 4) = true →
        let l := (u.cnt.results.drop (z.f 20 2)).take (z.f 32 4 / 16)
        ∀ w, u.BufWritten w z (z.f 24 8) (l.flatMap testBytes) → done (.tstResult z) w (leBytes 4 l.length)) ∧
      -- Agitation
      (∀ i kind die blk value every cls, z.is 0x3C01 = true → i = z.f 16 1 → kind = z.f 17 1 → die = z.f 18 1 → blk = z.f 19 1 →
        value = z.f 20 2 → every = (if kind = 1 ∨ kind = 2 then 0 else z.f 22 2) → cls = (if kind = 1 then z.f 24 1 else 0) →
        u.debugOpen = true → i ≤ 63 → agtFits kind die blk value every cls = true → u.held die blk = false →
        let v := u.extend 11 8 (leBytes 1 1 ++ leBytes 1 i ++ leBytes 1 kind ++ leBytes 1 die ++ leBytes 1 blk ++ leBytes 1 cls ++
          leBytes 2 value ++ leBytes 2 every)
        let w := fAgtSlot_BLOCK.put (fAgtSlot_DIE.put (fAgtSlot_KIND.put (fAgtSlot_V.put 0 1) kind) die) blk
        done (.agtSet z) (v.setAgt i (fAgtSlot_VALUE.put (fAgtSlot_EVERY.put (fAgtSlot_CLASS.put w cls) every) value)) []) ∧
      (∀ i, z.is 0x3C02 = true → i = z.f 16 1 → (i ≤ 63 ∨ i = 0xFF) →
        done (.agtClear z) ((u.extend 11 8 (leBytes 1 2 ++ leBytes 1 i ++ List.replicate 8 0)).each (if i = 0xFF then List.range 64 else [i])
          fun s j => s.setAgt j 0) [])) ∧
  ((∀ (s : State) (r : SheetRun), s.stopped = false → s.cnt.sheet = some r →
      -- a sample is due
      (r.stopped = false → r.due ≤ s.time →
        let out := (s.fget kCshStat fCshStat_WRITTEN + 2 ^ 32 - s.fget kCshHead fCshHead_CONSUMED) % 2 ^ 32
        ((r.writing.isSome = true ∨ out = r.sheets) → Completes .contactSheetSample s fun t =>
          t = { s.setSheet (some { r with next := r.next + 1, lost := r.lost + 1, gap := true }) with pending := s.pending }) ∧
        (r.writing = none → out ≠ r.sheets → Completes .contactSheetSample s fun t =>
          t = { s.setSheet (some { r with next := r.next + 1, writing := some ⟨r.next, s.time, (countersOf 0xFF 0xFF).map s.counterVal⟩ })
            with pending := s.pending })) ∧
      -- a sheet is written
      (∀ w v, r.writing = some w → s.BufWritten v r.z (r.z.f 24 8 + (w.k % r.sheets) * sheetSlot) (s.sheetBytes r w) →
        let n := (v.fget kCshStat fCshStat_WRITTEN + 1) % 2 ^ 32
        let x := v.fput kCshStat fCshStat_WRITTEN n
        let out := (n + 2 ^ 32 - x.fget kCshHead fCshHead_CONSUMED) % 2 ^ 32
        Completes .sheetWritten s fun t =>
          t = { (((if out = r.sheets / 2 ∨ out = r.sheets then (x.vecSp 6).signal (r.z.f 36 2) else x).setSheet
            (some { r with writing := none, gap := false, last := some w })).sheetEnd).zciFlush with pending := s.pending })) ∧
    -- a test ends, or its time runs out
    (∀ (s : State) (found : List TestEntry) (t : TestRun), s.stopped = false → s.cnt.test = some t →
      ∀ c complete, (c, complete) ∈ [(Instr.testEnd found, true), (.testTimeout found, false)] → c.wf = true →
        let v := s.testFinish complete found
        (targetOf t.die t.block = some .core → Completes c s fun x =>
          x = { (coreWakeRun (18 * t.die + t.block) v).zciFlush with pending := s.pending }) ∧
        (targetOf t.die t.block ≠ some .core → Completes c s fun x => x = { v.zciFlush with pending := s.pending })))
end

