-- ==== Sys2Proof/Laws/Bytes.lean ====
section
/-! SUPPORT.
Byte strings: their lengths and the numbers they spell (R7). -/

namespace Sys2Proof.Machine

@[simp] theorem leBytes_length (n v : Nat) : (leBytes n v).length = n := by
  induction n generalizing v with
  | zero => rfl
  | succ n ih => simp [leBytes, ih]

/-- The bytes of a number spell it, as far as they reach. -/
theorem leNat_leBytes (n v : Nat) : leNat (leBytes n v) = v % 256 ^ n := by
  induction n generalizing v with
  | zero => simp [leBytes, leNat, Nat.mod_one]
  | succ n ih =>
    simp only [leBytes, leNat, ih, BitVec.toNat_ofNat]
    rw [show (2 ^ 8 : Nat) = 256 from rfl, show (256 : Nat) ^ (n + 1) = 256 * 256 ^ n from by rw [Nat.pow_succ, Nat.mul_comm], Nat.mod_mul]

/-- The number that bytes spell is below 256 to their count. -/
theorem leNat_lt (l : List Byte) : leNat l < 256 ^ l.length := by
  induction l with
  | nil => simp [leNat]
  | cons b r ih =>
    have : b.toNat < 256 := b.isLt
    simp only [leNat, List.length_cons, Nat.pow_succ]
    omega

/-- A slice of a whole byte string is that string. -/
theorem sliceB_whole (l : List Byte) (n : Nat) (h : l.length = n) : sliceB l 0 n = l := by
  subst h; simp [sliceB]

/-- A slice has the length asked for. -/
@[simp] theorem sliceB_length (l : List Byte) (lo n : Nat) : (sliceB l lo n).length = n := by
  simp [sliceB]

end Sys2Proof.Machine
end

