-- ==== Sys2Proof/Laws/Maps.lean ====
section
/-! SUPPORT.
Sparse maps: a read after a write, and that every operation keeps the canonical form. -/

namespace Sys2Proof.Machine.SMap

variable {α : Type}

theorem del_cons (k j : Nat) (v : α) (r : SMap α) :
    SMap.del ((j, v) :: r) k = if j = k then SMap.del r k else (j, v) :: SMap.del r k := by
  simp only [SMap.del, List.filter_cons]
  by_cases h : j = k <;> simp [h]

theorem get_del_ne (d : Nat → α) (m : SMap α) {k j : Nat} (h : j ≠ k) :
    SMap.get d (m.del k) j = SMap.get d m j := by
  induction m with
  | nil => rfl
  | cons p r ih =>
    obtain ⟨i, v⟩ := p
    rw [del_cons]
    by_cases hi : i = k
    · have hj : i ≠ j := by omega
      simp [hi, SMap.get, ih]
      omega
    · simp [hi, SMap.get, ih]

theorem get_del_eq (d : Nat → α) (m : SMap α) (k : Nat) : SMap.get d (m.del k) k = d k := by
  induction m with
  | nil => rfl
  | cons p r ih =>
    obtain ⟨i, v⟩ := p
    rw [del_cons]
    by_cases hi : i = k
    · simp [hi, ih]
    · simp [hi, SMap.get, ih]

theorem get_ins_ne (d : Nat → α) (m : SMap α) {k j : Nat} (v : α) (h : j ≠ k) :
    SMap.get d (SMap.ins m k v) j = SMap.get d m j := by
  induction m with
  | nil => simp [SMap.ins, SMap.get]; omega
  | cons p r ih =>
    obtain ⟨i, w⟩ := p
    by_cases hk : k < i
    · simp only [SMap.ins, hk, if_true, SMap.get]
      have : k ≠ j := by omega
      simp [this]
    · simp only [SMap.ins, hk, if_false, SMap.get, ih]

theorem get_ins_del_eq (d : Nat → α) (m : SMap α) (k : Nat) (v : α) :
    SMap.get d (SMap.ins (m.del k) k v) k = v := by
  induction m with
  | nil => simp [SMap.del, SMap.ins, SMap.get]
  | cons p r ih =>
    obtain ⟨i, w⟩ := p
    rw [del_cons]
    by_cases hi : i = k
    · simp [hi, ih]
    · simp only [hi, if_false]
      by_cases hk : k < i
      · simp [SMap.ins, hk, SMap.get]
      · simp [SMap.ins, hk, SMap.get, hi, ih]

/-- A read of the key that was written gives the value written. -/
@[simp] theorem get_put_eq [DecidableEq α] (d : Nat → α) (m : SMap α) (k : Nat) (v : α) :
    SMap.get d (SMap.put d m k v) k = v := by
  unfold SMap.put
  split
  · next h => rw [get_del_eq, h]
  · exact get_ins_del_eq d m k v

/-- A write leaves every other key alone. -/
theorem get_put_ne [DecidableEq α] (d : Nat → α) (m : SMap α) {k j : Nat} (v : α) (h : j ≠ k) :
    SMap.get d (SMap.put d m k v) j = SMap.get d m j := by
  unfold SMap.put
  split
  · exact get_del_ne d m h
  · rw [get_ins_ne d _ v h, get_del_ne d m h]

/-! ### Presence -/

theorem find_del_eq (m : SMap α) (k : Nat) : SMap.find (m.del k) k = none := by
  induction m with
  | nil => rfl
  | cons p r ih =>
    obtain ⟨i, v⟩ := p
    rw [del_cons]
    by_cases hi : i = k
    · simp [hi, ih]
    · simp [hi, SMap.find, ih]

theorem find_del_ne (m : SMap α) {k j : Nat} (h : j ≠ k) : SMap.find (m.del k) j = SMap.find m j := by
  induction m with
  | nil => rfl
  | cons p r ih =>
    obtain ⟨i, v⟩ := p
    rw [del_cons]
    by_cases hi : i = k
    · simp [hi, SMap.find, ih]; omega
    · simp [hi, SMap.find, ih]

theorem find_ins_ne (m : SMap α) {k j : Nat} (v : α) (h : j ≠ k) :
    SMap.find (SMap.ins m k v) j = SMap.find m j := by
  induction m with
  | nil => simp [SMap.ins, SMap.find]; omega
  | cons p r ih =>
    obtain ⟨i, w⟩ := p
    by_cases hk : k < i
    · have : k ≠ j := by omega
      simp [SMap.ins, hk, SMap.find, this]
    · simp [SMap.ins, hk, SMap.find, ih]

/-- A present entry is found under its key. -/
@[simp] theorem find_set_eq (m : SMap α) (k : Nat) (v : α) : SMap.find (SMap.set m k v) k = some v := by
  unfold SMap.set
  induction m with
  | nil => simp [SMap.del, SMap.ins, SMap.find]
  | cons p r ih =>
    obtain ⟨i, w⟩ := p
    rw [del_cons]
    by_cases hi : i = k
    · simp [hi, ih]
    · simp only [hi, if_false]
      by_cases hk : k < i
      · simp [SMap.ins, hk, SMap.find]
      · simp [SMap.ins, hk, SMap.find, hi, ih]

theorem find_set_ne (m : SMap α) {k j : Nat} (v : α) (h : j ≠ k) :
    SMap.find (SMap.set m k v) j = SMap.find m j := by
  unfold SMap.set
  rw [find_ins_ne _ v h, find_del_ne m h]

/-! ### The canonical form -/

theorem rises_mono {lo hi : Nat} (h : lo ≤ hi) : ∀ m : SMap α, SMap.risesFrom hi m = true → SMap.risesFrom lo m = true
  | [], _ => rfl
  | (k, v) :: r, hm => by
    simp only [SMap.risesFrom, Bool.and_eq_true, decide_eq_true_eq] at hm ⊢
    exact ⟨by omega, hm.2⟩

theorem rises_del (k : Nat) : ∀ (lo : Nat) (m : SMap α), SMap.risesFrom lo m = true → SMap.risesFrom lo (m.del k) = true
  | _, [], _ => rfl
  | lo, (j, v) :: r, hm => by
    simp only [SMap.risesFrom, Bool.and_eq_true, decide_eq_true_eq] at hm
    rw [del_cons]
    split
    · exact rises_mono (by omega) _ (rises_del k (j + 1) r hm.2)
    · simp only [SMap.risesFrom, Bool.and_eq_true, decide_eq_true_eq]
      exact ⟨hm.1, rises_del k (j + 1) r hm.2⟩

theorem rises_ins (k : Nat) (v : α) : ∀ (lo : Nat) (m : SMap α), lo ≤ k → SMap.risesFrom lo m = true →
    (∀ p ∈ m, p.1 ≠ k) → SMap.risesFrom lo (SMap.ins m k v) = true
  | lo, [], h, _, _ => by simp [SMap.ins, SMap.risesFrom, h]
  | lo, (j, w) :: r, h, hm, hn => by
    simp only [SMap.risesFrom, Bool.and_eq_true, decide_eq_true_eq] at hm
    have hj : j ≠ k := hn (j, w) (by simp)
    by_cases hk : k < j
    · simp only [SMap.ins, hk, if_true, SMap.risesFrom, Bool.and_eq_true, decide_eq_true_eq]
      exact ⟨h, by omega, hm.2⟩
    · simp only [SMap.ins, hk, if_false, SMap.risesFrom, Bool.and_eq_true, decide_eq_true_eq]
      exact ⟨hm.1, rises_ins k v (j + 1) r (by omega) hm.2 (fun p hp => hn p (by simp [hp]))⟩

theorem mem_ins {p : Nat × α} (k : Nat) (v : α) (m : SMap α) (h : p ∈ SMap.ins m k v) : p = (k, v) ∨ p ∈ m := by
  induction m with
  | nil => simpa [SMap.ins] using h
  | cons q r ih =>
    obtain ⟨j, w⟩ := q
    by_cases hk : k < j
    · simpa [SMap.ins, hk] using h
    · simp only [SMap.ins, hk, if_false, List.mem_cons] at h ⊢
      rcases h with h | h
      · exact .inr (.inl h)
      · rcases ih h with h | h
        · exact .inl h
        · exact .inr (.inr h)

theorem mem_del {p : Nat × α} {k : Nat} {m : SMap α} (h : p ∈ m.del k) : p ∈ m ∧ p.1 ≠ k := by
  simpa [SMap.del] using h

/-- Removing a key keeps the canonical form. -/
theorem wf_del [DecidableEq α] (d : Nat → α) (m : SMap α) (k : Nat) (h : m.wf d = true) : (m.del k).wf d = true := by
  simp only [SMap.wf, Bool.and_eq_true, List.all_eq_true, decide_eq_true_eq] at h ⊢
  exact ⟨rises_del k 0 m h.1, fun p hp => h.2 p (mem_del hp).1⟩

/-- A write keeps the canonical form. -/
theorem wf_put [DecidableEq α] (d : Nat → α) (m : SMap α) (k : Nat) (v : α) (h : m.wf d = true) :
    (SMap.put d m k v).wf d = true := by
  unfold SMap.put
  split
  · exact wf_del d m k h
  · next hv =>
    have hd := wf_del d m k h
    simp only [SMap.wf, Bool.and_eq_true, List.all_eq_true, decide_eq_true_eq] at hd ⊢
    refine ⟨rises_ins k v 0 _ (by omega) hd.1 (fun p hp => (mem_del hp).2), fun p hp => ?_⟩
    rcases mem_ins k v _ hp with h | h
    · simpa [h] using hv
    · exact hd.2 p h

end Sys2Proof.Machine.SMap
end

