-- ==== Sys2Proof/Laws/State.lean ====
section
/-! SUPPORT.
What each update of the state leaves alone: one lemma per field and update, so that no proof unfolds
an update (spec/00 R9–R15 for the register file; the rest is the layout of `State`). -/

namespace Sys2Proof.Machine

/-! ### `State.wr` changes `pcs` alone -/

@[simp] theorem State.wr_pending (s : State) (k : Nat) (v : Word) : (s.wr k v).pending = s.pending := rfl
@[simp] theorem State.wr_time (s : State) (k : Nat) (v : Word) : (s.wr k v).time = s.time := rfl
@[simp] theorem State.wr_fuses (s : State) (k : Nat) (v : Word) : (s.wr k v).fuses = s.fuses := rfl
@[simp] theorem State.wr_plat (s : State) (k : Nat) (v : Word) : (s.wr k v).plat = s.plat := rfl
@[simp] theorem State.wr_cores (s : State) (k : Nat) (v : Word) : (s.wr k v).cores = s.cores := rfl
@[simp] theorem State.wr_l3 (s : State) (k : Nat) (v : Word) : (s.wr k v).l3 = s.l3 := rfl
@[simp] theorem State.wr_spCache (s : State) (k : Nat) (v : Word) : (s.wr k v).spCache = s.spCache := rfl
@[simp] theorem State.wr_home (s : State) (k : Nat) (v : Word) : (s.wr k v).home = s.home := rfl
@[simp] theorem State.wr_links (s : State) (k : Nat) (v : Word) : (s.wr k v).links = s.links := rfl
@[simp] theorem State.wr_enl (s : State) (k : Nat) (v : Word) : (s.wr k v).enl = s.enl := rfl
@[simp] theorem State.wr_dks (s : State) (k : Nat) (v : Word) : (s.wr k v).dks = s.dks := rfl
@[simp] theorem State.wr_cdn (s : State) (k : Nat) (v : Word) : (s.wr k v).cdn = s.cdn := rfl
@[simp] theorem State.wr_chans (s : State) (k : Nat) (v : Word) : (s.wr k v).chans = s.chans := rfl
@[simp] theorem State.wr_media (s : State) (k : Nat) (v : Word) : (s.wr k v).media = s.media := rfl
@[simp] theorem State.wr_blobs (s : State) (k : Nat) (v : Word) : (s.wr k v).blobs = s.blobs := rfl
@[simp] theorem State.wr_fio (s : State) (k : Nat) (v : Word) : (s.wr k v).fio = s.fio := rfl
@[simp] theorem State.wr_lend (s : State) (k : Nat) (v : Word) : (s.wr k v).lend = s.lend := rfl
@[simp] theorem State.wr_zci (s : State) (k : Nat) (v : Word) : (s.wr k v).zci = s.zci := rfl
@[simp] theorem State.wr_iotu (s : State) (k : Nat) (v : Word) : (s.wr k v).iotu = s.iotu := rfl
@[simp] theorem State.wr_wld (s : State) (k : Nat) (v : Word) : (s.wr k v).wld = s.wld := rfl
@[simp] theorem State.wr_boot (s : State) (k : Nat) (v : Word) : (s.wr k v).boot = s.boot := rfl
@[simp] theorem State.wr_ssm (s : State) (k : Nat) (v : Word) : (s.wr k v).ssm = s.ssm := rfl
@[simp] theorem State.wr_pwr (s : State) (k : Nat) (v : Word) : (s.wr k v).pwr = s.pwr := rfl
@[simp] theorem State.wr_ras (s : State) (k : Nat) (v : Word) : (s.wr k v).ras = s.ras := rfl
@[simp] theorem State.wr_cnt (s : State) (k : Nat) (v : Word) : (s.wr k v).cnt = s.cnt := rfl
@[simp] theorem State.wr_pins (s : State) (k : Nat) (v : Word) : (s.wr k v).pins = s.pins := rfl
@[simp] theorem State.wr_free (s : State) (k : Nat) (v : Word) : (s.wr k v).free = s.free := rfl
@[simp] theorem State.wr_rnd (s : State) (k : Nat) (v : Word) : (s.wr k v).rnd = s.rnd := rfl
@[simp] theorem State.wr_out (s : State) (k : Nat) (v : Word) : (s.wr k v).out = s.out := rfl

/-! ### `State.fput` changes `pcs` alone -/

@[simp] theorem State.fput_pending (s : State) (k : Nat) (f : Fld) (n : Nat) : (s.fput k f n).pending = s.pending := rfl
@[simp] theorem State.fput_time (s : State) (k : Nat) (f : Fld) (n : Nat) : (s.fput k f n).time = s.time := rfl
@[simp] theorem State.fput_fuses (s : State) (k : Nat) (f : Fld) (n : Nat) : (s.fput k f n).fuses = s.fuses := rfl
@[simp] theorem State.fput_plat (s : State) (k : Nat) (f : Fld) (n : Nat) : (s.fput k f n).plat = s.plat := rfl
@[simp] theorem State.fput_cores (s : State) (k : Nat) (f : Fld) (n : Nat) : (s.fput k f n).cores = s.cores := rfl
@[simp] theorem State.fput_l3 (s : State) (k : Nat) (f : Fld) (n : Nat) : (s.fput k f n).l3 = s.l3 := rfl
@[simp] theorem State.fput_spCache (s : State) (k : Nat) (f : Fld) (n : Nat) : (s.fput k f n).spCache = s.spCache := rfl
@[simp] theorem State.fput_home (s : State) (k : Nat) (f : Fld) (n : Nat) : (s.fput k f n).home = s.home := rfl
@[simp] theorem State.fput_links (s : State) (k : Nat) (f : Fld) (n : Nat) : (s.fput k f n).links = s.links := rfl
@[simp] theorem State.fput_enl (s : State) (k : Nat) (f : Fld) (n : Nat) : (s.fput k f n).enl = s.enl := rfl
@[simp] theorem State.fput_dks (s : State) (k : Nat) (f : Fld) (n : Nat) : (s.fput k f n).dks = s.dks := rfl
@[simp] theorem State.fput_cdn (s : State) (k : Nat) (f : Fld) (n : Nat) : (s.fput k f n).cdn = s.cdn := rfl
@[simp] theorem State.fput_chans (s : State) (k : Nat) (f : Fld) (n : Nat) : (s.fput k f n).chans = s.chans := rfl
@[simp] theorem State.fput_media (s : State) (k : Nat) (f : Fld) (n : Nat) : (s.fput k f n).media = s.media := rfl
@[simp] theorem State.fput_blobs (s : State) (k : Nat) (f : Fld) (n : Nat) : (s.fput k f n).blobs = s.blobs := rfl
@[simp] theorem State.fput_fio (s : State) (k : Nat) (f : Fld) (n : Nat) : (s.fput k f n).fio = s.fio := rfl
@[simp] theorem State.fput_lend (s : State) (k : Nat) (f : Fld) (n : Nat) : (s.fput k f n).lend = s.lend := rfl
@[simp] theorem State.fput_zci (s : State) (k : Nat) (f : Fld) (n : Nat) : (s.fput k f n).zci = s.zci := rfl
@[simp] theorem State.fput_iotu (s : State) (k : Nat) (f : Fld) (n : Nat) : (s.fput k f n).iotu = s.iotu := rfl
@[simp] theorem State.fput_wld (s : State) (k : Nat) (f : Fld) (n : Nat) : (s.fput k f n).wld = s.wld := rfl
@[simp] theorem State.fput_boot (s : State) (k : Nat) (f : Fld) (n : Nat) : (s.fput k f n).boot = s.boot := rfl
@[simp] theorem State.fput_ssm (s : State) (k : Nat) (f : Fld) (n : Nat) : (s.fput k f n).ssm = s.ssm := rfl
@[simp] theorem State.fput_pwr (s : State) (k : Nat) (f : Fld) (n : Nat) : (s.fput k f n).pwr = s.pwr := rfl
@[simp] theorem State.fput_ras (s : State) (k : Nat) (f : Fld) (n : Nat) : (s.fput k f n).ras = s.ras := rfl
@[simp] theorem State.fput_cnt (s : State) (k : Nat) (f : Fld) (n : Nat) : (s.fput k f n).cnt = s.cnt := rfl
@[simp] theorem State.fput_pins (s : State) (k : Nat) (f : Fld) (n : Nat) : (s.fput k f n).pins = s.pins := rfl
@[simp] theorem State.fput_free (s : State) (k : Nat) (f : Fld) (n : Nat) : (s.fput k f n).free = s.free := rfl
@[simp] theorem State.fput_rnd (s : State) (k : Nat) (f : Fld) (n : Nat) : (s.fput k f n).rnd = s.rnd := rfl
@[simp] theorem State.fput_out (s : State) (k : Nat) (f : Fld) (n : Nat) : (s.fput k f n).out = s.out := rfl

/-! ### `State.fadd` changes `pcs` alone -/

@[simp] theorem State.fadd_pending (s : State) (k : Nat) (f : Fld) (n : Nat) : (s.fadd k f n).pending = s.pending := rfl
@[simp] theorem State.fadd_time (s : State) (k : Nat) (f : Fld) (n : Nat) : (s.fadd k f n).time = s.time := rfl
@[simp] theorem State.fadd_fuses (s : State) (k : Nat) (f : Fld) (n : Nat) : (s.fadd k f n).fuses = s.fuses := rfl
@[simp] theorem State.fadd_plat (s : State) (k : Nat) (f : Fld) (n : Nat) : (s.fadd k f n).plat = s.plat := rfl
@[simp] theorem State.fadd_cores (s : State) (k : Nat) (f : Fld) (n : Nat) : (s.fadd k f n).cores = s.cores := rfl
@[simp] theorem State.fadd_l3 (s : State) (k : Nat) (f : Fld) (n : Nat) : (s.fadd k f n).l3 = s.l3 := rfl
@[simp] theorem State.fadd_spCache (s : State) (k : Nat) (f : Fld) (n : Nat) : (s.fadd k f n).spCache = s.spCache := rfl
@[simp] theorem State.fadd_home (s : State) (k : Nat) (f : Fld) (n : Nat) : (s.fadd k f n).home = s.home := rfl
@[simp] theorem State.fadd_links (s : State) (k : Nat) (f : Fld) (n : Nat) : (s.fadd k f n).links = s.links := rfl
@[simp] theorem State.fadd_enl (s : State) (k : Nat) (f : Fld) (n : Nat) : (s.fadd k f n).enl = s.enl := rfl
@[simp] theorem State.fadd_dks (s : State) (k : Nat) (f : Fld) (n : Nat) : (s.fadd k f n).dks = s.dks := rfl
@[simp] theorem State.fadd_cdn (s : State) (k : Nat) (f : Fld) (n : Nat) : (s.fadd k f n).cdn = s.cdn := rfl
@[simp] theorem State.fadd_chans (s : State) (k : Nat) (f : Fld) (n : Nat) : (s.fadd k f n).chans = s.chans := rfl
@[simp] theorem State.fadd_media (s : State) (k : Nat) (f : Fld) (n : Nat) : (s.fadd k f n).media = s.media := rfl
@[simp] theorem State.fadd_blobs (s : State) (k : Nat) (f : Fld) (n : Nat) : (s.fadd k f n).blobs = s.blobs := rfl
@[simp] theorem State.fadd_fio (s : State) (k : Nat) (f : Fld) (n : Nat) : (s.fadd k f n).fio = s.fio := rfl
@[simp] theorem State.fadd_lend (s : State) (k : Nat) (f : Fld) (n : Nat) : (s.fadd k f n).lend = s.lend := rfl
@[simp] theorem State.fadd_zci (s : State) (k : Nat) (f : Fld) (n : Nat) : (s.fadd k f n).zci = s.zci := rfl
@[simp] theorem State.fadd_iotu (s : State) (k : Nat) (f : Fld) (n : Nat) : (s.fadd k f n).iotu = s.iotu := rfl
@[simp] theorem State.fadd_wld (s : State) (k : Nat) (f : Fld) (n : Nat) : (s.fadd k f n).wld = s.wld := rfl
@[simp] theorem State.fadd_boot (s : State) (k : Nat) (f : Fld) (n : Nat) : (s.fadd k f n).boot = s.boot := rfl
@[simp] theorem State.fadd_ssm (s : State) (k : Nat) (f : Fld) (n : Nat) : (s.fadd k f n).ssm = s.ssm := rfl
@[simp] theorem State.fadd_pwr (s : State) (k : Nat) (f : Fld) (n : Nat) : (s.fadd k f n).pwr = s.pwr := rfl
@[simp] theorem State.fadd_ras (s : State) (k : Nat) (f : Fld) (n : Nat) : (s.fadd k f n).ras = s.ras := rfl
@[simp] theorem State.fadd_cnt (s : State) (k : Nat) (f : Fld) (n : Nat) : (s.fadd k f n).cnt = s.cnt := rfl
@[simp] theorem State.fadd_pins (s : State) (k : Nat) (f : Fld) (n : Nat) : (s.fadd k f n).pins = s.pins := rfl
@[simp] theorem State.fadd_free (s : State) (k : Nat) (f : Fld) (n : Nat) : (s.fadd k f n).free = s.free := rfl
@[simp] theorem State.fadd_rnd (s : State) (k : Nat) (f : Fld) (n : Nat) : (s.fadd k f n).rnd = s.rnd := rfl
@[simp] theorem State.fadd_out (s : State) (k : Nat) (f : Fld) (n : Nat) : (s.fadd k f n).out = s.out := rfl

/-! ### `State.emit` changes `out` alone -/

@[simp] theorem State.emit_pending (s : State) (o : Out) : (s.emit o).pending = s.pending := rfl
@[simp] theorem State.emit_time (s : State) (o : Out) : (s.emit o).time = s.time := rfl
@[simp] theorem State.emit_pcs (s : State) (o : Out) : (s.emit o).pcs = s.pcs := rfl
@[simp] theorem State.emit_fuses (s : State) (o : Out) : (s.emit o).fuses = s.fuses := rfl
@[simp] theorem State.emit_plat (s : State) (o : Out) : (s.emit o).plat = s.plat := rfl
@[simp] theorem State.emit_cores (s : State) (o : Out) : (s.emit o).cores = s.cores := rfl
@[simp] theorem State.emit_l3 (s : State) (o : Out) : (s.emit o).l3 = s.l3 := rfl
@[simp] theorem State.emit_spCache (s : State) (o : Out) : (s.emit o).spCache = s.spCache := rfl
@[simp] theorem State.emit_home (s : State) (o : Out) : (s.emit o).home = s.home := rfl
@[simp] theorem State.emit_links (s : State) (o : Out) : (s.emit o).links = s.links := rfl
@[simp] theorem State.emit_enl (s : State) (o : Out) : (s.emit o).enl = s.enl := rfl
@[simp] theorem State.emit_dks (s : State) (o : Out) : (s.emit o).dks = s.dks := rfl
@[simp] theorem State.emit_cdn (s : State) (o : Out) : (s.emit o).cdn = s.cdn := rfl
@[simp] theorem State.emit_chans (s : State) (o : Out) : (s.emit o).chans = s.chans := rfl
@[simp] theorem State.emit_media (s : State) (o : Out) : (s.emit o).media = s.media := rfl
@[simp] theorem State.emit_blobs (s : State) (o : Out) : (s.emit o).blobs = s.blobs := rfl
@[simp] theorem State.emit_fio (s : State) (o : Out) : (s.emit o).fio = s.fio := rfl
@[simp] theorem State.emit_lend (s : State) (o : Out) : (s.emit o).lend = s.lend := rfl
@[simp] theorem State.emit_zci (s : State) (o : Out) : (s.emit o).zci = s.zci := rfl
@[simp] theorem State.emit_iotu (s : State) (o : Out) : (s.emit o).iotu = s.iotu := rfl
@[simp] theorem State.emit_wld (s : State) (o : Out) : (s.emit o).wld = s.wld := rfl
@[simp] theorem State.emit_boot (s : State) (o : Out) : (s.emit o).boot = s.boot := rfl
@[simp] theorem State.emit_ssm (s : State) (o : Out) : (s.emit o).ssm = s.ssm := rfl
@[simp] theorem State.emit_pwr (s : State) (o : Out) : (s.emit o).pwr = s.pwr := rfl
@[simp] theorem State.emit_ras (s : State) (o : Out) : (s.emit o).ras = s.ras := rfl
@[simp] theorem State.emit_cnt (s : State) (o : Out) : (s.emit o).cnt = s.cnt := rfl
@[simp] theorem State.emit_pins (s : State) (o : Out) : (s.emit o).pins = s.pins := rfl
@[simp] theorem State.emit_free (s : State) (o : Out) : (s.emit o).free = s.free := rfl
@[simp] theorem State.emit_rnd (s : State) (o : Out) : (s.emit o).rnd = s.rnd := rfl

/-! ### `State.setCore` changes `cores` alone -/

@[simp] theorem State.setCore_pending (s : State) (n : Nat) (c : Core) : (s.setCore n c).pending = s.pending := rfl
@[simp] theorem State.setCore_time (s : State) (n : Nat) (c : Core) : (s.setCore n c).time = s.time := rfl
@[simp] theorem State.setCore_pcs (s : State) (n : Nat) (c : Core) : (s.setCore n c).pcs = s.pcs := rfl
@[simp] theorem State.setCore_fuses (s : State) (n : Nat) (c : Core) : (s.setCore n c).fuses = s.fuses := rfl
@[simp] theorem State.setCore_plat (s : State) (n : Nat) (c : Core) : (s.setCore n c).plat = s.plat := rfl
@[simp] theorem State.setCore_l3 (s : State) (n : Nat) (c : Core) : (s.setCore n c).l3 = s.l3 := rfl
@[simp] theorem State.setCore_spCache (s : State) (n : Nat) (c : Core) : (s.setCore n c).spCache = s.spCache := rfl
@[simp] theorem State.setCore_home (s : State) (n : Nat) (c : Core) : (s.setCore n c).home = s.home := rfl
@[simp] theorem State.setCore_links (s : State) (n : Nat) (c : Core) : (s.setCore n c).links = s.links := rfl
@[simp] theorem State.setCore_enl (s : State) (n : Nat) (c : Core) : (s.setCore n c).enl = s.enl := rfl
@[simp] theorem State.setCore_dks (s : State) (n : Nat) (c : Core) : (s.setCore n c).dks = s.dks := rfl
@[simp] theorem State.setCore_cdn (s : State) (n : Nat) (c : Core) : (s.setCore n c).cdn = s.cdn := rfl
@[simp] theorem State.setCore_chans (s : State) (n : Nat) (c : Core) : (s.setCore n c).chans = s.chans := rfl
@[simp] theorem State.setCore_media (s : State) (n : Nat) (c : Core) : (s.setCore n c).media = s.media := rfl
@[simp] theorem State.setCore_blobs (s : State) (n : Nat) (c : Core) : (s.setCore n c).blobs = s.blobs := rfl
@[simp] theorem State.setCore_fio (s : State) (n : Nat) (c : Core) : (s.setCore n c).fio = s.fio := rfl
@[simp] theorem State.setCore_lend (s : State) (n : Nat) (c : Core) : (s.setCore n c).lend = s.lend := rfl
@[simp] theorem State.setCore_zci (s : State) (n : Nat) (c : Core) : (s.setCore n c).zci = s.zci := rfl
@[simp] theorem State.setCore_iotu (s : State) (n : Nat) (c : Core) : (s.setCore n c).iotu = s.iotu := rfl
@[simp] theorem State.setCore_wld (s : State) (n : Nat) (c : Core) : (s.setCore n c).wld = s.wld := rfl
@[simp] theorem State.setCore_boot (s : State) (n : Nat) (c : Core) : (s.setCore n c).boot = s.boot := rfl
@[simp] theorem State.setCore_ssm (s : State) (n : Nat) (c : Core) : (s.setCore n c).ssm = s.ssm := rfl
@[simp] theorem State.setCore_pwr (s : State) (n : Nat) (c : Core) : (s.setCore n c).pwr = s.pwr := rfl
@[simp] theorem State.setCore_ras (s : State) (n : Nat) (c : Core) : (s.setCore n c).ras = s.ras := rfl
@[simp] theorem State.setCore_cnt (s : State) (n : Nat) (c : Core) : (s.setCore n c).cnt = s.cnt := rfl
@[simp] theorem State.setCore_pins (s : State) (n : Nat) (c : Core) : (s.setCore n c).pins = s.pins := rfl
@[simp] theorem State.setCore_free (s : State) (n : Nat) (c : Core) : (s.setCore n c).free = s.free := rfl
@[simp] theorem State.setCore_rnd (s : State) (n : Nat) (c : Core) : (s.setCore n c).rnd = s.rnd := rfl
@[simp] theorem State.setCore_out (s : State) (n : Nat) (c : Core) : (s.setCore n c).out = s.out := rfl

/-! ### `State.setSlice` changes `home` alone -/

@[simp] theorem State.setSlice_pending (s : State) (n : Nat) (x : Slice) : (s.setSlice n x).pending = s.pending := rfl
@[simp] theorem State.setSlice_time (s : State) (n : Nat) (x : Slice) : (s.setSlice n x).time = s.time := rfl
@[simp] theorem State.setSlice_pcs (s : State) (n : Nat) (x : Slice) : (s.setSlice n x).pcs = s.pcs := rfl
@[simp] theorem State.setSlice_fuses (s : State) (n : Nat) (x : Slice) : (s.setSlice n x).fuses = s.fuses := rfl
@[simp] theorem State.setSlice_plat (s : State) (n : Nat) (x : Slice) : (s.setSlice n x).plat = s.plat := rfl
@[simp] theorem State.setSlice_cores (s : State) (n : Nat) (x : Slice) : (s.setSlice n x).cores = s.cores := rfl
@[simp] theorem State.setSlice_l3 (s : State) (n : Nat) (x : Slice) : (s.setSlice n x).l3 = s.l3 := rfl
@[simp] theorem State.setSlice_spCache (s : State) (n : Nat) (x : Slice) : (s.setSlice n x).spCache = s.spCache := rfl
@[simp] theorem State.setSlice_links (s : State) (n : Nat) (x : Slice) : (s.setSlice n x).links = s.links := rfl
@[simp] theorem State.setSlice_enl (s : State) (n : Nat) (x : Slice) : (s.setSlice n x).enl = s.enl := rfl
@[simp] theorem State.setSlice_dks (s : State) (n : Nat) (x : Slice) : (s.setSlice n x).dks = s.dks := rfl
@[simp] theorem State.setSlice_cdn (s : State) (n : Nat) (x : Slice) : (s.setSlice n x).cdn = s.cdn := rfl
@[simp] theorem State.setSlice_chans (s : State) (n : Nat) (x : Slice) : (s.setSlice n x).chans = s.chans := rfl
@[simp] theorem State.setSlice_media (s : State) (n : Nat) (x : Slice) : (s.setSlice n x).media = s.media := rfl
@[simp] theorem State.setSlice_blobs (s : State) (n : Nat) (x : Slice) : (s.setSlice n x).blobs = s.blobs := rfl
@[simp] theorem State.setSlice_fio (s : State) (n : Nat) (x : Slice) : (s.setSlice n x).fio = s.fio := rfl
@[simp] theorem State.setSlice_lend (s : State) (n : Nat) (x : Slice) : (s.setSlice n x).lend = s.lend := rfl
@[simp] theorem State.setSlice_zci (s : State) (n : Nat) (x : Slice) : (s.setSlice n x).zci = s.zci := rfl
@[simp] theorem State.setSlice_iotu (s : State) (n : Nat) (x : Slice) : (s.setSlice n x).iotu = s.iotu := rfl
@[simp] theorem State.setSlice_wld (s : State) (n : Nat) (x : Slice) : (s.setSlice n x).wld = s.wld := rfl
@[simp] theorem State.setSlice_boot (s : State) (n : Nat) (x : Slice) : (s.setSlice n x).boot = s.boot := rfl
@[simp] theorem State.setSlice_ssm (s : State) (n : Nat) (x : Slice) : (s.setSlice n x).ssm = s.ssm := rfl
@[simp] theorem State.setSlice_pwr (s : State) (n : Nat) (x : Slice) : (s.setSlice n x).pwr = s.pwr := rfl
@[simp] theorem State.setSlice_ras (s : State) (n : Nat) (x : Slice) : (s.setSlice n x).ras = s.ras := rfl
@[simp] theorem State.setSlice_cnt (s : State) (n : Nat) (x : Slice) : (s.setSlice n x).cnt = s.cnt := rfl
@[simp] theorem State.setSlice_pins (s : State) (n : Nat) (x : Slice) : (s.setSlice n x).pins = s.pins := rfl
@[simp] theorem State.setSlice_free (s : State) (n : Nat) (x : Slice) : (s.setSlice n x).free = s.free := rfl
@[simp] theorem State.setSlice_rnd (s : State) (n : Nat) (x : Slice) : (s.setSlice n x).rnd = s.rnd := rfl
@[simp] theorem State.setSlice_out (s : State) (n : Nat) (x : Slice) : (s.setSlice n x).out = s.out := rfl

/-! ### `State.setChan` changes `chans` alone -/

@[simp] theorem State.setChan_pending (s : State) (n : Nat) (x : Chan) : (s.setChan n x).pending = s.pending := rfl
@[simp] theorem State.setChan_time (s : State) (n : Nat) (x : Chan) : (s.setChan n x).time = s.time := rfl
@[simp] theorem State.setChan_pcs (s : State) (n : Nat) (x : Chan) : (s.setChan n x).pcs = s.pcs := rfl
@[simp] theorem State.setChan_fuses (s : State) (n : Nat) (x : Chan) : (s.setChan n x).fuses = s.fuses := rfl
@[simp] theorem State.setChan_plat (s : State) (n : Nat) (x : Chan) : (s.setChan n x).plat = s.plat := rfl
@[simp] theorem State.setChan_cores (s : State) (n : Nat) (x : Chan) : (s.setChan n x).cores = s.cores := rfl
@[simp] theorem State.setChan_l3 (s : State) (n : Nat) (x : Chan) : (s.setChan n x).l3 = s.l3 := rfl
@[simp] theorem State.setChan_spCache (s : State) (n : Nat) (x : Chan) : (s.setChan n x).spCache = s.spCache := rfl
@[simp] theorem State.setChan_home (s : State) (n : Nat) (x : Chan) : (s.setChan n x).home = s.home := rfl
@[simp] theorem State.setChan_links (s : State) (n : Nat) (x : Chan) : (s.setChan n x).links = s.links := rfl
@[simp] theorem State.setChan_enl (s : State) (n : Nat) (x : Chan) : (s.setChan n x).enl = s.enl := rfl
@[simp] theorem State.setChan_dks (s : State) (n : Nat) (x : Chan) : (s.setChan n x).dks = s.dks := rfl
@[simp] theorem State.setChan_cdn (s : State) (n : Nat) (x : Chan) : (s.setChan n x).cdn = s.cdn := rfl
@[simp] theorem State.setChan_media (s : State) (n : Nat) (x : Chan) : (s.setChan n x).media = s.media := rfl
@[simp] theorem State.setChan_blobs (s : State) (n : Nat) (x : Chan) : (s.setChan n x).blobs = s.blobs := rfl
@[simp] theorem State.setChan_fio (s : State) (n : Nat) (x : Chan) : (s.setChan n x).fio = s.fio := rfl
@[simp] theorem State.setChan_lend (s : State) (n : Nat) (x : Chan) : (s.setChan n x).lend = s.lend := rfl
@[simp] theorem State.setChan_zci (s : State) (n : Nat) (x : Chan) : (s.setChan n x).zci = s.zci := rfl
@[simp] theorem State.setChan_iotu (s : State) (n : Nat) (x : Chan) : (s.setChan n x).iotu = s.iotu := rfl
@[simp] theorem State.setChan_wld (s : State) (n : Nat) (x : Chan) : (s.setChan n x).wld = s.wld := rfl
@[simp] theorem State.setChan_boot (s : State) (n : Nat) (x : Chan) : (s.setChan n x).boot = s.boot := rfl
@[simp] theorem State.setChan_ssm (s : State) (n : Nat) (x : Chan) : (s.setChan n x).ssm = s.ssm := rfl
@[simp] theorem State.setChan_pwr (s : State) (n : Nat) (x : Chan) : (s.setChan n x).pwr = s.pwr := rfl
@[simp] theorem State.setChan_ras (s : State) (n : Nat) (x : Chan) : (s.setChan n x).ras = s.ras := rfl
@[simp] theorem State.setChan_cnt (s : State) (n : Nat) (x : Chan) : (s.setChan n x).cnt = s.cnt := rfl
@[simp] theorem State.setChan_pins (s : State) (n : Nat) (x : Chan) : (s.setChan n x).pins = s.pins := rfl
@[simp] theorem State.setChan_free (s : State) (n : Nat) (x : Chan) : (s.setChan n x).free = s.free := rfl
@[simp] theorem State.setChan_rnd (s : State) (n : Nat) (x : Chan) : (s.setChan n x).rnd = s.rnd := rfl
@[simp] theorem State.setChan_out (s : State) (n : Nat) (x : Chan) : (s.setChan n x).out = s.out := rfl

/-! ### `State.setCtx` changes `dks` alone -/

@[simp] theorem State.setCtx_pending (s : State) (k : Nat) (x : KeyCtx) : (s.setCtx k x).pending = s.pending := rfl
@[simp] theorem State.setCtx_time (s : State) (k : Nat) (x : KeyCtx) : (s.setCtx k x).time = s.time := rfl
@[simp] theorem State.setCtx_pcs (s : State) (k : Nat) (x : KeyCtx) : (s.setCtx k x).pcs = s.pcs := rfl
@[simp] theorem State.setCtx_fuses (s : State) (k : Nat) (x : KeyCtx) : (s.setCtx k x).fuses = s.fuses := rfl
@[simp] theorem State.setCtx_plat (s : State) (k : Nat) (x : KeyCtx) : (s.setCtx k x).plat = s.plat := rfl
@[simp] theorem State.setCtx_cores (s : State) (k : Nat) (x : KeyCtx) : (s.setCtx k x).cores = s.cores := rfl
@[simp] theorem State.setCtx_l3 (s : State) (k : Nat) (x : KeyCtx) : (s.setCtx k x).l3 = s.l3 := rfl
@[simp] theorem State.setCtx_spCache (s : State) (k : Nat) (x : KeyCtx) : (s.setCtx k x).spCache = s.spCache := rfl
@[simp] theorem State.setCtx_home (s : State) (k : Nat) (x : KeyCtx) : (s.setCtx k x).home = s.home := rfl
@[simp] theorem State.setCtx_links (s : State) (k : Nat) (x : KeyCtx) : (s.setCtx k x).links = s.links := rfl
@[simp] theorem State.setCtx_enl (s : State) (k : Nat) (x : KeyCtx) : (s.setCtx k x).enl = s.enl := rfl
@[simp] theorem State.setCtx_cdn (s : State) (k : Nat) (x : KeyCtx) : (s.setCtx k x).cdn = s.cdn := rfl
@[simp] theorem State.setCtx_chans (s : State) (k : Nat) (x : KeyCtx) : (s.setCtx k x).chans = s.chans := rfl
@[simp] theorem State.setCtx_media (s : State) (k : Nat) (x : KeyCtx) : (s.setCtx k x).media = s.media := rfl
@[simp] theorem State.setCtx_blobs (s : State) (k : Nat) (x : KeyCtx) : (s.setCtx k x).blobs = s.blobs := rfl
@[simp] theorem State.setCtx_fio (s : State) (k : Nat) (x : KeyCtx) : (s.setCtx k x).fio = s.fio := rfl
@[simp] theorem State.setCtx_lend (s : State) (k : Nat) (x : KeyCtx) : (s.setCtx k x).lend = s.lend := rfl
@[simp] theorem State.setCtx_zci (s : State) (k : Nat) (x : KeyCtx) : (s.setCtx k x).zci = s.zci := rfl
@[simp] theorem State.setCtx_iotu (s : State) (k : Nat) (x : KeyCtx) : (s.setCtx k x).iotu = s.iotu := rfl
@[simp] theorem State.setCtx_wld (s : State) (k : Nat) (x : KeyCtx) : (s.setCtx k x).wld = s.wld := rfl
@[simp] theorem State.setCtx_boot (s : State) (k : Nat) (x : KeyCtx) : (s.setCtx k x).boot = s.boot := rfl
@[simp] theorem State.setCtx_ssm (s : State) (k : Nat) (x : KeyCtx) : (s.setCtx k x).ssm = s.ssm := rfl
@[simp] theorem State.setCtx_pwr (s : State) (k : Nat) (x : KeyCtx) : (s.setCtx k x).pwr = s.pwr := rfl
@[simp] theorem State.setCtx_ras (s : State) (k : Nat) (x : KeyCtx) : (s.setCtx k x).ras = s.ras := rfl
@[simp] theorem State.setCtx_cnt (s : State) (k : Nat) (x : KeyCtx) : (s.setCtx k x).cnt = s.cnt := rfl
@[simp] theorem State.setCtx_pins (s : State) (k : Nat) (x : KeyCtx) : (s.setCtx k x).pins = s.pins := rfl
@[simp] theorem State.setCtx_free (s : State) (k : Nat) (x : KeyCtx) : (s.setCtx k x).free = s.free := rfl
@[simp] theorem State.setCtx_rnd (s : State) (k : Nat) (x : KeyCtx) : (s.setCtx k x).rnd = s.rnd := rfl
@[simp] theorem State.setCtx_out (s : State) (k : Nat) (x : KeyCtx) : (s.setCtx k x).out = s.out := rfl

/-! ### `State.setEnt` changes `enl` alone -/

@[simp] theorem State.setEnt_pending (s : State) (f : Nat) (x : FrameEnt) : (s.setEnt f x).pending = s.pending := rfl
@[simp] theorem State.setEnt_time (s : State) (f : Nat) (x : FrameEnt) : (s.setEnt f x).time = s.time := rfl
@[simp] theorem State.setEnt_pcs (s : State) (f : Nat) (x : FrameEnt) : (s.setEnt f x).pcs = s.pcs := rfl
@[simp] theorem State.setEnt_fuses (s : State) (f : Nat) (x : FrameEnt) : (s.setEnt f x).fuses = s.fuses := rfl
@[simp] theorem State.setEnt_plat (s : State) (f : Nat) (x : FrameEnt) : (s.setEnt f x).plat = s.plat := rfl
@[simp] theorem State.setEnt_cores (s : State) (f : Nat) (x : FrameEnt) : (s.setEnt f x).cores = s.cores := rfl
@[simp] theorem State.setEnt_l3 (s : State) (f : Nat) (x : FrameEnt) : (s.setEnt f x).l3 = s.l3 := rfl
@[simp] theorem State.setEnt_spCache (s : State) (f : Nat) (x : FrameEnt) : (s.setEnt f x).spCache = s.spCache := rfl
@[simp] theorem State.setEnt_home (s : State) (f : Nat) (x : FrameEnt) : (s.setEnt f x).home = s.home := rfl
@[simp] theorem State.setEnt_links (s : State) (f : Nat) (x : FrameEnt) : (s.setEnt f x).links = s.links := rfl
@[simp] theorem State.setEnt_dks (s : State) (f : Nat) (x : FrameEnt) : (s.setEnt f x).dks = s.dks := rfl
@[simp] theorem State.setEnt_cdn (s : State) (f : Nat) (x : FrameEnt) : (s.setEnt f x).cdn = s.cdn := rfl
@[simp] theorem State.setEnt_chans (s : State) (f : Nat) (x : FrameEnt) : (s.setEnt f x).chans = s.chans := rfl
@[simp] theorem State.setEnt_media (s : State) (f : Nat) (x : FrameEnt) : (s.setEnt f x).media = s.media := rfl
@[simp] theorem State.setEnt_blobs (s : State) (f : Nat) (x : FrameEnt) : (s.setEnt f x).blobs = s.blobs := rfl
@[simp] theorem State.setEnt_fio (s : State) (f : Nat) (x : FrameEnt) : (s.setEnt f x).fio = s.fio := rfl
@[simp] theorem State.setEnt_lend (s : State) (f : Nat) (x : FrameEnt) : (s.setEnt f x).lend = s.lend := rfl
@[simp] theorem State.setEnt_zci (s : State) (f : Nat) (x : FrameEnt) : (s.setEnt f x).zci = s.zci := rfl
@[simp] theorem State.setEnt_iotu (s : State) (f : Nat) (x : FrameEnt) : (s.setEnt f x).iotu = s.iotu := rfl
@[simp] theorem State.setEnt_wld (s : State) (f : Nat) (x : FrameEnt) : (s.setEnt f x).wld = s.wld := rfl
@[simp] theorem State.setEnt_boot (s : State) (f : Nat) (x : FrameEnt) : (s.setEnt f x).boot = s.boot := rfl
@[simp] theorem State.setEnt_ssm (s : State) (f : Nat) (x : FrameEnt) : (s.setEnt f x).ssm = s.ssm := rfl
@[simp] theorem State.setEnt_pwr (s : State) (f : Nat) (x : FrameEnt) : (s.setEnt f x).pwr = s.pwr := rfl
@[simp] theorem State.setEnt_ras (s : State) (f : Nat) (x : FrameEnt) : (s.setEnt f x).ras = s.ras := rfl
@[simp] theorem State.setEnt_cnt (s : State) (f : Nat) (x : FrameEnt) : (s.setEnt f x).cnt = s.cnt := rfl
@[simp] theorem State.setEnt_pins (s : State) (f : Nat) (x : FrameEnt) : (s.setEnt f x).pins = s.pins := rfl
@[simp] theorem State.setEnt_free (s : State) (f : Nat) (x : FrameEnt) : (s.setEnt f x).free = s.free := rfl
@[simp] theorem State.setEnt_rnd (s : State) (f : Nat) (x : FrameEnt) : (s.setEnt f x).rnd = s.rnd := rfl
@[simp] theorem State.setEnt_out (s : State) (f : Nat) (x : FrameEnt) : (s.setEnt f x).out = s.out := rfl

/-! ### `State.setMline` changes `media` alone -/

@[simp] theorem State.setMline_pending (s : State) (k : Nat) (x : MLine) : (s.setMline k x).pending = s.pending := rfl
@[simp] theorem State.setMline_time (s : State) (k : Nat) (x : MLine) : (s.setMline k x).time = s.time := rfl
@[simp] theorem State.setMline_pcs (s : State) (k : Nat) (x : MLine) : (s.setMline k x).pcs = s.pcs := rfl
@[simp] theorem State.setMline_fuses (s : State) (k : Nat) (x : MLine) : (s.setMline k x).fuses = s.fuses := rfl
@[simp] theorem State.setMline_plat (s : State) (k : Nat) (x : MLine) : (s.setMline k x).plat = s.plat := rfl
@[simp] theorem State.setMline_cores (s : State) (k : Nat) (x : MLine) : (s.setMline k x).cores = s.cores := rfl
@[simp] theorem State.setMline_l3 (s : State) (k : Nat) (x : MLine) : (s.setMline k x).l3 = s.l3 := rfl
@[simp] theorem State.setMline_spCache (s : State) (k : Nat) (x : MLine) : (s.setMline k x).spCache = s.spCache := rfl
@[simp] theorem State.setMline_home (s : State) (k : Nat) (x : MLine) : (s.setMline k x).home = s.home := rfl
@[simp] theorem State.setMline_links (s : State) (k : Nat) (x : MLine) : (s.setMline k x).links = s.links := rfl
@[simp] theorem State.setMline_enl (s : State) (k : Nat) (x : MLine) : (s.setMline k x).enl = s.enl := rfl
@[simp] theorem State.setMline_dks (s : State) (k : Nat) (x : MLine) : (s.setMline k x).dks = s.dks := rfl
@[simp] theorem State.setMline_cdn (s : State) (k : Nat) (x : MLine) : (s.setMline k x).cdn = s.cdn := rfl
@[simp] theorem State.setMline_chans (s : State) (k : Nat) (x : MLine) : (s.setMline k x).chans = s.chans := rfl
@[simp] theorem State.setMline_blobs (s : State) (k : Nat) (x : MLine) : (s.setMline k x).blobs = s.blobs := rfl
@[simp] theorem State.setMline_fio (s : State) (k : Nat) (x : MLine) : (s.setMline k x).fio = s.fio := rfl
@[simp] theorem State.setMline_lend (s : State) (k : Nat) (x : MLine) : (s.setMline k x).lend = s.lend := rfl
@[simp] theorem State.setMline_zci (s : State) (k : Nat) (x : MLine) : (s.setMline k x).zci = s.zci := rfl
@[simp] theorem State.setMline_iotu (s : State) (k : Nat) (x : MLine) : (s.setMline k x).iotu = s.iotu := rfl
@[simp] theorem State.setMline_wld (s : State) (k : Nat) (x : MLine) : (s.setMline k x).wld = s.wld := rfl
@[simp] theorem State.setMline_boot (s : State) (k : Nat) (x : MLine) : (s.setMline k x).boot = s.boot := rfl
@[simp] theorem State.setMline_ssm (s : State) (k : Nat) (x : MLine) : (s.setMline k x).ssm = s.ssm := rfl
@[simp] theorem State.setMline_pwr (s : State) (k : Nat) (x : MLine) : (s.setMline k x).pwr = s.pwr := rfl
@[simp] theorem State.setMline_ras (s : State) (k : Nat) (x : MLine) : (s.setMline k x).ras = s.ras := rfl
@[simp] theorem State.setMline_cnt (s : State) (k : Nat) (x : MLine) : (s.setMline k x).cnt = s.cnt := rfl
@[simp] theorem State.setMline_pins (s : State) (k : Nat) (x : MLine) : (s.setMline k x).pins = s.pins := rfl
@[simp] theorem State.setMline_free (s : State) (k : Nat) (x : MLine) : (s.setMline k x).free = s.free := rfl
@[simp] theorem State.setMline_rnd (s : State) (k : Nat) (x : MLine) : (s.setMline k x).rnd = s.rnd := rfl
@[simp] theorem State.setMline_out (s : State) (k : Nat) (x : MLine) : (s.setMline k x).out = s.out := rfl

/-! ### `State.setRail` changes `pwr` alone -/

@[simp] theorem State.setRail_pending (s : State) (n : Nat) (x : RailSt) : (s.setRail n x).pending = s.pending := rfl
@[simp] theorem State.setRail_time (s : State) (n : Nat) (x : RailSt) : (s.setRail n x).time = s.time := rfl
@[simp] theorem State.setRail_pcs (s : State) (n : Nat) (x : RailSt) : (s.setRail n x).pcs = s.pcs := rfl
@[simp] theorem State.setRail_fuses (s : State) (n : Nat) (x : RailSt) : (s.setRail n x).fuses = s.fuses := rfl
@[simp] theorem State.setRail_plat (s : State) (n : Nat) (x : RailSt) : (s.setRail n x).plat = s.plat := rfl
@[simp] theorem State.setRail_cores (s : State) (n : Nat) (x : RailSt) : (s.setRail n x).cores = s.cores := rfl
@[simp] theorem State.setRail_l3 (s : State) (n : Nat) (x : RailSt) : (s.setRail n x).l3 = s.l3 := rfl
@[simp] theorem State.setRail_spCache (s : State) (n : Nat) (x : RailSt) : (s.setRail n x).spCache = s.spCache := rfl
@[simp] theorem State.setRail_home (s : State) (n : Nat) (x : RailSt) : (s.setRail n x).home = s.home := rfl
@[simp] theorem State.setRail_links (s : State) (n : Nat) (x : RailSt) : (s.setRail n x).links = s.links := rfl
@[simp] theorem State.setRail_enl (s : State) (n : Nat) (x : RailSt) : (s.setRail n x).enl = s.enl := rfl
@[simp] theorem State.setRail_dks (s : State) (n : Nat) (x : RailSt) : (s.setRail n x).dks = s.dks := rfl
@[simp] theorem State.setRail_cdn (s : State) (n : Nat) (x : RailSt) : (s.setRail n x).cdn = s.cdn := rfl
@[simp] theorem State.setRail_chans (s : State) (n : Nat) (x : RailSt) : (s.setRail n x).chans = s.chans := rfl
@[simp] theorem State.setRail_media (s : State) (n : Nat) (x : RailSt) : (s.setRail n x).media = s.media := rfl
@[simp] theorem State.setRail_blobs (s : State) (n : Nat) (x : RailSt) : (s.setRail n x).blobs = s.blobs := rfl
@[simp] theorem State.setRail_fio (s : State) (n : Nat) (x : RailSt) : (s.setRail n x).fio = s.fio := rfl
@[simp] theorem State.setRail_lend (s : State) (n : Nat) (x : RailSt) : (s.setRail n x).lend = s.lend := rfl
@[simp] theorem State.setRail_zci (s : State) (n : Nat) (x : RailSt) : (s.setRail n x).zci = s.zci := rfl
@[simp] theorem State.setRail_iotu (s : State) (n : Nat) (x : RailSt) : (s.setRail n x).iotu = s.iotu := rfl
@[simp] theorem State.setRail_wld (s : State) (n : Nat) (x : RailSt) : (s.setRail n x).wld = s.wld := rfl
@[simp] theorem State.setRail_boot (s : State) (n : Nat) (x : RailSt) : (s.setRail n x).boot = s.boot := rfl
@[simp] theorem State.setRail_ssm (s : State) (n : Nat) (x : RailSt) : (s.setRail n x).ssm = s.ssm := rfl
@[simp] theorem State.setRail_ras (s : State) (n : Nat) (x : RailSt) : (s.setRail n x).ras = s.ras := rfl
@[simp] theorem State.setRail_cnt (s : State) (n : Nat) (x : RailSt) : (s.setRail n x).cnt = s.cnt := rfl
@[simp] theorem State.setRail_pins (s : State) (n : Nat) (x : RailSt) : (s.setRail n x).pins = s.pins := rfl
@[simp] theorem State.setRail_free (s : State) (n : Nat) (x : RailSt) : (s.setRail n x).free = s.free := rfl
@[simp] theorem State.setRail_rnd (s : State) (n : Nat) (x : RailSt) : (s.setRail n x).rnd = s.rnd := rfl
@[simp] theorem State.setRail_out (s : State) (n : Nat) (x : RailSt) : (s.setRail n x).out = s.out := rfl

/-! ### `State.putUnit` changes `ras` alone -/

@[simp] theorem State.putUnit_pending (s : State) (d b : Nat) (u : UnitSt) : (s.putUnit d b u).pending = s.pending := rfl
@[simp] theorem State.putUnit_time (s : State) (d b : Nat) (u : UnitSt) : (s.putUnit d b u).time = s.time := rfl
@[simp] theorem State.putUnit_pcs (s : State) (d b : Nat) (u : UnitSt) : (s.putUnit d b u).pcs = s.pcs := rfl
@[simp] theorem State.putUnit_fuses (s : State) (d b : Nat) (u : UnitSt) : (s.putUnit d b u).fuses = s.fuses := rfl
@[simp] theorem State.putUnit_plat (s : State) (d b : Nat) (u : UnitSt) : (s.putUnit d b u).plat = s.plat := rfl
@[simp] theorem State.putUnit_cores (s : State) (d b : Nat) (u : UnitSt) : (s.putUnit d b u).cores = s.cores := rfl
@[simp] theorem State.putUnit_l3 (s : State) (d b : Nat) (u : UnitSt) : (s.putUnit d b u).l3 = s.l3 := rfl
@[simp] theorem State.putUnit_spCache (s : State) (d b : Nat) (u : UnitSt) : (s.putUnit d b u).spCache = s.spCache := rfl
@[simp] theorem State.putUnit_home (s : State) (d b : Nat) (u : UnitSt) : (s.putUnit d b u).home = s.home := rfl
@[simp] theorem State.putUnit_links (s : State) (d b : Nat) (u : UnitSt) : (s.putUnit d b u).links = s.links := rfl
@[simp] theorem State.putUnit_enl (s : State) (d b : Nat) (u : UnitSt) : (s.putUnit d b u).enl = s.enl := rfl
@[simp] theorem State.putUnit_dks (s : State) (d b : Nat) (u : UnitSt) : (s.putUnit d b u).dks = s.dks := rfl
@[simp] theorem State.putUnit_cdn (s : State) (d b : Nat) (u : UnitSt) : (s.putUnit d b u).cdn = s.cdn := rfl
@[simp] theorem State.putUnit_chans (s : State) (d b : Nat) (u : UnitSt) : (s.putUnit d b u).chans = s.chans := rfl
@[simp] theorem State.putUnit_media (s : State) (d b : Nat) (u : UnitSt) : (s.putUnit d b u).media = s.media := rfl
@[simp] theorem State.putUnit_blobs (s : State) (d b : Nat) (u : UnitSt) : (s.putUnit d b u).blobs = s.blobs := rfl
@[simp] theorem State.putUnit_fio (s : State) (d b : Nat) (u : UnitSt) : (s.putUnit d b u).fio = s.fio := rfl
@[simp] theorem State.putUnit_lend (s : State) (d b : Nat) (u : UnitSt) : (s.putUnit d b u).lend = s.lend := rfl
@[simp] theorem State.putUnit_zci (s : State) (d b : Nat) (u : UnitSt) : (s.putUnit d b u).zci = s.zci := rfl
@[simp] theorem State.putUnit_iotu (s : State) (d b : Nat) (u : UnitSt) : (s.putUnit d b u).iotu = s.iotu := rfl
@[simp] theorem State.putUnit_wld (s : State) (d b : Nat) (u : UnitSt) : (s.putUnit d b u).wld = s.wld := rfl
@[simp] theorem State.putUnit_boot (s : State) (d b : Nat) (u : UnitSt) : (s.putUnit d b u).boot = s.boot := rfl
@[simp] theorem State.putUnit_ssm (s : State) (d b : Nat) (u : UnitSt) : (s.putUnit d b u).ssm = s.ssm := rfl
@[simp] theorem State.putUnit_pwr (s : State) (d b : Nat) (u : UnitSt) : (s.putUnit d b u).pwr = s.pwr := rfl
@[simp] theorem State.putUnit_cnt (s : State) (d b : Nat) (u : UnitSt) : (s.putUnit d b u).cnt = s.cnt := rfl
@[simp] theorem State.putUnit_pins (s : State) (d b : Nat) (u : UnitSt) : (s.putUnit d b u).pins = s.pins := rfl
@[simp] theorem State.putUnit_free (s : State) (d b : Nat) (u : UnitSt) : (s.putUnit d b u).free = s.free := rfl
@[simp] theorem State.putUnit_rnd (s : State) (d b : Nat) (u : UnitSt) : (s.putUnit d b u).rnd = s.rnd := rfl
@[simp] theorem State.putUnit_out (s : State) (d b : Nat) (u : UnitSt) : (s.putUnit d b u).out = s.out := rfl

/-! ### The event counters change `pcs` alone -/

@[simp] theorem State.evtBy_pending (s : State) (d b i n : Nat) : (s.evtBy d b i n).pending = s.pending := by
  unfold State.evtBy; split <;> (try rfl); dsimp only; split <;> rfl
@[simp] theorem State.evtBy_time (s : State) (d b i n : Nat) : (s.evtBy d b i n).time = s.time := by
  unfold State.evtBy; split <;> (try rfl); dsimp only; split <;> rfl
@[simp] theorem State.evtBy_fuses (s : State) (d b i n : Nat) : (s.evtBy d b i n).fuses = s.fuses := by
  unfold State.evtBy; split <;> (try rfl); dsimp only; split <;> rfl
@[simp] theorem State.evtBy_plat (s : State) (d b i n : Nat) : (s.evtBy d b i n).plat = s.plat := by
  unfold State.evtBy; split <;> (try rfl); dsimp only; split <;> rfl
@[simp] theorem State.evtBy_cores (s : State) (d b i n : Nat) : (s.evtBy d b i n).cores = s.cores := by
  unfold State.evtBy; split <;> (try rfl); dsimp only; split <;> rfl
@[simp] theorem State.evtBy_l3 (s : State) (d b i n : Nat) : (s.evtBy d b i n).l3 = s.l3 := by
  unfold State.evtBy; split <;> (try rfl); dsimp only; split <;> rfl
@[simp] theorem State.evtBy_spCache (s : State) (d b i n : Nat) : (s.evtBy d b i n).spCache = s.spCache := by
  unfold State.evtBy; split <;> (try rfl); dsimp only; split <;> rfl
@[simp] theorem State.evtBy_home (s : State) (d b i n : Nat) : (s.evtBy d b i n).home = s.home := by
  unfold State.evtBy; split <;> (try rfl); dsimp only; split <;> rfl
@[simp] theorem State.evtBy_links (s : State) (d b i n : Nat) : (s.evtBy d b i n).links = s.links := by
  unfold State.evtBy; split <;> (try rfl); dsimp only; split <;> rfl
@[simp] theorem State.evtBy_enl (s : State) (d b i n : Nat) : (s.evtBy d b i n).enl = s.enl := by
  unfold State.evtBy; split <;> (try rfl); dsimp only; split <;> rfl
@[simp] theorem State.evtBy_dks (s : State) (d b i n : Nat) : (s.evtBy d b i n).dks = s.dks := by
  unfold State.evtBy; split <;> (try rfl); dsimp only; split <;> rfl
@[simp] theorem State.evtBy_cdn (s : State) (d b i n : Nat) : (s.evtBy d b i n).cdn = s.cdn := by
  unfold State.evtBy; split <;> (try rfl); dsimp only; split <;> rfl
@[simp] theorem State.evtBy_chans (s : State) (d b i n : Nat) : (s.evtBy d b i n).chans = s.chans := by
  unfold State.evtBy; split <;> (try rfl); dsimp only; split <;> rfl
@[simp] theorem State.evtBy_media (s : State) (d b i n : Nat) : (s.evtBy d b i n).media = s.media := by
  unfold State.evtBy; split <;> (try rfl); dsimp only; split <;> rfl
@[simp] theorem State.evtBy_blobs (s : State) (d b i n : Nat) : (s.evtBy d b i n).blobs = s.blobs := by
  unfold State.evtBy; split <;> (try rfl); dsimp only; split <;> rfl
@[simp] theorem State.evtBy_fio (s : State) (d b i n : Nat) : (s.evtBy d b i n).fio = s.fio := by
  unfold State.evtBy; split <;> (try rfl); dsimp only; split <;> rfl
@[simp] theorem State.evtBy_lend (s : State) (d b i n : Nat) : (s.evtBy d b i n).lend = s.lend := by
  unfold State.evtBy; split <;> (try rfl); dsimp only; split <;> rfl
@[simp] theorem State.evtBy_zci (s : State) (d b i n : Nat) : (s.evtBy d b i n).zci = s.zci := by
  unfold State.evtBy; split <;> (try rfl); dsimp only; split <;> rfl
@[simp] theorem State.evtBy_iotu (s : State) (d b i n : Nat) : (s.evtBy d b i n).iotu = s.iotu := by
  unfold State.evtBy; split <;> (try rfl); dsimp only; split <;> rfl
@[simp] theorem State.evtBy_wld (s : State) (d b i n : Nat) : (s.evtBy d b i n).wld = s.wld := by
  unfold State.evtBy; split <;> (try rfl); dsimp only; split <;> rfl
@[simp] theorem State.evtBy_boot (s : State) (d b i n : Nat) : (s.evtBy d b i n).boot = s.boot := by
  unfold State.evtBy; split <;> (try rfl); dsimp only; split <;> rfl
@[simp] theorem State.evtBy_ssm (s : State) (d b i n : Nat) : (s.evtBy d b i n).ssm = s.ssm := by
  unfold State.evtBy; split <;> (try rfl); dsimp only; split <;> rfl
@[simp] theorem State.evtBy_pwr (s : State) (d b i n : Nat) : (s.evtBy d b i n).pwr = s.pwr := by
  unfold State.evtBy; split <;> (try rfl); dsimp only; split <;> rfl
@[simp] theorem State.evtBy_ras (s : State) (d b i n : Nat) : (s.evtBy d b i n).ras = s.ras := by
  unfold State.evtBy; split <;> (try rfl); dsimp only; split <;> rfl
@[simp] theorem State.evtBy_cnt (s : State) (d b i n : Nat) : (s.evtBy d b i n).cnt = s.cnt := by
  unfold State.evtBy; split <;> (try rfl); dsimp only; split <;> rfl
@[simp] theorem State.evtBy_pins (s : State) (d b i n : Nat) : (s.evtBy d b i n).pins = s.pins := by
  unfold State.evtBy; split <;> (try rfl); dsimp only; split <;> rfl
@[simp] theorem State.evtBy_free (s : State) (d b i n : Nat) : (s.evtBy d b i n).free = s.free := by
  unfold State.evtBy; split <;> (try rfl); dsimp only; split <;> rfl
@[simp] theorem State.evtBy_rnd (s : State) (d b i n : Nat) : (s.evtBy d b i n).rnd = s.rnd := by
  unfold State.evtBy; split <;> (try rfl); dsimp only; split <;> rfl
@[simp] theorem State.evtBy_out (s : State) (d b i n : Nat) : (s.evtBy d b i n).out = s.out := by
  unfold State.evtBy; split <;> (try rfl); dsimp only; split <;> rfl
@[simp] theorem State.evt_pending (s : State) (d b i : Nat) : (s.evt d b i).pending = s.pending := State.evtBy_pending s d b i 1
@[simp] theorem State.evt_time (s : State) (d b i : Nat) : (s.evt d b i).time = s.time := State.evtBy_time s d b i 1
@[simp] theorem State.evt_fuses (s : State) (d b i : Nat) : (s.evt d b i).fuses = s.fuses := State.evtBy_fuses s d b i 1
@[simp] theorem State.evt_plat (s : State) (d b i : Nat) : (s.evt d b i).plat = s.plat := State.evtBy_plat s d b i 1
@[simp] theorem State.evt_cores (s : State) (d b i : Nat) : (s.evt d b i).cores = s.cores := State.evtBy_cores s d b i 1
@[simp] theorem State.evt_l3 (s : State) (d b i : Nat) : (s.evt d b i).l3 = s.l3 := State.evtBy_l3 s d b i 1
@[simp] theorem State.evt_spCache (s : State) (d b i : Nat) : (s.evt d b i).spCache = s.spCache := State.evtBy_spCache s d b i 1
@[simp] theorem State.evt_home (s : State) (d b i : Nat) : (s.evt d b i).home = s.home := State.evtBy_home s d b i 1
@[simp] theorem State.evt_links (s : State) (d b i : Nat) : (s.evt d b i).links = s.links := State.evtBy_links s d b i 1
@[simp] theorem State.evt_enl (s : State) (d b i : Nat) : (s.evt d b i).enl = s.enl := State.evtBy_enl s d b i 1
@[simp] theorem State.evt_dks (s : State) (d b i : Nat) : (s.evt d b i).dks = s.dks := State.evtBy_dks s d b i 1
@[simp] theorem State.evt_cdn (s : State) (d b i : Nat) : (s.evt d b i).cdn = s.cdn := State.evtBy_cdn s d b i 1
@[simp] theorem State.evt_chans (s : State) (d b i : Nat) : (s.evt d b i).chans = s.chans := State.evtBy_chans s d b i 1
@[simp] theorem State.evt_media (s : State) (d b i : Nat) : (s.evt d b i).media = s.media := State.evtBy_media s d b i 1
@[simp] theorem State.evt_blobs (s : State) (d b i : Nat) : (s.evt d b i).blobs = s.blobs := State.evtBy_blobs s d b i 1
@[simp] theorem State.evt_fio (s : State) (d b i : Nat) : (s.evt d b i).fio = s.fio := State.evtBy_fio s d b i 1
@[simp] theorem State.evt_lend (s : State) (d b i : Nat) : (s.evt d b i).lend = s.lend := State.evtBy_lend s d b i 1
@[simp] theorem State.evt_zci (s : State) (d b i : Nat) : (s.evt d b i).zci = s.zci := State.evtBy_zci s d b i 1
@[simp] theorem State.evt_iotu (s : State) (d b i : Nat) : (s.evt d b i).iotu = s.iotu := State.evtBy_iotu s d b i 1
@[simp] theorem State.evt_wld (s : State) (d b i : Nat) : (s.evt d b i).wld = s.wld := State.evtBy_wld s d b i 1
@[simp] theorem State.evt_boot (s : State) (d b i : Nat) : (s.evt d b i).boot = s.boot := State.evtBy_boot s d b i 1
@[simp] theorem State.evt_ssm (s : State) (d b i : Nat) : (s.evt d b i).ssm = s.ssm := State.evtBy_ssm s d b i 1
@[simp] theorem State.evt_pwr (s : State) (d b i : Nat) : (s.evt d b i).pwr = s.pwr := State.evtBy_pwr s d b i 1
@[simp] theorem State.evt_ras (s : State) (d b i : Nat) : (s.evt d b i).ras = s.ras := State.evtBy_ras s d b i 1
@[simp] theorem State.evt_cnt (s : State) (d b i : Nat) : (s.evt d b i).cnt = s.cnt := State.evtBy_cnt s d b i 1
@[simp] theorem State.evt_pins (s : State) (d b i : Nat) : (s.evt d b i).pins = s.pins := State.evtBy_pins s d b i 1
@[simp] theorem State.evt_free (s : State) (d b i : Nat) : (s.evt d b i).free = s.free := State.evtBy_free s d b i 1
@[simp] theorem State.evt_rnd (s : State) (d b i : Nat) : (s.evt d b i).rnd = s.rnd := State.evtBy_rnd s d b i 1
@[simp] theorem State.evt_out (s : State) (d b i : Nat) : (s.evt d b i).out = s.out := State.evtBy_out s d b i 1
@[simp] theorem State.evtW_pending (s : State) (w : Bool) (b i : Nat) : (s.evtW w b i).pending = s.pending := by
  unfold State.evtW; split
  · rfl
  · exact State.evt_pending s 15 b i
@[simp] theorem State.evtW_time (s : State) (w : Bool) (b i : Nat) : (s.evtW w b i).time = s.time := by
  unfold State.evtW; split
  · rfl
  · exact State.evt_time s 15 b i
@[simp] theorem State.evtW_fuses (s : State) (w : Bool) (b i : Nat) : (s.evtW w b i).fuses = s.fuses := by
  unfold State.evtW; split
  · rfl
  · exact State.evt_fuses s 15 b i
@[simp] theorem State.evtW_plat (s : State) (w : Bool) (b i : Nat) : (s.evtW w b i).plat = s.plat := by
  unfold State.evtW; split
  · rfl
  · exact State.evt_plat s 15 b i
@[simp] theorem State.evtW_cores (s : State) (w : Bool) (b i : Nat) : (s.evtW w b i).cores = s.cores := by
  unfold State.evtW; split
  · rfl
  · exact State.evt_cores s 15 b i
@[simp] theorem State.evtW_l3 (s : State) (w : Bool) (b i : Nat) : (s.evtW w b i).l3 = s.l3 := by
  unfold State.evtW; split
  · rfl
  · exact State.evt_l3 s 15 b i
@[simp] theorem State.evtW_spCache (s : State) (w : Bool) (b i : Nat) : (s.evtW w b i).spCache = s.spCache := by
  unfold State.evtW; split
  · rfl
  · exact State.evt_spCache s 15 b i
@[simp] theorem State.evtW_home (s : State) (w : Bool) (b i : Nat) : (s.evtW w b i).home = s.home := by
  unfold State.evtW; split
  · rfl
  · exact State.evt_home s 15 b i
@[simp] theorem State.evtW_links (s : State) (w : Bool) (b i : Nat) : (s.evtW w b i).links = s.links := by
  unfold State.evtW; split
  · rfl
  · exact State.evt_links s 15 b i
@[simp] theorem State.evtW_enl (s : State) (w : Bool) (b i : Nat) : (s.evtW w b i).enl = s.enl := by
  unfold State.evtW; split
  · rfl
  · exact State.evt_enl s 15 b i
@[simp] theorem State.evtW_dks (s : State) (w : Bool) (b i : Nat) : (s.evtW w b i).dks = s.dks := by
  unfold State.evtW; split
  · rfl
  · exact State.evt_dks s 15 b i
@[simp] theorem State.evtW_cdn (s : State) (w : Bool) (b i : Nat) : (s.evtW w b i).cdn = s.cdn := by
  unfold State.evtW; split
  · rfl
  · exact State.evt_cdn s 15 b i
@[simp] theorem State.evtW_chans (s : State) (w : Bool) (b i : Nat) : (s.evtW w b i).chans = s.chans := by
  unfold State.evtW; split
  · rfl
  · exact State.evt_chans s 15 b i
@[simp] theorem State.evtW_media (s : State) (w : Bool) (b i : Nat) : (s.evtW w b i).media = s.media := by
  unfold State.evtW; split
  · rfl
  · exact State.evt_media s 15 b i
@[simp] theorem State.evtW_blobs (s : State) (w : Bool) (b i : Nat) : (s.evtW w b i).blobs = s.blobs := by
  unfold State.evtW; split
  · rfl
  · exact State.evt_blobs s 15 b i
@[simp] theorem State.evtW_fio (s : State) (w : Bool) (b i : Nat) : (s.evtW w b i).fio = s.fio := by
  unfold State.evtW; split
  · rfl
  · exact State.evt_fio s 15 b i
@[simp] theorem State.evtW_lend (s : State) (w : Bool) (b i : Nat) : (s.evtW w b i).lend = s.lend := by
  unfold State.evtW; split
  · rfl
  · exact State.evt_lend s 15 b i
@[simp] theorem State.evtW_zci (s : State) (w : Bool) (b i : Nat) : (s.evtW w b i).zci = s.zci := by
  unfold State.evtW; split
  · rfl
  · exact State.evt_zci s 15 b i
@[simp] theorem State.evtW_iotu (s : State) (w : Bool) (b i : Nat) : (s.evtW w b i).iotu = s.iotu := by
  unfold State.evtW; split
  · rfl
  · exact State.evt_iotu s 15 b i
@[simp] theorem State.evtW_wld (s : State) (w : Bool) (b i : Nat) : (s.evtW w b i).wld = s.wld := by
  unfold State.evtW; split
  · rfl
  · exact State.evt_wld s 15 b i
@[simp] theorem State.evtW_boot (s : State) (w : Bool) (b i : Nat) : (s.evtW w b i).boot = s.boot := by
  unfold State.evtW; split
  · rfl
  · exact State.evt_boot s 15 b i
@[simp] theorem State.evtW_ssm (s : State) (w : Bool) (b i : Nat) : (s.evtW w b i).ssm = s.ssm := by
  unfold State.evtW; split
  · rfl
  · exact State.evt_ssm s 15 b i
@[simp] theorem State.evtW_pwr (s : State) (w : Bool) (b i : Nat) : (s.evtW w b i).pwr = s.pwr := by
  unfold State.evtW; split
  · rfl
  · exact State.evt_pwr s 15 b i
@[simp] theorem State.evtW_ras (s : State) (w : Bool) (b i : Nat) : (s.evtW w b i).ras = s.ras := by
  unfold State.evtW; split
  · rfl
  · exact State.evt_ras s 15 b i
@[simp] theorem State.evtW_cnt (s : State) (w : Bool) (b i : Nat) : (s.evtW w b i).cnt = s.cnt := by
  unfold State.evtW; split
  · rfl
  · exact State.evt_cnt s 15 b i
@[simp] theorem State.evtW_pins (s : State) (w : Bool) (b i : Nat) : (s.evtW w b i).pins = s.pins := by
  unfold State.evtW; split
  · rfl
  · exact State.evt_pins s 15 b i
@[simp] theorem State.evtW_free (s : State) (w : Bool) (b i : Nat) : (s.evtW w b i).free = s.free := by
  unfold State.evtW; split
  · rfl
  · exact State.evt_free s 15 b i
@[simp] theorem State.evtW_rnd (s : State) (w : Bool) (b i : Nat) : (s.evtW w b i).rnd = s.rnd := by
  unfold State.evtW; split
  · rfl
  · exact State.evt_rnd s 15 b i
@[simp] theorem State.evtW_out (s : State) (w : Bool) (b i : Nat) : (s.evtW w b i).out = s.out := by
  unfold State.evtW; split
  · rfl
  · exact State.evt_out s 15 b i

/-! ### A command's effect keeps the queue -/

@[simp] theorem State.effect_pending (s : State) (f : State → State) : (s.effect f).pending = s.pending := rfl
@[simp] theorem State.effect_time (s : State) (f : State → State) : (s.effect f).time = (f s).time := rfl
@[simp] theorem State.effect_pcs (s : State) (f : State → State) : (s.effect f).pcs = (f s).pcs := rfl
@[simp] theorem State.effect_fuses (s : State) (f : State → State) : (s.effect f).fuses = (f s).fuses := rfl
@[simp] theorem State.effect_plat (s : State) (f : State → State) : (s.effect f).plat = (f s).plat := rfl
@[simp] theorem State.effect_cores (s : State) (f : State → State) : (s.effect f).cores = (f s).cores := rfl
@[simp] theorem State.effect_l3 (s : State) (f : State → State) : (s.effect f).l3 = (f s).l3 := rfl
@[simp] theorem State.effect_spCache (s : State) (f : State → State) : (s.effect f).spCache = (f s).spCache := rfl
@[simp] theorem State.effect_home (s : State) (f : State → State) : (s.effect f).home = (f s).home := rfl
@[simp] theorem State.effect_links (s : State) (f : State → State) : (s.effect f).links = (f s).links := rfl
@[simp] theorem State.effect_enl (s : State) (f : State → State) : (s.effect f).enl = (f s).enl := rfl
@[simp] theorem State.effect_dks (s : State) (f : State → State) : (s.effect f).dks = (f s).dks := rfl
@[simp] theorem State.effect_cdn (s : State) (f : State → State) : (s.effect f).cdn = (f s).cdn := rfl
@[simp] theorem State.effect_chans (s : State) (f : State → State) : (s.effect f).chans = (f s).chans := rfl
@[simp] theorem State.effect_media (s : State) (f : State → State) : (s.effect f).media = (f s).media := rfl
@[simp] theorem State.effect_blobs (s : State) (f : State → State) : (s.effect f).blobs = (f s).blobs := rfl
@[simp] theorem State.effect_fio (s : State) (f : State → State) : (s.effect f).fio = (f s).fio := rfl
@[simp] theorem State.effect_lend (s : State) (f : State → State) : (s.effect f).lend = (f s).lend := rfl
@[simp] theorem State.effect_zci (s : State) (f : State → State) : (s.effect f).zci = (f s).zci := rfl
@[simp] theorem State.effect_iotu (s : State) (f : State → State) : (s.effect f).iotu = (f s).iotu := rfl
@[simp] theorem State.effect_wld (s : State) (f : State → State) : (s.effect f).wld = (f s).wld := rfl
@[simp] theorem State.effect_boot (s : State) (f : State → State) : (s.effect f).boot = (f s).boot := rfl
@[simp] theorem State.effect_ssm (s : State) (f : State → State) : (s.effect f).ssm = (f s).ssm := rfl
@[simp] theorem State.effect_pwr (s : State) (f : State → State) : (s.effect f).pwr = (f s).pwr := rfl
@[simp] theorem State.effect_ras (s : State) (f : State → State) : (s.effect f).ras = (f s).ras := rfl
@[simp] theorem State.effect_cnt (s : State) (f : State → State) : (s.effect f).cnt = (f s).cnt := rfl
@[simp] theorem State.effect_pins (s : State) (f : State → State) : (s.effect f).pins = (f s).pins := rfl
@[simp] theorem State.effect_free (s : State) (f : State → State) : (s.effect f).free = (f s).free := rfl
@[simp] theorem State.effect_rnd (s : State) (f : State → State) : (s.effect f).rnd = (f s).rnd := rfl
@[simp] theorem State.effect_out (s : State) (f : State → State) : (s.effect f).out = (f s).out := rfl

end Sys2Proof.Machine
end

