-- ==== Sys2Proof/Laws/Regs.lean ====
section
/-! SUPPORT.
The register file: fields of a word (R6), and a read after a write of a register or a unit of State. -/

namespace Sys2Proof.Machine

/-! ### Fields -/

theorem Fld.get_testBit (f : Fld) (v : Word) (i : Nat) :
    (f.get v).testBit i = (decide (i < f.w) && v.getLsbD (f.lo + i)) := by
  simp [Fld.get, Nat.testBit_mod_two_pow, Nat.testBit_shiftRight, BitVec.testBit_toNat]

theorem Fld.put_getLsbD (f : Fld) (v : Word) (n j : Nat) (hj : j < 64) :
    (f.put v n).getLsbD j = if f.lo ≤ j ∧ j < f.lo + f.w then n.testBit (j - f.lo) else v.getLsbD j := by
  have hm : f.mask.getLsbD j = decide (f.lo ≤ j ∧ j < f.lo + f.w) := by
    simp only [Fld.mask, BitVec.getLsbD_ofNat, hj, decide_true, Bool.true_and, Nat.testBit_shiftLeft,
      Nat.testBit_two_pow_sub_one]
    by_cases h : f.lo ≤ j <;> simp [h] <;> omega
  have hn : (BitVec.ofNat 64 ((n % 2 ^ f.w) <<< f.lo)).getLsbD j =
      (decide (f.lo ≤ j ∧ j < f.lo + f.w) && n.testBit (j - f.lo)) := by
    simp only [BitVec.getLsbD_ofNat, hj, decide_true, Bool.true_and, Nat.testBit_shiftLeft, Nat.testBit_mod_two_pow]
    by_cases h : f.lo ≤ j
    · by_cases h' : j < f.lo + f.w
      · have : j - f.lo < f.w := by omega
        simp [h, h', this]
      · have : ¬ j - f.lo < f.w := by omega
        simp [h, h', this]
    · simp [h]
  simp only [Fld.put, BitVec.getLsbD_or, BitVec.getLsbD_and, BitVec.getLsbD_not, hm, hn, hj, decide_true, Bool.true_and]
  by_cases h : f.lo ≤ j ∧ j < f.lo + f.w <;> simp [h]

/-- A field reads as it was written. -/
theorem Fld.get_put (f : Fld) (v : Word) (n : Nat) (h : f.lo + f.w ≤ 64) : f.get (f.put v n) = n % 2 ^ f.w := by
  apply Nat.eq_of_testBit_eq
  intro i
  rw [Fld.get_testBit, Nat.testBit_mod_two_pow]
  by_cases hi : i < f.w
  · rw [Fld.put_getLsbD f v n _ (by omega)]
    have : f.lo ≤ f.lo + i ∧ f.lo + i < f.lo + f.w := by omega
    simp [hi]
  · simp [hi]

/-- A field reads as before when another field is written. -/
theorem Fld.get_put_ne (f g : Fld) (v : Word) (n : Nat) (hg : g.lo + g.w ≤ 64)
    (h : g.lo + g.w ≤ f.lo ∨ f.lo + f.w ≤ g.lo) : g.get (f.put v n) = g.get v := by
  apply Nat.eq_of_testBit_eq
  intro i
  rw [Fld.get_testBit, Fld.get_testBit]
  by_cases hi : i < g.w
  · rw [Fld.put_getLsbD f v n _ (by omega), if_neg (by omega)]
  · simp [hi]

/-! ### A read after a write -/

@[simp] theorem State.rd_wr_eq (s : State) (k : Nat) (v : Word) : (s.wr k v).rd k = v := SMap.get_put_eq _ _ _ _
theorem State.rd_wr_ne (s : State) {k j : Nat} (v : Word) (h : j ≠ k) : (s.wr k v).rd j = s.rd j := SMap.get_put_ne _ _ _ h

/-- A field of a register reads as hardware set it. -/
theorem State.fget_fput (s : State) (k : Nat) (f : Fld) (n : Nat) (h : f.lo + f.w ≤ 64) :
    (s.fput k f n).fget k f = n % 2 ^ f.w := by
  simp only [State.fget, State.fput, State.rd_wr_eq, Fld.get_put f _ _ h]

theorem State.fget_fput_ne (s : State) (k : Nat) (f g : Fld) (n : Nat) (hg : g.lo + g.w ≤ 64)
    (h : g.lo + g.w ≤ f.lo ∨ f.lo + f.w ≤ g.lo) : (s.fput k f n).fget k g = s.fget k g := by
  simp only [State.fget, State.fput, State.rd_wr_eq, Fld.get_put_ne f g _ _ hg h]

theorem State.rd_fput_ne (s : State) {k j : Nat} (f : Fld) (n : Nat) (h : j ≠ k) : (s.fput k f n).rd j = s.rd j :=
  State.rd_wr_ne s _ h

theorem State.fget_fput_other (s : State) {k j : Nat} (f g : Fld) (n : Nat) (h : j ≠ k) :
    (s.fput k f n).fget j g = s.fget j g := by simp only [State.fget, State.rd_fput_ne s f n h]

@[simp] theorem State.core_setCore_eq (s : State) (n : Nat) (c : Core) : (s.setCore n c).core n = c := SMap.get_put_eq _ _ _ _
theorem State.core_setCore_ne (s : State) {n m : Nat} (c : Core) (h : m ≠ n) : (s.setCore n c).core m = s.core m :=
  SMap.get_put_ne _ _ _ h
@[simp] theorem State.slice_setSlice_eq (s : State) (n : Nat) (x : Slice) : (s.setSlice n x).slice n = x := SMap.get_put_eq _ _ _ _
theorem State.slice_setSlice_ne (s : State) {n m : Nat} (x : Slice) (h : m ≠ n) : (s.setSlice n x).slice m = s.slice m :=
  SMap.get_put_ne _ _ _ h
@[simp] theorem State.chan_setChan_eq (s : State) (n : Nat) (x : Chan) : (s.setChan n x).chan n = x := SMap.get_put_eq _ _ _ _
theorem State.chan_setChan_ne (s : State) {n m : Nat} (x : Chan) (h : m ≠ n) : (s.setChan n x).chan m = s.chan m :=
  SMap.get_put_ne _ _ _ h
@[simp] theorem State.ctx_setCtx_eq (s : State) (n : Nat) (x : KeyCtx) : (s.setCtx n x).ctx n = x := SMap.get_put_eq _ _ _ _
theorem State.ctx_setCtx_ne (s : State) {n m : Nat} (x : KeyCtx) (h : m ≠ n) : (s.setCtx n x).ctx m = s.ctx m :=
  SMap.get_put_ne _ _ _ h
@[simp] theorem State.ent_setEnt_eq (s : State) (n : Nat) (x : FrameEnt) : (s.setEnt n x).ent n = x := SMap.get_put_eq _ _ _ _
theorem State.ent_setEnt_ne (s : State) {n m : Nat} (x : FrameEnt) (h : m ≠ n) : (s.setEnt n x).ent m = s.ent m :=
  SMap.get_put_ne _ _ _ h
@[simp] theorem State.mline_setMline_eq (s : State) (n : Nat) (x : MLine) : (s.setMline n x).mline n = x := SMap.get_put_eq _ _ _ _
theorem State.mline_setMline_ne (s : State) {n m : Nat} (x : MLine) (h : m ≠ n) : (s.setMline n x).mline m = s.mline m :=
  SMap.get_put_ne _ _ _ h
@[simp] theorem State.rail_setRail_eq (s : State) (n : Nat) (x : RailSt) : (s.setRail n x).rail n = x := SMap.get_put_eq _ _ _ _
theorem State.rail_setRail_ne (s : State) {n m : Nat} (x : RailSt) (h : m ≠ n) : (s.setRail n x).rail m = s.rail m :=
  SMap.get_put_ne _ _ _ h
@[simp] theorem State.lk_setLk_eq (s : State) (e : LinkEnd) (x : LinkSt) : (s.setLk e x).lk e = x := SMap.get_put_eq _ _ _ _

/-! ### Reads that a write of something else leaves alone -/

@[simp] theorem State.core_wr (s : State) (k : Nat) (v : Word) (n : Nat) : (s.wr k v).core n = s.core n := rfl
@[simp] theorem State.core_fput (s : State) (k : Nat) (f : Fld) (v n : Nat) : (s.fput k f v).core n = s.core n := rfl
@[simp] theorem State.core_emit (s : State) (o : Out) (n : Nat) : (s.emit o).core n = s.core n := rfl
@[simp] theorem State.core_evtBy (s : State) (d b i k n : Nat) : (s.evtBy d b i k).core n = s.core n := by simp [State.core]
@[simp] theorem State.core_evt (s : State) (d b i n : Nat) : (s.evt d b i).core n = s.core n := by simp [State.core]
@[simp] theorem State.core_evtW (s : State) (w : Bool) (b i n : Nat) : (s.evtW w b i).core n = s.core n := by simp [State.core]
@[simp] theorem State.rd_emit (s : State) (o : Out) (k : Nat) : (s.emit o).rd k = s.rd k := rfl
@[simp] theorem State.rd_setCore (s : State) (n : Nat) (c : Core) (k : Nat) : (s.setCore n c).rd k = s.rd k := rfl
@[simp] theorem State.rd_setSlice (s : State) (n : Nat) (c : Slice) (k : Nat) : (s.setSlice n c).rd k = s.rd k := rfl
@[simp] theorem State.rd_setChan (s : State) (n : Nat) (c : Chan) (k : Nat) : (s.setChan n c).rd k = s.rd k := rfl
@[simp] theorem State.fget_emit (s : State) (o : Out) (k : Nat) (f : Fld) : (s.emit o).fget k f = s.fget k f := rfl
@[simp] theorem State.fget_setCore (s : State) (n : Nat) (c : Core) (k : Nat) (f : Fld) : (s.setCore n c).fget k f = s.fget k f := rfl
@[simp] theorem State.fget_setChan (s : State) (n : Nat) (c : Chan) (k : Nat) (f : Fld) : (s.setChan n c).fget k f = s.fget k f := rfl
@[simp] theorem State.chan_evt (s : State) (d b i n : Nat) : (s.evt d b i).chan n = s.chan n := by simp [State.chan]
@[simp] theorem State.chan_fput (s : State) (k : Nat) (f : Fld) (v n : Nat) : (s.fput k f v).chan n = s.chan n := rfl
@[simp] theorem State.slice_evt (s : State) (d b i n : Nat) : (s.evt d b i).slice n = s.slice n := by simp [State.slice]
@[simp] theorem State.slice_emit (s : State) (o : Out) (n : Nat) : (s.emit o).slice n = s.slice n := rfl

/-! ### Commands that always run -/

/-- A well-formed command of a package that does not stand still answers its effect. -/
theorem runs_next {ok : Bool} {f : State → State} {s : State} (h : ok = true) (hs : s.stopped = false) :
    runs ok f s = .next (s.effect f) := by
  simp [runs, gated, h, hs]

/-- While the package stands still a command changes nothing (R582, R587). -/
theorem runs_stopped {ok : Bool} {f : State → State} {s : State} (h : ok = true) (hs : s.stopped = true) :
    runs ok f s = .next s := by
  simp [runs, gated, h, hs]

/-- A command that is not well-formed faults. -/
theorem runs_illFormed {ok : Bool} {f : State → State} {s : State} (h : ok = false) : runs ok f s = .fault .illFormed := by
  simp [runs, gated, h]

end Sys2Proof.Machine
end

