-- ==== Sys2Proof/Laws/Core.lean ====
section
/-! SUPPORT.
What the shared operations of a core do (spec/02): the counters of a core, registers and predicates,
the order of the checks of an instruction, and taking an exception. -/

namespace Sys2Proof.Machine

/-! ### Counters of a core change `pcs` alone -/

/-- A counter of a core moves `pcs` alone. -/
theorem State.evtC_eq (s : State) (n b i : Nat) : s.evtC n b i = { s with pcs := (s.evtC n b i).pcs } := by
  unfold State.evtC
  split
  · rfl
  · split
    · rfl
    · unfold State.evt State.evtBy; split
      · rfl
      · dsimp only; split <;> rfl

@[simp] theorem State.core_evtC (s : State) (n b i m : Nat) : (s.evtC n b i).core m = s.core m := by
  rw [State.evtC_eq]; rfl
@[simp] theorem State.evtC_cores (s : State) (n b i : Nat) : (s.evtC n b i).cores = s.cores := by rw [State.evtC_eq]
@[simp] theorem State.evtC_pending (s : State) (n b i : Nat) : (s.evtC n b i).pending = s.pending := by rw [State.evtC_eq]
@[simp] theorem State.evtC_time (s : State) (n b i : Nat) : (s.evtC n b i).time = s.time := by rw [State.evtC_eq]

theorem State.evtBy_rd_ne (s : State) (d b i n : Nat) {k : Nat} (h : k ≠ kEvt d b i) : (s.evtBy d b i n).rd k = s.rd k := by
  unfold State.evtBy
  split
  · rfl
  · dsimp only
    split
    · exact State.rd_wr_ne s _ h
    · exact State.rd_fput_ne s _ _ h

theorem State.evtC_rd_ne (s : State) (n b i : Nat) {k : Nat} (h : k ≠ kEvt (n / 18) (b + n % 18) i) :
    (s.evtC n b i).rd k = s.rd k := by
  unfold State.evtC
  split
  · rfl
  · split
    · rfl
    · exact State.evtBy_rd_ne s _ _ _ _ h

/-! ### General registers and predicates -/

@[simp] theorem State.regAt_zero (s : State) (n w : Nat) : s.regAt n 0 w = 0 := rfl

theorem State.setRegAt_eq (s : State) (n r w : Nat) (v : Word) :
    s.setRegAt n r w v = { s with cores := (s.setRegAt n r w v).cores } := by
  unfold State.setRegAt; dsimp only; split
  · rfl
  · split <;> rfl

theorem State.core_setRegAt_ne (s : State) (n r w : Nat) (v : Word) {m : Nat} (h : m ≠ n) :
    (s.setRegAt n r w v).core m = s.core m := by
  unfold State.setRegAt; dsimp only; split
  · rfl
  · split <;> exact State.core_setCore_ne s _ h

theorem State.core_setRegAt (s : State) (n r w : Nat) (v : Word) :
    (s.setRegAt n r w v).core n =
      { s.core n with c := ((s.setRegAt n r w v).core n).c, win := ((s.setRegAt n r w v).core n).win } := by
  unfold State.setRegAt; dsimp only; split
  · rfl
  · split <;> simp

/-- A register reads as it was written, and every other physical register as before (R43–R45). -/
theorem State.regAt_setRegAt (s : State) (n r w : Nat) (v : Word) (r' w' : Nat) :
    (s.setRegAt n r w v).regAt n r' w' =
      if r ≠ 0 ∧ (if r' < 8 then r' = r else 8 ≤ r ∧ physReg n r' w' = physReg n r w) then v else s.regAt n r' w' := by
  unfold State.setRegAt
  by_cases h0 : r = 0
  · simp [h0]
  · by_cases h8 : r < 8
    · simp only [h0, h8, if_true, if_false, State.regAt, State.core_setCore_eq]
      by_cases h : r' = 0
      · have : ¬ 0 = r := fun e => h0 e.symm
        simp [h, this]
      · by_cases hr : r' < 8
        · by_cases e : r' = r
          · subst e; simp [h, hr]
          · simp [h, hr, e, SMap.get_put_ne]
        · have : ¬ 8 ≤ r := by omega
          simp [h, hr, this]
    · simp only [h0, h8, if_false, State.regAt, State.core_setCore_eq]
      by_cases h : r' = 0
      · have : ¬ 0 = r := fun e => h0 e.symm
        simp [h, this]
      · by_cases hr : r' < 8
        · have : r' ≠ r := by omega
          simp [h, hr, this]
        · have h9 : 8 ≤ r := by omega
          by_cases e : physReg n r' w' = physReg n r w
          · simp [h, hr, h9, e, h0]
          · simp [h, hr, e, SMap.get_put_ne]

@[simp] theorem State.pr_zero (s : State) (n : Nat) : s.pr n 0 = true := rfl

theorem State.setPr_eq (s : State) (n : Nat) (p : PReg) (v : Bool) :
    s.setPr n p v = { s with cores := (s.setPr n p v).cores } := by
  unfold State.setPr; split <;> rfl

theorem State.core_setPr_ne (s : State) (n : Nat) (p : PReg) (v : Bool) {m : Nat} (h : m ≠ n) :
    (s.setPr n p v).core m = s.core m := by
  unfold State.setPr; split
  · rfl
  · exact State.core_setCore_ne s _ h

theorem State.core_setPr (s : State) (n : Nat) (p : PReg) (v : Bool) :
    (s.setPr n p v).core n = { s.core n with preds := ((s.setPr n p v).core n).preds } := by
  unfold State.setPr; split
  · rfl
  · simp

theorem twoPow_getLsbD (p q : PReg) : (BitVec.ofNat 16 (2 ^ p.toNat)).getLsbD q.toNat = decide (p = q) := by
  have hq : q.toNat < 16 := q.isLt
  rw [BitVec.getLsbD_ofNat, Nat.testBit_two_pow]
  simp only [hq, decide_true, Bool.true_and]
  by_cases h : p = q
  · simp [h]
  · have : p.toNat ≠ q.toNat := fun e => h (BitVec.eq_of_toNat_eq e)
    simp [h, this]

/-- A predicate reads as it was written, p0 as 1, and every other predicate as before (R43). -/
theorem State.pr_setPr (s : State) (n : Nat) (p q : PReg) (v : Bool) :
    (s.setPr n p v).pr n q = if q ≠ 0 ∧ q = p then v else s.pr n q := by
  unfold State.setPr
  by_cases hp : p = 0
  · subst hp
    by_cases hq : q = 0 <;> simp [hq]
  · simp only [hp, if_false, State.pr, State.core_setCore_eq]
    by_cases hq : q = 0
    · subst hq; simp
    · have hq16 : q.toNat < 16 := q.isLt
      cases v
      · simp only [hq, decide_false, Bool.false_or, Bool.false_eq_true, if_false, BitVec.getLsbD_and, BitVec.getLsbD_not, twoPow_getLsbD, hq16, decide_true, Bool.true_and]
        by_cases e : q = p
        · subst e; simp; exact fun h => absurd h hq
        · have : ¬ p = q := fun h => e h.symm
          simp [e, this]
      · simp only [hq, decide_false, Bool.false_or, if_true, BitVec.getLsbD_or, twoPow_getLsbD]
        by_cases e : q = p
        · subst e; simp; exact .inl hq
        · have : ¬ p = q := fun h => e h.symm
          simp [e, this]

/-! ### Executing an instruction -/

theorem State.needParent_resident (s : State) (n : Nat) (h : 3 ≤ s.resident n) : s.needParent n = (.ok (), s) := by
  have : ¬ s.resident n < 3 := by omega
  simp [State.needParent, State.needFrame, this]

/-- What an instruction that is executed does: its operation, and then the next instruction or an
exception; one that waits has not been executed. -/
theorem State.insn_executes (s : State) (x : Insn) (k : Chk) (body : State → Got (Option Word) × State)
    (h : s.Executes x k) :
    s.insn x k body = match body s with
      | (.ok t, s') => s'.finishInsn x (s.core x.core).pc t
      | (.trap t, s') => s'.takeTrap x.core t
          (if t.cause = cScall ∨ t.cause = cHcall ∨ t.cause = cDcall then s.nextPc x
            else (s.core x.core).pc) x.len
      | (.wait, s') => s' := by
  obtain ⟨_, _, hr, hw, ⟨he, hf⟩, hv, hg, ht, hp⟩ := h
  have hg' : (s.pr x.core x.pred == x.neg) = false := by simpa using hg
  have hp' : (if x.win = 0 then (Got.ok (), s) else s.needParent x.core) = (Got.ok (), s) := by
    rcases hp with h | h
    · simp [h]
    · simp [State.needParent_resident s _ h]
  simp only [State.insn, he, State.arraysCheck, hr, State.awake, hw, State.fetch, hf, hv, hg', ht, hp', andThen, Bool.not_true,
    Bool.not_false, Bool.false_eq_true, if_true, if_false]
  all_goals
    rcases body s with ⟨g, s'⟩
    cases g <;> rfl

/-- An instruction whose operation always completes. -/
theorem State.insn_simply (s : State) (x : Insn) (k : Chk) (f : State → State) (h : s.Executes x k) :
    s.insn x k (simply f) = (f s).finishInsn x (s.core x.core).pc none := by
  rw [State.insn_executes s x k _ h]; rfl

theorem State.finishInsn_eq (s : State) (x : Insn) (pc : Word) (t : Option Word) :
    s.finishInsn x pc t =
      { s with cores := (s.finishInsn x pc t).cores, pcs := (s.finishInsn x pc t).pcs } := by
  unfold State.finishInsn; rw [State.evtC_eq]; rfl

theorem State.core_finishInsn_ne (s : State) (x : Insn) (pc : Word) (t : Option Word) {m : Nat} (h : m ≠ x.core) :
    (s.finishInsn x pc t).core m = s.core m := by
  unfold State.finishInsn; rw [State.core_evtC]; exact State.core_setCore_ne s _ h

@[simp] theorem State.core_finishInsn (s : State) (x : Insn) (pc : Word) (t : Option Word) :
    (s.finishInsn x pc t).core x.core = (s.core x.core).past (pcOf (t.getD (pc + BitVec.ofNat 64 x.len))) := by
  unfold State.finishInsn; rw [State.core_evtC]; simp [Core.past]

theorem State.rd_finishInsn_ne (s : State) (x : Insn) (pc : Word) (t : Option Word) {k : Nat}
    (h : k ≠ kEvt (x.core / 18) (x.core % 18) 1) : (s.finishInsn x pc t).rd k = s.rd k := by
  unfold State.finishInsn; rw [State.evtC_rd_ne _ _ _ _ (by simpa using h)]; rfl

@[simp] theorem State.finishInsn_pending (s : State) (x : Insn) (pc : Word) (t : Option Word) :
    (s.finishInsn x pc t).pending = s.pending := by rw [State.finishInsn_eq]

@[simp] theorem State.setRegAt_pending (s : State) (n r w : Nat) (v : Word) : (s.setRegAt n r w v).pending = s.pending := by
  rw [State.setRegAt_eq]
@[simp] theorem State.setPr_pending (s : State) (n : Nat) (p : PReg) (v : Bool) : (s.setPr n p v).pending = s.pending := by
  rw [State.setPr_eq]

/-! ### Instructions that complete -/

/-- Two effects that agree on a state. -/
theorem effect_congr {s : State} {f g : State → State} (h : f s = g s) : s.effect f = s.effect g := by
  unfold State.effect; rw [h]

theorem effect_of_pending {s u : State} {f : State → State} (h : f s = u) (hp : u.pending = s.pending) : s.effect f = u := by
  unfold State.effect; rw [h, ← hp]

/-- A well-formed command whose effect is known completes with it. -/
theorem completes_run {ok : Bool} {f : State → State} {s t : State} {P : State → Prop} (h : ok = true) (hs : s.stopped = false)
    (hf : f s = t) (hp : t.pending = s.pending) (hP : P t) : ∃ t, runs ok f s = .next t ∧ P t :=
  ⟨t, (runs_next h hs).trans (congrArg _ (effect_of_pending hf hp)), hP⟩

/-- A well-formed command completes with its effect, whatever becomes of the queue in it. -/
theorem completes_run' {ok : Bool} {f : State → State} {s t : State} {P : State → Prop} (h : ok = true) (hs : s.stopped = false)
    (hf : f s = t) (hP : P { t with pending := s.pending }) : ∃ t, runs ok f s = .next t ∧ P t := by
  refine ⟨_, runs_next h hs, ?_⟩
  unfold State.effect; rw [hf]; exact hP

/-- An instruction whose operation always completes answers the end of that operation. -/
theorem completes_simply {s : State} {x : Insn} {k : Chk} {f : State → State} {P : State → Prop} (h : s.Executes x k)
    (hp : (f s).pending = s.pending) (hP : P ((f s).finishInsn x (s.core x.core).pc none)) :
    ∃ t, runs x.wf (fun s => s.insn x k (simply f)) s = .next t ∧ P t := by
  refine ⟨_, runs_next h.1 h.2.1, ?_⟩
  rw [effect_of_pending (s.insn_simply x k f h) (by simp [hp])]
  exact hP

theorem State.finishInsn_coreOnly {s u : State} {x : Insn} (hu : u = { s with cores := u.cores })
    (hc : ∀ m, m ≠ x.core → u.core m = s.core m) (t : Option Word) :
    s.CoreOnly (u.finishInsn x (s.core x.core).pc t) x (pcOf (t.getD ((s.core x.core).pc + BitVec.ofNat 64 x.len))) := by
  refine ⟨?_, fun m hm => ?_, fun k hk => ?_, ?_⟩
  · rw [State.finishInsn_eq]; rw [hu]
  · rw [State.core_finishInsn_ne _ _ _ _ hm, hc m hm]
  · rw [State.rd_finishInsn_ne _ _ _ _ hk]; rw [hu]; rfl
  · rw [State.core_finishInsn]; rfl

theorem State.finishInsn_regAt (s : State) (x : Insn) (pc : Word) (t : Option Word) (r w : Nat) :
    (s.finishInsn x pc t).regAt x.core r w = s.regAt x.core r w := by
  simp [State.regAt, Core.past]

theorem State.finishInsn_pr (s : State) (x : Insn) (pc : Word) (t : Option Word) (p : PReg) :
    (s.finishInsn x pc t).pr x.core p = s.pr x.core p := by
  simp [State.pr, Core.past]

theorem State.setRegAt_pr (s : State) (n r w : Nat) (v : Word) (p : PReg) : (s.setRegAt n r w v).pr n p = s.pr n p := by
  simp only [State.pr]; rw [State.core_setRegAt]

theorem State.setPr_regAt (s : State) (n : Nat) (p : PReg) (v : Bool) (r w : Nat) : (s.setPr n p v).regAt n r w = s.regAt n r w := by
  simp only [State.regAt]; rw [State.core_setPr]

/-- What the end of an instruction with one destination register has changed. -/
theorem State.finishInsn_dst (s : State) (x : Insn) (r : Reg) (v : Word) :
    let t := (s.dst x r v).finishInsn x (s.core x.core).pc none
    s.CoreOnly t x (s.nextPc x) ∧ (s.core x.core).RegsOnly (t.core x.core) ∧
      s.RegWritten t x.core r.toNat (s.dstWin x) v ∧ s.SamePreds t x.core := by
  refine ⟨State.finishInsn_coreOnly (State.setRegAt_eq _ _ _ _ _) (fun m hm => State.core_setRegAt_ne _ _ _ _ _ hm) none, ?_, ?_, ?_⟩
  · unfold Core.RegsOnly; rw [State.core_finishInsn]; unfold State.dst; rw [State.core_setRegAt]; rfl
  · intro r' w'; rw [State.finishInsn_regAt]
    have h := State.regAt_setRegAt s x.core r.toNat (s.dstWin x) v r' w'
    exact ⟨fun i => h.trans (if_pos i), fun i => h.trans (if_neg i)⟩
  · intro p; rw [State.finishInsn_pr]; exact State.setRegAt_pr _ _ _ _ _ _

/-- An instruction whose operation completes on a state answers the end of that operation. -/
theorem completes_ok {s u : State} {x : Insn} {k : Chk} {body : State → Got (Option Word) × State} {g : Option Word}
    {P : State → Prop} (h : s.Executes x k) (hb : body s = (.ok g, u)) (hp : u.pending = s.pending)
    (hP : P (u.finishInsn x (s.core x.core).pc g)) :
    ∃ t, runs x.wf (fun s => s.insn x k body) s = .next t ∧ P t := by
  refine ⟨_, runs_next h.1 h.2.1, ?_⟩
  rw [effect_of_pending (by rw [s.insn_executes x k body h, hb]) (by simp [hp])]
  exact hP

/-- An instruction whose operation always completes, in whatever way. -/
theorem completes_ok' {s u : State} {x : Insn} {k : Chk} {body : State → Got (Option Word) × State} {g : Option Word}
    {P : State → Prop} (h : s.Executes x k) (hb : body s = (.ok g, u))
    (hP : P { u.finishInsn x (s.core x.core).pc g with pending := s.pending }) :
    ∃ t, runs x.wf (fun s => s.insn x k body) s = .next t ∧ P t := by
  refine ⟨_, runs_next h.1 h.2.1, ?_⟩
  have e := s.insn_executes x k body h
  rw [hb] at e
  show P { s.insn x k body with pending := s.pending }
  rw [e]
  exact hP

/-- Two effects that agree on a state complete alike. -/
theorem completes_congr {ok : Bool} {f : State → State} (g : State → State) {s : State} {P : State → Prop} (h : f s = g s)
    (hc : ∃ t, runs ok g s = .next t ∧ P t) : ∃ t, runs ok f s = .next t ∧ P t := by
  have : runs ok f s = runs ok g s := by unfold runs; rw [effect_congr h]
  rw [this]; exact hc

/-- An instruction whose operation raises an exception takes it. -/
theorem completes_trap {s u : State} {x : Insn} {k : Chk} {body : State → Got (Option Word) × State} {e : Trap}
    {P : State → Prop} (h : s.Executes x k) (hb : body s = (.trap e, u))
    (hP : P { u.takeTrap x.core e (if e.cause = cScall ∨ e.cause = cHcall ∨ e.cause = cDcall then s.nextPc x
      else (s.core x.core).pc) x.len with pending := s.pending }) :
    ∃ t, runs x.wf (fun s => s.insn x k body) s = .next t ∧ P t := by
  refine ⟨_, runs_next h.1 h.2.1, ?_⟩
  have e := s.insn_executes x k body h
  rw [hb] at e
  show P { s.insn x k body with pending := s.pending }
  rw [e]
  exact hP

/-! ### State registers -/

@[simp] theorem Core.srv_setSr_eq (c : Core) (n : Nat) (v : Word) : (c.setSr n v).srv n = v := SMap.get_put_eq _ _ _ _
theorem Core.srv_setSr_ne (c : Core) {n m : Nat} (v : Word) (h : m ≠ n) : (c.setSr n v).srv m = c.srv m :=
  SMap.get_put_ne _ _ _ h

/-! ### Taking an exception (R59) -/

/-- A counter by `n` moves `pcs` alone. -/
theorem State.evtBy_eq (s : State) (d b i n : Nat) : s.evtBy d b i n = { s with pcs := (s.evtBy d b i n).pcs } := by
  unfold State.evtBy; split
  · rfl
  · dsimp only; split <;> rfl

/-- A counter of a world moves `pcs` alone. -/
theorem State.evtW_eq (s : State) (w : Bool) (b i : Nat) : s.evtW w b i = { s with pcs := (s.evtW w b i).pcs } := by
  unfold State.evtW; split
  · rfl
  · exact State.evtBy_eq _ _ _ _ _


theorem State.evt_eq (s : State) (d b i : Nat) : s.evt d b i = { s with pcs := (s.evt d b i).pcs } := by
  unfold State.evt State.evtBy; split
  · rfl
  · dsimp only; split <;> rfl

theorem State.evt_rd_ne (s : State) (d b i : Nat) {k : Nat} (h : k ≠ kEvt d b i) : (s.evt d b i).rd k = s.rd k :=
  State.evtBy_rd_ne s d b i 1 h

theorem excBase_cases (n l : Nat) (d : Bool) :
    excBase n l d = 0xC20 ∨ excBase n l d = 0x820 ∨ excBase n l d = 0xD20 ∨ excBase n l d = 0x420 := by
  unfold excBase; split
  · exact .inl rfl
  · split
    · exact .inr (.inl rfl)
    · split
      · exact .inr (.inr (.inl rfl))
      · exact .inr (.inr (.inr rfl))

theorem excBase_lt (n l : Nat) (d : Bool) : excBase n l d + 5 ≠ 0x904 ∧ excBase n l d + 5 ≠ 0xD00 ∧ excBase n l d + 5 ≠ 0x400 ∧
    ∀ k, k ≤ 5 → excBase n l d + k ≠ 0x904 ∧ excBase n l d + k ≠ 0xD00 ∧ excBase n l d + k ≠ 0x400 := by
  rcases excBase_cases n l d with h | h | h | h <;> rw [h] <;> refine ⟨by omega, by omega, by omega, fun k hk => ?_⟩ <;> omega

theorem Core.setSr_sr {c d : Core} (n : Nat) (v : Word) (h : d = { c with sr := d.sr }) :
    d.setSr n v = { c with sr := (d.setSr n v).sr } := by
  unfold Core.setSr
  generalize SMap.put srReset d.sr n v = w
  rw [h]

theorem Core.trapRegs_eq (c : Core) (b tl ilen : Nat) (e : Trap) (epc : Word) :
    c.trapRegs b tl ilen e epc = { c with sr := (c.trapRegs b tl ilen e epc).sr } := by
  have h5 : ∀ v1 v2 v3 v4 v5 : Word, ∀ d : Core, d = ((((c.setSr b v1).setSr (b + 1) v2).setSr (b + 2) v3).setSr (b + 3) v4).setSr (b + 4) v5 →
      d = { c with sr := d.sr } := by
    rintro v1 v2 v3 v4 v5 d rfl
    exact Core.setSr_sr _ _ (Core.setSr_sr _ _ (Core.setSr_sr _ _ (Core.setSr_sr _ _ (Core.setSr_sr _ _ rfl))))
  unfold Core.trapRegs
  dsimp only
  generalize hd : ((((c.setSr b epc).setSr (b + 1) (c.srv 0x400)).setSr (b + 2) (BitVec.ofNat 64 (e.ecause ilen))).setSr (b + 3)
    (BitVec.ofNat 64 e.syn)).setSr (b + 4) (BitVec.ofNat 64 e.eva) = d
  have h := h5 _ _ _ _ _ d hd.symm
  split
  · split
    · exact Core.setSr_sr _ _ h
    · exact h
  · exact h

theorem Core.trapWctl_eq (c : Core) (tl : Nat) (was : Bool) (lv : Nat) :
    c.trapWctl tl was lv = { c with sr := (c.trapWctl tl was lv).sr } := by
  unfold Core.trapWctl; split
  · split
    · rfl
    · split <;> rfl
  · rfl

theorem Core.trapWctl_srv (c : Core) (tl : Nat) (was : Bool) (lv : Nat) (j : Nat) (h : j ≠ 0xD00) :
    (c.trapWctl tl was lv).srv j = c.srv j := by
  unfold Core.trapWctl; split
  · split
    · exact Core.srv_setSr_ne _ _ h
    · split
      · exact Core.srv_setSr_ne _ _ h
      · rfl
  · rfl

/-- The state registers after the entry's writes, by number. -/
theorem Core.trapRegs_srv (c : Core) (b tl ilen : Nat) (e : Trap) (epc : Word) (j : Nat) (hj : e.ipa = none ∨ j ≠ 0x904) :
    (c.trapRegs b tl ilen e epc).srv j =
      if j = b + 4 then BitVec.ofNat 64 e.eva else if j = b + 3 then BitVec.ofNat 64 e.syn
      else if j = b + 2 then BitVec.ofNat 64 (e.ecause ilen)
      else if j = b + 1 then c.srv 0x400 else if j = b then epc else c.srv j := by
  have key : ((((((c.setSr b epc).setSr (b + 1) (c.srv 0x400)).setSr (b + 2) (BitVec.ofNat 64 (e.ecause ilen))).setSr (b + 3)
      (BitVec.ofNat 64 e.syn)).setSr (b + 4) (BitVec.ofNat 64 e.eva)).srv j) =
      if j = b + 4 then BitVec.ofNat 64 e.eva else if j = b + 3 then BitVec.ofNat 64 e.syn
      else if j = b + 2 then BitVec.ofNat 64 (e.ecause ilen)
      else if j = b + 1 then c.srv 0x400 else if j = b then epc else c.srv j := by
    simp only [Core.srv, Core.setSr]
    by_cases h4 : j = b + 4
    · subst h4; simp
    · rw [SMap.get_put_ne _ _ _ h4, if_neg h4]
      by_cases h3 : j = b + 3
      · subst h3; simp
      · rw [SMap.get_put_ne _ _ _ h3, if_neg h3]
        by_cases h2 : j = b + 2
        · subst h2; simp
        · rw [SMap.get_put_ne _ _ _ h2, if_neg h2]
          by_cases h1 : j = b + 1
          · subst h1; simp
          · rw [SMap.get_put_ne _ _ _ h1, if_neg h1]
            by_cases h0 : j = b
            · subst h0; simp
            · rw [SMap.get_put_ne _ _ _ h0, if_neg h0]
  rw [← key]
  unfold Core.trapRegs; dsimp only
  split
  · rename_i i hi
    split
    · rw [Core.srv_setSr_ne _ _ (hj.resolve_left (by rw [hi]; simp))]
    · rfl
  · rfl

theorem Core.trapEnd_srv_ne (c : Core) (b tl : Nat) (dk irq same : Bool) (j : Nat) (h : j ≠ 0x400) :
    (c.trapEnd b tl dk irq same).srv j = c.srv j := Core.srv_setSr_ne _ _ h

theorem Core.trapEnd_status (c : Core) (b tl : Nat) (dk irq same : Bool) :
    (c.trapEnd b tl dk irq same).srv 0x400 = BitVec.ofNat 64 ((if dk then 2 ^ 31 else 0) + tl) := Core.srv_setSr_eq _ _ _

theorem Core.trapEnd_pc (c : Core) (b tl : Nat) (dk irq same : Bool) (h : b + 5 ≠ 0x400) :
    (c.trapEnd b tl dk irq same).pc = pcOf (c.srv (b + 5) + trapOff irq same) := by
  show pcOf (Core.srv (Core.setSr _ _ _) _ + _) = _
  rw [Core.srv_setSr_ne _ _ h]

theorem State.slide_eq (s : State) (n own : Nat) : s.slide n own = s.setCore n ((s.slide n own).core n) := by
  unfold State.slide; simp

theorem State.core_slide (s : State) (n own : Nat) :
    (s.slide n own).core n = { s.core n with win := ((s.slide n own).core n).win, cwp := ((s.core n).cwp + 1) % frames n,
                                             owners := ((s.slide n own).core n).owners } := by
  unfold State.slide; simp

theorem State.freeFrames_trapRegs (s : State) (n b tl ilen : Nat) (e : Trap) (epc : Word) (d i : Nat) :
    ((s.evtC n d i).setCore n ((s.core n).trapRegs b tl ilen e epc)).freeFrames n = s.freeFrames n := by
  simp only [State.freeFrames, State.resident, State.core_setCore_eq]
  rw [Core.trapRegs_eq]

theorem State.predReset_eq (s : State) (n : Nat) : s.predReset n = s.setCore n ((s.predReset n).core n) := by
  unfold State.predReset; simp

theorem State.core_predReset (s : State) (n : Nat) :
    (s.predReset n).core n = { s.core n with pred := ((s.predReset n).core n).pred, sb := ((s.predReset n).core n).sb } := by
  unfold State.predReset; simp

/-- Taking an exception while a frame is free (R51, R59). -/
theorem State.takeTrap_taken (s : State) (n : Nat) (e : Trap) (epc : Word) (ilen : Nat) (hf : s.freeFrames n ≠ 0) :
    s.TrapTaken (s.takeTrap n e epc ilen) n e (s.trapLevel n e) epc ilen := by
  have hx := excBase_lt n (s.trapLevel n e) (s.trapDark n (s.trapLevel n e))
  unfold State.takeTrap
  dsimp only
  rw [State.freeFrames_trapRegs, if_neg hf]
  generalize htl : s.trapLevel n e = tl at *
  generalize hdk : s.trapDark n tl = dk at *
  generalize hb : excBase n tl dk = b at *
  generalize hi : (if decide (e.cause = cIrq) = true then 6 else 5) = i
  generalize hk : Core.trapRegs (s.core n) b tl ilen e epc = k
  generalize hu : ((s.evtC n 0 i).setCore n k).slide n (ownerCode tl dk) = u
  have hun : u.core n = { k with win := (u.core n).win, cwp := (k.cwp + 1) % frames n, owners := (u.core n).owners } := by
    rw [← hu]; rw [State.core_slide]; simp
  have sr0 : ∀ j, (u.core n).srv j = k.srv j := by intro j; rw [hun]; rfl
  generalize hw : (u.core n).trapWctl tl (s.core n).darkW (s.core n).level = w
  have hwe : w = { u.core n with sr := w.sr } := by rw [← hw]; exact Core.trapWctl_eq _ _ _ _
  have sr : ∀ j, j ≠ 0xD00 → w.srv j = k.srv j := by intro j hj; rw [← hw, Core.trapWctl_srv _ _ _ _ _ hj, sr0]
  generalize hd : w.trapEnd b tl dk (decide (e.cause = cIrq)) (decide (tl = (s.core n).level)) = d
  have ds : ∀ j, j ≠ 0x400 → j ≠ 0xD00 → d.srv j = k.srv j := by
    intro j h h'; rw [← hd, Core.trapEnd_srv_ne _ _ _ _ _ _ _ h, sr _ h']
  have dst : d.srv 0x400 = BitVec.ofNat 64 ((if dk then 2 ^ 31 else 0) + tl) := by rw [← hd, Core.trapEnd_status]
  have dpc : d.pc = pcOf (k.srv (b + 5) + trapOff (decide (e.cause = cIrq)) (decide (tl = (s.core n).level))) := by
    rw [← hd, Core.trapEnd_pc _ _ _ _ _ _ hx.2.2.1, sr _ hx.2.1]
  have ke : k = { s.core n with sr := k.sr } := by rw [← hk]; exact Core.trapRegs_eq _ _ _ _ _ _
  have dall : d = { s.core n with sr := d.sr, win := d.win, cwp := d.cwp, owners := d.owners, pc := d.pc, dev := d.dev,
                                  nearTry := d.nearTry } := by
    have : d = { w with sr := d.sr, pc := d.pc, dev := d.dev, nearTry := d.nearTry } := by rw [← hd]; rfl
    rw [this, hwe, hun, ke]
  have ddev : d.dev = [] ∧ d.nearTry = none := by rw [← hd]; exact ⟨rfl, rfl⟩
  have dcwp : d.cwp = ((s.core n).cwp + 1) % frames n := by
    have : d.cwp = w.cwp := by rw [← hd]; rfl
    rw [this, hwe]; show (u.core n).cwp = _; rw [hun]; show (k.cwp + 1) % _ = _; rw [← hk, Core.trapRegs_eq]
  have hs : u.setCore n d = { s with cores := (u.setCore n d).cores, pcs := (u.setCore n d).pcs } := by
    rw [← hu, State.slide_eq, State.evtC_eq]; rfl
  have hcm : ∀ m, m ≠ n → (u.setCore n d).core m = s.core m := by
    intro m hm; rw [State.core_setCore_ne _ _ hm, ← hu, State.slide_eq, State.core_setCore_ne _ _ hm, State.core_setCore_ne _ _ hm, State.core_evtC]
  have hrd : ∀ j, j ≠ kEvt (n / 18) (n % 18) i → (u.setCore n d).rd j = s.rd j := by
    intro j hj; rw [State.rd_setCore, ← hu, State.slide_eq, State.rd_setCore, State.rd_setCore, State.evtC_rd_ne _ _ _ _ (by simpa using hj)]
  have kreg : ∀ j, j ≠ 0x904 → k.srv j = if j = b + 4 then BitVec.ofNat 64 e.eva else if j = b + 3 then BitVec.ofNat 64 e.syn
      else if j = b + 2 then BitVec.ofNat 64 (e.ecause ilen)
      else if j = b + 1 then (s.core n).srv 0x400 else if j = b then epc else (s.core n).srv j :=
    fun j hj => by rw [← hk]; exact Core.trapRegs_srv (s.core n) b tl ilen e epc j (.inr hj)
  -- the facts of the core, which the last step keeps
  have core : ∀ t : State, (∃ p sb, t.core n = { d with pred := p, sb := sb } ∧
        (tl < 3 ∨ (s.core n).darkW = true → p = (s.core n).pred ∧ sb = (s.core n).sb)) →
      t = { s with cores := t.cores, pcs := t.pcs } → (∀ m, m ≠ n → t.core m = s.core m) →
      (∀ j, j ≠ kEvt (n / 18) (n % 18) i → j ≠ kEvt 15 2 4 → t.rd j = s.rd j) → s.TrapTaken t n e tl epc ilen := by
    rintro t ⟨p, sb, ht, hps⟩ h1 h2 h3
    have tsr : ∀ j, (t.core n).srv j = d.srv j := fun j => by rw [ht]; rfl
    unfold State.TrapTaken
    simp only [hdk, hb, tsr]
    refine ⟨?_, ?_, ?_, ?_, ?_, dst, ?_, ?_, ?_, by rw [ht]; exact ddev.1, by rw [ht]; exact ddev.2, by rw [ht, dall], ?_, h1, h2, ?_⟩
    · have h0 := hx.2.2.2 0 (by omega)
      rw [Nat.add_zero] at h0
      rw [ds _ h0.2.2 h0.2.1, kreg _ h0.1]
      rw [if_neg (by omega), if_neg (by omega), if_neg (by omega), if_neg (by omega), if_pos rfl]
    · rw [ds _ (hx.2.2.2 1 (by omega)).2.2 (hx.2.2.2 1 (by omega)).2.1, kreg _ (hx.2.2.2 1 (by omega)).1]
      rw [if_neg (by omega), if_neg (by omega), if_neg (by omega), if_pos rfl]
    · rw [ds _ (hx.2.2.2 2 (by omega)).2.2 (hx.2.2.2 2 (by omega)).2.1, kreg _ (hx.2.2.2 2 (by omega)).1]
      rw [if_neg (by omega), if_neg (by omega), if_pos rfl]
    · rw [ds _ (hx.2.2.2 3 (by omega)).2.2 (hx.2.2.2 3 (by omega)).2.1, kreg _ (hx.2.2.2 3 (by omega)).1]
      rw [if_neg (by omega), if_pos rfl]
    · rw [ds _ (hx.2.2.2 4 (by omega)).2.2 (hx.2.2.2 4 (by omega)).2.1, kreg _ (hx.2.2.2 4 (by omega)).1, if_pos rfl]
    · intro j hj h4 hD h9
      rw [ds _ h4 hD, ← hk, Core.trapRegs_srv _ _ _ _ _ _ _ h9, if_neg (by omega), if_neg (by omega), if_neg (by omega), if_neg (by omega),
        if_neg (by omega)]
    · rw [ht, dpc, kreg _ hx.1, if_neg (by omega), if_neg (by omega), if_neg (by omega), if_neg (by omega), if_neg (by omega)]
    · rw [ht]; exact dcwp
    · intro h; rw [ht]; exact hps h
    · intro j hj; refine h3 j ?_; rw [← hi]; simpa using hj
  by_cases hw' : (decide (tl = 3) && !(s.core n).darkW) = true
  · rw [if_pos hw']
    have e1 : ((u.setCore n d).predReset n).core n = { d with pred := (((u.setCore n d).predReset n).core n).pred, sb := (((u.setCore n d).predReset n).core n).sb } := by
      rw [State.core_predReset, State.core_setCore_eq]
    refine core _ ⟨_, _, by rw [State.core_evt]; exact e1, fun h => by
      simp only [Bool.and_eq_true, decide_eq_true_eq, Bool.not_eq_true'] at hw'
      rcases h with h | h
      · omega
      · rw [hw'.2] at h; cases h⟩ ?_ (fun m hm => ?_) (fun j hj hj' => ?_)
    · rw [State.evt_eq, State.predReset_eq, hs]; rfl
    · rw [State.core_evt, State.predReset_eq, State.core_setCore_ne _ _ hm, hcm m hm]
    · rw [State.evt_rd_ne _ _ _ _ hj', State.predReset_eq, State.rd_setCore, hrd j hj]
  · rw [if_neg hw']
    exact core _ ⟨d.pred, d.sb, by rw [State.core_setCore_eq], fun _ => by rw [dall]; exact ⟨rfl, rfl⟩⟩ hs hcm (fun j hj _ => hrd j hj)

/-! ### What changes the cores and the registers alone -/

/-- Only the cores and the Package Control Space differ. -/
def CoresPcs (s t : State) : Prop := t = { s with cores := t.cores, pcs := t.pcs }

theorem CoresPcs.refl (s : State) : CoresPcs s s := rfl
theorem CoresPcs.trans {s t u : State} (h : CoresPcs s t) (h' : CoresPcs t u) : CoresPcs s u := by
  unfold CoresPcs at *
  generalize hc : u.cores = c at *
  generalize hp : u.pcs = p at *
  rw [h', h]
theorem coresPcs_setCore (s : State) (n : Nat) (c : Core) : CoresPcs s (s.setCore n c) := rfl
theorem coresPcs_evt (s : State) (d b i : Nat) : CoresPcs s (s.evt d b i) := by
  unfold CoresPcs; rw [State.evt_eq]
theorem coresPcs_evtC (s : State) (n b i : Nat) : CoresPcs s (s.evtC n b i) := by
  unfold CoresPcs; rw [State.evtC_eq]
theorem coresPcs_predReset (s : State) (n : Nat) : CoresPcs s (s.predReset n) := by
  rw [State.predReset_eq]; exact coresPcs_setCore _ _ _
theorem coresPcs_unslide (s : State) (n : Nat) : CoresPcs s (s.unslide n) := coresPcs_setCore _ _ _
theorem coresPcs_slide (s : State) (n o : Nat) : CoresPcs s (s.slide n o) := coresPcs_setCore _ _ _
theorem coresPcs_setRegAt (s : State) (n r w : Nat) (v : Word) : CoresPcs s (s.setRegAt n r w v) := by
  unfold CoresPcs; rw [State.setRegAt_eq]

theorem coresPcs_finishInsn (s : State) (x : Insn) (pc : Word) (g : Option Word) : CoresPcs s (s.finishInsn x pc g) := by
  unfold CoresPcs; rw [State.finishInsn_eq]

end Sys2Proof.Machine
end

