-- ==== Sys2Proof/Laws/Pcs.lean ====
section
/-! SUPPORT.
Writes of Package Control Space registers (R10, R13, R441): what a write that reaches its register does. -/

namespace Sys2Proof.Machine

/-- An access whose way is open reaches its register. -/
theorem State.pcsPath_open {s u : State} {k : Nat} (h : s.PathOpen u k) : s.pcsPath k = (.open, u) := by
  unfold State.PathOpen at h
  unfold State.pcsPath
  dsimp only at h ⊢
  split
  · rw [if_pos (by assumption)] at h; rw [h]
  · rename_i hd
    rw [if_neg hd] at h
    obtain ⟨hu, h1, h2, h3, h4, h5, h6⟩ := h
    have e : (if (decide (s.dstate (pcsDie k) = 2) && !s.parked (pcsDie k) && !s.dieOut (pcsDie k)) = true then
        s.dieRouse (pcsDie k) [(8, pcsDie k)] else s) = u := by
      rw [hu]; simp only [Bool.and_eq_true, decide_eq_true_eq, Bool.not_eq_true', and_assoc]
    rw [e]
    simp [h1, h2, h3, h4, h5, h6]

/-- A write of 8 bytes that reaches its register stores the value by the access codes and goes on with what
the register does. -/
theorem State.pcsTry_reaches {s u : State} {agent : Agent} {k : Nat} {d : RegDef} {v : Word} (h : s.Reaches u agent k d v) :
    s.pcsTry agent k 8 v = (u.wr k (u.regAfter k d v)).pcsAfter k d (u.rd k) (u.regAfter k d v) v (BitVec.allOnes 64) := by
  obtain ⟨ha, hk, hd, had, hp, ht, hh⟩ := h
  have e : k / 8 * 8 = k := by omega
  unfold State.pcsTry
  have hp' := State.pcsPath_open hp
  simp only [e, ha, hk, hd, had, hp', ht, hh, State.regAfter, pcsMask, ne_eq, not_true_eq_false, and_false, or_self, if_false, if_true,
    Bool.not_true, Bool.false_eq_true]

theorem State.pcsWrite_reaches {s u t : State} {agent : Agent} {k : Nat} {d : RegDef} {v : Word} (h : s.Reaches u agent k d v)
    (ht : (u.wr k (u.regAfter k d v)).pcsAfter k d (u.rd k) (u.regAfter k d v) v (BitVec.allOnes 64) = some t) :
    s.pcsWrite agent k 8 v = t := by
  unfold State.pcsWrite
  rw [State.pcsTry_reaches h, ht]

/-- Bit by bit, the access codes of R13 while the lock of the RWL fields is clear or set. -/
theorem RegDef.written_getLsbD (d : RegDef) (locked : Bool) (old v : Word) (i : Nat) (hi : i < 64) :
    (d.written locked old v (BitVec.allOnes 64)).getLsbD i =
      (let set := d.rw.testBit i || d.rws.testBit i || (!locked && d.rwl.testBit i)
       ((if set then v.getLsbD i else old.getLsbD i) && !(v.getLsbD i && d.w1c.testBit i)) || (v.getLsbD i && d.w1s.testBit i)) := by
  unfold RegDef.written
  cases locked <;>
    simp only [BitVec.getLsbD_or, BitVec.getLsbD_and, BitVec.getLsbD_not, BitVec.getLsbD_ofNat, BitVec.getLsbD_allOnes, hi, decide_true,
      Bool.true_and, Bool.and_true, if_true, if_false, Bool.false_eq_true, BitVec.getLsbD_zero, Bool.or_false, Bool.not_true, Bool.not_false,
      BitVec.ofNat_eq_ofNat, Bool.false_and, Nat.testBit_or, Nat.zero_testBit] <;>
    cases d.rw.testBit i <;> cases d.rws.testBit i <;> cases d.rwl.testBit i <;> cases v.getLsbD i <;> cases old.getLsbD i <;>
    cases d.w1c.testBit i <;> cases d.w1s.testBit i <;> rfl

/-- A register with no behaviour of its own only stores what its access codes give. -/
theorem State.pcsAfter_plain (s : State) (k : Nat) (d : RegDef) (old new v m : Word) (h : pcsSpecial.contains d.name = false) :
    s.pcsAfter k d old new v m = some s := by
  unfold State.pcsAfter
  dsimp only
  simp only [pcsSpecial, List.contains_eq_mem, List.mem_cons, List.mem_nil_iff, or_false, decide_eq_false_iff_not, not_or] at h
  obtain ⟨h1, h2, h3, h4, h5, h6, h7, h8, h9, h10, h11, h12, _⟩ := h
  split <;> first | rfl | contradiction

theorem pcsIgnores_plain (d : RegDef) (old new : Word) (h : pcsSpecial.contains d.name = false) : pcsIgnores d old new = new := by
  simp only [pcsSpecial, List.contains_eq_mem, List.mem_cons, List.mem_nil_iff, or_false, decide_eq_false_iff_not, not_or] at h
  obtain ⟨_, _, _, _, _, _, _, _, _, _, _, _, h13, h14, h15, h16, h17, h18⟩ := h
  unfold pcsIgnores
  rw [if_neg h13, if_neg (by rintro ⟨h | h, _⟩ <;> contradiction), if_neg (by rintro ⟨h, _⟩; contradiction),
    if_neg (by rintro ⟨h | h, _⟩ <;> contradiction)]

end Sys2Proof.Machine
end

