-- ==== Sys2Proof/Laws/Zci.lean ====
section
/-! SUPPORT.
What the taking of a ZCI command does, once for every row (R394–R400). -/

namespace Sys2Proof.Machine
open Sys2Proof

/-- The boot mailbox does not turn the command away. -/
theorem free_mail {u : State} {z : ZCmd} (hb : z.qp = 0 → u.boot.warm = false ∧ u.zci.outs.any (fun o => o.z.qp = 0) = false) :
    (decide (z.qp = 0) && (u.boot.warm || u.zci.outs.any fun o => decide (o.z.qp = 0))) = false := by
  by_cases h0 : z.qp = 0
  · rw [(hb h0).1, (hb h0).2]; simp
  · simp [h0]

theorem ztake_failed (s : State) (h : Handler) (z : ZCmd) (hr : s.zciFlush.pairRuns z.qp = true)
    (hb : z.qp = 0 → s.zciFlush.boot.warm = false ∧ s.zciFlush.zci.outs.any (fun o => o.z.qp = 0) = false) (st d : Nat) (hc : s.zciFlush.zcheck z = some (st, d)) :
    s.ztake h z = s.zfail z (s.zciFlush.zadmit z) st d := by
  have hb' := free_mail hb
  unfold State.ztake State.zfail
  simp only [hr, hb', hc, Bool.not_true, Bool.false_eq_true, if_false]

theorem ztake_held (s : State) (h : Handler) (z : ZCmd) (ha : s.ZAdmits z)
    (hh : (s.zciFlush.zadmit z).zheld (s.zciFlush.zout z) = true) :
    s.ztake h z = (if (s.zciFlush.zout z).two && decide (z.qp ≠ 0) && !zpath z 2 then
        (s.zciFlush.zadmit z).queueRep z zAccepted 0 [] false else s.zciFlush.zadmit z).zciFlush := by
  obtain ⟨-, hr, hb, hc⟩ := ha
  have hb' := free_mail hb
  unfold State.ztake
  simp only [hr, hb', hc, hh, Bool.not_true, Bool.false_eq_true, if_false, if_true]

theorem ztake_chain (s : State) (h : Handler) (z : ZCmd) (ha : s.ZAdmits z)
    (hh : (s.zciFlush.zadmit z).zheld (s.zciFlush.zout z) = false)
    (hk : (s.zciFlush.zadmit z).chainBroken (s.zciFlush.zout z) = true) :
    s.ztake h z = s.zfail z (s.zciFlush.zadmit z) zNotPermitted dChain := by
  obtain ⟨-, hr, hb, hc⟩ := ha
  have hb' := free_mail hb
  unfold State.ztake State.zfail
  simp only [hr, hb', hc, hh, hk, Bool.not_true, Bool.false_eq_true, if_false, if_true]

/-- A command that begins as it is taken is performed by its handler. -/
theorem ztake_begins (s : State) (h : Handler) (z : ZCmd) (hz : s.ZReady z) :
    s.ztake h z = match (s.zstarted z).zbegin h (s.zciFlush.zout z) false with
      | (some s, _) => s.zciFlush
      | (none, u) => u.zuntake (s.zciFlush.zout z).id z.qp (s.zciFlush.zout z).prev := by
  obtain ⟨⟨-, hr, hb, hc⟩, hh, hk⟩ := hz
  have hb' := free_mail hb
  unfold State.ztake State.zstarted
  simp only [hr, hb', hc, hh, hk, Bool.not_true, Bool.false_eq_true, if_false]
  all_goals rfl

theorem ztake_done {s : State} {h : Handler} {z : ZCmd} {d : Nat} {r : List Byte} {v : State} (hz : s.ZReady z)
    (hh : h s.zid z (s.zstarted z) = (.done d r, v)) : s.ztake h z = s.zdone z v d r := by
  rw [ztake_begins s h z hz]
  unfold State.zbegin
  rw [show h (s.zciFlush.zout z).id (s.zciFlush.zout z).z (s.zstarted z) = (.done d r, v) from hh]
  simp only [Bool.not_false, Bool.and_true]
  rfl

theorem ztake_later {s : State} {h : Handler} {z : ZCmd} {v : State} (hz : s.ZReady z)
    (hh : h s.zid z (s.zstarted z) = (.later, v)) : s.ztake h z = s.zruns z v := by
  rw [ztake_begins s h z hz]
  unfold State.zbegin
  rw [show h (s.zciFlush.zout z).id (s.zciFlush.zout z).z (s.zstarted z) = (.later, v) from hh]
  simp only [Bool.not_false, Bool.and_true]
  rfl

/-- The OPCODE of a command as the checks read it. -/
theorem ZCmd.f_opcode (z : ZCmd) : z.f 0 2 = z.byte 0 + 256 * z.byte 1 := by
  unfold ZCmd.f ZCmd.byte fieldAt
  generalize z.cmd.toNat = n
  rw [Nat.shiftRight_eq_div_pow]
  norm_num
  omega

theorem ZCmd.is_opcode {z : ZCmd} {op : Nat} (h : z.is op = true) : z.f 0 2 = op := by
  unfold ZCmd.is at h
  rw [Bool.and_eq_true] at h
  rw [ZCmd.f_opcode]; exact of_decide_eq_true h.2

theorem ZCmd.isFirst_is {z : ZCmd} {op i : Nat} {l : List Nat} (h : z.isFirst op i l = true) : z.is op = true := by
  unfold ZCmd.isFirst at h; exact (Bool.and_eq_true _ _ ▸ h).1

theorem ZCmd.isOp_is {z : ZCmd} {op i v : Nat} (h : z.isOp op i v = true) : z.is op = true := by
  unfold ZCmd.isOp at h; exact (Bool.and_eq_true _ _ ▸ h).1

/-- A command of the service firmware's path that no accepted command equals is taken. -/
theorem zfirm_fresh (s : State) (h : Handler) (z : ZCmd) (hz : ∀ o, o ∈ s.zciFlush.zci.outs → o.z ≠ z) :
    s.zfirm h z = s.ztake h z := by
  unfold State.zfirm
  rw [List.find?_eq_none.mpr (fun o ho => by simp [hz o ho])]

/-- A row whose command is done. -/
theorem completes_done {c : Instr} {ok : Bool} {f : State → State} {h : Handler} {z : ZCmd} {s v : State} {d : Nat} {r : List Byte}
    (hok : ok = true) (hz : s.ZReady z) (he : exec c s = runs ok f s) (hf : f s = s.ztake h z)
    (hh : h s.zid z (s.zstarted z) = (.done d r, v)) :
    Completes c s fun t => t = { s.zdone z v d r with pending := s.pending } := by
  unfold Completes; rw [he]
  exact completes_run' (f := f) hok hz.1.1 (hf.trans (ztake_done hz hh)) rfl

/-- A row whose command runs on. -/
theorem completes_later {c : Instr} {ok : Bool} {f : State → State} {h : Handler} {z : ZCmd} {s v : State}
    (hok : ok = true) (hz : s.ZReady z) (he : exec c s = runs ok f s) (hf : f s = s.ztake h z)
    (hh : h s.zid z (s.zstarted z) = (.later, v)) :
    Completes c s fun t => t = { s.zruns z v with pending := s.pending } := by
  unfold Completes; rw [he]
  exact completes_run' (f := f) hok hz.1.1 (hf.trans (ztake_later hz hh)) rfl

end Sys2Proof.Machine
end

