-- ==== Sys2Proof/Laws/Engines.lean ====
section
/-! SUPPORT.
The channels, the ports, the Lend endpoint and the power manager: what their shared operations leave alone. -/

namespace Sys2Proof.Machine

theorem evt_enl (s : State) (d b i : Nat) : (s.evt d b i).enl = s.enl := by rw [State.evt_eq]

theorem State.alertSettle_none {s : State} {ch : Nat} (h : (s.chan ch).attempts = 0) : s.alertSettle ch = s := by
  unfold State.alertSettle; simp [h]

theorem State.chanArrive_do {s : State} {ch : Nat} (hu : s.chanUp ch = true) (ha : (s.chan ch).alerted = false)
    (h0 : (s.chan ch).attempts = 0) (q : ChanCmd) : s.chanArrive ch q = s.chanDo ch q := by
  have h4 : ¬ s.fget (kMcStat ch) fMcStat_STATE = 4 := by
    intro h; unfold State.chanUp at hu; rw [h] at hu; exact absurd hu (by decide)
  unfold State.chanArrive
  simp only [h4, hu, ha, if_false, Bool.not_true, Bool.false_eq_true, State.alertSettle_none h0]

theorem State.evtWif_eq (s : State) (b w : Bool) (k i : Nat) :
    (if b then s.evtW w k i else s) = { s with pcs := (if b then s.evtW w k i else s).pcs } := by
  cases b
  · rfl
  · exact State.evtW_eq _ _ _ _

theorem evtW_mline (s : State) (w : Bool) (k i j : Nat) : (s.evtW w k i).mline j = s.mline j := by rw [State.evtW_eq]; rfl

theorem evtW_chan (s : State) (w : Bool) (k i j : Nat) : (s.evtW w k i).chan j = s.chan j := by rw [State.evtW_eq]; rfl

theorem evtW_out (s : State) (w : Bool) (k i : Nat) : (s.evtW w k i).out = s.out := by rw [State.evtW_eq]

/-- Showing a channel's queue changes the registers and at most the age panic. -/
theorem State.chanShow_eq (s : State) (ch : Nat) : s.chanShow ch = { s with chans := (s.chanShow ch).chans, pcs := (s.chanShow ch).pcs } := rfl

theorem State.chan_chanShow (s : State) (ch : Nat) :
    (s.chanShow ch).chan ch = if ((s.chan ch).queue.filter (·.rt)).length = 0 then { s.chan ch with agePanic := false } else s.chan ch := by
  unfold State.chanShow
  dsimp only
  simp only [State.chan_fput]
  exact State.chan_setChan_eq _ _ _

theorem State.chanShow_set (s : State) (ch : Nat) (c : Chan) : (s.setChan ch c).chanShow ch =
    { s with chans := ((s.setChan ch c).chanShow ch).chans, pcs := ((s.setChan ch c).chanShow ch).pcs } :=
  (State.chanShow_eq (s.setChan ch c) ch).trans (by rfl)

theorem State.chan_chanShow_ne (s : State) {ch c : Nat} (h : c ≠ ch) : (s.chanShow ch).chan c = s.chan c := by
  unfold State.chanShow
  dsimp only
  simp only [State.chan_fput]
  exact State.chan_setChan_ne _ _ h

theorem evt_chan (s : State) (d k i j : Nat) : (s.evt d k i).chan j = s.chan j := by rw [State.evt_eq]; rfl

theorem evtBy_chan (s : State) (d k i n j : Nat) : (s.evtBy d k i n).chan j = s.chan j := by rw [State.evtBy_eq]; rfl

theorem setPort_state (s : State) (p st w g : Nat) (h : st < 2 ^ fFioPstat_STATE.w) : (s.setPort p st w g).portState p = st := by
  unfold State.setPort State.portState
  dsimp only
  rw [State.fget_fput_ne _ _ _ _ _ (by decide) (by decide), State.fget_fput_ne _ _ _ _ _ (by decide) (by decide), State.fget_fput _ _ _ _ (by decide)]
  exact Nat.mod_eq_of_lt h

theorem lf_setLf (s : State) (fn : Nat) (x : LendFn) : (s.setLf fn x).lf fn = x := SMap.get_put_eq _ _ _ _

theorem each_chan_lend (l : List Nat) (f : State → Nat → Chan) (u : State) : (u.each l (fun s ch => s.setChan ch (f s ch))).lend = u.lend := by
  unfold State.each
  induction l generalizing u with
  | nil => rfl
  | cons a l ih => rw [List.foldl_cons, ih]; rfl

theorem lf_mbox (s : State) (fn a b : Nat) (p : List Byte) (n : Nat) : (s.mbox fn a b p).lf n = s.lf n := rfl

theorem lendResetDone_lf (s : State) (fn : Nat) : ∃ a b, (s.lendResetDone fn).lf fn = { s.lf fn with flr := a, cxr := b } := by
  unfold State.lendResetDone
  dsimp only
  have e1 (u : State) (x : LendFn) (o : Out) : ((u.setLf fn x).emit o).lf fn = x := lf_setLf u fn x
  split
  · exact ⟨(s.lf fn).flr, (s.lf fn).cxr, rfl⟩
  · split <;> rename_i hf
    · rw [e1]
      split
      · exact ⟨false, false, by rw [e1]⟩
      · exact ⟨false, (s.lf fn).cxr, by rw [e1]⟩
    · split
      · exact ⟨(s.lf fn).flr, false, by rw [e1]⟩
      · exact ⟨(s.lf fn).flr, (s.lf fn).cxr, rfl⟩

end Sys2Proof.Machine
end

