-- ==== Sys2Proof/Laws/Home.lean ====
section
/-! SUPPORT.
The home: opening a request, its transactions, eviction notices and domain-down. -/

namespace Sys2Proof.Machine

theorem setPair_pair (s : State) (qp : Nat) (p : QPair) : (s.setPair qp (some p)).pair qp = some p ∧ ∀ q, q ≠ qp → (s.setPair qp (some p)).pair q = s.pair q := by
  unfold State.setPair State.qShow State.pair
  exact ⟨SMap.find_set_eq _ _ _, fun q hq => SMap.find_set_ne _ _ hq⟩

theorem State.admit_opens {s : State} {k : ReqKind} {r : HomeReq} {fresh : Bool} (hd : s.down = false)
    (hl : s.lineKind r.line = .tiered ∨ s.lineKind r.line = .fabric) (hk : r.dark = true ∨ s.ownDark (r.line * 64) = false)
    (hs : r.spec = false) (hh : s.lineHeld r.line = false) (ho : (fresh && s.olderWaits r.line) = false) (hc : s.sliceFull r.line r.dark = false) :
    s.homeAdmit k r fresh = (if k.allocates = true ∧ s.dirFind r.line = none then .place else .go, s) := by
  have hr : s.darkRefusal k r = none := by
    unfold State.darkRefusal; rcases hk with h | h <;> simp [h]
  unfold State.homeAdmit
  simp only [hd, hr, hh, hs, ho, hc, Bool.false_and, Bool.and_false, Bool.or_self, Bool.false_eq_true, if_false]
  rcases hl with h | h <;> simp only [h] <;> cases k.allocates <;> cases s.dirFind r.line <;> simp

theorem State.emits (l : List α) (f : α → Out) (s : State) :
    l.foldl (fun s a => s.emit (f a)) s = { s with out := s.out ++ l.map f } := by
  induction l generalizing s with
  | nil => simp
  | cons a l ih => rw [List.foldl_cons, ih]; simp [State.emit]

theorem State.settle_waits {s : State} {t : Trans} (h : t.await ≠ []) : s.settle t = s := by
  unfold State.settle
  cases ha : t.await with
  | nil => exact absurd ha h
  | cons a l => simp

theorem State.settle_ends {s w : State} {t : Trans} {a : HomeAns} (h : t.await = []) (hg : t.granted = false)
    (hf : s.homeFinish t = (a, w)) (ha : a ≠ .wait) : s.settle t = w.deliver t.pend a := by
  unfold State.settle
  rw [h, hg]
  simp only [List.isEmpty_nil, Bool.not_false, Bool.and_self, if_true, hf]

theorem find_putTrans (l : List Trans) (t : Trans) :
    ((if l.any (fun u => u.req.line = t.req.line) then
      l.map fun (u : Trans) => if u.req.line = t.req.line then t else u else l ++ [t]).find? (fun u => u.req.line = t.req.line)) = some t := by
  induction l with
  | nil => simp
  | cons x l ih =>
    by_cases h : x.req.line = t.req.line
    · simp [h]
    · simp only [List.any_cons, h, decide_false, Bool.false_or, List.map_cons, if_false, List.cons_append]
      split <;> rename_i g <;> simp only [g, if_true, Bool.false_eq_true, if_false] at ih <;> simp [List.find?_cons, h] at ih ⊢ <;> exact ih

theorem State.transOf_putTrans (s : State) (t : Trans) : (s.putTrans t).transOf t.req.line = some t := by
  unfold State.putTrans State.transOf
  dsimp only
  rw [State.slice_setSlice_eq]
  exact find_putTrans _ t

theorem State.begin_trans (s : State) (p : Pend) :
    (s.begin' p).1.req = p.req ∧ (s.begin' p).1.granted = false ∧ (s.begin' p).1.kind = p.kind ∧
    (s.begin' p).2.transOf p.req.line = some (s.begin' p).1 := by
  refine ⟨rfl, rfl, rfl, ?_⟩
  unfold State.begin'
  dsimp only
  exact State.transOf_putTrans _ _

/-- What the home does with a request that it opens as a message. -/
theorem State.homeOpen_opens {s u : State} {k : ReqKind} {r : HomeReq} (h : s.Opens u k r) :
    s.homeOpen (.fresh k r .msg) =
      (let p := u.begin' (.fresh k r .msg)
       if p.1.await = [] then State.given (p.2.homeFinish p.1) (.fresh k r .msg) else p.2.sendSnoops p.1) := by
  obtain ⟨hd, hl, hk, hs, hh, ho, hc, hu⟩ := h
  have key : ∀ w : State, (match w.openTrans (.fresh k r .msg) with
      | (.ans a, s) => s.deliver (.fresh k r .msg) a
      | (.opened, s) => s
      | (.wait v, s) => s.enqueue (.fresh k r .msg) v false
      | (.park, s) => s.enqueue (.fresh k r .msg) none true) =
      (let p := w.begin' (.fresh k r .msg)
       if p.1.await = [] then State.given (p.2.homeFinish p.1) (.fresh k r .msg) else p.2.sendSnoops p.1) := by
    intro w
    unfold State.openTrans
    dsimp only
    rw [if_pos (show (Pend.fresh k r .msg).mode = .msg from rfl)]
    by_cases ha : (w.begin' (Pend.fresh k r .msg)).1.await = []
    · have hn : (w.begin' (Pend.fresh k r .msg)).2.sendSnoops (w.begin' (Pend.fresh k r .msg)).1 = (w.begin' (Pend.fresh k r .msg)).2 := by
        unfold State.sendSnoops; rw [ha]; rfl
      rw [if_pos (by rw [ha]; rfl), if_pos ha, hn]
      unfold State.given
      cases (State.homeFinish (w.begin' (Pend.fresh k r .msg)).2 (w.begin' (Pend.fresh k r .msg)).1).1 <;> rfl
    · rw [if_neg (by simpa using ha), if_neg ha]
  have hst : s.start (.fresh k r .msg) true = u.openTrans (.fresh k r .msg) := by
    have e : s.start (.fresh k r .msg) true = s.homeStart (.fresh k r .msg) true := by
      unfold State.start; rcases hl with h | h <;> simp only [Pend.fresh, h]
    rw [e]
    unfold State.homeStart
    dsimp only [Pend.fresh]
    rw [State.admit_opens hd hl hk hs hh (by simp [ho]) hc]
    by_cases hf : k.allocates = true ∧ s.dirFind r.line = none
    · rw [if_pos hf] at hu
      obtain ⟨w, hw, rfl⟩ := hu
      rw [if_pos hf]
      unfold State.dirRoom
      dsimp only
      rw [hw]
    · rw [if_neg hf] at hu
      subst hu
      rw [if_neg hf]
  unfold State.homeOpen
  rw [hst]; exact key u

theorem State.homeTakes_ok (s : State) (k : ReqKind) (r : HomeReq) (f : HomeReq → State → State) (h : r.err = none) :
    s.homeTakes k r f = f r s := by
  unfold State.homeTakes; rw [h]

theorem State.transOf_line {s : State} {line : Nat} {t : Trans} (h : s.transOf line = some t) : t.req.line = line := by
  have := List.find?_some h
  simpa using this

theorem wfLine_of {l : Nat} (h : l < 2 ^ 46) : wfLine l = true := decide_eq_true h

theorem transOf_emit (s : State) (o : Out) (l : Nat) : (s.emit o).transOf l = s.transOf l := rfl

/-- A counter moves the register file alone. -/
theorem evtHa_eq (s : State) (l : Nat) (d : Bool) (i : Nat) : s.evtHa l d i = { s with pcs := (s.evtHa l d i).pcs } := by
  unfold State.evtHa State.evtW
  split
  · rfl
  · unfold State.evt State.evtBy; split
    · rfl
    · dsimp only; split <;> rfl

/-- What an eviction notice does at the home of this package (R190, R194, R209). -/
theorem State.evictMsg_home {s : State} {r : HomeReq} {d : Option Line} (hd : s.down = false) (hl : s.home.lost.contains r.agent = false)
    (hk : s.lineKind r.line = .tiered ∨ s.lineKind r.line = .fabric) (hc : s.evCredit r.line r.agent < 2) :
    s.evictMsg r d =
      (let w : WbEnt := ⟨r.agent, r.line, d, r.poison, r.key, r.dark, false, none⟩
       let u := s.setCredit r.line r.agent (s.evCredit r.line r.agent + 1)
       match u.evArrives w with
       | .ack s => s.toAgent r.agent 2 none (.evAck r.agent r.line)
       | .served s => s
       | .wait => { u with home := { u.home with evq := u.home.evq ++ [w] } }
       | .stray => s.domainDown 8 (if d.isSome then 0x0D else 0x0C) r.agent r.line s.sock) := by
  unfold State.evictMsg
  rw [hd, hl, if_neg (by simp)]
  have hc' : ¬ s.evCredit r.line r.agent ≥ 2 := by omega
  rcases hk with h | h <;> simp only [h, hc', if_false] <;> split <;> simp_all

theorem domainDown_fatal (s : State) (a b c d e : Nat) (h : s.down = false) : (s.domainDown a b c d e).pins.fatal = true := by
  unfold State.domainDown
  rw [if_neg (by simp [h])]
  rfl

end Sys2Proof.Machine
end

