-- ==== Sys2Proof/Laws/Insns.lean ====
section
/-! SUPPORT.
What the instruction rows rest on: predicates, state registers, exceptions and returns, the window ring, loads
and the removal of translations. -/

namespace Sys2Proof.Machine

/-- What a write of predicates leaves alone. -/
structure PredsOnly (s u : State) (n : Nat) : Prop where
  eq : u = { s with cores := u.cores }
  ne : ∀ m, m ≠ n → u.core m = s.core m
  core : u.core n = { s.core n with preds := (u.core n).preds }

theorem predsOnly_setPr (s : State) (n : Nat) (p : PReg) (v : Bool) : PredsOnly s (s.setPr n p v) n :=
  ⟨State.setPr_eq _ _ _ _, fun _ h => State.core_setPr_ne _ _ _ _ h, State.core_setPr _ _ _ _⟩

theorem PredsOnly.trans {s u w : State} {n : Nat} (h : PredsOnly s u n) (h' : PredsOnly u w n) : PredsOnly s w n := by
  refine ⟨?_, fun m hm => (h'.ne m hm).trans (h.ne m hm), ?_⟩
  · rw [h'.eq, h.eq]
  · rw [h'.core, h.core]

theorem PredsOnly.end {s u : State} {x : Insn} (h : PredsOnly s u x.core) :
    let t := u.finishInsn x (s.core x.core).pc none
    s.CoreOnly t x (s.nextPc x) ∧ (s.core x.core).RegsOnly (t.core x.core) ∧ s.SameRegs t x.core := by
  refine ⟨State.finishInsn_coreOnly h.eq h.ne none, ?_, fun r w => ?_⟩
  · unfold Core.RegsOnly; rw [State.core_finishInsn]; rw [h.core]; rfl
  · rw [State.finishInsn_regAt]; simp only [State.regAt]; rw [h.core]

theorem PredsOnly.pending {s u : State} {n : Nat} (h : PredsOnly s u n) : u.pending = s.pending := by rw [h.eq]

theorem each_predsOnly (l : List Nat) (g : Nat → PReg) (v : Nat → Bool) (s : State) (n : Nat) :
    PredsOnly s (s.each l fun s i => s.setPr n (g i) (v i)) n := by
  induction l generalizing s with
  | nil => exact ⟨rfl, fun _ _ => rfl, rfl⟩
  | cons a l ih => exact (predsOnly_setPr s n (g a) (v a)).trans (ih _)

theorem each_setPr_pr (l : List Nat) (hl : l.Nodup) (hb : ∀ i ∈ l, i < 16) (v : Word) (s : State) (n : Nat) (q : PReg) :
    (s.each l fun s i => s.setPr n (BitVec.ofNat 4 i) (v.getLsbD i)).pr n q =
      if q ≠ 0 ∧ q.toNat ∈ l then v.getLsbD q.toNat else s.pr n q := by
  induction l generalizing s with
  | nil => simp [State.each]
  | cons a l ih =>
    have ha : a < 16 := hb a (by simp)
    show (State.each (s.setPr n (BitVec.ofNat 4 a) (v.getLsbD a)) l _).pr n q = _
    rw [ih (List.nodup_cons.mp hl).2 (fun i hi => hb i (by simp [hi])), State.pr_setPr]
    have e : (q = BitVec.ofNat 4 a) ↔ q.toNat = a := by
      constructor
      · rintro rfl; simp; omega
      · rintro rfl; simp
    by_cases hq : q = 0
    · simp only [hq, ne_eq, not_true_eq_false, false_and, if_false]
    · by_cases hm : q.toNat ∈ l
      · simp only [ne_eq, hq, not_false_eq_true, hm, and_self, if_true, List.mem_cons, or_true]
      · by_cases ea : q.toNat = a
        · have hq' : (¬ q = 0 ∧ (q.toNat = a ∨ q.toNat ∈ l)) := ⟨hq, .inl ea⟩
          rw [if_neg (fun h => hm h.2), if_pos ⟨hq, e.mpr ea⟩, if_pos (by simpa using hq'), ea]
        · have : ¬ q = BitVec.ofNat 4 a := fun h => ea (e.mp h)
          simp only [ne_eq, hm, and_false, if_false, this, List.mem_cons, or_self, ea]

theorem cmp_done {s : State} {x : Insn} {pd pe : PReg} (r : Bool) (hd : ¬ (pd = pe ∧ pd ≠ 0)) :
    let u := (s.setPr x.core pd r).setPr x.core pe !r
    let t := u.finishInsn x (s.core x.core).pc none
    s.CoreOnly t x (s.nextPc x) ∧ (s.core x.core).RegsOnly (t.core x.core) ∧ s.SameRegs t x.core ∧
      ∀ q, t.pr x.core q = if q ≠ 0 ∧ q = pd then r else if q ≠ 0 ∧ q = pe then !r else s.pr x.core q := by
  have hp : PredsOnly s ((s.setPr x.core pd r).setPr x.core pe !r) x.core :=
    (predsOnly_setPr _ _ _ _).trans (predsOnly_setPr _ _ _ _)
  obtain ⟨a, b, c⟩ := hp.end
  refine ⟨a, b, c, fun q => ?_⟩
  rw [State.finishInsn_pr, State.pr_setPr, State.pr_setPr]
  by_cases hq : q = 0
  · simp [hq]
  · by_cases h1 : q = pd
    · subst h1
      have : ¬ q = pe := fun e => hd ⟨e, hq⟩
      simp [hq, this]
    · simp [hq, h1]

theorem lowBit_some {v n i : Nat} (hi : i < n) (h : v.testBit i = true) (hl : ∀ j, j < i → v.testBit j = false) :
    lowBit v n = some i := by
  unfold lowBit
  rw [List.find?_range_eq_some]
  exact ⟨h, List.mem_range.mpr hi, fun j hj => by simp [hl j hj]⟩

theorem regsOf_coreOnly {s t : State} {n : Nat} (hc : (t.core n).c = (s.core n).c) (hw : (t.core n).win = (s.core n).win) :
    s.SameRegs t n := by intro r w; simp only [State.regAt, hc, hw]

theorem srOnly_end {s : State} {x : Insn} {c : Core} {P : Prop} (hc : c.c = (s.core x.core).c) (hw : c.win = (s.core x.core).win)
    (hpr : c.preds = (s.core x.core).preds) (hP : P) :
    let t := (s.setCore x.core c).finishInsn x (s.core x.core).pc none
    s.CoreOnly t x (s.nextPc x) ∧ s.SameRegs t x.core ∧ s.SamePreds t x.core ∧ P := by
  refine ⟨State.finishInsn_coreOnly rfl (fun m hm => State.core_setCore_ne _ _ hm) none, ?_, ?_, hP⟩
  · intro r w; rw [State.finishInsn_regAt]; simp [State.regAt, hc, hw]
  · intro p; rw [State.finishInsn_pr]; simp [State.pr, hpr]

theorem trap_completes {s : State} {x : Insn} {k : Chk} {body : State → Got (Option Word) × State} {e : Trap}
    (h : s.Executes x k) (hf : s.freeFrames x.core ≠ 0) (hb : body s = (.trap e, s)) :
    ∃ t, runs x.wf (fun s => s.insn x k body) s = .next t ∧
      s.TrapTaken t x.core e (s.trapLevel x.core e) (if e.cause = cScall ∨ e.cause = cHcall ∨ e.cause = cDcall then s.nextPc x
      else (s.core x.core).pc) x.len := by
  refine completes_trap h hb ?_
  have := State.takeTrap_taken s x.core e (if e.cause = cScall ∨ e.cause = cHcall ∨ e.cause = cDcall then s.nextPc x
      else (s.core x.core).pc) x.len hf
  have hp : ({ s.takeTrap x.core e (if e.cause = cScall ∨ e.cause = cHcall ∨ e.cause = cDcall then s.nextPc x
      else (s.core x.core).pc) x.len with pending := s.pending } : State) = s.takeTrap x.core e (if e.cause = cScall ∨ e.cause = cHcall ∨ e.cause = cDcall then s.nextPc x
      else (s.core x.core).pc) x.len := by
    have q := this.2.2.2.2.2.2.2.2.2.2.2.2.2.1
    rw [q]
  rw [hp]; exact this

theorem dark_of_status {c : Core} {l : Nat} (hl : l < 4) (h : c.srv 0x400 = BitVec.ofNat 64 (2 ^ 31 + l)) : c.darkW = true ∧ c.level = l := by
  have e : SMap.get srReset c.sr 0x400 = BitVec.ofNat 64 (2 ^ 31 + l) := h
  unfold Core.darkW Core.level; rw [e]
  have : l = 0 ∨ l = 1 ∨ l = 2 ∨ l = 3 := by omega
  rcases this with rfl | rfl | rfl | rfl <;> decide

theorem status_level (a es m : Word) (hm : (m.setWidth 2) = 0#2) : ((a &&& m) ||| (es &&& 0x303#64)).toNat % 4 = es.toNat % 4 := by
  have h : ∀ w : Word, w.toNat % 4 = (w.setWidth 2).toNat := by intro w; simp [BitVec.toNat_setWidth]
  rw [h, h, BitVec.setWidth_or, BitVec.setWidth_and, BitVec.setWidth_and, hm]
  have e3 : (0x303#64).setWidth 2 = BitVec.allOnes 2 := by decide
  rw [e3, BitVec.and_zero, BitVec.zero_or, BitVec.and_allOnes]

theorem status_dark (a es : Word) : ((a &&& 0x80000000#64) ||| (es &&& 0x303#64)).getLsbD 31 = a.getLsbD 31 := by
  simp

theorem worldExit_core (s : State) (n l : Nat) :
    let d := (s.worldExit n l).core n
    let c := s.core n
    d.v = [] ∧ d.preds = 1 ∧ d.cwp = s.parentWin n ∧ (∀ j, j ≠ 0x400 → d.srv j = c.srv j) ∧
        d.srv 0x400 = c.srv 0x400 &&& ~~~ 0x80000000#64 := by
  have key : ∀ win old ow cc,
      let u := s.setCore n { s.core n with win := win, oldest := old, owners := ow, v := [], preds := 1, c := cc }
      let u := u.unslide n
      let d := (((u.setCore n ((u.core n).setSr 0x400 ((u.core n).srv 0x400 &&& ~~~ 0x80000000#64))).predReset n).evt 15 2 5).core n
      d.v = [] ∧ d.preds = 1 ∧ d.cwp = s.parentWin n ∧ (∀ j, j ≠ 0x400 → d.srv j = (s.core n).srv j) ∧
        d.srv 0x400 = (s.core n).srv 0x400 &&& ~~~ 0x80000000#64 := by
    intro win old ow cc
    dsimp only
    rw [State.core_evt, State.core_predReset, State.core_setCore_eq]
    refine ⟨?_, ?_, ?_, ?_, ?_⟩
    · show ((State.unslide _ _).core n).v = _; simp [State.unslide]
    · show ((State.unslide _ _).core n).preds = _; simp [State.unslide]
    · show ((State.unslide _ _).core n).cwp = _; simp [State.unslide, State.parentWin]
    · intro j hj
      show (Core.setSr _ _ _).srv j = _
      rw [Core.srv_setSr_ne _ _ hj]; simp [State.unslide, Core.srv]
    · show (Core.setSr _ _ _).srv 0x400 = _
      rw [Core.srv_setSr_eq]; simp only [State.unslide, State.core_setCore_eq]; rfl
  exact key _ _ _ _

theorem worldExit_frame (s : State) (n l : Nat) : CoresPcs s (s.worldExit n l) := by
  unfold State.worldExit
  exact (coresPcs_setCore _ _ _).trans ((coresPcs_unslide _ _).trans ((coresPcs_setCore _ _ _).trans ((coresPcs_predReset _ _).trans (coresPcs_evt _ _ _ _))))

theorem spill_none (f : Nat) (s : State) (n k : Nat) (h : k ≤ s.freeFrames n) : State.spillUntil (f + 1) s n k = (.ok (), s) := by
  unfold State.spillUntil; rw [if_pos h]

theorem frames_pos (n : Nat) : ∃ f, frames n = f + 1 := by unfold frames; split <;> exact ⟨_, rfl⟩

theorem zeroWin_get (w : SMap Word) (f lo k : Nat) : SMap.get (fun _ => 0) (zeroWin w f lo) k =
    if k / 16 = f ∧ lo ≤ k % 16 then 0 else SMap.get (fun _ => 0) w k := by
  unfold zeroWin
  induction w with
  | nil => simp [SMap.get]
  | cons p r ih =>
    obtain ⟨j, v⟩ := p
    rw [List.filter_cons]
    by_cases hj : j / 16 = f ∧ lo ≤ j % 16
    · rw [if_neg (by simp [hj]), ih]
      by_cases e : j = k
      · subst e; simp [hj]
      · simp [SMap.get, e]
    · rw [if_pos (by by_cases q : j / 16 = f <;> simp_all)]
      by_cases e : j = k
      · subst e; simp [SMap.get, hj]
      · rw [show SMap.get (fun _ => 0) ((j, v) :: r) k = SMap.get (fun _ => 0) r k from by simp [SMap.get, e], ← ih]; simp only [SMap.get, e, if_false]

theorem call_end (u : State) (x : Insn) (pc : Word) (tgt : Word) :
    let back := (u.core x.core).pc + BitVec.ofNat 64 x.len
    let s' := u.slide x.core (u.core x.core).self
    let w := s'.setRegAt x.core 15 (s'.core x.core).cwp back
    let t := w.finishInsn x pc (some tgt)
    (t.core x.core).pc = pcOf tgt ∧ (t.core x.core).cwp = ((u.core x.core).cwp + 1) % frames x.core ∧
      t.regAt x.core 15 (t.core x.core).cwp = (u.core x.core).pc + BitVec.ofNat 64 x.len ∧
      CoresPcs u t ∧ (∀ m, m ≠ x.core → t.core m = u.core m) ∧ w.pending = u.pending ∧ CoresPcs u w ∧ w.pcs = u.pcs ∧
      (∀ r, 1 ≤ r → r < 8 → t.regAt x.core r (t.core x.core).cwp = u.regAt x.core r (u.core x.core).cwp) ∧
      (∀ r, 16 ≤ r → r < 32 → t.regAt x.core r (t.core x.core).cwp = 0) := by
  have hcw : ((u.slide x.core (u.core x.core).self).core x.core).cwp = ((u.core x.core).cwp + 1) % frames x.core := by
    rw [State.core_slide]
  refine ⟨?_, ?_, ?_, ?_, ?_, ?_, ?_, ?_, ?_, ?_⟩
  · rw [State.core_finishInsn]; rfl
  · rw [State.core_finishInsn]; show ((State.setRegAt _ _ _ _ _).core _).cwp = _; rw [State.core_setRegAt]; exact hcw
  · rw [State.finishInsn_regAt, State.core_finishInsn]
    show State.regAt _ _ _ ((State.setRegAt _ _ _ _ _).core _).cwp = _
    rw [State.core_setRegAt]
    rw [State.regAt_setRegAt]; simp
  · exact ((coresPcs_slide _ _ _).trans (coresPcs_setRegAt _ _ _ _ _)).trans (by unfold CoresPcs; rw [State.finishInsn_eq])
  · intro m hm; rw [State.core_finishInsn_ne _ _ _ _ hm, State.core_setRegAt_ne _ _ _ _ _ hm]; exact State.core_setCore_ne _ _ hm
  · rw [State.setRegAt_eq]; rfl
  · exact (coresPcs_slide _ _ _).trans (coresPcs_setRegAt _ _ _ _ _)
  · rw [State.setRegAt_eq]; rfl
  · intro r h1 h8
    rw [State.finishInsn_regAt, State.core_finishInsn]
    have : ¬ r = 15 := by omega
    have h0 : ¬ r = 0 := by omega
    rw [State.regAt_setRegAt, if_neg (by simp [h8, this])]
    simp only [State.regAt, h0, h8, if_true, if_false]
    rw [State.core_slide]
  · intro r h1 h2
    rw [State.finishInsn_regAt, State.core_finishInsn]
    have hw : ((State.setRegAt (u.slide x.core (u.core x.core).self) x.core 15 ((u.slide x.core (u.core x.core).self).core x.core).cwp ((u.core x.core).pc + BitVec.ofNat 64 x.len)).core x.core).cwp = ((u.core x.core).cwp + 1) % frames x.core := by
      rw [State.core_setRegAt]; exact hcw
    show State.regAt _ _ _ (State.core _ _).cwp = _
    rw [hw, hcw, State.regAt_setRegAt]
    have h8 : ¬ r < 8 := by omega
    have h0 : ¬ r = 0 := by omega
    have hF : frames x.core = 16 ∨ frames x.core = 8 := by unfold frames; split <;> simp
    have hlt : ((u.core x.core).cwp + 1) % frames x.core < frames x.core := Nat.mod_lt _ (by omega)
    generalize hW : ((u.core x.core).cwp + 1) % frames x.core = W at *
    have hW2 : (W + 1) % frames x.core = ((u.core x.core).cwp + 2) % frames x.core := by rw [← hW, Nat.mod_add_mod]
    have hp15 : physReg x.core 15 W = 16 * W + 7 := by simp [physReg]
    have hne : physReg x.core r W ≠ physReg x.core 15 W := by
      rw [hp15]; unfold physReg
      split
      · omega
      · rcases hF with q | q <;> rw [q] at * <;> omega
    rw [if_neg (by simp [h8, hne])]
    unfold State.regAt
    simp only [h0, h8, if_false]
    have hwin : ((u.slide x.core (u.core x.core).self).core x.core).win = zeroWin (zeroWin (u.core x.core).win W 8) (((u.core x.core).cwp + 2) % frames x.core) 0 := by
      simp only [State.slide, State.core_setCore_eq, hW]
    rw [hwin, zeroWin_get, zeroWin_get]
    unfold physReg
    by_cases h24 : r < 24
    · rw [if_pos h24]
      have e1 : (16 * W + (r - 8)) / 16 = W := by omega
      have e2 : (16 * W + (r - 8)) % 16 = r - 8 := by omega
      rw [e1, e2]
      have : (W = W ∧ 8 ≤ r - 8) := ⟨rfl, by omega⟩
      rw [if_pos this]; split <;> rfl
    · rw [if_neg h24, ← hW2]
      have e1 : (16 * ((W + 1) % frames x.core) + (r - 24)) / 16 = (W + 1) % frames x.core := by omega
      rw [if_pos ⟨e1, by omega⟩]

theorem completes_wf {s : State} {x : Insn} {m : MemOp} {k : Chk} (h : s.Executes x k) (hm : m.wf = true) {body : State → Got (Option Word) × State} {P : State → Prop}
    (hc : ∃ t, runs x.wf (fun s => s.insn x k body) s = .next t ∧ P t) : ∃ t, runs (x.wf && m.wf) (fun s => s.insn x k body) s = .next t ∧ P t := by
  rw [hm, Bool.and_true]; exact hc

theorem loadInsnRun_insn (s : State) (x : Insn) (m : MemOp) (hs : m.spec = false) : loadInsnRun x m s = s.insn x (loadChk x m) fun s =>
    andThen (s.ordFirst x) fun _ s => andThen (s.ldVa x.core (s.src x m.ra + m.off).toNat m.size) fun b s =>
      (.ok none, if m.vec then s.setVreg x.core m.reg (lineOf b)
        else s.dst x m.reg (if m.signed then sextW (8 * m.size) (leNat b) else BitVec.ofNat 64 (leNat b))) := by
  simp [loadInsnRun, hs]

theorem run_congr {ok : Bool} {f g : State → State} {s : State} (h : f s = g s) : runs ok f s = runs ok g s := by
  unfold runs; rw [effect_congr h]

theorem tlbRemove_less (s : State) (n : Nat) (l : Bool) (g : TlbEnt → Bool) (w1 w2 : WalkEnt → Bool) (G : TlbEnt → Prop) (W1 W2 : WalkEnt → Prop)
    (hg : ∀ e, g e = true ↔ G e) (h1 : ∀ e, w1 e = true ↔ W1 e) (h2 : ∀ e, w2 e = true ↔ W2 e) (pc : Word) :
    (s.core n).TlbsLess (((s.tlbRemove n l g w1 w2).core n).past pc) l G W1 W2 := by
  unfold State.tlbRemove
  rw [State.core_setCore_eq]
  refine ⟨rfl, ?_, ?_, ?_, ?_, ?_, ?_⟩
  · intro e; simp [Core.past, ← hg]
  · intro e; simp only [Core.past, List.mem_filter, ← hg]; cases l <;> simp
  · intro e; simp only [Core.past, List.mem_filter, ← hg]; cases l <;> simp
  · intro e; simp only [Core.past, List.mem_filter, ← hg]; cases l <;> simp
  · intro e; simp [Core.past, ← h1]
  · intro e; simp [Core.past, ← h2]

theorem tlbi_completes {s : State} {x : Insn} {k : Chk} (h : s.Executes x k) (f : State → State) (l : Bool) (g : TlbEnt → Bool) (w1 w2 : WalkEnt → Bool)
    (hf : f s = s.tlbRemove x.core l g w1 w2) (G : TlbEnt → Prop) (W1 W2 : WalkEnt → Prop)
    (hg : ∀ e, g e = true ↔ G e) (h1 : ∀ e, w1 e = true ↔ W1 e) (h2 : ∀ e, w2 e = true ↔ W2 e) :
    ∃ t, runs x.wf (fun s => s.insn x k (simply f)) s = .next t ∧
      s.CoreOnly t x (s.nextPc x) ∧ (s.core x.core).TlbsLess (t.core x.core) l G W1 W2 := by
  refine completes_simply h (by rw [hf]; rfl) ⟨?_, ?_⟩
  · rw [hf]; exact State.finishInsn_coreOnly rfl (fun m hm => State.core_setCore_ne _ _ hm) none
  · rw [hf, State.core_finishInsn]; exact tlbRemove_less s x.core l g w1 w2 G W1 W2 hg h1 h2 _

theorem tlbi_host (s : State) (x : Insn) (ra : Reg) (f : Nat → State → State) (hn : x.core < 216) :
    s.tlbi x ra true f = s.insn x { level := 2 } (simply fun s => f (s.src x ra).toNat s) := by
  have : (decide (x.core ≥ 216)) = false := by simpa using hn
  simp [State.tlbi, this]

theorem call_ring (u : State) (x : Insn) (pc tgt back : Word) (hn : x.core < 216) :
    let s' := u.slide x.core (u.core x.core).self
    let t := (s'.setRegAt x.core 15 (s'.core x.core).cwp back).finishInsn x pc (some tgt)
    let w := (u.core x.core).cwp
    (∀ i, i < 7 → t.regAt x.core (8 + i) ((w + 1) % 16) = u.regAt x.core (24 + i) w) ∧ t.regAt x.core 31 w = back := by
  have hf : frames x.core = 16 := by unfold frames; rw [if_pos hn]
  have hcw : ((u.slide x.core (u.core x.core).self).core x.core).cwp = ((u.core x.core).cwp + 1) % 16 := by
    rw [State.core_slide]; show _ % frames x.core = _; rw [hf]
  have hwin : ((u.slide x.core (u.core x.core).self).core x.core).win =
      zeroWin (zeroWin (u.core x.core).win (((u.core x.core).cwp + 1) % 16) 8) (((u.core x.core).cwp + 2) % 16) 0 := by
    simp only [State.slide, State.core_setCore_eq, hf]
  refine ⟨fun i hi => ?_, ?_⟩
  · rw [State.finishInsn_regAt, State.regAt_setRegAt, hcw, if_neg]
    · unfold State.regAt
      rw [if_neg (by omega), if_neg (by omega), if_neg (by omega), if_neg (by omega), hwin, zeroWin_get, zeroWin_get]
      unfold physReg
      rw [if_pos (show 8 + i < 24 by omega), if_neg (show ¬ 24 + i < 24 by omega), hf]
      rw [if_neg (by omega), if_neg (by omega)]
      congr 1; omega
    · unfold physReg
      rw [if_neg (show ¬ 8 + i < 8 by omega), if_pos (show 8 + i < 24 by omega), if_pos (show (15 : Nat) < 24 by omega)]
      omega
  · rw [State.finishInsn_regAt, State.regAt_setRegAt, hcw, if_pos]
    refine ⟨by omega, ?_⟩
    rw [if_neg (by omega)]
    unfold physReg
    rw [if_neg (show ¬ (31 : Nat) < 24 by omega), if_pos (show (15 : Nat) < 24 by omega), hf]
    omega

end Sys2Proof.Machine
end

