-- ==== Sys2Proof/Laws/Links.lean ====
section
/-! SUPPORT.
The links: accepting a flit, the parts of a training and what each leaves alone. -/

namespace Sys2Proof.Machine

theorem State.rxFlit_accepts {s u : State} {e : LinkEnd} {f : Flit} (h : s.Accepts u e f) : s.rxFlit e f = (.accepted, u) := by
  obtain ⟨w, hu, hc, ht, ha, hs, rfl⟩ := h
  have h3 : ¬ hdr (headerOf f) 60 4 > 3 := by omega
  have h0 : ¬ hdr (headerOf f) 60 4 = 0 := by omega
  have h2 : ¬ hdr (headerOf f) 60 4 = 2 := by omega
  unfold State.rxFlit
  simp only [hu, hc, h3, h0, h2, ha, hs, Bool.not_true, Bool.false_eq_true, if_false, if_true]

theorem kSclStat_ne {n : Nat} (h : n < 12) : kSclStat ⟨true, n⟩ ≠ kSclStat ⟨false, n⟩ := by
  simp only [kSclStat, pcsKey, if_true, Bool.false_eq_true, if_false]
  omega

theorem State.lk_setLk_ne (s : State) {e f : LinkEnd} (x : LinkSt) (h : endKey f ≠ endKey e) : (s.setLk e x).lk f = s.lk f :=
  SMap.get_put_ne _ _ _ h

theorem State.lkState_setLk (s : State) (e f : LinkEnd) (x : LinkSt) : (s.setLk e x).lkState f = s.lkState f := rfl

theorem State.lkState_set (s : State) (e : LinkEnd) (n : Nat) (h : n < 2 ^ fSclStat_STATE.w) : (s.setLkState e n).lkState e = n := by
  unfold State.lkState State.setLkState
  rw [State.fget_fput _ _ _ _ (by decide)]
  exact Nat.mod_eq_of_lt h

theorem State.lkState_set_ne (s : State) {e f : LinkEnd} (n : Nat) (h : kSclStat f ≠ kSclStat e) : (s.setLkState e n).lkState f = s.lkState f := by
  unfold State.lkState State.setLkState
  exact State.fget_fput_other _ _ _ _ h

/-- An end that step 7 leaves is ACTIVE (R229, R230). -/
theorem State.lkState_endActive (s : State) (full : Bool) (e : LinkEnd) : (s.endActive full e).lkState e = 2 := by
  unfold State.endActive
  exact State.lkState_set _ e 2 (by decide)

theorem State.lkState_endActive_ne (s : State) (full : Bool) {n : Nat} (hn : n < 12) :
    (s.endActive full ⟨false, n⟩).lkState ⟨true, n⟩ = s.lkState ⟨true, n⟩ := by
  have h := kSclStat_ne hn
  have hc : kSclStat ⟨true, n⟩ ≠ kSclCredit ⟨false, n⟩ := by
    simp only [kSclStat, kSclCredit, pcsKey, if_true, Bool.false_eq_true, if_false]; omega
  unfold State.endActive State.lkState State.setLkState
  dsimp only
  cases full
  · simp only [Bool.false_eq_true, if_false]
    rw [State.fget_fput_other _ _ _ _ h, State.fget_fput_other _ _ _ _ h, State.fget_fput_other _ _ _ _ h, State.fget_fput_other _ _ _ _ h]
    unfold State.fget; rw [State.rd_wr_ne _ _ hc]; rfl
  · simp only [if_true]
    rw [State.fget_fput_other _ _ _ _ h, State.fget_fput_other _ _ _ _ h, State.fget_fput_other _ _ _ _ h, State.fget_fput_other _ _ _ _ h,
      State.fget_fput_other _ _ _ _ h]
    unfold State.fget; rw [State.rd_wr_ne _ _ hc]; rfl

/-- The start of a training at one end. -/
def trainOne (s : State) (e : LinkEnd) : State := ((s.setLk e .reset).setLkState e 1).lkMsg e 1 0 0

theorem trainOne_frame (s : State) (e : LinkEnd) : trainOne s e =
    { s with pcs := (trainOne s e).pcs, links := (trainOne s e).links, out := s.out ++ [.linkMsg e.iod e.link 1 0 0] } := rfl

theorem trainOne_eq (s : State) (e : LinkEnd) : trainOne s e =
    { s with pcs := (trainOne s e).pcs, links := (trainOne s e).links, out := (trainOne s e).out } := rfl

theorem lkState_msg (s : State) (e f : LinkEnd) (c : Nat) (a b : Word) : (s.lkMsg e c a b).lkState f = s.lkState f := rfl

theorem lk_msg (s : State) (e f : LinkEnd) (c : Nat) (a b : Word) : (s.lkMsg e c a b).lk f = s.lk f := rfl

theorem lk_setState (s : State) (e f : LinkEnd) (c : Nat) : (s.setLkState e c).lk f = s.lk f := rfl

theorem trainOne_state (s : State) (e : LinkEnd) : (trainOne s e).lkState e = 1 ∧ (trainOne s e).lk e = LinkSt.reset := by
  unfold trainOne
  rw [lkState_msg, lk_msg, lk_setState, State.lk_setLk_eq]
  exact ⟨State.lkState_set _ e 1 (by decide), rfl⟩

theorem trainOne_other (s : State) {e f : LinkEnd} (h : kSclStat f ≠ kSclStat e) (h' : endKey f ≠ endKey e) :
    (trainOne s e).lkState f = s.lkState f ∧ (trainOne s e).lk f = s.lk f := by
  unfold trainOne
  rw [lkState_msg, lk_msg, lk_setState, State.lk_setLk_ne _ _ h', State.lkState_set_ne _ _ h]
  exact ⟨rfl, rfl⟩

theorem trainOne_out (s : State) (e : LinkEnd) : (trainOne s e).out = s.out ++ [.linkMsg e.iod e.link 1 0 0] :=
  congrArg State.out (trainOne_frame s e)

theorem linkFrame_trans {s t u : State} (h1 : t = { s with pcs := t.pcs, links := t.links, out := t.out })
    (h2 : u = { t with pcs := u.pcs, links := u.links, out := u.out }) :
    u = { s with pcs := u.pcs, links := u.links, out := u.out } := h2.trans (by rw [h1])

theorem linkFrame_pending {s t : State} (h1 : t = { s with pcs := t.pcs, links := t.links, out := t.out }) : t.pending = s.pending := by
  rw [h1]

theorem State.trainEnd_active (s : State) (full : Bool) {n : Nat} (hn : n < 12) :
    (s.trainEnd n full).lkState ⟨true, n⟩ = 2 ∧ (s.trainEnd n full).lkState ⟨false, n⟩ = 2 := by
  unfold State.trainEnd
  dsimp only
  rw [State.lkState_setLk, State.lkState_setLk, State.lkState_endActive_ne _ _ hn, State.lkState_endActive, State.lkState_endActive]
  exact ⟨rfl, rfl⟩

theorem rd_pending (s : State) (p : List Instr) (k : Nat) : ({ s with pending := p } : State).rd k = s.rd k := rfl

theorem lkState_pending (s : State) (p : List Instr) (e : LinkEnd) : ({ s with pending := p } : State).lkState e = s.lkState e := by
  unfold State.lkState State.fget; rw [rd_pending]

theorem training_retrain {s : State} {n : Nat} (tr : Training) (h3 : s.lkState ⟨true, n⟩ = 3)
    (hu : (s.trained n tr).mapNow n true ≠ []) (hd : (s.trained n tr).mapNow n false ≠ []) (he : tr.equal = true) :
    trainingCompleteRun n tr s = (((s.trained n tr).setMaps n (s.mapHeld n true, s.mapHeld n false)).trainEnd n false).trainGo n := by
  have hf : decide (s.lkState ⟨true, n⟩ = 1) = false := by rw [h3]; rfl
  unfold trainingCompleteRun
  dsimp only
  rw [hf, if_neg (fun h => h.2 h3)]
  simp only [Bool.false_eq_true, if_false]
  rw [if_neg (by decide), if_neg (by decide), if_neg (by decide), if_neg (fun h => h.elim hu hd), he]
  simp only [Bool.not_true, Bool.false_eq_true, if_false]

theorem fold_and_lt {α : Type} (l : List α) (f : α → Nat) (a w : Nat) (h : a < 2 ^ w) : l.foldl (fun a n => a &&& f n) a < 2 ^ w := by
  induction l generalizing a with
  | nil => exact h
  | cons x l ih => exact ih _ (Nat.lt_of_le_of_lt Nat.and_le_left h)

theorem Fld.get_lt (f : Fld) (v : Word) : f.get v < 2 ^ f.w := by
  unfold Fld.get; exact Nat.mod_lt _ (Nat.two_pow_pos _)

theorem fget_pending (s : State) (p : List Instr) (k : Nat) (f : Fld) : ({ s with pending := p } : State).fget k f = s.fget k f := rfl

theorem rd_boot (s : State) (p : BootSt) (k : Nat) : ({ s with boot := p } : State).rd k = s.rd k := rfl

end Sys2Proof.Machine
end

