-- ==== Sys2Proof/Laws/Memory.lean ====
section
/-! SUPPORT.
The addressed memories and the register file as maps: what a write changes, the canonical form that every memory
operation keeps, what a warm reset keeps, and the scratch banks. -/

namespace Sys2Proof.Machine

/-- A rising map without its first key. -/
theorem get_rises {α : Type} (d : Nat → α) : ∀ (m : SMap α) (lo k : Nat), SMap.risesFrom lo m = true → k < lo → SMap.get d m k = d k
  | [], _, _, _, _ => rfl
  | (j, v) :: r, lo, k, h, hk => by
    unfold SMap.risesFrom at h
    rw [Bool.and_eq_true, decide_eq_true_eq] at h
    unfold SMap.get
    rw [if_neg (by omega)]
    exact get_rises d r (j + 1) k h.2 (by omega)

theorem rises_filterMap {α : Type} (f : Nat × α → Option (Nat × α)) (hf : ∀ p q, f p = some q → q.1 = p.1) :
    ∀ (m : SMap α) (lo : Nat), SMap.risesFrom lo m = true → SMap.risesFrom lo (m.filterMap f) = true
  | [], _, _ => rfl
  | (j, v) :: r, lo, h => by
    unfold SMap.risesFrom at h
    rw [Bool.and_eq_true, decide_eq_true_eq] at h
    have ih := rises_filterMap f hf r (j + 1) h.2
    rcases hq : f (j, v) with _ | ⟨a, b⟩
    · rw [List.filterMap_cons_none hq]
      exact SMap.rises_mono (by omega) _ ih
    · have ha : a = j := hf _ _ hq
      subst ha
      rw [List.filterMap_cons_some hq]
      unfold SMap.risesFrom
      rw [Bool.and_eq_true, decide_eq_true_eq]
      exact ⟨h.1, ih⟩

/-- The value of a filtered map at a key. -/
theorem get_filterMap {α : Type} (d : Nat → α) (f : Nat × α → Option (Nat × α)) (hf : ∀ p q, f p = some q → q.1 = p.1) (k : Nat) :
    ∀ (m : SMap α) (lo : Nat), SMap.risesFrom lo m = true → (∀ v, (k, v) ∈ m → SMap.get d (m.filterMap f) k = ((f (k, v)).map (·.2)).getD (d k)) ∧
      ((∀ v, (k, v) ∉ m) → SMap.get d (m.filterMap f) k = d k)
  | [], _, _ => ⟨fun v h => by simp at h, fun _ => rfl⟩
  | (j, w) :: r, lo, h => by
    unfold SMap.risesFrom at h
    rw [Bool.and_eq_true, decide_eq_true_eq] at h
    have ih := get_filterMap d f hf k r (j + 1) h.2
    have up := rises_filterMap f hf r (j + 1) h.2
    by_cases hk : k = j
    · subst hk
      refine ⟨fun v hv => ?_, fun hn => absurd (List.mem_cons_self) (hn w)⟩
      have hv' : v = w := by
        rcases List.mem_cons.mp hv with e | e
        · exact (Prod.mk.injEq .. ▸ e).2
        · exfalso
          have : ∀ (m : SMap α) (lo : Nat), SMap.risesFrom lo m = true → ∀ p, p ∈ m → lo ≤ p.1 := by
            intro m
            induction m with
            | nil => intro lo _ p hp; simp at hp
            | cons a m ihm =>
              intro lo hm p hp
              unfold SMap.risesFrom at hm
              rw [Bool.and_eq_true, decide_eq_true_eq] at hm
              rcases List.mem_cons.mp hp with rfl | hp
              · exact hm.1
              · have := ihm _ hm.2 p hp; omega
          have := this r (k + 1) h.2 _ e
          simp at this
      subst hv'
      rcases hq : f (k, v) with _ | ⟨a, b⟩
      · rw [List.filterMap_cons_none hq]
        exact get_rises d _ (k + 1) k up (by omega)
      · have ha : a = k := hf _ _ hq
        subst ha
        rw [List.filterMap_cons_some hq]
        simp [SMap.get]
    · have skip : SMap.get d (((j, w) :: r).filterMap f) k = SMap.get d (r.filterMap f) k := by
        rcases hq : f (j, w) with _ | ⟨a, b⟩
        · rw [List.filterMap_cons_none hq]
        · have ha : a = j := hf _ _ hq
          subst ha
          rw [List.filterMap_cons_some hq]
          show (if a = k then b else _) = _
          rw [if_neg (fun e => hk e.symm)]
      refine ⟨fun v hv => ?_, fun hn => ?_⟩
      · rw [skip]
        refine ih.1 v ?_
        rcases List.mem_cons.mp hv with e | e
        · exact absurd (Prod.mk.injEq .. ▸ e).1 hk
        · exact e
      · rw [skip]
        exact ih.2 (fun v hv => hn v (List.mem_cons_of_mem _ hv))

theorem get_of_mem {α : Type} (d : Nat → α) : ∀ (m : SMap α) (lo k : Nat) (v : α), SMap.risesFrom lo m = true → (k, v) ∈ m → SMap.get d m k = v
  | [], _, _, _, _, h => by simp at h
  | (j, w) :: r, lo, k, v, h, hv => by
    unfold SMap.risesFrom at h
    rw [Bool.and_eq_true, decide_eq_true_eq] at h
    have ih := get_of_mem d r (j + 1) k v h.2
    unfold SMap.get
    rcases List.mem_cons.mp hv with e | e
    · rw [Prod.mk.injEq] at e
      rw [if_pos e.1.symm, e.2]
    · by_cases hj : j = k
      · subst hj
        have := ih e
        rw [get_rises d r (j + 1) j h.2 (by omega)] at this
        exfalso
        clear this ih
        have : ∀ (m : SMap α) (lo : Nat), SMap.risesFrom lo m = true → ∀ p, p ∈ m → lo ≤ p.1 := by
          intro m
          induction m with
          | nil => intro lo _ p hp; simp at hp
          | cons a m ihm =>
            intro lo hm p hp
            unfold SMap.risesFrom at hm
            rw [Bool.and_eq_true, decide_eq_true_eq] at hm
            rcases List.mem_cons.mp hp with rfl | hp
            · exact hm.1
            · have := ihm _ hm.2 p hp; omega
        have := this r (j + 1) h.2 _ e
        simp at this
      · rw [if_neg hj]; exact ih e

theorem get_not_mem {α : Type} (d : Nat → α) : ∀ (m : SMap α) (k : Nat), (∀ v, (k, v) ∉ m) → SMap.get d m k = d k
  | [], _, _ => rfl
  | (j, w) :: r, k, h => by
    unfold SMap.get
    rw [if_neg (fun e => h w (by rw [e]; exact List.mem_cons_self))]
    exact get_not_mem d r k (fun v hv => h v (List.mem_cons_of_mem _ hv))

theorem rd_pcsWarm (s : State) (hp : s.pcs.wf pcsReset = true) (k : Nat) (d : RegDef) (hd : regDefAt k = some d) :
    SMap.get pcsReset s.pcsWarm.pcs k = if d.dom = .cold then s.rd k
      else (s.rd k &&& BitVec.ofNat 64 d.rws) ||| (pcsReset k &&& ~~~ BitVec.ofNat 64 d.rws) := by
  have hr : SMap.risesFrom 0 s.pcs = true := by
    unfold SMap.wf at hp; rw [Bool.and_eq_true] at hp; exact hp.1
  have f1 : ∀ p q, warmKeep p = some q → q.1 = p.1 := by
    intro p q h
    unfold warmKeep at h
    dsimp only at h
    split at h
    · split at h
      · cases h; rfl
      · split at h
        · simp at h
        · cases h; rfl
    · simp at h
  have g := get_filterMap pcsReset warmKeep f1 k s.pcs 0 hr
  show SMap.get pcsReset (s.pcs.filterMap warmKeep) k = _
  by_cases hm : ∃ v, (k, v) ∈ s.pcs
  · obtain ⟨v, hv⟩ := hm
    have hs : s.rd k = v := get_of_mem _ _ 0 k v hr hv
    rw [g.1 v hv, hs]
    unfold warmKeep
    dsimp only
    rw [hd]
    dsimp only
    by_cases hc : d.dom = .cold
    · rw [if_pos hc, if_pos hc]; rfl
    · rw [if_neg hc, if_neg hc]
      by_cases e : (v &&& BitVec.ofNat 64 d.rws) ||| (pcsReset k &&& ~~~ BitVec.ofNat 64 d.rws) = pcsReset k
      · rw [if_pos e]; exact e.symm
      · rw [if_neg e]; rfl
  · have hm' : ∀ v, (k, v) ∉ s.pcs := fun v hv => hm ⟨v, hv⟩
    have hs : s.rd k = pcsReset k := get_not_mem _ _ k hm'
    rw [g.2 hm', hs]
    split
    · rfl
    · generalize pcsReset k = x
      generalize BitVec.ofNat 64 d.rws = y
      ext i
      simp only [BitVec.getElem_or, BitVec.getElem_and, BitVec.getElem_not]
      cases x[i] <;> cases y[i] <;> rfl

theorem each_setLk (l : List Nat) (f : Nat → LinkEnd) (x : LinkSt) (s : State) :
    (s.each l fun s d => s.setLk (f d) x) = { s with links := (s.each l fun s d => s.setLk (f d) x).links } := by
  unfold State.each
  induction l generalizing s with
  | nil => rfl
  | cons a l ih =>
    rw [List.foldl_cons, ih]
    rfl

theorem scratch_served {s : State} {a : ScratchAccess} (ha : a.wf = true) (hs : s.stopped = false) (h1 : s.ssm.wiping = false)
    (h2 : s.bankState (ssmBank a.offset) = 0) (h3 : s.ssmGrants a = true) {g : State} {r : (Word × Bool) × State} (hg : g = s.ssmTurn a)
    (hr : g.ssmServe a = r) :
    Completes (.scratchAccess a) s fun t => t = { r.2.emit (.scratch (a.sp.getD 4) a.offset r.1.1 r.1.2) with pending := s.pending } := by
  refine completes_run' (f := scratchAccessRun a) ha hs ?_ rfl
  unfold scratchAccessRun
  dsimp only
  rw [if_neg (Bool.eq_false_iff.mp h1), if_neg (by rw [h2]; simp), if_pos h3]
  unfold State.ssmPerform
  rw [← hg, hr]

theorem scratch_op_served {s : State} {a : ScratchAccess} (ha : a.wf = true) (hs : s.stopped = false) (h1 : s.ssm.wiping = false)
    (h2 : s.bankState (ssmBank a.offset) = 0) (h3 : s.ssmGrants a = true) {g u : State} {r : (Word × Bool) × State} (hg : g = s.ssmTurn a)
    (h4 : g.ssmDenied (decide (a.sp = some 0)) (ssmDark a) a.offset = false) (hu : u = g.ssmFaults a) (hr : u.ssmWordOp a = r) :
    Completes (.scratchAccess a) s fun t => t = { r.2.emit (.scratch (a.sp.getD 4) a.offset r.1.1 r.1.2) with pending := s.pending } := by
  refine scratch_served ha hs h1 h2 h3 hg ?_
  unfold State.ssmServe
  rw [if_neg (Bool.eq_false_iff.mp h4), ← hu, hr]

theorem setSsm_words (s : State) (w : Nat) (v : Word) (p : Bool) :
    (s.setSsm w v p).ssmWord w = v ∧ (s.setSsm w v p).ssmPoison w = p ∧
      ∀ w', w' ≠ w → (s.setSsm w v p).ssmWord w' = s.ssmWord w' ∧ (s.setSsm w v p).ssmPoison w' = s.ssmPoison w' :=
  ⟨SMap.get_put_eq _ _ _ _, SMap.get_put_eq _ _ _ _, fun _ h => ⟨SMap.get_put_ne _ _ _ h, SMap.get_put_ne _ _ _ h⟩⟩

/-! ### The canonical form of the addressed memories -/

/-- The canonical form, part by part. -/
theorem Memory.wf_iff (s : State) : Memory.wf s = true ↔
    s.media.wf (fun _ => MLine.reset) = true ∧ s.ssm.words.wf (fun _ => 0) = true ∧ s.ssm.poison.wf (fun _ => false) = true := by
  simp [Memory.wf, and_assoc]

/-- The canonical form depends on the memories alone. -/
theorem Memory.wf_congr {s t : State} (h : Memory.wf s = true) (h1 : t.media = s.media) (h2 : t.ssm.words = s.ssm.words)
    (h3 : t.ssm.poison = s.ssm.poison) : Memory.wf t = true := by
  rw [Memory.wf_iff] at h ⊢; rw [h1, h2, h3]; exact h

/-- A map without some of its keys stays in canonical form. -/
theorem wf_keep {α : Type} [DecidableEq α] (d : Nat → α) (f : Nat → Bool) (m : SMap α) (h : m.wf d = true) :
    SMap.wf d (m.filter fun p => f p.1) = true := by
  simp only [SMap.wf, Bool.and_eq_true, List.all_eq_true, decide_eq_true_eq] at h ⊢
  refine ⟨?_, fun p hp => h.2 p (List.mem_filter.mp hp).1⟩
  have : ∀ (lo : Nat) (m : SMap α), SMap.risesFrom lo m = true → SMap.risesFrom lo (m.filter fun p => f p.1) = true := by
    intro lo m
    induction m generalizing lo with
    | nil => exact fun h => h
    | cons p r ih =>
      obtain ⟨k, v⟩ := p
      intro h
      simp only [SMap.risesFrom, Bool.and_eq_true, decide_eq_true_eq] at h
      rw [List.filter_cons]
      split
      · simp only [SMap.risesFrom, Bool.and_eq_true, decide_eq_true_eq]; exact ⟨h.1, ih _ h.2⟩
      · exact SMap.rises_mono (by omega) _ (ih _ h.2)
  exact this 0 m h.1

/-- Reset's memories are in canonical form. -/
theorem Memory.wf_reset : Memory.wf State.reset = true := by decide

/-- A write of a line of media keeps the canonical form. -/
theorem Memory.wf_setMline (s : State) (k : Nat) (x : MLine) (h : Memory.wf s = true) : Memory.wf (s.setMline k x) = true := by
  rw [Memory.wf_iff] at h ⊢
  exact ⟨SMap.wf_put _ _ _ _ h.1, h.2⟩

/-- A write through the media of a live tier keeps the canonical form. -/
theorem Memory.wf_mediaWrite (s : State) (tier ma : Nat) (m : MLine) (hd : s.mediaDead tier ma = false) (h : Memory.wf s = true) :
    Memory.wf (s.mediaWrite tier ma m) = true := by
  unfold State.mediaWrite
  rw [if_neg (by simp [hd])]
  exact Memory.wf_setMline _ _ _ h

/-- A write of a scratch word keeps the canonical form. -/
theorem Memory.wf_setSsm (s : State) (w : Nat) (v : Word) (p : Bool) (h : Memory.wf s = true) : Memory.wf (s.setSsm w v p) = true := by
  rw [Memory.wf_iff] at h ⊢
  exact ⟨h.1, SMap.wf_put _ _ _ _ h.2.1, SMap.wf_put _ _ _ _ h.2.2⟩

/-- Wiping a bank keeps the canonical form. -/
theorem Memory.wf_wipeBank (s : State) (b : Nat) (h : Memory.wf s = true) : Memory.wf (s.wipeBank b) = true := by
  rw [Memory.wf_iff] at h ⊢
  exact ⟨h.1, wf_keep _ (fun k => decide (k % 64 ≠ b)) _ h.2.1, wf_keep _ (fun k => decide (k % 64 ≠ b)) _ h.2.2⟩

/-- Wiping the secure partition keeps the canonical form. -/
theorem Memory.wf_wipeSecure (s : State) (h : Memory.wf s = true) : Memory.wf s.wipeSecure = true := by
  rw [Memory.wf_iff] at h ⊢
  exact ⟨h.1, wf_keep _ (fun k => decide (s.secureBytes / 8 ≤ k)) _ h.2.1, wf_keep _ (fun k => decide (s.secureBytes / 8 ≤ k)) _ h.2.2⟩

/-- A cold reset leaves the memories empty, hence in canonical form. -/
theorem Memory.wf_coldHold (s : State) (p r : Bool) : Memory.wf (s.coldHold p r) = true := rfl

/-- What a read of a line answers after a write of a line. -/
theorem mline_setMline (s : State) (k j : Nat) (x : MLine) : (s.setMline k x).mline j = if j = k then x else s.mline j := by
  unfold State.mline State.setMline
  split
  · next h => subst h; exact SMap.get_put_eq _ _ _ _
  · next h => exact SMap.get_put_ne _ _ _ h

end Sys2Proof.Machine
end

