-- ==== Sys2Proof/Laws/Registers.lean ====
section
/-! SUPPORT.
Registers of the Package Control Space: the write of a named register, and what holds of every lock. -/

namespace Sys2Proof.Machine

theorem pcsAfter_named {s : State} {k : Nat} {d : RegDef} {old new v m : Word} {n : String} (h : d.name = n) :
    s.pcsAfter k d old new v m = s.pcsAfter k { d with name := n } old new v m := by subst h; rfl

/-- What holds of the lock of every register: its bits are set by writing 1 and cleared by no write, and the fields that it
governs have no other way to be written. -/
def lockSound (d : RegDef) : Bool :=
  decide (d.name = "FIO_FCTL") || (List.range 64).all fun i =>
    (!d.lock.testBit i || (d.w1s.testBit i && !d.w1c.testBit i && !d.rw.testBit i && !d.rws.testBit i && !d.rwl.testBit i)) &&
    (!d.rwl.testBit i || (!d.rw.testBit i && !d.rws.testBit i && !d.w1c.testBit i && !d.w1s.testBit i))

theorem regDefAt_lockSound {k : Nat} {d : RegDef} (h : regDefAt k = some d) : lockSound d = true := by
  have all : regDefs.all lockSound = true := by decide +kernel
  have thr : lockSound evtThrDef = true := by decide +kernel
  have cnt : lockSound evtCntDef = true := by decide +kernel
  unfold regDefAt at h
  dsimp only at h
  split at h
  · split at h
    · cases h
    · split at h
      · rw [← Option.some.inj h]; exact thr
      · split at h
        · rw [← Option.some.inj h]; exact cnt
        · cases h
  · exact List.all_eq_true.mp all d (List.mem_of_find?_eq_some h)

theorem lockSound_bit {d : RegDef} (h : lockSound d = true) (hn : d.name ≠ "FIO_FCTL") {i : Nat} (hi : i < 64) :
    (d.lock.testBit i = true → d.w1s.testBit i = true ∧ d.w1c.testBit i = false ∧ d.rw.testBit i = false ∧ d.rws.testBit i = false ∧ d.rwl.testBit i = false) ∧
    (d.rwl.testBit i = true → d.rw.testBit i = false ∧ d.rws.testBit i = false ∧ d.w1c.testBit i = false ∧ d.w1s.testBit i = false) := by
  unfold lockSound at h
  rw [Bool.or_eq_true] at h
  rcases h with h | h
  · exact absurd (of_decide_eq_true h) hn
  have := List.all_eq_true.mp h i (by simpa using hi)
  cases q1 : d.lock.testBit i <;> cases q2 : d.rwl.testBit i <;> simp_all

end Sys2Proof.Machine
end

