-- ==== Sys2Proof/Laws/Rows.lean ====
section
/-! SUPPORT.
The form of every row: a row is a well-formedness check and an effect, and an instruction row is the shared
execution of an instruction. -/

namespace Sys2Proof.Machine

theorem exec_shape (c : Instr) : (∃ f, ∀ s, exec c s = runs c.wf f s) ∨ (Supply c = true ∧ c.wf = true ∧ ∃ f, ∀ s, exec c s = .next (s.effect f)) := by
  cases c <;> first | exact .inl ⟨_, fun _ => rfl⟩ | exact .inr ⟨rfl, rfl, _, fun _ => rfl⟩

theorem insn_shape {s : State} {c : Instr} {x : Insn} {k : Chk} (h : insnOf s c = some (x, k)) :
    ∃ f body, exec c s = runs c.wf f s ∧ f s = s.insn x k body := by
  cases c
  case loadInsn y m =>
    by_cases hm : m.spec = true
    · simp [insnOf, hm] at h
    · simp only [insnOf, hm, if_false, Bool.false_eq_true, Option.some.injEq, Prod.mk.injEq] at h; obtain ⟨rfl, rfl⟩ := h
      exact ⟨_, _, rfl, if_neg hm⟩
  case storeInsn y m =>
    by_cases hm : m.spec = true
    · simp [insnOf, hm] at h
    · simp only [insnOf, hm, if_false, Bool.false_eq_true, Option.some.injEq, Prod.mk.injEq] at h; obtain ⟨rfl, rfl⟩ := h
      exact ⟨_, _, rfl, if_neg hm⟩
  all_goals first
    | (injection h with h; injection h with h1 h2; subst h1; subst h2; exact ⟨_, _, rfl, rfl⟩)
    | (exact absurd h (by intro q; cases q))

theorem insnTrap_cause {s : State} {x : Insn} {k : Chk} {e : Trap}
    (hk : (∀ e, k.sys = some e → ¬ (e.cause = cScall ∨ e.cause = cHcall ∨ e.cause = cDcall)) ∧
      ∀ e, k.align = some e → ¬ (e.cause = cScall ∨ e.cause = cHcall ∨ e.cause = cDcall)) (h : s.insnTrap x k = some e) :
    ¬ (e.cause = cScall ∨ e.cause = cHcall ∨ e.cause = cDcall) := by
  unfold State.insnTrap at h
  dsimp only at h
  split at h
  · injection h with h; subst h; decide
  · rcases Option.or_eq_some_iff.mp h with q | ⟨_, h⟩
    · unfold State.levelTrap at q
      dsimp only at q
      split at q
      · cases q
      · split at q
        · injection q with q; subst q; decide
        · injection q with q; subst q; simp [cPriv, cScall, cHcall, cDcall]
    · rcases Option.or_eq_some_iff.mp h with q | ⟨_, h⟩
      · exact hk.1 e q
      · split at h
        · injection h with h; subst h; simp [cVec, cScall, cHcall, cDcall]
        · split at h
          · injection h with h; subst h; simp [cMisal, cScall, cHcall, cDcall]
          · exact hk.2 e h

end Sys2Proof.Machine
end

