-- ==== Sys2Proof/Laws/ZciRows.lean ====
section
/-! SUPPORT.
The rows of the ZCI: the fields of a command, taking it, ending it, and the checks that its chapter adds. -/

namespace Sys2Proof.Machine

theorem zciFlush_none {s : State} (h1 : s.zci.finals = []) (h2 : s.zci.reps = []) : s.zciFlush = s := by
  have e : ({ s with zci := { s.zci with finals := [] } } : State) = s := by rw [← h1]
  unfold State.zciFlush
  rw [h1, e]
  simp only [List.foldl_nil, h2]
  show ({ s with zci := { s.zci with reps := [] } } : State) = s
  rw [← h2]

/-- Only the Package Control Space differs. -/
def PcsDiff (s t : State) : Prop := t = { s with pcs := t.pcs }

theorem PcsDiff.trans {s t u : State} (h : PcsDiff s t) (h' : PcsDiff t u) : PcsDiff s u := by
  unfold PcsDiff at *
  generalize u.pcs = p at *
  rw [h', h]

theorem pcsDiff_evt (s : State) (d b i : Nat) : PcsDiff s (s.evt d b i) := State.evt_eq ..

theorem pcsDiff_qShow (s : State) (q : Nat) : PcsDiff s (s.qShow q) := rfl

theorem PcsDiff.refl (s : State) : PcsDiff s s := rfl

/-- Taking a command alters the tables of the ZCI and the PCS alone. -/
theorem zadmit_frame (s : State) (z : ZCmd) :
    s.zadmit z = { s with pcs := (s.zadmit z).pcs,
                          zci := { s.zci with nextId := s.zci.nextId + 1, outs := s.zci.outs ++ [s.zout z], pairs := (s.zadmit z).zci.pairs } } := by
  generalize hw : s.zadmit z = w
  unfold State.zadmit at hw
  dsimp only at hw
  generalize hv : (match ({ s with zci := { s.zci with nextId := s.zci.nextId + 1, outs := s.zci.outs ++ [s.zout z] } } : State).pair z.qp with
    | some p => ({ s with zci := { s.zci with nextId := s.zci.nextId + 1, outs := s.zci.outs ++ [s.zout z] } } : State).setPair z.qp (some { p with chain := if z.chained then some s.zci.nextId else none })
    | none => ({ s with zci := { s.zci with nextId := s.zci.nextId + 1, outs := s.zci.outs ++ [s.zout z] } } : State)) = v
  have hv' : v = { s with pcs := v.pcs, zci := { s.zci with nextId := s.zci.nextId + 1, outs := s.zci.outs ++ [s.zout z], pairs := v.zci.pairs } } := by
    rw [← hv]; split <;> rfl
  have hd : PcsDiff v w := by
    rw [← hw]
    refine PcsDiff.trans ?_ (pcsDiff_qShow _ _)
    cases opInfo (z.f 0 2) with
    | none => rw [← hv]; exact pcsDiff_evt _ _ _ _
    | some p => rw [← hv]; exact (pcsDiff_evt _ _ _ _).trans (pcsDiff_evt _ _ _ _)
  clear hw hv
  obtain ⟨q, y, rfl⟩ : ∃ q y, v = { s with pcs := q, zci := { s.zci with nextId := s.zci.nextId + 1, outs := s.zci.outs ++ [s.zout z], pairs := y } } :=
    ⟨_, _, hv'⟩
  clear hv'
  unfold PcsDiff at hd
  have e : w.zci.pairs = y := by rw [hd]
  rw [e]
  exact hd

theorem zstarted_frame {s : State} {z : ZCmd} (h : zpath z 1 = false) (h1 : s.zci.finals = []) (h2 : s.zci.reps = []) :
    (s.zstarted z).out = s.out ∧ (s.zstarted z).zci.finals = [] ∧ (s.zstarted z).zci.reps = [] ∧ (s.zstarted z).zci.mailOut = s.zci.mailOut := by
  unfold State.zstarted
  rw [if_neg (by simp [h]), zciFlush_none h1 h2, zadmit_frame]
  exact ⟨rfl, h1, h2, rfl⟩

/-- A command that ends with DONE (R396): it is no longer outstanding, and its final reply is queued. -/
theorem endCmd_done (s : State) (o : ZOut) (d : Nat) (r : List Byte) (hd : d < 0x80000000) :
    s.endCmd o zDone d r = (({ s.forget (fun _ r => decide (r.src = 3)) with zci := { s.zci with
        outs := s.zci.outs.filter (fun x => x.id ≠ o.id),
        chains := if o.z.chained then SMap.set s.zci.chains o.id zDone else s.zci.chains } } : State).queueRep o.z zDone d r true).qShow o.z.qp := by
  have hz : (decide (zDone = zNotPermitted) && decide (d ≥ 0x80000000)) = false := by
    rw [Bool.and_eq_false_iff]; exact .inl (by decide)
  unfold State.endCmd
  rw [hz]
  rfl

theorem zdone_mailbox {s v : State} {z : ZCmd} (h0 : z.qp = 0) (h1 : v.zci.finals = []) (h2 : v.zci.reps = []) :
    (s.zdone z v 0 []).out = v.out ++ [.mailbox (BitVec.ofNat 256 (leNat (replyBytes ⟨0, z.tag, 0, 0, [], z.ioc⟩ true))) v.zci.mailOut] := by
  unfold State.zdone State.zaccepted
  rw [if_neg (by simp [h0])]
  rw [endCmd_done _ _ _ _ (by omega)]
  generalize hw : ({ v.forget (fun _ r => decide (r.src = 3)) with zci := { v.zci with outs := v.zci.outs.filter (fun x => x.id ≠ (s.zciFlush.zout z).id), chains := if (s.zciFlush.zout z).z.chained then SMap.set v.zci.chains (s.zciFlush.zout z).id zDone else v.zci.chains } } : State) = w
  have w1 : w.zci.finals = [] := by rw [← hw]; exact h1
  have w2 : w.zci.reps = [] := by rw [← hw]; exact h2
  have w3 : w.out = v.out := by rw [← hw]; rfl
  have w4 : w.zci.mailOut = v.zci.mailOut := by rw [← hw]
  generalize hx : (w.queueRep (s.zciFlush.zout z).z zDone 0 [] true).qShow (s.zciFlush.zout z).z.qp = x
  have x1 : x.zci.finals = [] := by rw [← hx]; exact w1
  have x2 : x.zci.reps = [⟨z.qp, z.tag, 0, 0, [], true && z.ioc⟩] := by
    rw [← hx]
    show w.zci.reps ++ _ = _
    rw [w2]; rfl
  have x3 : x.out = v.out := by rw [← hx]; exact w3
  have x4 : x.zci.mailOut = v.zci.mailOut := by rw [← hx]; exact w4
  have e : ({ x with zci := { x.zci with finals := [] } } : State) = x := by rw [← x1]
  unfold State.zciFlush
  rw [x1, e]
  simp only [List.foldl_nil, x2, h0, Bool.true_and]
  unfold State.writeReps State.writeRep
  simp only [if_true]
  unfold State.writeReps
  show (State.evt _ 15 0x1C 3).out = _
  rw [State.evt_eq]
  show x.out ++ [.mailbox _ x.zci.mailOut] = _
  rw [x3, x4]

theorem tierRange_pass {bad : ZCmd → Bool} {limit : Bool} {k : Nat → ZCmd → Nat → Nat → State → ZDo × State} {id : Nat} {z : ZCmd} {u : State}
    (h : u.TierRange z) (hb : bad z = false) (hf : limit = true → u.tierFull = false) :
    tierRange bad limit k id z u = k id z (z.f 16 8 / 4096) (z.f 24 4) u := by
  obtain ⟨h1, h2, h3, h4, h5⟩ := h
  unfold tierRange
  dsimp only
  rw [if_neg (by rw [h4, hb]; simp; omega), if_neg (by simp [h5]), if_neg]
  cases limit
  · simp
  · simp [hf rfl]

theorem zcmd_f_byte (z : ZCmd) (i : Nat) : z.f i 1 = z.byte i := by
  unfold ZCmd.f ZCmd.byte fieldAt
  rw [Nat.shiftRight_eq_div_pow]; rfl

theorem isOp_field {z : ZCmd} {op i v : Nat} (h : z.isOp op i v = true) : z.f i 1 = v := by
  unfold ZCmd.isOp at h
  rw [Bool.and_eq_true] at h
  rw [zcmd_f_byte]; exact of_decide_eq_true h.2

theorem onFunc_pass {k : Nat → ZCmd → State → ZDo × State} {id : Nat} {z : ZCmd} {u : State}
    (h1 : z.f 16 1 < 2) (h2 : (u.lendGroup (z.f 16 1)).isSome = true) : onFunc k id z u = k (z.f 16 1) z u := by
  unfold onFunc State.lendFunc
  dsimp only
  rw [if_pos ⟨h1, h2⟩]

theorem activate_pass {u : State} {c : Nat} {act : List Byte → State → ZDo × State} (h1 : u.fwGate c = none)
    (h2 : u.imageBad c (u.image c) = none) : u.activate c act = act (u.image c) u := by
  unfold State.activate
  rw [h1]
  dsimp only
  rw [h2]

theorem completes_firm {c : Instr} {ok : Bool} {f : State → State} {h : Handler} {z : ZCmd} {s u v : State} {e : State → List Byte → State}
    {r : List Byte} (hz : s.ZFirm z u e) (hok : ok = true) (he : exec c s = runs ok f s) (hf : f s = s.zfirm h z)
    (hh : ∀ id, h id z u = (.done 0 r, v)) : Completes c s fun t => t = { e v r with pending := s.pending } := by
  unfold Completes; rw [he]
  rcases hz with ⟨hs, o, ho, rfl, rfl⟩ | ⟨hr, hn, rfl, rfl⟩
  · refine completes_run' (f := f) hok hs (hf.trans ?_) rfl
    unfold State.zfirm
    rw [ho]
    dsimp only
    rw [hh]
  · exact completes_run' (f := f) hok hr.1.1 (hf.trans ((zfirm_fresh s h z hn).trans (ztake_done hr (hh _)))) rfl

end Sys2Proof.Machine
end

