-- ==== Sys2Proof/Tests/Slice0.lean ====
section
/-! SUPPORT.
The model's own tests: a witness for the hypotheses of each statement, clause by clause; an ill-formed term for each check of
well-formedness; the spec's worked examples and check values; one command run from the queue. -/

namespace Sys2Proof.Tests
open Sys2Proof Sys2Proof.Machine
set_option Elab.async false
set_option linter.unusedVariables false
set_option maxRecDepth 100000

/-! ### States and values that the witnesses share. -/

/-- A package that runs: the memory map has a tiered range of 1 GiB at 0 and a fabric window, the host firmware has
started, key context 0 is LOADED, and core 0, core 1 and SP0 are released. -/
def run : State :=
  let r := State.reset
  let c (n : Nat) (s : State) : State := s.setCore n { s.core n with released := true }
  c 216 (c 1 (c 0 (({ r with
    ssm := { r.ssm with wiping := false },
    boot := { r.boot with sp0Up := true, released := true },
    plat := { r.plat with memmap := [⟨0, 0x40000000, 0, 0, 0, 0⟩, ⟨0x1000000000, 0x1000000, 5, 0, 0, 0⟩] } } |>.setStage 5).setCtx 0 { KeyCtx.empty with st := 1 })))

/-- An unguarded instruction of core `n`, 4 bytes long. -/
def insn (n : Nat) : Insn := ⟨n, 0, false, 0, 0, 0, 4, true, .ok, none⟩

theorem pair_eq {α β : Type} {p : α × β} {a : α} (h : p.1 = a) : p = (a, p.2) := by cases p; cases h; rfl

theorem got_ok {α : Type} [DecidableEq α] {g : Got α} {a : α} (h : (match g with | .ok b => decide (b = a) | _ => false) = true) :
    g = .ok a := by cases g <;> simp_all

/-- The same package held by cold reset. -/
def held : State := { run with pins := { run.pins with inCold := true } }

/-- `run` with core 0 changed. -/
def core0 (f : Core → Core) : State := run.setCore 0 (f (run.core 0))

/-- `run` with core 0 at a level. -/
def atLevel (l : Nat) : State := core0 (·.setSr 0x400 (BitVec.ofNat 64 l))

/-- `run` with a value in c1 of core 0. -/
def c1Is (v : Word) : State := run.setRegAt 0 1 0 v

/-- A translation of the first 2 MiB to themselves, Normal-WB, for level H. -/
def tlb0 : TlbEnt :=
  { regime := 1, vmid := 0, asid := none, root1 := some 0, root2 := none, s2only := false, base := 0, size := 2097152, pa := 0, key := 0, attr1 := some 0, attr2 := none,
    u := false, x := true, w := true, d := true, s2 := false, r2 := false, w2 := false, x2 := false, d2 := false, lv1 := 0, lv2 := 0, ipa := 0 }

/-- `run` with translation enabled at level H of core 0 and that translation locked. -/
def mapped : State :=
  core0 fun c => { (c.setSr 0x903 1).setSr 0x840 0 with tlbs := { c.tlbs with locked := [tlb0] } }

/-- The translation of address 0 in `mapped`, and in `run`, where no stage is enabled. -/
def xl0 : Xlat := ⟨0, 0, 0, 0, none⟩
def xlDev : Xlat := ⟨0, 0, 2, 0, none⟩

/-- Line 0, held in M, in E and in S. -/
def lineM : CLine := ⟨0, .m, 0, false, 0, false⟩
def lineE : CLine := { lineM with st := .e }
/-- `mapped` with line 0 owned in core 0's L2. -/
def owned : State := mapped.setCaches 0 { (mapped.core 0).caches with l2 := [(0, lineM)] }

/-- A fabric write of core 0 with tag 5 outstanding, which a fence of it awaits. -/
def fabOpen : State :=
  { core0 (fun c => { c with fabric := [5] }) with fio := { run.fio with outs := [⟨5, 0x1000000000, 0, 0, true, false, false, some 0⟩] } }

theorem fill_line {g : Fill} {l : CLine} {b : Bool} (h : (match g with | .line m c => decide (m = l ∧ c = b) | _ => false) = true) :
    g = .line l b := by cases g <;> simp_all

theorem opt_get {α : Type} {o : Option α} (h : o.isSome = true) : o = some (o.get h) := by cases o <;> simp_all

/-- The register at an address of the Package Control Space. -/
def reg (k : Nat) (h : (regDefAt k).isSome = true := by decide +kernel) : RegDef := (regDefAt k).get h

/-- `run` with link 0 and link 11 trained. -/
def linked : State := (run.fput (kSclStat ⟨true, 0⟩) fSclStat_STATE 2).fput (kSclStat ⟨true, 11⟩) fSclStat_STATE 2

/-- A translation of the IOTU of the first 2 MiB to themselves, with no stage enabled. -/
def ioE0 : TlbEnt := { tlb0 with regime := 4, asid := some 0, root1 := none, attr1 := none, u := true }

/-- `run` with group 0 a root port, its devices admitted by the IOTU without translation, and an interrupt window. -/
def pcie : State :=
  { ((run.fput (kFioGcfg 0) fFioGcfg_ROLE 1).fput kIotuCtl fIotuCtl_EN 1).wr (kIotuDctbase 0) 1 with
    iotu := ⟨[⟨0, 1, 0, 0⟩], [(0, ioE0), (0, { ioE0 with base := 0x2000000000, pa := 0x2000000000 })], []⟩, plat := { run.plat with memmap := run.plat.memmap ++ [⟨0x2000000000, 864, 3, 0, 0, 0⟩] } }

def dma0 : Dma := ⟨0, 0, 0, 0, 8, false, false, false⟩

/-- A queue pair that runs, and `run` with it as pair 64. -/
def qp0 : QPair :=
  { st := 1, head := 0, tail := 0, rtail := 0, rqhead := 0, phase := true, qlog := 4, ie := false, vec := 0, key := 0, sq := 0x10000,
    rq := 0x20000, chain := none, stopBy := none, owner := none }
def paired : State := run.setPair 64 (some qp0)

/-- A request for line 0 by core 0, and a transaction of it that awaits agents 1 and 2. -/
def req0 : HomeReq :=
  { agent := 0, core := 0, line := 0, key := 0, dark := false, spec := false, rt := false, forStore := false, src := 0, srcAgent := 0,
    data := 0, mask := 0, poison := false, op := .swap, offset := 0, size := 8, operand := 0, compare := 0, posted := false }
def tr0 : Trans := { (run.begin' (.fresh .rds req0 .msg)).1 with await := [1, 2] }

/-- `run` with one transaction open, and with line 0 in the directory as agent 1's. -/
def withTr (t : Trans) : State := run.setSlice 0 { run.slice 0 with trans := [t] }
def inDir : State := { run with home := { run.home with dir := [(0, ⟨0, .x, 1, 2, false, false, false⟩)] } }

/-- A state with frame 0 in tier 0, at media frame 0, and with line 0 written with zeros. -/
def mediaFrame (s : State) : State := { s with enl := { s.enl with up := true, frames := [(0, { FrameEnt.zero with tier := 0 })] } }
/-- A flit of a type and a SEQ, with what follows its header, whose CRC passes, and one whose CRC fails (R215, R216). -/
def flitOf (type seq body : Nat) : Flit :=
  let v := type * 2 ^ 60 + seq * 2 ^ 48 + body * 2 ^ 64
  BitVec.ofNat 1024 (v + (crc64 (leBytes 120 v)).toNat * 2 ^ 960)
def badFlit : Flit := flitOf 1 0 0 ^^^ 2 ^ 1000

/-- A PROT flit without slots and a link-control flit, and the state that a link end leaves when it accepts one. -/
def prot : Flit := flitOf 1 0 0
def ctl (cmd : Nat) : Flit := flitOf 3 0 cmd
def accepted (s : State) (e : LinkEnd) (f : Flit) : State := ((s.lkHeader e (headerOf f)).agtNak e).2.takeFlit e f

theorem accepts {s : State} {e : LinkEnd} {f : Flit} (h : s.lkUp e = true ∧ crcOk f = true ∧
    (hdr (headerOf f) 60 4 = 1 ∨ hdr (headerOf f) 60 4 = 3) ∧ ((s.lkHeader e (headerOf f)).agtNak e).1 = false ∧
    hdr (headerOf f) 48 12 = ((s.lkHeader e (headerOf f)).lk e).expect) : s.Accepts (accepted s e f) e f :=
  ⟨_, h.1, h.2.1, h.2.2.1, pair_eq h.2.2.2.1, h.2.2.2.2, rfl⟩

theorem burst_bytes (t u : BitVec 8) (l : List Line) (c d : BitVec 32) : BurstBytes ⟨t, u, l, c⟩ = BurstBytes ⟨t, u, l, d⟩ := rfl

theorem compl_ne (x : BitVec 32) : x ≠ ~~~ x := fun h => by
  have := congrArg (fun b : BitVec 32 => b.getLsbD 0) h
  simp at this

/-- `run` with a link end in a state of SCL_STAT, and with what the end holds. -/
def link (e : LinkEnd) (st : Nat) (x : LinkSt) : State := (run.fput (kSclStat e) fSclStat_STATE st).setLk e x

/-- `run` with two interleave sets of 1 MiB, on channels 15 and 14, and no reserve. -/
def withSets : State :=
  { (run.fput kEnlCtl fEnlCtl_RESERVE 0) with
    plat := { run.plat with sets := [⟨[15], 0, 0x100000⟩, ⟨[14], 0x100000, 0x100000⟩] }, enl := { run.enl with up := true } }

/-- A slot of a move of frame 0, and a state with it. -/
def slot0 : Slot :=
  { kind := .copy, frame := 0, src := frameKey 0 0, dst := frameKey 0 0x100000, moved := 0, staging := [], closed := false, cmd := none,
    pinAfter := false, touch := false, evac := false, draining := false, srcUnits := false, bad := false }
def slotted (s : State) (x : Slot) : State := { s with enl := { s.enl with slots := [(63, x)] } }

/-- A read of line 0 for the Enlarger, and a state with one outstanding at tier 1. -/
def acc0 : TierAccess := ⟨0, 0, false, false, false, false, 0, false, false⟩
def t1Open (a : TierAccess) : State := { run with fio := { run.fio with t1 := [⟨9, a, 0, none⟩] } }

/-- Channel 15 up, with what its controller holds. -/
def chan (x : Chan) : State := (withSets.fput (kMcStat 15) fMcStat_STATE 2).setChan 15 x

/-- `run` with group 7 in a role, and as the socket link's end in the boot window. -/
def group7 (role : Nat) : State := (run.fput (kFioGcfg 7) fFioGcfg_ROLE role).fput (kFioGcfg 7) fFioGcfg_LOCK 1
def joining : State := { group7 5 with boot := { run.boot with windowOpen := true, effFixed := true } }

/-- A Lend function at group 0, and one that lends the first 2 MiB of the map. -/
def lend (x : LendFn) : State :=
  ({ run.fput (kFioGcfg 0) fFioGcfg_ROLE 4 with plat := { run.plat with groups := [⟨4, 0, 0, 0, 0, 0, 0⟩] } } : State).setLf 0 x
def lending : State :=
  (((lend { LendFn.reset with link := 2, memEn := true, decs := [(0, ⟨0, 0x10000000, 1, 256, 0⟩)] }).wr (kLndRangea 0 0) (fLndRangea_V.put 0 1)).wr
    (kLndRangeb 0 0) (fLndRangeb_SIZE.put 0 1)).fput (kLndStat 0) fLndStat_STATE 2
def mbox (x : LendFn) : State := run.setLf 1 x

/-- A ZCI command of version 1: its queue pair, its opcode and its other fields, each a byte offset and a value. -/
def zc (qp op : Nat) (l : List (Nat × Nat)) : ZCmd := ⟨qp, BitVec.ofNat 512 (op + 2 ^ 40 + (l.map fun p => p.2 * 2 ^ (8 * p.1)).sum), []⟩

/-- A command outstanding with identification 5. -/
def out5 (z : ZCmd) : ZOut := ⟨5, z, true, none, false, false, false⟩
def busy (z : ZCmd) : State := { run with zci := { run.zci with outs := [out5 z] } }

/-- A key record of GB/T 32918 form for a context, encrypted under the public key of private key 1 with C1 the base point, and a
state in which lines 1 to 3 hold it (R295). -/
def keyRecord (kid : Nat) : List Byte := [1, 0] ++ leBytes 2 kid ++ List.replicate 12 0 ++ leBytes 32 1 ++ leBytes 32 2
def encrypted (m : List Byte) : List Byte :=
  let gx := beBytes 32 sm2Gx
  let gy := beBytes 32 sm2Gy
  [4] ++ gx ++ gy ++ sm3 (gx ++ m ++ gy) ++ List.zipWith (fun a b : Byte => a ^^^ b) m (sm2Kdf 3 1 (gx ++ gy))
theorem six {α β γ δ ε ζ : Type} (p : α × β × γ × δ × ε × ζ) : p = (p.1, p.2.1, p.2.2.1, p.2.2.2.1, p.2.2.2.2.1, p.2.2.2.2.2) := rfl

/-- A state in which answers wait at the home, and those to the reads and the writes of a buffer by the command interface. -/
def told (s : State) (l : List HeldReply) : State := { s with home := { s.home with replies := l } }
def readAns (a n : Nat) (d : Nat → Line) : List HeldReply :=
  (linePieces (n / 64 + 2) a n).map fun q => ⟨.rdc, uncReq Who.zci q.1 0 true, .reply (d q.1) false false false⟩
def writeAns (a : Nat) (b : List Byte) : List HeldReply := (putReqs Who.zci a 0 true b).map fun p => ⟨p.1, p.2, .done⟩

theorem told_evt (s : State) (l : List HeldReply) (d b i : Nat) : (told s l).evt d b i = told (s.evt d b i) l := by
  show (if (s.dieHeld d || s.underTest d b) = true then told s l else
    if s.fget (kEvt d b i) fEvtCnt_COUNT + 1 ≥ 2 ^ 48 - 1 then (told s l).wr (kEvt d b i) (BitVec.ofNat 64 (2 ^ 63 + 2 ^ 48 - 1))
    else (told s l).fput (kEvt d b i) fEvtCnt_COUNT (s.fget (kEvt d b i) fEvtCnt_COUNT + 1)) = _
  unfold State.evt State.evtBy
  split
  · rfl
  · dsimp only; split <;> rfl

/-- Taking a command moves nothing of the home. -/
theorem told_zstarted {s : State} {z : ZCmd} (l : List HeldReply) (h1 : s.zci.finals = []) (h2 : s.zci.reps = []) :
    (told s l).zstarted z = told (s.zstarted z) l := by
  let base (s : State) : State := { s with zci := { s.zci with nextId := s.zci.nextId + 1, outs := s.zci.outs ++ [s.zout z] } }
  let pairing (s : State) : State := match s.pair z.qp with
    | some p => (base s).setPair z.qp (some { p with chain := if z.chained then some s.zci.nextId else none })
    | none => base s
  have hp : pairing (told s l) = told (pairing s) l := by
    have e : (told s l).pair z.qp = s.pair z.qp := rfl
    dsimp only [pairing]
    rw [e]
    cases s.pair z.qp <;> rfl
  have ha : ∀ s, s.zadmit z = (match opInfo (z.f 0 2) with
      | some (p, _, _) => ((pairing s).evt 15 0x1C 2).evt 15 0x1C (4 + p)
      | none => (pairing s).evt 15 0x1C 2).qShow z.qp := fun _ => rfl
  have hz : (told s l).zadmit z = told (s.zadmit z) l := by
    rw [ha, ha, hp, told_evt]
    cases opInfo (z.f 0 2) with
    | none => rfl
    | some p => dsimp only; rw [told_evt]; rfl
  unfold State.zstarted
  rw [zciFlush_none h1 h2, zciFlush_none (s := told s l) h1 h2, hz]
  split <;> rfl

theorem read_told {s : State} {z : ZCmd} {a n : Nat} (d : Nat → Line) (r : List HeldReply) (ok : s.bufOk z a n = true ∧ s.srcOf z.qp = 3 ∧
    a < apertureBase ∧ s.pairKey z.qp = 0 ∧ s.home.wbuf = [] ∧ s.home.evq = []) (h : s.home.replies = readAns a n d ++ r) :
    s.BufRead (told s r) z a n ((linePieces (n / 64 + 2) a n).flatMap fun q => sliceB (lineBytes (d q.1)) q.2.1 q.2.2) false := by
  unfold State.BufRead
  refine ⟨ok.1, ?_⟩
  simp only [ok.2.1, Nat.not_le.mpr ok.2.2.1, if_false, ok.2.2.2.1, show (3 : Nat) ≠ 0 by decide, show (3 : Nat) ≠ 6 by decide]
  refine ⟨(linePieces (n / 64 + 2) a n).map fun q => .reply (d q.1) false false false, ⟨r, ok.2.2.2.2.1, ok.2.2.2.2.2, by simp, by simp, ?_, rfl⟩, ?_, ?_⟩
  · rw [h]; congr 1; unfold readAns
    generalize linePieces (n / 64 + 2) a n = ps
    induction ps with
    | nil => rfl
    | cons p ps ih => simp only [List.map_cons, List.zip_cons_cons, ih]; rfl
  · generalize linePieces (n / 64 + 2) a n = ps
    induction ps with
    | nil => rfl
    | cons p ps ih => simpa [HomeAns.data] using ih
  · generalize linePieces (n / 64 + 2) a n = ps
    induction ps with
    | nil => rfl
    | cons p ps ih => simp only [List.map_cons, List.zip_cons_cons, List.flatMap_cons, ← ih]; rfl

theorem write_told {s : State} {z : ZCmd} {a : Nat} {b : List Byte} (r : List HeldReply) (ok : s.bufOk z a b.length = true ∧ s.srcOf z.qp = 3 ∧
    a < apertureBase ∧ s.pairKey z.qp = 0 ∧ s.home.wbuf = [] ∧ s.home.evq = []) (h : s.home.replies = writeAns a b ++ r) :
    s.BufWritten (told s r) z a b := by
  unfold State.BufWritten
  refine ⟨ok.1, ?_⟩
  simp only [ok.2.1, Nat.not_le.mpr ok.2.2.1, if_false, ok.2.2.2.1, show (3 : Nat) ≠ 0 by decide, show (3 : Nat) ≠ 6 by decide]
  refine ⟨List.replicate (putReqs Who.zci a 0 (srcDark 3) b).length .done, r, ok.2.2.2.2.1, ok.2.2.2.2.2, by simp, by simp, ?_, rfl⟩
  rw [h]; congr 1; unfold writeAns
  rw [show srcDark 3 = true from rfl]
  generalize putReqs Who.zci a 0 true b = ps
  induction ps with
  | nil => rfl
  | cons p ps ih => simp only [List.map_cons, List.length_cons, List.replicate_succ, List.zip_cons_cons, ih]

/-- Pair 64's context, which says that its rings have 16 entries at 0, as the answer to the read of the context table. -/
def tabled (s : State) : State :=
  told (s.wr kZciQctbase (fZciQctbase_V.put 0 1)) [⟨.rdc, uncReq Who.zci 64 0 false, .reply 0x41 false false false⟩]

/-- An instance with pair 64, and `run` with it as instance 2047. -/
def inst0 : Inst := ⟨1, 64, 1, 1, 1, 0, 0, 0, 0, false, false⟩
def serving (i : Inst) : State := (run.setPair 64 (some { qp0 with owner := some 2047 })).setInst 2047 (some i)

/-- A saved state of version 1 for one pair: its first line, its bytes, the line's data where an image of them waits to be read at 0, and the
instance that restores it (R421). -/
def imageHead : List Byte := [1, 0, 0, 0, 1, 0] ++ List.replicate 10 0 ++ (sm3 (List.replicate 4032 0) ++ List.replicate 16 0)
def imageLine (l : Nat) : Line := if l = 0 then lineOf imageHead else 0
def imageBytes : List Byte := imageHead ++ List.replicate 4032 0
def saved (x : List SvImage) : State :=
  let s := serving { inst0 with st := 2 }
  { s with zci := { s.zci with images := x } }
def restoring (x : List SvImage) : State := told (saved x) (readAns 0 4096 imageLine)
def restoreCmd : ZCmd := zc 3 0x0807 [(6, 2047)]

theorem words_length (l : List (BitVec 32)) : (l.flatMap fun x => beBytes 4 x.toNat).length = 4 * l.length := by
  induction l with
  | nil => rfl
  | cons x l ih => rw [List.flatMap_cons, List.length_append, ih, beBytes, List.length_reverse, leBytes_length, List.length_cons]; omega

theorem sm3_length (m : List Byte) : (sm3 m).length = 32 := words_length _

theorem imageHead_length : imageHead.length = 64 := by
  simp only [imageHead, List.length_append, sm3_length, List.length_replicate, List.length_cons, List.length_nil]

theorem leBytes_leNat (l : List Byte) : leBytes l.length (leNat l) = l := by
  induction l with
  | nil => rfl
  | cons b l ih =>
    have := b.isLt
    simp only [List.length_cons, leBytes, leNat]
    rw [show (b.toNat + 256 * leNat l) / 256 = leNat l by omega, ih]
    congr 1
    apply BitVec.eq_of_toNat_eq
    simp [BitVec.toNat_ofNat]; omega

/-- The bytes that the pieces of a range hold. -/
def pieceBytes (d : Nat → Line) (ps : List (Nat × Nat × Nat)) : List Byte := ps.flatMap fun p => sliceB (lineBytes (d p.1)) p.2.1 p.2.2

theorem image_bytes : pieceBytes imageLine (linePieces (4096 / 64 + 2) (restoreCmd.f 24 8) 4096) = imageBytes := by
  have h : linePieces (4096 / 64 + 2) (restoreCmd.f 24 8) 4096 = (0, 0, 64) :: (linePieces 65 64 4032) := by decide +kernel
  have t : pieceBytes imageLine (linePieces 65 64 4032) = List.replicate 4032 0 := by decide +kernel
  have b : lineBytes (lineOf imageHead) = imageHead := by
    have := leBytes_leNat imageHead
    rw [imageHead_length] at this
    have lt := leNat_lt imageHead
    rw [imageHead_length] at lt
    rw [lineBytes, lineOf, List.take_of_length_le (by rw [imageHead_length]), BitVec.toNat_ofNat, Nat.mod_eq_of_lt (by omega), this]
  have c : sliceB imageHead 0 64 = imageHead := by
    simp [sliceB, imageHead_length, List.take_of_length_le]
  have e : imageLine 0 = lineOf imageHead := rfl
  rw [h, pieceBytes, List.flatMap_cons]
  simp only [e, b, c]
  rw [imageBytes, ← t]; rfl

theorem image_state : imageBytes.drop 64 = List.replicate 4032 0 := List.drop_left' imageHead_length

theorem image_digest : sliceB imageBytes 16 32 = sm3 (imageBytes.drop 64) := by
  rw [image_state]
  have h : imageBytes.drop 16 = sm3 (List.replicate 4032 0) ++ (List.replicate 16 0 ++ List.replicate 4032 0) := by
    rw [imageBytes, imageHead, List.append_assoc ([1, 0, 0, 0, 1, 0] ++ List.replicate 10 0), List.drop_left' (by simp), List.append_assoc]
  rw [sliceB, h, List.take_left' (sm3_length _)]
  simp only [sm3_length, Nat.sub_self, List.replicate_zero, List.append_nil]

theorem told_replies {s : State} {z : ZCmd} (l : List HeldReply) (h1 : s.zci.finals = []) (h2 : s.zci.reps = []) :
    ((told s l).zstarted z).home.replies = l := by rw [told_zstarted l h1 h2]; rfl

theorem image_read {s : State} (e : s.home.replies = readAns 0 4096 imageLine) (ok : s.bufOk restoreCmd (restoreCmd.f 24 8) 4096 = true ∧
      s.srcOf restoreCmd.qp = 3 ∧ restoreCmd.f 24 8 < apertureBase ∧ s.pairKey restoreCmd.qp = 0 ∧ s.home.wbuf = [] ∧ s.home.evq = []) :
    s.BufRead (told s []) restoreCmd (restoreCmd.f 24 8) 4096 imageBytes false := by
  rw [← image_bytes]
  have h : restoreCmd.f 24 8 = 0 := by decide +kernel
  exact read_told imageLine [] ok (by rw [e, h, List.append_nil])

theorem zstarted_images {s : State} {z : ZCmd} (h : zpath z 1 = false) (h1 : s.zci.finals = []) (h2 : s.zci.reps = []) :
    (s.zstarted z).zci.images = s.zci.images := by
  unfold State.zstarted
  rw [if_neg (by simp [h]), zciFlush_none h1 h2, zadmit_frame]

theorem image_kept (x : List SvImage) : (told ((restoring x).zstarted restoreCmd) []).zci.images = x :=
  zstarted_images (s := restoring x) (by decide +kernel) rfl rfl

/-- The image that the package keeps. -/
def image : SvImage := ⟨sm3 (List.replicate 4032 0), 0, [], [], []⟩

theorem image_found {t : State} (h : t.zci.images = [image]) :
    t.zci.images.find? (fun x => decide (x.digest = sm3 (imageBytes.drop 64))) = some image := by
  rw [h, image_state]
  exact List.find?_cons_of_pos (p := fun x : SvImage => decide (x.digest = sm3 (List.replicate 4032 0))) (decide_eq_true rfl)

theorem image_absent {t : State} (h : t.zci.images = []) :
    t.zci.images.find? (fun x => decide (x.digest = sm3 (imageBytes.drop 64))) = none := by rw [h]; rfl

/-- An instance with pairs 64 and 65 of which pair 65 has a command outstanding. -/
def busyServing : State :=
  let s := (serving { inst0 with qcount := 2 }).setPair 65 (some { qp0 with owner := some 2047 })
  { s with zci := { s.zci with outs := [out5 (zc 65 2 [(6, 2047)])] } }

/-- The host firmware has not started, at a stage. -/
def booting (n : Nat) : State := ({ run with boot := { run.boot with released := false } } : State).setStage n

/-- A firmware image of one byte for a component: its LOAD, the key and the signature of its first 128 bytes (R459). -/
def fwImage (c load : Nat) (key sig : List Byte) : List Byte :=
  leBytes 4 0x57465248 ++ [BitVec.ofNat 8 c, 1, 0, 0] ++ leBytes 4 7 ++ leBytes 4 1 ++ leBytes 8 load ++ leBytes 8 0 ++ sm3 [0] ++ key ++ sig ++
    List.replicate 64 0 ++ [0]
def fwKey : List Byte := beBytes 32 sm2Gx ++ beBytes 32 sm2Gy
def withImage (n c : Nat) (b : List Byte) : State :=
  { (booting n).setImage c (some ⟨b, 257⟩) with fuses := { run.fuses with authority := BitVec.ofNat 256 (beNat (sm3 fwKey)) } }
def image0 : List Byte := fwImage 0 0 fwKey
  (beBytes 32 112124165777404340360023304693202445353865806186224825897252984192425406231128 ++
   beBytes 32 59730006321654078576408692867419670089128720631845331619217317260080735930360)
def image1 : List Byte := fwImage 1 0 fwKey
  (beBytes 32 107202057418025092475070885962939591601885657185668801777172750998936975080417 ++
   beBytes 32 4295015896165578140674729625540650582087983269644471395335529178678231982754)
def image2 : List Byte := fwImage 2 0x40000000 (List.replicate 64 0) (List.replicate 64 0)
def image3 : List Byte := fwImage 3 0 (List.replicate 64 0) (List.replicate 64 0)

/-- A package that boots, with a monitor whose memory is another package's. -/
def monitored : State :=
  { (withImage 4 2 image2).fput kWldCtl fWldCtl_MONEN 1 with
    plat := { run.plat with memmap := run.plat.memmap ++ [⟨0x40000000, 0x40000000, 7, 0, 0, 1⟩], monBase := 0x40000000, monSize := 0x8000 } }
def hosted : State :=
  let s := (withImage 4 3 image3).wr (kWldDrrange 0) (fWldDrrange_V.put 0 1)
  { s with boot := { s.boot with active := s.boot.active.set 1 (some ⟨7, 1, 0, 0⟩) } }

/-- A Platform Description Block with the five sections that every block has: no tiered range but 2 MiB, no channel, no group and no window
(R466 to R469, Table 15-5). -/
def pdbDir (t n off len : Nat) : List Byte := leBytes 2 t ++ leBytes 2 0 ++ leBytes 4 n ++ leBytes 4 off ++ leBytes 4 len
def pdbMap (base size kind : Nat) : List Byte := leBytes 8 base ++ leBytes 8 size ++ leBytes 8 kind
def pdbBlock : List Byte :=
  leBytes 4 0x42445048 ++ leBytes 2 1 ++ leBytes 2 5 ++ leBytes 4 1424 ++ leBytes 4 0 ++
  pdbDir 1 1 96 96 ++ pdbDir 2 5 192 120 ++ pdbDir 3 16 312 1024 ++ pdbDir 6 8 1336 64 ++ pdbDir 7 12 1400 24 ++
  (leBytes 8 0x10000 ++ List.replicate 88 0) ++
  (pdbMap 0 0x200000 0 ++ pdbMap 0x40000000 0x4000000 1 ++ pdbMap 0x80000000 0x2000000 2 ++ pdbMap 0x90000000 0x1000 3 ++ pdbMap 0xA0000000 0 4) ++
  List.replicate 1024 0 ++ (List.replicate 8 (leBytes 8 0xFF0000000000)).flatten ++ (List.replicate 24 48)

theorem firm {s : State} {z : ZCmd} (h : s.ZReady z) (n : ∀ o, o ∈ s.zciFlush.zci.outs → o.z ≠ z) :
    s.ZFirm z (s.zstarted z) fun v r => s.zdone z v 0 r := .inr ⟨h, n, rfl, rfl⟩

/-- `run` with another package's memory at 0x40000000, where a write does not wait. -/
def afar : State := { run with plat := { run.plat with memmap := run.plat.memmap ++ [⟨0x40000000, 0x40000000, 7, 0, 0, 1⟩] } }

/-- `run` with every core of die 11 in CSTATE 3. -/
def deep : State := (dieCores 11).foldl (fun s n => s.fput (kPwrCctl n) fPwrCctl_CSTATE 3) run

/-- A pair of source G that has a command in its ring. -/
def ringed (p : QPair) : State := (mediaFrame run).setPair 64 (some p)

/-- A command taken and not begun. -/
def out6 (z : ZCmd) : ZOut := ⟨6, z, false, none, false, false, false⟩
def queued (o : ZOut) : State := { run with zci := { run.zci with outs := [o], chains := [(4, 3)] } }

/-- A scratch access of SP0 and one of SP3, to the last byte and to the last word. -/
def scr0 : ScratchAccess := ⟨some 0, 33554431, 1, false, 0, none, false, 0, [], false, none⟩
def scr3 : ScratchAccess := { scr0 with sp := some 3 }
def asleep (b : Nat) : State := run.setBank b 1

theorem idle_avs {t : RailTrans} (h : t = .idle) : ∀ n g, t ≠ .raising n g ∧ t ≠ .lowering n g := by subst h; simp
theorem idle_hop {t : RailTrans} (h : t = .idle) : ∀ n g, t ≠ .hopUp n g ∧ t ≠ .hopDown n g := by subst h; simp

/-- A rail in a transition. -/
def railed (r : Nat) (t : RailTrans) (k : Nat) : State := run.setRail r { run.rail r with trans := t, expiries := k }

/-- A Contact Sheet that runs, to two slots far away. -/
def sheet0 : SheetRun := ⟨zc 3 0x4002 [(20, 100), (24, 0x40000000), (32, 2)], 0, 0, none, 0, false, [], false, none⟩
def sheeted (r : SheetRun) : State := { afar with cnt := { afar.cnt with sheet := some r } }

/-- `mapped` with one free frame, whose oldest frame belongs to level H, with its stack at the mapped addresses. -/
def spilling : State :=
  let c := mapped.core 0
  mapped.setCore 0 { c.setSr (wspOf 0 4) 128 with oldest := 3, owners := [(0, 4), (1, 4), (3, 4)] }

theorem sm2Sign_length (d k : Nat) (m : List Byte) : (sm2Sign d k m).length = 64 := by
  unfold sm2Sign; split <;> simp [beBytes]

/-- A quote has its 96-byte body, 32 bytes for each register of the mask, and a signature. -/
theorem quote_length {s : State} {d : BitVec 256} {m : BitVec 32} {n : List Byte} (h : s.wld.idPriv = some d) :
    ∃ q, s.quote m n = (some q, (s.quote m n).2) ∧
      q.length = 160 + ((List.range 32).flatMap fun i => if m.getLsbD i then s.xr i else []).length := by
  unfold State.quote
  rw [h]
  refine ⟨_, rfl, ?_⟩
  simp only [List.length_append, leBytes_length, sm2Sign_length, sliceB_length, List.length_cons, List.length_nil, List.length_replicate]
  omega

/-- A register that nothing keeps from being reached at once. -/
theorem reaches {s : State} {agent : Agent} {k : Nat} {d : RegDef} {v : Word} (h : agent ≠ .device ∧ k % 8 = 0 ∧ regDefAt k = some d ∧
    s.pcsAdmits agent k = true ∧ (pcsDie k ≥ 12 ∨ (s.dstate (pcsDie k) ≠ 2 ∧ s.parked (pcsDie k) = false ∧ s.dieOut (pcsDie k) = false ∧
      (s.lk ⟨true, pcsDie k⟩).dead = false ∧ s.lkState ⟨true, pcsDie k⟩ ≠ 0 ∧ s.lkState ⟨true, pcsDie k⟩ ≠ 1 ∧ s.lkState ⟨true, pcsDie k⟩ ≠ 3)) ∧
    s.pcsTested k = false ∧
    s.pcsHeld agent k d (pcsIgnores d (s.rd k) (d.written (s.pcsLocked k d) (s.rd k) v (BitVec.allOnes 64))) = false) :
    s.Reaches s agent k d v := by
  obtain ⟨h1, h2, h3, h4, h5, h6⟩ := h
  refine ⟨h1, h2, h3, h4, ?_, h6⟩
  unfold State.PathOpen
  dsimp only
  split
  · rfl
  · rcases h5 with h | ⟨a, b⟩
    · omega
    · exact ⟨by rw [if_neg (fun h => a h.1)], b⟩

/-- A computation that takes c1 and writes c3. -/
def comp0 : CompOp := ⟨0x7F, 0, 0⟩

/-- A translated access: the locked set or the DTLB holds it and grants it. -/
theorem translates {s : State} {n acc va : Nat} {x : Xlat} (h : (match s.regimeOf n (s.core n).level (s.core n).darkW false va with
    | none => false
    | some r => match ((s.core n).tlbs.locked ++ (s.core n).tlbs.dtlb).find? (fun t => t.tags r va) with
      | none => false
      | some e => (let a := s.xacc n acc (s.core n).level (s.core n).darkW
          e.grants (if r.code = 1 then { a with level := 2 } else a)) &&
        decide (x = ⟨(e.pa + (va - e.base)) % 2 ^ 52, e.key, s.typeOf n r.code acc e, if e.s2 then e.lv2 else e.lv1,
          if e.s2 then some (e.ipa + (va - e.base)) else none⟩)) = true) : s.Translates n acc va x := by
  split at h
  · cases h
  · rename_i r hr
    split at h
    · cases h
    · rename_i e he
      rw [Bool.and_eq_true] at h
      exact ⟨r, e, hr, he, h.1, of_decide_eq_true h.2⟩

theorem one_each {n : Nat} {P : Nat → Prop} (h : n = 1) (p : P 0) : ∀ i, i < n → P i := fun i hi => by
  have : i = 0 := by omega
  exact this ▸ p

/-- `mapped` with the translation Device-Strict, and with line 0 in the L2 and the L1D. -/
def mappedDev : State := mapped.setCore 0 ((mapped.core 0).setSr 0x840 2)
def sec0 : Sector := ⟨0, 0, false, false, 0, false⟩
def inL1 : State := mapped.setCaches 0 { (mapped.core 0).caches with l2 := [(0, lineM)], l1d := [(0, ⟨0, some sec0, none⟩)] }

/-- Translation enabled for level H of core 0, whose walk cache names the last table and whose L2 holds a leaf of it. -/
def tableLine : CLine := { lineM with line := 64, data := 0x3E1 }
def walking : State :=
  core0 fun c => { (c.setSr 0x903 1).setSr 0x840 0 with
    tlbs := { c.tlbs with walk1 := [⟨1, 0, none, 0, false, 4, 0, 4096⟩] }, caches := { c.caches with l2 := [(64, tableLine)] } }

theorem answered_told {s : State} {l : List (ReqKind × HomeReq)} {as : List HomeAns} (h : s.home.wbuf = [] ∧ s.home.evq = [] ∧
    as.length = l.length ∧ HomeAns.wait ∉ as ∧ s.home.replies = (l.zip as).map fun p => ⟨p.1.1, p.1.2, p.2⟩) :
    s.Answered (told s []) l as := ⟨[], h.1, h.2.1, h.2.2.1, h.2.2.2.1, by rw [List.append_nil]; exact h.2.2.2.2, rfl⟩

theorem hit {s : State} {src rid addr acc h k : Nat} {msi : Bool} (c : DevCtx) (e : TlbEnt)
    (g : (let key := bitsOf c.w0 48 14
      let s1 := c.w0.getLsbD 1
      let s2 := c.w0.getLsbD 2
      let id := src * 65536 + rid
      let r : Regime :=
        { code := 4, s1 := if s1 then some (bitsOf c.w1 12 40 * 4096) else none, s2 := if s2 then some (bitsOf c.w2 12 40 * 4096) else none,
          k1 := key, k2 := key, dark := false, core := 219, iotu := some (if src = 8 then Who.zci else Who.dma src), spec := false,
          vmid := bitsOf c.w0 16 16, asid := some (bitsOf c.w0 32 16) }
      s.fon kIotuCtl fIotuCtl_EN && (if src = 8 then s.rd kIotuSictbase else s.rd (kIotuDctbase src)).getLsbD 0 &&
      decide (s.iotu.ctxs.find? (fun c => c.src = id) = some c) &&
      decide (s.iotu.tlb.find? (fun p => decide (p.1 = id) && p.2.tags r addr) = some (id, e)) &&
      e.grants { acc := acc, level := 0, sxg := false, sag := false, marks := !c.w0.getLsbD 3 } &&
      decide (h = (e.pa + (addr - e.base)) % 2 ^ 52 ∧ k = (if s1 || s2 then e.key else key)) &&
      (s.isTiered h || (s.mapOf h).any fun m => decide (m.kind = 5) || (msi && decide (m.kind = 3)))) = true) :
    s.IotuHit src rid addr acc msi h k := by
  simp only [Bool.and_eq_true, decide_eq_true_eq] at g
  obtain ⟨⟨⟨⟨⟨⟨a, b⟩, d⟩, f⟩, i⟩, j⟩, m⟩ := g
  refine ⟨c, e, a, b, d, f, i, j.1, j.2, ?_⟩
  rw [Bool.or_eq_true, Option.any_eq_true] at m
  rcases m with m | ⟨m, hm, q⟩
  · exact .inl m
  · refine .inr ⟨m, hm, ?_⟩
    simpa using q

theorem not_remote {k : LineKind} (h : k = .tiered) : ∀ j, k ≠ .remote j := by subst h; simp

theorem unlisted {o : Option (Nat × DirEnt)} {a : Nat} (h : o = none) : ∀ k e, o = some (k, e) → e.own ≠ some a := by subst h; simp

/-- A write-back of line 0 by a die, and a directory entry of it whose owner is agent 1. -/
def wb0 : WbEnt := ⟨1, 0, some 0, false, 0, false, false, none⟩
def dir0 : DirEnt := ⟨0, .x, 1, 2, false, false, false⟩

theorem no_trans {o : Option Trans} {P : Trans → Prop} (h : o = none) : ∀ t, o = some t → P t := by subst h; simp

/-- Requests for line 0, as they arrive, and a state in which one is outstanding. -/
def pend0 : Pend := .fresh .rdc req0 .msg
def asking (p : Pend) : State := { run with home := { run.home with asked := [p] } }
def askingFar (k : ReqKind) : State := { afar with home := { afar.home with asked := [.fresh k { req0 with line := 0x1000000 } .msg] } }
def waits (p : Pend) : State := run.setSlice 0 { run.slice 0 with waiting := [p] }
def grant0 : GrantMsg := ⟨0, 0, false, true, some 0, false, false, false, 0, false⟩

theorem goes {s : State} {k : ReqKind} {r : HomeReq} (h : s.down = false ∧ s.lineKind r.line = .tiered ∧ s.ownDark (r.line * 64) = false ∧
    r.spec = false ∧ s.lineHeld r.line = false ∧ s.sliceFull r.line r.dark = false ∧ k.allocates = false) :
    s.homeAdmit k r false = (.go, s) := by
  rw [State.admit_opens h.1 (.inl h.2.1) (.inr h.2.2.1) h.2.2.2.1 h.2.2.2.2.1 rfl h.2.2.2.2.2.1, if_neg (by simp [h.2.2.2.2.2.2])]

theorem ctxs_read {s : State} {src qp : Nat} {d : Line} {q : QPair} {l : List Nat} {m : List (Nat × Option QPair)} (e : l = [qp]) (f : m = [(qp, some q)])
    (h : s.ctxHeld qp = true ∧ s.home.wbuf = [] ∧ s.home.evq = [] ∧ s.home.replies =
      [⟨.rdc, uncReq Who.zci (s.ctxAt qp / 64) (fZciQctbase_KEYID.get (s.rd kZciQctbase)) false, .reply d false false false⟩] ∧
      (told s []).ctxOf d false src = some q) : CtxsRead src l s (told s []) m := by
  subst e; subst f
  exact ⟨_, _, _, .inr ⟨h.1, d, false, false, false, ⟨[], h.2.1, h.2.2.1, rfl, by simp, by rw [List.append_nil]; exact h.2.2.2.1, rfl⟩, h.2.2.2.2.symm⟩,
    ⟨rfl, rfl⟩, rfl⟩

/-- Pair 64 as its context enables it. -/
def qp64 : QPair := { qp0 with sq := 0, rq := 0 }

/-- With every bank ON no access waits. -/
theorem banks_ready {s : State} {off n : Nat} (h : s.ssm.wiping = false ∧ ∀ k, k < 64 → s.bankState k = 0) : (s.ssmReady off n).1 = true := by
  unfold State.ssmReady
  rw [if_neg (by simp [h.1])]
  simp only [List.all_eq_true, List.mem_map, decide_eq_true_eq]
  rintro _ ⟨p, _, rfl⟩
  exact h.2 _ (Nat.mod_lt _ (by decide))

/-- A write of the scratch aperture by an SP-system pair. -/
theorem write_ap {s : State} {z : ZCmd} {a : Nat} {b : List Byte} {n : Nat} (l : b.length = n) (h : s.bufOk z a n = true ∧ s.srcOf z.qp = 4 ∧
    apertureBase ≤ a ∧ s.ssm.wiping = false ∧ ∀ k, k < 64 → s.bankState k = 0) : s.BufWritten (s.ssmStore none (a - apertureBase) b).2 z a b := by
  obtain ⟨h1, h2, h3, h5⟩ := h
  have h4 := banks_ready h5 (off := a - apertureBase) (n := n)
  have e : s.ssmStore none (a - apertureBase) b = (true, (s.ssmStore none (a - apertureBase) b).2) := by
    refine Prod.ext ?_ rfl
    unfold State.ssmStore
    rw [l]
    split
    · next e => rw [e] at h4; cases h4
    · rfl
  unfold State.BufWritten
  rw [l]
  refine ⟨h1, ?_⟩
  simp only [h2, h3, if_true, show (4 : Nat) ≠ 0 by decide, show (4 : Nat) ≠ 6 by decide, if_false]
  exact e

/-- An address of the aperture above the secure partition, whatever its size. -/
def ap : Nat := apertureBase + 0x1000000

theorem regions_one {z : ZCmd} {f : Nat} {s w : State} (h : s.BufWritten w z (z.f 32 8 + 1024 * 0) (s.regionRecords (f + 512 * 0))) :
    RegionsWritten z f (List.range 1) s w := ⟨w, h, rfl⟩

theorem no_dict {s : State} {z : ZCmd} (h : z.f 30 1 / 4 % 2 ≠ 1) : s.DictRead s z [] := by
  unfold State.DictRead; rw [if_neg h]; exact ⟨rfl, rfl⟩

/-- A quote does not look at the answers that wait at the home. -/
theorem quote_told (s : State) (l : List HeldReply) (m : BitVec 32) (n : List Byte) :
    (told s l).quote m n = ((s.quote m n).1, told (s.quote m n).2 l) := by
  unfold State.quote
  have e : (told s l).wld.idPriv = s.wld.idPriv := rfl
  rw [e]
  cases s.wld.idPriv with
  | none => rfl
  | some d => rfl

/-- A package with an identity, the command that quotes its transport key, and the bytes of the answer. -/
def quoter : State := { run with wld := { run.wld with idPriv := some 1 } }
def quoteCmd : ZCmd := zc 3 0x1201 [(24, 64), (32, 512)]
def quoteBytes : List Byte :=
  sm2Pub quoter.dks.tpriv.toNat ++ (((quoter.zstarted quoteCmd).quote 0x1FF#32 (sm3 (sm2Pub quoter.dks.tpriv.toNat))).1).getD []

theorem regions_length (s : State) (f : Nat) : (s.regionRecords f).length = 1024 := by
  unfold State.regionRecords
  simp [List.length_flatMap, leBytes_length]

theorem pwr_length (s : State) : s.pwrRecords.1.length = 208 := by
  have : ∀ (l : List Nat) (a : List Byte × State), (l.foldl (fun (a : List Byte × State) r => (a.1 ++ (a.2.pwrRecord r).1, (a.2.pwrRecord r).2)) a).1.length =
      a.1.length + 16 * l.length := by
    intro l
    induction l with
    | nil => intro a; simp
    | cons r l ih =>
      intro a
      rw [List.foldl_cons, ih]
      have : (a.2.pwrRecord r).1.length = 16 := by
        unfold State.pwrRecord
        dsimp only
        split <;> simp [leBytes_length]
      simp only [List.length_append, this, List.length_cons]; omega
  exact this (List.range 13) ([], s)

theorem sm2Pub_length (d : Nat) : (sm2Pub d).length = 64 := by
  unfold sm2Pub; split <;> simp [beBytes, leBytes_length]

theorem quoteBytes_length : quoteBytes.length = 512 := by
  obtain ⟨q, e, h⟩ := quote_length (s := quoter.zstarted quoteCmd) (d := 1) (m := 0x1FF#32) (n := sm3 (sm2Pub quoter.dks.tpriv.toNat)) (by decide +kernel)
  unfold quoteBytes
  rw [e, List.length_append, sm2Pub_length]
  show 64 + q.length = 512
  rw [h, show ((List.range 32).flatMap fun i => if (0x1FF#32).getLsbD i then (quoter.zstarted quoteCmd).xr i else []).length = 288 by decide +kernel]

theorem quote_written :
    let u := (told quoter (writeAns 64 quoteBytes)).zstarted quoteCmd
    let q := u.quote 0x1FF#32 (sm3 (sm2Pub u.dks.tpriv.toNat))
    q.2.BufWritten (told ((quoter.zstarted quoteCmd).quote 0x1FF#32 (sm3 (sm2Pub quoter.dks.tpriv.toNat))).2 []) quoteCmd (quoteCmd.f 24 8)
      (sm2Pub u.dks.tpriv.toNat ++ q.1.getD []) := by
  have d : (quoter.zstarted quoteCmd).dks.tpriv = quoter.dks.tpriv := by decide +kernel
  dsimp only
  rw [told_zstarted _ rfl rfl, quote_told]
  show (told _ _).BufWritten _ quoteCmd (quoteCmd.f 24 8) (sm2Pub (quoter.zstarted quoteCmd).dks.tpriv.toNat ++ _)
  rw [show (told (quoter.zstarted quoteCmd) (writeAns 64 quoteBytes)).dks = (quoter.zstarted quoteCmd).dks from rfl, d]
  have a : quoteCmd.f 24 8 = 64 := by decide +kernel
  rw [a]
  refine write_told (s := told ((quoter.zstarted quoteCmd).quote 0x1FF#32 (sm3 (sm2Pub quoter.dks.tpriv.toNat))).2 (writeAns 64 quoteBytes)) (b := quoteBytes) [] ?_ (by rw [List.append_nil]; rfl)
  rw [quoteBytes_length]
  decide +kernel

/-- The saving of an instance that is stopped: its command, its state, and the image that it writes. -/
def saveCmd : ZCmd := zc 3 0x0806 [(6, 2047), (24, 4096)]
def stopped : Inst := { inst0 with st := 2 }
def saving : State := serving stopped
def saveBytes : List Byte := (saving.zstarted saveCmd).svBytes saveCmd.inst stopped

theorem saveBytes_length : saveBytes.length = 4096 := by
  unfold saveBytes State.svBytes State.svState
  simp only [List.length_append, leBytes_length, sm3_length, List.length_replicate, List.length_map, List.length_range, List.length_cons, List.length_nil]

theorem save_written :
    let u := (told saving (writeAns 4096 saveBytes)).zstarted saveCmd
    u.BufWritten (told (saving.zstarted saveCmd) []) saveCmd (saveCmd.f 24 8) (u.svBytes saveCmd.inst stopped) := by
  dsimp only
  rw [told_zstarted _ rfl rfl]
  have a : saveCmd.f 24 8 = 4096 := by decide +kernel
  have b : ∀ s l, (told s l).svBytes saveCmd.inst stopped = s.svBytes saveCmd.inst stopped := fun _ _ => rfl
  rw [a, b]
  refine write_told (s := told (saving.zstarted saveCmd) (writeAns 4096 saveBytes)) (b := saveBytes) [] ?_ (by rw [List.append_nil]; rfl)
  rw [saveBytes_length]
  decide +kernel

/-- A package whose transport key opens the record that waits to be read, and the commands that load and rotate context 5 with it. -/
def keyLine (l : Nat) : Line := lineOf (sliceB (encrypted (keyRecord 5)) (64 * (l - 1)) 64)
def keying : State := { told run (readAns 64 177 keyLine) with dks := { run.dks with tpriv := 1 } }
def keyCmd3 (op : Nat) (l : List (Nat × Nat)) : ZCmd := zc 3 op ([(16, 5), (18, 1), (24, 64), (32, 177)] ++ l)
def keyPair5 : KeyPair := ⟨0, keyHalf 0 (leBytes 32 1), keyHalf 0 (leBytes 32 2)⟩

theorem key_given {s : State} {z : ZCmd} (ok : s.bufOk z 64 177 = true ∧ s.srcOf z.qp = 3 ∧ (64 : Nat) < apertureBase ∧ s.pairKey z.qp = 0 ∧
    s.home.wbuf = [] ∧ s.home.evq = []) (h : s.home.replies = readAns 64 177 keyLine) (a : z.f 24 8 = 64)
    (k : keyPair5.k1 ≠ keyPair5.k2 ∧ isWrapped z = true ∧ s.dks.tpriv = 1 ∧ keyIdOf z = 5) :
    s.KeyGiven (told s []) z keyPair5 := by
  refine ⟨k.1, ?_⟩
  rw [if_pos k.2.1, k.2.2.1, a, k.2.2.2]
  exact ⟨_, keyRecord 5, read_told keyLine [] ok (by rw [h, List.append_nil]), by decide +kernel⟩

/-- A pair of source G whose slot 0 waits to be read. -/
def slotLine : Line := 0x10000000002
def slotted2 (p : QPair) : State :=
  told (run.setPair 64 (some p)) [⟨.rdc, uncReq Who.zci 1024 0 false, .reply slotLine false false false⟩]

theorem slot_read {s : State} {qp : Nat} {p : QPair} (h : s.ownerOf qp = none ∧ p.sq + 64 * p.head = 65536 ∧ s.rangeTiered 65536 64 = true ∧ p.key = 0 ∧
    srcDark (s.srcOf qp) = false ∧ s.home.wbuf = [] ∧ s.home.evq = [] ∧
    s.home.replies = [⟨.rdc, uncReq Who.zci 1024 0 false, .reply slotLine false false false⟩]) :
    s.SlotRead (told s []) qp p (leBytes 64 slotLine.toNat) false := by
  obtain ⟨h1, h2, h3, h4, h5, h6, h7, h8⟩ := h
  unfold State.SlotRead
  dsimp only
  rw [h1, h2, h4, h5]
  refine ⟨h3, [.reply slotLine false false false], ⟨[], h6, h7, by decide +kernel, by simp, ?_, rfl⟩, rfl, by decide +kernel⟩
  rw [h8]; rfl

/-- A read of a boot-mailbox attachment. -/
theorem read_mail {s : State} {z : ZCmd} {a n : Nat} (h : s.bufOk z a n = true ∧ s.srcOf z.qp = 0 ∧ a + n ≤ z.attach.length) :
    s.BufRead s z a n (sliceB z.attach a n) false := by
  unfold State.BufRead
  rw [h.2.1]
  exact ⟨h.1, h.2.2, rfl, rfl, rfl⟩

theorem unplaced {s : State} {c off : Nat} {img : List Byte} (h : img.length < 256) : s.ChunkPlaced s c img off := by
  unfold State.ChunkPlaced
  dsimp only
  rw [if_pos (.inr (.inl h))]

/-- A monitor's memory, where the writes of its tables wait as done. -/
def tablesBytes : List Byte := monTables monitored.plat.monBase monitored.plat.monSize monitored.plat.monKey
def monitoring : State := told monitored ((putReqs whoSafelight (monitored.plat.monBase + monitored.plat.monSize - 0x4000) monitored.plat.monKey true tablesBytes).map
  fun p => ⟨p.1, p.2, .done⟩)

theorem range_written {s : State} {w : Who} {a k : Nat} {d : Bool} {b : List Byte} (h : s.home.wbuf = [] ∧ s.home.evq = [] ∧
    s.home.replies = (putReqs w a k d b).map fun p => ⟨p.1, p.2, .done⟩) : s.RangeWritten (told s []) w a k d b := by
  refine ⟨List.replicate (putReqs w a k d b).length .done, [], h.1, h.2.1, by simp, by simp, ?_, rfl⟩
  rw [h.2.2, List.append_nil]
  generalize putReqs w a k d b = ps
  induction ps with
  | nil => rfl
  | cons p ps ih => simp only [List.map_cons, List.length_cons, List.replicate_succ, List.zip_cons_cons, ih]

theorem no_inst {o : Option Inst} {P : Inst → Prop} (h : o = none) : ∀ i, o = some i → P i := by subst h; simp
theorem inst_is {o : Option Inst} {j : Inst} {P : Inst → Prop} (h : o = some j) (p : P j) : ∀ i, o = some i → P i := by subst h; simpa using p

theorem mon_written :
    let u := monitoring.zstarted (zc 0 0x7F02 [(16, 2)])
    u.RangeWritten (told (monitored.zstarted (zc 0 0x7F02 [(16, 2)])) []) whoSafelight (u.plat.monBase + u.plat.monSize - 0x4000) u.plat.monKey true
      (monTables u.plat.monBase u.plat.monSize u.plat.monKey) := by
  dsimp only
  rw [monitoring, told_zstarted _ rfl rfl]
  generalize hv : monitored.zstarted (zc 0 0x7F02 [(16, 2)]) = v
  have e : v.plat.monBase = monitored.plat.monBase ∧ v.plat.monSize = monitored.plat.monSize ∧ v.plat.monKey = monitored.plat.monKey := by
    subst hv; decide +kernel
  have w : v.home.wbuf = [] ∧ v.home.evq = [] := by subst hv; decide +kernel
  have f : ∀ l, (told v l).plat = v.plat := fun _ => rfl
  rw [f, e.1, e.2.1, e.2.2]
  exact range_written (s := told v _) ⟨w.1, w.2, rfl⟩

/-- Commands of an SP-system pair with their buffer in the scratch aperture. -/
def zap (op : Nat) (l : List (Nat × Nat)) : ZCmd := zc 16 op ((24, ap) :: l)

theorem ctxs_none {src : Nat} {l : List Nat} {s : State} {m : List (Nat × Option QPair)} (e : l = []) (f : m = []) : CtxsRead src l s s m := by
  subst e; subst f; exact ⟨rfl, rfl⟩

/-- A Contact Sheet that runs to the scratch aperture, with a slot to write. -/
def sheetA : SheetRun := { sheet0 with z := zap 0x4002 [(20, 100), (32, 2)], writing := some ⟨1, 0, []⟩ }

/-! ### Witnesses: inputs that meet the hypotheses of each statement. -/

/-- Inputs that meet the hypotheses of StepRunsCommand, one for each of its clauses. -/
theorem witness_StepRunsCommand :
    (∃ (s : State) (c : Instr) (r : List Instr), s.pending = c :: r) ∧
    (∃ s : State, s.pending = []) :=
  ⟨⟨({ run with pending := [.warmRstN, .thermtrip 0] }), .warmRstN, ([.thermtrip 0]), by decide +kernel⟩,
   ⟨run, by decide +kernel⟩⟩

/-- Inputs that meet the hypotheses of WellFormedQueueRunsToItsEnd, one for each of its clauses. -/
theorem witness_WellFormedQueueRunsToItsEnd :
    (∃ (c : Instr) (s : State), c.wf = true) ∧
    (∃ (c : Instr) (s : State), c.wf = false) ∧
    (∃ (s : State), ((∀ c, c ∈ s.pending → c.wf = true))) :=
  ⟨⟨(.thermtrip 11), run, by decide +kernel⟩,
   ⟨(.thermtrip 12), run, by decide +kernel⟩,
   ⟨({ run with pending := [.warmRstN, .thermtrip 15] }), by decide +kernel⟩⟩

/-- Inputs that meet the hypotheses of HeldPackageStandsStill, one for each of its clauses. -/
theorem witness_HeldPackageStandsStill :
    (∃ (s : State), s.stopped = true ∧ ∃ c, c.wf = true ∧ Supply c = false) ∧
    (∃ (s : State), s.stopped = true ∧ s.pending = []) :=
  ⟨⟨held, by decide +kernel, .warmRstN, by decide +kernel⟩,
   ⟨held, by decide +kernel⟩⟩

/-- Inputs that meet the hypotheses of ResetState, one for each of its clauses. -/
theorem witness_ResetState :
    (∃ n, n < 220) ∧
    (∃ n, n < 216) ∧
    (∃ n, n < 216 ∧ ∃ f, f < 2) ∧
    (∃ i, i < 32) :=
  ⟨⟨219, by decide +kernel⟩,
   ⟨215, by decide +kernel⟩,
   ⟨215, by decide +kernel, 1, by decide +kernel⟩,
   ⟨31, by decide +kernel⟩⟩

/-- Inputs that meet the hypotheses of InstructionChecksComeFirst, one for each of its clauses. -/
theorem witness_InstructionChecksComeFirst :
    (∃ (s : State) (c : Instr) (x : Insn) (k : Chk), insnOf s c = some (x, k) ∧ c.wf = true ∧ s.stopped = false ∧ s.coreReady x.core = true ∧ (s.core
      x.core).waiting = false ∧ x.err = none ∧ ∃ y a i, x.fetch = .fault y a i) ∧
    (∃ (s : State) (c : Instr) (x : Insn) (k : Chk), insnOf s c = some (x, k) ∧ c.wf = true ∧ s.stopped = false ∧ s.coreReady x.core = true ∧ (s.core
      x.core).waiting = false ∧ x.err = none ∧ x.fetch = .poison) ∧
    (∃ (s : State) (c : Instr) (x : Insn) (k : Chk), insnOf s c = some (x, k) ∧ c.wf = true ∧ s.stopped = false ∧ s.coreReady x.core = true ∧ (s.core
      x.core).waiting = false ∧ x.err = none ∧ ∃ u e, s.fetch x = (.trap e, u) ∧ (e.cause = cFetch ∨ e.cause = cPoison)) ∧
    (∃ (s : State) (c : Instr) (x : Insn) (k : Chk), insnOf s c = some (x, k) ∧ c.wf = true ∧ s.stopped = false ∧ s.coreReady x.core = true ∧ (s.core
      x.core).waiting = false ∧ x.err = none ∧ ∃ u, s.fetch x = (.ok (), u) ∧ validInsn x k = false) ∧
    (∃ (s : State) (c : Instr) (x : Insn) (k : Chk), insnOf s c = some (x, k) ∧ c.wf = true ∧ s.stopped = false ∧ s.coreReady x.core = true ∧ (s.core
      x.core).waiting = false ∧ x.err = none ∧ ∃ u, s.fetch x = (.ok (), u) ∧ validInsn x k = true ∧ u.pr x.core x.pred = x.neg) ∧
    (∃ (s : State) (c : Instr) (x : Insn) (k : Chk), insnOf s c = some (x, k) ∧ c.wf = true ∧ s.stopped = false ∧ s.coreReady x.core = true ∧ (s.core
      x.core).waiting = false ∧ x.err = none ∧ ∃ u, s.fetch x = (.ok (), u) ∧ validInsn x k = true ∧ u.pr x.core x.pred ≠ x.neg ∧ ∃ e, u.insnTrap x k
      = some e) ∧
    (∃ (s : State) (c : Instr) (x : Insn) (k : Chk), insnOf s c = some (x, k) ∧ c.wf = true ∧ s.stopped = false ∧ s.coreReady x.core = true ∧ (s.core
      x.core).waiting = false ∧ x.err = none ∧ x.fetch = .ok ∧ validInsn x k = true ∧ s.pr x.core x.pred = x.neg) :=
  ⟨by refine ⟨run, (.isync { insn 0 with fetch := .fault 128 64 64 }), ({ insn 0 with fetch := .fault 128 64 64 }), ({ gpr := false }), rfl, ?_, ?_, ?_, ?_, ?_,
  128, 64, 64, ?_⟩ <;> decide +kernel,
   ⟨run, (.isync { insn 0 with fetch := .poison }), ({ insn 0 with fetch := .poison }), ({ gpr := false }), rfl, by decide +kernel⟩,
   by refine ⟨run, (.isync { insn 0 with fetch := .fault 128 64 64 }), ({ insn 0 with fetch := .fault 128 64 64 }), ({ gpr := false }), rfl, ?_, ?_, ?_, ?_, ?_,
     run, ({ cause := cFetch, syn := 128, eva := 64, ipa := some 64 }), rfl, ?_⟩ <;> decide +kernel,
   by refine ⟨run, (.rdtime { insn 0 with valid := false } 1), ({ insn 0 with valid := false }), ({}), rfl, ?_, ?_, ?_, ?_, ?_, run, rfl, ?_⟩ <;> decide +kernel,
   by refine ⟨run, (.isync { insn 0 with neg := true }), ({ insn 0 with neg := true }), ({ gpr := false }), rfl, ?_, ?_, ?_, ?_, ?_, run, rfl, ?_⟩
     <;> decide +kernel,
   by refine ⟨(atLevel 0), (.icinvAll (insn 0)), (insn 0), ({ level := 1 }), rfl, ?_, ?_, ?_, ?_, ?_, (atLevel 0), rfl, ?_, ?_,
     ({ cause := cPriv, target := some 1 }), ?_⟩ <;> decide +kernel,
   ⟨run, (.isync { insn 0 with neg := true }), ({ insn 0 with neg := true }), ({ gpr := false }), rfl, by decide +kernel⟩⟩

/-- Inputs that meet the hypotheses of RegisterAndPredicateInstructionsComplete, one for each of its clauses. -/
theorem witness_RegisterAndPredicateInstructionsComplete :
    (∃ (s : State) (x : Insn) (op : CompOp) (rd : CompDst) (ra : List Reg) (rb : List PReg) (vec : List Reg), s.Executes x (compChk x op rd ra vec)) ∧
    (∃ (s : State) (x : Insn) (rd : Reg), s.Executes x {}) ∧
    (∃ (s : State) (x : Insn), s.Executes x { gpr := false }) ∧
    (∃ (s : State) (x : Insn) (pd pe : PReg) (ra rb : Reg) (cc : BitVec 4), s.Executes x
      { valid := decide (cc.toNat < 7) && !(decide (pd = pe) && decide (pd ≠ 0)) }) ∧
    (∃ (s : State) (x : Insn) (pd pe : PReg) (ra : Reg) (imm : Word) (cc : BitVec 4), s.Executes x
      { valid := decide (cc.toNat < 7) && !(decide (pd = pe) && decide (pd ≠ 0)) }) ∧
    (∃ (s : State) (x : Insn) (pd pa pb : PReg) (op : BitVec 2), s.Executes x { gpr := false }) ∧
    (∃ (s : State) (x : Insn) (rs : Reg) (mask : BitVec 16), s.Executes x {}) :=
  ⟨⟨run, (insn 0), comp0, ⟨[3], [], []⟩, ([1]), ([]), ([]), by unfold State.Executes; decide +kernel⟩,
   ⟨run, (insn 0), 31, by unfold State.Executes; decide +kernel⟩,
   ⟨run, (insn 0), by unfold State.Executes; decide +kernel⟩,
   ⟨run, (insn 0), 1, 2, 3, 4, 6, by unfold State.Executes; decide +kernel⟩,
   ⟨run, (insn 0), 0, 0, 3, 5, 6, by unfold State.Executes; decide +kernel⟩,
   ⟨run, (insn 0), 1, 1, 2, 3, by unfold State.Executes; decide +kernel⟩,
   ⟨run, (insn 0), 1, 0xFFFF, by unfold State.Executes; decide +kernel⟩⟩

/-- Inputs that meet the hypotheses of StateRegisterInstructionsComplete, one for each of its clauses. -/
theorem witness_StateRegisterInstructionsComplete :
    (∃ (s : State) (x : Insn) (rd : Reg) (sr : BitVec 12), s.Executes x { sys := s.srTrap x.core sr.toNat false } ∧ s.srReach x.core sr.toNat ≠ 0x434
      ∧ ((x.core < 216 ∨ s.srReach x.core sr.toNat ≠ 2))) ∧
    (∃ (s : State) (x : Insn) (rd : Reg), s.Executes x { sys := s.srTrap x.core 2 false } ∧ 216 ≤ x.core) ∧
    (∃ (s : State) (x : Insn) (rs : Reg) (sr : BitVec 12), s.Executes x { sys := s.srTrap x.core sr.toNat true } ∧ [0x001, 0x002, 0x011, 0x434, 0xD01,
      0x430].contains (s.srReach x.core sr.toNat) = false) ∧
    (∃ (s : State) (x : Insn) (rs : Reg) (sr : BitVec 12), s.Executes x { sys := s.srTrap x.core sr.toNat true } ∧ [0x001, 0x002, 0x011, 0x434,
      0xD01].contains (s.srReach x.core sr.toNat) = true) ∧
    (∃ (s : State) (x : Insn) (rs : Reg), s.Executes x { sys := s.srTrap x.core 0x441 true } ∧ s.srReach x.core 0x441 = 0x441 ∧ (s.src x rs).getLsbD 8
      = true) ∧
    (∃ (s : State) (x : Insn) (rd : Reg) (v : Nat), s.Executes x { sys := s.srTrap x.core 0x434 false } ∧ s.srReach x.core 0x434 = 0x434 ∧ v < 256 ∧
      (s.core x.core).ext.getLsbD v = true ∧ ((∀ w, w < v → (s.core x.core).ext.getLsbD w = false))) ∧
    (∃ (s : State) (x : Insn) (rd : Reg), s.Executes x { sys := s.srTrap x.core 0x434 false } ∧ s.srReach x.core 0x434 = 0x434 ∧ (s.core x.core).ext =
      0) ∧
    (∃ (s : State) (x : Insn) (rs : Reg), s.Executes x { sys := s.srTrap x.core 0x430 true } ∧ s.srReach x.core 0x430 = 0x430 ∧ (s.core x.core).sb =
      [] ∧ let v := (s.src x rs); let m := (bitsOf v 0 10 % 216); let there (j : Nat) : Prop := (s.coreOut j = false ∧ s.fon (kCoreId j)
      fCoreId_RETIRED = false); v.getLsbD 10 = false ∧ bitsOf v 0 10 / 216 = s.sock ∧ there m ∧ m ≠ x.core) ∧
    (∃ (s : State) (x : Insn) (rs : Reg), s.Executes x { sys := s.srTrap x.core 0x430 true } ∧ s.srReach x.core 0x430 = 0x430 ∧ (s.core x.core).sb =
      [] ∧ let v := (s.src x rs); let m := (bitsOf v 0 10 % 216); let there (j : Nat) : Prop := (s.coreOut j = false ∧ s.fon (kCoreId j)
      fCoreId_RETIRED = false); v.getLsbD 10 = false ∧ bitsOf v 0 10 / 216 = s.sock ∧ there m ∧ m = x.core) ∧
    (∃ (s : State) (x : Insn) (rs : Reg), s.Executes x { sys := s.srTrap x.core 0x430 true } ∧ s.srReach x.core 0x430 = 0x430 ∧ (s.core x.core).sb =
      [] ∧ let v := (s.src x rs); let m := (bitsOf v 0 10 % 216); let there (j : Nat) : Prop := (s.coreOut j = false ∧ s.fon (kCoreId j)
      fCoreId_RETIRED = false); v.getLsbD 10 = false ∧ bitsOf v 0 10 / 216 = s.sock ∧ ¬ there m) ∧
    (∃ (s : State) (x : Insn) (rs : Reg), s.Executes x { sys := s.srTrap x.core 0x430 true } ∧ s.srReach x.core 0x430 = 0x430 ∧ (s.core x.core).sb =
      [] ∧ let v := (s.src x rs); let others := ((s.plat.memmap.filter (fun k => k.kind = 7)).map (·.socket)); v.getLsbD 10 = false ∧ bitsOf v 0 10 /
      216 ≠ s.sock ∧ others.contains (bitsOf v 0 10 / 216) = true) ∧
    (∃ (s : State) (x : Insn) (rs : Reg), s.Executes x { sys := s.srTrap x.core 0x430 true } ∧ s.srReach x.core 0x430 = 0x430 ∧ (s.core x.core).sb =
      [] ∧ let v := (s.src x rs); let others := ((s.plat.memmap.filter (fun k => k.kind = 7)).map (·.socket)); v.getLsbD 10 = false ∧ bitsOf v 0 10 /
      216 ≠ s.sock ∧ others.contains (bitsOf v 0 10 / 216) = false) ∧
    (∃ (s : State) (x : Insn) (rs : Reg), s.Executes x { sys := s.srTrap x.core 0x430 true } ∧ s.srReach x.core 0x430 = 0x430 ∧ (s.core x.core).sb =
      [] ∧ let v := (s.src x rs); v.getLsbD 10 = true) ∧
    (∃ (s : State) (n : Nat) (tag : BitVec 6), wfCore n = true ∧ s.stopped = false ∧ (s.core n).released = true ∧ ((n < 216 → s.coreOut n = false))) :=
  ⟨⟨run, (insn 0), 1, 0x400, by unfold State.Executes; decide +kernel, by decide +kernel⟩,
   ⟨run, (insn 216), 1, by unfold State.Executes; decide +kernel, by decide +kernel⟩,
   ⟨run, (insn 0), 1, 0x400, by unfold State.Executes; decide +kernel, by decide +kernel⟩,
   ⟨run, (insn 0), 1, 0x011, by unfold State.Executes; decide +kernel, by decide +kernel⟩,
   ⟨(c1Is 0x100), (insn 0), 1, by unfold State.Executes; decide +kernel, by decide +kernel⟩,
   ⟨(core0 (fun kk => { kk with ext := 8 })), (insn 0), 1, 3, by unfold State.Executes; decide +kernel, by decide +kernel⟩,
   ⟨run, (insn 0), 1, by unfold State.Executes; decide +kernel, by decide +kernel⟩,
   ⟨(c1Is 1), (insn 0), 1, by unfold State.Executes; decide +kernel, by decide +kernel⟩,
   ⟨run, (insn 0), 1, by unfold State.Executes; decide +kernel, by decide +kernel⟩,
   ⟨((c1Is 1).fput (kCoreId 1) fCoreId_RETIRED 1), (insn 0), 1, by unfold State.Executes; decide +kernel, by decide +kernel⟩,
   ⟨(afar.setRegAt 0 1 0 217), (insn 0), 1, by unfold State.Executes; decide +kernel, by decide +kernel⟩,
   ⟨(c1Is 217), (insn 0), 1, by unfold State.Executes; decide +kernel, by decide +kernel⟩,
   ⟨(c1Is 0x400), (insn 0), 1, by unfold State.Executes; decide +kernel, by decide +kernel⟩,
   ⟨run, 1, 63, by decide +kernel⟩⟩

/-- Inputs that meet the hypotheses of TrapInstructionsComplete, one for each of its clauses. -/
theorem witness_TrapInstructionsComplete :
    (∃ (s : State) (x : Insn) (imm : BitVec 16), s.Executes x { gpr := false } ∧ s.freeFrames x.core ≠ 0) ∧
    (∃ (s : State) (x : Insn) (imm : BitVec 16), s.Executes x
      { gpr := false, undef := decide ((s.core x.core).level = 0) || (s.core x.core).darkW || decide (x.core ≥ 216) } ∧ s.freeFrames x.core ≠ 0) ∧
    (∃ (s : State) (x : Insn) (imm : BitVec 16), s.Executes x
      { gpr := false, undef := decide ((s.core x.core).level = 0) || decide (x.core ≥ 216) || !s.fon kWldCtl fWldCtl_MONEN } ∧ s.freeFrames x.core ≠
      0) ∧
    (∃ (s : State) (n code d l : Nat) (rest : List (Nat × Nat)), wfCore n = true ∧ s.stopped = false ∧ s.coreReady n = true ∧ (s.core n).waiting =
      false ∧ s.midInsn n = false ∧ s.freeFrames n ≠ 0 ∧ s.irqs n = (code, d) :: rest ∧ s.irqLevel n = some l) :=
  ⟨⟨run, (insn 0), 7, by unfold State.Executes; decide +kernel, by decide +kernel⟩,
   ⟨run, (insn 0), 7, by unfold State.Executes; decide +kernel, by decide +kernel⟩,
   ⟨(run.fput kWldCtl fWldCtl_MONEN 1), (insn 0), 7, by unfold State.Executes; decide +kernel, by decide +kernel⟩,
   ⟨(core0 (fun kk => { kk.setSr 0x400 0 with ext := 8 })), 0, 3, 3, 1, ([]), by decide +kernel⟩⟩

/-- Inputs that meet the hypotheses of WaitAndReturnComplete, one for each of its clauses. -/
theorem witness_WaitAndReturnComplete :
    (∃ (s : State) (n : Nat), wfCore n = true ∧ s.stopped = false ∧ s.timerIrq n = true ∧ (s.core n).released = true ∧ s.wakeHeld n = false ∧ (s.core
      n).waiting = true ∧ ((n ≥ 216 ∨ s.cstate n = 0))) ∧
    (∃ (s : State) (x : Insn), s.Executes x { gpr := false, level := 1 } ∧ (s.core x.core).sb = [] ∧ s.irq x.core = true) ∧
    (∃ (s : State) (x : Insn), s.Executes x { gpr := false, level := 1 } ∧ (s.core x.core).sb = [] ∧ s.irq x.core = false ∧ ((x.core ≥ 216 ∨ (s.core
      x.core).darkW = true))) ∧
    (∃ (s : State) (x : Insn), s.Executes x { gpr := false, level := 1 } ∧ (s.core x.core).sb = [] ∧ s.irq x.core = false ∧ x.core < 216 ∧ (s.core
      x.core).darkW = false ∧ s.fget (kPwrCctl x.core) fPwrCctl_WFIC ≠ 2) ∧
    (∃ (s : State) (x : Insn), s.Executes x { gpr := false, level := 1 } ∧ (s.core x.core).sb = [] ∧ s.irq x.core = false ∧ x.core < 216 ∧ (s.core
      x.core).darkW = false ∧ s.fget (kPwrCctl x.core) fPwrCctl_WFIC = 2 ∧ (s.core x.core).caches.l2 = [] ∧ s.home.wbuf = [] ∧ s.home.evq = []) ∧
    (∃ (s : State) (x : Insn), let c := (s.core x.core); let b := (excBase x.core c.level c.darkW); let es := (c.srv (b + 1)); s.Executes x
      { gpr := false, level := 1 } ∧ 1 ≤ c.level ∧ es.toNat % 4 ≤ c.level ∧ ((c.level = 3 → es.toNat % 4 = 3 ∨ (es.toNat % 4 < 2 ∧ (c.srv
      0xD00).getLsbD 0 = true))) ∧ 3 ≤ s.resident x.core) ∧
    (∃ (s : State) (x : Insn), let c := (s.core x.core); let es := (c.srv 0xC21); s.Executes x { gpr := false, level := 1 } ∧ c.level = 3 ∧ es.toNat %
      4 < 3 ∧ (c.srv 0xD00).getLsbD 0 = false ∧ s.sealedCore x.core = false ∧ 3 ≤ s.resident x.core) :=
  ⟨⟨(core0 (fun kk => { kk.setSr 0x432 0 with waiting := true })), 0, by decide +kernel⟩,
   ⟨(core0 (fun kk => { kk with ext := 8 })), (insn 0), by unfold State.Executes; decide +kernel, by decide +kernel⟩,
   ⟨run, (insn 216), by unfold State.Executes; decide +kernel, by decide +kernel⟩,
   ⟨run, (insn 0), by unfold State.Executes; decide +kernel, by decide +kernel⟩,
   ⟨(run.fput (kPwrCctl 0) fPwrCctl_WFIC 2), (insn 0), by unfold State.Executes; decide +kernel, by decide +kernel⟩,
   ⟨(core0 (fun kk => { kk with oldest := 15 })), (insn 0), by unfold State.Executes; decide +kernel, by decide +kernel⟩,
   ⟨(core0 (fun kk => { kk.setSr 0x400 0x80000003 with oldest := 15 })), (insn 0), by unfold State.Executes; decide +kernel, by decide +kernel⟩⟩

/-- Inputs that meet the hypotheses of CallSlidesTheWindow, one for each of its clauses. -/
theorem witness_CallSlidesTheWindow :
    (∃ (s u : State) (x : Insn) (c : Instr) (tgt : Word), x.core < 216 ∧ (((∃ disp, c = .call x disp ∧ tgt = (s.core x.core).pc + disp ∧ s.Executes x
      { gpr := false }) ∨ (∃ rs, c = .callr x rs ∧ tgt = s.src x rs ∧ s.Executes x {}))) ∧ ((3 ≤ s.freeFrames x.core → u = s)) ∧ ((s.freeFrames x.core
      < 3 → State.spillUntil (frames x.core) s x.core 3 = (.ok (), u)))) ∧
    (∃ (s u : State) (x : Insn), x.core < 216 ∧ s.Executes x { gpr := false } ∧ s.needParent x.core = (.ok (), u)) :=
  ⟨⟨run, _, (insn 0), (.call (insn 0) 16), 16, by decide +kernel, .inl ⟨16, rfl, by decide +kernel, by unfold State.Executes; decide +kernel⟩, fun _ => rfl, fun h
  => absurd h (by decide +kernel)⟩,
   ⟨run, _, (insn 0), by decide +kernel, by unfold State.Executes; decide +kernel, pair_eq (got_ok (by decide +kernel))⟩⟩

/-- Inputs that meet the hypotheses of WindowInstructionsComplete, one for each of its clauses. -/
theorem witness_WindowInstructionsComplete :
    (∃ (s u : State) (x : Insn) (disp : Word), s.Executes x { gpr := false } ∧ State.spillUntil (frames x.core) s x.core 3 = (.ok (), u)) ∧
    (∃ (s : State) (x : Insn) (disp : Word), s.Executes x { gpr := false } ∧ 3 ≤ s.freeFrames x.core) ∧
    (∃ (s u : State) (x : Insn) (rs : Reg), s.Executes x {} ∧ State.spillUntil (frames x.core) s x.core 3 = (.ok (), u)) ∧
    (∃ (s : State) (x : Insn) (rs : Reg), s.Executes x {} ∧ 3 ≤ s.freeFrames x.core) ∧
    (∃ (s u : State) (x : Insn), s.Executes x { gpr := false } ∧ s.needParent x.core = (.ok (), u)) ∧
    (∃ (s : State) (x : Insn), s.Executes x { gpr := false } ∧ 3 ≤ s.resident x.core) ∧
    (∃ (s : State) (x : Insn), s.Executes x { gpr := false } ∧ 2 ≤ s.freeFrames x.core) ∧
    (∃ (s u : State) (x : Insn), s.Executes x { gpr := false } ∧ s.freeFrames x.core = 1 ∧ s.spill x.core = (.ok (), u) ∧ 2 ≤ u.freeFrames x.core) ∧
    (∃ (s u : State) (x : Insn) (level : BitVec 2) (upto : Option Nat), s.Executes x { gpr := false, sys := s.flushTrap x.core level.toNat } ∧
      State.flushFrames (frames x.core) s x.core level.toNat (upto.getD (frames x.core)) = (.ok true, u)) ∧
    (∃ (s : State) (x : Insn) (level : BitVec 2) (upto : Option Nat), s.Executes x { gpr := false, sys := s.flushTrap x.core level.toNat } ∧ ((∀ k, k
      < s.resident x.core → (s.core x.core).owner (((s.core x.core).oldest + k) % frames x.core) / 2 ≠ level.toNat))) ∧
    (∃ (s : State) (x : Insn) (rd rs : Reg), s.Executes x {} ∧ 3 ≤ s.resident x.core) :=
  ⟨⟨run, _, (insn 0), 16, by unfold State.Executes; decide +kernel, pair_eq (got_ok (by decide +kernel))⟩,
   ⟨run, (insn 0), 16, by unfold State.Executes; decide +kernel, by decide +kernel⟩,
   ⟨run, _, (insn 0), 1, by unfold State.Executes; decide +kernel, pair_eq (got_ok (by decide +kernel))⟩,
   ⟨run, (insn 0), 1, by unfold State.Executes; decide +kernel, by decide +kernel⟩,
   ⟨run, _, (insn 0), by unfold State.Executes; decide +kernel, pair_eq (got_ok (by decide +kernel))⟩,
   ⟨(core0 (fun kk => { kk with oldest := 14 })), (insn 0), by unfold State.Executes; decide +kernel, by decide +kernel⟩,
   ⟨run, (insn 0), by unfold State.Executes; decide +kernel, by decide +kernel⟩,
   ⟨spilling, _, (insn 0), by unfold State.Executes; decide +kernel, by decide +kernel, pair_eq (got_ok (by decide +kernel)), by decide +kernel⟩,
   ⟨run, _, (insn 0), 0, none, by unfold State.Executes; decide +kernel, pair_eq (got_ok (by decide +kernel))⟩,
   ⟨run, (insn 0), 0, none, by unfold State.Executes; decide +kernel, by decide +kernel⟩,
   ⟨(core0 (fun kk => { kk with oldest := 15 })), (insn 0), 1, 2, by unfold State.Executes; decide +kernel, by decide +kernel⟩⟩

/-- Inputs that meet the hypotheses of MemoryInstructionsComplete, one for each of its clauses. -/
theorem witness_MemoryInstructionsComplete :
    (∃ (s : State) (x : Insn) (m : MemOp) (l : Xlat) (k : Sector), s.Executes x (loadChk x m) ∧ m.wf = true ∧ m.spec = false ∧ x.core < 216 ∧
      s.Ordered x ∧ let n := (x.core); let va := ((s.src x m.ra + m.off).toNat); s.Translates n 0 va l ∧ l.type = 0 ∧ va % 4096 + m.size ≤ 4096 ∧
      l.hpa % 64 + m.size ≤ 64 ∧ s.Cacheable (l.hpa / 64) ∧ s.amoPending n (l.hpa / 64) = false ∧ (s.core n).caches.l1Sector (l.hpa / 64) = some k ∧
      (((s.core n).darkW = true ∨ k.dark = false)) ∧ k.poison = false) ∧
    (∃ (s v u : State) (x : Insn) (m : MemOp) (b : List Byte), s.Executes x (loadChk x m) ∧ m.wf = true ∧ m.spec = false ∧ m.vec = false ∧ s.ordFirst
      x = (.ok (), v) ∧ v.ldVa x.core (v.src x m.ra + m.off).toNat m.size = (.ok b, u) ∧ u.pending = s.pending) ∧
    (∃ (s v u : State) (x : Insn) (m : MemOp) (b : List Byte), s.Executes x (loadChk x m) ∧ m.wf = true ∧ m.spec = false ∧ m.vec = true ∧ s.ordFirst x
      = (.ok (), v) ∧ v.ldVa x.core (v.src x m.ra + m.off).toNat m.size = (.ok b, u)) ∧
    (∃ (s : State) (x : Insn) (m : MemOp) (l : Xlat), s.Executes x (storeChk x m) ∧ m.wf = true ∧ m.spec = false ∧ x.core < 216 ∧ let n := (x.core);
      let va := ((s.src x m.ra + m.off).toNat); s.Translates n 1 va l ∧ va % 4096 + m.size ≤ 4096 ∧ l.hpa % 64 + m.size ≤ 64 ∧ s.Cacheable (l.hpa /
      64)) ∧
    (∃ (s u : State) (x : Insn) (m : MemOp), s.Executes x (storeChk x m) ∧ m.wf = true ∧ m.spec = false ∧ s.stVa x.core (s.src x m.ra + m.off).toNat
      (if m.vec then lineBytes (s.vreg x.core m.reg) else leBytes m.size (s.src x m.reg).toNat) (decide (x.kind = 2)) (decide (x.scope = 2)) = (.ok
      (), u)) ∧
    (∃ (s : State) (x : Insn) (m : MemOp), x.wf = true ∧ m.wf = true ∧ s.stopped = false ∧ m.spec = true) ∧
    (∃ (s u : State) (x : Insn) (set : BitVec 4) (scope : BitVec 2), s.Executes x { gpr := false } ∧ set ≠ 0 ∧ scope ≠ 3 ∧ (((set.getLsbD 2 ||
      set.getLsbD 3) = true → s.sbEmpty x.core = (.ok (), u) ∧ (scope = 2 → u.home.wbuf.any (fun w => decide (w.core = some x.core)) = false))) ∧
      (((set.getLsbD 2 || set.getLsbD 3) = false → u = s))) ∧
    (∃ (s : State) (x : Insn) (set : BitVec 4) (scope : BitVec 2), s.Executes x { gpr := false } ∧ set ≠ 0 ∧ scope ≠ 3 ∧ (((set.getLsbD 2 ||
      set.getLsbD 3) = true → (s.core x.core).sb = [] ∧ (scope = 2 → s.home.wbuf.any (fun w => decide (w.core = some x.core)) = false)))) ∧
    (∃ (s : State) (n : Nat), wfCore n = true ∧ s.stopped = false ∧ (s.core n).fabric.any (fun t => (s.fabOut t).isSome) = false) ∧
    (∃ (s : State) (n : Nat), wfCore n = true ∧ s.stopped = false ∧ (s.core n).fabric.any (fun t => (s.fabOut t).isSome) = true) ∧
    (∃ (s u : State) (x : Insn), s.Executes x { gpr := false, level := 1 } ∧ s.sbEmpty x.core = (.ok (), u)) ∧
    (∃ (s : State) (x : Insn), s.Executes x { gpr := false, level := 1 } ∧ (s.core x.core).sb = []) :=
  ⟨⟨inL1, (insn 0), ⟨1, 0, 8, false, false, 2, false⟩, xl0, sec0, by unfold State.Executes; decide +kernel, by decide +kernel, by decide +kernel,
  by decide +kernel, by unfold State.Ordered; decide +kernel, translates (by decide +kernel), by decide +kernel, by decide +kernel, by decide +kernel,
  by unfold State.Cacheable; decide +kernel, by decide +kernel⟩,
   ⟨inL1, _, _, (insn 0), ⟨1, 0, 8, false, false, 2, false⟩, (List.replicate 8 0), by unfold State.Executes; decide +kernel, by decide +kernel,
     by decide +kernel, by decide +kernel, pair_eq (got_ok (by decide +kernel)), pair_eq (got_ok (by decide +kernel)), by decide +kernel⟩,
   ⟨(inL1.setCore 0 ((inL1.core 0).setSr 0x400 0x202)), _, _, (insn 0), ⟨1, 0, 64, false, true, 2, false⟩, (List.replicate 64 0),
     by unfold State.Executes; decide +kernel, by decide +kernel, by decide +kernel, by decide +kernel, pair_eq (got_ok (by decide +kernel)), pair_eq (got_ok
     (by decide +kernel))⟩,
   ⟨mapped, (insn 0), ⟨1, 0, 8, false, false, 2, false⟩, xl0, by unfold State.Executes; decide +kernel, by decide +kernel, by decide +kernel, by decide +kernel,
     translates (by decide +kernel), by decide +kernel, by decide +kernel, by unfold State.Cacheable; decide +kernel⟩,
   ⟨mapped, _, (insn 0), ⟨1, 0, 8, false, false, 2, false⟩, by unfold State.Executes; decide +kernel, by decide +kernel, by decide +kernel, pair_eq (got_ok
     (by decide +kernel))⟩,
   ⟨run, (insn 0), ⟨1, 0, 8, false, false, 2, true⟩, by decide +kernel⟩,
   ⟨run, _, (insn 0), 15, 2, by unfold State.Executes; decide +kernel, by decide +kernel, by decide +kernel, (fun _ => ⟨pair_eq (got_ok (by decide +kernel)),
     fun _ => by decide +kernel⟩), (fun h => absurd h (by decide))⟩,
   ⟨run, (insn 0), 15, 2, by unfold State.Executes; decide +kernel, by decide +kernel⟩,
   ⟨(core0 (fun kk => { kk with fabric := [5] })), 0, by decide +kernel⟩,
   ⟨fabOpen, 0, by decide +kernel⟩,
   ⟨run, _, (insn 0), by unfold State.Executes; decide +kernel, pair_eq (got_ok (by decide +kernel))⟩,
   ⟨run, (insn 0), by unfold State.Executes; decide +kernel, by decide +kernel⟩⟩

/-- Inputs that meet the hypotheses of AtomicInstructionsComplete, one for each of its clauses. -/
theorem witness_AtomicInstructionsComplete :
    (∃ c, c ∈ [(Instr.amoSwap, AmoOp.swap), (.amoAdd, .add), (.amoAnd, .and), (.amoOr, .or), (.amoXor, .xor), (.amoMin, .min), (.amoMax, .max),
      (.amoUmin, .umin), (.amoUmax, .umax)] ∧ ∃ (s : State) (x : Insn) (rd ra rv : Reg) (hint : BitVec 2) (sz : Bool), let n := (x.core); let size :=
      (if sz then 4 else 8); let va := ((s.src x ra).toNat); s.Executes x
      { valid := decide (hint ≠ 3), ord := true, align := s.alignEarly x ra ra size } ∧ va % size = 0 ∧ s.Ordered x ∧ ∃ (l : Xlat) (k : CLine),
      s.Translates n 3 va l ∧ l.type = 0 ∧ s.lineKind (l.hpa / 64) = .tiered ∧ (s.core n).sb = [] ∧ s.goesFar n (l.hpa / 64) l.type hint.toNat = false
      ∧ s.Owns n (l.hpa / 64) k) ∧
    (∃ c, c ∈ [(Instr.amoSwap, AmoOp.swap), (.amoAdd, .add), (.amoAnd, .and), (.amoOr, .or), (.amoXor, .xor), (.amoMin, .min), (.amoMax, .max),
      (.amoUmin, .umin), (.amoUmax, .umax)] ∧ ∃ (s : State) (x : Insn) (rd ra rv : Reg) (hint : BitVec 2) (sz : Bool), let n := (x.core); let size :=
      (if sz then 4 else 8); let va := ((s.src x ra).toNat); s.Executes x
      { valid := decide (hint ≠ 3), ord := true, align := s.alignEarly x ra ra size } ∧ va % size = 0 ∧ s.Ordered x ∧ ∃ (l : Xlat), x.core < 216 ∧ rd
      = 0 ∧ x.kind.getLsbD 0 = false ∧ s.Translates n 3 va l ∧ l.type < 2 ∧ s.Cacheable (l.hpa / 64) ∧ (s.core n).sb = [] ∧ s.goesFar n (l.hpa / 64)
      l.type hint.toNat = true) ∧
    (∃ c, c ∈ [(Instr.amoSwap, AmoOp.swap), (.amoAdd, .add), (.amoAnd, .and), (.amoOr, .or), (.amoXor, .xor), (.amoMin, .min), (.amoMax, .max),
      (.amoUmin, .umin), (.amoUmax, .umax)] ∧ ∃ (s : State) (x : Insn) (rd ra rv : Reg) (hint : BitVec 2) (sz : Bool), let size := (if sz then 4 else
      8); let va := ((s.src x ra).toNat); s.Executes x { valid := decide (hint ≠ 3), ord := true, align := s.alignEarly x ra ra size } ∧ va % size = 0
      ∧ s.Ordered x ∧ ∃ (u : State) (old : Nat), (s.atomicVa x va c.2 size (s.src x rv).toNat 0 hint.toNat (decide (rd = 0) && decide (x.kind = 0 ∨
      x.kind = 2)) = (.ok old, u)) ∧ u.pending = s.pending) ∧
    (∃ (s : State) (x : Insn) (rd ra rexp rnew : Reg) (hint : BitVec 2), let n := (x.core); let va := ((s.src x ra).toNat); s.Executes x
      { valid := decide (hint ≠ 3), ord := true, align := s.alignEarly x ra ra 8 } ∧ va % 8 = 0 ∧ s.Ordered x ∧ ∃ (l : Xlat) (k : CLine), s.Translates
      n 3 va l ∧ l.type = 0 ∧ s.lineKind (l.hpa / 64) = .tiered ∧ (s.core n).sb = [] ∧ s.goesFar n (l.hpa / 64) l.type hint.toNat = false ∧ s.Owns n
      (l.hpa / 64) k) ∧
    (∃ (s : State) (x : Insn) (rd ra rexp rnew : Reg) (hint : BitVec 2), let va := ((s.src x ra).toNat); s.Executes x
      { valid := decide (hint ≠ 3), ord := true, align := s.alignEarly x ra ra 8 } ∧ va % 8 = 0 ∧ s.Ordered x ∧ ∃ (u : State) (old : Nat), s.atomicVa
      x va .cas 8 (s.src x rnew).toNat (s.src x rexp).toNat hint.toNat false = (.ok old, u) ∧ u.pending = s.pending) ∧
    (∃ (s : State) (x : Insn) (rd ra rexp rnew : Reg) (hint : BitVec 2), let n := (x.core); let va := ((s.src x ra).toNat); s.Executes x
      { valid := decide (hint ≠ 3), ord := true, align := s.alignEarly x ra ra 16 } ∧ va % 16 = 0 ∧ s.Ordered x ∧ n < 216 ∧ (s.rd kMgtEffcap).getLsbD
      17 = true ∧ rd.toNat % 2 = 0 ∧ ra.toNat % 2 = 0 ∧ rexp.toNat % 2 = 0 ∧ rnew.toNat % 2 = 0 ∧ ∃ (l : Xlat) (k : CLine), s.Translates n 3 va l ∧
      l.type = 0 ∧ s.lineKind (l.hpa / 64) = .tiered ∧ (s.core n).sb = [] ∧ s.goesFar n (l.hpa / 64) l.type hint.toNat = false ∧ s.Owns n (l.hpa / 64)
      k) ∧
    (∃ (s : State) (x : Insn) (rd ra rexp rnew : Reg) (hint : BitVec 2), let n := (x.core); let va := ((s.src x ra).toNat); let new := ((s.src x
      rnew).toNat + (s.src x (rnew + 1)).toNat * 2 ^ 64); let exp := ((s.src x rexp).toNat + (s.src x (rexp + 1)).toNat * 2 ^ 64); s.Executes x
      { valid := decide (hint ≠ 3), ord := true, align := s.alignEarly x ra ra 16 } ∧ va % 16 = 0 ∧ s.Ordered x ∧ n < 216 ∧ (s.rd kMgtEffcap).getLsbD
      17 = true ∧ rd.toNat % 2 = 0 ∧ ra.toNat % 2 = 0 ∧ rexp.toNat % 2 = 0 ∧ rnew.toNat % 2 = 0 ∧ ∃ (u : State) (old : Nat), s.atomicVa x va .cas128
      16 new exp hint.toNat false = (.ok old, u) ∧ u.pending = s.pending) :=
  ⟨by refine ⟨(Instr.amoSwap, AmoOp.swap), by simp, owned, (insn 0), 1, 2, 3, 0, false, by unfold State.Executes; decide +kernel, ?_,
  by unfold State.Ordered; decide +kernel, xl0, lineM, translates (by decide +kernel), ?_, ?_, ?_, ?_, by unfold State.Owns; decide +kernel⟩ <;> decide +kernel,
   ⟨(Instr.amoSwap, AmoOp.swap), by simp, owned, (insn 0), 0, 2, 3, 2, false, by unfold State.Executes; decide +kernel, by decide +kernel,
     by unfold State.Ordered; decide +kernel, xl0, by decide +kernel, by decide +kernel, by decide +kernel, translates (by decide +kernel), by decide +kernel,
     by unfold State.Cacheable; decide +kernel, by decide +kernel⟩,
   ⟨(Instr.amoSwap, AmoOp.swap), by simp, owned, (insn 0), 1, 2, 3, 0, false, by unfold State.Executes; decide +kernel, by decide +kernel,
     by unfold State.Ordered; decide +kernel, _, 0, pair_eq (got_ok (by decide +kernel)), by decide +kernel⟩,
   by refine ⟨owned, (insn 0), 1, 2, 3, 4, 0, by unfold State.Executes; decide +kernel, ?_, by unfold State.Ordered; decide +kernel, xl0, lineM, translates
     (by decide +kernel), ?_, ?_, ?_, ?_, by unfold State.Owns; decide +kernel⟩ <;> decide +kernel,
   ⟨owned, (insn 0), 1, 2, 3, 4, 0, by unfold State.Executes; decide +kernel, by decide +kernel, by unfold State.Ordered; decide +kernel, _, 0, pair_eq (got_ok
     (by decide +kernel)), by decide +kernel⟩,
   by refine ⟨(owned.wr kMgtEffcap 0x20000), (insn 0), 2, 4, 6, 8, 0, by unfold State.Executes; decide +kernel, ?_, by unfold State.Ordered; decide +kernel, ?_,
     ?_, ?_, ?_, ?_, ?_, xl0, lineM, translates (by decide +kernel), ?_, ?_, ?_, ?_, by unfold State.Owns; decide +kernel⟩ <;> decide +kernel,
   by refine ⟨(owned.wr kMgtEffcap 0x20000), (insn 0), 2, 4, 6, 8, 0, by unfold State.Executes; decide +kernel, ?_, by unfold State.Ordered; decide +kernel, ?_,
     ?_, ?_, ?_, ?_, ?_, _, 0, pair_eq (got_ok (by decide +kernel)), ?_⟩ <;> decide +kernel⟩

/-- Inputs that meet the hypotheses of NearAtomicUpdatesLine, one for each of its clauses. -/
theorem witness_NearAtomicUpdatesLine :
    (∃ (s : State) (n : Nat) (x : Xlat) (op : AmoOp) (size operand compare : Nat) (l : CLine), s.Owns n (x.hpa / 64) l) :=
  ⟨owned, 0, xl0, .swap, 8, 0, 0, lineM, by unfold State.Owns; decide +kernel⟩

/-- Inputs that meet the hypotheses of AtomicArithmetic, one for each of its clauses. -/
theorem witness_AtomicArithmetic :
    (∃ (n : Nat), (n = 4 ∨ n = 8)) :=
  ⟨8, by decide +kernel⟩

/-- Inputs that meet the hypotheses of CacheMaintenanceComplete, one for each of its clauses. -/
theorem witness_CacheMaintenanceComplete :
    (∃ c, c ∈ [(Instr.cmoClean, CmoOp.clean, 0), (.cmoInval, .inval, 1), (.cmoCleaninv, .cleaninv, 0), (.cmoZero, .zero, 0)] ∧ ∃ (s : State) (x :
      Insn) (ra : Reg), s.Executes x { level := c.2.2 } ∧ ∃ u, s.cmoVa x.core c.2.1 (s.src x ra).toNat = (.ok (), u)) ∧
    (∃ c, c ∈ [(Instr.cmoClean, CmoOp.clean, 0), (.cmoInval, .inval, 1), (.cmoCleaninv, .cleaninv, 0), (.cmoZero, .zero, 0)] ∧ ∃ (s : State) (x :
      Insn) (ra : Reg), s.Executes x { level := c.2.2 } ∧ ∃ l, s.Translates x.core c.2.1.acc (s.src x ra).toNat l ∧ l.type ≠ 0) ∧
    (∃ c, c ∈ [(Instr.cmoClean, CmoOp.clean, 0), (.cmoInval, .inval, 1), (.cmoCleaninv, .cleaninv, 0), (.cmoZero, .zero, 0)] ∧ ∃ (s : State) (x :
      Insn) (ra : Reg), s.Executes x { level := c.2.2 } ∧ ∃ l, c.2.1 ≠ .zero ∧ s.Translates x.core c.2.1.acc (s.src x ra).toNat l ∧ l.type = 0 ∧
      x.core < 216 ∧ (s.core x.core).sb = [] ∧ s.missAt x.core (l.hpa / 64) = false ∧ s.Quiet (l.hpa / 64) ∧ ((s.coreDark x.core = true ∨ s.ownDark
      (l.hpa / 64 * 64) = false)) ∧ (s.core x.core).caches.l2Find (l.hpa / 64) = none) ∧
    (∃ (s : State) (x : Insn) (ra : Reg) (l : Xlat) (e : CLine), s.Executes x {} ∧ s.Translates x.core 1 (s.src x ra).toNat l ∧ l.type = 0 ∧
      s.Cacheable (l.hpa / 64) ∧ (s.core x.core).sb = [] ∧ s.missAt x.core (l.hpa / 64) = false ∧ s.Owns x.core (l.hpa / 64) e) ∧
    (∃ c, c ∈ [(Instr.cmorClean, CmoOp.clean, 0), (.cmorInval, .inval, 1), (.cmorCleaninv, .cleaninv, 0)] ∧ ∃ (s : State) (x : Insn) (ra rn : Reg),
      s.Executes x { level := c.2.2, align := s.alignEarly x ra rn 64 } ∧ (s.src x ra).toNat % 64 = 0 ∧ (s.src x rn).toNat % 64 = 0 ∧ ∃ u,
      State.cmorLoop ((s.src x rn).toNat / 64) s x c.2.1 ra rn = (.ok (), u)) ∧
    (∃ c, c ∈ [(Instr.cmorClean, CmoOp.clean, 0), (.cmorInval, .inval, 1), (.cmorCleaninv, .cleaninv, 0)] ∧ ∃ (s : State) (x : Insn) (ra rn : Reg),
      s.Executes x { level := c.2.2, align := s.alignEarly x ra rn 64 } ∧ (s.src x ra).toNat % 64 = 0 ∧ (s.src x rn).toNat % 64 = 0 ∧ ra ≠ 0 ∧ rn ≠ 0
      ∧ ra ≠ rn ∧ ((∀ i, i < (s.src x rn).toNat / 64 → ∃ l, s.Translates x.core c.2.1.acc (s.src x ra + BitVec.ofNat 64 (64 * i)).toNat l ∧ l.type ≠
      0))) ∧
    (∃ c, c ∈ [(Instr.cmorClean, CmoOp.clean, 0), (.cmorInval, .inval, 1), (.cmorCleaninv, .cleaninv, 0)] ∧ ∃ (s : State) (x : Insn) (ra rn : Reg),
      s.Executes x { level := c.2.2, align := s.alignEarly x ra rn 64 } ∧ (s.src x ra).toNat % 64 = 0 ∧ (s.src x rn).toNat % 64 = 0 ∧ ∃ l, ra ≠ 0 ∧ rn
      ≠ 0 ∧ ra ≠ rn ∧ s.src x rn = 64 ∧ s.Translates x.core c.2.1.acc (s.src x ra).toNat l ∧ l.type = 0 ∧ x.core < 216 ∧ (s.core x.core).sb = [] ∧
      s.missAt x.core (l.hpa / 64) = false ∧ s.Quiet (l.hpa / 64) ∧ ((s.coreDark x.core = true ∨ s.ownDark (l.hpa / 64 * 64) = false)) ∧ (s.core
      x.core).caches.l2Find (l.hpa / 64) = none) ∧
    (∃ (s u : State) (x : Insn) (ra : Reg) (l : Xlat), s.Executes x {} ∧ s.xlSelf x.core 0 (s.src x ra).toNat = (.ok l, u)) ∧
    (∃ (s : State) (x : Insn) (ra : Reg) (l : Xlat), s.Executes x {} ∧ s.Translates x.core 0 (s.src x ra).toNat l) ∧
    (∃ (s : State) (x : Insn), s.Executes x { level := 1 }) :=
  ⟨⟨(Instr.cmoZero, CmoOp.zero, 0), by simp, owned, (insn 0), 1, by unfold State.Executes; decide +kernel, _, pair_eq (got_ok (by decide +kernel))⟩,
   ⟨(Instr.cmoClean, CmoOp.clean, 0), by simp, mappedDev, (insn 0), 1, by unfold State.Executes; decide +kernel, xlDev, translates (by decide +kernel),
     by decide +kernel⟩,
   by refine ⟨(Instr.cmoClean, CmoOp.clean, 0), by simp, mapped, (insn 0), 1, by unfold State.Executes; decide +kernel, xl0, ?_, translates (by decide +kernel),
     ?_, ?_, ?_, ?_, by unfold State.Quiet State.Cacheable; decide +kernel, ?_⟩ <;> decide +kernel,
   ⟨owned, (insn 0), 1, xl0, lineM, by unfold State.Executes; decide +kernel, translates (by decide +kernel), by decide +kernel,
     by unfold State.Cacheable; decide +kernel, by decide +kernel, by decide +kernel, by unfold State.Owns; decide +kernel⟩,
   ⟨(Instr.cmorClean, CmoOp.clean, 0), by simp, mapped, (insn 0), 1, 2, by unfold State.Executes; decide +kernel, by decide +kernel, by decide +kernel, _,
     pair_eq (got_ok (by decide +kernel))⟩,
   by refine ⟨(Instr.cmorClean, CmoOp.clean, 0), by simp, (mappedDev.setRegAt 0 2 0 64), (insn 0), 1, 2, by unfold State.Executes; decide +kernel, ?_, ?_, ?_,
     ?_, ?_, one_each (by decide +kernel) ⟨xlDev, translates (by decide +kernel), by decide⟩⟩ <;> decide +kernel,
   by refine ⟨(Instr.cmorClean, CmoOp.clean, 0), by simp, (mapped.setRegAt 0 2 0 64), (insn 0), 1, 2, by unfold State.Executes; decide +kernel, ?_, ?_, xl0, ?_,
     ?_, ?_, ?_, translates (by decide +kernel), ?_, ?_, ?_, ?_, by unfold State.Quiet State.Cacheable; decide +kernel, ?_⟩ <;> decide +kernel,
   ⟨mapped, _, (insn 0), 1, xl0, by unfold State.Executes; decide +kernel, pair_eq (got_ok (by decide +kernel))⟩,
   ⟨mapped, (insn 0), 1, xl0, by unfold State.Executes; decide +kernel, translates (by decide +kernel)⟩,
   ⟨run, (insn 0), by unfold State.Executes; decide +kernel⟩⟩

/-- Inputs that meet the hypotheses of CacheRequestsComplete, one for each of its clauses. -/
theorem witness_CacheRequestsComplete :
    (∃ (s : State) (n hpa key : Nat), n < 216 ∧ hpa < 2 ^ 52 ∧ key < 16384 ∧ s.stopped = false ∧ s.coreReady n = true ∧ (s.core n).waiting = false ∧
      s.Cacheable (hpa / 64) ∧ s.fon (kL2cCtl n) fL2cCtl_PFEN = true ∧ (s.core n).caches.l2Find (hpa / 64) = none) ∧
    (∃ (s : State) (n hpa key : Nat), n < 216 ∧ hpa < 2 ^ 52 ∧ key < 16384 ∧ s.stopped = false ∧ s.coreReady n = true ∧ (s.core n).waiting = false ∧
      s.Cacheable (hpa / 64) ∧ s.fon (kL1cCtl n) fL1cCtl_PFEN = true ∧ (s.core n).caches.hasSector (hpa / 64) = false ∧ ∃ l, (s.core n).caches.current
      (hpa / 64) = some l ∧ seen l (s.core n).darkW = true) ∧
    (∃ (s : State) (n hpa key : Nat), n < 216 ∧ hpa < 2 ^ 52 ∧ key < 16384 ∧ s.stopped = false ∧ s.coreReady n = true ∧ (s.core n).waiting = false ∧
      s.Cacheable (hpa / 64) ∧ s.fon (kL1cCtl n) fL1cCtl_PFEN = true ∧ (s.core n).caches.hasSector (hpa / 64) = false ∧ ∃ l, (s.core n).caches.current
      (hpa / 64) = some l ∧ seen l (s.core n).darkW = true ∧ s.fon (kL1cCtl n) fL1cCtl_SBEN = true) ∧
    (∃ (s : State) (n hpa key : Nat), n < 216 ∧ hpa < 2 ^ 52 ∧ key < 16384 ∧ s.stopped = false ∧ s.coreReady n = true ∧ (s.core n).waiting = false ∧
      s.Cacheable (hpa / 64) ∧ s.fon (kL1cCtl n) fL1cCtl_PFEN = true ∧ (s.core n).caches.hasSector (hpa / 64) = false ∧ ∃ l u, s.getLine' n (hpa / 64)
      key (s.core n).darkW true .l1d = (.line l false, u) ∧ ((u.core n).caches.l2Find (hpa / 64)).isSome = true) ∧
    (∃ (s : State) (n hpa key : Nat), n < 216 ∧ hpa < 2 ^ 52 ∧ key < 16384 ∧ s.stopped = false ∧ s.coreReady n = true ∧ (s.core n).waiting = false ∧
      s.Cacheable (hpa / 64) ∧ s.fon (kL1cCtl n) fL1cCtl_PFEN = true ∧ (s.core n).caches.hasSector (hpa / 64) = false ∧ ∃ l u, s.getLine' n (hpa / 64)
      key (s.core n).darkW true .l1d = (.line l false, u) ∧ ((u.core n).caches.l2Find (hpa / 64)).isSome = true ∧ s.fon (kL1cCtl n) fL1cCtl_SBEN =
      true) ∧
    (∃ (s : State) (n line key : Nat), n < 216 ∧ line < 2 ^ 46 ∧ s.stopped = false ∧ (s.core n).deferred.find? (fun p => p.1 = line) = some (line,
      key) ∧ ∃ k, (s.core n).caches.l1Sector line = some k ∧ (((s.core n).darkW = true ∨ k.dark = false))) ∧
    (∃ (s : State) (n line key : Nat), n < 216 ∧ line < 2 ^ 46 ∧ s.stopped = false ∧ (s.core n).deferred.find? (fun p => p.1 = line) = some (line,
      key) ∧ ∃ l nf u, s.loadLine n line key (s.core n).darkW false = (.line l nf, u)) ∧
    (∃ (s : State) (n line key : Nat) (kind : L3Kind) (world spec : Bool), n < 216 ∧ line < 2 ^ 46 ∧ key < 16384 ∧ s.stopped = false ∧ s.down = false
      ∧ s.missAt n line = false ∧ s.missRoom n line .none = true ∧ let d := (n / 18); ∃ k l, kind = .read ∧ s.l3Closed (l3Idx d line) = false ∧
      s.l3Find d line = some (k, l) ∧ seen l world = true) ∧
    (∃ (s : State) (n line key : Nat) (kind : L3Kind) (world spec : Bool), n < 216 ∧ line < 2 ^ 46 ∧ key < 16384 ∧ s.stopped = false ∧ s.down = false
      ∧ s.missAt n line = false ∧ s.missRoom n line .none = true ∧ let d := (n / 18); ∃ k l, kind ≠ .read ∧ s.l3Closed (l3Idx d line) = false ∧
      s.l3Find d line = some (k, l) ∧ seen l world = true ∧ ((l.st = .e ∨ l.st = .m)) ∧ ((∀ m, m ∈ s.holders d line → m = n))) ∧
    (∃ (s : State) (n line key : Nat) (kind : L3Kind) (world spec : Bool), n < 216 ∧ line < 2 ^ 46 ∧ key < 16384 ∧ s.stopped = false ∧ s.down = false
      ∧ s.missAt n line = false ∧ s.missRoom n line .none = true ∧ let d := (n / 18); s.l3Closed (l3Idx d line) = false ∧ s.l3Find d line = none) :=
  ⟨by refine ⟨run, 0, 0, 0, ?_, ?_, ?_, ?_, ?_, ?_, by unfold State.Cacheable; decide +kernel, ?_⟩ <;> decide +kernel,
   by refine ⟨owned, 0, 0, 0, ?_, ?_, ?_, ?_, ?_, ?_, by unfold State.Cacheable; decide +kernel, ?_, ?_, lineM, ?_⟩ <;> decide +kernel,
   by refine ⟨owned, 0, 0, 0, ?_, ?_, ?_, ?_, ?_, ?_, by unfold State.Cacheable; decide +kernel, ?_, ?_, lineM, ?_⟩ <;> decide +kernel,
   by refine ⟨run, 0, 0, 0, ?_, ?_, ?_, ?_, ?_, ?_, by unfold State.Cacheable; decide +kernel, ?_, ?_, lineE, _, pair_eq (fill_line (by decide +kernel)), ?_⟩
     <;> decide +kernel,
   by refine ⟨run, 0, 0, 0, ?_, ?_, ?_, ?_, ?_, ?_, by unfold State.Cacheable; decide +kernel, ?_, ?_, lineE, _, pair_eq (fill_line (by decide +kernel)), ?_⟩
     <;> decide +kernel,
   by refine ⟨(inL1.setCore 0 { inL1.core 0 with deferred := [(0, 0)] }), 0, 0, 0, ?_, ?_, ?_, ?_, sec0, ?_⟩ <;> decide +kernel,
   by refine ⟨(core0 (fun kk => { kk with deferred := [(0, 0)] })), 0, 0, 0, ?_, ?_, ?_, ?_, lineE, false, _, pair_eq (fill_line (by decide +kernel))⟩
     <;> decide +kernel,
   by refine ⟨({ run with l3 := [(l3Idx 0 0, [(0, lineE)])] }), 0, 0, 0, .read, false, false, ?_, ?_, ?_, ?_, ?_, ?_, ?_, 0, lineE, rfl, ?_⟩ <;> decide +kernel,
   by refine ⟨({ run with l3 := [(l3Idx 0 0, [(0, lineE)])] }), 0, 0, 0, .write, false, false, ?_, ?_, ?_, ?_, ?_, ?_, ?_, 0, lineE, ?_⟩ <;> decide +kernel,
   ⟨run, 0, 0, 0, .read, false, false, by decide +kernel⟩⟩

/-- Inputs that meet the hypotheses of TlbInstructionsComplete, one for each of its clauses. -/
theorem witness_TlbInstructionsComplete :
    (∃ (s : State) (x : Insn) (ra : Reg) (locked : Bool), s.Executes x { level := 1 }) ∧
    (∃ (s : State) (x : Insn) (ra : Reg) (locked : Bool), s.Executes x { level := 2 } ∧ x.core < 216) ∧
    (∃ (s : State) (x : Insn) (ra rn : Reg) (locked : Bool), s.Executes x { level := 1, align := s.alignEarly x ra rn 4096 } ∧ (s.src x ra).toNat %
      4096 = 0 ∧ (s.src x rn).toNat % 4096 = 0 ∧ s.src x rn ≠ 0) ∧
    (∃ (s : State) (x : Insn) (ra rn : Reg) (locked : Bool), s.Executes x { level := 2, align := s.alignEarly x ra rn 4096 } ∧ x.core < 216 ∧ (s.src x
      ra).toNat % 4096 = 0 ∧ (s.src x rn).toNat % 4096 = 0 ∧ s.src x rn ≠ 0) ∧
    (∃ c, c ∈ [(Instr.tlbir, 1), (.tlbirIpa, 2)] ∧ ∃ (s : State) (x : Insn) (ra rn : Reg) (locked : Bool) (upto : Option Nat), s.Executes x
      { level := c.2, align := s.alignEarly x ra rn 4096 } ∧ x.core < 216 ∧ (s.src x ra).toNat % 4096 = 0 ∧ s.src x rn = 0) ∧
    (∃ (s u : State) (x : Insn) (pd : PReg) (ra : Reg) (b : Bool), s.Executes x { level := 1 } ∧ s.tlbLock x.core (s.src x ra).toNat = (.ok b, u)) ∧
    (∃ (s : State) (x : Insn) (pd : PReg) (ra : Reg) (r : Regime) (l : Xlat), s.Executes x { level := 1 } ∧ let c := (s.core x.core); let va :=
      ((s.src x ra).toNat); s.regimeOf x.core c.level c.darkW false va = some r ∧ ((c.tlbs.locked.any (fun e => e.tags r va) = true ∨ (r.s1 = none ∧
      r.s2 = none))) ∧ s.Translates x.core 0 va l) ∧
    (∃ (s : State) (x : Insn) (pd : PReg) (ra : Reg) (r : Regime) (base table : Nat) (k : CLine), s.Executes x { level := 1 } ∧ x.core < 216 ∧ let c
      := (s.core x.core); let va := ((s.src x ra).toNat); let h := (table + 8 * (va / 4096 % 512)); let e : Word := (BitVec.ofNat 64 (lineField k.data
      (h % 64) 8)); let a := (s.xacc x.core 0 c.level c.darkW); s.regimeOf x.core c.level c.darkW false va = some r ∧ c.tlbs.locked.any (fun e =>
      e.tags r va) = false ∧ c.tlbs.locked.length < lockedMax ∧ r.s1 = some base ∧ r.s2 = none ∧ s.walkHit r false base 4 (va % 2 ^ 57) = some table ∧
      s.isTiered h = true ∧ ((r.dark = true ∨ s.isDark h = false)) ∧ c.caches.current (h / 64) = some k ∧ seen k r.dark = true ∧ k.poison = false ∧
      entType e = 1 ∧ goodLeaf e 4 = true ∧ s1Check (if r.code = 1 then { a with level := 2 } else a) (e.getLsbD 5) (e.getLsbD 6) (e.getLsbD 7)
      (e.getLsbD 8) (e.getLsbD 9) = none) ∧
    (∃ (s : State) (x : Insn) (ra : Reg), s.Executes x { level := 1 }) ∧
    (∃ (s : State) (x : Insn), s.Executes x { level := 1 }) :=
  ⟨⟨run, (insn 0), 1, true, by unfold State.Executes; decide +kernel⟩,
   ⟨run, (insn 0), 1, true, by unfold State.Executes; decide +kernel, by decide +kernel⟩,
   ⟨(run.setRegAt 0 2 0 4096), (insn 0), 1, 2, false, by unfold State.Executes; decide +kernel, by decide +kernel⟩,
   ⟨(run.setRegAt 0 2 0 4096), (insn 0), 1, 2, false, by unfold State.Executes; decide +kernel, by decide +kernel⟩,
   ⟨(Instr.tlbir, 1), by simp, run, (insn 0), 1, 2, true, none, by unfold State.Executes; decide +kernel, by decide +kernel⟩,
   ⟨mapped, _, (insn 0), 1, 2, true, by unfold State.Executes; decide +kernel, pair_eq (got_ok (by decide +kernel))⟩,
   ⟨mapped, (insn 0), 1, 1, _, xl0, by unfold State.Executes; decide +kernel, opt_get (by decide +kernel), by decide +kernel, translates (by decide +kernel)⟩,
   ⟨walking, (insn 0), 1, 1, _, 0, 4096, tableLine, by unfold State.Executes; decide +kernel, by decide +kernel, opt_get (by decide +kernel), by decide +kernel⟩,
   ⟨run, (insn 0), 1, by unfold State.Executes; decide +kernel⟩,
   ⟨run, (insn 0), by unfold State.Executes; decide +kernel⟩⟩

/-- Inputs that meet the hypotheses of RegisterWriteFollowsAccessCodes, one for each of its clauses. -/
theorem witness_RegisterWriteFollowsAccessCodes :
    (∃ (s u : State) (agent : Agent) (off : BitVec 26) (value : Word) (d : RegDef), agent.wf = true ∧ s.stopped = false ∧ s.Reaches u agent off.toNat
      d value ∧ pcsSpecial.contains d.name = false ∧ u.pending = s.pending) :=
  ⟨run, run, (.core 216), (BitVec.ofNat 26 kRasCtl), 5, (reg kRasCtl), by decide +kernel, by decide +kernel, reaches (by decide +kernel), by decide +kernel⟩

/-- Inputs that meet the hypotheses of LockTakesWrittenValuesFirst, one for each of its clauses. -/
theorem witness_LockTakesWrittenValuesFirst :
    (∃ (s u : State) (a : Agent) (off : BitVec 26) (v : Word) (d : RegDef), a.wf = true ∧ s.stopped = false ∧ s.Reaches u a off.toNat d v ∧
      pcsSpecial.contains d.name = false ∧ d.name ≠ "FIO_FCTL" ∧ u.pending = s.pending ∧ u.pcsLocked off.toNat d = false ∧ v &&& BitVec.ofNat 64
      d.lock ≠ 0) :=
  ⟨run, run, (.core 216), (BitVec.ofNat 26 kRasCtl), (BitVec.allOnes 64), (reg kRasCtl), by decide +kernel, by decide +kernel, reaches (by decide +kernel),
    by decide +kernel⟩

/-- Inputs that meet the hypotheses of RefusedRegisterWriteIsDropped, one for each of its clauses. -/
theorem witness_RefusedRegisterWriteIsDropped :
    (∃ (s : State) (n k : Nat), n < 220) ∧
    (∃ (s : State) (n : Nat) (off : BitVec 26) (value : Word) (d : RegDef), wfCore n = true ∧ s.stopped = false ∧ off.toNat % 8 = 0 ∧ regDefAt
      off.toNat = some d ∧ s.pcsAdmits (.core n) off.toNat = false ∧ off.toNat ≠ kWldPcsref ∧ off.toNat ≠ kEvt 15 2 3) ∧
    (∃ (s : State) (n m off size : Nat), (s.pcsPath (off / 8 * 8)).2.deepAgent (.core n) = (s.pcsPath (off / 8 * 8)).2.deepAgent (.core m)) ∧
    (∃ (s : State) (off : BitVec 26) (size : Nat) (value : Word), s.stopped = false) :=
  ⟨⟨run, 219, 0, by decide +kernel⟩,
   ⟨run, 0, (BitVec.ofNat 26 kWldCtl), 1, (reg kWldCtl), by decide +kernel⟩,
   ⟨run, 0, 1, 0, 8, by decide +kernel⟩,
   ⟨run, 0, 8, 0, by decide +kernel⟩⟩

/-- Inputs that meet the hypotheses of UnassignedRegistersReadZero, one for each of its clauses. -/
theorem witness_UnassignedRegistersReadZero :
    (∃ (s : State) (a : Agent) (off : BitVec 26) (size : Nat) (v : Word), a.wf = true ∧ s.stopped = false ∧ (size = 4 ∨ size = 8) ∧ off.toNat % size =
      0 ∧ regDefAt (off.toNat / 8 * 8) = none) :=
  ⟨run, (.core 0), 0x3FFFFF8, 8, 0, by decide +kernel⟩

/-- Inputs that meet the hypotheses of RegisterRowsComplete, one for each of its clauses. -/
theorem witness_RegisterRowsComplete :
    (∃ (s u : State) (a : Agent) (c : Nat) (v : Word) (d : RegDef), a.wf = true ∧ s.stopped = false ∧ c < 216 ∧ s.Reaches u a (kL1cCtl c) d v ∧ d.name
      = "L1C_CTL") ∧
    (∃ (s u : State) (a : Agent) (i : Nat) (v : Word) (d : RegDef), a.wf = true ∧ s.stopped = false ∧ i < 192 ∧ s.Reaches u a (kL3cLock i) d v ∧
      d.name = "L3C_LOCK") ∧
    (∃ (s u : State) (a : Agent) (d : RegDef), a.wf = true ∧ s.stopped = false ∧ s.Reaches u a kIotuFstat d (BitVec.ofNat 64 (2 ^ 63)) ∧ d.name =
      "IOTU_FSTAT") ∧
    (∃ (s u : State) (a : Agent) (e : LinkEnd) (d : RegDef), a.wf = true ∧ e.wf = true ∧ s.stopped = false ∧ s.Reaches u a (kSclCtl e) d (s.rd
      (kSclCtl e) ||| BitVec.ofNat 64 (2 ^ 63)) ∧ d.name = "SCL_CTL") ∧
    (∃ (s u : State) (a : Agent) (v : Word) (d : RegDef), a.wf = true ∧ s.stopped = false ∧ s.Reaches u a kEnlHeat d v ∧ d.name = "ENL_HEAT") ∧
    (∃ (s u : State) (a : Agent) (v : Word) (d : RegDef), a.wf = true ∧ s.stopped = false ∧ s.Reaches u a kFioT1act d v ∧ d.name = "FIO_T1ACT") ∧
    (∃ (s u : State) (a : Agent) (v : Word) (d : RegDef), a.wf = true ∧ s.stopped = false ∧ s.Reaches u a kFwtData1 d v ∧ d.name = "FWT_DATA1") ∧
    (∃ (s u : State) (a : Agent) (i w : Nat) (v : Word) (d : RegDef), a.wf = true ∧ s.stopped = false ∧ i < 13 ∧ w < 4 ∧ s.Reaches u a (kWldHold i w)
      d v ∧ d.name = "WLD_HOLD") ∧
    (∃ (s u : State) (a : Agent) (d : RegDef), a.wf = true ∧ s.stopped = false ∧ s.Reaches u a kWldWdog d (s.rd kWldWdog ||| BitVec.ofNat 64 (2 ^ 63))
      ∧ d.name = "WLD_WDOG") ∧
    (∃ (s u : State) (a : Agent) (r : Nat) (v : Word) (d : RegDef), a.wf = true ∧ s.stopped = false ∧ r < 2 ∧ s.Reaches u a (kSsmBankpwr r) d v ∧
      d.name = "SSM_BANKPWR") ∧
    (∃ (s u : State) (a : Agent) (n : Nat) (v : BitVec 8) (d : RegDef), a.wf = true ∧ s.stopped = false ∧ n < 12 ∧ s.Reaches u a (kClkCdctl n) d
      (v.setWidth 64) ∧ d.name = "CLK_CDCTL") ∧
    (∃ (s u : State) (a : Agent) (n : Nat) (v : BitVec 16) (d : RegDef), a.wf = true ∧ s.stopped = false ∧ n < 12 ∧ s.Reaches u a (kPwrDctl n) d
      (fPwrDctl_GUARD.put (s.rd (kPwrDctl n)) v.toNat) ∧ d.name = "PWR_DCTL") ∧
    (∃ (s u : State) (a : Agent) (v : BitVec 16) (d : RegDef), a.wf = true ∧ s.stopped = false ∧ s.Reaches u a kPwrIodv d (fPwrDctl_GUARD.put (s.rd
      kPwrIodv) v.toNat) ∧ d.name = "PWR_IODV") ∧
    (∃ (s u : State) (a : Agent) (off : BitVec 26) (v : Word) (d : RegDef), a.wf = true ∧ s.stopped = false ∧ 0x3000 ≤ pcsOff off.toNat ∧ pcsOff
      off.toNat < 0x3100 ∧ s.Reaches u a off.toNat d v ∧ d.name = "EVT_CNT") ∧
    (∃ (s u : State) (a : Agent) (d : RegDef), a.wf = true ∧ s.stopped = false ∧ s.Reaches u a kZciCtl d 1 ∧ d.name = "ZCI_CTL" ∧ let v := (u.wr
      kZciCtl (u.regAfter kZciCtl d 1)); (u.regAfter kZciCtl d 1).getLsbD 0 = true ∧ (v.pair 2).isSome = true) ∧
    (∃ (s u : State) (a : Agent) (d : RegDef), a.wf = true ∧ s.stopped = false ∧ s.Reaches u a kZciCtl d 1 ∧ d.name = "ZCI_CTL" ∧ let v := (u.wr
      kZciCtl (u.regAfter kZciCtl d 1)); let tb := (v.rd kZciQctbase); (u.regAfter kZciCtl d 1).getLsbD 0 = true ∧ v.pair 2 = none ∧
      ((fZciQctbase_V.on tb = false ∨ v.rangeTiered (fZciQctbase_BASE.get tb * 2 ^ 19 + 128) 64 = false))) ∧
    (∃ (s u : State) (a : Agent) (d : RegDef), a.wf = true ∧ s.stopped = false ∧ s.Reaches u a kZciCtl d 1 ∧ d.name = "ZCI_CTL" ∧ let v := (u.wr
      kZciCtl (u.regAfter kZciCtl d 1)); let tb := (v.rd kZciQctbase); let line := ((fZciQctbase_BASE.get tb * 2 ^ 19 + 128) / 64); (u.regAfter
      kZciCtl d 1).getLsbD 0 = true ∧ ∃ (w : State) (x : Line) (c nf : Bool), v.pair 2 = none ∧ fZciQctbase_V.on tb = true ∧ v.rangeTiered
      (fZciQctbase_BASE.get tb * 2 ^ 19 + 128) 64 = true ∧ v.Answered w [(.rdc, uncReq Who.zci line (fZciQctbase_KEYID.get tb) false)] [.reply x false
      c nf] ∧ let w0 : Word := (BitVec.ofNat 64 (lineField x 0 8)); let q := (bitsOf w0 4 4); let sq := (lineField x 8 8); let rq := (lineField x 16
      8); w0.getLsbD 0 = true ∧ 4 ≤ q ∧ q ≤ 12 ∧ sq % (64 * 2 ^ q) = 0 ∧ rq % (32 * 2 ^ q) = 0 ∧ w.rangeTiered sq (64 * 2 ^ q) = true ∧
      w.rangeDaylight sq (64 * 2 ^ q) = true ∧ w.rangeTiered rq (32 * 2 ^ q) = true ∧ w.rangeDaylight rq (32 * 2 ^ q) = true) ∧
    (∃ (s u : State) (a : Agent) (d : RegDef), a.wf = true ∧ s.stopped = false ∧ s.Reaches u a kZciCtl d 0 ∧ d.name = "ZCI_CTL" ∧ (u.regAfter kZciCtl
      d 0).getLsbD 0 = false) ∧
    (∃ (s : State) (a : Agent) (d : RegDef), a.wf = true ∧ s.stopped = false ∧ a ≠ .device ∧ regDefAt kSsmCtl = some d ∧ d.name = "SSM_CTL" ∧
      s.pcsAdmits a kSsmCtl = true ∧ s.pcsTested kSsmCtl = false) :=
  ⟨⟨linked, linked, (.core 216), 215, 1, (reg (kL1cCtl 215)), by decide +kernel, by decide +kernel, by decide +kernel, reaches (by decide +kernel),
  by decide +kernel⟩,
   ⟨linked, linked, (.core 216), 191, 1, (reg (kL3cLock 191)), by decide +kernel, by decide +kernel, by decide +kernel, reaches (by decide +kernel),
     by decide +kernel⟩,
   ⟨run, run, (.core 216), (reg kIotuFstat), by decide +kernel, by decide +kernel, reaches (by decide +kernel), by decide +kernel⟩,
   ⟨linked, linked, (.core 216), ⟨true, 11⟩, (reg (kSclCtl ⟨true, 11⟩)), by decide +kernel, by decide +kernel, by decide +kernel, reaches (by decide +kernel),
     by decide +kernel⟩,
   ⟨run, run, (.core 216), 1, (reg kEnlHeat), by decide +kernel, by decide +kernel, reaches (by decide +kernel), by decide +kernel⟩,
   ⟨run, run, (.core 216), 1, (reg kFioT1act), by decide +kernel, by decide +kernel, reaches (by decide +kernel), by decide +kernel⟩,
   ⟨run, run, (.core 216), 1, (reg kFwtData1), by decide +kernel, by decide +kernel, reaches (by decide +kernel), by decide +kernel⟩,
   by refine ⟨run, run, (.core 216), 12, 3, 1, (reg (kWldHold 12 3)), ?_, ?_, ?_, ?_, reaches (by decide +kernel), ?_⟩ <;> decide +kernel,
   ⟨run, run, (.core 216), (reg kWldWdog), by decide +kernel, by decide +kernel, reaches (by decide +kernel), by decide +kernel⟩,
   ⟨run, run, (.core 216), 1, 1, (reg (kSsmBankpwr 1)), by decide +kernel, by decide +kernel, by decide +kernel, reaches (by decide +kernel), by decide +kernel⟩,
   ⟨linked, linked, (.core 216), 11, 1, (reg (kClkCdctl 11)), by decide +kernel, by decide +kernel, by decide +kernel, reaches (by decide +kernel),
     by decide +kernel⟩,
   ⟨linked, linked, (.core 216), 11, 1, (reg (kPwrDctl 11)), by decide +kernel, by decide +kernel, by decide +kernel, reaches (by decide +kernel),
     by decide +kernel⟩,
   ⟨run, run, (.core 216), 1, (reg kPwrIodv), by decide +kernel, by decide +kernel, reaches (by decide +kernel), by decide +kernel⟩,
   by refine ⟨run, run, (.core 216), (BitVec.ofNat 26 (kEvt 15 2 0)), 1, (reg (kEvt 15 2 0)), ?_, ?_, ?_, ?_, reaches (by decide +kernel), ?_⟩
     <;> decide +kernel,
   ⟨(run.setPair 2 (some qp0)), (run.setPair 2 (some qp0)), (.core 216), (reg kZciCtl), by decide +kernel, by decide +kernel, reaches (by decide +kernel),
     by decide +kernel⟩,
   ⟨run, run, (.core 216), (reg kZciCtl), by decide +kernel, by decide +kernel, reaches (by decide +kernel), by decide +kernel⟩,
   ⟨(told (run.wr kZciQctbase (fZciQctbase_V.put 0 1)) [⟨.rdc, uncReq Who.zci 2 0 false, .reply 0x41 false false false⟩]), (told (run.wr kZciQctbase
     (fZciQctbase_V.put 0 1)) [⟨.rdc, uncReq Who.zci 2 0 false, .reply 0x41 false false false⟩]), (.core 216), (reg kZciCtl), by decide +kernel,
     by decide +kernel, reaches (by decide +kernel), by decide +kernel, by decide +kernel, _, 0x41, false, false, by decide +kernel, by decide +kernel,
     by decide +kernel, answered_told (by decide +kernel), by decide +kernel⟩,
   ⟨run, run, (.core 216), (reg kZciCtl), by decide +kernel, by decide +kernel, reaches (by decide +kernel), by decide +kernel⟩,
   ⟨run, (.core 216), (reg kSsmCtl), by decide +kernel⟩⟩

/-- Inputs that meet the hypotheses of InboundRequestsComplete, one for each of its clauses. -/
theorem witness_InboundRequestsComplete :
    (∃ (s : State) (n v : Nat), n < 216 ∧ 1 ≤ v ∧ v < 256 ∧ s.stopped = false ∧ s.coreOut n = false ∧ s.fon (kCoreId n) fCoreId_RETIRED = false) ∧
    (∃ (s : State) (d : Dma) (h k : Nat), d.wf = true ∧ s.stopped = false ∧ s.dmaTaken d = true ∧ d.ats = false ∧ s.fio.inq = [] ∧ ∃ (data : Line)
      (mask : BitVec 64), (s.pkgTouch 5 d.group).IotuHit d.group d.rid d.addr.toNat 1 false h k) ∧
    (∃ (s : State) (d : Dma) (h k : Nat), d.wf = true ∧ s.stopped = false ∧ s.dmaTaken d = true ∧ d.ats = false ∧ s.fio.inq = [] ∧ (s.pkgTouch 5
      d.group).IotuHit d.group d.rid d.addr.toNat 0 false h k) ∧
    (∃ (s : State) (d : Dma) (h k : Nat), d.wf = true ∧ s.stopped = false ∧ s.dmaTaken d = true ∧ d.ats = false ∧ s.fio.inq = [] ∧ ∃ (op : AmoOp)
      (size operand compare : Nat), (s.pkgTouch 5 d.group).IotuHit d.group d.rid d.addr.toNat 3 false h k) ∧
    (∃ (s : State) (d : Dma) (h k : Nat), d.wf = true ∧ s.stopped = false ∧ s.dmaTaken d = true ∧ d.ats = false ∧ s.fio.inq = [] ∧ ∃ (data : Word), ∃
      m, (s.pkgTouch 5 d.group).IotuHit d.group d.rid d.addr.toNat 1 true h k ∧ s.mapOf h = some m ∧ m.kind = 3 ∧ d.len = 4 ∧ (h - m.base) % 4 = 0 ∧
      (h - m.base) / 4 < 216 ∧ 1 ≤ data.toNat ∧ data.toNat < 256 ∧ s.coreOut ((h - m.base) / 4) = false ∧ s.fon (kCoreId ((h - m.base) / 4))
      fCoreId_RETIRED = false) ∧
    (∃ (s : State) (d : Dma) (h k : Nat), d.wf = true ∧ s.stopped = false ∧ s.dmaTaken d = true ∧ d.ats = false ∧ s.fio.inq = [] ∧ s.fon kIotuCtl
      fIotuCtl_EN = false) ∧
    (∃ (s : State) (d : Dma) (r : HomeReq) (k : ReqKind) (l : Line) (q c nf : Bool), (k = .rdc ∨ k = .atf)) ∧
    (∃ (s : State) (d : Dma), d.wf = true ∧ s.stopped = false ∧ s.dmaTaken d = true ∧ d.ats = true) ∧
    (∃ (s : State) (d : Dma) (data : Line) (mask : BitVec 64), d.wf = true ∧ s.stopped = false ∧ s.dmaTaken d = true ∧ d.ats = true) ∧
    (∃ (s : State) (a : Agent) (qp : Nat) (v : BitVec 32) (p : QPair), a.wf = true ∧ qp < 8192 ∧ s.stopped = false ∧ s.dbAdmits a qp = true ∧ s.pair
      qp = some p ∧ p.st = 4) ∧
    (∃ (s : State) (a : Agent) (qp : Nat) (v : BitVec 32) (p : QPair), a.wf = true ∧ qp < 8192 ∧ s.stopped = false ∧ s.dbAdmits a qp = true ∧ s.pair
      qp = some p ∧ p.st ≠ 4 ∧ v.toNat < 2 ^ p.qlog) ∧
    (∃ (s : State) (a : Agent) (qp : Nat) (v : BitVec 32) (p : QPair), a.wf = true ∧ qp < 8192 ∧ s.stopped = false ∧ s.dbAdmits a qp = true ∧ s.pair
      qp = some p ∧ p.st ≠ 4 ∧ 2 ^ p.qlog ≤ v.toNat) :=
  ⟨⟨run, 215, 255, by decide +kernel⟩,
   by refine ⟨pcie, dma0, 0, 0, ?_, ?_, ?_, ?_, ?_, 0, 255, hit ⟨0, 1, 0, 0⟩ ioE0 (by decide +kernel)⟩ <;> decide +kernel,
   by refine ⟨pcie, dma0, 0, 0, ?_, ?_, ?_, ?_, ?_, hit ⟨0, 1, 0, 0⟩ ioE0 (by decide +kernel)⟩ <;> decide +kernel,
   by refine ⟨pcie, dma0, 0, 0, ?_, ?_, ?_, ?_, ?_, .swap, 8, 0, 0, hit ⟨0, 1, 0, 0⟩ ioE0 (by decide +kernel)⟩ <;> decide +kernel,
   by refine ⟨pcie, ({ dma0 with addr := 0x2000000000, len := 4 }), 0x2000000000, 0, ?_, ?_, ?_, ?_, ?_, 255, ⟨0x2000000000, 864, 3, 0, 0, 0⟩, hit ⟨0, 1, 0, 0⟩
     { ioE0 with base := 0x2000000000, pa := 0x2000000000 } (by decide +kernel), ?_⟩ <;> decide +kernel,
   ⟨(run.fput (kFioGcfg 0) fFioGcfg_ROLE 1), dma0, 0, 0, by decide +kernel⟩,
   ⟨run, dma0, req0, .rdc, 0, false, false, false, by decide +kernel⟩,
   ⟨pcie, ({ dma0 with ats := true }), by decide +kernel⟩,
   ⟨pcie, ({ dma0 with ats := true }), 0, 255, by decide +kernel⟩,
   ⟨(run.setPair 64 (some { qp0 with st := 4 })), (.core 0), 64, 1, ({ qp0 with st := 4 }), by decide +kernel⟩,
   ⟨paired, (.core 0), 64, 1, qp0, by decide +kernel⟩,
   ⟨paired, (.core 0), 64, 16, qp0, by decide +kernel⟩⟩

/-- Inputs that meet the hypotheses of HomeSliceOfALine, one for each of its clauses. -/
theorem witness_HomeSliceOfALine :
    (∃ hpa, hpa < 2 ^ 52) :=
  ⟨(2 ^ 52 - 1), by decide +kernel⟩

/-- Inputs that meet the hypotheses of HomeRequestsComplete, one for each of its clauses. -/
theorem witness_HomeRequestsComplete :
    (∃ (c : Instr) (k : ReqKind) (r : HomeReq) (s v u : State), homeReqOf c = some (k, r) ∧ k ≠ .evc ∧ k ≠ .evd ∧ r.wf = true ∧ r.err = none ∧
      s.stopped = false ∧ s.down = false ∧ s.home.lost.contains r.agent = false ∧ (v = (if r.agent < 12 ∨ r.agent = 16 then
      { s with home := { s.home with asked := s.home.asked ++ [Pend.fresh k r .msg] } } else s)) ∧ v.Opens u k r ∧ let p := (u.begin' (Pend.fresh k r
      .msg)); p.1.await ≠ []) :=
  by refine ⟨(.rdc req0), .rdc, req0, inDir, _, _, rfl, ?_, ?_, ?_, ?_, ?_, ?_, ?_, rfl,
    by unfold State.Opens State.Cacheable; refine ⟨?_, ?_, ?_, ?_, ?_, ?_, ?_, rfl⟩ <;> decide +kernel, ?_⟩ <;> decide +kernel

/-- Inputs that meet the hypotheses of HomeRequestsComplete, one for each of its clauses. -/
theorem witness_HomeRequestsComplete_cached :
    (∃ (c : Instr) (k : ReqKind) (r : HomeReq) (s v u : State), homeReqOf c = some (k, r) ∧ k ≠ .evc ∧ k ≠ .evd ∧ r.wf = true ∧ r.err = none ∧
      s.stopped = false ∧ s.down = false ∧ s.home.lost.contains r.agent = false ∧ (v = (if r.agent < 12 ∨ r.agent = 16 then
      { s with home := { s.home with asked := s.home.asked ++ [Pend.fresh k r .msg] } } else s)) ∧ v.Opens u k r ∧ let p := (u.begin' (Pend.fresh k r
      .msg)); p.1.await = []) :=
  by refine ⟨(.rdc req0), .rdc, req0, run, _, _, rfl, ?_, ?_, ?_, ?_, ?_, ?_, ?_, rfl,
    by unfold State.Opens State.Cacheable; refine ⟨?_, ?_, ?_, ?_, ?_, ?_, ?_, rfl⟩ <;> decide +kernel, ?_⟩ <;> decide +kernel

/-- Inputs that meet the hypotheses of HomeRequestsComplete, one for each of its clauses. -/
theorem witness_HomeRequestsComplete_waiting :
    (∃ (c : Instr) (k : ReqKind) (r : HomeReq) (s v u : State), homeReqOf c = some (k, r) ∧ k ≠ .evc ∧ k ≠ .evd ∧ r.wf = true ∧ r.err = none ∧
      s.stopped = false ∧ s.down = false ∧ s.home.lost.contains r.agent = false ∧ (v = (if r.agent < 12 ∨ r.agent = 16 then
      { s with home := { s.home with asked := s.home.asked ++ [Pend.fresh k r .msg] } } else s)) ∧ s.Cacheable r.line ∧ ((r.dark = true ∨ s.ownDark
      (r.line * 64) = false)) ∧ s.lineHeld r.line = true) ∧
    (∃ (c : Instr) (k : ReqKind) (r : HomeReq) (s : State) (dir : Bool) (i : Nat), homeReqOf c = some (k, r) ∧ r.wf = true ∧ r.err = some (.entry dir
      i) ∧ s.stopped = false) ∧
    (∃ (r q : HomeReq) (s u : State) (i : Nat) (b : Bool), r.wf = true ∧ r.err = some (.buffer i b) ∧ s.stopped = false ∧ q =
      { r with err := none, poison := r.poison || b } ∧ u = s.raise
      { cls := if b then 1 else 0, kind := 0x55, element := elem 15 (0x80 + lineSlice r.line) 5 i, recovered := !b, hpa := some (r.line * 64), dark := r.dark }) :=
  ⟨by refine ⟨(.rdc req0), .rdc, req0, (withTr tr0), _, run, rfl, ?_, ?_, ?_, ?_, ?_, ?_, ?_, rfl, by unfold State.Cacheable; decide +kernel, ?_⟩
  <;> decide +kernel,
   ⟨(.rdc { req0 with err := some (.entry true 7) }), .rdc, ({ req0 with err := some (.entry true 7) }), run, true, 7, rfl, by decide +kernel⟩,
   ⟨({ req0 with err := some (.buffer 7 true) }), _, run, _, 7, true, by decide +kernel, by decide +kernel, by decide +kernel, rfl, rfl⟩⟩

/-- Inputs that meet the hypotheses of EvictionNoticesComplete, one for each of its clauses. -/
theorem witness_EvictionNoticesComplete :
    (∃ (s : State) (r : HomeReq) (d : Option Line), r.wf = true ∧ r.err = none ∧ s.stopped = false ∧ s.down = false ∧ s.home.lost.contains r.agent =
      false ∧ (∀ j, s.lineKind r.line ≠ .remote j) ∧ 2 ≤ s.evCredit r.line r.agent) ∧
    (∃ (s : State) (r : HomeReq) (d : Option Line), r.wf = true ∧ r.err = none ∧ s.stopped = false ∧ s.down = false ∧ s.home.lost.contains r.agent =
      false ∧ let crossed := ((s.slice (lineSlice r.line)).crossed); (∀ j, s.lineKind r.line ≠ .remote j) ∧ s.evCredit r.line r.agent < 2 ∧
      crossed.contains (r.agent, r.line) = true) ∧
    (∃ (s : State) (r : HomeReq) (d : Option Line), r.wf = true ∧ r.err = none ∧ s.stopped = false ∧ s.down = false ∧ s.home.lost.contains r.agent =
      false ∧ let crossed := ((s.slice (lineSlice r.line)).crossed); (∀ j, s.lineKind r.line ≠ .remote j) ∧ s.evCredit r.line r.agent < 2 ∧
      crossed.contains (r.agent, r.line) = false ∧ ∃ k e, s.transOf r.line = none ∧ s.dirFind r.line = some (k, e) ∧ e.own = some r.agent ∧ ((d.isSome
      = true ∨ e.st = .x))) ∧
    (∃ (s : State) (r : HomeReq) (d : Option Line), r.wf = true ∧ r.err = none ∧ s.stopped = false ∧ s.down = false ∧ s.home.lost.contains r.agent =
      false ∧ let crossed := ((s.slice (lineSlice r.line)).crossed); (∀ j, s.lineKind r.line ≠ .remote j) ∧ s.evCredit r.line r.agent < 2 ∧
      crossed.contains (r.agent, r.line) = false ∧ s.transOf r.line = none ∧ ((∀ k e, s.dirFind r.line = some (k, e) → e.own ≠ some r.agent))) ∧
    (∃ (s : State) (r : HomeReq) (d : Option Line), r.wf = true ∧ r.err = none ∧ s.stopped = false ∧ s.down = false ∧ s.home.lost.contains r.agent =
      false ∧ let crossed := ((s.slice (lineSlice r.line)).crossed); (∀ j, s.lineKind r.line ≠ .remote j) ∧ s.evCredit r.line r.agent < 2 ∧
      crossed.contains (r.agent, r.line) = false ∧ ∃ tr, s.transOf r.line = some tr ∧ r.agent ∈ tr.await) ∧
    (∃ (s : State) (r : HomeReq) (d : Option Line), r.wf = true ∧ r.err = none ∧ s.stopped = false ∧ s.down = false ∧ s.home.lost.contains r.agent =
      false ∧ let crossed := ((s.slice (lineSlice r.line)).crossed); (∀ j, s.lineKind r.line ≠ .remote j) ∧ s.evCredit r.line r.agent < 2 ∧
      crossed.contains (r.agent, r.line) = false ∧ ∃ tr, s.transOf r.line = some tr ∧ r.agent ∉ tr.await) ∧
    (∃ (s : State) (r : HomeReq) (d : Option Line), r.wf = true ∧ r.err = none ∧ s.stopped = false ∧ s.down = false ∧ s.home.lost.contains r.agent =
      false ∧ ∃ j, s.lineKind r.line = .remote j ∧ ((r.agent < 12 ∨ r.agent = 16))) :=
  ⟨by refine ⟨(run.setCredit 0 0 2), req0, none, ?_, ?_, ?_, ?_, ?_, not_remote (by decide +kernel), ?_⟩ <;> decide +kernel,
   by refine ⟨(run.setSlice 0 { run.slice 0 with crossed := [(0, 0)] }), req0, none, ?_, ?_, ?_, ?_, ?_, not_remote (by decide +kernel), ?_⟩ <;> decide +kernel,
   by refine ⟨inDir, ({ req0 with agent := 1 }), none, ?_, ?_, ?_, ?_, ?_, not_remote (by decide +kernel), ?_, ?_, 0, dir0, ?_⟩ <;> decide +kernel,
   by refine ⟨run, req0, none, ?_, ?_, ?_, ?_, ?_, not_remote (by decide +kernel), ?_, ?_, ?_, unlisted (by decide +kernel)⟩ <;> decide +kernel,
   by refine ⟨(withTr tr0), ({ req0 with agent := 1 }), none, ?_, ?_, ?_, ?_, ?_, not_remote (by decide +kernel), ?_, ?_, tr0, ?_⟩ <;> decide +kernel,
   by refine ⟨(withTr tr0), ({ req0 with agent := 3 }), none, ?_, ?_, ?_, ?_, ?_, not_remote (by decide +kernel), ?_, ?_, tr0, ?_⟩ <;> decide +kernel,
   by refine ⟨afar, ({ req0 with line := 0x1000000 }), none, ?_, ?_, ?_, ?_, ?_, 1, ?_⟩ <;> decide +kernel⟩

/-- Inputs that meet the hypotheses of SnoopsComplete, one for each of its clauses. -/
theorem witness_SnoopsComplete :
    (∃ (s : State) (a line : Nat) (excl : Option Nat) (err : Option ArrayErr) (k : SnpKind), line < 2 ^ 46 ∧ wfErr err (fun n => n / 18 = a) = true ∧
      s.stopped = false ∧ s.down = false ∧ ∃ u x, a < 12 ∧ s.dieOut a = false ∧ s.home.lost.contains a = false ∧ u = s.arraysCheck err ∧ x =
      u.dieAnswer a k line excl) ∧
    (∃ (s : State) (a line : Nat) (excl : Option Nat) (err : Option ArrayErr) (k : SnpKind), line < 2 ^ 46 ∧ wfErr err (fun n => n / 18 = a) = true ∧
      s.stopped = false ∧ s.down = false ∧ a = 16 ∧ excl = none) ∧
    (∃ (s : State) (a line : Nat) (excl : Option Nat) (err : Option ArrayErr) (k : SnpKind), line < 2 ^ 46 ∧ wfErr err (fun n => n / 18 = a) = true ∧
      s.stopped = false ∧ s.down = false ∧ a = 16 ∧ excl.isSome = true) ∧
    (∃ (s : State) (a line : Nat) (excl : Option Nat) (err : Option ArrayErr) (k : SnpKind), line < 2 ^ 46 ∧ wfErr err (fun n => n / 18 = a) = true ∧
      s.stopped = false ∧ s.down = false ∧ a = 12 + s.sock ∧ s.sock < 4 ∧ s.dirFind line = none ∧ ((∀ w, w ∈ s.home.wbuf → w.line ≠ line))) ∧
    (∃ (s : State) (a line : Nat) (excl : Option Nat) (err : Option ArrayErr) (k : SnpKind), line < 2 ^ 46 ∧ wfErr err (fun n => n / 18 = a) = true ∧
      s.stopped = false ∧ s.down = false ∧ a = 12 + s.sock ∧ s.sock < 4 ∧ ∃ w, s.dirFind line = none ∧ s.home.wbuf.find? (fun w => w.line = line) =
      some w) ∧
    (∃ (s : State) (a line : Nat) (excl : Option Nat) (err : Option ArrayErr) (k : SnpKind), line < 2 ^ 46 ∧ wfErr err (fun n => n / 18 = a) = true ∧
      s.stopped = false ∧ s.down = false ∧ a = 12 + s.sock ∧ s.sock < 4 ∧ ∃ key e, s.dirFind line = some (key, e)) :=
  ⟨by refine ⟨run, 0, 0, none, none, .s, ?_, ?_, ?_, ?_, _, _, ?_, ?_, ?_, rfl, rfl⟩ <;> decide +kernel,
   by refine ⟨run, 16, 0, none, none, .s, ?_, ?_, ?_, ?_, ?_, rfl⟩ <;> decide +kernel,
   ⟨run, 16, 0, (some 0), none, .s, by decide +kernel⟩,
   ⟨run, 12, 0, none, none, .s, by decide +kernel⟩,
   by refine ⟨({ run with home := { run.home with wbuf := [wb0] } }), 12, 0, none, none, .s, ?_, ?_, ?_, ?_, ?_, ?_, wb0, ?_⟩ <;> decide +kernel,
   by refine ⟨inDir, 12, 0, none, none, .s, ?_, ?_, ?_, ?_, ?_, ?_, 0, dir0, ?_⟩ <;> decide +kernel⟩

/-- Inputs that meet the hypotheses of HomeMessagesComplete, one for each of its clauses. -/
theorem witness_HomeMessagesComplete :
    (∃ (s : State) (line agent : Nat) (a : SnoopAns), line < 2 ^ 46 ∧ agent < 17 ∧ s.stopped = false ∧ s.down = false ∧ s.home.lost.contains agent =
      false ∧ ∃ tr, s.transOf line = some tr ∧ agent ∈ tr.await ∧ let p := (s.takeAnswer tr agent a); p.1.await ≠ []) ∧
    (∃ (s : State) (line agent : Nat) (a : SnoopAns), line < 2 ^ 46 ∧ agent < 17 ∧ s.stopped = false ∧ s.down = false ∧ s.home.lost.contains agent =
      false ∧ ∃ tr, s.transOf line = some tr ∧ agent ∈ tr.await ∧ let p := (s.takeAnswer tr agent a); p.1.await = [] ∧ tr.granted = false) ∧
    (∃ (s : State) (line agent : Nat) (a : SnoopAns), line < 2 ^ 46 ∧ agent < 17 ∧ s.stopped = false ∧ s.down = false ∧ s.home.lost.contains agent =
      false ∧ ((∀ tr, s.transOf line = some tr → agent ∉ tr.await))) ∧
    (∃ (s : State) (agent line : Nat), agent < 17 ∧ line < 2 ^ 46 ∧ s.stopped = false ∧ s.down = false ∧ s.home.lost.contains agent = false ∧ ∃ tr,
      s.transOf line = some tr ∧ tr.granted = true ∧ tr.req.agent = agent) ∧
    (∃ (s : State) (agent line : Nat), agent < 17 ∧ line < 2 ^ 46 ∧ s.stopped = false ∧ s.down = false ∧ s.home.lost.contains agent = false ∧ ((∀ tr,
      s.transOf line = some tr → tr.granted = false ∨ tr.req.agent ≠ agent))) ∧
    (∃ (s : State) (agent line : Nat), agent < 17 ∧ line < 2 ^ 46 ∧ s.stopped = false ∧ s.down = false ∧ s.home.lost.contains agent = false ∧
      (s.evCredit line agent ≠ 0 ∨ (∃ w, w ∈ s.home.wbuf ∧ w.sent = true ∧ w.agent = agent ∧ w.line = line))) ∧
    (∃ (s : State) (agent line : Nat), agent < 17 ∧ line < 2 ^ 46 ∧ s.stopped = false ∧ s.down = false ∧ s.home.lost.contains agent = false ∧
      s.evCredit line agent = 0 ∧ ((∀ w, w ∈ s.home.wbuf → w.sent = true → w.agent = agent → w.line ≠ line))) ∧
    (∃ (s : State) (core line key : Nat), core < 220 ∧ line < 2 ^ 46 ∧ key < 16384 ∧ s.stopped = false ∧ s.down = false ∧ ∃ p, s.askedBy core line
      (fun p => p.req.spec) = some p ∧ (∀ j, s.lineKind line ≠ .remote j)) ∧
    (∃ (s : State) (core line key : Nat), core < 220 ∧ line < 2 ^ 46 ∧ key < 16384 ∧ s.stopped = false ∧ s.down = false ∧ s.askedBy core line (fun p
      => p.req.spec) = none) ∧
    (∃ (s : State) (g : GrantMsg), g.wf = true ∧ s.stopped = false ∧ s.down = false ∧ s.home.lost.contains (coreAgent g.core) = false ∧ (∀ j,
      s.lineKind g.line ≠ .remote j) ∧ ∃ p, s.askedBy g.core g.line (fun p => p.kind.allocates) = some p ∧ p.kind.allocates = true) ∧
    (∃ (s : State) (g : GrantMsg), g.wf = true ∧ s.stopped = false ∧ s.down = false ∧ s.home.lost.contains (coreAgent g.core) = false ∧ (∀ j,
      s.lineKind g.line ≠ .remote j) ∧ s.askedBy g.core g.line (fun p => p.kind.allocates) = none) ∧
    (∃ (s : State) (g : GrantMsg), g.wf = true ∧ s.stopped = false ∧ s.down = false ∧ s.home.lost.contains (coreAgent g.core) = false ∧ ∃ j p,
      s.lineKind g.line = .remote j ∧ s.askedBy g.core g.line (fun _ => true) = some p ∧ p.kind.allocates = true) ∧
    (∃ (s : State) (g : GrantMsg), g.wf = true ∧ s.stopped = false ∧ s.down = false ∧ s.home.lost.contains (coreAgent g.core) = false ∧ ∃ j p,
      s.lineKind g.line = .remote j ∧ s.askedBy g.core g.line (fun _ => true) = some p ∧ (p.kind = .rdc ∨ p.kind = .atf)) ∧
    (∃ (s : State) (g : GrantMsg), g.wf = true ∧ s.stopped = false ∧ s.down = false ∧ s.home.lost.contains (coreAgent g.core) = false ∧ ∃ j p,
      s.lineKind g.line = .remote j ∧ s.askedBy g.core g.line (fun _ => true) = some p ∧ p.kind ∈ [.wrf, .wrp, .cmc, .cmi, .cmci]) ∧
    (∃ (s u : State) (n : Nat), n < 32 ∧ s.stopped = false ∧ s.down = false ∧ s.retrySlice n = some u) ∧
    (∃ (s : State) (n i : Nat), n < 32 ∧ s.stopped = false ∧ s.down = false ∧ s.retrySlice n = none ∧ s.resumable (s.slice n).waiting false = some i) ∧
    (∃ (s : State) (n i : Nat), n < 32 ∧ s.stopped = false ∧ s.down = false ∧ s.retrySlice n = none ∧ s.resumable (s.slice n).waiting false = none ∧
      s.resumable (s.slice n).parked true = some i) ∧
    (∃ (s : State) (n i : Nat) (p : Pend), n < 32 ∧ s.stopped = false ∧ s.down = false ∧ (s.slice n).trans = [] ∧ s.resumable (s.slice n).waiting
      false = some i ∧ (s.slice n).waiting[i]? = some p ∧ (∀ j, s.lineKind p.req.line ≠ .remote j) ∧ let v := (s.setSlice n
      { s.slice n with waiting := (s.slice n).waiting.eraseIdx i }); (v.homeAdmit p.kind p.req false) = (.go, v)) ∧
    (∃ (s : State), s.stopped = false ∧ s.down = false) :=
  ⟨by refine ⟨(withTr tr0), 0, 1, ⟨.none, false, none, false, 0, false⟩, ?_, ?_, ?_, ?_, ?_, tr0, ?_⟩ <;> decide +kernel,
   by refine ⟨(withTr { tr0 with await := [1] }), 0, 1, ⟨.none, false, none, false, 0, false⟩, ?_, ?_, ?_, ?_, ?_, ({ tr0 with await := [1] }), ?_⟩
     <;> decide +kernel,
   by refine ⟨run, 0, 1, ⟨.none, false, none, false, 0, false⟩, ?_, ?_, ?_, ?_, ?_, no_trans (by decide +kernel)⟩ <;> decide +kernel,
   by refine ⟨(withTr { tr0 with granted := true }), 0, 0, ?_, ?_, ?_, ?_, ?_, ({ tr0 with granted := true }), ?_⟩ <;> decide +kernel,
   by refine ⟨run, 0, 0, ?_, ?_, ?_, ?_, ?_, no_trans (by decide +kernel)⟩ <;> decide +kernel,
   by refine ⟨(run.setCredit 0 1 1), 1, 0, ?_, ?_, ?_, ?_, ?_, .inl (by decide +kernel)⟩ <;> decide +kernel,
   ⟨run, 1, 0, by decide +kernel⟩,
   by refine ⟨(asking (.fresh .rds { req0 with spec := true } .msg)), 0, 0, 0, ?_, ?_, ?_, ?_, ?_, (.fresh .rds { req0 with spec := true } .msg), ?_, not_remote
     (by decide +kernel)⟩ <;> decide +kernel,
   ⟨run, 0, 0, 0, by decide +kernel⟩,
   by refine ⟨(asking (.fresh .rds req0 .msg)), grant0, ?_, ?_, ?_, ?_, not_remote (by decide +kernel), (.fresh .rds req0 .msg), ?_⟩ <;> decide +kernel,
   by refine ⟨run, grant0, ?_, ?_, ?_, ?_, not_remote (by decide +kernel), ?_⟩ <;> decide +kernel,
   by refine ⟨(askingFar .rds), ({ grant0 with line := 0x1000000 }), ?_, ?_, ?_, ?_, 1, (.fresh .rds { req0 with line := 0x1000000 } .msg), ?_⟩
     <;> decide +kernel,
   by refine ⟨(askingFar .rdc), ({ grant0 with line := 0x1000000 }), ?_, ?_, ?_, ?_, 1, (.fresh .rdc { req0 with line := 0x1000000 } .msg), ?_⟩
     <;> decide +kernel,
   by refine ⟨(askingFar .wrf), ({ grant0 with line := 0x1000000 }), ?_, ?_, ?_, ?_, 1, (.fresh .wrf { req0 with line := 0x1000000 } .msg), ?_⟩
     <;> decide +kernel,
   ⟨(withTr { tr0 with await := [] }), _, 0, by decide +kernel, by decide +kernel, by decide +kernel, opt_get (by decide +kernel)⟩,
   ⟨(waits pend0), 0, 0, by decide +kernel⟩,
   ⟨(run.setSlice 0 { run.slice 0 with parked := [pend0] }), 0, 0, by decide +kernel⟩,
   by refine ⟨(waits pend0), 0, 0, pend0, ?_, ?_, ?_, ?_, ?_, ?_, not_remote (by decide +kernel), goes (by decide +kernel)⟩ <;> decide +kernel,
   ⟨run, by decide +kernel⟩⟩

/-- Inputs that meet the hypotheses of HomeTimersComplete, one for each of its clauses. -/
theorem witness_HomeTimersComplete :
    (∃ (s : State) (line agent : Nat) (tr : Trans), wfLine line = true ∧ agent < 17 ∧ s.stopped = false ∧ s.down = false ∧ s.transOf line = some tr ∧
      agent ∈ tr.await ∧ ((s.fon kHaGctl fHaGctl_MODE = false ∨ agent = 16))) ∧
    (∃ (s : State) (line agent : Nat) (tr : Trans), wfLine line = true ∧ agent < 17 ∧ s.stopped = false ∧ s.down = false ∧ s.transOf line = some tr ∧
      agent ∈ tr.await ∧ s.fon kHaGctl fHaGctl_MODE = true ∧ agent ≠ 16) ∧
    (∃ (s : State) (line agent : Nat) (tr : Trans), wfLine line = true ∧ agent < 17 ∧ s.stopped = false ∧ s.down = false ∧ s.transOf line = some tr ∧
      tr.await = [] ∧ tr.granted = false ∧ tr.fabric = false ∧ s.fon kHaGctl fHaGctl_MODE = false) ∧
    (∃ (s : State) (line agent : Nat) (tr : Trans), wfLine line = true ∧ agent < 17 ∧ s.stopped = false ∧ s.down = false ∧ s.transOf line = some tr ∧
      tr.await = [] ∧ tr.granted = false ∧ tr.fabric = false ∧ s.fon kHaGctl fHaGctl_MODE = true ∧ tr.kind ≠ .atf) ∧
    (∃ (s : State) (line agent : Nat) (tr : Trans), wfLine line = true ∧ agent < 17 ∧ s.stopped = false ∧ s.down = false ∧ s.transOf line = some tr ∧
      tr.await = [] ∧ tr.granted = false ∧ tr.fabric = false ∧ s.fon kHaGctl fHaGctl_MODE = true ∧ tr.kind = .atf) ∧
    (∃ (s : State) (line : Nat), wfLine line = true ∧ s.stopped = false ∧ s.down = false ∧ s.transOf line = none ∧ (((∃ a, a ∈ s.enl.held ∧ a.line =
      line) ∨ (s.copyOf line).isSome = true)) ∧ s.fon kHaGctl fHaGctl_MODE = false) ∧
    (∃ (s : State) (line : Nat), wfLine line = true ∧ s.stopped = false ∧ s.down = false ∧ s.transOf line = none ∧ (((∃ a, a ∈ s.enl.held ∧ a.line =
      line) ∨ (s.copyOf line).isSome = true)) ∧ s.fon kHaGctl fHaGctl_MODE = true) ∧
    (∃ (s : State) (agent line : Nat), agent < 17 ∧ wfLine line = true ∧ s.stopped = false ∧ s.down = false ∧ s.asks agent line = true) ∧
    (∃ (s : State) (j : BitVec 2), s.stopped = false ∧ s.down = false) ∧
    (∃ (s : State), s.stopped = false ∧ s.down = true ∧ s.boot.sp0Up = true ∧ s.boot.log.any (fun l => l.bytes.take 2 = [0x0A, 0]) = false) ∧
    (∃ (s : State) (n : Nat), n < 32 ∧ s.stopped = false ∧ s.down = false ∧ (s.slice n).passes ≠ 0) ∧
    (∃ (s : State) (tag : Nat) (data : Line) (err : Bool) (o : FabOut), s.stopped = false ∧ s.fabOut tag = some o) ∧
    (∃ (s : State) (tag : Nat) (data : Line) (err : Bool), s.stopped = false ∧ s.fabOut tag = none) :=
  ⟨⟨(withTr tr0), 0, 2, tr0, by decide +kernel⟩,
   ⟨((withTr tr0).fput kHaGctl fHaGctl_MODE 1), 0, 2, tr0, by decide +kernel⟩,
   ⟨(withTr { tr0 with await := [] }), 0, 2, ({ tr0 with await := [] }), by decide +kernel⟩,
   ⟨((withTr { tr0 with await := [] }).fput kHaGctl fHaGctl_MODE 1), 0, 2, ({ tr0 with await := [] }), by decide +kernel⟩,
   ⟨((withTr { tr0 with kind := .atf, await := [] }).fput kHaGctl fHaGctl_MODE 1), 0, 2, ({ tr0 with kind := .atf, await := [] }), by decide +kernel⟩,
   by refine ⟨({ run with enl := { run.enl with held := [acc0] } }), 0, ?_, ?_, ?_, ?_, .inl ⟨acc0, by decide +kernel⟩, ?_⟩ <;> decide +kernel,
   by refine ⟨({ run.fput kHaGctl fHaGctl_MODE 1 with enl := { run.enl with held := [acc0] } }), 0, ?_, ?_, ?_, ?_, .inl ⟨acc0, by decide +kernel⟩, ?_⟩
     <;> decide +kernel,
   ⟨(withTr { tr0 with mode := .held }), 0, 0, by decide +kernel⟩,
   ⟨run, 3, by decide +kernel⟩,
   ⟨(run.domainDown 6 0 0 0 0), by decide +kernel⟩,
   ⟨(run.setSlice 31 { run.slice 31 with passes := 1 }), 31, by decide +kernel⟩,
   ⟨fabOpen, 5, 0, false, ⟨5, 0x1000000000, 0, 0, true, false, false, some 0⟩, by decide +kernel⟩,
   ⟨run, 5, 0, false, by decide +kernel⟩⟩

/-- Inputs that meet the hypotheses of FlitsAreReceived, one for each of its clauses. -/
theorem witness_FlitsAreReceived :
    (∃ (s : State) (e : LinkEnd) (f : Flit), e.wf = true ∧ s.stopped = false ∧ s.lkUp e = true ∧ crcOk f = false) ∧
    (∃ (s : State) (e : LinkEnd) (f : Flit), e.wf = true ∧ s.stopped = false ∧ s.lkUp e = true ∧ let typ := (hdr (headerOf f) 60 4); crcOk f = true ∧
      3 < typ) ∧
    (∃ (s : State) (e : LinkEnd) (f : Flit), e.wf = true ∧ s.stopped = false ∧ s.lkUp e = true ∧ let typ := (hdr (headerOf f) 60 4); crcOk f = true ∧
      typ = 0) ∧
    (∃ (s : State) (e : LinkEnd) (f : Flit), e.wf = true ∧ s.stopped = false ∧ s.lkUp e = true ∧ let typ := (hdr (headerOf f) 60 4); crcOk f = true ∧
      typ = 2) ∧
    (∃ (s : State) (e : LinkEnd) (f : Flit), e.wf = true ∧ s.stopped = false ∧ s.lkUp e = true ∧ let v := (s.lkHeader e (headerOf f)); let typ := (hdr
      (headerOf f) 60 4); let seq := (hdr (headerOf f) 48 12); crcOk f = true ∧ typ = 1 ∧ ∃ b w, v.agtNak e = (b, w) ∧ b = false ∧ seq ≠ (v.lk
      e).expect ∧ ((v.lk e).expect + 4096 - seq - 1) % 4096 < 2048) ∧
    (∃ (s : State) (e : LinkEnd) (f : Flit), e.wf = true ∧ s.stopped = false ∧ s.lkUp e = true ∧ let v := (s.lkHeader e (headerOf f)); let typ := (hdr
      (headerOf f) 60 4); let seq := (hdr (headerOf f) 48 12); crcOk f = true ∧ typ = 1 ∧ ∃ b w, v.agtNak e = (b, w) ∧ b = false ∧ seq ≠ (v.lk
      e).expect ∧ 2048 ≤ ((v.lk e).expect + 4096 - seq - 1) % 4096) ∧
    (∃ (s : State) (e : LinkEnd) (f : Flit), e.wf = true ∧ s.stopped = false ∧ s.lkUp e = true ∧ let v := (s.lkHeader e (headerOf f)); let typ := (hdr
      (headerOf f) 60 4); let seq := (hdr (headerOf f) 48 12); crcOk f = true ∧ typ = 1 ∧ ∃ b w, v.agtNak e = (b, w) ∧ b = true ∧ seq = (v.lk
      e).expect) ∧
    (∃ (s : State) (e : LinkEnd) (f : Flit), e.wf = true ∧ s.stopped = false ∧ s.lkUp e = true ∧ let typ := (hdr (headerOf f) 60 4); typ = 1 ∧ ∃ u,
      s.Accepts u e f ∧ ((u.evtL e 2 1).lk e).pmSent = false ∧ ((u.evtL e 2 1).lk e).pmOk = false) ∧
    (∃ (s : State) (e : LinkEnd) (f : Flit), e.wf = true ∧ s.stopped = false ∧ s.lkUp e = true ∧ let typ := (hdr (headerOf f) 60 4); typ = 1 ∧ ∃ u,
      s.Accepts u e f ∧ (((u.evtL e 2 1).lk e).pmSent = true ∨ ((u.evtL e 2 1).lk e).pmOk = true)) :=
  ⟨⟨linked, ⟨true, 0⟩, badFlit, by decide +kernel⟩,
   ⟨linked, ⟨true, 0⟩, (flitOf 4 0 0), by decide +kernel⟩,
   ⟨linked, ⟨true, 0⟩, (flitOf 0 0 0), by decide +kernel⟩,
   ⟨linked, ⟨true, 0⟩, (flitOf 2 0 0), by decide +kernel⟩,
   by refine ⟨linked, ⟨true, 0⟩, (flitOf 1 4095 0), ?_, ?_, ?_, ?_, ?_, false, _, pair_eq (by decide +kernel), rfl, ?_⟩ <;> decide +kernel,
   by refine ⟨linked, ⟨true, 0⟩, (flitOf 1 1 0), ?_, ?_, ?_, ?_, ?_, false, _, pair_eq (by decide +kernel), rfl, ?_⟩ <;> decide +kernel,
   by refine ⟨(linked.wr (kAgtSlot 0) 0x82F3000000000000), ⟨true, 0⟩, prot, ?_, ?_, ?_, ?_, ?_, true, _, pair_eq (by decide +kernel), rfl, ?_⟩
     <;> decide +kernel,
   by refine ⟨linked, ⟨true, 0⟩, prot, ?_, ?_, ?_, ?_, _, accepts (by decide +kernel), ?_⟩ <;> decide +kernel,
   by refine ⟨(link ⟨true, 0⟩ 2 { LinkSt.reset with pmSent := true }), ⟨true, 0⟩, prot, ?_, ?_, ?_, ?_, _, accepts (by decide +kernel), ?_⟩ <;> decide +kernel⟩

/-- Inputs that meet the hypotheses of LinkControlFlitsComplete, one for each of its clauses. -/
theorem witness_LinkControlFlitsComplete :
    (∃ (s u : State) (e : LinkEnd) (f : Flit), e.wf = true ∧ s.stopped = false ∧ s.Accepts u e f ∧ ∃ (shared : BitVec 32) (reserved : List (BitVec
      32)), isCtl f 5 = true) ∧
    (∃ (s u : State) (e : LinkEnd) (f : Flit), e.wf = true ∧ s.stopped = false ∧ s.Accepts u e f ∧ let x := (u.lk e); ∃ m : Masks, isCtl f 1 = true ∧
      x.width = 0) ∧
    (∃ (s u : State) (e : LinkEnd) (f : Flit), e.wf = true ∧ s.stopped = false ∧ s.Accepts u e f ∧ let x := (u.lk e); ∃ m : Masks, isCtl f 1 = true ∧
      x.width = 1 ∧ e.iod = false) ∧
    (∃ (s u : State) (e : LinkEnd) (f : Flit), e.wf = true ∧ s.stopped = false ∧ s.Accepts u e f ∧ let x := (u.lk e); ∃ m : Masks, isCtl f 1 = true ∧
      x.width = 1 ∧ e.iod = true) ∧
    (∃ (s u : State) (e : LinkEnd) (f : Flit), e.wf = true ∧ s.stopped = false ∧ s.Accepts u e f ∧ let x := (u.lk e); ∃ m : Masks, isCtl f 2 = true ∧
      x.width = 1) ∧
    (∃ (s u : State) (e : LinkEnd) (f : Flit), e.wf = true ∧ s.stopped = false ∧ s.Accepts u e f ∧ ∃ q : BitVec 12, isCtl f 3 = true) :=
  ⟨⟨(link ⟨true, 0⟩ 2 LinkSt.reset), _, ⟨true, 0⟩, (ctl 5), by decide +kernel, by decide +kernel, accepts (by decide +kernel), 0, ([]), by decide +kernel⟩,
   ⟨(link ⟨true, 0⟩ 2 LinkSt.reset), _, ⟨true, 0⟩, (ctl 1), by decide +kernel, by decide +kernel, accepts (by decide +kernel), ⟨0, 0, 0, 0⟩, by decide +kernel⟩,
   ⟨(link ⟨false, 11⟩ 2 { LinkSt.reset with width := 1 }), _, ⟨false, 11⟩, (ctl 1), by decide +kernel, by decide +kernel, accepts (by decide +kernel), ⟨0, 0, 0,
     0⟩, by decide +kernel⟩,
   ⟨(link ⟨true, 0⟩ 2 { LinkSt.reset with width := 1 }), _, ⟨true, 0⟩, (ctl 1), by decide +kernel, by decide +kernel, accepts (by decide +kernel), ⟨0, 0, 0, 0⟩,
     by decide +kernel⟩,
   ⟨(link ⟨true, 0⟩ 2 { LinkSt.reset with width := 1 }), _, ⟨true, 0⟩, (ctl 2), by decide +kernel, by decide +kernel, accepts (by decide +kernel), ⟨0, 0, 0, 0⟩,
     by decide +kernel⟩,
   ⟨(link ⟨true, 0⟩ 2 LinkSt.reset), _, ⟨true, 0⟩, (ctl 3), by decide +kernel, by decide +kernel, accepts (by decide +kernel), 0, by decide +kernel⟩⟩

/-- Inputs that meet the hypotheses of LinkControlFlitsComplete, one for each of its clauses. -/
theorem witness_LinkControlFlitsComplete_later :
    (∃ (s u : State) (e : LinkEnd) (f : Flit), e.wf = true ∧ s.stopped = false ∧ s.Accepts u e f ∧ let x := (u.lk e); isCtl f 4 = true ∧ x.width ≠ 0) ∧
    (∃ (s u : State) (e : LinkEnd) (f : Flit), e.wf = true ∧ s.stopped = false ∧ s.Accepts u e f ∧ let x := (u.lk e); isCtl f 6 = true ∧ x.pmSent =
      true) ∧
    (∃ (s u : State) (e : LinkEnd) (f : Flit), e.wf = true ∧ s.stopped = false ∧ s.Accepts u e f ∧ let x := (u.lk e); isCtl f 6 = true ∧ x.pmSent =
      false ∧ u.lkIdle e = true) ∧
    (∃ (s u : State) (e : LinkEnd) (f : Flit), e.wf = true ∧ s.stopped = false ∧ s.Accepts u e f ∧ let x := (u.lk e); isCtl f 6 = true ∧ x.pmSent =
      false ∧ u.lkIdle e = false) ∧
    (∃ (s u : State) (e : LinkEnd) (f : Flit), e.wf = true ∧ s.stopped = false ∧ s.Accepts u e f ∧ let x := (u.lk e); isCtl f 7 = true ∧ x.pmSent =
      true) ∧
    (∃ (s u : State) (e : LinkEnd) (f : Flit), e.wf = true ∧ s.stopped = false ∧ s.Accepts u e f ∧ isCtl f 8 = true) :=
  ⟨⟨(link ⟨true, 0⟩ 2 { LinkSt.reset with width := 3 }), _, ⟨true, 0⟩, (ctl 4), by decide +kernel, by decide +kernel, accepts (by decide +kernel),
  by decide +kernel⟩,
   ⟨(link ⟨true, 0⟩ 2 { LinkSt.reset with pmSent := true }), _, ⟨true, 0⟩, (ctl 6), by decide +kernel, by decide +kernel, accepts (by decide +kernel),
     by decide +kernel⟩,
   ⟨(linked.fput (kSclPm ⟨true, 0⟩) fSclPm_LP2EN 1), _, ⟨true, 0⟩, (ctl 6), by decide +kernel, by decide +kernel, accepts (by decide +kernel),
     by decide +kernel⟩,
   ⟨(link ⟨true, 0⟩ 2 { LinkSt.reset with width := 1 }), _, ⟨true, 0⟩, (ctl 6), by decide +kernel, by decide +kernel, accepts (by decide +kernel),
     by decide +kernel⟩,
   ⟨(link ⟨true, 0⟩ 2 { LinkSt.reset with pmSent := true }), _, ⟨true, 0⟩, (ctl 7), by decide +kernel, by decide +kernel, accepts (by decide +kernel),
     by decide +kernel⟩,
   ⟨(link ⟨true, 0⟩ 2 LinkSt.reset), _, ⟨true, 0⟩, (ctl 8), by decide +kernel, by decide +kernel, accepts (by decide +kernel), by decide +kernel⟩⟩

/-- Inputs that meet the hypotheses of LinkTrainingComplete, one for each of its clauses. -/
theorem witness_LinkTrainingComplete :
    (∃ (s : State) (e : LinkEnd), e.wf = true ∧ s.stopped = false ∧ s.lkState e ≠ 1 ∧ s.fon (kSclSplit e.link) fSclSplit_LOCK = true ∧ (s.lk ⟨true,
      e.link⟩).dead = false ∧ (s.unit e.link 0xFF).st ≠ .retired) ∧
    (∃ (s : State) (e : LinkEnd), e.wf = true ∧ s.stopped = false ∧ e.iod = true ∧ ((s.lkState e = 2 ∨ s.lkState e = 4))) ∧
    (∃ (s : State) (e : LinkEnd), e.wf = true ∧ s.stopped = false ∧ s.boot.windowOpen = false ∧ ((s.lkState e = 1 ∨ s.lkState e = 3))) ∧
    (∃ (s : State) (e : LinkEnd), e.wf = true ∧ s.stopped = false ∧ s.lkState e ≠ 0 ∧ s.lkAsleep e = false) ∧
    (∃ (s : State) (e : LinkEnd), e.wf = true ∧ s.stopped = false ∧ (s.lk e).lockLost = true) ∧
    (∃ (s : State) (n : Nat) (tr : Training), n < 12 ∧ s.stopped = false ∧ let v := (s.trained n tr); s.lkState ⟨true, n⟩ = 3 ∧ v.mapNow n true ≠ [] ∧
      v.mapNow n false ≠ [] ∧ tr.equal = true) ∧
    (∃ (s : State) (n : Nat) (tr : Training), n < 12 ∧ s.stopped = false ∧ let v := (s.trained n tr); s.lkState ⟨true, n⟩ = 1 ∧ v.capCheck n
      tr.capWord = 0 ∧ v.mapNow n true ≠ [] ∧ v.mapNow n false ≠ [] ∧ tr.equal = true) ∧
    (∃ (s : State) (n : Nat) (tr : Training), n < 12 ∧ s.stopped = false ∧ let v := (s.trained n tr); s.lkState ⟨true, n⟩ = 1 ∧ v.capCheck n
      tr.capWord = 1) ∧
    (∃ (s : State) (n : Nat) (tr : Training), n < 12 ∧ s.stopped = false ∧ let v := (s.trained n tr); s.lkState ⟨true, n⟩ = 1 ∧ v.capCheck n
      tr.capWord = 2) ∧
    (∃ (s : State) (n : Nat) (tr : Training), n < 12 ∧ s.stopped = false ∧ let v := (s.trained n tr); s.lkState ⟨true, n⟩ = 1 ∧ v.capCheck n
      tr.capWord = 3) ∧
    (∃ (s : State) (n : Nat) (tr : Training), n < 12 ∧ s.stopped = false ∧ let v := (s.trained n tr); s.lkState ⟨true, n⟩ = 3 ∧ (v.mapNow n true = []
      ∨ v.mapNow n false = [])) ∧
    (∃ (s : State) (n : Nat) (tr : Training), n < 12 ∧ s.stopped = false ∧ let v := (s.trained n tr); s.lkState ⟨true, n⟩ = 3 ∧ v.mapNow n true ≠ [] ∧
      v.mapNow n false ≠ [] ∧ tr.equal = false ∧ 2 ≤ (v.lk ⟨true, n⟩).unequal) ∧
    (∃ (s : State) (n : Nat) (tr : Training), n < 12 ∧ s.stopped = false ∧ let v := (s.trained n tr); s.lkState ⟨true, n⟩ = 3 ∧ v.mapNow n true ≠ [] ∧
      v.mapNow n false ≠ [] ∧ tr.equal = false ∧ (v.lk ⟨true, n⟩).unequal < 2) :=
  ⟨⟨(run.fput (kSclSplit 11) fSclSplit_LOCK 1), ⟨false, 11⟩, by decide +kernel⟩,
   ⟨linked, ⟨true, 11⟩, by decide +kernel⟩,
   ⟨(link ⟨true, 11⟩ 3 LinkSt.reset), ⟨true, 11⟩, by decide +kernel⟩,
   ⟨linked, ⟨true, 11⟩, by decide +kernel⟩,
   ⟨(link ⟨true, 0⟩ 2 { LinkSt.reset with lockLost := true }), ⟨true, 0⟩, by decide +kernel⟩,
   ⟨(link ⟨true, 11⟩ 3 LinkSt.reset), 11, ⟨false, ⟨0, 0, 0, 0⟩, ⟨0, 0, 0, 0⟩, 0, true⟩, by decide +kernel⟩,
   ⟨(link ⟨true, 11⟩ 1 LinkSt.reset), 11, ⟨false, ⟨0, 0, 0, 0⟩, ⟨0, 0, 0, 0⟩, fSclLocalcap_KIND.put (fSclLocalcap_FORMAT.put (fSclLocalcap_LINK_FEAT.put
     (fSclLocalcap_PKG_FEAT.put 0 1) 7) 1) 1, true⟩, by decide +kernel⟩,
   ⟨(link ⟨true, 11⟩ 1 LinkSt.reset), 11, ⟨false, ⟨0, 0, 0, 0⟩, ⟨0, 0, 0, 0⟩, 0, true⟩, by decide +kernel⟩,
   ⟨((link ⟨true, 11⟩ 1 LinkSt.reset).wr (kSclPeercap 11) 1), 11, ⟨false, ⟨0, 0, 0, 0⟩, ⟨0, 0, 0, 0⟩, 0, true⟩, by decide +kernel⟩,
   ⟨({ link ⟨true, 11⟩ 1 LinkSt.reset with boot := { run.boot with effFixed := true } }), 11, ⟨false, ⟨0, 0, 0, 0⟩, ⟨0, 0, 0, 0⟩, fSclLocalcap_KIND.put
     (fSclLocalcap_FORMAT.put (fSclLocalcap_LINK_FEAT.put (fSclLocalcap_PKG_FEAT.put 0 1) 7) 1) 1, true⟩, by decide +kernel⟩,
   ⟨(link ⟨true, 11⟩ 3 LinkSt.reset), 11, ⟨false, ⟨BitVec.allOnes 64, 0, 15, 0⟩, ⟨0, 0, 0, 0⟩, 0, true⟩, by decide +kernel⟩,
   ⟨(link ⟨true, 11⟩ 3 { LinkSt.reset with unequal := 2 }), 11, ⟨false, ⟨0, 0, 0, 0⟩, ⟨0, 0, 0, 0⟩, 0, false⟩, by decide +kernel⟩,
   ⟨(link ⟨true, 11⟩ 3 LinkSt.reset), 11, ⟨false, ⟨0, 0, 0, 0⟩, ⟨0, 0, 0, 0⟩, 0, false⟩, by decide +kernel⟩⟩

/-- Inputs that meet the hypotheses of LinkEventsComplete, one for each of its clauses. -/
theorem witness_LinkEventsComplete :
    (∃ (s : State) (e : LinkEnd), e.wf = true ∧ s.stopped = false ∧ ∃ f l, s.lkUp e = true ∧ (s.lk e).replay = f :: l) ∧
    (∃ (s : State) (e : LinkEnd), e.wf = true ∧ s.stopped = false ∧ s.lkUp e = true) ∧
    (∃ (s : State) (e : LinkEnd), e.wf = true ∧ s.stopped = false ∧ (s.lk e).width = 2 ∧ (s.lk e).replay = [] ∧ s.lkUp e = true) ∧
    (∃ (s : State) (e : LinkEnd), e.wf = true ∧ s.stopped = false ∧ s.lkIdle e = true ∧ (s.lk e).pmSent = false ∧ (s.lk e).pmOk = false) ∧
    (∃ (s : State) (e : LinkEnd), e.wf = true ∧ s.stopped = false ∧ s.lkUp e = true ∧ s.fon (kSclPm e) fSclPm_LP1EN = true ∧ (s.lk e).lp1 = false ∧
      s.fget (kSclStat e) (if e.iod then fSclStat_PDN else fSclStat_PUP) < s.fget (kSclStat e) (if e.iod then fSclStat_WDN else fSclStat_WUP)) ∧
    (∃ (s : State) (e : LinkEnd), e.wf = true ∧ s.stopped = false ∧ s.dstate e.link ≠ 0 ∧ s.parked e.link = false ∧ s.dieOut e.link = false) ∧
    (∃ (s : State) (e : LinkEnd), e.wf = true ∧ s.stopped = false ∧ s.dstate e.link = 0 ∧ s.linkActive e.link = true ∧ s.lkAsleep e = true) ∧
    (∃ (s : State) (e : LinkEnd), e.wf = true ∧ s.stopped = false ∧ ∃ b : BurstMsg, s.lkUp e = true ∧ b.tag.toNat < 64 ∧ crc32p (BurstBytes b) ≠
      b.crc) ∧
    (∃ (s : State) (e : LinkEnd), e.wf = true ∧ s.stopped = false ∧ ∃ b : BurstMsg, s.lkUp e = true ∧ b.tag.toNat < 64 ∧ crc32p (BurstBytes b) = b.crc
      ∧ 1 ≤ b.lines.length ∧ b.lines.length ≤ 32 ∧ b.use.toNat = SMap.get (fun _ => 0) (s.lk e).rxUse b.tag.toNat) ∧
    (∃ (s : State) (e : LinkEnd), e.wf = true ∧ s.stopped = false ∧ ∃ g : BitVec 6, s.lkUp e = true ∧ (s.lk e).rxOpen.contains g.toNat = true) ∧
    (∃ (s : State) (e : LinkEnd), e.wf = true ∧ s.stopped = false ∧ ∃ g : BitVec 6, s.lkUp e = true ∧ (s.lk e).rxOpen.contains g.toNat = false) ∧
    (∃ (s : State) (e : LinkEnd), e.wf = true ∧ s.stopped = false) ∧
    (∃ (s : State) (e : LinkEnd), e.wf = true ∧ s.stopped = false ∧ ∃ (g : BitVec 6) (u : TagUse), (s.lk e).tags.find? (fun u => u.tag = g.toNat) =
      some u ∧ u.asked < 2) ∧
    (∃ (s : State) (e : LinkEnd), e.wf = true ∧ s.stopped = false ∧ ∃ (g : BitVec 6) (u : TagUse), (s.lk e).tags.find? (fun u => u.tag = g.toNat) =
      some u ∧ u.asked = 2) :=
  ⟨⟨(link ⟨true, 0⟩ 2 { LinkSt.reset with replay := [⟨4095, 1, 0, [], false⟩] }), ⟨true, 0⟩, by decide +kernel, by decide +kernel, ⟨4095, 1, 0, [], false⟩, ([]),
  by decide +kernel⟩,
   ⟨linked, ⟨true, 0⟩, by decide +kernel⟩,
   ⟨(link ⟨true, 0⟩ 2 { LinkSt.reset with width := 2 }), ⟨true, 0⟩, by decide +kernel⟩,
   ⟨(linked.fput (kSclPm ⟨true, 0⟩) fSclPm_LP2EN 1), ⟨true, 0⟩, by decide +kernel⟩,
   ⟨((linked.fput (kSclPm ⟨true, 0⟩) fSclPm_LP1EN 1).fput (kSclStat ⟨true, 0⟩) fSclStat_WDN 8), ⟨true, 0⟩, by decide +kernel⟩,
   ⟨(run.fput (kPwrDstat 0) fPwrDstat_DSTATE 2), ⟨true, 0⟩, by decide +kernel⟩,
   ⟨(linked.fput (kSclStat ⟨true, 0⟩) fSclStat_PWR 2), ⟨true, 0⟩, by decide +kernel⟩,
   ⟨linked, ⟨true, 0⟩, by decide +kernel, by decide +kernel, ⟨63, 0, [0], ~~~ crc32p (BurstBytes ⟨63, 0, [0], 0⟩)⟩, by decide +kernel, by decide +kernel,
     (congrArg crc32p (burst_bytes ..)).trans_ne (compl_ne _)⟩,
   ⟨linked, ⟨true, 0⟩, by decide +kernel, by decide +kernel, ⟨63, 0, [0], crc32p (BurstBytes ⟨63, 0, [0], 0⟩)⟩, by decide +kernel, by decide +kernel, congrArg
     crc32p (burst_bytes ..), by decide +kernel⟩,
   ⟨(link ⟨true, 0⟩ 2 { LinkSt.reset with rxOpen := [63] }), ⟨true, 0⟩, by decide +kernel, by decide +kernel, 63, by decide +kernel⟩,
   ⟨linked, ⟨true, 0⟩, by decide +kernel, by decide +kernel, 63, by decide +kernel⟩,
   ⟨linked, ⟨true, 0⟩, by decide +kernel⟩,
   ⟨(link ⟨true, 0⟩ 2 { LinkSt.reset with tags := [⟨63, 0, [], 1⟩] }), ⟨true, 0⟩, by decide +kernel, by decide +kernel, 63, ⟨63, 0, [], 1⟩, by decide +kernel⟩,
   ⟨(link ⟨true, 0⟩ 2 { LinkSt.reset with tags := [⟨63, 0, [], 2⟩] }), ⟨true, 0⟩, by decide +kernel, by decide +kernel, 63, ⟨63, 0, [], 2⟩, by decide +kernel⟩⟩

/-- Inputs that meet the hypotheses of ComputeDiePhaseEnds, one for each of its clauses. -/
theorem witness_ComputeDiePhaseEnds :
    (∃ (s : State), s.stopped = false ∧ s.boot.windowOpen = true ∧ s.boot.cdPhase = true ∧ s.boot.effFixed = true) ∧
    (∃ (s : State), s.stopped = false ∧ s.boot.windowOpen = true ∧ s.boot.cdPhase = true ∧ s.boot.effFixed = false) ∧
    (∃ (s : State), s.stopped = false ∧ s.boot.windowOpen = true ∧ s.boot.cdPhase = true ∧ s.boot.effFixed = false ∧ ∃ k, k ≠ kMgtEffcap) :=
  ⟨⟨({ run with boot := { run.boot with windowOpen := true, cdPhase := true, effFixed := true } }), by decide +kernel⟩,
   ⟨({ run with boot := { run.boot with windowOpen := true, cdPhase := true, effFixed := false } }), by decide +kernel⟩,
   by refine ⟨({ run with boot := { run.boot with windowOpen := true, cdPhase := true, effFixed := false } }), ?_, ?_, ?_, ?_, 0, ?_⟩ <;> decide +kernel⟩

/-- Inputs that meet the hypotheses of MoveStepsComplete, one for each of its clauses. -/
theorem witness_MoveStepsComplete :
    (∃ (s : State) (n line : Nat) (x : Slot), n < 64 ∧ line < 64 ∧ s.stopped = false ∧ s.down = false ∧ SMap.find s.enl.slots n = some x ∧ let open'
      := (x.draining = false ∧ x.closed = false ∧ x.moved.getLsbD line = false ∧ s.lineBusy (x.frame * 64 + line) = false); open' ∧ x.kind = .copy ∧
      s.dstGone x = false) ∧
    (∃ (s : State) (n line : Nat) (x : Slot), n < 64 ∧ line < 64 ∧ s.stopped = false ∧ s.down = false ∧ SMap.find s.enl.slots n = some x ∧ let open'
      := (x.draining = false ∧ x.closed = false ∧ x.moved.getLsbD line = false ∧ s.lineBusy (x.frame * 64 + line) = false); open' ∧ x.kind = .copy ∧
      s.dstGone x = true) ∧
    (∃ (s : State) (n line : Nat) (x : Slot), n < 64 ∧ line < 64 ∧ s.stopped = false ∧ s.down = false ∧ SMap.find s.enl.slots n = some x ∧ let open'
      := (x.draining = false ∧ x.closed = false ∧ x.moved.getLsbD line = false ∧ s.lineBusy (x.frame * 64 + line) = false); ∃ p, open' ∧ x.kind =
      .compress p) ∧
    (∃ (s : State) (n line : Nat) (x : Slot), n < 64 ∧ line < 64 ∧ s.stopped = false ∧ s.down = false ∧ SMap.find s.enl.slots n = some x ∧ x.draining
      = true ∧ (∀ r, x.kind ≠ .rekey r ∧ x.kind ≠ .rekeyBlob r) ∧ ((∀ p, p ∈ s.fio.t1 → p.k ≠ x.src))) ∧
    (∃ (s : State) (n line : Nat) (x : Slot), n < 64 ∧ line < 64 ∧ s.stopped = false ∧ s.down = false ∧ SMap.find s.enl.slots n = some x ∧ ∃ r, x.kind
      = .rekey r ∧ x.draining = false ∧ x.moved.getLsbD line = false ∧ s.lineBusy (x.frame * 64 + line) = false) ∧
    (∃ (s : State) (n line : Nat) (x : Slot), n < 64 ∧ line < 64 ∧ s.stopped = false ∧ s.down = false ∧ SMap.find s.enl.slots n = some x ∧ let e :=
      (s.ent x.frame); ∃ r b, x.kind = .rekeyBlob r ∧ x.draining = false ∧ s.blob e.pool e.unit = some b) ∧
    (∃ (s : State) (n line : Nat) (x : Slot), n < 64 ∧ line < 64 ∧ s.stopped = false ∧ s.down = false ∧ SMap.find s.enl.slots n = some x ∧ x.kind =
      .unitCopy ∧ x.draining = false ∧ s.dstGone x = false) ∧
    (∃ (s : State) (n line : Nat) (x : Slot), n < 64 ∧ line < 64 ∧ s.stopped = false ∧ s.down = false ∧ SMap.find s.enl.slots n = some x ∧ ∃ i, x.kind
      = .decompress ∧ s.dstGone x = false ∧ (List.range 64).find? (fun i => !x.moved.getLsbD i) = some i) ∧
    (∃ (s : State) (n line : Nat) (x : Slot), n < 64 ∧ line < 64 ∧ s.stopped = false ∧ s.down = false ∧ SMap.find s.enl.slots n = some x ∧ ∃ i, x.kind
      = .decompress ∧ s.dstGone x = false ∧ (List.range 64).find? (fun i => !x.moved.getLsbD i) = some i ∧ x.moved = 0 ∧ x.bad = false) :=
  ⟨⟨(slotted withSets slot0), 63, 63, slot0, by decide +kernel⟩,
   ⟨(slotted run slot0), 63, 63, slot0, by decide +kernel⟩,
   by refine ⟨(slotted run { slot0 with kind := .compress 0 }), 63, 63, ({ slot0 with kind := .compress 0 }), ?_, ?_, ?_, ?_, ?_, 0, ?_⟩ <;> decide +kernel,
   by refine ⟨(slotted run { slot0 with draining := true }), 63, 63, ({ slot0 with draining := true }), ?_, ?_, ?_, ?_, ?_, ?_, (fun _ => ⟨by simp [slot0], by
     simp [slot0]⟩), ?_⟩ <;> decide +kernel,
   by refine ⟨(slotted run { slot0 with kind := .rekey 15 }), 63, 63, ({ slot0 with kind := .rekey 15 }), ?_, ?_, ?_, ?_, ?_, 15, ?_⟩ <;> decide +kernel,
   by refine ⟨({ slotted run { slot0 with kind := .rekeyBlob 15 } with blobs := [(blobKey 0 0, ⟨[], 0, 1, ⟨0, 0, 0, 0⟩, false⟩)] }), 63, 63,
     ({ slot0 with kind := .rekeyBlob 15 }), ?_, ?_, ?_, ?_, ?_, 15, ⟨[], 0, 1, ⟨0, 0, 0, 0⟩, false⟩, ?_⟩ <;> decide +kernel,
   ⟨(slotted withSets { slot0 with kind := .unitCopy }), 63, 63, ({ slot0 with kind := .unitCopy }), by decide +kernel⟩,
   by refine ⟨(slotted withSets { slot0 with kind := .decompress }), 63, 63, ({ slot0 with kind := .decompress }), ?_, ?_, ?_, ?_, ?_, 0, ?_⟩ <;> decide +kernel,
   by refine ⟨(slotted withSets { slot0 with kind := .decompress }), 63, 63, ({ slot0 with kind := .decompress }), ?_, ?_, ?_, ?_, ?_, 0, ?_⟩ <;> decide +kernel⟩

/-- Inputs that meet the hypotheses of EnlargerEventsComplete, one for each of its clauses. -/
theorem witness_EnlargerEventsComplete :
    (∃ (s : State) (n : Nat), s.stopped = false ∧ s.down = false ∧ s.cmdSlot = some n) ∧
    (∃ (s : State) (e : Evac) (r : List Evac), s.stopped = false ∧ s.enl.evacs = e :: r ∧ e.stall = true) ∧
    (∃ (s : State) (e : Evac) (r : List Evac), s.stopped = false ∧ s.enl.evacs = e :: r ∧ s.enl.used.any (fun p => inSpan (s.evacSpan e) p.1) = false) ∧
    (∃ (s : State), s.stopped = false ∧ s.fget kEnlHeat fEnlHeat_DECAY ≠ 0 ∧ (s.tiered.2 - s.tiered.1) / 4096 ≠ 0 ∧ s.fget kPwrPkg fPwrPkg_PS ≠ 2) ∧
    (∃ (s u : State) (a : TierAccess), a.wf = true ∧ s.stopped = false ∧ s.down = false ∧ u = (if a.ctxErr then s.keyFault a.key a.dark else s) ∧
      u.enl.held.any (fun b => decide (b.line = a.line)) = true) ∧
    (∃ (s u : State) (a : TierAccess), a.wf = true ∧ s.stopped = false ∧ s.down = false ∧ u = (if a.ctxErr then s.keyFault a.key a.dark else s) ∧
      u.enl.held.any (fun b => decide (b.line = a.line)) = false ∧ u.t1Access a = none) ∧
    (∃ (s u : State) (a : TierAccess), a.wf = true ∧ s.stopped = false ∧ s.down = false ∧ u = (if a.ctxErr then s.keyFault a.key a.dark else s) ∧ ∃ k,
      u.enl.held.any (fun b => decide (b.line = a.line)) = false ∧ u.t1Access a = some k) ∧
    (∃ (s : State) (tag : Nat) (data : Line) (poison : Bool) (x : T1Pend), s.stopped = false ∧ s.fio.t1.find? (fun t => t.tag = tag) = some x ∧
      x.a.write = true) ∧
    (∃ (s : State) (tag : Nat) (data : Line) (poison : Bool) (x : T1Pend), s.stopped = false ∧ s.fio.t1.find? (fun t => t.tag = tag) = some x ∧
      x.a.write = false) ∧
    (∃ (s : State) (compress : Bool) (j : CdnJob), s.stopped = false ∧ s.cdnFill.cdn.find? (fun j => decide (j.compress = compress) && j.lane &&
      !s.cdnFill.jobPaused j) = some j ∧ 65536 < j.left) ∧
    (∃ (s : State) (compress : Bool) (j : CdnJob), s.stopped = false ∧ s.cdnFill.cdn.find? (fun j => decide (j.compress = compress) && j.lane &&
      !s.cdnFill.jobPaused j) = some j ∧ ∃ o, j.left ≤ 65536 ∧ s.cdnFill.zci.outs.find? (fun o => o.id = j.id) = some o) :=
  ⟨⟨run, 8, by decide +kernel⟩,
   ⟨({ run with enl := { run.enl with evacs := [⟨0, 0, [], false, true⟩] } }), ⟨0, 0, [], false, true⟩, ([]), by decide +kernel⟩,
   ⟨({ run with enl := { run.enl with evacs := [⟨0, 0, [], false, true⟩] } }), ⟨0, 0, [], false, true⟩, ([]), by decide +kernel⟩,
   ⟨(run.fput kEnlHeat fEnlHeat_DECAY 1), by decide +kernel⟩,
   ⟨({ run with enl := { run.enl with held := [acc0] } }), _, acc0, by decide +kernel, by decide +kernel, by decide +kernel, rfl, by decide +kernel⟩,
   ⟨run, _, acc0, by decide +kernel, by decide +kernel, by decide +kernel, rfl, by decide +kernel⟩,
   ⟨({ run with enl := { run.enl with frames := [(0, { FrameEnt.zero with tier := 1 })] } }), _, acc0, by decide +kernel, by decide +kernel, by decide +kernel,
     rfl, _, by decide +kernel, opt_get (by decide +kernel)⟩,
   ⟨(t1Open { acc0 with write := true }), 9, 0, false, ⟨9, { acc0 with write := true }, 0, none⟩, by decide +kernel⟩,
   ⟨(t1Open acc0), 9, 0, false, ⟨9, acc0, 0, none⟩, by decide +kernel⟩,
   ⟨({ run with cdn := [⟨0, true, 65537, true, 0, 0, [], 0, 0, 0⟩] }), true, ⟨0, true, 65537, true, 0, 0, [], 0, 0, 0⟩, by decide +kernel⟩,
   ⟨({ run with cdn := [⟨0, true, 65536, true, 0, 0, [], 0, 0, 0⟩], zci := { run.zci with outs := [⟨0, ⟨64, 0, []⟩, true, none, true, false, false⟩] } }), true,
     ⟨0, true, 65536, true, 0, 0, [], 0, 0, 0⟩, by decide +kernel, by decide +kernel, ⟨0, ⟨64, 0, []⟩, true, none, true, false, false⟩, by decide +kernel⟩⟩

/-- Inputs that meet the hypotheses of ChannelCommandsComplete, one for each of its clauses. -/
theorem witness_ChannelCommandsComplete :
    (∃ (s : State) (ch : Nat), ch < 16 ∧ s.stopped = false ∧ s.chanUp ch = true ∧ ∃ (a : ChanAccess) (o : ReadOutcome), a.wf = true ∧ (s.chan
      ch).alerted = false ∧ (s.chan ch).attempts = 0 ∧ (((s.mline (s.chanKey ch a.addr)).poison = true ∨ s.eraseOutcome ch o = .clean))) ∧
    (∃ (s : State) (ch : Nat), ch < 16 ∧ s.stopped = false ∧ s.chanUp ch = true ∧ ∃ (a : ChanAccess) (o : ReadOutcome) (d : Nat), a.wf = true ∧
      (s.chan ch).alerted = false ∧ (s.chan ch).attempts = 0 ∧ let v := (s.rowOpen ch a.addr); let u := ((if a.rt then v.evtW (s.chanDark ch a.addr)
      (0x60 + ch) 5 else v).evtW (s.chanDark ch a.addr) (0x60 + ch) 1); (u.mline (u.chanKey ch a.addr)).poison = false ∧ u.eraseOutcome ch o =
      .uncorrectable d) ∧
    (∃ (s : State) (ch : Nat), ch < 16 ∧ s.stopped = false ∧ s.chanUp ch = true ∧ ∃ (a : ChanAccess) (o : ReadOutcome) (d : Nat), a.wf = true ∧
      (s.chan ch).alerted = false ∧ (s.chan ch).attempts = 0 ∧ let v := (s.rowOpen ch a.addr); let u := ((if a.rt then v.evtW (s.chanDark ch a.addr)
      (0x60 + ch) 5 else v).evtW (s.chanDark ch a.addr) (0x60 + ch) 1); (u.mline (u.chanKey ch a.addr)).poison = false ∧ u.eraseOutcome ch o =
      .corrected d) ∧
    (∃ (s : State) (ch : Nat), ch < 16 ∧ s.stopped = false ∧ s.chanUp ch = true ∧ ∃ (a : ChanAccess) (data : Line) (poison : Bool), a.wf = true ∧
      (s.chan ch).alerted = false ∧ (s.chan ch).attempts = 0) ∧
    (∃ (s : State) (ch : Nat), ch < 16 ∧ s.stopped = false ∧ s.chanUp ch = true ∧ (s.chan ch).alerted = false ∧ (s.chan ch).attempts < 4) ∧
    (∃ (s : State) (ch : Nat), ch < 16 ∧ s.stopped = false ∧ s.chanUp ch = true ∧ (s.chan ch).alerted = false ∧ 4 ≤ (s.chan ch).attempts) ∧
    (∃ (s : State) (ch : Nat), ch < 16 ∧ s.stopped = false ∧ s.chanUp ch = true ∧ ∃ (a : ChanAccess) (data : Line) (poison : Bool), a.wf = true ∧
      (s.chan ch).alerted = true) ∧
    (∃ (s : State) (ch : Nat), ch < 16 ∧ s.stopped = false ∧ s.chanUp ch = true ∧ (s.chan ch).alerted = true) ∧
    (∃ (s : State) (ch : Nat), ch < 16 ∧ s.stopped = false ∧ s.chanUp ch = true ∧ ∃ rank, rank < 4 ∧ (s.chan ch).alerted = true) ∧
    (∃ (s : State) (ch : Nat), ch < 16 ∧ s.stopped = false ∧ s.chanUp ch = true ∧ ∃ rank, rank < 4 ∧ (s.chan ch).alerted = false ∧ (s.chan
      ch).attempts = 0 ∧ s.panics ch = true ∧ SMap.get (fun _ => 0) (s.chan ch).owed rank < 4) ∧
    (∃ (s : State) (ch : Nat), ch < 16 ∧ s.stopped = false ∧ s.chanUp ch = true ∧ ∃ rank, rank < 4 ∧ (s.chan ch).alerted = false ∧ (s.chan
      ch).attempts = 0 ∧ s.panics ch = false) ∧
    (∃ (s : State) (ch : Nat), ch < 16 ∧ s.stopped = false ∧ s.chanUp ch = true) ∧
    (∃ (s : State) (ch : Nat), ch < 16 ∧ s.stopped = false ∧ s.chanUp ch = true ∧ s.fget (kMcRtctl ch) fMcRtctl_AGE ≠ 0 ∧ (s.chan ch).queue.any (·.rt)
      = true) ∧
    (∃ (s : State) (ch : Nat), ch < 16 ∧ s.stopped = false ∧ s.chanUp ch = true ∧ ∃ o : ReadOutcome, (s.chan ch).alerted = false ∧ s.panics ch = false
      ∧ (s.setOf ch).isSome = true ∧ (s.chan ch).attempts = 0 ∧ s.fget (kMcScrub ch) fMcScrub_HOURS ≠ 0 ∧ s.fget kPwrPkg fPwrPkg_PS ≠ 2) ∧
    (∃ (s : State) (ch : Nat), ch < 16 ∧ s.stopped = false ∧ s.chanUp ch = true ∧ (s.chan ch).alerted = false ∧ s.panics ch = false ∧ (s.chan
      ch).attempts = 0 ∧ s.fget (kMcRemeas ch) fMcRemeas_PERIOD ≠ 0 ∧ s.fget kPwrPkg fPwrPkg_PS ≠ 2) ∧
    (∃ (s : State) (ch : Nat), ch < 16 ∧ s.stopped = false ∧ s.chanUp ch = true ∧ ∃ w : LaneSweep, (s.chan ch).rank < 4 ∧ (s.chan ch).alerted = false
      ∧ s.panics ch = false ∧ (s.chan ch).attempts = 0 ∧ s.fget (kMcRemeas ch) fMcRemeas_PERIOD ≠ 0 ∧ s.fget kPwrPkg fPwrPkg_PS ≠ 2 ∧ let k :=
      (kMcFocus ch ((s.chan ch).rank * 10)); let r := (recentre (s.fget k fMcFocus_RDDLY) w.read); let x := (recentre (s.fget k fMcFocus_WRDLY)
      w.write); 12 ≤ r.2 ∧ 12 ≤ x.2) :=
  ⟨⟨(chan Chan.reset), 15, by decide +kernel, by decide +kernel, by decide +kernel, ⟨64, true⟩, .clean, by decide +kernel⟩,
   ⟨(chan Chan.reset), 15, by decide +kernel, by decide +kernel, by decide +kernel, ⟨64, true⟩, (.uncorrectable 0), 0, by decide +kernel⟩,
   ⟨(chan Chan.reset), 15, by decide +kernel, by decide +kernel, by decide +kernel, ⟨64, true⟩, (.corrected 5), 5, by decide +kernel⟩,
   ⟨(chan Chan.reset), 15, by decide +kernel, by decide +kernel, by decide +kernel, ⟨64, true⟩, 1, false, by decide +kernel⟩,
   ⟨(chan { Chan.reset with attempts := 3 }), 15, by decide +kernel⟩,
   ⟨(chan { Chan.reset with attempts := 4 }), 15, by decide +kernel⟩,
   ⟨(chan { Chan.reset with alerted := true }), 15, by decide +kernel, by decide +kernel, by decide +kernel, ⟨64, true⟩, 1, false, by decide +kernel⟩,
   ⟨(chan { Chan.reset with alerted := true }), 15, by decide +kernel⟩,
   ⟨(chan { Chan.reset with alerted := true }), 15, by decide +kernel, by decide +kernel, by decide +kernel, 3, by decide +kernel⟩,
   ⟨(chan { Chan.reset with agePanic := true }), 15, by decide +kernel, by decide +kernel, by decide +kernel, 3, by decide +kernel⟩,
   ⟨(chan Chan.reset), 15, by decide +kernel, by decide +kernel, by decide +kernel, 3, by decide +kernel⟩,
   ⟨(chan Chan.reset), 15, by decide +kernel⟩,
   ⟨((chan { Chan.reset with queue := [⟨64, true, false, 0, false, .clean⟩] }).fput (kMcRtctl 15) fMcRtctl_AGE 1), 15, by decide +kernel⟩,
   ⟨((chan Chan.reset).fput (kMcScrub 15) fMcScrub_HOURS 1), 15, by decide +kernel, by decide +kernel, by decide +kernel, .clean, by decide +kernel⟩,
   ⟨((chan Chan.reset).fput (kMcRemeas 15) fMcRemeas_PERIOD 1), 15, by decide +kernel⟩,
   ⟨((chan Chan.reset).fput (kMcRemeas 15) fMcRemeas_PERIOD 1), 15, by decide +kernel, by decide +kernel, by decide +kernel, ⟨List.replicate 33 true,
     List.replicate 33 true⟩, by decide +kernel⟩⟩

/-- Inputs that meet the hypotheses of PortCommandsComplete, one for each of its clauses. -/
theorem witness_PortCommandsComplete :
    (∃ (s : State) (bus dev off : Nat) (write : Bool) (data : Word), bus < 256 ∧ dev < 256 ∧ off < 4096 ∧ s.stopped = false ∧ s.busGroup bus = none) ∧
    (∃ (s : State) (bus dev off : Nat) (write : Bool) (data : Word), bus < 256 ∧ dev < 256 ∧ off < 4096 ∧ s.stopped = false ∧ ∃ q, s.ownConfig bus dev
      off = some q) ∧
    (∃ (s : State) (bus dev off : Nat) (write : Bool) (data : Word), bus < 256 ∧ dev < 256 ∧ off < 4096 ∧ s.stopped = false ∧ ∃ g, s.busGroup bus =
      some g ∧ s.ownConfig bus dev off = none ∧ s.portState (s.groupPort g) ≠ 3) ∧
    (∃ (s : State) (bus dev off : Nat) (write : Bool) (data : Word), bus < 256 ∧ dev < 256 ∧ off < 4096 ∧ s.stopped = false ∧ ∃ g, s.busGroup bus =
      some g ∧ s.ownConfig bus dev off = none ∧ s.portState (s.groupPort g) = 3) ∧
    (∃ (s : State) (port tag : Nat) (data : Word) (w : Nat × DevWait), port < 32 ∧ s.stopped = false ∧ s.devWaiter port tag = some w) ∧
    (∃ (s : State) (port : Nat) (r : BitVec 8), port < 32 ∧ s.stopped = false ∧ s.isRoot (port / 4) = true ∧ s.portThere port = true ∧ s.portState
      port ≠ 3) ∧
    (∃ (s : State) (port : Nat), port < 32 ∧ s.stopped = false ∧ s.portState port = 3) ∧
    (∃ (s : State) (port : Nat), port < 32 ∧ s.stopped = false ∧ s.portState port = 3) ∧
    (∃ (s : State) (port : Nat) (slot : BitVec 6) (key : BitVec 256) (iv : BitVec 64), port < 32 ∧ s.stopped = false ∧ s.isRoot (port / 4) = true) ∧
    (∃ (s : State) (port : Nat) (slot : BitVec 6) (key : BitVec 256) (iv : BitVec 64), port < 32 ∧ s.stopped = false) ∧
    (∃ (s : State) (port : Nat) (w : BitVec 8) (gen : BitVec 4), port < 32 ∧ s.stopped = false ∧ s.fon (kFioGcfg (port / 4)) fFioGcfg_LOCK = true ∧
      s.portLanes port ≠ 0 ∧ s.isRoot (port / 4) = true ∧ s.portState port ≠ 3 ∧ 1 ≤ gen.toNat ∧ gen.toNat ≤ 6) ∧
    (∃ (s : State) (port : Nat) (w : BitVec 8) (gen : BitVec 4), port < 32 ∧ s.stopped = false ∧ s.fon (kFioGcfg (port / 4)) fFioGcfg_LOCK = true ∧
      s.portLanes port ≠ 0 ∧ s.role (port / 4) = 3 ∧ gen = 6#4) ∧
    (∃ (s : State) (port : Nat) (w : BitVec 8) (gen : BitVec 4), port < 32 ∧ s.stopped = false ∧ s.fon (kFioGcfg (port / 4)) fFioGcfg_LOCK = true ∧
      s.portLanes port ≠ 0 ∧ ∃ fn, s.role (port / 4) = 4 ∧ s.lendOfGroup (port / 4) = some fn ∧ s.lendFrozen fn = false) ∧
    (∃ (s : State) (port : Nat) (w : BitVec 8) (gen : BitVec 4), port < 32 ∧ s.stopped = false ∧ s.fon (kFioGcfg (port / 4)) fFioGcfg_LOCK = true ∧
      s.portLanes port ≠ 0 ∧ s.role (port / 4) = 5 ∧ s.fget (kFioXstat (port / 4)) fFioXstat_STATE = 0 ∧ s.fio.xdown.contains (port / 4) = false ∧ 0 <
      s.xWidth (port / 4)) ∧
    (∃ (s : State) (port : Nat), port < 32 ∧ s.stopped = false ∧ (s.isRoot (port / 4) = true ∨ s.role (port / 4) = 3) ∧ s.portState port ≠ 3) ∧
    (∃ (s : State) (port : Nat), port < 32 ∧ s.stopped = false ∧ ∃ fn, s.role (port / 4) = 4 ∧ s.lendOfGroup (port / 4) = some fn ∧ (s.lf fn).reqs ≠
      []) ∧
    (∃ (s : State) (port : Nat), port < 32 ∧ s.stopped = false ∧ s.role (port / 4) = 5 ∧ s.fget (kFioXstat (port / 4)) fFioXstat_STATE = 2) ∧
    (∃ (s : State) (g : Nat), g < 8 ∧ s.stopped = false ∧ s.fget (kFioXstat g) fFioXstat_STATE = 2) ∧
    (∃ (s : State) (g : Nat), g < 8 ∧ s.stopped = false ∧ s.fget (kFioXstat g) fFioXstat_STATE = 2 ∧ ∃ a b, (a && !s.laneOut g 0 8 || b && !s.laneOut
      g 8 8) = false) ∧
    (∃ (s : State) (g : Nat), g < 8 ∧ s.stopped = false ∧ s.fget (kFioXstat g) fFioXstat_STATE = 2 ∧ ∃ a b, (a && !s.laneOut g 0 8 || b && !s.laneOut
      g 8 8) = true) ∧
    (∃ (s : State) (g : Nat), g < 8 ∧ s.stopped = false ∧ s.fget (kFioXstat g) fFioXstat_STATE = 2 ∧ SMap.get (fun _ => 0) s.fio.xreps g < 7) ∧
    (∃ (s : State) (g : Nat), g < 8 ∧ s.stopped = false ∧ s.fget (kFioXstat g) fFioXstat_STATE = 2 ∧ 7 ≤ SMap.get (fun _ => 0) s.fio.xreps g) ∧
    (∃ (s : State) (g : Nat) (ps pp : BitVec 2) (cap : Word) (mode : Bool) (range : Word), g < 8 ∧ s.stopped = false ∧ s.role g = 5 ∧
      s.boot.windowOpen = true ∧ s.boot.effFixed = true ∧ s.fget (kFioXstat g) fFioXstat_STATE < 2 ∧ s.xWidth g ≠ 0 ∧ s.fio.xdown.contains g = false ∧
      s.home.lost.contains (12 + s.fget (kFioGcfg g) fFioGcfg_PEER) = false ∧ ps.toNat = s.fget (kFioGcfg g) fFioGcfg_PEER ∧ pp.toNat = s.sock ∧ cap =
      s.rd kMgtEffcap ∧ mode = s.fon kHaGctl fHaGctl_MODE) ∧
    (∃ (s : State) (g : Nat) (ps pp : BitVec 2) (cap : Word) (mode : Bool) (range : Word), g < 8 ∧ s.stopped = false ∧ s.role g = 5 ∧
      s.boot.windowOpen = true ∧ s.boot.effFixed = true ∧ s.fget (kFioXstat g) fFioXstat_STATE < 2 ∧ s.xWidth g ≠ 0 ∧ s.fio.xdown.contains g = false ∧
      s.home.lost.contains (12 + s.fget (kFioGcfg g) fFioGcfg_PEER) = false ∧ (ps.toNat ≠ s.fget (kFioGcfg g) fFioGcfg_PEER ∨ pp.toNat ≠ s.sock)) ∧
    (∃ (s : State) (g : Nat) (ps pp : BitVec 2) (cap : Word) (mode : Bool) (range : Word), g < 8 ∧ s.stopped = false ∧ s.role g = 5 ∧
      s.boot.windowOpen = true ∧ s.boot.effFixed = true ∧ s.fget (kFioXstat g) fFioXstat_STATE < 2 ∧ s.xWidth g ≠ 0 ∧ s.fio.xdown.contains g = false ∧
      s.home.lost.contains (12 + s.fget (kFioGcfg g) fFioGcfg_PEER) = false ∧ ps.toNat = s.fget (kFioGcfg g) fFioGcfg_PEER ∧ pp.toNat = s.sock ∧ cap ≠
      s.rd kMgtEffcap) ∧
    (∃ (s : State) (g : Nat) (ps pp : BitVec 2) (cap : Word) (mode : Bool) (range : Word), g < 8 ∧ s.stopped = false ∧ s.role g = 5 ∧
      s.boot.windowOpen = true ∧ s.boot.effFixed = true ∧ s.fget (kFioXstat g) fFioXstat_STATE < 2 ∧ s.xWidth g ≠ 0 ∧ s.fio.xdown.contains g = false ∧
      s.home.lost.contains (12 + s.fget (kFioGcfg g) fFioGcfg_PEER) = false ∧ ps.toNat = s.fget (kFioGcfg g) fFioGcfg_PEER ∧ pp.toNat = s.sock ∧ cap =
      s.rd kMgtEffcap ∧ mode ≠ s.fon kHaGctl fHaGctl_MODE) ∧
    (∃ (s : State) (a : FabricAccess), a.wf = true ∧ s.stopped = false ∧ ∃ i fa, s.fabCheck a.hpa a.write a.atom = some (i, fa)) ∧
    (∃ (s : State) (a : FabricAccess), a.wf = true ∧ s.stopped = false ∧ s.fabCheck a.hpa a.write a.atom = none ∧ a.write = true ∧ a.atom = false) ∧
    (∃ (s : State) (a : FabricAccess), a.wf = true ∧ s.stopped = false ∧ s.fabCheck a.hpa a.write a.atom = none ∧ (a.write = false ∨ a.atom = true)) :=
  ⟨⟨run, 255, 0, 4095, false, 0, by decide +kernel⟩,
   by refine ⟨pcie, 0, 0, 0x48, true, 1, ?_, ?_, ?_, ?_, 0, ?_⟩ <;> decide +kernel,
   by refine ⟨pcie, 0, 0, 4095, true, 1, ?_, ?_, ?_, ?_, 0, ?_⟩ <;> decide +kernel,
   by refine ⟨(pcie.setPort 0 3 0 0), 0, 0, 4095, false, 1, ?_, ?_, ?_, ?_, 0, ?_⟩ <;> decide +kernel,
   ⟨(core0 (fun kk => { kk with dev := [⟨31, 7, 0, 8, none⟩] })), 31, 7, 1, (0, ⟨31, 7, 0, 8, none⟩), by decide +kernel⟩,
   ⟨pcie, 0, 255, by decide +kernel⟩,
   ⟨(pcie.setPort 0 3 0 0), 0, by decide +kernel⟩,
   ⟨(pcie.setPort 0 3 0 0), 0, by decide +kernel⟩,
   ⟨pcie, 3, 63, 1, 1, by decide +kernel⟩,
   ⟨pcie, 3, 63, 1, 1, by decide +kernel⟩,
   ⟨(pcie.fput (kFioGcfg 0) fFioGcfg_LOCK 1), 0, 16, 6, by decide +kernel⟩,
   ⟨(group7 3), 28, 16, 6, by decide +kernel⟩,
   by refine ⟨((lend LendFn.reset).fput (kFioGcfg 0) fFioGcfg_LOCK 1), 0, 16, 6, ?_, ?_, ?_, ?_, 0, ?_⟩ <;> decide +kernel,
   ⟨(group7 5), 28, 16, 6, by decide +kernel⟩,
   ⟨pcie, 0, by decide +kernel⟩,
   ⟨(lend { LendFn.reset with reqs := [⟨0, 0, 0, 0, 0, 0, 0, false, 0⟩] }), 0, by decide +kernel, by decide +kernel, 0, by decide +kernel⟩,
   ⟨((group7 5).fput (kFioXstat 7) fFioXstat_STATE 2), 31, by decide +kernel⟩,
   ⟨((group7 5).fput (kFioXstat 7) fFioXstat_STATE 2), 7, by decide +kernel⟩,
   ⟨((group7 5).fput (kFioXstat 7) fFioXstat_STATE 2), 7, by decide +kernel, by decide +kernel, by decide +kernel, false, false, by decide +kernel⟩,
   ⟨((group7 5).fput (kFioXstat 7) fFioXstat_STATE 2), 7, by decide +kernel, by decide +kernel, by decide +kernel, true, false, by decide +kernel⟩,
   ⟨((group7 5).fput (kFioXstat 7) fFioXstat_STATE 2), 7, by decide +kernel⟩,
   ⟨({ (group7 5).fput (kFioXstat 7) fFioXstat_STATE 2 with fio := { run.fio with xreps := [(7, 7)] } }), 7, by decide +kernel⟩,
   by refine ⟨joining, 7, 0, 0, (joining.rd kMgtEffcap), (joining.fon kHaGctl fHaGctl_MODE), 0, ?_, ?_, ?_, ?_, ?_, ?_, ?_, ?_, ?_, ?_, ?_, rfl, rfl⟩
     <;> decide +kernel,
   ⟨joining, 7, 1, 0, 0, false, 0, by decide +kernel⟩,
   ⟨joining, 7, 0, 0, 1, false, 0, by decide +kernel⟩,
   by refine ⟨joining, 7, 0, 0, (joining.rd kMgtEffcap), (!joining.fon kHaGctl fHaGctl_MODE), 0, ?_, ?_, ?_, ?_, ?_, ?_, ?_, ?_, ?_, ?_, ?_, rfl, ?_⟩
     <;> decide +kernel,
   ⟨(({ run with fio := { run.fio with fwt := [(0, (fFwtData0_RD.put (fFwtData0_V.put (fFwtData0_LIMIT.put 0 1) 1) 1, 0))] }, plat := { run.plat with groups := [⟨3, 0, 0, 0, 0, 0, 0⟩] } }
     : State).fput kFwtAper fFwtAper_BASE 64), ⟨0x1000000000, false, false, 0, 0⟩, by decide +kernel, by decide +kernel, 0, 0, by decide +kernel⟩,
   ⟨run, ⟨0x1000000000, true, false, 0, 0⟩, by decide +kernel⟩,
   ⟨run, ⟨0x1000000000, false, false, 0, 0⟩, by decide +kernel⟩⟩

/-- Inputs that meet the hypotheses of LendRequestsComplete, one for each of its clauses. -/
theorem witness_LendRequestsComplete :
    (∃ (s : State) (c : Instr) (fn addr tag kind : Nat) (data : Line) (mask : BitVec 64) (poison : Bool), lendReqOf c = some (fn, addr, tag, kind,
      data, mask, poison) ∧ fn < 2 ∧ s.stopped = false ∧ (s.lf fn).link = 2 ∧ (s.lf fn).cxr = false ∧ (s.lf fn).reqs.length < 512 ∧ ((∀ q, q ∈ (s.lf
      fn).reqs → q.tag ≠ tag)) ∧ let u := (s.evtLnd fn (if kind = 0 then 0 else 1)); u.lendFrozen fn = true) ∧
    (∃ (s : State) (c : Instr) (fn addr tag kind : Nat) (data : Line) (mask : BitVec 64) (poison : Bool), lendReqOf c = some (fn, addr, tag, kind,
      data, mask, poison) ∧ fn < 2 ∧ s.stopped = false ∧ (s.lf fn).link = 2 ∧ (s.lf fn).cxr = false ∧ (s.lf fn).reqs.length < 512 ∧ ((∀ q, q ∈ (s.lf
      fn).reqs → q.tag ≠ tag)) ∧ let u := (s.evtLnd fn (if kind = 0 then 0 else 1)); u.lendFrozen fn = false ∧ (((s.lf fn).memEn = false ∨ ((s.lf
      fn).dpaOf (addr / 64 * 64)).bind (fun d => (u.lentAt fn d).map (fun p => (d, p.1, p.2))) = none))) ∧
    (∃ (s : State) (c : Instr) (fn addr tag kind : Nat) (data : Line) (mask : BitVec 64) (poison : Bool), lendReqOf c = some (fn, addr, tag, kind,
      data, mask, poison) ∧ fn < 2 ∧ s.stopped = false ∧ (s.lf fn).link = 2 ∧ (s.lf fn).cxr = false ∧ (s.lf fn).reqs.length < 512 ∧ ((∀ q, q ∈ (s.lf
      fn).reqs → q.tag ≠ tag)) ∧ let u := (s.evtLnd fn (if kind = 0 then 0 else 1)); ∃ d h k, u.lendFrozen fn = false ∧ (s.lf fn).memEn = true ∧ (s.lf
      fn).dpaOf (addr / 64 * 64) = some d ∧ u.lentAt fn d = some (h, k)) ∧
    (∃ (s : State) (c : Instr) (fn addr tag kind : Nat) (data : Line) (mask : BitVec 64) (poison : Bool), lendReqOf c = some (fn, addr, tag, kind,
      data, mask, poison) ∧ fn < 2 ∧ s.stopped = false ∧ (s.lf fn).link = 2 ∧ (s.lf fn).cxr = false ∧ (s.lf fn).reqs.length < 512 ∧ ((∀ q, q ∈ (s.lf
      fn).reqs → q.tag ≠ tag)) ∧ let u := (s.evtLnd fn (if kind = 0 then 0 else 1)); ∃ d h k, u.lendFrozen fn = false ∧ (s.lf fn).memEn = true ∧ (s.lf
      fn).dpaOf (addr / 64 * 64) = some d ∧ u.lentAt fn d = some (h, k) ∧ let q : LendReq := (⟨tag, h / 64, k, d / 64 * 64, kind, data, mask, poison,
      s.time⟩); let w := ((u.setLf fn { s.lf fn with reqs := (s.lf fn).reqs ++ [q] }).lendOcc fn); ∃ (v : State) (l : Line) (p : Bool), (s.lf fn).reqs
      = [] ∧ let r : HomeReq :=
      ({ uncReq (Who.lend fn) (h / 64) k false with rt := true, data := data, poison := poison, mask := if kind = 1 then BitVec.allOnes 64 else mask });
      kind = 0 ∧ ((∃ f n, w.Answered v [(.rdc, r)] [.reply l p f n]))) ∧
    (∃ (s : State) (c : Instr) (fn addr tag kind : Nat) (data : Line) (mask : BitVec 64) (poison : Bool), lendReqOf c = some (fn, addr, tag, kind,
      data, mask, poison) ∧ fn < 2 ∧ s.stopped = false ∧ (s.lf fn).link = 2 ∧ (s.lf fn).cxr = false ∧ (s.lf fn).reqs.length < 512 ∧ ((∀ q, q ∈ (s.lf
      fn).reqs → q.tag ≠ tag)) ∧ let u := (s.evtLnd fn (if kind = 0 then 0 else 1)); ∃ d h k, u.lendFrozen fn = false ∧ (s.lf fn).memEn = true ∧ (s.lf
      fn).dpaOf (addr / 64 * 64) = some d ∧ u.lentAt fn d = some (h, k) ∧ let q : LendReq := (⟨tag, h / 64, k, d / 64 * 64, kind, data, mask, poison,
      s.time⟩); let w := ((u.setLf fn { s.lf fn with reqs := (s.lf fn).reqs ++ [q] }).lendOcc fn); ∃ (v : State) (l : Line) (p : Bool), (s.lf fn).reqs
      = [] ∧ let r : HomeReq :=
      ({ uncReq (Who.lend fn) (h / 64) k false with rt := true, data := data, poison := poison, mask := if kind = 1 then BitVec.allOnes 64 else mask });
      kind = 1 ∧ w.Answered v [(.wrf, r)] [.done]) ∧
    (∃ (s : State) (c : Instr) (fn addr tag kind : Nat) (data : Line) (mask : BitVec 64) (poison : Bool), lendReqOf c = some (fn, addr, tag, kind,
      data, mask, poison) ∧ fn < 2 ∧ s.stopped = false ∧ (s.lf fn).link = 2 ∧ (s.lf fn).cxr = false ∧ (s.lf fn).reqs.length < 512 ∧ ((∀ q, q ∈ (s.lf
      fn).reqs → q.tag ≠ tag)) ∧ let u := (s.evtLnd fn (if kind = 0 then 0 else 1)); ∃ d h k, u.lendFrozen fn = false ∧ (s.lf fn).memEn = true ∧ (s.lf
      fn).dpaOf (addr / 64 * 64) = some d ∧ u.lentAt fn d = some (h, k) ∧ let q : LendReq := (⟨tag, h / 64, k, d / 64 * 64, kind, data, mask, poison,
      s.time⟩); let w := ((u.setLf fn { s.lf fn with reqs := (s.lf fn).reqs ++ [q] }).lendOcc fn); ∃ (v : State) (l : Line) (p : Bool), (s.lf fn).reqs
      = [] ∧ let r : HomeReq :=
      ({ uncReq (Who.lend fn) (h / 64) k false with rt := true, data := data, poison := poison, mask := if kind = 1 then BitVec.allOnes 64 else mask });
      kind = 2 ∧ w.Answered v [(.wrp, r)] [.done]) ∧
    (∃ (s : State) (fn tag : Nat) (q : LendReq), fn < 2 ∧ s.stopped = false ∧ (s.lf fn).reqs.find? (fun q => q.tag = tag) = some q) ∧
    (∃ (s : State) (fn off : Nat), fn < 2 ∧ off < 65536 ∧ s.stopped = false ∧ (s.lf fn).link = 2 ∧ (s.lf fn).flr = false ∧ (s.lf fn).romEn = true) :=
  ⟨⟨((lend { LendFn.reset with link := 2 }).lendFreeze 0 1), (.memrd 0 0 7), 0, 0, 7, 0, 0, 0, false, rfl, by decide +kernel⟩,
   ⟨(lend { LendFn.reset with link := 2 }), (.memrd 0 0 7), 0, 0, 7, 0, 0, 0, false, rfl, by decide +kernel⟩,
   by refine ⟨lending, (.memrd 0 0 7), 0, 0, 7, 0, 0, 0, false, rfl, ?_, ?_, ?_, ?_, ?_, ?_, 0, 0, 0, ?_⟩ <;> decide +kernel,
   by refine ⟨(told lending [⟨.rdc, { uncReq (Who.lend 0) 0 0 false with rt := true, data := 0 }, .reply 0 false false false⟩]), (.memrd 0 0 7), 0, 0, 7, 0, 0,
     0, false, rfl, ?_, ?_, ?_, ?_, ?_, ?_, 0, 0, 0, ?_, ?_, ?_, ?_, _, 0, false, ?_, ?_, ⟨false, false, answered_told (by decide +kernel)⟩⟩ <;> decide +kernel,
   by refine ⟨(told lending [⟨.wrf, { uncReq (Who.lend 0) 0 0 false with rt := true, data := 5, mask := BitVec.allOnes 64 }, .done⟩]), (.memwr 0 0 7 5 false),
     0, 0, 7, 1, 5, (BitVec.allOnes 64), false, rfl, ?_, ?_, ?_, ?_, ?_, ?_, 0, 0, 0, ?_, ?_, ?_, ?_, _, 0, false, ?_, ?_, answered_told (by decide +kernel)⟩
     <;> decide +kernel,
   by refine ⟨(told lending [⟨.wrp, { uncReq (Who.lend 0) 0 0 false with rt := true, data := 5, mask := 3 }, .done⟩]), (.memwrptl 0 0 7 5 3), 0, 0, 7, 2, 5, 3,
     false, rfl, ?_, ?_, ?_, ?_, ?_, ?_, 0, 0, 0, ?_, ?_, ?_, ?_, _, 0, false, ?_, ?_, answered_told (by decide +kernel)⟩ <;> decide +kernel,
   ⟨(mbox { LendFn.reset with reqs := [⟨65535, 0, 0, 0, 0, 0, 0, false, 0⟩] }), 1, 65535, ⟨65535, 0, 0, 0, 0, 0, 0, false, 0⟩, by decide +kernel⟩,
   ⟨(mbox { LendFn.reset with link := 2, romEn := true }), 1, 65535, by decide +kernel⟩⟩

/-- Inputs that meet the hypotheses of MailboxAndLendControlComplete, one for each of its clauses. -/
theorem witness_MailboxAndLendControlComplete :
    (∃ (s : State) (fn : Nat), fn < 2 ∧ s.stopped = false ∧ s.mboxFree fn = true) ∧
    (∃ (s : State) (fn : Nat), fn < 2 ∧ s.stopped = false ∧ s.mboxFree fn = true) ∧
    (∃ (s : State) (fn : Nat), fn < 2 ∧ s.stopped = false ∧ s.mboxFree fn = true ∧ ∃ hs, ((s.lf fn).events.take hs.length).map (fun e => e.1) = hs) ∧
    (∃ (s : State) (fn : Nat), fn < 2 ∧ s.stopped = false ∧ s.mboxFree fn = true) ∧
    (∃ (s : State) (fn : Nat), fn < 2 ∧ s.stopped = false ∧ s.mboxFree fn = true ∧ (s.lf fn).bgRuns = false) ∧
    (∃ (s : State) (fn : Nat), fn < 2 ∧ s.stopped = false ∧ s.mboxFree fn = true ∧ ∃ addr len op c, (op, c) ∈ [(0xC001, Instr.getPoisonListDma fn addr
      len), (0xC002, .getEventRecordsDma fn addr len), (0xC003, .discardRangesDma fn addr len)] ∧ len % 64 = 0 ∧ len ≤ 16777216) ∧
    (∃ (s : State) (fn : Nat), fn < 2 ∧ s.stopped = false ∧ s.mboxFree fn = true ∧ ∃ addr len op c, (op, c) ∈ [(0xC001, Instr.getPoisonListDma fn addr
      len), (0xC002, .getEventRecordsDma fn addr len), (0xC003, .discardRangesDma fn addr len)] ∧ (len % 64 ≠ 0 ∨ 16777216 < len)) ∧
    (∃ (s : State) (fn : Nat), fn < 2 ∧ s.stopped = false ∧ ∃ (tag : Nat) (bytes : List Byte) (r : LendRead) (c : LendCmd), (s.lf fn).reads.find? (fun
      r => r.tag = tag) = some r ∧ r.stale = false ∧ (s.lf fn).cmd = some c) ∧
    (∃ (s : State) (fn : Nat), fn < 2 ∧ s.stopped = false ∧ ∃ tag r, (s.lf fn).reads.find? (fun r => r.tag = tag) = some r ∧ r.stale = false) ∧
    (∃ (s : State) (fn : Nat), fn < 2 ∧ s.stopped = false ∧ (s.lf fn).link = 2 ∧ (s.lf fn).flr = false) ∧
    (∃ (s : State) (fn : Nat), fn < 2 ∧ s.stopped = false ∧ (s.lf fn).link = 2) ∧
    (∃ (s : State) (fn : Nat), fn < 2 ∧ s.stopped = false ∧ ∃ mc : Bool, (s.lf fn).link = 2) ∧
    (∃ (s : State) (fn : Nat), fn < 2 ∧ s.stopped = false ∧ (s.lendGroup fn).isSome = true) ∧
    (∃ (s : State) (fn : Nat), fn < 2 ∧ s.stopped = false ∧ (s.lf fn).link = 2 ∧ (s.lf fn).flr = false) ∧
    (∃ (s : State) (fn : Nat), fn < 2 ∧ s.stopped = false ∧ (s.lf fn).link = 2 ∧ (s.lf fn).flr = false ∧ ∃ i b n w g k, (s.lf fn).decOk i ⟨b, n, w, g,
      k⟩ = true) ∧
    (∃ (s : State) (fn : Nat), fn < 2 ∧ s.stopped = false ∧ (s.lf fn).link = 2 ∧ (s.lf fn).flr = false) ∧
    (∃ (s : State) (fn : Nat), fn < 2 ∧ s.stopped = false ∧ (s.lf fn).link = 2 ∧ (s.lf fn).flr = false) :=
  ⟨⟨(mbox { LendFn.reset with link := 2 }), 1, by decide +kernel⟩,
   ⟨(mbox { LendFn.reset with link := 2 }), 1, by decide +kernel⟩,
   ⟨(mbox { LendFn.reset with link := 2, events := [(7, 0, 0)] }), 1, by decide +kernel, by decide +kernel, by decide +kernel, ([7]), by decide +kernel⟩,
   ⟨(mbox { LendFn.reset with link := 2 }), 1, by decide +kernel⟩,
   ⟨(mbox { LendFn.reset with link := 2 }), 1, by decide +kernel⟩,
   ⟨(mbox { LendFn.reset with link := 2 }), 1, by decide +kernel, by decide +kernel, by decide +kernel, 0, 16777216, 0xC001, (.getPoisonListDma 1 0 16777216),
     by simp, by decide +kernel⟩,
   ⟨(mbox { LendFn.reset with link := 2 }), 1, by decide +kernel, by decide +kernel, by decide +kernel, 0, 16777217, 0xC001, (.getPoisonListDma 1 0 16777217),
     by simp, by decide +kernel⟩,
   ⟨(mbox { LendFn.reset with link := 2, reads := [⟨5, 0, 64, false⟩], cmd := some ⟨0xC003, 0, 64, [], 1⟩ }), 1, by decide +kernel, by decide +kernel, 5, ([]),
     ⟨5, 0, 64, false⟩, ⟨0xC003, 0, 64, [], 1⟩, by decide +kernel⟩,
   ⟨(mbox { LendFn.reset with link := 2, reads := [⟨5, 0, 64, false⟩], cmd := some ⟨0xC003, 0, 64, [], 1⟩ }), 1, by decide +kernel, by decide +kernel, 5, ⟨5, 0,
     64, false⟩, by decide +kernel⟩,
   ⟨(mbox { LendFn.reset with link := 2 }), 1, by decide +kernel⟩,
   ⟨(mbox { LendFn.reset with link := 2 }), 1, by decide +kernel⟩,
   ⟨(mbox { LendFn.reset with link := 2 }), 1, by decide +kernel, by decide +kernel, true, by decide +kernel⟩,
   ⟨(lend LendFn.reset), 0, by decide +kernel⟩,
   ⟨(mbox { LendFn.reset with link := 2 }), 1, by decide +kernel⟩,
   by refine ⟨(mbox { LendFn.reset with link := 2 }), 1, ?_, ?_, ?_, ?_, 0, 0, 0x10000000, 1, 256, 0, ?_⟩ <;> decide +kernel,
   ⟨(mbox { LendFn.reset with link := 2 }), 1, by decide +kernel⟩,
   ⟨(mbox { LendFn.reset with link := 2 }), 1, by decide +kernel⟩⟩

/-- Inputs that meet the hypotheses of ZciChecksComeFirst, one for each of its clauses. -/
theorem witness_ZciChecksComeFirst :
    (∃ (s : State) (c : Instr) (z : ZCmd), zciRowOf c = some z ∧ c.wf = true ∧ s.stopped = false ∧ s.zciFlush.pairRuns z.qp = true ∧ ((zpath z 2 =
      true → ∀ o, o ∈ s.zciFlush.zci.outs → o.z ≠ z)) ∧ z.qp = 0 ∧ ((s.zciFlush.boot.warm = true ∨ s.zciFlush.zci.outs.any (fun o => o.z.qp = 0) =
      true))) ∧
    (∃ (s : State) (c : Instr) (z : ZCmd), zciRowOf c = some z ∧ c.wf = true ∧ s.stopped = false ∧ s.zciFlush.pairRuns z.qp = true ∧ ((zpath z 2 =
      true → ∀ o, o ∈ s.zciFlush.zci.outs → o.z ≠ z)) ∧ ((z.qp = 0 → s.zciFlush.boot.warm = false ∧ s.zciFlush.zci.outs.any (fun o => o.z.qp = 0) =
      false)) ∧ z.f 5 1 ≠ 1) ∧
    (∃ (s : State) (c : Instr) (z : ZCmd), zciRowOf c = some z ∧ c.wf = true ∧ s.stopped = false ∧ s.zciFlush.pairRuns z.qp = true ∧ ((zpath z 2 =
      true → ∀ o, o ∈ s.zciFlush.zci.outs → o.z ≠ z)) ∧ ((z.qp = 0 → s.zciFlush.boot.warm = false ∧ s.zciFlush.zci.outs.any (fun o => o.z.qp = 0) =
      false)) ∧ z.f 5 1 = 1 ∧ ((z.flags ≥ 8 ∨ z.f 8 8 ≠ 0 ∨ z.f 6 2 ≥ 4096))) ∧
    (∃ (s : State) (c : Instr) (z : ZCmd), zciRowOf c = some z ∧ c.wf = true ∧ s.stopped = false ∧ s.zciFlush.pairRuns z.qp = true ∧ ((zpath z 2 =
      true → ∀ o, o ∈ s.zciFlush.zci.outs → o.z ≠ z)) ∧ ((z.qp = 0 → s.zciFlush.boot.warm = false ∧ s.zciFlush.zci.outs.any (fun o => o.z.qp = 0) =
      false)) ∧ z.f 5 1 = 1 ∧ (¬ (z.flags ≥ 8 ∨ z.f 8 8 ≠ 0 ∨ z.f 6 2 ≥ 4096)) ∧ ∃ p l w, opInfo (z.f 0 2) = some (p, l, w) ∧ l.contains
      (s.zciFlush.srcOf z.qp) = false) ∧
    (∃ (s : State) (c : Instr) (z : ZCmd), zciRowOf c = some z ∧ c.wf = true ∧ s.stopped = false ∧ s.zciFlush.pairRuns z.qp = true ∧ ((zpath z 2 =
      true → ∀ o, o ∈ s.zciFlush.zci.outs → o.z ≠ z)) ∧ ((z.qp = 0 → s.zciFlush.boot.warm = false ∧ s.zciFlush.zci.outs.any (fun o => o.z.qp = 0) =
      false)) ∧ ∃ st d, s.zciFlush.zcheck z = some (st, d)) ∧
    (∃ (s : State) (c : Instr) (z : ZCmd), zciRowOf c = some z ∧ c.wf = true ∧ s.stopped = false ∧ s.zciFlush.pairRuns z.qp = true ∧ ((zpath z 2 =
      true → ∀ o, o ∈ s.zciFlush.zci.outs → o.z ≠ z)) ∧ ((z.qp = 0 → s.zciFlush.boot.warm = false ∧ s.zciFlush.zci.outs.any (fun o => o.z.qp = 0) =
      false)) ∧ s.zciFlush.zcheck z = none ∧ (s.zciFlush.zadmit z).zheld (s.zciFlush.zout z) = true) ∧
    (∃ (s : State) (c : Instr) (z : ZCmd), zciRowOf c = some z ∧ c.wf = true ∧ s.stopped = false ∧ s.zciFlush.pairRuns z.qp = true ∧ ((zpath z 2 =
      true → ∀ o, o ∈ s.zciFlush.zci.outs → o.z ≠ z)) ∧ ((z.qp = 0 → s.zciFlush.boot.warm = false ∧ s.zciFlush.zci.outs.any (fun o => o.z.qp = 0) =
      false)) ∧ s.zciFlush.zcheck z = none ∧ (s.zciFlush.zadmit z).zheld (s.zciFlush.zout z) = false ∧ (s.zciFlush.zadmit z).chainBroken
      (s.zciFlush.zout z) = true) :=
  ⟨⟨(busy (zc 0 2 [])), (.zciNop (zc 0 2 [])), (zc 0 2 []), rfl, by decide +kernel⟩,
   ⟨run, (.zciNop ⟨3, 2, []⟩), ⟨3, 2, []⟩, rfl, by decide +kernel⟩,
   ⟨run, (.zciNop (zc 3 2 [(4, 8)])), (zc 3 2 [(4, 8)]), rfl, by decide +kernel⟩,
   by refine ⟨run, (.iotuInvDevice (zc 3 0x0401 [])), (zc 3 0x0401 []), rfl, ?_, ?_, ?_, ?_, ?_, ?_, ?_, 0, ([2]), false, ?_⟩ <;> decide +kernel,
   by refine ⟨run, (.iotuInvDevice (zc 3 0x0401 [])), (zc 3 0x0401 []), rfl, ?_, ?_, ?_, ?_, ?_, zNotPermitted, dSource, ?_⟩ <;> decide +kernel,
   ⟨({ busy (zc 3 2 []) with zci := { (busy (zc 3 2 [])).zci with nextId := 6 } }), (.zciNop (zc 3 2 [(4, 1)])), (zc 3 2 [(4, 1)]), rfl, by decide +kernel⟩,
   ⟨({ run with zci := { run.zci with pairs := [(64, { qp0 with chain := some 4 })], chains := [(4, 3)] } }), (.zciNop (zc 64 2 [])), (zc 64 2 []), rfl,
     by decide +kernel⟩⟩

/-- Inputs that meet the hypotheses of BasicZciCommandsComplete, one for each of its clauses. -/
theorem witness_BasicZciCommandsComplete :
    (∃ (s : State) (z : ZCmd), s.ZReady z ∧ z.is 0x0002 = true) ∧
    (∃ (s : State) (z : ZCmd), s.ZReady z ∧ z.is 0x0002 = true ∧ z.qp = 0 ∧ s.zci.finals = [] ∧ s.zci.reps = []) ∧
    (∃ (s : State) (z : ZCmd), s.ZReady z ∧ z.is 0x0001 = true) ∧
    (∃ (s : State) (z : ZCmd), s.ZReady z ∧ let u := (s.zstarted z); ∃ first count, first = z.f 16 2 ∧ count = z.f 18 2 ∧ first + count ≤ 8192 ∧ ((∀
      q, first ≤ q → q < first + count → u.settable q = true)) ∧ let qs := ((List.range count).map (first + ·)); z.isFirst 0x0003 20 [1] = true ∧ z.f
      20 1 = 0 ∧ ∃ (l : List (Nat × QPair)), ∃ v, CtxsRead 5 (qs.filter (fun q => (u.pair q).isNone)) u v (l.map fun p => (p.1, some p.2))) ∧
    (∃ (s : State) (z : ZCmd), s.ZReady z ∧ let u := (s.zstarted z); ∃ first count, first = z.f 16 2 ∧ count = z.f 18 2 ∧ first + count ≤ 8192 ∧ ((∀
      q, first ≤ q → q < first + count → u.settable q = true)) ∧ let qs := ((List.range count).map (first + ·)); z.isOp 0x0003 20 1 = true ∧ let v :=
      (qs.foldl (fun w q => w.stopPair q s.zid) u); v.draining s.zid = false) ∧
    (∃ (s : State) (z : ZCmd), s.ZReady z ∧ let u := (s.zstarted z); ∃ first count, first = z.f 16 2 ∧ count = z.f 18 2 ∧ first + count ≤ 8192 ∧ ((∀
      q, first ≤ q → q < first + count → u.settable q = true)) ∧ let qs := ((List.range count).map (first + ·)); z.isOp 0x0003 20 1 = true ∧ let v :=
      (qs.foldl (fun w q => w.stopPair q s.zid) u); v.draining s.zid = true) ∧
    (∃ (s : State) (z : ZCmd), s.ZReady z ∧ ∃ c f, (c, f) ∈ [(Instr.iotuInvVa z, fun (p : Nat × TlbEnt) => decide (p.2.vmid = z.f 16 2) && (decide
      (z.f 20 1 % 2 = 1) || decide (p.2.asid = some (z.f 18 2))) && p.2.meets (z.f 24 8) (z.f 32 8)), (.iotuInvIpa z, fun p => decide (p.2.vmid = z.f
      16 2)), (.iotuInvVmid z, fun p => decide (p.2.vmid = z.f 16 2)), (.iotuInvAll z, fun _ => true)] ∧ c.wf = true ∧ (((c = .iotuInvVa z ∨ c =
      .iotuInvIpa z) → z.f 24 8 % 4096 = 0 ∧ z.f 32 8 % 4096 = 0)) ∧ ((c = .iotuInvVa z ∨ c = .iotuInvIpa z) ∧ z.f 32 8 = 0)) ∧
    (∃ (s : State) (z : ZCmd), s.ZReady z ∧ let u := (s.zstarted z); ∃ c f, (c, f) ∈ [(Instr.iotuInvVa z, fun (p : Nat × TlbEnt) => decide (p.2.vmid =
      z.f 16 2) && (decide (z.f 20 1 % 2 = 1) || decide (p.2.asid = some (z.f 18 2))) && p.2.meets (z.f 24 8) (z.f 32 8)), (.iotuInvIpa z, fun p =>
      decide (p.2.vmid = z.f 16 2)), (.iotuInvVmid z, fun p => decide (p.2.vmid = z.f 16 2)), (.iotuInvAll z, fun _ => true)] ∧ c.wf = true ∧ (((c =
      .iotuInvVa z ∨ c = .iotuInvIpa z) → z.f 24 8 % 4096 = 0 ∧ z.f 32 8 % 4096 = 0)) ∧ (¬ ((c = .iotuInvVa z ∨ c = .iotuInvIpa z) ∧ z.f 32 8 = 0)) ∧
      let v := ((u.iotuDrop f).inPump); v.iotuOpen = false) ∧
    (∃ (s : State) (z : ZCmd), s.ZReady z ∧ let u := (s.zstarted z); ∃ c f, (c, f) ∈ [(Instr.iotuInvVa z, fun (p : Nat × TlbEnt) => decide (p.2.vmid =
      z.f 16 2) && (decide (z.f 20 1 % 2 = 1) || decide (p.2.asid = some (z.f 18 2))) && p.2.meets (z.f 24 8) (z.f 32 8)), (.iotuInvIpa z, fun p =>
      decide (p.2.vmid = z.f 16 2)), (.iotuInvVmid z, fun p => decide (p.2.vmid = z.f 16 2)), (.iotuInvAll z, fun _ => true)] ∧ c.wf = true ∧ (((c =
      .iotuInvVa z ∨ c = .iotuInvIpa z) → z.f 24 8 % 4096 = 0 ∧ z.f 32 8 % 4096 = 0)) ∧ (¬ ((c = .iotuInvVa z ∨ c = .iotuInvIpa z) ∧ z.f 32 8 = 0)) ∧
      let v := ((u.iotuDrop f).inPump); v.iotuOpen = true) ∧
    (∃ (s : State) (z : ZCmd), s.ZReady z ∧ let u := (s.zstarted z); z.is 0x0401 = true ∧ z.f 16 1 ≤ 8 ∧ let id := (z.f 16 1 * 65536 + z.f 18 2); let
      v := ((({ u with iotu := { u.iotu with ctxs := u.iotu.ctxs.filter (fun c => c.src ≠ id) } }).iotuDrop (fun p => p.1 = id)).inPump); v.iotuOpen =
      false) ∧
    (∃ (s : State) (z : ZCmd), s.ZReady z ∧ let u := (s.zstarted z); z.is 0x0401 = true ∧ z.f 16 1 ≤ 8 ∧ let id := (z.f 16 1 * 65536 + z.f 18 2); let
      v := ((({ u with iotu := { u.iotu with ctxs := u.iotu.ctxs.filter (fun c => c.src ≠ id) } }).iotuDrop (fun p => p.1 = id)).inPump); v.iotuOpen =
      true) :=
  ⟨⟨run, (zc 3 2 []), by unfold State.ZReady State.ZAdmits; decide +kernel, by decide +kernel⟩,
   ⟨run, (zc 0 2 []), by unfold State.ZReady State.ZAdmits; decide +kernel, by decide +kernel⟩,
   ⟨run, (zc 63 1 []), by unfold State.ZReady State.ZAdmits; decide +kernel, by decide +kernel⟩,
   ⟨(tabled run), (zc 3 3 [(16, 64), (18, 1)]), by unfold State.ZReady State.ZAdmits; decide +kernel, _, _, rfl, rfl, by decide +kernel, by decide +kernel,
     by decide +kernel, by decide +kernel, ([(64, qp64)]), _, ctxs_read (qp := 64) (q := qp64) (d := 0x41) (by decide +kernel) rfl (by decide +kernel)⟩,
   ⟨paired, (zc 3 3 [(16, 64), (18, 1), (20, 1)]), by unfold State.ZReady State.ZAdmits; decide +kernel, _, _, rfl, rfl, by decide +kernel⟩,
   ⟨({ paired with zci := { paired.zci with outs := [out5 (zc 64 2 [])] } }), (zc 3 3 [(16, 64), (18, 1), (20, 1)]),
     by unfold State.ZReady State.ZAdmits; decide +kernel, _, _, rfl, rfl, by decide +kernel⟩,
   ⟨(run.setPair 2 (some qp0)), (zc 2 0x0402 []), by unfold State.ZReady State.ZAdmits; decide +kernel, (.iotuInvVa (zc 2 0x0402 [])), _, List.Mem.head _,
     by decide +kernel⟩,
   ⟨(run.setPair 2 (some qp0)), (zc 2 0x0402 [(32, 4096)]), by unfold State.ZReady State.ZAdmits; decide +kernel, (.iotuInvVa (zc 2 0x0402 [(32, 4096)])), _,
     List.Mem.head _, by decide +kernel⟩,
   ⟨((asking (.fresh .wrf { req0 with src := 3 } .msg)).setPair 2 (some qp0)), (zc 2 0x0402 [(32, 4096)]), by unfold State.ZReady State.ZAdmits; decide +kernel,
     (.iotuInvVa (zc 2 0x0402 [(32, 4096)])), _, List.Mem.head _, by decide +kernel⟩,
   ⟨(run.setPair 2 (some qp0)), (zc 2 0x0401 [(16, 8)]), by unfold State.ZReady State.ZAdmits; decide +kernel, by decide +kernel⟩,
   ⟨((asking (.fresh .wrf { req0 with src := 3 } .msg)).setPair 2 (some qp0)), (zc 2 0x0401 [(16, 8)]), by unfold State.ZReady State.ZAdmits; decide +kernel,
     by decide +kernel⟩⟩

/-- Inputs that meet the hypotheses of TierCommandsComplete, one for each of its clauses. -/
theorem witness_TierCommandsComplete :
    (∃ (s : State) (z : ZCmd), s.ZReady z ∧ let u := (s.zstarted z); z.is 0x1001 = true ∧ ∃ t0 f0 t1 f1 units remap w, z.f 16 1 = 0 ∧ u.enlTotals =
      (t0, f0, t1, f1, units, remap) ∧ u.BufWritten w z (z.f 24 8) ([t0, f0, t1, f1, units, u.enl.pools.length, remap, (u.tiered.2 - u.tiered.1) /
      4096 - (u.enl.frames.filter (fun p => p.2.tier ≠ 3)).length].flatMap (leBytes 8))) ∧
    (∃ (s : State) (z : ZCmd), s.ZReady z ∧ let u := (s.zstarted z); z.is 0x1001 = true ∧ ∃ w, z.f 16 1 = 1 ∧ u.BufWritten w z (z.f 24 8) ([u.charged
      0 (z.f 17 1), u.charged 1 (z.f 17 1), u.chargedUnits (z.f 17 1), (u.quota (z.f 17 1)).1, (u.quota (z.f 17 1)).2, SMap.get (fun _ => 0)
      u.enl.overq (z.f 17 1), 0, 0].flatMap (leBytes 8))) ∧
    (∃ (s : State) (z : ZCmd), s.ZReady z ∧ let u := (s.zstarted z); let f := (z.f 16 8 / 4096); let n := (z.f 24 4); z.is 0x1002 = true ∧ z.f 16 8 %
      2 ^ 21 = 0 ∧ 1 ≤ n ∧ n ≤ 1024 ∧ u.inTiered (z.f 16 8) (n * 2 ^ 21) = true ∧ u.tierDark z (z.f 16 8) (n * 2 ^ 21) = false ∧ u.tierFull = false ∧
      u.bufOk z (z.f 32 8) (1024 * n) = true ∧ ∃ w, RegionsWritten z f (List.range n) u w) ∧
    (∃ (s : State) (z : ZCmd), s.ZReady z ∧ let u := (s.zstarted z); u.TierRange z ∧ u.tierFull = false ∧ z.is 0x1003 = true ∧ z.f 28 1 ≤ 3) ∧
    (∃ (s : State) (z : ZCmd), s.ZReady z ∧ let u := (s.zstarted z); u.TierRange z ∧ u.tierFull = false ∧ z.is 0x1004 = true ∧ z.f 28 1 ≤ 1) ∧
    (∃ (s : State) (z : ZCmd), s.ZReady z ∧ let u := (s.zstarted z); u.TierRange z ∧ u.tierFull = false ∧ z.is 0x1006 = true) ∧
    (∃ (s : State) (z : ZCmd), s.ZReady z ∧ let u := (s.zstarted z); z.is 0x1005 = true ∧ u.TierRange z) ∧
    (∃ (s : State) (z : ZCmd), s.ZReady z ∧ z.is 0x1007 = true) ∧
    (∃ (s : State) (z : ZCmd), s.ZReady z ∧ let u := (s.zstarted z); ∃ tier k, z.is 0x1008 = true ∧ tier = z.f 16 1 ∧ k = z.f 18 2 ∧ ((tier = 0 ∧ k <
      u.plat.sets.length ∧ u.enl.withheld.contains k = false) ∨ (tier = 1 ∧ k < u.plat.t1.length ∧ k < 64 ∧ (u.rd kFioT1act).getLsbD k = true)) ∧
      u.enl.withdrawn.contains (tier * 256 + k) = false ∧ u.tierFull = false) ∧
    (∃ (s : State) (z : ZCmd), s.ZReady z ∧ let u := (s.zstarted z); z.is 0x1009 = true ∧ let named := ((u.zci.outs.find? (fun o => decide (o.z.qp =
      z.qp ∧ o.id ≠ s.zid) && decide (o.z.tag = z.f 16 2))).bind (fun o => u.enl.cmds.find? (fun c => c.id = o.id))); named = none) ∧
    (∃ (s : State) (z : ZCmd), s.ZReady z ∧ let u := (s.zstarted z); z.is 0x1009 = true ∧ let named := ((u.zci.outs.find? (fun o => decide (o.z.qp =
      z.qp ∧ o.id ≠ s.zid) && decide (o.z.tag = z.f 16 2))).bind (fun o => u.enl.cmds.find? (fun c => c.id = o.id))); ∃ c, named = some c ∧ ((c.kind =
      .evacuate ∨ ∃ i, c.kind = .report i))) ∧
    (∃ (s : State) (z : ZCmd), s.ZReady z ∧ let u := (s.zstarted z); z.is 0x1009 = true ∧ let named := ((u.zci.outs.find? (fun o => decide (o.z.qp =
      z.qp ∧ o.id ≠ s.zid) && decide (o.z.tag = z.f 16 2))).bind (fun o => u.enl.cmds.find? (fun c => c.id = o.id))); ∃ c, named = some c ∧ c.kind ≠
      .evacuate ∧ (∀ i, c.kind ≠ .report i)) :=
  ⟨⟨run, (zap 0x1001 []), by unfold State.ZReady State.ZAdmits; decide +kernel, by decide +kernel, _, _, _, _, _, _, _, by decide +kernel, six _, write_ap (n :=
  64) (by decide +kernel) (by decide +kernel)⟩,
   ⟨run, (zap 0x1001 [(16, 1)]), by unfold State.ZReady State.ZAdmits; decide +kernel, by decide +kernel, _, by decide +kernel, write_ap (n := 64)
     (by decide +kernel) (by decide +kernel)⟩,
   by refine ⟨run, (zc 16 0x1002 [(16, 0), (24, 1), (32, ap)]), by unfold State.ZReady State.ZAdmits; decide +kernel, ?_, ?_, ?_, ?_, ?_, ?_, ?_, ?_, _,
     regions_one (write_ap (regions_length _ _) (by decide +kernel))⟩ <;> decide +kernel,
   ⟨run, (zc 3 0x1003 [(24, 262144), (28, 3)]), by unfold State.ZReady State.ZAdmits; decide +kernel, by unfold State.TierRange; decide +kernel,
     by decide +kernel⟩,
   ⟨run, (zc 3 0x1004 [(24, 262144), (28, 1)]), by unfold State.ZReady State.ZAdmits; decide +kernel, by unfold State.TierRange; decide +kernel,
     by decide +kernel⟩,
   ⟨run, (zc 3 0x1006 [(24, 262144)]), by unfold State.ZReady State.ZAdmits; decide +kernel, by unfold State.TierRange; decide +kernel, by decide +kernel⟩,
   ⟨run, (zc 3 0x1005 [(24, 262144)]), by unfold State.ZReady State.ZAdmits; decide +kernel, by decide +kernel, by unfold State.TierRange; decide +kernel⟩,
   ⟨run, (zc 3 0x1007 []), by unfold State.ZReady State.ZAdmits; decide +kernel, by decide +kernel⟩,
   ⟨withSets, (zc 3 0x1008 [(18, 1)]), by unfold State.ZReady State.ZAdmits; decide +kernel, _, _, by decide +kernel, rfl, rfl, by decide +kernel⟩,
   ⟨run, (zc 3 0x1009 []), by unfold State.ZReady State.ZAdmits; decide +kernel, by decide +kernel⟩,
   ⟨({ busy (zc 3 0x1003 [(2, 7)]) with enl := { run.enl with cmds := [⟨5, .evacuate, 0, 1, 0, 0, 0, 0, 0, 0⟩] } }), (zc 3 0x1009 [(16, 7)]),
     by unfold State.ZReady State.ZAdmits; decide +kernel, by decide +kernel, ⟨5, .evacuate, 0, 1, 0, 0, 0, 0, 0, 0⟩, by decide +kernel, .inl rfl⟩,
   ⟨({ busy (zc 3 0x1003 [(2, 7)]) with enl := { run.enl with cmds := [⟨5, .discard, 0, 1, 0, 0, 0, 0, 0, 0⟩] } }), (zc 3 0x1009 [(16, 7)]),
     by unfold State.ZReady State.ZAdmits; decide +kernel, by decide +kernel, ⟨5, .discard, 0, 1, 0, 0, 0, 0, 0, 0⟩, by decide +kernel, nofun, nofun⟩⟩

/-- Inputs that meet the hypotheses of KeyCommandsComplete, one for each of its clauses. -/
theorem witness_KeyCommandsComplete :
    (∃ (s : State) (z : ZCmd), s.ZReady z ∧ let u := (s.zstarted z); z.is 0x1201 = true ∧ u.wld.idPriv.isSome = true ∧ u.bufOk z (z.f 24 8) (z.f 32 4)
      = true ∧ 512 ≤ z.f 32 4 ∧ ∃ q w, q = u.quote 0x1FF#32 (sm3 (sm2Pub u.dks.tpriv.toNat)) ∧ q.2.BufWritten w z (z.f 24 8) (sm2Pub u.dks.tpriv.toNat
      ++ q.1.getD [])) ∧
    (∃ (s : State) (z : ZCmd), s.ZReady z ∧ let u := (s.zstarted z); let k := (z.f 16 2); z.is 0x1202 = true ∧ u.keyCheck z false true (some fun w =>
      decide (w ≤ 1) && !(decide (u.srcOf z.qp = 2) && decide (w ≠ 0))) = none ∧ (u.ctx k).st = 0 ∧ ∃ p v, u.KeyGiven v z p) ∧
    (∃ (s : State) (z : ZCmd), s.ZReady z ∧ let u := (s.zstarted z); let k := (z.f 16 2); z.is 0x1203 = true ∧ u.keyCheck z false true none = none ∧
      (u.ctx k).st = 1 ∧ z.f 40 8 % 4096 = 0 ∧ 1 ≤ z.f 48 8 ∧ z.f 48 8 ≤ 2 ^ 33 ∧ u.inTiered (z.f 40 8) (z.f 48 8 * 4096) = true ∧ ((u.srcOf z.qp = 2
      → u.hasDarkRegion (z.f 40 8) (z.f 48 8 * 4096) = false)) ∧ ∃ e p v, firstGap (u.dks.rots.map (·.1)) 0 16 = some e ∧ u.KeyGiven v z p) ∧
    (∃ (s : State) (z : ZCmd), s.ZReady z ∧ let u := (s.zstarted z); let k := (z.f 16 2); z.is 0x1204 = true ∧ u.keyCheck z false false none = none ∧
      let erased (v : State) : State := ((v.setCtx k { v.ctx k with st := 0, k1 := 0, k2 := 0, oalg := 0, o1 := 0, o2 := 0 }).dksShow); ∃ v,
      (((u.rotOf k = none ∧ v = erased u) ∨ ∃ e r, u.rotOf k = some (e, r) ∧ v = erased (u.rotEnd e r zNotPermitted dErased))) ∧ v.fio.t1.any (fun t
      => decide (t.a.key = k)) = false) ∧
    (∃ (s : State) (z : ZCmd), s.ZReady z ∧ let u := (s.zstarted z); let k := (z.f 16 2); z.is 0x1204 = true ∧ u.keyCheck z false false none = none ∧
      let erased (v : State) : State := ((v.setCtx k { v.ctx k with st := 0, k1 := 0, k2 := 0, oalg := 0, o1 := 0, o2 := 0 }).dksShow); ∃ v,
      (((u.rotOf k = none ∧ v = erased u) ∨ ∃ e r, u.rotOf k = some (e, r) ∧ v = erased (u.rotEnd e r zNotPermitted dErased))) ∧ v.fio.t1.any (fun t
      => decide (t.a.key = k)) = true) ∧
    (∃ (s : State) (z : ZCmd), s.ZReady z ∧ let u := (s.zstarted z); z.is 0x1205 = true ∧ u.keyCheck z true false none = none) :=
  ⟨by refine ⟨(told quoter (writeAns 64 quoteBytes)), quoteCmd, by unfold State.ZReady State.ZAdmits; decide +kernel, ?_, ?_, ?_, ?_, _, _, rfl, quote_written⟩
  <;> decide +kernel,
   ⟨keying, (keyCmd3 0x1202 []), by unfold State.ZReady State.ZAdmits; decide +kernel, by decide +kernel, by decide +kernel, by decide +kernel, keyPair5, _,
     key_given (by decide +kernel) (by decide +kernel) (by decide +kernel) (by decide +kernel)⟩,
   by refine ⟨(keying.setCtx 5 { KeyCtx.empty with st := 1 }), (keyCmd3 0x1203 [(48, 1)]), by unfold State.ZReady State.ZAdmits; decide +kernel, ?_, ?_, ?_, ?_,
     ?_, ?_, ?_, ?_, 0, keyPair5, _, ?_, key_given (by decide +kernel) (by decide +kernel) (by decide +kernel) (by decide +kernel)⟩ <;> decide +kernel,
   ⟨(run.setCtx 5 { KeyCtx.empty with st := 1 }), (zc 3 0x1204 [(16, 5)]), by unfold State.ZReady State.ZAdmits; decide +kernel, by decide +kernel,
     by decide +kernel, _, .inl ⟨by decide +kernel, rfl⟩, by decide +kernel⟩,
   ⟨((t1Open { acc0 with key := 5 }).setCtx 5 { KeyCtx.empty with st := 1 }), (zc 3 0x1204 [(16, 5)]), by unfold State.ZReady State.ZAdmits; decide +kernel,
     by decide +kernel, by decide +kernel, _, .inl ⟨by decide +kernel, rfl⟩, by decide +kernel⟩,
   ⟨run, (zc 3 0x1205 []), by unfold State.ZReady State.ZAdmits; decide +kernel, by decide +kernel⟩⟩

/-- Inputs that meet the hypotheses of CondenserCommandsComplete, one for each of its clauses. -/
theorem witness_CondenserCommandsComplete :
    (∃ (s : State) (z : ZCmd), s.ZReady z ∧ let u := (s.zstarted z); u.fon kCdnCtl fCdnCtl_SVCEN = true ∧ ∃ c compress, (c, compress) ∈
      [(Instr.cdnCompress z, true), (.cdnDecompress z, false)] ∧ c.wf = true ∧ cdnBad z compress = none ∧ u.bufOk z (z.f 32 8) (z.f 40 4) = true ∧ ∃
      input v dict w, u.BufRead v z (z.f 16 8) (z.f 24 4) input false ∧ v.DictRead w z dict) :=
  ⟨(told (run.fput kCdnCtl fCdnCtl_SVCEN 1) (readAns 0 64 fun _ => 0)), (zc 3 0x1101 [(24, 64), (32, 4096), (40, 64)]),
    by unfold State.ZReady State.ZAdmits; decide +kernel, by decide +kernel, (.cdnCompress (zc 3 0x1101 [(24, 64), (32, 4096), (40, 64)])), true, by simp,
    by decide +kernel, by decide +kernel, by decide +kernel, _, _, ([]), _, read_told (fun _ => 0) [] (by decide +kernel) (by decide +kernel), no_dict
    (by decide +kernel)⟩

/-- Inputs that meet the hypotheses of LendAndRasCommandsComplete, one for each of its clauses. -/
theorem witness_LendAndRasCommandsComplete :
    (∃ (s : State) (z : ZCmd), s.ZReady z ∧ let u := (s.zstarted z); ∃ fn, fn = z.f 16 1 ∧ fn < 2 ∧ (u.lendGroup fn).isSome = true ∧ z.is 0x1801 =
      true ∧ z.f 17 1 ≤ 15 ∧ (u.lf fn).memEn = false ∧ z.f 32 8 = 0) ∧
    (∃ (s : State) (z : ZCmd), s.ZReady z ∧ let u := (s.zstarted z); ∃ fn, fn = z.f 16 1 ∧ fn < 2 ∧ (u.lendGroup fn).isSome = true ∧ z.is 0x1801 =
      true ∧ z.f 17 1 ≤ 15 ∧ (u.lf fn).memEn = false ∧ ∃ base size key a b, base = z.f 24 8 ∧ size = z.f 32 8 ∧ key = z.f 18 2 % 16384 ∧ size ≠ 0 ∧
      base % 2097152 = 0 ∧ size % 2097152 = 0 ∧ u.inTiered base size = true ∧ u.hasDarkRegion base size = false ∧ (u.ctx key).dark = false ∧ ((∀ f i,
      f < 2 → i < 16 → (f, i) ≠ (fn, z.f 17 1) → ¬ ((u.lentRange f i).2.1 ≠ 0 ∧ base < (u.lentRange f i).1 + (u.lentRange f i).2.1 ∧ (u.lentRange f
      i).1 < base + size))) ∧ a = fLndRangea_KEYID.put (fLndRangea_BASE.put (fLndRangea_V.put 0 1) (base >>> 21)) key ∧ b = fLndRangeb_SIZE.put 0
      (size >>> 21)) ∧
    (∃ (s : State) (z : ZCmd), s.ZReady z ∧ let u := (s.zstarted z); ∃ fn, fn = z.f 16 1 ∧ fn < 2 ∧ (u.lendGroup fn).isSome = true ∧ z.is 0x1802 =
      true) ∧
    (∃ (s : State) (z : ZCmd), s.ZReady z ∧ let u := (s.zstarted z); ∃ fn, fn = z.f 16 1 ∧ fn < 2 ∧ (u.lendGroup fn).isSome = true ∧ z.is 0x1803 =
      true) ∧
    (∃ (s : State) (z : ZCmd), s.ZReady z ∧ let u := (s.zstarted z); ∃ fn, fn = z.f 16 1 ∧ fn < 2 ∧ (u.lendGroup fn).isSome = true ∧ z.is 0x1804 =
      true ∧ u.lendFrozen fn = false) ∧
    (∃ (s : State) (z : ZCmd), s.ZReady z ∧ let u := (s.zstarted z); ∃ fn, fn = z.f 16 1 ∧ fn < 2 ∧ (u.lendGroup fn).isSome = true ∧ z.is 0x1804 =
      true ∧ u.lendFrozen fn = true ∧ u.fget (kLndStat fn) fLndStat_CAUSE ≠ 6 ∧ ¬ (u.fget (kLndStat fn) fLndStat_CAUSE = 5 ∧ (u.lf fn).link ≠ 2)) ∧
    (∃ (s : State) (z : ZCmd), s.ZReady z ∧ let u := (s.zstarted z); ∃ fn, fn = z.f 16 1 ∧ fn < 2 ∧ (u.lendGroup fn).isSome = true ∧ z.is 0x1805 =
      true ∧ (u.lf fn).romEn = false ∧ ∃ b v, u.BufRead v z (z.f 24 8) 65536 b false) ∧
    (∃ (s : State) (z : ZCmd), s.ZReady z ∧ let u := (s.zstarted z); z.is 0x2801 = true ∧ u.bufOk z (z.f 24 8) (z.f 32 4) = true ∧ 64 ≤ z.f 32 4 ∧ z.f
      32 4 % 64 = 0 ∧ let l := (u.ras.log.filter (fun r => decide (r.seq ≥ z.f 20 4))); let m := (z.f 32 4 / 64); ∃ w, u.BufWritten w z (z.f 24 8)
      ((l.take m).flatMap (·.bytes (decide (u.srcOf z.qp = 3))))) ∧
    (∃ (s : State) (z : ZCmd), s.ZReady z ∧ let die := (z.f 17 1); let blk := (z.f 18 1); z.is 0x2802 = true ∧ unitNamed die blk = true) ∧
    (∃ (s : State) (z : ZCmd), s.ZReady z ∧ let u := (s.zstarted z); let die := (z.f 17 1); let blk := (z.f 18 1); z.isFirst 0x2803 16 [1] = true ∧
      z.f 16 1 = 0 ∧ unitNamed die blk = true ∧ u.retirable die blk = true ∧ z.f 20 2 = (u.unit die blk).gen.toNat ∧ ((u.srcOf z.qp = 2 → u.heldUnit
      die blk = none))) ∧
    (∃ (s : State) (z : ZCmd), s.ZReady z ∧ let u := (s.zstarted z); let die := (z.f 17 1); let blk := (z.f 18 1); z.isOp 0x2803 16 1 = true ∧ die <
      12 ∧ blk = 0xFF ∧ z.f 20 2 = (u.unit die 0xFF).gen.toNat ∧ ((u.srcOf z.qp = 2 → u.heldOn die = none)) ∧ u.dieStill die = true ∧ ∃ v, v =
      u.dieReset die) ∧
    (∃ (s : State) (z : ZCmd), s.ZReady z ∧ z.isFirst 0x2804 16 [1] = true ∧ z.f 16 1 = 0) ∧
    (∃ (s : State) (z : ZCmd), s.ZReady z ∧ let u := (s.zstarted z); z.isOp 0x2804 16 1 = true ∧ u.ras.perm.contains (z.f 20 4) = false) :=
  ⟨⟨(lend LendFn.reset), (zc 3 0x1801 [(17, 15)]), by unfold State.ZReady State.ZAdmits; decide +kernel, 0, by decide +kernel⟩,
   by refine ⟨(lend LendFn.reset), (zc 3 0x1801 [(17, 15), (24, 0x3FE00000), (32, 0x200000)]), by unfold State.ZReady State.ZAdmits; decide +kernel, 0, ?_, ?_,
     ?_, ?_, ?_, ?_, 0x3FE00000, 0x200000, 0, _, _, ?_, ?_, ?_, ?_, ?_, ?_, ?_, ?_, ?_, (fun f i hf hi _ c => c.1 ((by decide +kernel : ∀ f < 2, ∀ i < 16,
     (((lend LendFn.reset).zstarted (zc 3 0x1801 [(17, 15), (24, 0x3FE00000), (32, 0x200000)])).lentRange f i).2.1 = 0) f hf i hi)), rfl, rfl⟩
     <;> decide +kernel,
   ⟨(lend LendFn.reset), (zc 3 0x1802 []), by unfold State.ZReady State.ZAdmits; decide +kernel, 0, by decide +kernel⟩,
   ⟨(lend LendFn.reset), (zc 3 0x1803 []), by unfold State.ZReady State.ZAdmits; decide +kernel, 0, by decide +kernel⟩,
   ⟨(lend LendFn.reset), (zc 3 0x1804 []), by unfold State.ZReady State.ZAdmits; decide +kernel, 0, by decide +kernel⟩,
   ⟨((lend LendFn.reset).lendFreeze 0 1), (zc 3 0x1804 []), by unfold State.ZReady State.ZAdmits; decide +kernel, 0, by decide +kernel⟩,
   by refine ⟨(told (lend LendFn.reset) (readAns 0 65536 fun _ => 0)), (zc 3 0x1805 []), by unfold State.ZReady State.ZAdmits; decide +kernel, 0, ?_, ?_, ?_,
     ?_, ?_, _, _, read_told (fun _ => 0) [] (by decide +kernel) (by decide +kernel)⟩ <;> decide +kernel,
   by refine ⟨run, (zap 0x2801 [(32, 64)]), by unfold State.ZReady State.ZAdmits; decide +kernel, ?_, ?_, ?_, ?_, _, write_ap rfl (by decide +kernel)⟩
     <;> decide +kernel,
   ⟨run, (zc 3 0x2802 [(17, 11), (18, 255)]), by unfold State.ZReady State.ZAdmits; decide +kernel, by decide +kernel⟩,
   ⟨run, (zc 3 0x2803 [(17, 11), (18, 255)]), by unfold State.ZReady State.ZAdmits; decide +kernel, by decide +kernel⟩,
   by refine ⟨run, (zc 3 0x2803 [(16, 1), (17, 11), (18, 255)]), by unfold State.ZReady State.ZAdmits; decide +kernel, ?_, ?_, ?_, ?_, ?_, ?_, _, rfl⟩
     <;> decide +kernel,
   ⟨run, (zc 3 0x2804 []), by unfold State.ZReady State.ZAdmits; decide +kernel, by decide +kernel⟩,
   ⟨run, (zc 3 0x2804 [(16, 1), (20, 4294967295)]), by unfold State.ZReady State.ZAdmits; decide +kernel, by decide +kernel⟩⟩

/-- Inputs that meet the hypotheses of ServiceInstancesComplete, one for each of its clauses. -/
theorem witness_ServiceInstancesComplete :
    (∃ (s : State) (z : ZCmd), s.ZReady z ∧ let u := (s.zstarted z); let n := (z.inst); z.is 0x0803 = true ∧ u.inst n = none) ∧
    (∃ (s : State) (z : ZCmd), s.ZReady z ∧ let u := (s.zstarted z); let n := (z.inst); z.is 0x0803 = true ∧ ∃ i, u.inst n = some i) ∧
    (∃ (s : State) (z : ZCmd), s.ZReady z ∧ let u := (s.zstarted z); let n := (z.inst); u.sviBusy n = false ∧ ∃ qf qc mo wt, z.is 0x0801 = true ∧ qf =
      z.f 16 2 ∧ qc = z.f 18 2 ∧ mo = z.f 20 2 ∧ wt = z.f 22 1 ∧ ((∀ i, u.inst n = some i → i.st ≠ 2)) ∧ 1 ≤ qc ∧ qc ≤ 64 ∧ 64 ≤ qf ∧ qf + qc ≤ 8192 ∧
      1 ≤ mo ∧ mo ≤ 4096 ∧ 1 ≤ wt ∧ wt ≤ 16 ∧ let new := ((List.range qc).map (qf + ·)); let old := (((u.inst n).map Inst.qps).getD []); ((∀ q, q ∈
      new → q ∉ old → u.pair q = none ∧ u.ownerOf q = none)) ∧ ∃ (l : List (Nat × QPair)), ∃ v w, CtxsRead 6 (new.filter (fun q => !old.contains q)) u
      v (l.map fun p => (p.1, some p.2)) ∧ w = v.sviAssign s.zid n qf qc mo wt l (old.filter (fun q => !new.contains q)) ∧ w.draining s.zid = false) ∧
    (∃ (s : State) (z : ZCmd), s.ZReady z ∧ let u := (s.zstarted z); let n := (z.inst); u.sviBusy n = false ∧ ∃ qf qc mo wt, z.is 0x0801 = true ∧ qf =
      z.f 16 2 ∧ qc = z.f 18 2 ∧ mo = z.f 20 2 ∧ wt = z.f 22 1 ∧ ((∀ i, u.inst n = some i → i.st ≠ 2)) ∧ 1 ≤ qc ∧ qc ≤ 64 ∧ 64 ≤ qf ∧ qf + qc ≤ 8192 ∧
      1 ≤ mo ∧ mo ≤ 4096 ∧ 1 ≤ wt ∧ wt ≤ 16 ∧ let new := ((List.range qc).map (qf + ·)); let old := (((u.inst n).map Inst.qps).getD []); ((∀ q, q ∈
      new → q ∉ old → u.pair q = none ∧ u.ownerOf q = none)) ∧ ∃ (l : List (Nat × QPair)), ∃ v w, CtxsRead 6 (new.filter (fun q => !old.contains q)) u
      v (l.map fun p => (p.1, some p.2)) ∧ w = v.sviAssign s.zid n qf qc mo wt l (old.filter (fun q => !new.contains q)) ∧ ∃ i, w.draining s.zid =
      true ∧ w.inst n = some i) ∧
    (∃ (s : State) (z : ZCmd), s.ZReady z ∧ let u := (s.zstarted z); let n := (z.inst); u.sviBusy n = false ∧ ∃ c mode, (c, mode) ∈
      [(Instr.sviResetDrain z, 0), (.sviResetSquash z, 1), (.sviResetRelease z, 2)] ∧ c.wf = true ∧ z.f 16 1 = mode ∧ u.inst n = none) ∧
    (∃ (s : State) (z : ZCmd), s.ZReady z ∧ let u := (s.zstarted z); let n := (z.inst); u.sviBusy n = false ∧ ∃ c mode, (c, mode) ∈
      [(Instr.sviResetDrain z, 0), (.sviResetSquash z, 1), (.sviResetRelease z, 2)] ∧ c.wf = true ∧ z.f 16 1 = mode ∧ ∃ i, u.inst n = some i ∧ ¬ (i.st
      = 2 ∧ mode = 0)) ∧
    (∃ (s : State) (z : ZCmd), s.ZReady z ∧ let u := (s.zstarted z); let n := (z.inst); u.sviBusy n = false ∧ ∃ i, u.inst n = some i ∧ z.isFirst
      0x0804 16 [1, 2] = true ∧ z.f 16 1 = 0 ∧ i.logging = true) ∧
    (∃ (s : State) (z : ZCmd), s.ZReady z ∧ let u := (s.zstarted z); let n := (z.inst); u.sviBusy n = false ∧ ∃ i, u.inst n = some i ∧ z.isFirst
      0x0804 16 [1, 2] = true ∧ z.f 16 1 = 0 ∧ i.logging = false ∧ (u.zci.insts.filter (fun p => p.2.logging)).length < 16) ∧
    (∃ (s : State) (z : ZCmd), s.ZReady z ∧ let u := (s.zstarted z); let n := (z.inst); u.sviBusy n = false ∧ ∃ i, u.inst n = some i ∧ z.isOp 0x0804
      16 1 = true ∧ 1 ≤ z.f 32 4 ∧ z.f 32 4 ≤ 65536 ∧ u.bufOk z (z.f 24 8) (8 * z.f 32 4) = true ∧ let mine := (u.zci.wlog.filter (fun e => e.1 = n));
      let take := (mine.take (z.f 32 4)); ∃ w, u.BufWritten w z (z.f 24 8) (take.flatMap (fun e => leBytes 8 (e.2 * 4096)))) ∧
    (∃ (s : State) (z : ZCmd), s.ZReady z ∧ let u := (s.zstarted z); let n := (z.inst); u.sviBusy n = false ∧ ∃ i, u.inst n = some i ∧ z.isOp 0x0804
      16 2 = true) ∧
    (∃ (s : State) (z : ZCmd), s.ZReady z ∧ let u := (s.zstarted z); let n := (z.inst); u.sviBusy n = false ∧ ∃ i, u.inst n = some i ∧ ∃ ids, ids =
      (u.instOuts n).map (·.id) ∧ z.is 0x0805 = true ∧ i.st = 2) ∧
    (∃ (s : State) (z : ZCmd), s.ZReady z ∧ let u := (s.zstarted z); let n := (z.inst); u.sviBusy n = false ∧ ∃ i, u.inst n = some i ∧ ∃ ids, ids =
      (u.instOuts n).map (·.id) ∧ z.is 0x0805 = true ∧ i.st ≠ 2) ∧
    (∃ (s : State) (z : ZCmd), s.ZReady z ∧ let u := (s.zstarted z); let n := (z.inst); u.sviBusy n = false ∧ ∃ i, u.inst n = some i ∧ ∃ ids, ids =
      (u.instOuts n).map (·.id) ∧ z.is 0x0808 = true ∧ i.st = 1) ∧
    (∃ (s : State) (z : ZCmd), s.ZReady z ∧ let u := (s.zstarted z); let n := (z.inst); u.sviBusy n = false ∧ ∃ i, u.inst n = some i ∧ ∃ ids, ids =
      (u.instOuts n).map (·.id) ∧ z.is 0x0808 = true ∧ i.st ≠ 1) ∧
    (∃ (s : State) (z : ZCmd), s.ZReady z ∧ let u := (s.zstarted z); let n := (z.inst); u.sviBusy n = false ∧ ∃ i, u.inst n = some i ∧ z.is 0x0806 =
      true ∧ i.st = 2 ∧ u.bufOk z (z.f 24 8) 4096 = true ∧ ∃ w, u.BufWritten w z (z.f 24 8) (u.svBytes n i)) ∧
    (∃ (s : State) (z : ZCmd), s.ZReady z ∧ let u := (s.zstarted z); let n := (z.inst); u.sviBusy n = false ∧ ∃ i, u.inst n = some i ∧ z.is 0x0807 =
      true ∧ i.st = 2 ∧ ∃ b v, u.BufRead v z (z.f 24 8) 4096 b false ∧ leNat (sliceB b 0 2) = 1 ∧ sliceB b 16 32 = sm3 (b.drop 64) ∧ leNat (sliceB b 4
      2) = i.qcount ∧ ∃ x, v.zci.images.find? (fun x => x.digest = sm3 (b.drop 64)) = some x) ∧
    (∃ (s : State) (z : ZCmd), s.ZReady z ∧ let u := (s.zstarted z); let n := (z.inst); u.sviBusy n = false ∧ ∃ i, u.inst n = some i ∧ z.is 0x0807 =
      true ∧ i.st = 2 ∧ ∃ b v, u.BufRead v z (z.f 24 8) 4096 b false ∧ leNat (sliceB b 0 2) = 1 ∧ sliceB b 16 32 = sm3 (b.drop 64) ∧ leNat (sliceB b 4
      2) = i.qcount ∧ v.zci.images.find? (fun x => x.digest = sm3 (b.drop 64)) = none) :=
  ⟨⟨run, (zc 3 0x0803 [(6, 2047)]), by unfold State.ZReady State.ZAdmits; decide +kernel, by decide +kernel⟩,
   ⟨(serving inst0), (zc 3 0x0803 [(6, 2047)]), by unfold State.ZReady State.ZAdmits; decide +kernel, by decide +kernel, _, opt_get (by decide +kernel)⟩,
   ⟨(tabled run), (zc 3 0x0801 [(6, 2047), (16, 64), (18, 1), (20, 4096), (22, 16)]), by unfold State.ZReady State.ZAdmits; decide +kernel, by decide +kernel,
     64, 1, 4096, 16, by decide +kernel, by decide +kernel, by decide +kernel, by decide +kernel, by decide +kernel, no_inst (by decide +kernel),
     by decide +kernel, by decide +kernel, by decide +kernel, by decide +kernel, by decide +kernel, by decide +kernel, by decide +kernel, by decide +kernel,
     by decide +kernel, ([(64, qp64)]), _, _, ctxs_read (qp := 64) (q := qp64) (d := 0x41) (by decide +kernel) rfl (by decide +kernel), rfl, by decide +kernel⟩,
   ⟨busyServing, (zc 3 0x0801 [(6, 2047), (16, 64), (18, 1), (20, 1), (22, 1)]), by unfold State.ZReady State.ZAdmits; decide +kernel, by decide +kernel, 64, 1,
     1, 1, by decide +kernel, by decide +kernel, by decide +kernel, by decide +kernel, by decide +kernel, inst_is (j := { inst0 with qcount := 2 })
     (by decide +kernel) (by decide +kernel), by decide +kernel, by decide +kernel, by decide +kernel, by decide +kernel, by decide +kernel, by decide +kernel,
     by decide +kernel, by decide +kernel, by decide +kernel, ([]), _, _, ctxs_none (by decide +kernel) rfl, rfl, ({ inst0 with qcount := 1 }),
     by decide +kernel⟩,
   ⟨run, (zc 3 0x0802 [(6, 2047)]), by unfold State.ZReady State.ZAdmits; decide +kernel, by decide +kernel, (.sviResetDrain (zc 3 0x0802 [(6, 2047)])), 0, by
     simp, by decide +kernel⟩,
   ⟨(serving inst0), (zc 3 0x0802 [(6, 2047), (16, 2)]), by unfold State.ZReady State.ZAdmits; decide +kernel, by decide +kernel, (.sviResetRelease (zc 3 0x0802
     [(6, 2047), (16, 2)])), 2, by simp, by decide +kernel, by decide +kernel, _, opt_get (by decide +kernel), by decide +kernel⟩,
   ⟨(serving { inst0 with logging := true }), (zc 3 0x0804 [(6, 2047)]), by unfold State.ZReady State.ZAdmits; decide +kernel, by decide +kernel,
     ({ inst0 with logging := true }), by decide +kernel⟩,
   ⟨(serving inst0), (zc 3 0x0804 [(6, 2047)]), by unfold State.ZReady State.ZAdmits; decide +kernel, by decide +kernel, inst0, by decide +kernel⟩,
   by refine ⟨(told { serving inst0 with zci := { (serving inst0).zci with wlog := [(2047, 5)] } } (writeAns 4096 (leBytes 8 20480))), (zc 3 0x0804 [(6, 2047),
     (16, 1), (24, 4096), (32, 1)]), by unfold State.ZReady State.ZAdmits; decide +kernel, ?_, inst0, ?_, ?_, ?_, ?_, ?_, _, write_told [] (by decide +kernel)
     (by decide +kernel)⟩ <;> decide +kernel,
   ⟨(serving inst0), (zc 3 0x0804 [(6, 2047), (16, 2)]), by unfold State.ZReady State.ZAdmits; decide +kernel, by decide +kernel, inst0, by decide +kernel⟩,
   ⟨(serving { inst0 with st := 2 }), (zc 3 0x0805 [(6, 2047)]), by unfold State.ZReady State.ZAdmits; decide +kernel, by decide +kernel,
     ({ inst0 with st := 2 }), by decide +kernel, _, rfl, by decide +kernel⟩,
   ⟨(serving inst0), (zc 3 0x0805 [(6, 2047)]), by unfold State.ZReady State.ZAdmits; decide +kernel, by decide +kernel, inst0, by decide +kernel, _, rfl,
     by decide +kernel⟩,
   ⟨(serving inst0), (zc 3 0x0808 [(6, 2047)]), by unfold State.ZReady State.ZAdmits; decide +kernel, by decide +kernel, inst0, by decide +kernel, _, rfl,
     by decide +kernel⟩,
   ⟨(serving { inst0 with st := 2 }), (zc 3 0x0808 [(6, 2047)]), by unfold State.ZReady State.ZAdmits; decide +kernel, by decide +kernel,
     ({ inst0 with st := 2 }), by decide +kernel, _, rfl, by decide +kernel⟩,
   by refine ⟨(told saving (writeAns 4096 saveBytes)), saveCmd, by unfold State.ZReady State.ZAdmits; decide +kernel, ?_, stopped, ?_, ?_, ?_, ?_, _,
     save_written⟩ <;> decide +kernel,
   ⟨(restoring [image]), restoreCmd, by unfold State.ZReady State.ZAdmits; decide +kernel, by decide +kernel, ({ inst0 with st := 2 }), by decide +kernel,
     by decide +kernel, by decide +kernel, imageBytes, _, image_read (told_replies _ rfl rfl) (by decide +kernel), by decide +kernel, image_digest,
     by decide +kernel, image, image_found (image_kept _)⟩,
   ⟨(restoring []), restoreCmd, by unfold State.ZReady State.ZAdmits; decide +kernel, by decide +kernel, ({ inst0 with st := 2 }), by decide +kernel,
     by decide +kernel, by decide +kernel, imageBytes, _, image_read (told_replies _ rfl rfl) (by decide +kernel), by decide +kernel, image_digest,
     by decide +kernel, image_absent (image_kept _)⟩⟩

/-- Inputs that meet the hypotheses of ServiceCompletionsComplete, one for each of its clauses. -/
theorem witness_ServiceCompletionsComplete :
    (∃ (s : State) (n : Nat) (i : Inst), n < 2048 ∧ s.stopped = false ∧ let s0 := (s.zciFlush); s0.inst n = some i ∧ s0.owesReplies n = false ∧
      s0.zciWrites = false ∧ i.op = 5) ∧
    (∃ (s : State) (n : Nat) (i : Inst), n < 2048 ∧ s.stopped = false ∧ let s0 := (s.zciFlush); s0.inst n = some i ∧ s0.owesReplies n = false ∧
      s0.zciWrites = false ∧ i.op = 2 ∧ s0.instOuts n = [] ∧ i.mode = 2) ∧
    (∃ (s : State) (n : Nat) (i : Inst), n < 2048 ∧ s.stopped = false ∧ let s0 := (s.zciFlush); s0.inst n = some i ∧ s0.owesReplies n = false ∧
      s0.zciWrites = false ∧ i.op = 2 ∧ s0.instOuts n = [] ∧ let u : State :=
      ({ s0 with zci := { s0.zci with wlog := s0.zci.wlog.filter (fun e => e.1 ≠ n) } }); ∃ l v, i.mode ≠ 2 ∧ CtxsRead 6 i.qps u v l) ∧
    (∃ (s : State) (qp : Nat) (p : QPair) (id : Nat), qp < 8192 ∧ s.stopped = false ∧ let u := (s.zciFlush); u.pair qp = some p ∧ p.stopBy = some id ∧
      u.qpBusy qp id = false ∧ let v := (u.setPair qp none); v.draining id = true) ∧
    (∃ (s : State) (qp : Nat) (p : QPair) (id : Nat), qp < 8192 ∧ s.stopped = false ∧ let u := (s.zciFlush); u.pair qp = some p ∧ p.stopBy = some id ∧
      u.qpBusy qp id = false ∧ let v := (u.setPair qp none); v.draining id = false) :=
  ⟨⟨(serving { inst0 with op := 5 }), 2047, ({ inst0 with op := 5 }), by decide +kernel⟩,
   ⟨(serving { inst0 with op := 2, mode := 2 }), 2047, ({ inst0 with op := 2, mode := 2 }), by decide +kernel⟩,
   ⟨(tabled (serving { inst0 with op := 2 })), 2047, ({ inst0 with op := 2 }), by decide +kernel, by decide +kernel, by decide +kernel, by decide +kernel,
     by decide +kernel, by decide +kernel, by decide +kernel, ([(64, some qp64)]), _, by decide +kernel, ctxs_read (qp := 64) (q := qp64) (d := 0x41)
     (by decide +kernel) rfl (by decide +kernel)⟩,
   ⟨((paired.setPair 64 (some { qp0 with stopBy := some 7 })).setPair 65 (some { qp0 with stopBy := some 7 })), 64, ({ qp0 with stopBy := some 7 }), 7,
     by decide +kernel⟩,
   ⟨(paired.setPair 64 (some { qp0 with stopBy := some 7 })), 64, ({ qp0 with stopBy := some 7 }), 7, by decide +kernel⟩⟩

/-- Inputs that meet the hypotheses of BootCommandsComplete, one for each of its clauses. -/
theorem witness_BootCommandsComplete :
    (∃ (s : State) (z : ZCmd), s.ZReady z ∧ let u := (s.zstarted z); z.is 0x0101 = true ∧ u.plat.accepted = false ∧ 16 ≤ z.f 16 4 ∧ z.f 16 4 ≤ 1048576
      ∧ z.f 16 4 % 8 = 0) ∧
    (∃ (s : State) (z : ZCmd), s.ZReady z ∧ let u := (s.zstarted z); ∃ len got, z.is 0x0102 = true ∧ u.boot.pdb = some (len, got) ∧ z.f 16 4 =
      got.length ∧ got.length + z.f 32 4 ≤ len ∧ ∃ b v, u.BufRead v z (z.f 24 8) (z.f 32 4) b false) ∧
    (∃ (s : State) (z : ZCmd), s.ZReady z ∧ let u := (s.zstarted z); ∃ b v, z.is 0x0103 = true ∧ u.boot.pdb = some (b.length, b) ∧ v =
      { u with boot := { u.boot with pdb := none } } ∧ v.pdbCheck b = none) ∧
    (∃ (s : State) (z : ZCmd), s.ZReady z ∧ z.is 0x0104 = true) ∧
    (∃ (s : State) (z : ZCmd), s.ZReady z ∧ let u := (s.zstarted z); ∃ c old, z.is 0x7F01 = true ∧ c = z.f 16 1 ∧ u.fwGate c = none ∧ old = (if z.f 20
      4 = 0 then 0 else (u.image c).length) ∧ 1 ≤ z.f 32 4 ∧ z.f 32 4 ≤ (if z.qp = 0 then 4096 else 0x1000000) ∧ z.f 20 4 = old ∧ old + z.f 32 4 ≤ 256
      + u.bodyMax c ∧ ∃ b v w, u.BufRead v z (z.f 24 8) (z.f 32 4) b false ∧ v.ChunkPlaced w c ((v.image c).take old ++ b) (z.f 20 4)) :=
  ⟨⟨(booting 1), (zc 0 0x0101 [(16, 1048576)]), by unfold State.ZReady State.ZAdmits; decide +kernel, by decide +kernel⟩,
   by refine ⟨({ booting 1 with boot := { (booting 1).boot with pdb := some (16, []) } }), ⟨0, (zc 0 0x0102 [(32, 8)]).cmd, [1, 2, 3, 4, 5, 6, 7, 8]⟩,
     by unfold State.ZReady State.ZAdmits; decide +kernel, 16, ([]), ?_, ?_, ?_, ?_, _, _, read_mail (by decide +kernel)⟩ <;> decide +kernel,
   ⟨({ booting 1 with boot := { (booting 1).boot with pdb := some (1424, pdbBlock) } }), (zc 0 0x0103 []), by unfold State.ZReady State.ZAdmits; decide +kernel,
     pdbBlock, _, by decide +kernel, by decide +kernel, rfl, by decide +kernel⟩,
   ⟨(booting 0), (zc 0 0x0104 []), by unfold State.ZReady State.ZAdmits; decide +kernel, by decide +kernel⟩,
   by refine ⟨(booting 0), ⟨0, (zc 0 0x7F01 [(32, 1)]).cmd, [9]⟩, by unfold State.ZReady State.ZAdmits; decide +kernel, 0, 0, ?_, ?_, ?_, ?_, ?_, ?_, ?_, ?_, _,
     _, _, read_mail (by decide +kernel), unplaced (by decide +kernel)⟩ <;> decide +kernel⟩

/-- Inputs that meet the hypotheses of BootCommandsComplete, one for each of its clauses. -/
theorem witness_BootCommandsComplete_safelight :
    (∃ (s : State) (z : ZCmd), s.ZReady z ∧ let u := (s.zstarted z); ∃ c b, c = z.f 16 1 ∧ u.fwGate c = none ∧ b = u.image c ∧ u.imageBad c b = none ∧
      z.isFirst 0x7F02 16 [1, 2, 3] = true ∧ c = 0 ∧ ((u.stage = 0 → u.pins.tamperN = true))) :=
  ⟨(withImage 0 0 image0), (zc 0 0x7F02 []), by unfold State.ZReady State.ZAdmits; decide +kernel, 0, image0, by decide +kernel⟩

/-- Inputs that meet the hypotheses of BootCommandsComplete, one for each of its clauses. -/
theorem witness_BootCommandsComplete_serviceFw :
    (∃ (s : State) (z : ZCmd), s.ZReady z ∧ let u := (s.zstarted z); ∃ c b, c = z.f 16 1 ∧ u.fwGate c = none ∧ b = u.image c ∧ u.imageBad c b = none ∧
      z.isOp 0x7F02 16 1 = true) :=
  ⟨(withImage 2 1 image1), (zc 0 0x7F02 [(16, 1)]), by unfold State.ZReady State.ZAdmits; decide +kernel, 1, image1, by decide +kernel⟩

/-- Inputs that meet the hypotheses of BootCommandsComplete, one for each of its clauses. -/
theorem witness_BootCommandsComplete_later :
    (∃ (s : State) (z : ZCmd), s.ZReady z ∧ let u := (s.zstarted z); ∃ c b, c = z.f 16 1 ∧ u.fwGate c = none ∧ b = u.image c ∧ u.imageBad c b = none ∧
      ∃ w, z.isOp 0x7F02 16 2 = true ∧ u.RangeWritten w whoSafelight (u.plat.monBase + u.plat.monSize - 0x4000) u.plat.monKey true (monTables
      u.plat.monBase u.plat.monSize u.plat.monKey)) ∧
    (∃ (s : State) (z : ZCmd), s.ZReady z ∧ let u := (s.zstarted z); ∃ c b, c = z.f 16 1 ∧ u.fwGate c = none ∧ b = u.image c ∧ u.imageBad c b = none ∧
      z.isOp 0x7F02 16 3 = true ∧ (u.boot.active[1]?.getD none).isSome = true ∧ ((u.fon kWldCtl fWldCtl_MONEN = true → (u.boot.active[2]?.getD
      none).isSome = true)) ∧ ∃ v cores, v = u.imageUp 3 b ∧ cores = (List.range 216).filter (fun n => !v.coreOut n) ∧ cores ≠ []) ∧
    (∃ (s : State) (z : ZCmd), s.ZReady z ∧ z.is 0x7F03 = true ∧ z.f 16 1 ≤ 3) :=
  ⟨by refine ⟨monitoring, (zc 0 0x7F02 [(16, 2)]), by unfold State.ZReady State.ZAdmits; decide +kernel, 2, image2, ?_, ?_, ?_, ?_, _, ?_, mon_written⟩
  <;> decide +kernel,
   by refine ⟨hosted, (zc 0 0x7F02 [(16, 3)]), by unfold State.ZReady State.ZAdmits; decide +kernel, 3, image3, ?_, ?_, ?_, ?_, ?_, ?_, ?_, _, _, rfl, rfl, ?_⟩
     <;> decide +kernel,
   ⟨run, (zc 0 0x7F03 [(16, 3)]), by unfold State.ZReady State.ZAdmits; decide +kernel, by decide +kernel⟩⟩

/-- Inputs that meet the hypotheses of ExposureCommandsComplete, one for each of its clauses. -/
theorem witness_ExposureCommandsComplete :
    (∃ (s : State) (z : ZCmd), s.ZReady z ∧ z.isFirst 0x3001 16 [1, 2] = true ∧ z.f 16 1 = 0) ∧
    (∃ (s : State) (z : ZCmd), s.ZReady z ∧ let u := (s.zstarted z); z.isOp 0x3001 16 1 = true ∧ let l := (u.boot.log.filter (fun e => decide (e.seq ≥
      z.f 20 4))); let w := (fitLog l (z.f 32 4)); ((w = [] → l = []))) ∧
    (∃ (s : State) (z : ZCmd), s.ZReady z ∧ let u := (s.zstarted z); ∃ d, z.isOp 0x3001 16 2 = true ∧ u.wld.idPriv = some d) ∧
    (∃ (s : State) (z : ZCmd), s.ZReady z ∧ let u := (s.zstarted z); ∃ q, z.is 0x3002 = true ∧ u.wld.idPriv.isSome = true ∧ u.bufOk z (z.f 24 8) (z.f
      20 4) = true ∧ 160 + 32 * ((List.range 32).filter (fun i => (BitVec.ofNat 32 (z.f 16 4)).getLsbD i)).length ≤ z.f 20 4 ∧ q = u.quote
      (BitVec.ofNat 32 (z.f 16 4)) (leBytes 32 (z.f 32 32))) ∧
    (∃ (s : State) (z : ZCmd), s.ZReady z ∧ let u := (s.zstarted z); z.is 0x3003 = true ∧ 16 ≤ z.f 16 1 ∧ z.f 16 1 < 32 ∧ ((u.srcOf z.qp = 2 → 24 ≤
      z.f 16 1)) ∧ z.f 20 4 ≤ 984 ∧ z.f 20 4 = 0) ∧
    (∃ (s : State) (z : ZCmd), s.ZReady z ∧ let u := (s.zstarted z); z.is 0x3003 = true ∧ 16 ≤ z.f 16 1 ∧ z.f 16 1 < 32 ∧ ((u.srcOf z.qp = 2 → 24 ≤
      z.f 16 1)) ∧ z.f 20 4 ≤ 984 ∧ ∃ b v, z.f 20 4 ≠ 0 ∧ u.BufRead v z (z.f 24 8) (z.f 20 4) b false) ∧
    (∃ (s : State), s.stopped = false ∧ s.boot.windowOpen = true ∧ s.boot.cdPhase = false ∧ let u : State :=
      ({ s with boot := { s.boot with windowOpen := false } }); let gone := ((List.range 8).filter fun g => decide (u.role g = 5 ∧ u.fget (kFioXstat
      g) fFioXstat_STATE ≠ 2)); gone ≠ []) ∧
    (∃ (s : State), s.stopped = false ∧ s.boot.windowOpen = true ∧ s.boot.cdPhase = false ∧ let u : State :=
      ({ s with boot := { s.boot with windowOpen := false } }); let gone := ((List.range 8).filter fun g => decide (u.role g = 5 ∧ u.fget (kFioXstat
      g) fFioXstat_STATE ≠ 2)); gone = [] ∧ ∃ v, v = u.setStage 3) ∧
    (∃ (s : State) (failing : List Nat), s.stopped = false ∧ s.stage = 3 ∧ ∃ u, u = s.plat.sets.zipIdx.foldl (fun s p => s.focusSet failing p) s ∧ ∃
      v, u.takeFrames (ceilDiv ((u.tiered.2 - u.tiered.1) / 0x200000 * 16) 4096) = some v) ∧
    (∃ (s : State) (failing : List Nat), s.stopped = false ∧ s.stage = 3 ∧ ∃ u, u = s.plat.sets.zipIdx.foldl (fun s p => s.focusSet failing p) s ∧ ∃
      ok, ((ok = false ∨ u.takeFrames (ceilDiv ((u.tiered.2 - u.tiered.1) / 0x200000 * 16) 4096) = none))) :=
  ⟨⟨run, (zc 3 0x3001 []), by unfold State.ZReady State.ZAdmits; decide +kernel, by decide +kernel⟩,
   ⟨run, (zc 3 0x3001 [(16, 1)]), by unfold State.ZReady State.ZAdmits; decide +kernel, by decide +kernel⟩,
   ⟨({ run with wld := { run.wld with idPriv := some 1 } }), (zc 3 0x3001 [(16, 2)]), by unfold State.ZReady State.ZAdmits; decide +kernel, 1,
     by decide +kernel⟩,
   by refine ⟨quoter, (zc 3 0x3002 [(20, 160), (24, 4096)]), by unfold State.ZReady State.ZAdmits; decide +kernel, _, ?_, ?_, ?_, ?_, rfl⟩ <;> decide +kernel,
   ⟨run, (zc 3 0x3003 [(16, 31)]), by unfold State.ZReady State.ZAdmits; decide +kernel, by decide +kernel⟩,
   by refine ⟨(told (run) (readAns 4096 8 fun _ => 0)), (zc 3 0x3003 [(16, 16), (20, 8), (24, 4096)]), by unfold State.ZReady State.ZAdmits; decide +kernel, ?_,
     ?_, ?_, ?_, ?_, _, _, ?_, read_told (fun _ => 0) [] (by decide +kernel) (by decide +kernel)⟩ <;> decide +kernel,
   ⟨({ group7 5 with boot := { run.boot with windowOpen := true, cdPhase := false } }), by decide +kernel⟩,
   by refine ⟨({ run with boot := { run.boot with windowOpen := true, cdPhase := false } }), ?_, ?_, ?_, ?_, _, rfl⟩ <;> decide +kernel,
   ⟨(withSets.setStage 3), ([]), by decide +kernel, by decide +kernel, _, rfl, _, opt_get (by decide +kernel)⟩,
   ⟨(run.setStage 3), ([]), by decide +kernel, by decide +kernel, _, rfl, false, .inl rfl⟩⟩

/-- Inputs that meet the hypotheses of PowerCommandsComplete, one for each of its clauses. -/
theorem witness_PowerCommandsComplete :
    (∃ (s : State) (z : ZCmd) (u : State) (e : State → List Byte → State), s.ZFirm z u e ∧ z.is 0x2001 = true ∧ z.f 32 4 = 0) ∧
    (∃ (s : State) (z : ZCmd) (u : State) (e : State → List Byte → State), s.ZFirm z u e ∧ z.is 0x2001 = true ∧ ∃ w, 208 ≤ z.f 32 4 ∧
      u.pwrRecords.2.BufWritten w z (z.f 24 8) u.pwrRecords.1) ∧
    (∃ (s : State) (z : ZCmd) (u : State) (e : State → List Byte → State), s.ZFirm z u e ∧ ∃ pl1 pl2 tau, z.is 0x2002 = true ∧ pl1 = z.f 16 2 ∧ pl2 =
      z.f 18 2 ∧ tau = z.f 20 4 ∧ 100 ≤ pl1 ∧ pl1 ≤ 640 ∧ pl1 ≤ pl2 ∧ pl2 ≤ 800 ∧ 10 ≤ tau ∧ tau ≤ 10000) ∧
    (∃ (s : State) (z : ZCmd) (u : State) (e : State → List Byte → State), s.ZFirm z u e ∧ z.isFirst 0x2003 16 [1, 2, 3] = true ∧ z.f 16 1 = 0 ∧ z.f
      18 1 ≤ 2) ∧
    (∃ (s : State) (z : ZCmd) (u : State) (e : State → List Byte → State), s.ZFirm z u e ∧ let d := (z.f 17 1); z.isOp 0x2003 16 1 = true ∧ d < 12 ∧
      32 ≤ z.f 20 2 ∧ z.f 20 2 ≤ 168) ∧
    (∃ (s : State) (z : ZCmd) (u : State) (e : State → List Byte → State), s.ZFirm z u e ∧ let d := (z.f 17 1); z.isOp 0x2003 16 2 = true ∧ d < 12 ∧
      u.heldOn d = none ∧ (dieCores d).all (u.coreDeep 3) = true) ∧
    (∃ (s : State) (z : ZCmd) (u : State) (e : State → List Byte → State), s.ZFirm z u e ∧ let d := (z.f 17 1); z.isOp 0x2003 16 3 = true ∧ d < 12 ∧
      u.parked d = false) ∧
    (∃ (s : State) (z : ZCmd) (u : State) (e : State → List Byte → State), s.ZFirm z u e ∧ let d := (z.f 17 1); z.isOp 0x2003 16 3 = true ∧ d < 12 ∧
      u.parked d = true ∧ ∃ v, v = u.fput (kPwrDctl d) fPwrDctl_PARKED 0 ∧ v.dieOut d = true) ∧
    (∃ (s : State) (z : ZCmd) (u : State) (e : State → List Byte → State), s.ZFirm z u e ∧ let d := (z.f 17 1); z.isOp 0x2003 16 3 = true ∧ d < 12 ∧
      u.parked d = true ∧ ∃ v, v = u.fput (kPwrDctl d) fPwrDctl_PARKED 0 ∧ v.dieOut d = false) ∧
    (∃ (s : State) (z : ZCmd) (u : State) (e : State → List Byte → State), s.ZFirm z u e ∧ u.bufOk z (z.f 24 8) (z.f 32 4) = true ∧ ∃ w, z.isFirst
      0x2004 16 [1] = true ∧ z.f 16 1 = 0 ∧ u.sensors.length ≤ z.f 32 4 ∧ u.BufWritten w z (z.f 24 8) u.sensors) ∧
    (∃ (s : State) (z : ZCmd) (u : State) (e : State → List Byte → State), s.ZFirm z u e ∧ u.bufOk z (z.f 24 8) (z.f 32 4) = true ∧ ∃ w, z.isOp 0x2004
      16 1 = true ∧ u.wearLog.1.length ≤ z.f 32 4 ∧ u.wearLog.2.BufWritten w z (z.f 24 8) u.wearLog.1) :=
  ⟨⟨run, (zc 3 0x2001 []), _, _, firm (by unfold State.ZReady State.ZAdmits; decide +kernel) (by decide +kernel), by decide +kernel⟩,
   ⟨run, (zap 0x2001 [(32, 208)]), _, _, firm (by unfold State.ZReady State.ZAdmits; decide +kernel) (by decide +kernel), by decide +kernel, _,
     by decide +kernel, write_ap (pwr_length _) (by decide +kernel)⟩,
   ⟨run, (zc 3 0x2002 [(16, 100), (18, 800), (20, 10000)]), _, _, firm (by unfold State.ZReady State.ZAdmits; decide +kernel) (by decide +kernel), _, _, _,
     by decide +kernel, rfl, rfl, rfl, by decide +kernel⟩,
   ⟨run, (zc 3 0x2003 [(18, 2)]), _, _, firm (by unfold State.ZReady State.ZAdmits; decide +kernel) (by decide +kernel), by decide +kernel⟩,
   ⟨run, (zc 3 0x2003 [(16, 1), (17, 11), (20, 168)]), _, _, firm (by unfold State.ZReady State.ZAdmits; decide +kernel) (by decide +kernel), by decide +kernel⟩,
   ⟨deep, (zc 3 0x2003 [(16, 2), (17, 11)]), _, _, firm (by unfold State.ZReady State.ZAdmits; decide +kernel) (by decide +kernel), by decide +kernel⟩,
   ⟨run, (zc 3 0x2003 [(16, 3), (17, 11)]), _, _, firm (by unfold State.ZReady State.ZAdmits; decide +kernel) (by decide +kernel), by decide +kernel⟩,
   ⟨((run.fput (kPwrDctl 11) fPwrDctl_PARKED 1).setUnit 11 0xFF .lost), (zc 3 0x2003 [(16, 3), (17, 11)]), _, _, firm
     (by unfold State.ZReady State.ZAdmits; decide +kernel) (by decide +kernel), by decide +kernel, by decide +kernel, by decide +kernel, _, rfl,
     by decide +kernel⟩,
   ⟨(run.fput (kPwrDctl 11) fPwrDctl_PARKED 1), (zc 3 0x2003 [(16, 3), (17, 11)]), _, _, firm (by unfold State.ZReady State.ZAdmits; decide +kernel)
     (by decide +kernel), by decide +kernel, by decide +kernel, by decide +kernel, _, rfl, by decide +kernel⟩,
   ⟨run, (zap 0x2004 [(32, 6656)]), _, _, firm (by unfold State.ZReady State.ZAdmits; decide +kernel) (by decide +kernel), by decide +kernel, _,
     by decide +kernel, by decide +kernel, by decide +kernel, write_ap (n := 6656) (by decide +kernel) (by decide +kernel)⟩,
   ⟨run, (zap 0x2004 [(16, 1), (32, 65536)]), _, _, firm (by unfold State.ZReady State.ZAdmits; decide +kernel) (by decide +kernel), by decide +kernel, _,
     by decide +kernel, by decide +kernel, write_ap (n := 13552) (by decide +kernel) (by decide +kernel)⟩⟩

/-- Inputs that meet the hypotheses of CommandTakingCompletes, one for each of its clauses. -/
theorem witness_CommandTakingCompletes :
    (∃ (s : State) (qp : Nat), qp < 8192 ∧ s.stopped = false ∧ let u := (s.zciFlush); ∃ p, u.pair qp = some p ∧ p.st = 1 ∧ p.head ≠ p.tail ∧
      u.atMaxout qp = false ∧ ∃ b v z, u.SlotRead v qp p b false ∧ z = ⟨qp, BitVec.ofNat 512 (leNat b), []⟩ ∧ v.reserved qp + zneed z ≤ p.room) ∧
    (∃ (s : State) (qp : Nat), qp < 8192 ∧ s.stopped = false ∧ let u := (s.zciFlush); ∃ p, u.pair qp = some p ∧ p.st = 1 ∧ p.head ≠ p.tail ∧
      u.atMaxout qp = false ∧ ∃ b v z, u.SlotRead v qp p b false ∧ z = ⟨qp, BitVec.ofNat 512 (leNat b), []⟩ ∧ p.room < v.reserved qp + zneed z) ∧
    (∃ (s : State) (qp : Nat), qp < 8192 ∧ s.stopped = false ∧ let u := (s.zciFlush); ∃ p, u.pair qp = some p ∧ p.st = 1 ∧ p.head ≠ p.tail ∧
      u.atMaxout qp = false ∧ u.ownerOf qp = none ∧ u.rangeTiered (p.sq + 64 * p.head) 64 = false) ∧
    (∃ (s : State) (qp : Nat), qp < 8192 ∧ s.stopped = false ∧ let u := (s.zciFlush); ∃ o, u.zci.outs.find? (fun o => decide (o.z.qp = qp) && !o.begun
      && !o.sfWait && !o.paused && !u.zheld o) = some o ∧ u.chainBroken o = true) ∧
    (∃ (s : State), s.stopped = false ∧ ∃ id o, s.zci.outs.find? (fun o => decide (o.id = id) && o.sfWait) = some o ∧ ∃ u, u =
      { s with zci := { s.zci with outs := s.zci.outs.map fun (x : ZOut) => if x.id = id then { x with sfWait := false } else x } }) ∧
    (∃ (s : State), s.stopped = false ∧ ∃ id o, s.zci.outs.find? (fun o => decide (o.id = id) && o.sfWait) = some o) ∧
    (∃ (s : State), s.stopped = false ∧ ∃ id, s.zci.outs.find? (fun o => decide (o.id = id) && o.sfWait) = none) ∧
    (∃ (s : State), s.stopped = false ∧ ∃ (id st d : Nat) (r : List Byte) (o : ZOut), s.zciFlush.zci.outs.find? (fun o => decide (o.id = id) &&
      o.begun && !o.sfWait) = some o ∧ zpath o.z 0 = false) ∧
    (∃ (s : State), s.stopped = false ∧ ∃ cmd att, let u := (s.pkgTouch 7 0); let z : ZCmd := (⟨0, cmd, att⟩); u.ZReady z) :=
  ⟨by refine ⟨(slotted2 { qp0 with tail := 15 }), 64, ?_, ?_, ({ qp0 with tail := 15 }), ?_, ?_, ?_, ?_, _, _, _, slot_read (by decide +kernel), rfl, ?_⟩
  <;> decide +kernel,
   by refine ⟨(slotted2 { qp0 with tail := 1, rtail := 15 }), 64, ?_, ?_, ({ qp0 with tail := 1, rtail := 15 }), ?_, ?_, ?_, ?_, _, _, _, slot_read
     (by decide +kernel), rfl, ?_⟩ <;> decide +kernel,
   ⟨(ringed { qp0 with tail := 1, sq := 0x1000000000 }), 64, by decide +kernel, by decide +kernel, ({ qp0 with tail := 1, sq := 0x1000000000 }),
     by decide +kernel⟩,
   ⟨(queued { out6 (zc 64 2 []) with prev := some 4 }), 64, by decide +kernel, by decide +kernel, ({ out6 (zc 64 2 []) with prev := some 4 }),
     by decide +kernel⟩,
   ⟨(queued { out6 (zc 3 0x2001 []) with sfWait := true }), by decide +kernel, 6, ({ out6 (zc 3 0x2001 []) with sfWait := true }), by decide +kernel, _, rfl⟩,
   ⟨(queued { out6 (zc 3 0x2001 []) with sfWait := true }), by decide +kernel, 6, ({ out6 (zc 3 0x2001 []) with sfWait := true }), by decide +kernel⟩,
   ⟨run, by decide +kernel, 4294967295, by decide +kernel⟩,
   ⟨(queued { out6 (zc 3 0x2001 []) with begun := true }), by decide +kernel, 6, 0, 0, ([]), ({ out6 (zc 3 0x2001 []) with begun := true }), by decide +kernel⟩,
   ⟨run, by decide +kernel, ((zc 0 2 []).cmd), ([]), by unfold State.ZReady State.ZAdmits; decide +kernel⟩⟩

/-- Inputs that meet the hypotheses of ScratchBanksServe, one for each of its clauses. -/
theorem witness_ScratchBanksServe :
    (∃ (s : State), s.stopped = false ∧ ∃ (a : ScratchAccess), a.wf = true ∧ s.ssm.wiping = true) ∧
    (∃ (s : State), s.stopped = false ∧ ∃ (a : ScratchAccess), a.wf = true ∧ s.ssm.wiping = false ∧ s.bankState (ssmBank a.offset) ≠ 0 ∧ ∃ u, u =
      s.ssmWake (ssmBank a.offset)) ∧
    (∃ (s : State), s.stopped = false ∧ ∃ (a : ScratchAccess), a.wf = true ∧ s.ssm.wiping = false ∧ s.bankState (ssmBank a.offset) = 0 ∧ s.ssmGrants a
      = false) ∧
    (∃ (s : State), s.stopped = false ∧ ∃ (a : ScratchAccess), a.wf = true ∧ s.ssm.wiping = false ∧ s.bankState (ssmBank a.offset) = 0 ∧ s.ssmGrants a
      = true ∧ ∃ g, ∃ (y : Word → Bool → Out), g = s.ssmTurn a ∧ (∀ v p, y v p = .scratch (a.sp.getD 4) a.offset v p) ∧ let dark := (ssmDark a);
      g.ssmDenied (decide (a.sp = some 0)) dark a.offset = true) ∧
    (∃ (s : State), s.stopped = false ∧ ∃ (a : ScratchAccess), a.wf = true ∧ s.ssm.wiping = false ∧ s.bankState (ssmBank a.offset) = 0 ∧ s.ssmGrants a
      = true ∧ ∃ g, ∃ (y : Word → Bool → Out), g = s.ssmTurn a ∧ (∀ v p, y v p = .scratch (a.sp.getD 4) a.offset v p) ∧ let dark := (ssmDark a);
      g.ssmDenied (decide (a.sp = some 0)) dark a.offset = false ∧ ∃ u w old p lo, u = g.ssmFaults a ∧ w = a.offset / 8 ∧ old = u.ssmWord w ∧ p =
      u.ssmPoison w ∧ lo = a.offset % 8 ∧ a.amo = none ∧ a.write = false) ∧
    (∃ (s : State), s.stopped = false ∧ ∃ (a : ScratchAccess), a.wf = true ∧ s.ssm.wiping = false ∧ s.bankState (ssmBank a.offset) = 0 ∧ s.ssmGrants a
      = true ∧ ∃ g, ∃ (y : Word → Bool → Out), g = s.ssmTurn a ∧ (∀ v p, y v p = .scratch (a.sp.getD 4) a.offset v p) ∧ let dark := (ssmDark a);
      g.ssmDenied (decide (a.sp = some 0)) dark a.offset = false ∧ ∃ u w old p lo, u = g.ssmFaults a ∧ w = a.offset / 8 ∧ old = u.ssmWord w ∧ p =
      u.ssmPoison w ∧ lo = a.offset % 8 ∧ a.amo = none ∧ a.write = true ∧ a.size = 8) ∧
    (∃ (s : State), s.stopped = false ∧ ∃ (a : ScratchAccess), a.wf = true ∧ s.ssm.wiping = false ∧ s.bankState (ssmBank a.offset) = 0 ∧ s.ssmGrants a
      = true ∧ ∃ g, ∃ (y : Word → Bool → Out), g = s.ssmTurn a ∧ (∀ v p, y v p = .scratch (a.sp.getD 4) a.offset v p) ∧ let dark := (ssmDark a);
      g.ssmDenied (decide (a.sp = some 0)) dark a.offset = false ∧ ∃ u w old p lo, u = g.ssmFaults a ∧ w = a.offset / 8 ∧ old = u.ssmWord w ∧ p =
      u.ssmPoison w ∧ lo = a.offset % 8 ∧ a.amo = none ∧ a.write = true ∧ a.size ≠ 8 ∧ p = false) ∧
    (∃ (s : State), s.stopped = false ∧ ∃ (a : ScratchAccess), a.wf = true ∧ s.ssm.wiping = false ∧ s.bankState (ssmBank a.offset) = 0 ∧ s.ssmGrants a
      = true ∧ ∃ g, ∃ (y : Word → Bool → Out), g = s.ssmTurn a ∧ (∀ v p, y v p = .scratch (a.sp.getD 4) a.offset v p) ∧ let dark := (ssmDark a);
      g.ssmDenied (decide (a.sp = some 0)) dark a.offset = false ∧ ∃ u w old p lo, u = g.ssmFaults a ∧ w = a.offset / 8 ∧ old = u.ssmWord w ∧ p =
      u.ssmPoison w ∧ lo = a.offset % 8 ∧ a.amo = none ∧ a.write = true ∧ a.size ≠ 8 ∧ p = true) ∧
    (∃ (s : State), s.stopped = false ∧ ∃ (a : ScratchAccess), a.wf = true ∧ s.ssm.wiping = false ∧ s.bankState (ssmBank a.offset) = 0 ∧ s.ssmGrants a
      = true ∧ ∃ g, ∃ (y : Word → Bool → Out), g = s.ssmTurn a ∧ (∀ v p, y v p = .scratch (a.sp.getD 4) a.offset v p) ∧ let dark := (ssmDark a);
      g.ssmDenied (decide (a.sp = some 0)) dark a.offset = false ∧ ∃ u w old p lo, u = g.ssmFaults a ∧ w = a.offset / 8 ∧ old = u.ssmWord w ∧ p =
      u.ssmPoison w ∧ lo = a.offset % 8 ∧ ∃ op, a.amo = some op ∧ ((op = .add ∨ op = .swap)) ∧ p = false) ∧
    (∃ (s : State), s.stopped = false ∧ ∃ (a : ScratchAccess), a.wf = true ∧ s.ssm.wiping = false ∧ s.bankState (ssmBank a.offset) = 0 ∧ s.ssmGrants a
      = true ∧ ∃ g, ∃ (y : Word → Bool → Out), g = s.ssmTurn a ∧ (∀ v p, y v p = .scratch (a.sp.getD 4) a.offset v p) ∧ let dark := (ssmDark a);
      g.ssmDenied (decide (a.sp = some 0)) dark a.offset = false ∧ ∃ u w old p lo, u = g.ssmFaults a ∧ w = a.offset / 8 ∧ old = u.ssmWord w ∧ p =
      u.ssmPoison w ∧ lo = a.offset % 8 ∧ ∃ op, a.amo = some op ∧ (((op ≠ .add ∧ op ≠ .swap) ∨ p = true))) ∧
    (∃ (s : State), s.stopped = false ∧ ∃ (w : Nat) (v : Word) (p : Bool), ∃ w', w' ≠ w) ∧
    (∃ (s : State), s.stopped = false ∧ ∃ off, off < 33554432 ∧ off % 8 = 0) ∧
    (∃ (s : State), s.stopped = false ∧ ∃ b, b < 64 ∧ s.fon kSsmPwrctl fSsmPwrctl_AUTO = true ∧ s.bankState b = 0) ∧
    (∃ (s : State), s.stopped = false ∧ ∃ b, b < 64 ∧ (s.fon kSsmPwrctl fSsmPwrctl_AUTO = false ∨ s.bankState b ≠ 0)) ∧
    (∃ (s : State), s.stopped = false ∧ ∃ b, b < 64 ∧ (s.bankState b = 0 ∨ b ∉ s.ssm.waking)) ∧
    (∃ (s : State), s.stopped = false ∧ ∃ b, b < 64 ∧ s.bankState b ≠ 0 ∧ b ∈ s.ssm.waking ∧ ∃ mine dark u v, mine = s.ssm.waiting.filter (fun a =>
      ssmBank a.offset = b) ∧ dark = (!mine.isEmpty && mine.all ssmDark) ∧ u = (if s.bankState b = 2 then (s.wipeBank b).evtW dark 4 5 else s.evtW
      dark 4 4).setBank b 0 ∧ v =
      { u with ssm := { u.ssm with waking := u.ssm.waking.filter (fun x => x ≠ b), waiting := u.ssm.waiting.filter (fun a => ssmBank a.offset ≠ b) } }) :=
  ⟨⟨({ run with ssm := { run.ssm with wiping := true } }), by decide +kernel, scr0, by decide +kernel⟩,
   ⟨(asleep 63), by decide +kernel, ({ scr0 with offset := 33554424, size := 8 }), by decide +kernel, by decide +kernel, by decide +kernel, _, rfl⟩,
   ⟨run, by decide +kernel, ({ scr0 with waited := 4294967295 }), by decide +kernel⟩,
   by refine ⟨run, ?_, scr3, ?_, ?_, ?_, ?_, _, (fun v p => .scratch 3 33554431 v p), rfl, fun _ _ => rfl, ?_⟩ <;> decide +kernel,
   by refine ⟨run, ?_, scr0, ?_, ?_, ?_, ?_, _, (fun v _ => .scratch 0 33554431 v _), rfl, fun _ _ => rfl, ?_, _, _, _, _, _, rfl, rfl, rfl, rfl, rfl, ?_⟩
     <;> decide +kernel,
   by refine ⟨run, ?_, ({ scr0 with offset := 33554424, size := 8, write := true }), ?_, ?_, ?_, ?_, _, (fun v _ => .scratch 0 33554424 v _), rfl, fun _ _ =>
     rfl, ?_, _, _, _, _, _, rfl, rfl, rfl, rfl, rfl, ?_⟩ <;> decide +kernel,
   by refine ⟨run, ?_, ({ scr0 with write := true }), ?_, ?_, ?_, ?_, _, (fun v _ => .scratch 0 33554431 v _), rfl, fun _ _ => rfl, ?_, _, _, _, _, _, rfl, rfl,
     rfl, rfl, rfl, ?_, ?_, ?_, rfl⟩ <;> decide +kernel,
   by refine ⟨(run.setSsm 4194303 0 true), ?_, ({ scr0 with write := true }), ?_, ?_, ?_, ?_, _, (fun v _ => .scratch 0 33554431 v _), rfl, fun _ _ => rfl, ?_,
     _, _, _, _, _, rfl, rfl, rfl, rfl, rfl, ?_, ?_, ?_, rfl⟩ <;> decide +kernel,
   by refine ⟨run, ?_, ({ scr0 with amo := some .swap }), ?_, ?_, ?_, ?_, _, (fun v _ => .scratch 0 33554431 v _), rfl, fun _ _ => rfl, ?_, _, _, _, _, _, rfl,
     rfl, rfl, rfl, rfl, .swap, ?_, ?_, rfl⟩ <;> decide +kernel,
   by refine ⟨run, ?_, ({ scr0 with amo := some .cas }), ?_, ?_, ?_, ?_, _, (fun v _ => .scratch 0 33554431 v _), rfl, fun _ _ => rfl, ?_, _, _, _, _, _, rfl,
     rfl, rfl, rfl, rfl, .cas, ?_⟩ <;> decide +kernel,
   ⟨run, by decide +kernel, 4194303, 0, true, 0, by decide +kernel⟩,
   ⟨run, by decide +kernel, 33554424, by decide +kernel⟩,
   ⟨(run.fput kSsmPwrctl fSsmPwrctl_AUTO 1), by decide +kernel, 63, by decide +kernel⟩,
   ⟨(asleep 63), by decide +kernel, 63, by decide +kernel⟩,
   ⟨run, by decide +kernel, 63, by decide +kernel⟩,
   ⟨({ asleep 63 with ssm := { run.ssm with waking := [63] } }), by decide +kernel, 63, by decide +kernel, by decide +kernel, by decide +kernel, _, _, _, _,
     rfl, rfl, rfl, rfl⟩⟩

/-- Inputs that meet the hypotheses of ColdAndWarmResetsComplete, one for each of its clauses. -/
theorem witness_ColdAndWarmResetsComplete :
    (∃ (s : State), ∃ c p r, ((c, p, r) ∈ [(Instr.powerOn, true, true), (.coldReset, s.pins.pwrgood, false)] ∨ (s.pins.pwrgood = true ∧ (c, p, r) =
      (.supplyFault, true, s.pins.coldRstN)))) ∧
    (∃ (s : State), s.pins.pwrgood = false) ∧
    (∃ (s : State), s.pins.inCold = false) ∧
    (∃ (s : State), ∃ b w p u, s.pins.inCold = true ∧ w = s.draw.2 ∧ p =
      { w.pins with inCold := false, pwrgood := true, coldRstN := true, testen := b, pid := (0x5CF#16).zeroExtend 48 <<< 32 ||| (s.draw.1.setWidth 32).zeroExtend 48 }
      ∧ u = { w with pins := p }) ∧
    (∃ (s : State), s.stopped = false ∧ s.ssm.wiping = false) ∧
    (∃ (s : State), s.stopped = false ∧ s.ssm.wiping = true) ∧
    (∃ (s : State), s.stopped = false ∧ s.wld.kicked ≠ s.time ∧ ∃ u, u = s.rstCause 1) ∧
    (∃ (s : State), s.stopped = false ∧ s.wld.kicked = s.time) ∧
    (∃ (s : State), s.stopped = false ∧ s.wld.warned = false) ∧
    (∃ (s : State), s.stopped = false ∧ s.wld.warned = true) ∧
    (∃ (s : State), s.stopped = false ∧ s.wld.tamperUsed = true) ∧
    (∃ (s : State), s.stopped = false ∧ s.wld.tamperUsed = false ∧ ∃ u v, u =
      { s with pins := { s.pins with tamperN := false }, wld := { s.wld with tamperLow := true, tamperUsed := true } } ∧ v = (((((u.evt 15 2 7).vec
      216 8).wipeKeys).rstCause 2).fadd kWldRstcause fWldRstcause_TAMPERS 1)) ∧
    (∃ (s : State), s.stopped = false) ∧
    (∃ (s : State), s.stopped = false ∧ ∃ d, (d < 12 ∨ d = 15)) ∧
    (∃ (s : State), s.stopped = false ∧ ∃ a : BitVec 7, s.pins.i3cAddr = none) ∧
    (∃ (s : State), s.stopped = false ∧ ∃ a : BitVec 7, s.pins.i3cAddr.isSome = true) ∧
    (∃ (s : State), s.stopped = false ∧ s.ssm.wiping = true ∧ ∃ u, u =
      { s.wipeDone with boot := { s.wipeDone.boot with sp0Up := true, warm := false } } ∧ u.stage = 6) ∧
    (∃ (s : State), s.stopped = false ∧ s.ssm.wiping = true ∧ ∃ u, u =
      { s.wipeDone with boot := { s.wipeDone.boot with sp0Up := true, warm := false } } ∧ u.stage ≠ 6 ∧ ∃ w v, w = u.draw.2.wr kWldChal
      (u.draw.1.setWidth 64) ∧ v = w.extend 1 0 (beBytes 32 w.fuses.romDigest.toNat)) :=
  ⟨⟨run, .supplyFault, true, run.pins.coldRstN, .inr ⟨by decide +kernel, rfl⟩⟩,
   ⟨({ run with pins := { run.pins with pwrgood := false } }), by decide +kernel⟩,
   ⟨run, by decide +kernel⟩,
   ⟨held, true, _, _, _, by decide +kernel, rfl, rfl, rfl⟩,
   ⟨run, by decide +kernel⟩,
   ⟨({ run with ssm := { run.ssm with wiping := true } }), by decide +kernel⟩,
   ⟨({ run with time := 1000 }), by decide +kernel, by decide +kernel, _, rfl⟩,
   ⟨run, by decide +kernel⟩,
   ⟨run, by decide +kernel⟩,
   ⟨({ run with wld := { run.wld with warned := true } }), by decide +kernel⟩,
   ⟨({ run with wld := { run.wld with tamperUsed := true } }), by decide +kernel⟩,
   ⟨run, by decide +kernel, by decide +kernel, _, _, rfl, rfl⟩,
   ⟨run, by decide +kernel⟩,
   ⟨run, by decide +kernel, 15, by decide +kernel⟩,
   ⟨run, by decide +kernel, 127, by decide +kernel⟩,
   ⟨({ run with pins := { run.pins with i3cAddr := some 8 } }), by decide +kernel, 8, by decide +kernel⟩,
   ⟨(({ run with ssm := { run.ssm with wiping := true } } : State).setStage 6), by decide +kernel, by decide +kernel, _, rfl, by decide +kernel⟩,
   ⟨({ run with ssm := { run.ssm with wiping := true } } : State), by decide +kernel, by decide +kernel, _, rfl, by decide +kernel, _, _, rfl, rfl⟩⟩

/-- Inputs that meet the hypotheses of WarmResetKeepsColdRegisters, one for each of its clauses. -/
theorem witness_WarmResetKeepsColdRegisters :
    (∃ (s : State), s.stopped = false ∧ s.ssm.wiping = false ∧ s.pcs.wf pcsReset = true ∧ ((∀ p, p ∈ s.ras.units → p.2.st ≠ .retiring))) :=
  ⟨run, by decide +kernel⟩

/-- Inputs that meet the hypotheses of RailAndClockCommandsComplete, one for each of its clauses. -/
theorem witness_RailAndClockCommandsComplete :
    (∃ (s : State), s.stopped = false ∧ ∃ r x, x = s.rail r ∧ r < 13 ∧ ∃ n g u, x.trans = .raising n g ∧ u = (s.setVolt r x.target).setRail r
      { x with expiries := 0 } ∧ (r = railIod ∨ n = u.neff r ∨ u.dieDark r = true)) ∧
    (∃ (s : State), s.stopped = false ∧ ∃ r x, x = s.rail r ∧ r < 13 ∧ ∃ n g u, x.trans = .raising n g ∧ u = (s.setVolt r x.target).setRail r
      { x with expiries := 0 } ∧ r ≠ railIod ∧ n ≠ u.neff r ∧ u.dieDark r = false) ∧
    (∃ (s : State), s.stopped = false ∧ ∃ r x, x = s.rail r ∧ r < 13 ∧ ∃ n g u, x.trans = .lowering n g ∧ u = (s.setVolt r x.target).setRail r
      { x with expiries := 0 }) ∧
    (∃ (s : State), s.stopped = false ∧ ∃ r x, x = s.rail r ∧ r < 13 ∧ (∀ n g, x.trans ≠ .raising n g ∧ x.trans ≠ .lowering n g)) ∧
    (∃ (s : State), s.stopped = false ∧ ∃ r x, x = s.rail r ∧ r < 13 ∧ ∃ n g u, (x.trans = .raising n g ∨ x.trans = .lowering n g) ∧ u = s.avsExpire r
      ∧ r < 12 ∧ 3 ≤ (u.rail r).expiries) ∧
    (∃ (s : State), s.stopped = false ∧ ∃ r x, x = s.rail r ∧ r < 13 ∧ ∃ n g u, (x.trans = .raising n g ∨ x.trans = .lowering n g) ∧ u = s.avsExpire r
      ∧ (12 ≤ r ∨ (u.rail r).expiries < 3)) ∧
    (∃ (s : State), s.stopped = false ∧ ∃ r x, x = s.rail r ∧ r < 12 ∧ ∃ n g, x.trans = .hopUp n g) ∧
    (∃ (s : State), s.stopped = false ∧ ∃ r x, x = s.rail r ∧ r < 12 ∧ ∃ n g, x.trans = .hopDown n g) ∧
    (∃ (s : State), s.stopped = false ∧ ∃ r x, x = s.rail r ∧ r < 12 ∧ (∀ n g, x.trans ≠ .hopUp n g ∧ x.trans ≠ .hopDown n g)) ∧
    (∃ (s : State), s.stopped = false ∧ ∃ m1 mt u cap p, p = { s.pwr with mw1 := m1, mwTau := mt } ∧ u = ({ s with pwr := p }).fput kPwrPkg
      fPwrPkg_POWER (min m1 (2 ^ 32 - 1)) ∧ cap = u.fget kPwrPkg fPwrPkg_NCAP ∧ (mt > u.pl1 * 1000 ∨ m1 > u.pl2 * 1000) ∧ max 32 (cap - 4) = cap) ∧
    (∃ (s : State), s.stopped = false ∧ ∃ m1 mt u cap p, p = { s.pwr with mw1 := m1, mwTau := mt } ∧ u = ({ s with pwr := p }).fput kPwrPkg
      fPwrPkg_POWER (min m1 (2 ^ 32 - 1)) ∧ cap = u.fget kPwrPkg fPwrPkg_NCAP ∧ (mt > u.pl1 * 1000 ∨ m1 > u.pl2 * 1000) ∧ max 32 (cap - 4) ≠ cap ∧ ∃
      w, w = u.setNcap (max 32 (cap - 4))) ∧
    (∃ (s : State), s.stopped = false ∧ ∃ m1 mt u cap p, p = { s.pwr with mw1 := m1, mwTau := mt } ∧ u = ({ s with pwr := p }).fput kPwrPkg
      fPwrPkg_POWER (min m1 (2 ^ 32 - 1)) ∧ cap = u.fget kPwrPkg fPwrPkg_NCAP ∧ mt * 100 < u.pl1 * 95000 ∧ m1 * 100 < u.pl2 * 95000 ∧ u.time <
      u.pwr.ncapAt + 1000000) ∧
    (∃ (s : State), s.stopped = false ∧ ∃ m1 mt u cap p, p = { s.pwr with mw1 := m1, mwTau := mt } ∧ u = ({ s with pwr := p }).fput kPwrPkg
      fPwrPkg_POWER (min m1 (2 ^ 32 - 1)) ∧ cap = u.fget kPwrPkg fPwrPkg_NCAP ∧ mt * 100 < u.pl1 * 95000 ∧ m1 * 100 < u.pl2 * 95000 ∧ u.pwr.ncapAt +
      1000000 ≤ u.time ∧ ∃ w, w = u.setNcap (min 168 (cap + 1))) ∧
    (∃ (s : State), s.stopped = false ∧ ∃ m1 mt u cap p, p = { s.pwr with mw1 := m1, mwTau := mt } ∧ u = ({ s with pwr := p }).fput kPwrPkg
      fPwrPkg_POWER (min m1 (2 ^ 32 - 1)) ∧ cap = u.fget kPwrPkg fPwrPkg_NCAP ∧ mt ≤ u.pl1 * 1000 ∧ m1 ≤ u.pl2 * 1000 ∧ (u.pl1 * 95000 ≤ mt * 100 ∨
      u.pl2 * 95000 ≤ m1 * 100)) ∧
    (∃ (s : State), s.stopped = false ∧ ∃ d T u cap p, (d < 12 ∨ d = 15) ∧ p =
      { s.pwr with junction := SMap.put (fun _ => (0 : Int)) s.pwr.junction d T } ∧ u = { s with pwr := p } ∧ cap = u.fget (kClkCdctl d)
      fClkCdctl_TCAP ∧ d = 15) ∧
    (∃ (s : State), s.stopped = false ∧ ∃ d T u cap p, (d < 12 ∨ d = 15) ∧ p =
      { s.pwr with junction := SMap.put (fun _ => (0 : Int)) s.pwr.junction d T } ∧ u = { s with pwr := p } ∧ cap = u.fget (kClkCdctl d)
      fClkCdctl_TCAP ∧ d < 12 ∧ T > 1000 ∧ ∃ n w, n = max 32 (cap - 4) ∧ w = u.fput (kClkCdctl d) fClkCdctl_TCAP n ∧ ∃ q, q =
      { w.pwr with tcapAt := SMap.put (fun _ => 0) w.pwr.tcapAt d w.time } ∧ n = cap) ∧
    (∃ (s : State), s.stopped = false ∧ ∃ d T u cap p, (d < 12 ∨ d = 15) ∧ p =
      { s.pwr with junction := SMap.put (fun _ => (0 : Int)) s.pwr.junction d T } ∧ u = { s with pwr := p } ∧ cap = u.fget (kClkCdctl d)
      fClkCdctl_TCAP ∧ d < 12 ∧ T > 1000 ∧ ∃ n w, n = max 32 (cap - 4) ∧ w = u.fput (kClkCdctl d) fClkCdctl_TCAP n ∧ ∃ q, q =
      { w.pwr with tcapAt := SMap.put (fun _ => 0) w.pwr.tcapAt d w.time } ∧ n ≠ cap) ∧
    (∃ (s : State), s.stopped = false ∧ ∃ d T u cap p, (d < 12 ∨ d = 15) ∧ p =
      { s.pwr with junction := SMap.put (fun _ => (0 : Int)) s.pwr.junction d T } ∧ u = { s with pwr := p } ∧ cap = u.fget (kClkCdctl d)
      fClkCdctl_TCAP ∧ d < 12 ∧ T ≤ 970 ∧ ∃ a, a = SMap.get (fun _ => 0) u.pwr.tcapAt d ∧ u.time < a + 1000000) ∧
    (∃ (s : State), s.stopped = false ∧ ∃ d T u cap p, (d < 12 ∨ d = 15) ∧ p =
      { s.pwr with junction := SMap.put (fun _ => (0 : Int)) s.pwr.junction d T } ∧ u = { s with pwr := p } ∧ cap = u.fget (kClkCdctl d)
      fClkCdctl_TCAP ∧ d < 12 ∧ T ≤ 970 ∧ ∃ a, a = SMap.get (fun _ => 0) u.pwr.tcapAt d ∧ a + 1000000 ≤ u.time ∧ ∃ w q, w = u.fput (kClkCdctl d)
      fClkCdctl_TCAP (min 168 (cap + 1)) ∧ q = { w.pwr with tcapAt := SMap.put (fun _ => 0) w.pwr.tcapAt d w.time }) ∧
    (∃ (s : State), s.stopped = false ∧ ∃ d T u cap p, (d < 12 ∨ d = 15) ∧ p =
      { s.pwr with junction := SMap.put (fun _ => (0 : Int)) s.pwr.junction d T } ∧ u = { s with pwr := p } ∧ cap = u.fget (kClkCdctl d)
      fClkCdctl_TCAP ∧ d < 12 ∧ 970 < T ∧ T ≤ 1000) ∧
    (∃ (s : State), s.stopped = false ∧ ∃ d i, ∃ (v : BitVec 16), (d < 12 ∨ d = 15) ∧ i < 64 ∧ s.dieHeld d = true) ∧
    (∃ (s : State), s.stopped = false ∧ ∃ d i, ∃ (v : BitVec 16), (d < 12 ∨ d = 15) ∧ i < 64 ∧ s.dieHeld d = false ∧ ∃ k e e' u w, k = kGrcSens d i ∧
      e = s.fget k fGrcSens_EXT ∧ e' = (if isCpr d i then (if margin16 v.toNat < margin16 e then v.toNat else e) else max e v.toNat) ∧ u = ((s.fput k
      fGrcSens_CUR v.toNat).fput k fGrcSens_EXT e').evt d (grcBlock d) 0 ∧ w = (if isCpr d i then u.cprSeen d i (margin16 v.toNat) else u) ∧ ∃ cross,
      cross = (if isCpr d i then decide (margin16 v.toNat < (w.fget kGrcCtl fGrcCtl_CPRWARN : Int)) else decide (v.toNat ≥ w.fget kGrcCtl
      fGrcCtl_ROWARN)) ∧ (cross = false ∨ w.fon k fGrcSens_FLAG = true)) ∧
    (∃ (s : State), s.stopped = false ∧ ∃ d i, ∃ (v : BitVec 16), (d < 12 ∨ d = 15) ∧ i < 64 ∧ s.dieHeld d = false ∧ ∃ k e e' u w, k = kGrcSens d i ∧
      e = s.fget k fGrcSens_EXT ∧ e' = (if isCpr d i then (if margin16 v.toNat < margin16 e then v.toNat else e) else max e v.toNat) ∧ u = ((s.fput k
      fGrcSens_CUR v.toNat).fput k fGrcSens_EXT e').evt d (grcBlock d) 0 ∧ w = (if isCpr d i then u.cprSeen d i (margin16 v.toNat) else u) ∧ ∃ cross,
      cross = (if isCpr d i then decide (margin16 v.toNat < (w.fget kGrcCtl fGrcCtl_CPRWARN : Int)) else decide (v.toNat ≥ w.fget kGrcCtl
      fGrcCtl_ROWARN)) ∧ cross = true ∧ w.fon k fGrcSens_FLAG = false) ∧
    (∃ (s : State), s.stopped = false ∧ ∃ b m, ((b = true → s.stage = 3)) ∧ ∃ u, u = s.each ((List.range 12 ++ [15]).zip m) (fun s p => s.passSamples
      p.1 p.2)) ∧
    (∃ (s : State), s.stopped = false ∧ ∃ m : List (List Int), s.stage ≠ 3) :=
  ⟨⟨(railed 12 (.raising 40 1) 0), by decide +kernel, 12, _, rfl, by decide +kernel, 40, 1, _, by decide +kernel, rfl, by decide +kernel⟩,
   ⟨(railed 11 (.raising 40 1) 0), by decide +kernel, 11, _, rfl, by decide +kernel, 40, 1, _, by decide +kernel, rfl, by decide +kernel⟩,
   ⟨(railed 12 (.lowering 40 1) 0), by decide +kernel, 12, _, rfl, by decide +kernel, 40, 1, _, by decide +kernel, rfl⟩,
   ⟨run, by decide +kernel, 12, _, rfl, by decide +kernel, idle_avs (by decide +kernel)⟩,
   ⟨(railed 11 (.raising 40 1) 2), by decide +kernel, 11, _, rfl, by decide +kernel, 40, 1, _, by decide +kernel, rfl, by decide +kernel⟩,
   ⟨(railed 12 (.lowering 40 1) 2), by decide +kernel, 12, _, rfl, by decide +kernel, 40, 1, _, by decide +kernel, rfl, by decide +kernel⟩,
   ⟨(railed 11 (.hopUp 40 1) 0), by decide +kernel, 11, _, rfl, by decide +kernel, 40, 1, by decide +kernel⟩,
   ⟨(railed 11 (.hopDown 40 1) 0), by decide +kernel, 11, _, rfl, by decide +kernel, 40, 1, by decide +kernel⟩,
   ⟨run, by decide +kernel, 11, _, rfl, by decide +kernel, idle_hop (by decide +kernel)⟩,
   ⟨(run.fput kPwrPkg fPwrPkg_NCAP 32), by decide +kernel, 0, 800001, _, _, _, rfl, rfl, rfl, by decide +kernel⟩,
   ⟨(run.fput kPwrPkg fPwrPkg_NCAP 168), by decide +kernel, 800001, 0, _, _, _, rfl, rfl, rfl, by decide +kernel, by decide +kernel, _, rfl⟩,
   ⟨run, by decide +kernel, 0, 0, _, _, _, rfl, rfl, rfl, by decide +kernel⟩,
   ⟨({ run with time := 1000000 }), by decide +kernel, 0, 0, _, _, _, rfl, rfl, rfl, by decide +kernel, by decide +kernel, by decide +kernel, _, rfl⟩,
   ⟨run, by decide +kernel, 0, (run.pl1 * 1000), _, _, _, rfl, rfl, rfl, by decide +kernel⟩,
   ⟨run, by decide +kernel, 15, 2000, _, _, _, by decide +kernel, rfl, rfl, rfl, by decide +kernel⟩,
   ⟨(run.fput (kClkCdctl 11) fClkCdctl_TCAP 32), by decide +kernel, 11, 1001, _, _, _, by decide +kernel, rfl, rfl, rfl, by decide +kernel, by decide +kernel,
     _, _, rfl, rfl, _, rfl, rfl⟩,
   ⟨(run.fput (kClkCdctl 11) fClkCdctl_TCAP 168), by decide +kernel, 11, 1001, _, _, _, by decide +kernel, rfl, rfl, rfl, by decide +kernel, by decide +kernel,
     _, _, rfl, rfl, _, rfl, by decide +kernel⟩,
   ⟨run, by decide +kernel, 11, 970, _, _, _, by decide +kernel, rfl, rfl, rfl, by decide +kernel, by decide +kernel, _, rfl, by decide +kernel⟩,
   ⟨({ run with time := 1000000 }), by decide +kernel, 11, 970, _, _, _, by decide +kernel, rfl, rfl, rfl, by decide +kernel, by decide +kernel, _, rfl,
     by decide +kernel, _, _, rfl, rfl⟩,
   ⟨run, by decide +kernel, 11, 1000, _, _, _, by decide +kernel, rfl, rfl, rfl, by decide +kernel⟩,
   ⟨(run.fput (kPwrDctl 11) fPwrDctl_PARKED 1), by decide +kernel, 11, 63, 0, by decide +kernel⟩,
   ⟨run, by decide +kernel, 15, 63, 0, by decide +kernel, by decide +kernel, by decide +kernel, _, _, _, _, _, rfl, rfl, rfl, rfl, rfl, _, rfl,
     by decide +kernel⟩,
   ⟨run, by decide +kernel, 15, 63, 0xFFFF, by decide +kernel, by decide +kernel, by decide +kernel, _, _, _, _, _, rfl, rfl, rfl, rfl, rfl, _, rfl, rfl,
     by decide +kernel⟩,
   ⟨(run.setStage 3), by decide +kernel, true, ([]), by decide +kernel, _, rfl⟩,
   ⟨run, by decide +kernel, ([]), by decide +kernel⟩⟩

/-- Inputs that meet the hypotheses of SleepAndWakeComplete, one for each of its clauses. -/
theorem witness_SleepAndWakeComplete :
    (∃ (s : State), s.stopped = false ∧ ∃ n c l, n < 220 ∧ c = s.core n ∧ l = s.irqs n ∧ (c.waiting = false ∨ l = [] ∨ s.wakeHeld n = true)) ∧
    (∃ (s : State), s.stopped = false ∧ ∃ n c l, n < 220 ∧ c = s.core n ∧ l = s.irqs n ∧ c.waiting = true ∧ l ≠ [] ∧ s.wakeHeld n = false ∧ (216 ≤ n ∨
      s.cstate n = 0)) ∧
    (∃ (s : State), s.stopped = false ∧ ∃ n c l, n < 220 ∧ c = s.core n ∧ l = s.irqs n ∧ c.waiting = true ∧ l ≠ [] ∧ s.wakeHeld n = false ∧ n < 216 ∧
      s.cstate n ≠ 0 ∧ ∃ u v, u = (if s.dstate (n / 18) ≠ 0 then s.dieRouse (n / 18) l else s) ∧ v = (u.fput (kPwrCctl n) fPwrCctl_CSTATE 0).fput
      (kPwrCctl n) fPwrCctl_WAKE (wakePick l).1 ∧ u.cstate n < 2) ∧
    (∃ (s : State), s.stopped = false ∧ ∃ n c l, n < 220 ∧ c = s.core n ∧ l = s.irqs n ∧ c.waiting = true ∧ l ≠ [] ∧ s.wakeHeld n = false ∧ n < 216 ∧
      s.cstate n ≠ 0 ∧ ∃ u v, u = (if s.dstate (n / 18) ≠ 0 then s.dieRouse (n / 18) l else s) ∧ v = (u.fput (kPwrCctl n) fPwrCctl_CSTATE 0).fput
      (kPwrCctl n) fPwrCctl_WAKE (wakePick l).1 ∧ 2 ≤ u.cstate n ∧ ∃ p d, p = ([] : SMap Nat) ∧ d =
      { c with waiting := false, tlbs := ⟨[], [], [], c.tlbs.locked, [], []⟩ }) ∧
    (∃ (s : State), s.stopped = false ∧ ∃ d, d < 12 ∧ ∃ most, most = s.fget (kPwrDctl d) fPwrDctl_MAXDS ∧ (s.dstate d = 2 ∨ s.dieOut d = true ∨
      (s.heldOn d).isSome = true ∨ (dieCores d).any s.irq = true ∨ most = 0)) ∧
    (∃ (s : State), s.stopped = false ∧ ∃ d, d < 12 ∧ ∃ most, most = s.fget (kPwrDctl d) fPwrDctl_MAXDS ∧ s.dstate d ≠ 2 ∧ s.dieOut d = false ∧
      s.heldOn d = none ∧ (dieCores d).any s.irq = false ∧ most ≠ 0 ∧ 2 ≤ most ∧ (dieCores d).all (s.coreDeep 3) = true) ∧
    (∃ (s : State), s.stopped = false ∧ ∃ d, d < 12 ∧ ∃ most, most = s.fget (kPwrDctl d) fPwrDctl_MAXDS ∧ s.dstate d ≠ 2 ∧ s.dieOut d = false ∧
      s.heldOn d = none ∧ (dieCores d).any s.irq = false ∧ most ≠ 0 ∧ (most < 2 ∨ (dieCores d).all (s.coreDeep 3) = false) ∧ s.dstate d = 0 ∧
      (dieCores d).all (s.coreDeep 2) = true) ∧
    (∃ (s : State), s.stopped = false ∧ ∃ d, d < 12 ∧ ∃ most, most = s.fget (kPwrDctl d) fPwrDctl_MAXDS ∧ s.dstate d ≠ 2 ∧ s.dieOut d = false ∧
      s.heldOn d = none ∧ (dieCores d).any s.irq = false ∧ most ≠ 0 ∧ (most < 2 ∨ (dieCores d).all (s.coreDeep 3) = false) ∧ (s.dstate d ≠ 0 ∨
      (dieCores d).all (s.coreDeep 2) = false)) ∧
    (∃ (s : State), s.stopped = false ∧ ∃ d, d < 12 ∧ ∃ most, most = s.fget (kPwrDctl d) fPwrDctl_MAXDS ∧ ∃ codes, (s.dstate d = 0 ∨ s.parked d = true
      ∨ s.dieOut d = true ∨ wakeCodes codes = [])) ∧
    (∃ (s : State), s.stopped = false ∧ ∃ d, d < 12 ∧ ∃ most, most = s.fget (kPwrDctl d) fPwrDctl_MAXDS ∧ ∃ codes, s.dstate d ≠ 0 ∧ s.parked d = false
      ∧ s.dieOut d = false ∧ wakeCodes codes ≠ []) ∧
    (∃ (s : State), s.stopped = false ∧ ∃ asleep ps most, asleep = (List.range 12).all (fun d => decide (s.dstate d = 2) || s.parked d || s.dieOut d)
      ∧ ps = s.fget kPwrPkg fPwrPkg_PS ∧ most = min 2 (s.fget kPwrPkg fPwrPkg_MAXPS) ∧ ∃ quiet, quiet = ((List.range 2).all (fun fn => !(s.lf
      fn).memEn) && s.enl.slots.isEmpty && (List.range 8).all (fun g => !(decide (s.role g = 5) && decide (s.fget (kFioXstat g) fFioXstat_STATE =
      2)))) ∧ (asleep = false ∨ most ≤ ps ∨ (ps ≠ 0 ∧ quiet = false))) ∧
    (∃ (s : State), s.stopped = false ∧ ∃ asleep ps most, asleep = (List.range 12).all (fun d => decide (s.dstate d = 2) || s.parked d || s.dieOut d)
      ∧ ps = s.fget kPwrPkg fPwrPkg_PS ∧ most = min 2 (s.fget kPwrPkg fPwrPkg_MAXPS) ∧ ∃ quiet, quiet = ((List.range 2).all (fun fn => !(s.lf
      fn).memEn) && s.enl.slots.isEmpty && (List.range 8).all (fun g => !(decide (s.role g = 5) && decide (s.fget (kFioXstat g) fFioXstat_STATE =
      2)))) ∧ asleep = true ∧ ps < most ∧ (ps = 0 ∨ quiet = true)) ∧
    (∃ (s : State), s.stopped = false ∧ ∃ asleep ps most, asleep = (List.range 12).all (fun d => decide (s.dstate d = 2) || s.parked d || s.dieOut d)
      ∧ ps = s.fget kPwrPkg fPwrPkg_PS ∧ most = min 2 (s.fget kPwrPkg fPwrPkg_MAXPS) ∧ ∃ quiet, quiet = ((List.range 2).all (fun fn => !(s.lf
      fn).memEn) && s.enl.slots.isEmpty && (List.range 8).all (fun g => !(decide (s.role g = 5) && decide (s.fget (kFioXstat g) fFioXstat_STATE =
      2)))) ∧ ∃ codes l, l = wakeCodes codes ∧ (l = [] ∨ ps = 0 ∨ ps = 3 ∨ (ps = 1 ∧ asleep = true))) ∧
    (∃ (s : State), s.stopped = false ∧ ∃ asleep ps most, asleep = (List.range 12).all (fun d => decide (s.dstate d = 2) || s.parked d || s.dieOut d)
      ∧ ps = s.fget kPwrPkg fPwrPkg_PS ∧ most = min 2 (s.fget kPwrPkg fPwrPkg_MAXPS) ∧ ∃ quiet, quiet = ((List.range 2).all (fun fn => !(s.lf
      fn).memEn) && s.enl.slots.isEmpty && (List.range 8).all (fun g => !(decide (s.role g = 5) && decide (s.fget (kFioXstat g) fFioXstat_STATE =
      2)))) ∧ ∃ codes l, l = wakeCodes codes ∧ l ≠ [] ∧ ps = 2) ∧
    (∃ (s : State), s.stopped = false ∧ ∃ asleep ps most, asleep = (List.range 12).all (fun d => decide (s.dstate d = 2) || s.parked d || s.dieOut d)
      ∧ ps = s.fget kPwrPkg fPwrPkg_PS ∧ most = min 2 (s.fget kPwrPkg fPwrPkg_MAXPS) ∧ ∃ quiet, quiet = ((List.range 2).all (fun fn => !(s.lf
      fn).memEn) && s.enl.slots.isEmpty && (List.range 8).all (fun g => !(decide (s.role g = 5) && decide (s.fget (kFioXstat g) fFioXstat_STATE =
      2)))) ∧ ∃ codes l, l = wakeCodes codes ∧ l ≠ [] ∧ ps = 1 ∧ asleep = false) :=
  ⟨⟨run, by decide +kernel, 219, _, _, by decide +kernel, rfl, rfl, by decide +kernel⟩,
   ⟨(core0 (fun kk => { kk with ext := 8, waiting := true })), by decide +kernel, 0, _, _, by decide +kernel, rfl, rfl, by decide +kernel⟩,
   by refine ⟨((core0 (fun kk => { kk with ext := 8, waiting := true })).fput (kPwrCctl 0) fPwrCctl_CSTATE 1), ?_, 0, _, _, ?_, rfl, rfl, ?_, ?_, ?_, ?_, ?_, _,
     _, rfl, rfl, ?_⟩ <;> decide +kernel,
   by refine ⟨((core0 (fun kk => { kk with ext := 8, waiting := true })).fput (kPwrCctl 0) fPwrCctl_CSTATE 3), ?_, 0, _, _, ?_, rfl, rfl, ?_, ?_, ?_, ?_, ?_, _,
     _, rfl, rfl, ?_, _, _, rfl, rfl⟩ <;> decide +kernel,
   ⟨(run.fput (kPwrDctl 11) fPwrDctl_MAXDS 0), by decide +kernel, 11, by decide +kernel, _, rfl, by decide +kernel⟩,
   ⟨(deep.fput (kPwrDctl 11) fPwrDctl_MAXDS 2), by decide +kernel, 11, by decide +kernel, _, rfl, by decide +kernel⟩,
   ⟨(deep.fput (kPwrDctl 11) fPwrDctl_MAXDS 1), by decide +kernel, 11, by decide +kernel, _, rfl, by decide +kernel⟩,
   ⟨(run.fput (kPwrDctl 11) fPwrDctl_MAXDS 2), by decide +kernel, 11, by decide +kernel, _, rfl, by decide +kernel⟩,
   ⟨run, by decide +kernel, 11, by decide +kernel, _, rfl, ([]), by decide +kernel⟩,
   ⟨(run.fput (kPwrDstat 11) fPwrDstat_DSTATE 2), by decide +kernel, 11, by decide +kernel, _, rfl, ([(10, 11)]), by decide +kernel⟩,
   ⟨run, by decide +kernel, _, _, _, rfl, rfl, rfl, _, rfl, by decide +kernel⟩,
   ⟨(((List.range 12).foldl (fun s d => s.fput (kPwrDctl d) fPwrDctl_PARKED 1) run).fput kPwrPkg fPwrPkg_MAXPS 2), by decide +kernel, _, _, _, rfl, rfl, rfl, _,
     rfl, by decide +kernel⟩,
   ⟨run, by decide +kernel, _, _, _, rfl, rfl, rfl, _, rfl, ([]), _, rfl, by decide +kernel⟩,
   ⟨(run.fput kPwrPkg fPwrPkg_PS 2), by decide +kernel, _, _, _, rfl, rfl, rfl, _, rfl, ([(10, 0)]), _, rfl, by decide +kernel, rfl⟩,
   ⟨(run.fput kPwrPkg fPwrPkg_PS 1), by decide +kernel, _, _, _, rfl, rfl, rfl, _, rfl, ([(1, 63)]), _, rfl, by decide +kernel, rfl, rfl⟩⟩

/-- Inputs that meet the hypotheses of RetirementComplete, one for each of its clauses. -/
theorem witness_RetirementComplete :
    (∃ (s : State) (u : UnitId), u.wf = true ∧ s.stopped = false ∧ (s.unit u.die u.block).st = .retiring ∧ (s.unit u.die u.block).started = false ∧
      s.safelight = true ∧ s.heldUnit u.die u.block = none) ∧
    (∃ (s : State) (u : UnitId), u.wf = true ∧ s.stopped = false ∧ (s.unit u.die u.block).st = .retiring ∧ (s.unit u.die u.block).started = true ∧
      s.retireReady u.die u.block = true ∧ ∃ v, v = ((((s.setUnit u.die u.block .retired).retireEnd u.die u.block).retireRecord u.die u.block (s.unit
      u.die u.block).cause).raise { cls := 2, kind := 0x11, element := (s.unit u.die u.block).cause.getD noElem, lost := true, counts := false })) ∧
    (∃ (s : State) (die : Nat), die < 12 ∧ s.stopped = false ∧ s.dieOut die = false) ∧
    (∃ (s : State), s.stopped = false ∧ s.pins.err = true) ∧
    (∃ (s : State), s.stopped = false ∧ s.pins.err = false) :=
  ⟨⟨(run.setUnit 11 0xFF .retiring), ⟨11, 0xFF⟩, by decide +kernel⟩,
   by refine ⟨(run.putUnit 11 0xFF { UnitSt.reset with st := .retiring, started := true }), ⟨11, 0xFF⟩, ?_, ?_, ?_, ?_, ?_, _, rfl⟩ <;> decide +kernel,
   ⟨run, 11, by decide +kernel⟩,
   ⟨({ run with pins := { run.pins with err := true } }), by decide +kernel⟩,
   ⟨run, by decide +kernel⟩⟩

/-- Inputs that meet the hypotheses of ObservationCommandsComplete, one for each of its clauses. -/
theorem witness_ObservationCommandsComplete :
    (∃ (s : State) (z : ZCmd), s.ZReady z ∧ let u := (s.zstarted z); z.is 0x4002 = true ∧ 100 ≤ z.f 20 4 ∧ z.f 20 4 ≤ 1000000 ∧ 2 ≤ z.f 32 4 ∧ z.f 32
      4 ≤ 65536 ∧ u.bufOk z (z.f 24 8) (z.f 32 4 * sheetSlot) = true ∧ ((z.f 16 1 % 2 = 1 → (u.rd kMgtEffcap).getLsbD 18 = true)) ∧ u.cnt.sheet =
      none) ∧
    (∃ (s : State) (z : ZCmd), s.ZReady z ∧ let u := (s.zstarted z); z.is 0x4003 = true ∧ u.cnt.sheet = none) ∧
    (∃ (s : State) (z : ZCmd), s.ZReady z ∧ let u := (s.zstarted z); z.is 0x4003 = true ∧ ∃ q r v, u.cnt.sheet = some q ∧ v = contactSheetSampleRun u
      ∧ v.cnt.sheet = some r) ∧
    (∃ (s : State) (z : ZCmd), s.ZReady z ∧ let u := (s.zstarted z); z.is 0x4001 = true ∧ ∃ ks, ks = countersOf (z.f 16 1) (z.f 17 1) ∧ ks ≠ [] ∧
      u.bufOk z (z.f 24 8) (z.f 32 4) = true ∧ 64 + 8 * ks.length ≤ z.f 32 4 ∧ ∃ w, u.BufWritten w z (z.f 24 8) (u.sheetHeader false true false 0
      ks.length u.time 0 0 ++ ks.flatMap (fun k => leBytes 8 (u.counterVal k)))) ∧
    (∃ (s : State) (z : ZCmd), s.ZReady z ∧ let u := (s.zstarted z); ∃ die blk kind n voff tg, z.is 0x3801 = true ∧ die = z.f 16 1 ∧ blk = z.f 17 1 ∧
      kind = z.f 18 1 ∧ n = z.f 20 2 ∧ voff = z.f 22 2 ∧ kind ≤ 2 ∧ ((n ≠ 0 → 32 ≤ n ∧ n ≤ 168)) ∧ -100 ≤ margin16 voff ∧ margin16 voff ≤ 50 ∧ 1 ≤ z.f
      24 4 ∧ z.f 24 4 ≤ 60000 ∧ targetOf die blk = some tg ∧ ((tg ≠ .die → n = 0 ∧ voff = 0)) ∧ tg.kinds.contains kind = true ∧ ((kind = 1 →
      u.debugOpen = true)) ∧ u.heldUnit die blk = none ∧ u.cnt.test = none ∧ u.isolated tg die blk = true) ∧
    (∃ (s : State) (z : ZCmd), s.ZReady z ∧ let u := (s.zstarted z); z.is 0x3802 = true ∧ z.f 32 4 % 16 = 0 ∧ u.bufOk z (z.f 24 8) (z.f 32 4) = true ∧
      let l := ((u.cnt.results.drop (z.f 20 2)).take (z.f 32 4 / 16)); ∃ w, u.BufWritten w z (z.f 24 8) (l.flatMap testBytes)) ∧
    (∃ (s : State) (z : ZCmd), s.ZReady z ∧ let u := (s.zstarted z); ∃ i kind die blk value every cls, z.is 0x3C01 = true ∧ i = z.f 16 1 ∧ kind = z.f
      17 1 ∧ die = z.f 18 1 ∧ blk = z.f 19 1 ∧ value = z.f 20 2 ∧ (every = (if kind = 1 ∨ kind = 2 then 0 else z.f 22 2)) ∧ cls = (if kind = 1 then
      z.f 24 1 else 0) ∧ u.debugOpen = true ∧ i ≤ 63 ∧ agtFits kind die blk value every cls = true ∧ u.held die blk = false) ∧
    (∃ (s : State) (z : ZCmd), s.ZReady z ∧ ∃ i, z.is 0x3C02 = true ∧ i = z.f 16 1 ∧ ((i ≤ 63 ∨ i = 0xFF))) ∧
    (∃ (s : State) (r : SheetRun), s.stopped = false ∧ s.cnt.sheet = some r ∧ r.stopped = false ∧ r.due ≤ s.time ∧ let out := ((s.fget kCshStat
      fCshStat_WRITTEN + 2 ^ 32 - s.fget kCshHead fCshHead_CONSUMED) % 2 ^ 32); ((r.writing.isSome = true ∨ out = r.sheets))) ∧
    (∃ (s : State) (r : SheetRun), s.stopped = false ∧ s.cnt.sheet = some r ∧ r.stopped = false ∧ r.due ≤ s.time ∧ let out := ((s.fget kCshStat
      fCshStat_WRITTEN + 2 ^ 32 - s.fget kCshHead fCshHead_CONSUMED) % 2 ^ 32); r.writing = none ∧ out ≠ r.sheets) ∧
    (∃ (s : State) (r : SheetRun), s.stopped = false ∧ s.cnt.sheet = some r ∧ ∃ w v, r.writing = some w ∧ s.BufWritten v r.z (r.z.f 24 8 + (w.k %
      r.sheets) * sheetSlot) (s.sheetBytes r w)) ∧
    (∃ (s : State) (found : List TestEntry) (t : TestRun), s.stopped = false ∧ s.cnt.test = some t ∧ ∃ c complete, (c, complete) ∈ [(Instr.testEnd
      found, true), (.testTimeout found, false)] ∧ c.wf = true ∧ targetOf t.die t.block = some .core) ∧
    (∃ (s : State) (found : List TestEntry) (t : TestRun), s.stopped = false ∧ s.cnt.test = some t ∧ ∃ c complete, (c, complete) ∈ [(Instr.testEnd
      found, true), (.testTimeout found, false)] ∧ c.wf = true ∧ targetOf t.die t.block ≠ some .core) :=
  ⟨⟨run, (zc 3 0x4002 [(20, 1000000), (24, 4096), (32, 2)]), by unfold State.ZReady State.ZAdmits; decide +kernel, by decide +kernel⟩,
   ⟨run, (zc 3 0x4003 []), by unfold State.ZReady State.ZAdmits; decide +kernel, by decide +kernel⟩,
   ⟨(sheeted sheet0), (zc 3 0x4003 []), by unfold State.ZReady State.ZAdmits; decide +kernel, by decide +kernel, sheet0, _, _, by decide +kernel, rfl, opt_get
     (by decide +kernel)⟩,
   ⟨run, (zap 0x4001 [(16, 15), (17, 0x1D), (32, 4096)]), by unfold State.ZReady State.ZAdmits; decide +kernel, by decide +kernel, _, rfl, by decide +kernel,
     by decide +kernel, by decide +kernel, _, write_ap rfl (by decide +kernel)⟩,
   ⟨({ deep with fuses := { run.fuses with lifecycle := 1 } }), (zc 3 0x3801 [(16, 11), (17, 17), (18, 1), (24, 60000)]),
     by unfold State.ZReady State.ZAdmits; decide +kernel, _, _, _, _, _, .core, by decide +kernel, rfl, rfl, rfl, rfl, rfl, by decide +kernel⟩,
   ⟨(told run (writeAns 4096 [])), (zc 3 0x3802 [(24, 4096), (32, 64)]), by unfold State.ZReady State.ZAdmits; decide +kernel, by decide +kernel,
     by decide +kernel, by decide +kernel, _, write_told [] (by decide +kernel) (by decide +kernel)⟩,
   ⟨({ run with fuses := { run.fuses with lifecycle := 1 } }), (zc 3 0x3C01 [(16, 63), (18, 15), (19, 0x9F), (20, 4095), (22, 4095)]),
     by unfold State.ZReady State.ZAdmits; decide +kernel, _, _, _, _, _, _, _, by decide +kernel, rfl, rfl, rfl, rfl, rfl, rfl, rfl, by decide +kernel⟩,
   ⟨({ run with fuses := { run.fuses with lifecycle := 1 } }), (zc 3 0x3C02 [(16, 255)]), by unfold State.ZReady State.ZAdmits; decide +kernel, _,
     by decide +kernel, rfl, by decide +kernel⟩,
   ⟨(sheeted { sheet0 with writing := some ⟨0, 0, []⟩ }), ({ sheet0 with writing := some ⟨0, 0, []⟩ }), by decide +kernel⟩,
   ⟨(sheeted sheet0), sheet0, by decide +kernel⟩,
   ⟨(sheeted sheetA), sheetA, by decide +kernel, by decide +kernel, ⟨1, 0, []⟩, _, by decide +kernel, write_ap rfl (by decide +kernel)⟩,
   ⟨({ run with cnt := { run.cnt with test := some ⟨5, 11, 17, 0, 0, 0⟩ } }), ([]), ⟨5, 11, 17, 0, 0, 0⟩, by decide +kernel, by decide +kernel, (.testEnd []),
     true, by simp, by decide +kernel⟩,
   ⟨({ run with cnt := { run.cnt with test := some ⟨5, 15, 0x3B, 2, 0, 0⟩ } }), ([]), ⟨5, 15, 0x3B, 2, 0, 0⟩, by decide +kernel, by decide +kernel,
     (.testTimeout []), false, by simp, by decide +kernel⟩⟩

/-- A compressing move whose lines are all staged, with interleave sets and without. -/
def compressing : Slot := { slot0 with kind := .compress 0, closed := true }

/-- The sizes that `MoveStepsComplete` tells apart: a payload that does not fit, and one that fits, for which the pool finds units or none. -/
theorem witness_MoveStepsComplete_compress :
    let x := compressing
    let s := slotted withSets x
    let t := slotted run x
    let v := s.evtW (s.isDark (x.frame <<< 12)) 0x51 4
    let w := t.evtW (t.isDark (x.frame <<< 12)) 0x51 4
    (s.stopped = false ∧ s.down = false ∧ SMap.find s.enl.slots 63 = some x ∧ t.stopped = false ∧ t.down = false ∧
      SMap.find t.enl.slots 63 = some x ∧ x.kind = .compress 0 ∧ x.closed = true ∧ x.draining = false ∧
      v.atQuota 0 (groupOf (s.ent x.frame).fkey) = false) ∧
    ∀ size, 3568 < size ∨ (size ≤ 3568 ∧ (v.allocUnits 0 (ceilDiv (16 + size) 512) x.frame).isSome = true ∧
      (w.allocUnits 0 (ceilDiv (16 + size) 512) x.frame).isNone = true) := by
  refine ⟨by decide +kernel, fun size => ?_⟩
  by_cases h : size ≤ 3568
  · have p : ∀ n, 1 ≤ n → n ≤ 7 → let x := compressing
        ((((slotted withSets x).evtW ((slotted withSets x).isDark (x.frame <<< 12)) 0x51 4).allocUnits 0 n x.frame).isSome = true ∧
          (((slotted run x).evtW ((slotted run x).isDark (x.frame <<< 12)) 0x51 4).allocUnits 0 n x.frame).isNone = true) := by
      intro n h1 h2
      have : n ∈ [1, 2, 3, 4, 5, 6, 7] := by simp; omega
      exact (by decide +kernel : ∀ n ∈ [1, 2, 3, 4, 5, 6, 7], let x := compressing
        ((((slotted withSets x).evtW ((slotted withSets x).isDark (x.frame <<< 12)) 0x51 4).allocUnits 0 n x.frame).isSome = true ∧
          (((slotted run x).evtW ((slotted run x).isDark (x.frame <<< 12)) 0x51 4).allocUnits 0 n x.frame).isNone = true)) n this
    refine .inr ⟨h, p _ ?_ ?_⟩ <;> unfold ceilDiv <;> omega
  · exact .inl (by omega)

/-- Whether the command that a release would let begin, of pair `qp`, meets what `CommandTakingCompletes` asks and ends as `f` says. -/
def releases (s : State) (qp : Nat) (f : ZDo → Bool) : Bool :=
  let u := s.zciFlush
  !s.stopped && decide (qp < 8192) &&
  match u.zci.outs.find? (fun o => decide (o.z.qp = qp) && !o.begun && !o.sfWait && !o.paused && !u.zheld o) with
  | some o =>
    let h := hAny o.id o.z u
    !u.chainBroken o && f h.1 && (h.2.zci.outs.find? (fun y => y.id = o.id)).isSome && (decide (o.z.f 0 2 / 256 ≠ 0x20) || decide (h.1 = .pass))
  | none => false

theorem witness_CommandTakingCompletes_released :
    releases (queued (out6 (zc 64 2 []))) 64 (fun | .done _ _ => true | _ => false) = true ∧
    releases (queued (out6 (zc 3 0x1003 [(24, 64), (28, 1)]))) 3 (fun | .later => true | _ => false) = true ∧
    releases (queued (out6 (zc 3 0x2003 [(18, 2)]))) 3 (fun | .pass => true | _ => false) = true ∧
    releases (queued (out6 (zc 3 0x1001 [(24, 64)]))) 3 (fun | .again => true | _ => false) = true ∧
    releases (queued (out6 (zc 3 0x1001 [(16, 2)]))) 3 (fun | .fail _ _ => true | _ => false) = true ∧
    releases (queued (out6 (zc 3 0x2803 [(17, 11), (18, 255), (20, 1)]))) 3 (fun | .failWith _ _ _ => true | _ => false) = true := by
  decide +kernel

/-! ### Well-formedness: each check refuses an ill-formed term and takes the last well-formed one. -/

theorem test_wf_core : (Instr.coreWake 220).wf = false ∧ (Instr.coreWake 219).wf = true := by decide
theorem test_wf_compute : (Instr.demandReissue 216 0).wf = false ∧ (Instr.demandReissue 215 0).wf = true := by decide
theorem test_wf_cd : (Instr.dieSelfReset 12).wf = false ∧ (Instr.dieSelfReset 11).wf = true := by decide
theorem test_wf_die : (Instr.thermtrip 12).wf = false ∧ (Instr.thermtrip 15).wf = true := by decide
theorem test_wf_line : (Instr.memoryTimeout (2 ^ 46)).wf = false ∧ (Instr.memoryTimeout (2 ^ 46 - 1)).wf = true := by decide
theorem test_wf_key : (Instr.defReply 0 0 16384).wf = false ∧ (Instr.defReply 0 0 16383).wf = true := by decide
theorem test_wf_agent : (Instr.evack 17 0).wf = false ∧ (Instr.evack 16 0).wf = true := by decide
theorem test_wf_link : (Instr.lp2Idle ⟨true, 12⟩).wf = false ∧ (Instr.lp2Idle ⟨true, 11⟩).wf = true := by decide
theorem test_wf_channel : (Instr.alert 16).wf = false ∧ (Instr.alert 15).wf = true := by decide
theorem test_wf_rank : (Instr.refresh 0 4).wf = false ∧ (Instr.refresh 0 3).wf = true := by decide
theorem test_wf_group : (Instr.sceucXLockTimeout 8).wf = false ∧ (Instr.sceucXLockTimeout 7).wf = true := by decide
theorem test_wf_port : (Instr.dpcTrigger 32 0).wf = false ∧ (Instr.dpcTrigger 31 0).wf = true := by decide
theorem test_wf_function : (Instr.getLog 2).wf = false ∧ (Instr.getLog 1).wf = true := by decide
theorem test_wf_rom : (Instr.expansionRomRead 0 65536).wf = false ∧ (Instr.expansionRomRead 0 65535).wf = true := by decide
theorem test_wf_queue_pair : (Instr.commandTake 8192).wf = false ∧ (Instr.commandTake 8191).wf = true := by decide
theorem test_wf_instance : (Instr.sviFreezeComplete 2048).wf = false ∧ (Instr.sviFreezeComplete 2047).wf = true := by decide
theorem test_wf_slot : (Instr.migrationCopy 64 0 false).wf = false ∧ (Instr.migrationCopy 63 64 false).wf = false ∧
    (Instr.migrationCopy 63 63 false).wf = true := by decide
theorem test_wf_slice : (Instr.sweepSetVisit 32).wf = false ∧ (Instr.sweepSetVisit 31).wf = true := by decide
theorem test_wf_l3 : (Instr.l3cLockWrite .device 192 0).wf = false ∧ (Instr.l3cLockWrite (.core 220) 191 0).wf = false ∧
    (Instr.l3cLockWrite .device 191 0).wf = true := by decide
theorem test_wf_hold : (Instr.wldHoldWrite .device 13 0 0).wf = false ∧ (Instr.wldHoldWrite .device 12 4 0).wf = false ∧
    (Instr.wldHoldWrite .device 12 3 0).wf = true := by decide
theorem test_wf_bank : (Instr.bankWake 64).wf = false ∧ (Instr.bankWake 63).wf = true := by decide
theorem test_wf_word : (Instr.correctedWordWriteback 33554432).wf = false ∧ (Instr.correctedWordWriteback 33554425).wf = false ∧
    (Instr.correctedWordWriteback 33554424).wf = true := by decide
theorem test_wf_rail : (Instr.avsbusComplete 13).wf = false ∧ (Instr.avsbusComplete 12).wf = true := by decide
theorem test_wf_unit : (Instr.retirementComplete ⟨12, 0⟩).wf = false ∧ (Instr.retirementComplete ⟨15, 256⟩).wf = false ∧
    (Instr.retirementComplete ⟨15, 255⟩).wf = true := by decide
theorem test_wf_config : (Instr.configRequest 256 0 0 false 0).wf = false ∧ (Instr.configRequest 255 255 4096 false 0).wf = false ∧
    (Instr.configRequest 255 255 4095 false 0).wf = true := by decide
theorem test_wf_insn : (Instr.wfi { insn 0 with len := 17 }).wf = false ∧ (Instr.wfi { insn 216 with len := 2 }).wf = false ∧
    (Instr.wfi { insn 0 with len := 16 }).wf = true := by decide
theorem test_wf_error : (Instr.wfi { insn 0 with err := some ⟨1, .logic⟩ }).wf = false ∧
    (Instr.wfi { insn 0 with err := some ⟨0, .l1Tag 0 64 0⟩ }).wf = false ∧
    (Instr.wfi { insn 0 with err := some ⟨0, .l1Tag 0 63 15⟩ }).wf = true := by decide
theorem test_wf_size : (Instr.loadInsn (insn 0) ⟨1, 0, 16, false, false, 2, false⟩).wf = false ∧
    (Instr.loadInsn (insn 0) ⟨1, 0, 8, false, true, 2, false⟩).wf = false ∧
    (Instr.loadInsn (insn 0) ⟨1, 0, 64, false, true, 2, false⟩).wf = true := by decide
theorem test_wf_home : (Instr.atf { req0 with offset := 60 }).wf = false ∧ (Instr.atf { req0 with offset := 56 }).wf = true := by decide
theorem test_wf_buffer : (Instr.rds { req0 with err := some (.buffer 0 true) }).wf = false ∧
    (Instr.wrf { req0 with err := some (.buffer 65536 true) }).wf = false ∧ (Instr.wrf { req0 with err := some (.buffer 65535 true) }).wf = true := by
  decide
theorem test_wf_inbound : (Instr.dmaRead { dma0 with addr := 60 }).wf = false ∧ (Instr.dmaRead { dma0 with port := 4 }).wf = false ∧
    (Instr.dmaRead { dma0 with addr := 56 }).wf = true := by decide
theorem test_wf_command : (Instr.zciNop ⟨8192, 2, []⟩).wf = false ∧ (Instr.zciNop ⟨8191, 1, []⟩).wf = false ∧
    (Instr.zciNop ⟨8191, 2, []⟩).wf = true := by decide +kernel
theorem test_wf_op : (Instr.park (zc 3 0x2003 [(16, 1)])).wf = false ∧ (Instr.pwrSetMaxps (zc 3 0x2003 [(16, 2)])).wf = false ∧
    (Instr.park (zc 3 0x2003 [(16, 2)])).wf = true := by decide +kernel
theorem test_wf_attachment : (Instr.fwLoad ⟨0, 0x7F01, List.replicate 4097 0⟩).wf = false ∧ (Instr.fwLoad ⟨0, 0x7F01, List.replicate 4096 0⟩).wf = true := by
  decide +kernel
theorem test_wf_scratch : (Instr.scratchAccess { scr0 with offset := 33554432 }).wf = false ∧ (Instr.scratchAccess { scr0 with size := 3 }).wf = false ∧
    (Instr.scratchAccess scr0).wf = true := by decide
theorem test_wf_tiered : (Instr.tieredAccess { acc0 with key := 16384 }).wf = false ∧ (Instr.tieredAccess acc0).wf = true := by decide
theorem test_wf_channel_address : (Instr.mcRead 0 ⟨32, false⟩ .clean).wf = false ∧ (Instr.mcRead 0 ⟨64, false⟩ .clean).wf = true := by decide
theorem test_wf_fabric : (Instr.fabricWindowAccess ⟨2 ^ 52, false, false, 0, 0⟩).wf = false ∧
    (Instr.fabricWindowAccess ⟨2 ^ 52 - 1, false, false, 0, 0⟩).wf = true := by decide
theorem test_wf_grant : (Instr.grant ⟨0, 0, false, false, none, false, false, false, 16384, false⟩).wf = false ∧
    (Instr.grant ⟨0, 0, false, false, none, false, false, false, 16383, false⟩).wf = true := by decide

/-! ### The spec's worked examples and check values. -/

/-- The worked example of R9: offset 0x0148 in block 0x20 of CD5. -/
theorem test_register_address : pcsKey 5 0x20 0x148 = 0x01480148 := by decide

/-- The worked example of R155: two lines of one page and their slices on CD4. -/
theorem test_l3_slice : 16 * 4 + l3Slice 0x000C012345678040 = 64 ∧ 16 * 4 + l3Slice 0x000C012345678080 = 67 := by decide +kernel

/-- The worked example of R158: three steps of the replacement register. -/
theorem test_replacement : lfsrStep 0x5A5A = 0xB4B5 ∧ lfsrStep 0xB4B5 = 0x696A ∧ lfsrStep 0x696A = 0xD2D5 := by decide +kernel

/-- The worked example of R179 and R180: the home slice and directory set. -/
theorem test_home_slice : haSlice 0x000C012345678040 = 9 ∧ dirSet 0x000C012345678040 = 0x6421 := by decide +kernel

/-- The check value of R306, over the nine ASCII bytes 123456789. -/
theorem test_crc32c : crc32c [49, 50, 51, 52, 53, 54, 55, 56, 57] = 0xE3069283 := by decide +kernel

/-- The worked example of Chapter 10: the channel position and address of an offset in a set of 8 channels. -/
theorem test_interleave : placeIn 8 0x0000012345678940 = (4, 0x002468ACF140) := by decide +kernel

/-- The worked example of R484: the first bank of a scratch line. -/
theorem test_scratch_bank : ssmBank 0x01234540 = 40 := by decide

/-- The worked example of Chapter 18: the Element of a device of channel 8. -/
theorem test_element : elem 15 0x68 2 26 = 0xF682001A := by decide

/-! ### One command. -/

/-- A command that is not well-formed faults and has no effect. -/
theorem test_ill_formed : (match exec (.coreWake 220) State.reset with | .fault .illFormed => true | _ => false) = true := by decide +kernel

/-- A command in front of the queue runs, and the queue keeps the rest. -/
theorem test_step_takes_the_front :
    (match step { State.reset with pending := [.fullTraining ⟨true, 0⟩, .powerOn] } with
      | .next s => decide (s.pending = [.powerOn]) | _ => false) = true := by decide +kernel

/-- No word spells a command: the table gives its rows no bits. -/
theorem test_no_words : decodeTableWord 32 0 = none := rfl

end Sys2Proof.Tests
end

section
/-! SUPPORT.
Runs of the queue: every row answers a next state exactly for a well-formed command and leaves the queue alone, so a queue
of well-formed commands empties (spec/opcode_table.json, R3). -/

namespace Sys2Proof.Machine

/-- An effect of a well-formed command leaves the queue alone, whether or not the package stands still. -/
theorem runs_keeps_pending {ok : Bool} (f : State → State) (s : State) (h : ok = true) :
    ∃ t, runs ok f s = .next t ∧ t.pending = s.pending := by
  cases hs : s.stopped
  · exact ⟨_, runs_next h hs, rfl⟩
  · exact ⟨s, runs_stopped h hs, rfl⟩

theorem exec_wf_keeps_pending (c : Instr) (s : State) (h : c.wf = true) : ∃ t, exec c s = .next t ∧ t.pending = s.pending := by
  rcases exec_shape c with ⟨f, hf⟩ | ⟨-, -, f, hf⟩
  · rw [hf]; exact runs_keeps_pending f s h
  · exact ⟨_, hf s, rfl⟩

theorem exec_illFormed_faults (c : Instr) (s : State) (h : c.wf = false) : exec c s = .fault .illFormed := by
  rcases exec_shape c with ⟨f, hf⟩ | ⟨-, hw, -⟩
  · rw [hf]; exact runs_illFormed h
  · rw [hw] at h; cases h

theorem step_of_pending_cons {s : State} {c : Instr} {r : List Instr} (h : s.pending = c :: r) :
    step s = exec c { s with pending := r } := by
  unfold step; rw [h]

theorem runSteps_succ_of_next {s t : State} (n : Nat) (h : step s = .next t) : runSteps (n + 1) s = runSteps n t := by
  simp only [runSteps, h]

/-- As many steps as a queue of well-formed commands is long empty it. -/
theorem runSteps_empties_wf_queue (q : List Instr) (s : State) (hq : s.pending = q) (hwf : ∀ c, c ∈ q → c.wf = true) :
    ∃ t, runSteps q.length s = .next t ∧ t.pending = [] := by
  induction q generalizing s with
  | nil => exact ⟨s, rfl, hq⟩
  | cons c r ih =>
    obtain ⟨t, ht, hp⟩ := exec_wf_keeps_pending c { s with pending := r } (hwf c List.mem_cons_self)
    rw [List.length_cons, runSteps_succ_of_next _ ((step_of_pending_cons hq).trans ht)]
    exact ih t hp fun d hd => hwf d (List.mem_cons_of_mem c hd)

/-- Settles O2, from the one form that all rows have and by induction on the queue. -/
theorem wellFormedQueueRunsToItsEnd : Obligations.WellFormedQueueRunsToItsEnd :=
  ⟨exec_wf_keeps_pending, exec_illFormed_faults, fun s => runSteps_empties_wf_queue s.pending s rfl⟩

end Sys2Proof.Machine
end

section
/-! SUPPORT.
Register writes: the access codes (R10, R13) and addresses at which no register stands (R11). -/

namespace Sys2Proof.Machine

/-! ### Access codes (R13, R573) -/

theorem State.regAfter_plain (s : State) (k : Nat) (d : RegDef) (v : Word) (h : pcsSpecial.contains d.name = false) :
    s.regAfter k d v = d.written (s.pcsLocked k d) (s.rd k) v (BitVec.allOnes 64) :=
  pcsIgnores_plain d _ _ h

/-- A write of 8 bytes that reaches a register without a behaviour of its own stores what its access codes give. -/
theorem State.pcsWrite_plain {s u : State} {agent : Agent} {k : Nat} {d : RegDef} {v : Word} (h : s.Reaches u agent k d v)
    (hd : pcsSpecial.contains d.name = false) :
    s.pcsWrite agent k 8 v = u.wr k (d.written (u.pcsLocked k d) (u.rd k) v (BitVec.allOnes 64)) := by
  rw [State.pcsWrite_reaches h (State.pcsAfter_plain _ _ _ _ _ _ _ hd), State.regAfter_plain _ _ _ _ hd]

/-- Settles O19: the written word, bit by bit, is what the access codes of R13 say. -/
theorem registerWriteFollowsAccessCodes : Obligations.RegisterWriteFollowsAccessCodes := by
  unfold Obligations.RegisterWriteFollowsAccessCodes
  intro s u agent off value d ha hs hr hd hp
  refine completes_run (f := registerWriteRun agent off 8 value) ha hs (State.pcsWrite_plain hr hd) hp
    ⟨rfl, fun k hk => State.rd_wr_ne u _ hk, fun i hi => ?_⟩
  rw [State.rd_wr_eq, RegDef.written_getLsbD d _ _ _ i hi, Bool.and_comm (d.rwl.testBit i)]
  dsimp only
  split <;> rfl

/-! ### Unassigned addresses (R11) -/

theorem State.pcsRead_unassigned (s : State) (a : Agent) (off size : Nat) (h : regDefAt (off / 8 * 8) = none) :
    s.pcsRead a off size = (some 0, s) := by
  unfold State.pcsRead
  dsimp only
  rw [h]
  exact ite_self _

theorem State.pcsWrite_unassigned (s : State) (a : Agent) (off size : Nat) (v : Word) (h : regDefAt (off / 8 * 8) = none) :
    s.pcsWrite a off size v = s := by
  have ht : s.pcsTry a off size v = some s := by
    unfold State.pcsTry
    dsimp only
    rw [h]
    exact ite_self _
  unfold State.pcsWrite
  rw [ht]

/-- Settles O22: at an unassigned address neither the read nor the write gets past the look-up of the register. -/
theorem unassignedRegistersReadZero : Obligations.UnassignedRegistersReadZero := by
  unfold Obligations.UnassignedRegistersReadZero
  intro s a off size v ha hs _ _ hn
  exact ⟨State.pcsRead_unassigned s a _ _ hn,
    completes_run (f := registerWriteRun a off size v) ha hs (State.pcsWrite_unassigned s a _ _ v hn) rfl rfl⟩

end Sys2Proof.Machine
end

section
/-! SUPPORT.
Computational and predicate instructions (R2, R43–R45, R73, R75): what a run of writes to named destinations leaves, of which
the latest of one name stands, and the frame of an instruction that writes registers of its core alone. -/

namespace Sys2Proof.Machine

/-! ### A run of writes to numbered destinations -/

/-- A run of writes that all miss a place leaves it as it was. -/
theorem foldl_zipIdx_miss {σ α β : Type} (wr : σ → α → Nat → σ) (rd : σ → β) (l : List α)
    (hm : ∀ s i, ∀ a ∈ l, rd (wr s a i) = rd s) (s : σ) :
    rd (l.zipIdx.foldl (fun s p => wr s p.1 p.2) s) = rd s :=
  List.foldlRecOn (motive := fun t => rd t = rd s) l.zipIdx _ rfl fun t ht p hp =>
    (hm t p.2 p.1 (List.fst_mem_of_mem_zipIdx hp)).trans ht

/-- A run of writes leaves in a place what the last write that hit it wrote. -/
theorem foldl_zipIdx_last {σ α β : Type} (wr : σ → α → Nat → σ) (rd : σ → β) (hit : α → Prop) (val : Nat → β)
    (hh : ∀ s a i, hit a → rd (wr s a i) = val i) (hm : ∀ s a i, ¬ hit a → rd (wr s a i) = rd s)
    (l : List α) {i : Nat} {d : α} (hi : l[i]? = some d) (hd : hit d) (hl : ∀ j a, i < j → l[j]? = some a → ¬ hit a) (s : σ) :
    rd (l.zipIdx.foldl (fun s p => wr s p.1 p.2) s) = val i := by
  induction l using List.reverseRecOn with
  | nil => simp at hi
  | append_singleton l a ih =>
    rw [List.zipIdx_append, List.foldl_append]
    show rd (wr _ a (0 + l.length)) = _
    rw [Nat.zero_add]
    rcases Nat.lt_or_ge i l.length with h | h
    · rw [hm _ _ _ (hl l.length a h (by simp))]
      rw [List.getElem?_append_left h] at hi
      refine ih hi fun j b hj hb => hl j b hj ?_
      rw [List.getElem?_append_left (List.getElem?_eq_some_iff.mp hb).1]; exact hb
    · obtain ⟨hlen, -⟩ := List.getElem?_eq_some_iff.mp hi
      obtain rfl : i = l.length := by simp at hlen; omega
      rw [List.getElem?_concat_length] at hi
      exact hh _ _ _ (Option.some.inj hi ▸ hd)

/-! ### Which destination a register is -/

/-- The windowed numbers of one window name different physical registers (R44, R45). -/
theorem physReg_inj {n r q w : Nat} (hr : 8 ≤ r) (hr' : r < 32) (hq : 8 ≤ q) (hq' : q < 32) (h : physReg n r w = physReg n q w) : r = q := by
  have hf : frames n = 16 ∨ frames n = 8 := by unfold frames; split <;> simp
  unfold physReg at h
  rcases hf with e | e <;> rw [e] at h <;> split at h <;> split at h <;> omega

/-- A register has one name among the destinations of one window. -/
theorem IsReg.name_unique {n w r' w' : Nat} {a b : Reg} (ha : IsReg n a.toNat w r' w') (hb : IsReg n b.toNat w r' w') : a = b := by
  have la : a.toNat < 32 := a.isLt
  have lb : b.toNat < 32 := b.isLt
  obtain ⟨-, ha⟩ := ha
  obtain ⟨-, hb⟩ := hb
  refine BitVec.eq_of_toNat_eq ?_
  split at ha
  · next h => rw [if_pos h] at hb; exact ha.symm.trans hb
  · next h =>
    rw [if_neg h] at hb
    exact physReg_inj ha.1 la hb.1 lb (ha.2.symm.trans hb.2)

/-! ### Writes of registers and predicates of one core -/

/-- Of the package only the general registers, vector registers and predicates of one core may differ. -/
structure RegFileOnly (s u : State) (n : Nat) : Prop where
  eq : u = { s with cores := u.cores }
  ne : ∀ m, m ≠ n → u.core m = s.core m
  core : u.core n = { s.core n with c := (u.core n).c, win := (u.core n).win, v := (u.core n).v, preds := (u.core n).preds }

theorem RegFileOnly.refl (s : State) (n : Nat) : RegFileOnly s s n := ⟨rfl, fun _ _ => rfl, rfl⟩

theorem RegFileOnly.trans {s u w : State} {n : Nat} (h : RegFileOnly s u n) (h' : RegFileOnly u w n) : RegFileOnly s w n := by
  refine ⟨?_, fun m hm => (h'.ne m hm).trans (h.ne m hm), ?_⟩
  · rw [h'.eq, h.eq]
  · rw [h'.core, h.core]

theorem regFileOnly_setRegAt (s : State) (n r w : Nat) (v : Word) : RegFileOnly s (s.setRegAt n r w v) n :=
  ⟨State.setRegAt_eq s n r w v, fun _ h => State.core_setRegAt_ne s n r w v h, by rw [State.core_setRegAt]⟩

theorem regFileOnly_setPr (s : State) (n : Nat) (p : PReg) (v : Bool) : RegFileOnly s (s.setPr n p v) n :=
  ⟨State.setPr_eq s n p v, fun _ h => State.core_setPr_ne s n p v h, by rw [State.core_setPr]⟩

theorem regFileOnly_setVreg (s : State) (n : Nat) (r : Reg) (v : Line) : RegFileOnly s (s.setVreg n r v) n :=
  ⟨rfl, fun _ h => State.core_setCore_ne s _ h, by unfold State.setVreg; rw [State.core_setCore_eq]⟩

theorem regFileOnly_foldl {α : Type} (f : State → α → State) (n : Nat) (hf : ∀ s a, RegFileOnly s (f s a) n) (l : List α) (s : State) :
    RegFileOnly s (l.foldl f s) n :=
  List.foldlRecOn (motive := fun t => RegFileOnly s t n) l f (RegFileOnly.refl s n) fun t ht a _ => ht.trans (hf t a)

/-- The destinations' window stands through writes of registers. -/
theorem RegFileOnly.dstWin {s u : State} {x : Insn} (h : RegFileOnly s u x.core) : u.dstWin x = s.dstWin x := by
  have hc : (u.core x.core).cwp = (s.core x.core).cwp := by rw [h.core]
  unfold State.dstWin State.parentWin; rw [hc]

/-- The end of an instruction that wrote registers of its core alone. -/
theorem RegFileOnly.finishInsn {s u : State} {x : Insn} (h : RegFileOnly s u x.core) :
    let t := u.finishInsn x (s.core x.core).pc none
    s.CoreOnly t x (s.nextPc x) ∧
      (let d := t.core x.core
       d = ({ s.core x.core with c := d.c, win := d.win, v := d.v, preds := d.preds }).past (s.nextPc x)) := by
  refine ⟨State.finishInsn_coreOnly h.eq h.ne none, ?_⟩
  dsimp only
  rw [State.core_finishInsn, h.core]; rfl

theorem RegFileOnly.pending {s u : State} {n : Nat} (h : RegFileOnly s u n) : u.pending = s.pending := by rw [h.eq]

theorem State.vreg_setVreg (s : State) (n : Nat) (r q : Reg) (v : Line) :
    (s.setVreg n r v).vreg n q = if q = r then v else s.vreg n q := by
  unfold State.vreg State.setVreg
  rw [State.core_setCore_eq]
  split
  · next h => subst h; exact SMap.get_put_eq _ _ _ _
  · next h => exact SMap.get_put_ne _ _ _ fun e => h (BitVec.eq_of_toNat_eq e)

theorem State.setVreg_regAt (s : State) (n : Nat) (q : Reg) (v : Line) (r w : Nat) : (s.setVreg n q v).regAt n r w = s.regAt n r w := by
  simp only [State.regAt, State.setVreg, State.core_setCore_eq]

theorem State.setVreg_pr (s : State) (n : Nat) (q : Reg) (v : Line) (p : PReg) : (s.setVreg n q v).pr n p = s.pr n p := by
  simp only [State.pr, State.setVreg, State.core_setCore_eq]

theorem State.setRegAt_vreg (s : State) (n r w : Nat) (v : Word) (q : Reg) : (s.setRegAt n r w v).vreg n q = s.vreg n q := by
  simp only [State.vreg]; rw [State.core_setRegAt]

theorem State.setPr_vreg (s : State) (n : Nat) (p : PReg) (v : Bool) (q : Reg) : (s.setPr n p v).vreg n q = s.vreg n q := by
  simp only [State.vreg]; rw [State.core_setPr]

theorem State.finishInsn_vreg (s : State) (x : Insn) (pc : Word) (t : Option Word) (q : Reg) :
    (s.finishInsn x pc t).vreg x.core q = s.vreg x.core q := by
  simp [State.vreg, Core.past]

/-! ### The destinations of a computational instruction -/

/-- The general registers that a computational instruction writes, one after another. -/
def State.putGprs (s : State) (x : Insn) (l : List Reg) (val : Nat → Word) : State :=
  l.zipIdx.foldl (fun (s : State) d => s.dst x d.1 (val d.2)) s
/-- Its vector registers. -/
def State.putVecs (s : State) (n : Nat) (l : List Reg) (val : Nat → Line) : State :=
  l.zipIdx.foldl (fun (s : State) d => s.setVreg n d.1 (val d.2)) s
/-- Its predicates. -/
def State.putPreds (s : State) (n : Nat) (l : List PReg) (val : Nat → Bool) : State :=
  l.zipIdx.foldl (fun (s : State) d => s.setPr n d.1 (val d.2)) s

theorem computationalInstructionRun_eq (x : Insn) (op : CompOp) (rd : CompDst) (ra : List Reg) (rb : List PReg) (vec : List Reg) (s : State) :
    computationalInstructionRun x op rd ra rb vec s = s.insn x (compChk x op rd ra vec) (simply fun s =>
      let g := ra.map (s.src x)
      let v := vec.map (s.vreg x.core)
      let p := rb.map (s.pr x.core)
      ((s.putGprs x rd.gpr (Config.deckai op.code op.ops op.imm g v p)).putVecs x.core rd.vec (Config.deckaiVec op.code op.ops op.imm g v p)).putPreds
        x.core rd.pred (Config.deckaiPred op.code op.ops op.imm g v p)) := rfl

theorem regFileOnly_putGprs (s : State) (x : Insn) (l : List Reg) (val : Nat → Word) : RegFileOnly s (s.putGprs x l val) x.core :=
  regFileOnly_foldl (fun s (d : Reg × Nat) => s.dst x d.1 (val d.2)) _ (fun _ _ => regFileOnly_setRegAt ..) _ s
theorem regFileOnly_putVecs (s : State) (n : Nat) (l : List Reg) (val : Nat → Line) : RegFileOnly s (s.putVecs n l val) n :=
  regFileOnly_foldl (fun s (d : Reg × Nat) => s.setVreg n d.1 (val d.2)) _ (fun _ _ => regFileOnly_setVreg ..) _ s
theorem regFileOnly_putPreds (s : State) (n : Nat) (l : List PReg) (val : Nat → Bool) : RegFileOnly s (s.putPreds n l val) n :=
  regFileOnly_foldl (fun s (d : PReg × Nat) => s.setPr n d.1 (val d.2)) _ (fun _ _ => regFileOnly_setPr ..) _ s

/-- The window of the destinations is that of the state in which the instruction begins. -/
theorem State.putGprs_eq (s : State) (x : Insn) (l : List Reg) (val : Nat → Word) :
    s.putGprs x l val = l.zipIdx.foldl (fun (u : State) d => u.setRegAt x.core d.1.toNat (s.dstWin x) (val d.2)) s := by
  have key : ∀ (q : List (Reg × Nat)) (u : State), u.dstWin x = s.dstWin x →
      q.foldl (fun (u : State) d => u.dst x d.1 (val d.2)) u =
        q.foldl (fun (u : State) d => u.setRegAt x.core d.1.toNat (s.dstWin x) (val d.2)) u := by
    intro q
    induction q with
    | nil => exact fun _ _ => rfl
    | cons d q ih =>
      intro u hu
      have e : u.dst x d.1 (val d.2) = u.setRegAt x.core d.1.toNat (s.dstWin x) (val d.2) := by rw [← hu]; rfl
      rw [List.foldl_cons, List.foldl_cons, e]
      exact ih _ ((regFileOnly_setRegAt u x.core _ _ _).dstWin.trans hu)
  exact key _ s rfl

theorem State.putGprs_last (s : State) (x : Insn) {l : List Reg} (val : Nat → Word) {i : Nat} {d : Reg} (h : LastAt l i d) {r w : Nat}
    (hd : IsReg x.core d.toNat (s.dstWin x) r w) : (s.putGprs x l val).regAt x.core r w = val i := by
  rw [State.putGprs_eq]
  exact foldl_zipIdx_last (fun u a i => u.setRegAt x.core (BitVec.toNat a) (s.dstWin x) (val i)) (fun u => u.regAt x.core r w)
    (fun a => IsReg x.core (BitVec.toNat a) (s.dstWin x) r w) val
    (fun u _ _ ha => (State.regAt_setRegAt u ..).trans (if_pos ha)) (fun u _ _ ha => (State.regAt_setRegAt u ..).trans (if_neg ha))
    l h.1 hd (fun j a hj ha hit => h.2 j hj (by rw [ha, hit.name_unique hd])) s

theorem State.putGprs_miss (s : State) (x : Insn) (l : List Reg) (val : Nat → Word) (r w : Nat)
    (h : ∀ d, d ∈ l → ¬ IsReg x.core d.toNat (s.dstWin x) r w) : (s.putGprs x l val).regAt x.core r w = s.regAt x.core r w := by
  rw [State.putGprs_eq]
  exact foldl_zipIdx_miss (fun u a i => u.setRegAt x.core (BitVec.toNat a) (s.dstWin x) (val i)) (fun u => u.regAt x.core r w) l
    (fun u _ a ha => (State.regAt_setRegAt u ..).trans (if_neg (h a ha))) s

theorem State.putVecs_last (s : State) (n : Nat) {l : List Reg} (val : Nat → Line) {i : Nat} {d : Reg} (h : LastAt l i d) :
    (s.putVecs n l val).vreg n d = val i :=
  foldl_zipIdx_last (fun u a i => u.setVreg n a (val i)) (fun u => u.vreg n d) (fun a => d = a) val
    (fun u _ _ ha => (State.vreg_setVreg u ..).trans (if_pos ha)) (fun u _ _ ha => (State.vreg_setVreg u ..).trans (if_neg ha))
    l h.1 rfl (fun j _ hj ha hit => h.2 j hj (hit ▸ ha)) s

theorem State.putVecs_miss (s : State) (n : Nat) (l : List Reg) (val : Nat → Line) {d : Reg} (h : d ∉ l) :
    (s.putVecs n l val).vreg n d = s.vreg n d :=
  foldl_zipIdx_miss (fun u a i => u.setVreg n a (val i)) (fun u => u.vreg n d) l
    (fun u _ a ha => (State.vreg_setVreg u ..).trans (if_neg fun (e : d = a) => h (e ▸ ha))) s

theorem State.putPreds_last (s : State) (n : Nat) {l : List PReg} (val : Nat → Bool) {i : Nat} {d : PReg} (h : LastAt l i d) (h0 : d ≠ 0) :
    (s.putPreds n l val).pr n d = val i :=
  foldl_zipIdx_last (fun u a i => u.setPr n a (val i)) (fun u => u.pr n d) (fun a => d ≠ 0 ∧ d = a) val
    (fun u _ _ ha => (State.pr_setPr u ..).trans (if_pos ha)) (fun u _ _ ha => (State.pr_setPr u ..).trans (if_neg ha))
    l h.1 ⟨h0, rfl⟩ (fun j _ hj ha hit => h.2 j hj (hit.2 ▸ ha)) s

theorem State.putPreds_miss (s : State) (n : Nat) (l : List PReg) (val : Nat → Bool) {d : PReg} (h : d ∉ l ∨ d = 0) :
    (s.putPreds n l val).pr n d = s.pr n d :=
  foldl_zipIdx_miss (fun u a i => u.setPr n a (val i)) (fun u => u.pr n d) l
    (fun u _ a ha => (State.pr_setPr u ..).trans (if_neg fun (e : d ≠ 0 ∧ d = a) => h.elim (fun h => h (e.2 ▸ ha)) e.1)) s

theorem State.putVecs_regAt (s : State) (n : Nat) (l : List Reg) (val : Nat → Line) (r w : Nat) : (s.putVecs n l val).regAt n r w = s.regAt n r w :=
  foldl_zipIdx_miss (fun u a i => u.setVreg n a (val i)) (fun u => u.regAt n r w) l (fun u i a _ => State.setVreg_regAt u n a (val i) r w) s

theorem State.putPreds_regAt (s : State) (n : Nat) (l : List PReg) (val : Nat → Bool) (r w : Nat) : (s.putPreds n l val).regAt n r w = s.regAt n r w :=
  foldl_zipIdx_miss (fun u a i => u.setPr n a (val i)) (fun u => u.regAt n r w) l (fun u i a _ => State.setPr_regAt u n a (val i) r w) s

theorem State.putGprs_vreg (s : State) (x : Insn) (l : List Reg) (val : Nat → Word) (q : Reg) :
    (s.putGprs x l val).vreg x.core q = s.vreg x.core q :=
  foldl_zipIdx_miss (fun u a i => u.dst x a (val i)) (fun u => u.vreg x.core q) l (fun u _ _ _ => State.setRegAt_vreg u ..) s

theorem State.putPreds_vreg (s : State) (n : Nat) (l : List PReg) (val : Nat → Bool) (q : Reg) : (s.putPreds n l val).vreg n q = s.vreg n q :=
  foldl_zipIdx_miss (fun u a i => u.setPr n a (val i)) (fun u => u.vreg n q) l (fun u i a _ => State.setPr_vreg u n a (val i) q) s

theorem State.putGprs_pr (s : State) (x : Insn) (l : List Reg) (val : Nat → Word) (p : PReg) :
    (s.putGprs x l val).pr x.core p = s.pr x.core p :=
  foldl_zipIdx_miss (fun u a i => u.dst x a (val i)) (fun u => u.pr x.core p) l (fun u _ _ _ => State.setRegAt_pr u ..) s

theorem State.putVecs_pr (s : State) (n : Nat) (l : List Reg) (val : Nat → Line) (p : PReg) : (s.putVecs n l val).pr n p = s.pr n p :=
  foldl_zipIdx_miss (fun u a i => u.setVreg n a (val i)) (fun u => u.pr n p) l (fun u i a _ => State.setVreg_pr u n a (val i) p) s

/-! ### The rows -/

/-- The encoding of a comparison does not name one predicate twice but for p0 (R75). -/
theorem State.Executes.compare_names {s : State} {x : Insn} {pd pe : PReg} {cc : BitVec 4}
    (h : s.Executes x { valid := decide (cc.toNat < 7) && !(decide (pd = pe) && decide (pd ≠ 0)) }) : ¬ (pd = pe ∧ pd ≠ 0) := by
  obtain ⟨-, -, -, -, -, hv, -⟩ := h
  simp only [validInsn, Bool.and_eq_true, Bool.not_eq_true', Bool.and_eq_false_iff, decide_eq_false_iff_not] at hv
  rintro ⟨he, h0⟩
  obtain ⟨⟨⟨⟨-, -, h | h⟩, -⟩, -⟩, -⟩ := hv
  · exact h he
  · exact h h0

/-- Both comparisons (R75): `b` reads the second value. -/
theorem compare_completes {s : State} {x : Insn} {pd pe : PReg} {cc : BitVec 4} (ra : Reg) (b : State → Word)
    (h : s.Executes x { valid := decide (cc.toNat < 7) && !(decide (pd = pe) && decide (pd ≠ 0)) }) :
    ∃ t, runs x.wf (fun s => s.compare x pd pe cc ra b) s = .next t ∧
      s.CoreOnly t x (s.nextPc x) ∧ (s.core x.core).RegsOnly (t.core x.core) ∧ s.SameRegs t x.core ∧
      ∀ q, t.pr x.core q = if q ≠ 0 ∧ q = pd then condCode cc.toNat (s.src x ra) (b s)
        else if q ≠ 0 ∧ q = pe then !condCode cc.toNat (s.src x ra) (b s) else s.pr x.core q :=
  completes_simply h (by simp) (cmp_done _ h.compare_names)

theorem bitVec2_cases (v : BitVec 2) : v = 0 ∨ v = 1 ∨ v = 2 ∨ v = 3 := by revert v; decide

theorem plog_completes (s : State) (x : Insn) (pd pa pb : PReg) (op : BitVec 2) (h : s.Executes x { gpr := false }) :
    Completes (.plog x pd pa pb op) s fun t =>
      s.CoreOnly t x (s.nextPc x) ∧ (s.core x.core).RegsOnly (t.core x.core) ∧ s.SameRegs t x.core ∧
      ∀ q, t.pr x.core q = if q ≠ 0 ∧ q = pd then
          (if op = 0 then s.pr x.core pa && s.pr x.core pb else if op = 1 then s.pr x.core pa || s.pr x.core pb
            else if op = 2 then Bool.xor (s.pr x.core pa) (s.pr x.core pb) else s.pr x.core pa && !s.pr x.core pb)
        else s.pr x.core q := by
  refine completes_simply h (State.setPr_pending ..) ?_
  obtain ⟨hc, hr, hs⟩ := (predsOnly_setPr s x.core pd _).end
  refine ⟨hc, hr, hs, fun q => ?_⟩
  rw [State.finishInsn_pr, State.pr_setPr]
  congr 1
  obtain rfl | rfl | rfl | rfl := bitVec2_cases op <;> rfl

theorem pmovp_completes (s : State) (x : Insn) (rs : Reg) (mask : BitVec 16) (h : s.Executes x {}) :
    Completes (.pmovp x rs mask) s fun t =>
      s.CoreOnly t x (s.nextPc x) ∧ (s.core x.core).RegsOnly (t.core x.core) ∧ s.SameRegs t x.core ∧
      ∀ q : PReg, t.pr x.core q = if q ≠ 0 ∧ mask.getLsbD q.toNat then (s.src x rs).getLsbD q.toNat else s.pr x.core q := by
  have hp := each_predsOnly ((List.range 16).filter fun i => mask.getLsbD i) (BitVec.ofNat 4) (fun i => (s.src x rs).getLsbD i) s x.core
  refine completes_simply h hp.pending ?_
  obtain ⟨hc, hr, hs⟩ := hp.end
  refine ⟨hc, hr, hs, fun q => ?_⟩
  have hq : q.toNat < 16 := q.isLt
  rw [State.finishInsn_pr, each_setPr_pr _ (List.nodup_range.filter _) (fun i hi => List.mem_range.mp (List.mem_filter.mp hi).1)]
  simp only [List.mem_filter, List.mem_range, hq, true_and]

theorem pmovr_completes (s : State) (x : Insn) (rd : Reg) (h : s.Executes x {}) :
    Completes (.pmovr x rd) s fun t =>
      s.CoreOnly t x (s.nextPc x) ∧ (s.core x.core).RegsOnly (t.core x.core) ∧ s.SamePreds t x.core ∧
      ∃ v : Word, s.RegWritten t x.core rd.toNat (s.dstWin x) v ∧
        (∀ p : PReg, v.getLsbD p.toNat = s.pr x.core p) ∧ v.toNat < 2 ^ 16 := by
  refine completes_simply h (State.setRegAt_pending ..) ?_
  obtain ⟨hc, hr, hw, hp⟩ := State.finishInsn_dst s x rd (((s.core x.core).preds ||| 1).setWidth 64)
  refine ⟨hc, hr, hp, _, hw, fun p => ?_, ?_⟩
  · have hq : p.toNat < 16 := p.isLt
    have h1 : (1#16).getLsbD p.toNat = decide (p = 0) := (twoPow_getLsbD 0 p).trans (decide_eq_decide.mpr eq_comm)
    rw [BitVec.getLsbD_setWidth, BitVec.getLsbD_or, State.pr]
    have : p.toNat < 64 := by omega
    rw [decide_eq_true this, Bool.true_and, Bool.or_comm]
    exact congrArg (· || _) h1
  · rw [BitVec.toNat_setWidth]
    have := ((s.core x.core).preds ||| 1).isLt
    omega

theorem rdtime_completes (s : State) (x : Insn) (rd : Reg) (h : s.Executes x {}) :
    Completes (.rdtime x rd) s fun t =>
      s.CoreOnly t x (s.nextPc x) ∧ (s.core x.core).RegsOnly (t.core x.core) ∧ s.SamePreds t x.core ∧
      s.RegWritten t x.core rd.toNat (s.dstWin x) (BitVec.ofNat 64 s.time) := by
  refine completes_simply h (State.setRegAt_pending ..) ?_
  obtain ⟨hc, hr, hw, hp⟩ := State.finishInsn_dst s x rd (BitVec.ofNat 64 s.time)
  exact ⟨hc, hr, hp, hw⟩

theorem isync_completes (s : State) (x : Insn) (h : s.Executes x { gpr := false }) :
    Completes (.isync x) s fun t =>
      let c := s.core x.core
      s.CoreOnly t x (s.nextPc x) ∧
      t.core x.core = ({ c with sxgS := (c.srv 0x503).getLsbD 0, sxgD := (c.srv 0xD53).getLsbD 0 }).past (s.nextPc x) := by
  refine completes_simply h rfl ⟨State.finishInsn_coreOnly rfl (fun m hm => State.core_setCore_ne _ _ hm) none, ?_⟩
  rw [State.core_finishInsn, State.core_setCore_eq]; rfl

theorem computationalInstruction_completes (s : State) (x : Insn) (op : CompOp) (rd : CompDst) (ra : List Reg) (rb : List PReg)
    (vec : List Reg) (h : s.Executes x (compChk x op rd ra vec)) :
    Completes (.computationalInstruction x op rd ra rb vec) s fun t =>
      let n := x.core
      let g := ra.map (s.src x)
      let v := vec.map (s.vreg n)
      let p := rb.map (s.pr n)
      s.CoreOnly t x (s.nextPc x) ∧
      t.core n = ({ s.core n with c := (t.core n).c, win := (t.core n).win, v := (t.core n).v, preds := (t.core n).preds }).past (s.nextPc x) ∧
      (∀ (i : Nat) (d : Reg), LastAt rd.gpr i d → ∀ r w, IsReg n d.toNat (s.dstWin x) r w →
        t.regAt n r w = Config.deckai op.code op.ops op.imm g v p i) ∧
      (∀ r w, (∀ d, d ∈ rd.gpr → ¬ IsReg n d.toNat (s.dstWin x) r w) → t.regAt n r w = s.regAt n r w) ∧
      (∀ (i : Nat) (d : Reg), LastAt rd.vec i d → t.vreg n d = Config.deckaiVec op.code op.ops op.imm g v p i) ∧
      (∀ d, d ∉ rd.vec → t.vreg n d = s.vreg n d) ∧
      (∀ (i : Nat) (d : PReg), LastAt rd.pred i d → d ≠ 0 → t.pr n d = Config.deckaiPred op.code op.ops op.imm g v p i) ∧
      (∀ d, d ∉ rd.pred ∨ d = 0 → t.pr n d = s.pr n d) := by
  dsimp only
  generalize hg : Config.deckai op.code op.ops op.imm _ _ _ = fg
  generalize hv : Config.deckaiVec op.code op.ops op.imm _ _ _ = fv
  generalize hp : Config.deckaiPred op.code op.ops op.imm _ _ _ = fp
  have hu := ((regFileOnly_putGprs s x rd.gpr fg).trans (regFileOnly_putVecs _ x.core rd.vec fv)).trans (regFileOnly_putPreds _ x.core rd.pred fp)
  subst hg hv hp
  refine completes_simply h hu.pending ?_
  obtain ⟨hc, hx⟩ := hu.finishInsn
  refine ⟨hc, hx, fun i d hl r w hd => ?_, fun r w hd => ?_, fun i d hl => ?_, fun d hd => ?_, fun i d hl h0 => ?_, fun d hd => ?_⟩
  all_goals simp only [State.finishInsn_regAt, State.finishInsn_vreg, State.finishInsn_pr]
  · exact (State.putPreds_regAt ..).trans ((State.putVecs_regAt ..).trans (State.putGprs_last s x _ hl hd))
  · exact (State.putPreds_regAt ..).trans ((State.putVecs_regAt ..).trans (State.putGprs_miss s x _ _ r w hd))
  · exact (State.putPreds_vreg ..).trans (State.putVecs_last _ _ _ hl)
  · exact (State.putPreds_vreg ..).trans ((State.putVecs_miss _ _ _ _ hd).trans (State.putGprs_vreg ..))
  · exact State.putPreds_last _ _ _ hl h0
  · exact (State.putPreds_miss _ _ _ _ hd).trans ((State.putVecs_pr ..).trans (State.putGprs_pr ..))

/-- Settles O6, row by row. -/
theorem registerAndPredicateInstructionsComplete : Obligations.RegisterAndPredicateInstructionsComplete := by
  unfold Obligations.RegisterAndPredicateInstructionsComplete
  exact ⟨⟨computationalInstruction_completes, rdtime_completes, pmovr_completes, isync_completes⟩,
    fun s x pd pe ra rb cc h => compare_completes ra (fun s => s.src x rb) h,
    fun s x pd pe ra imm cc h => compare_completes ra (fun _ => imm) h, plog_completes, pmovp_completes⟩

end Sys2Proof.Machine
end

section
/-! SUPPORT.
Resets (R537, R581–R588): what a held package is, the rows that start a warm reset, and what a warm reset keeps. -/

namespace Sys2Proof.Machine

/-! ### Cold reset -/

/-- What a cold reset leaves, whatever held the package before (R15, R582). -/
theorem State.coldHold_holds (s : State) (p r : Bool) :
    (∀ k, (s.coldHold p r).rd k = pcsReset k) ∧ (s.coldHold p r).time = 0 ∧ (s.coldHold p r).fuses = s.fuses ∧
      (s.coldHold p r).pins.inCold = true ∧ (s.coldHold p r).stopped = true ∧ (s.coldHold p r).cores = [] ∧ (s.coldHold p r).media = [] ∧
      (s.coldHold p r).ssm = State.reset.ssm ∧ (s.coldHold p r).ras = State.reset.ras ∧ (s.coldHold p r).out = s.out :=
  ⟨fun _ => rfl, rfl, rfl, rfl, rfl, rfl, rfl, rfl, rfl, rfl⟩

theorem supplyFaultRun_pwrgood {s : State} (h : s.pins.pwrgood = true) : supplyFaultRun s = s.coldHold true s.pins.coldRstN := if_pos h

/-- With PWRGOOD low a supply fault changes nothing (R583). -/
theorem supplyFaultRun_unpowered {s : State} (h : s.pins.pwrgood = false) : supplyFaultRun s = s := if_neg (by simp [h])

theorem coldResetEndRun_running {s : State} (b : Bool) (h : s.pins.inCold = false) : coldResetEndRun b s = s := if_pos (by simp [h])

/-- The three rows that hold the package leave a cold hold, whatever held it before (R581–R583). -/
theorem exec_holds {s : State} {c : Instr} {p r : Bool}
    (h : (c, p, r) ∈ [(Instr.powerOn, true, true), (.coldReset, s.pins.pwrgood, false)] ∨
      (s.pins.pwrgood = true ∧ (c, p, r) = (.supplyFault, true, s.pins.coldRstN))) :
    exec c s = .next { s.coldHold p r with pending := s.pending } := by
  simp only [List.mem_cons, List.not_mem_nil, or_false, Prod.mk.injEq] at h
  rcases h with (⟨rfl, rfl, rfl⟩ | ⟨rfl, rfl, rfl⟩) | ⟨hg, rfl, rfl, rfl⟩
  · rfl
  · rfl
  · rw [← supplyFaultRun_pwrgood hg]; rfl

/-- A row that acts while the package is held completes with its effect. -/
theorem completes_effect {c : Instr} {s u : State} {f : State → State} (he : exec c s = .next (s.effect f)) (hf : f s = u) :
    Completes c s fun t => t = { u with pending := s.pending } :=
  ⟨_, he, by rw [← hf]; rfl⟩

/-- A row that is always well-formed completes with its effect on a package that does not stand still. -/
theorem completes_runs {c : Instr} {s u : State} {f : State → State} (hs : s.stopped = false) (he : exec c s = runs true f s) (hf : f s = u) :
    Completes c s fun t => t = { u with pending := s.pending } := by
  unfold Completes; rw [he]; exact completes_run' rfl hs hf rfl

/-- COLD_RESET_END of a held package: a boot after a thermal trip records it, and TESTEN high halts (R582, R587, R588). -/
theorem coldResetEndRun_held {s u : State} (b : Bool) (h : s.pins.inCold = true)
    (hu : u = { s.draw.2 with pins := { s.draw.2.pins with
      inCold := false, pwrgood := true, coldRstN := true, testen := b,
      pid := (0x5CF#16).zeroExtend 48 <<< 32 ||| (s.draw.1.setWidth 32).zeroExtend 48 } }) :
    coldResetEndRun b s =
      (let v : State := if u.pins.tripped then
        { u.fresh.2.fput kWldRstcause fWldRstcause_CAUSE u.fresh.1.toNat with pins := { u.pins with tripped := false } } else u
       if b then v.setStage 6 else v) := by
  subst hu
  unfold coldResetEndRun
  rw [if_neg (by simp [h])]

/-! ### Rows that start a warm reset -/

theorem State.warmEvent_starts {s : State} (h : s.ssm.wiping = false) : s.warmEvent = s.warmReset := if_neg (by simp [h])

/-- A warm-reset event that meets a running reset joins it (R584). -/
theorem State.warmEvent_joins {s : State} (h : s.ssm.wiping = true) : s.warmEvent = s := if_pos h

theorem watchdogExpiryRun_due {s : State} (h : s.wld.kicked ≠ s.time) :
    watchdogExpiryRun s = if s.ssm.wiping then s.rstCause 1 else (s.rstCause 1).warmReset := if_neg h

/-- A kick in the cycle of the expiry prevails (R17, R450). -/
theorem watchdogExpiryRun_kicked {s : State} (h : s.wld.kicked = s.time) : watchdogExpiryRun s = s := if_pos h

theorem watchdogWarningRun_first {s : State} (h : s.wld.warned = false) :
    watchdogWarningRun s = { s.vec 216 5 with wld := { s.wld with warned := true } } := if_neg (by simp [h])

theorem watchdogWarningRun_again {s : State} (h : s.wld.warned = true) : watchdogWarningRun s = s := if_pos h

/-- A low period of TAMPER_N is one event (R585). -/
theorem tamperRun_again {s : State} (h : s.wld.tamperUsed = true) :
    tamperRun s = { s with pins := { s.pins with tamperN := false }, wld := { s.wld with tamperLow := true } } := if_pos h

theorem tamperRun_first {s u : State} (h : s.wld.tamperUsed = false)
    (hu : u = { s with pins := { s.pins with tamperN := false }, wld := { s.wld with tamperLow := true, tamperUsed := true } }) :
    tamperRun s =
      ((((((u.evt 15 2 7).vec 216 8).wipeKeys).rstCause 2).fadd kWldRstcause fWldRstcause_TAMPERS 1)).warmEvent := by
  subst hu
  exact if_neg (show ¬ s.wld.tamperUsed = true by simp [h])

theorem entdaaRun_free {s : State} (a : BitVec 7) (h : s.pins.i3cAddr = none) :
    entdaaRun a s = { s with pins := { s.pins with i3cAddr := some a } } := if_pos (by simp [h])

theorem entdaaRun_taken {s : State} (a : BitVec 7) (h : s.pins.i3cAddr.isSome = true) : entdaaRun a s = s :=
  if_neg (by rw [Option.isNone_iff_eq_none, ← Option.not_isSome_iff_eq_none]; simp [h])

/-! ### The end of the scratch wipe -/

theorem scratchWipeCompleteRun_halted {s u : State} (h : s.ssm.wiping = true)
    (hu : u = { s.wipeDone with boot := { s.wipeDone.boot with sp0Up := true, warm := false } }) (h6 : u.stage = 6) :
    scratchWipeCompleteRun s = u := by
  subst hu
  unfold scratchWipeCompleteRun
  rw [if_neg (by simp [h])]
  exact if_pos h6

/-- The end of the wipe starts the boot ROM, which draws the challenge and extends ROM; a VOID package halts (R445, R454). -/
theorem scratchWipeCompleteRun_boots {s u w v : State} (h : s.ssm.wiping = true)
    (hu : u = { s.wipeDone with boot := { s.wipeDone.boot with sp0Up := true, warm := false } }) (h6 : u.stage ≠ 6)
    (hw : w = u.draw.2.wr kWldChal (u.draw.1.setWidth 64)) (hv : v = w.extend 1 0 (beBytes 32 w.fuses.romDigest.toNat)) :
    scratchWipeCompleteRun s = if v.fuses.lifecycle = 4 then v.setStage 6 else v := by
  subst hv hw hu
  unfold scratchWipeCompleteRun
  rw [if_neg (by simp [h])]
  exact if_neg h6

theorem thermtripRun_eq {s u : State} (d : Nat) (hu : s.each (List.range 216) (fun s n => s.haltCore n 3) = u) :
    thermtripRun d s = ({ u with pins := { u.pins with thermtrip := true } }).emit (.pin "THERMTRIP_N" true) := by
  subst hu; rfl

/-- A thermal trip stops every compute core and then the package (R587). -/
theorem thermtrip_completes {s : State} {d : Nat} (hs : s.stopped = false) (hd : d < 12 ∨ d = 15) :
    Completes (.thermtrip d) s fun t => t.pins.thermtrip = true ∧ t.stopped = true ∧
      t = { ({ s.each (List.range 216) (fun s n => s.haltCore n 3) with pins :=
        { (s.each (List.range 216) (fun s n => s.haltCore n 3)).pins with thermtrip := true } }).emit (.pin "THERMTRIP_N" true)
          with pending := s.pending } := by
  generalize hu : s.each (List.range 216) (fun s n => s.haltCore n 3) = u
  exact completes_run' (f := thermtripRun d) (decide_eq_true hd) hs (thermtripRun_eq d hu) ⟨rfl, Bool.or_true _, rfl⟩

/-- Settles O55: each row's effect, in the cases that its state decides. -/
theorem coldAndWarmResetsComplete : Obligations.ColdAndWarmResetsComplete := by
  unfold Obligations.ColdAndWarmResetsComplete
  refine ⟨fun s => ⟨fun c p r h => ⟨_, exec_holds h, rfl, s.coldHold_holds p r⟩, fun h => completes_effect rfl (supplyFaultRun_unpowered h),
    fun h b => completes_effect rfl (coldResetEndRun_running b h), fun b w p u h hw hp hu => ?_⟩, fun s hs => ?_⟩
  · subst hw hp
    exact completes_effect rfl (coldResetEndRun_held b h hu)
  · refine ⟨fun h => completes_runs hs rfl (State.warmEvent_starts h), fun h => completes_runs hs rfl (State.warmEvent_joins h),
      fun h u hu => ?expiry, fun h => completes_runs hs rfl (watchdogExpiryRun_kicked h),
      fun h => completes_runs hs rfl (watchdogWarningRun_first h), fun h => completes_runs hs rfl (watchdogWarningRun_again h),
      fun h => completes_runs hs rfl (tamperRun_again h), fun h u v hu hv => ?tamper,
      completes_runs (f := tamperNReleaseRun) hs rfl rfl, fun d hd => thermtrip_completes hs hd,
      fun a => ⟨fun h => completes_runs hs rfl (entdaaRun_free a h), fun h => completes_runs hs rfl (entdaaRun_taken a h)⟩,
      fun h u hu => ⟨fun h6 => completes_runs hs rfl (scratchWipeCompleteRun_halted h hu h6),
        fun h6 w v hw hv => completes_runs hs rfl (scratchWipeCompleteRun_boots h hu h6 hw hv)⟩⟩
    case expiry => subst hu; exact completes_runs hs rfl (watchdogExpiryRun_due h)
    case tamper => subst hv; exact completes_runs hs rfl (tamperRun_first h hu)

/-! ### What a warm reset keeps -/

/-- Of the package only the links, the outputs and registers outside `K` may differ. -/
structure LinksOutOnly (s t : State) (K : Nat → Prop) : Prop where
  eq : t = { s with pcs := t.pcs, links := t.links, out := t.out }
  rd : ∀ k, K k → t.rd k = s.rd k

theorem LinksOutOnly.refl (s : State) (K : Nat → Prop) : LinksOutOnly s s K := ⟨rfl, fun _ _ => rfl⟩

theorem LinksOutOnly.trans {s t u : State} {K : Nat → Prop} (h : LinksOutOnly s t K) (h' : LinksOutOnly t u K) : LinksOutOnly s u K := by
  refine ⟨?_, fun k hk => (h'.rd k hk).trans (h.rd k hk)⟩
  rw [h'.eq, h.eq]

/-- What is read of neither the registers, the links nor the outputs is as before. -/
theorem LinksOutOnly.keeps {s t : State} {K : Nat → Prop} (h : LinksOutOnly s t K) {α : Type} (f : State → α)
    (hf : ∀ p l o, f { s with pcs := p, links := l, out := o } = f s) : f t = f s :=
  (congrArg f h.eq).trans (hf _ _ _)

theorem linksOutOnly_emit_if (s : State) (p : Prop) [Decidable p] (o : Out) (K : Nat → Prop) :
    LinksOutOnly s (if p then s.emit o else s) K := by
  split
  · exact ⟨rfl, fun _ _ => rfl⟩
  · exact LinksOutOnly.refl s K

theorem linksOutOnly_each {α : Type} {s : State} {l : List α} {f : State → α → State} {K : Nat → Prop}
    (hf : ∀ u, ∀ a ∈ l, LinksOutOnly u (f u a) K) : LinksOutOnly s (s.each l f) K :=
  List.foldlRecOn (motive := fun t => LinksOutOnly s t K) l f (LinksOutOnly.refl s K) fun t ht a ha => ht.trans (hf t a ha)

@[simp] theorem State.each_nil {α : Type} (s : State) (f : State → α → State) : s.each [] f = s := rfl

/-- A register that is not MC_STAT of a channel that erased a DRAM row (R541). -/
def State.NotErasedStat (s : State) (k : Nat) : Prop := ∀ c x, (c, x) ∈ s.chans → x.erased ≠ [] → k ≠ kMcStat c

/-- Where no unit is RETIRING, none ends its retirement in a warm reset (R595). -/
theorem State.none_retiring {s : State} (h : ∀ p, p ∈ s.ras.units → p.2.st ≠ .retiring) :
    s.ras.units.filter (fun p => p.2.st = .retiring) = [] :=
  List.filter_eq_nil_iff.mpr fun p hp => by simpa using h p hp

/-- A warm reset where no unit is RETIRING (R15, R537): a base state that holds what the rules keep, from which the links of
dies that stay out, FATAL_N and MC_STAT of channels with erased rows alone may differ. -/
theorem State.warmReset_base {s : State} (hr : ∀ p, p ∈ s.ras.units → p.2.st ≠ .retiring) :
    ∃ b : State, LinksOutOnly b s.warmReset s.NotErasedStat ∧ b.time = s.time ∧ b.fuses = s.fuses ∧ b.media = s.media ∧
      b.ssm.wiping = true ∧ b.cores = [] ∧ b.zci = State.reset.zci ∧ b.boot.log = [] ∧ b.ras = s.rasWarm ∧ b.pcs = s.pcsWarm.pcs := by
  unfold State.warmReset
  dsimp only
  rw [State.none_retiring hr, State.each_nil]
  refine ⟨?base, ?frame, ?kept⟩
  case frame =>
    refine LinksOutOnly.trans (LinksOutOnly.trans ?_ (linksOutOnly_emit_if _ _ _ _))
      (linksOutOnly_each fun u d _ => ⟨rfl, fun _ _ => rfl⟩)
    refine linksOutOnly_each fun u c hc => ?_
    obtain ⟨q, hq, rfl⟩ := List.mem_map.mp hc
    obtain ⟨hq, he⟩ := List.mem_filter.mp hq
    exact ⟨rfl, fun k hk => State.rd_fput_ne u _ _ (hk q.1 q.2 hq (by simpa using he))⟩
  case kept => exact ⟨rfl, rfl, rfl, rfl, rfl, rfl, rfl, rfl, rfl⟩

/-- Settles O56: a warm reset is its base state but for links, outputs and MC_STAT, and `rd_pcsWarm` reads the register file. -/
theorem warmResetKeepsColdRegisters : Obligations.WarmResetKeepsColdRegisters := by
  unfold Obligations.WarmResetKeepsColdRegisters
  intro s hs hw hp hr
  obtain ⟨b, hb, htime, hfuses, hmedia, hwipe, hcores, hzci, hlog, hras, hpcs⟩ := State.warmReset_base hr
  refine completes_run' (f := warmRstNRun) rfl hs (State.warmEvent_starts hw)
    ⟨(hb.keeps (·.time) fun _ _ _ => rfl).trans htime, (hb.keeps (·.fuses) fun _ _ _ => rfl).trans hfuses,
      (hb.keeps (·.media) fun _ _ _ => rfl).trans hmedia, (hb.keeps (·.ssm.wiping) fun _ _ _ => rfl).trans hwipe,
      (hb.keeps (·.cores) fun _ _ _ => rfl).trans hcores, (hb.keeps (·.zci) fun _ _ _ => rfl).trans hzci,
      (hb.keeps (·.boot.log) fun _ _ _ => rfl).trans hlog, (hb.keeps (·.ras.log) fun _ _ _ => rfl).trans (by rw [hras]; rfl),
      (hb.keeps (·.ras.perm) fun _ _ _ => rfl).trans (by rw [hras]; rfl), fun k d hd hk => ?_⟩
  have e : s.warmReset.rd k = if d.dom = .cold then s.rd k
      else (s.rd k &&& BitVec.ofNat 64 d.rws) ||| (pcsReset k &&& ~~~ BitVec.ofNat 64 d.rws) := by
    rw [hb.rd k hk, ← rd_pcsWarm s hp k d hd, ← hpcs]; rfl
  exact ⟨fun hc => e.trans (if_pos hc), fun hc => e.trans (if_neg hc)⟩

end Sys2Proof.Machine
end

section
/-! SUPPORT.
Training of the links (R34, R36, R40, R218, R229–R239): what the start of a full training leaves, and the ways in which
TRAINING_COMPLETE ends. -/

namespace Sys2Proof.Machine

/-- A well-formed command of a package that does not stand still completes with its effect. -/
theorem completes_with {c : Instr} {ok : Bool} {f : State → State} {s u : State} (he : exec c s = runs ok f s) (h : ok = true)
    (hs : s.stopped = false) (hf : f s = u) : Completes c s fun t => t = { u with pending := s.pending } := by
  unfold Completes; rw [he]; exact completes_run' h hs hf rfl

/-! ### The start of a full training (R213, R230, R235) -/

/-- The start of a full training at one end: all of it is reset but the maps that R235 compares with. -/
def State.startEnd (s : State) (e : LinkEnd) : State :=
  ((s.setLk e { LinkSt.reset with mapUp := (s.lk e).mapUp, mapDn := (s.lk e).mapDn }).setLkState e 1).lkMsg e 1 0 0

theorem State.fullTrain_starts {s : State} {n : Nat} (hl : s.fon (kSclSplit n) fSclSplit_LOCK = true)
    (hd : (s.lk ⟨true, n⟩).dead = false) (hr : (s.unit n 0xFF).st ≠ .retired) :
    s.fullTrain n = (s.startEnd ⟨true, n⟩).startEnd ⟨false, n⟩ :=
  if_neg (by simp [hl, hd, hr])

theorem State.lkState_startEnd (s : State) (e : LinkEnd) : (s.startEnd e).lkState e = 1 := by
  rw [State.startEnd, lkState_msg, State.lkState_set _ _ _ (by decide)]

theorem State.lkState_startEnd_ne (s : State) {e f : LinkEnd} (h : kSclStat f ≠ kSclStat e) :
    (s.startEnd e).lkState f = s.lkState f := by
  rw [State.startEnd, lkState_msg, State.lkState_set_ne _ _ h, State.lkState_setLk]

theorem State.lk_startEnd (s : State) (e : LinkEnd) :
    (s.startEnd e).lk e = { LinkSt.reset with mapUp := (s.lk e).mapUp, mapDn := (s.lk e).mapDn } := by
  rw [State.startEnd, lk_msg, lk_setState, State.lk_setLk_eq]

theorem State.lk_startEnd_ne (s : State) {e f : LinkEnd} (h : endKey f ≠ endKey e) : (s.startEnd e).lk f = s.lk f := by
  rw [State.startEnd, lk_msg, lk_setState, State.lk_setLk_ne _ _ h]

theorem State.startEnd_frame (s : State) (e : LinkEnd) : s.startEnd e =
    { s with pcs := (s.startEnd e).pcs, links := (s.startEnd e).links, out := (s.startEnd e).out } := rfl

theorem State.startEnd_out (s : State) (e : LinkEnd) : (s.startEnd e).out = s.out ++ [.linkMsg e.iod e.link 1 0 0] := rfl

theorem endKey_ne {m : Nat} (hm : m < 12) (n : Nat) : endKey ⟨true, m⟩ ≠ endKey ⟨false, n⟩ := by
  simp only [endKey, if_true, Bool.false_eq_true, if_false]; omega

/-- A full training that starts takes both ends to training, resets them but for their maps, and sends the pattern at both. -/
theorem fullTraining_completes {s : State} {e : LinkEnd} (hw : e.wf = true) (hs : s.stopped = false) (h1 : s.lkState e ≠ 1)
    (hl : s.fon (kSclSplit e.link) fSclSplit_LOCK = true) (hd : (s.lk ⟨true, e.link⟩).dead = false)
    (hr : (s.unit e.link 0xFF).st ≠ .retired) :
    Completes (.fullTraining e) s fun t =>
      t.lkState ⟨true, e.link⟩ = 1 ∧ t.lkState ⟨false, e.link⟩ = 1 ∧
      (∀ i, t.lk ⟨i, e.link⟩ = { LinkSt.reset with mapUp := (s.lk ⟨i, e.link⟩).mapUp, mapDn := (s.lk ⟨i, e.link⟩).mapDn }) ∧
      t = { s with pcs := t.pcs, links := t.links, out := t.out } ∧
      t.out = s.out ++ [.linkMsg true e.link 1 0 0, .linkMsg false e.link 1 0 0] := by
  have hn : e.link < 12 := of_decide_eq_true hw
  have hk : endKey ⟨true, e.link⟩ ≠ endKey ⟨false, e.link⟩ := endKey_ne hn _
  have hf := linkFrame_trans (s.startEnd_frame ⟨true, e.link⟩) (State.startEnd_frame _ ⟨false, e.link⟩)
  refine completes_run (f := fullTrainingRun e) hw hs ((if_neg h1).trans (State.fullTrain_starts hl hd hr)) (linkFrame_pending hf) ?_
  refine ⟨?iodState, State.lkState_startEnd .., fun i => ?ends, hf, ?out⟩
  case iodState => rw [State.lkState_startEnd_ne _ (kSclStat_ne hn), State.lkState_startEnd]
  case ends =>
    cases i with
    | true => rw [State.lk_startEnd_ne _ hk, State.lk_startEnd]
    | false => rw [State.lk_startEnd, State.lk_startEnd_ne _ hk.symm]
  case out => rw [State.startEnd_out, State.startEnd_out, List.append_assoc]; rfl

/-! ### Loss of training and of lock (R231, R233, R238) -/

theorem trainingPatternDetectRun_active {s : State} {e : LinkEnd} (hi : e.iod = true) (h : s.lkState e = 2 ∨ s.lkState e = 4) :
    trainingPatternDetectRun e s = (s.dieGone e.link).fullTrain e.link := if_pos (by simp [hi, h])

theorem trainingTimeoutRun_training {s : State} {e : LinkEnd} (hb : s.boot.windowOpen = false) (h : s.lkState e = 1 ∨ s.lkState e = 3) :
    trainingTimeoutRun e s = s.linkDown e.link false := if_pos (by simp [hb, h])

theorem lockLossRun_awake {s : State} {e : LinkEnd} (h0 : s.lkState e ≠ 0) (ha : s.lkAsleep e = false) :
    lockLossRun e s = (s.setLk e { s.lk e with lockLost := true }).retrain e.link false := if_neg (by simp [h0, ha])

/-! ### The ways in which TRAINING_COMPLETE ends (R230) -/

/-- What is left of TRAINING_COMPLETE once the lanes are checked and a capability word is accepted. -/
def State.trainRest (v : State) (n : Nat) (tr : Training) (full : Bool) (old : List Nat × List Nat) : State :=
  if v.mapNow n true = [] ∨ v.mapNow n false = [] then v.linkDown n false
  else if !tr.equal then
    if (v.lk ⟨true, n⟩).unequal ≥ 2 then v.linkDown n false
    else v.setLk ⟨true, n⟩ { v.lk ⟨true, n⟩ with unequal := (v.lk ⟨true, n⟩).unequal + 1 }
  else if full then ((((v.takeCaps n tr.capWord).setMaps n old).trainEnd n true).trainGo n).releaseDie n
  else ((v.setMaps n old).trainEnd n false).trainGo n

theorem trainingCompleteRun_retrain {s : State} {n : Nat} (tr : Training) (h : s.lkState ⟨true, n⟩ = 3) :
    trainingCompleteRun n tr s = (s.trained n tr).trainRest n tr false (s.mapHeld n true, s.mapHeld n false) := by
  have hf : decide (s.lkState ⟨true, n⟩ = 1) = false := by rw [h]; rfl
  unfold trainingCompleteRun State.trainRest
  dsimp only
  rw [if_neg fun hn => hn.2 h]
  simp only [hf, Bool.false_eq_true, if_false, Nat.zero_ne_one, OfNat.zero_ne_ofNat]

/-- After full training the capability exchange decides first (R34, R36, R40). -/
theorem trainingCompleteRun_full {s v : State} {n : Nat} (tr : Training) (h : s.lkState ⟨true, n⟩ = 1) (hv : s.trained n tr = v) :
    trainingCompleteRun n tr s =
      if v.capCheck n tr.capWord = 1 then v.linkDown n true
      else if v.capCheck n tr.capWord = 2 then
        (v.raise { cls := 2, kind := 0x22, agent := n, syn0 := v.rd (kSclPeercap n), syn1 := tr.capWord }).linkDown n true
      else if v.capCheck n tr.capWord = 3 then v.cdLate n
      else v.trainRest n tr true (s.mapHeld n true, s.mapHeld n false) := by
  subst hv
  unfold trainingCompleteRun State.trainRest
  dsimp only
  rw [if_neg fun hn => hn.1 h]
  simp only [h, decide_true, if_true]

theorem State.trainRest_noLane {v : State} {n : Nat} (tr : Training) (full : Bool) (old : List Nat × List Nat)
    (h : v.mapNow n true = [] ∨ v.mapNow n false = []) : v.trainRest n tr full old = v.linkDown n false := if_pos h

section
variable {v : State} {n : Nat} {tr : Training} (hu : v.mapNow n true ≠ []) (hd : v.mapNow n false ≠ [])
include hu hd

/-- A third training in a row that finds the widths unequal takes the link down (R235). -/
theorem State.trainRest_unequal_third (full : Bool) (old : List Nat × List Nat) (he : tr.equal = false)
    (h : 2 ≤ (v.lk ⟨true, n⟩).unequal) : v.trainRest n tr full old = v.linkDown n false := by
  unfold State.trainRest
  rw [if_neg (fun hn => hn.elim hu hd), if_pos (by simp [he]), if_pos h]

theorem State.trainRest_unequal (full : Bool) (old : List Nat × List Nat) (he : tr.equal = false)
    (h : (v.lk ⟨true, n⟩).unequal < 2) : v.trainRest n tr full old =
      v.setLk ⟨true, n⟩ { v.lk ⟨true, n⟩ with unequal := (v.lk ⟨true, n⟩).unequal + 1 } := by
  unfold State.trainRest
  rw [if_neg (fun hn => hn.elim hu hd), if_pos (by simp [he]), if_neg (Nat.not_le.mpr h)]

/-- Full training with usable maps and equal widths takes the capabilities in force and releases the die. -/
theorem State.trainRest_full (old : List Nat × List Nat) (he : tr.equal = true) : v.trainRest n tr true old =
    ((((v.takeCaps n tr.capWord).setMaps n old).trainEnd n true).trainGo n).releaseDie n := by
  unfold State.trainRest
  rw [if_neg (fun hn => hn.elim hu hd), if_neg (by simp [he]), if_pos rfl]

end

/-- Settles O33: the start of training at the two ends, and TRAINING_COMPLETE by the state from which it comes and what it found. -/
theorem linkTrainingComplete : Obligations.LinkTrainingComplete := by
  unfold Obligations.LinkTrainingComplete
  refine ⟨fun s e hw hs h1 hl hd hr => fullTraining_completes hw hs h1 hl hd hr,
    fun s e hw hs hi h => completes_with rfl hw hs (trainingPatternDetectRun_active hi h),
    fun s e hw hs hb h => completes_with rfl hw hs (trainingTimeoutRun_training hb h),
    fun s e hw hs h0 ha => completes_with rfl hw hs (lockLossRun_awake h0 ha),
    fun s e hw hs h => ⟨completes_with (f := lockRegainedRun e) rfl hw hs (if_pos h),
      completes_with (f := lockTimeoutRun e) rfl hw hs (if_pos h)⟩,
    fun s n tr hn hs => ?complete⟩
  have hw : wfLink n = true := decide_eq_true hn
  have ends {u : State} (h : trainingCompleteRun n tr s = u) :
      Completes (.trainingComplete n tr) s fun t => t = { u with pending := s.pending } := completes_with rfl hw hs h
  refine ⟨fun h3 hu hd he => ?retrain, fun h1 hc hu hd he => ?full, fun h1 => ?capability, fun h3 => ?lanes⟩
  case retrain =>
    obtain ⟨hi, hcd⟩ := ((s.trained n tr).setMaps n (s.mapHeld n true, s.mapHeld n false)).trainEnd_active false hn
    exact ⟨hi, hcd, ends (training_retrain tr h3 hu hd he)⟩
  case full =>
    obtain ⟨hi, hcd⟩ :=
      (((s.trained n tr).takeCaps n tr.capWord).setMaps n (s.mapHeld n true, s.mapHeld n false)).trainEnd_active true hn
    refine ⟨hi, hcd, ends ?_⟩
    rw [trainingCompleteRun_full tr h1 rfl, hc, if_neg (by decide), if_neg (by decide), if_neg (by decide)]
    exact State.trainRest_full hu hd _ he
  case capability =>
    have run := trainingCompleteRun_full tr h1 rfl
    exact ⟨fun hc => ends (run.trans (by rw [hc, if_pos rfl])),
      fun hc => ends (run.trans (by rw [hc, if_neg (by decide), if_pos rfl])),
      fun hc => ends (run.trans (by rw [hc, if_neg (by decide), if_neg (by decide), if_pos rfl]))⟩
  case lanes =>
    exact ⟨fun h => ends ((trainingCompleteRun_retrain tr h3).trans (State.trainRest_noLane tr false _ h)),
      fun hu hd he h => ends ((trainingCompleteRun_retrain tr h3).trans (State.trainRest_unequal_third hu hd false _ he h)),
      fun hu hd he h => ends ((trainingCompleteRun_retrain tr h3).trans (State.trainRest_unequal hu hd false _ he h))⟩

end Sys2Proof.Machine
end

section
/-! SUPPORT.
The end of the compute-die phase (R33, R36, R37, R41): the word that the effective set becomes, and where it is sent. -/

namespace Sys2Proof.Machine

/-! ### The word of the effective set (R36) -/

/-- MGT_EFFCAP with its two sets of features. -/
def effWord (pkg lf : Nat) : Word := fSclPeercap_FORMAT.put (fSclPeercap_PKG_FEAT.put (fSclPeercap_LINK_FEAT.put 0 lf) pkg) 1

theorem effWord_format (pkg lf : Nat) : fSclPeercap_FORMAT.get (effWord pkg lf) = 1 := Fld.get_put _ _ _ (by decide)

theorem effWord_pkgFeat {pkg : Nat} (h : pkg < 2 ^ fSclPeercap_PKG_FEAT.w) (lf : Nat) :
    fSclPeercap_PKG_FEAT.get (effWord pkg lf) = pkg := by
  rw [effWord, Fld.get_put_ne _ _ _ _ (by decide) (by decide), Fld.get_put _ _ _ (by decide), Nat.mod_eq_of_lt h]

theorem effWord_linkFeat {lf : Nat} (h : lf < 2 ^ fSclPeercap_LINK_FEAT.w) (pkg : Nat) :
    fSclPeercap_LINK_FEAT.get (effWord pkg lf) = lf := by
  rw [effWord, Fld.get_put_ne _ _ _ _ (by decide) (by decide), Fld.get_put_ne _ _ _ _ (by decide) (by decide),
    Fld.get_put _ _ _ (by decide), Nat.mod_eq_of_lt h]

/-- PKG_FEAT of the effective set: of the IOD, the platform and every die whose link trained. -/
def State.pkgFeat (s : State) (up : List Nat) : Nat :=
  up.foldl (fun a n => a &&& fSclPeercap_PKG_FEAT.get (s.rd (kSclPeercap n)))
    (fSclPeercap_PKG_FEAT.get s.fuses.iodWord &&& fSclPeercap_PKG_FEAT.get (s.rd kMgtCapmask))

/-- LINK_FEAT of the effective set: of the IOD and every link that trained. -/
def State.linkFeats (s : State) (up : List Nat) : Nat :=
  up.foldl (fun a n => a &&& fSclPeercap_LINK_FEAT.get (s.rd (kSclLinkcap n))) (fSclPeercap_LINK_FEAT.get s.fuses.iodWord)

theorem State.pkgFeat_lt (s : State) (up : List Nat) : s.pkgFeat up < 2 ^ fSclPeercap_PKG_FEAT.w :=
  fold_and_lt _ _ _ _ (Nat.lt_of_le_of_lt Nat.and_le_left (Fld.get_lt _ _))

theorem State.linkFeats_lt (s : State) (up : List Nat) : s.linkFeats up < 2 ^ fSclPeercap_LINK_FEAT.w :=
  fold_and_lt _ _ _ _ (Fld.get_lt _ _)

/-! ### Fixing it, once in a cold boot (R37) -/

theorem State.fixCaps_open {s : State} (h : s.boot.effFixed = false) (up : List Nat) :
    s.fixCaps up = { s.wr kMgtEffcap (effWord (s.pkgFeat up) (s.linkFeats up)) with boot := { s.boot with effFixed := true } } :=
  if_neg (by simp [h])

theorem State.fixCaps_fixed {s : State} (h : s.boot.effFixed = true) (up : List Nat) : s.fixCaps up = s := if_pos h

section
variable {s : State} (h : s.boot.effFixed = false) (up : List Nat)
include h

theorem State.fixCaps_frame : s.fixCaps up = { s with pcs := (s.fixCaps up).pcs, boot := { s.boot with effFixed := true } } := by
  rw [State.fixCaps_open h]; rfl

theorem State.fixCaps_out : (s.fixCaps up).out = s.out := by
  rw [State.fixCaps_open h]; rfl

theorem State.rd_fixCaps_eq : (s.fixCaps up).rd kMgtEffcap = effWord (s.pkgFeat up) (s.linkFeats up) := by
  rw [State.fixCaps_open h, rd_boot, State.rd_wr_eq]

theorem State.rd_fixCaps_ne {k : Nat} (hk : k ≠ kMgtEffcap) : (s.fixCaps up).rd k = s.rd k := by
  rw [State.fixCaps_open h, rd_boot, State.rd_wr_ne _ _ hk]

end

/-! ### Sending it (R41) -/

theorem State.xTrained_congr {s u : State} (h : ∀ k, k ≠ kMgtEffcap → u.rd k = s.rd k) : u.xTrained = s.xTrained := by
  have hg (g : Nat) : kFioGcfg g ≠ kMgtEffcap := by simp only [kFioGcfg, kMgtEffcap, pcsKey]; omega
  have hx (g : Nat) : kFioXstat g ≠ kMgtEffcap := by simp only [kFioXstat, kMgtEffcap, pcsKey]; omega
  refine List.filter_congr fun g _ => ?_
  rw [State.fget, State.fget, h _ (hg g), h _ (hx g)]; rfl

theorem State.each_sendEffcap (s : State) (l : List Nat) :
    s.each l State.sendEffcap = { s with out := s.out ++ l.map fun g => .socketMsg g 1 (s.rd kMgtEffcap) 0 } := by
  have key (q : List Nat) (u : State) (hu : u.rd kMgtEffcap = s.rd kMgtEffcap) :
      q.foldl State.sendEffcap u = q.foldl (fun u g => u.emit (.socketMsg g 1 (s.rd kMgtEffcap) 0)) u := by
    induction q generalizing u with
    | nil => rfl
    | cons g q ih =>
      have e : u.sendEffcap g = u.emit (.socketMsg g 1 (s.rd kMgtEffcap) 0) := by rw [← hu]; rfl
      rw [List.foldl_cons, List.foldl_cons, e]
      exact ih _ ((State.rd_emit ..).trans hu)
  exact (key l s rfl).trans (State.emits l (fun g => Out.socketMsg g 1 (s.rd kMgtEffcap) 0) s)

/-! ### The end of the phase -/

/-- The dies that are late at the end of the phase, where the links `up` have trained. -/
def State.lateDies (s : State) (up : List Nat) : List Nat :=
  (List.range 12).filter fun n => !up.contains n &&
    decide ((s.unit n 0xFF).st ≠ .retired ∧ ((s.unit n 0xFF).st ≠ .lost ∨ (!s.boot.effFixed && !(s.unit n 0xFF).sticky)))

/-- The package once the phase is over. -/
def State.pastCdPhase (s : State) : State := { s with boot := { s.boot with cdPhase := false } }

theorem computeDiePhaseEndRun_due {s : State} (hw : s.boot.windowOpen = true) (hc : s.boot.cdPhase = true) :
    computeDiePhaseEndRun s = (s.lateDies s.trainedNow).foldl State.cdLate
      (if s.boot.effFixed then s.pastCdPhase.fixCaps s.trainedNow
        else (s.pastCdPhase.fixCaps s.trainedNow).each (s.pastCdPhase.fixCaps s.trainedNow).xTrained State.sendEffcap) :=
  if_neg (by simp [hw, hc])

/-- In a later boot the set stands, and the links that are up have trained. -/
theorem State.trainedNow_fixed {s : State} (h : s.boot.effFixed = true) :
    s.trainedNow = (List.range 12).filter fun n => s.linkActive n || decide (s.lkState ⟨true, n⟩ = 3) := by
  simp only [State.trainedNow, h, if_true]

/-- Before the set is fixed the links have trained whose dies gave their words. -/
theorem State.trainedNow_open {s : State} (h : s.boot.effFixed = false) :
    s.trainedNow = (List.range 12).filter fun n => decide (s.rd (kSclPeercap n) ≠ 0) := by
  simp only [State.trainedNow, h, Bool.false_eq_true, if_false]

theorem State.lateDies_fixed {s : State} (h : s.boot.effFixed = true) (up : List Nat) : s.lateDies up =
    (List.range 12).filter fun n => !up.contains n && decide ((s.unit n 0xFF).st ≠ .retired ∧ (s.unit n 0xFF).st ≠ .lost) := by
  simp only [State.lateDies, h, Bool.not_true, Bool.false_and, Bool.false_eq_true, or_false]

theorem State.lateDies_open {s : State} (h : s.boot.effFixed = false) (up : List Nat) : s.lateDies up =
    (List.range 12).filter fun n => !up.contains n &&
      decide ((s.unit n 0xFF).st ≠ .retired ∧ ((s.unit n 0xFF).st ≠ .lost ∨ (s.unit n 0xFF).sticky = false)) := by
  simp only [State.lateDies, h, Bool.not_false, Bool.true_and, Bool.not_eq_true']

/-- Settles O35: what `fixCaps` leaves, by whether the set is already fixed. -/
theorem computeDiePhaseEnds : Obligations.ComputeDiePhaseEnds := by
  unfold Obligations.ComputeDiePhaseEnds
  intro s hs hw hc
  have due := computeDiePhaseEndRun_due hw hc
  refine ⟨fun h => ?fixed, fun h => ?opens⟩
  case fixed =>
    rw [← State.trainedNow_fixed h]
    refine completes_runs hs rfl (due.trans ?_)
    rw [if_pos h, State.fixCaps_fixed (s := s.pastCdPhase) h, State.lateDies_fixed h]
    rfl
  case opens =>
    rw [← State.trainedNow_open h]
    have hne (k : Nat) (hk : k ≠ kMgtEffcap) : (s.pastCdPhase.fixCaps s.trainedNow).rd k = s.rd k :=
      State.rd_fixCaps_ne (s := s.pastCdPhase) h _ hk
    have heq := State.rd_fixCaps_eq (s := s.pastCdPhase) h s.trainedNow
    refine ⟨State.fixCaps_frame (s := s.pastCdPhase) h _, hne, ?format, ?pkg, ?link, completes_runs hs rfl (due.trans ?effect)⟩
    case format => exact (congrArg _ heq).trans (effWord_format _ _)
    case pkg => exact (congrArg _ heq).trans (effWord_pkgFeat (State.pkgFeat_lt _ _) _)
    case link => exact (congrArg _ heq).trans (effWord_linkFeat (State.linkFeats_lt _ _) _)
    case effect =>
      rw [if_neg (by simp [h]), State.lateDies_open h, State.each_sendEffcap, State.xTrained_congr hne,
        State.fixCaps_out (s := s.pastCdPhase) h]
      rfl

end Sys2Proof.Machine
end

section
/-! SUPPORT.
Events of the Enlarger and the Condenser (R27, R254, R255, R258, R259, R274–R276, R283, R292, R302, R304, R305): what each row
does in the cases that its state decides. -/

namespace Sys2Proof.Machine

/-! ### Slots and evacuations (R275, R276, R299) -/

/-- A free slot goes to an evacuation, else to a rotation, else to the oldest command that can use it. -/
theorem migrationSlotFreeRun_free {s : State} {n : Nat} (hd : s.down = false) (h : s.cmdSlot = some n) :
    migrationSlotFreeRun s =
      (if (s.evacUse n).1 then (s.evacUse n).2
        else if ((s.evacUse n).2.offerRots s.rekeyHeld n).1 then ((s.evacUse n).2.offerRots s.rekeyHeld n).2
        else (((s.evacUse n).2.offerRots s.rekeyHeld n).2.offer (fun s c => s.cmdUse n c)
          ((s.evacUse n).2.offerRots s.rekeyHeld n).2.enl.cmds).2).zciFlush := by
  unfold migrationSlotFreeRun
  simp only [hd, Bool.false_eq_true, if_false, h]
  rcases s.evacUse n with ⟨taken, u⟩
  cases taken with
  | true => simp only [if_true]
  | false =>
    dsimp only
    rcases u.offerRots s.rekeyHeld n with ⟨taken, w⟩
    cases taken <;> simp only [Bool.false_eq_true, if_false, if_true]

theorem State.setEvac_cons {s : State} {e : Evac} {r : List Evac} (h : s.enl.evacs = e :: r) (f : Evac → Evac) :
    s.setEvac f = { s with enl := { s.enl with evacs := f e :: r } } := by
  unfold State.setEvac; rw [h]

theorem evacuationResumeRun_stalled {s : State} {e : Evac} {r : List Evac} (h : s.enl.evacs = e :: r) (hst : e.stall = true) :
    evacuationResumeRun s =
      ({ s with enl := { s.enl with evacs := { e with stall := false } :: r } } : State).fput kEnlEvac fEnlEvac_STALL 0 := by
  unfold evacuationResumeRun
  rw [State.setEvac_cons h, h]
  exact if_pos hst

/-- A stalled evacuation goes on, and STALL of ENL_EVAC clears; nothing else changes (R276). -/
theorem evacuationResume_completes {s : State} {e : Evac} {r : List Evac} (hs : s.stopped = false) (h : s.enl.evacs = e :: r)
    (hst : e.stall = true) : Completes .evacuationResume s fun t =>
      t.enl.evacs = { e with stall := false } :: r ∧ t.fget kEnlEvac fEnlEvac_STALL = 0 ∧
      t = { s with enl := { s.enl with evacs := t.enl.evacs }, pcs := t.pcs } ∧ ∀ k, k ≠ kEnlEvac → t.rd k = s.rd k := by
  refine completes_run (f := evacuationResumeRun) rfl hs (evacuationResumeRun_stalled h hst) rfl ?_
  exact ⟨rfl, State.fget_fput _ _ _ _ (by decide), rfl, fun k hk => State.rd_fput_ne _ _ _ hk⟩

theorem evacuationCompleteRun_empty {s : State} {e : Evac} {r : List Evac} (h : s.enl.evacs = e :: r)
    (hu : s.enl.used.any (fun p => inSpan (s.evacSpan e) p.1) = false) :
    evacuationCompleteRun s =
      ((((({ s with enl := { s.enl with evacs := r, cmds := s.enl.cmds.filter (fun c => !e.cmds.contains c.id) } } : State).fput
        kEnlEvac fEnlEvac_DONE 1).fput kEnlEvac fEnlEvac_STALL 0).config 3 15 0x50 [e.tier, e.set]).each e.cmds
          fun s id => s.final id zDone 0 []).zciFlush := by
  unfold evacuationCompleteRun
  rw [h]
  exact if_neg (by rw [hu]; exact Bool.false_ne_true)

/-! ### Heat decay (R254, R259) -/

theorem State.logRec_enl (s : State) (e : ErrIn) (p : Bool) : (s.logRec e p).enl = s.enl := by
  unfold State.logRec State.vecSp State.vec State.setCore
  dsimp only
  rw [State.evt_enl]
  split <;> split <;> rfl

/-- An error of class Deferred that names no Element is recorded, and no more. -/
theorem State.raise_deferred {s : State} {e : ErrIn} (hc : e.cls = 1) (he : e.element = noElem) : s.raise e = s.logRec e false := by
  have hm : s.mergeRec e = none := by
    unfold State.mergeRec
    dsimp only
    split
    · rfl
    · exact if_neg fun h => absurd (h.1.symm.trans hc) (by decide)
  unfold State.raise
  simp only [he, ne_eq, not_true, decide_false, Bool.and_false, Bool.false_and, Bool.false_eq_true, if_false, hm]

theorem State.mediaWrite_enl (s : State) (tier ma : Nat) (m : MLine) : (s.mediaWrite tier ma m).enl = s.enl := by
  unfold State.mediaWrite
  split
  · rw [State.dropDead, State.raise_deferred rfl rfl, State.logRec_enl]
  · rfl

theorem State.storePut_enl (s : State) (k i : Nat) (w : List Nat) : (s.storePut k i w).enl = s.enl := by
  unfold State.storePut
  rw [State.evt_enl, State.mediaWrite_enl]

theorem State.storeDesc_enl (s : State) (r : Nat) : (s.storeDesc r).enl = s.enl := by
  unfold State.storeDesc
  dsimp only
  split
  · exact State.storePut_enl ..
  · rfl

theorem State.storeEnts_enl (s : State) (r i : Nat) : (s.storeEnts r i).enl = s.enl := by
  unfold State.storeEnts
  split
  · exact State.storePut_enl ..
  · rfl

/-- The remap store follows a frame entry; of the Enlarger the entry alone changes. -/
theorem State.putEnt_enl (s : State) (f : Nat) (e : FrameEnt) : (s.putEnt f e).enl = (s.setEnt f e).enl := by
  unfold State.putEnt
  rw [State.evtW_enl, State.storeDesc_enl, State.storeEnts_enl]

theorem State.ent_congr {s t : State} (h : t.enl.frames = s.enl.frames) (f : Nat) : t.ent f = s.ent f := by
  unfold State.ent; rw [h]

theorem State.ent_putEnt_eq (s : State) (f : Nat) (e : FrameEnt) : (s.putEnt f e).ent f = e :=
  (State.ent_congr (congrArg EnlSt.frames (s.putEnt_enl f e)) f).trans (State.ent_setEnt_eq ..)

theorem State.ent_putEnt_ne (s : State) {f g : Nat} (e : FrameEnt) (h : g ≠ f) : (s.putEnt f e).ent g = s.ent g :=
  (State.ent_congr (congrArg EnlSt.frames (s.putEnt_enl f e)) g).trans (State.ent_setEnt_ne _ _ h)

/-- The frame that the next heat visit comes to, as a position in the sweep. -/
def State.heatPos (s : State) : Nat := if s.enl.decayOn then s.enl.decayPos else 0

/-- Halve the heat of a frame that has any. -/
def State.coolFrame (s : State) (f : Nat) : State :=
  if (s.ent f).tier = 3 ∨ (s.ent f).heat = 0 then s else s.putEnt f { s.ent f with heat := (s.ent f).heat / 2 }

theorem State.ent_coolFrame (s : State) (f : Nat) : (s.coolFrame f).ent f =
    if (s.ent f).tier = 3 ∨ (s.ent f).heat = 0 then s.ent f else { s.ent f with heat := (s.ent f).heat / 2 } := by
  unfold State.coolFrame
  split
  · rfl
  · exact State.ent_putEnt_eq ..

theorem State.ent_coolFrame_ne (s : State) {f g : Nat} (h : g ≠ f) : (s.coolFrame f).ent g = s.ent g := by
  unfold State.coolFrame
  split
  · rfl
  · exact State.ent_putEnt_ne _ _ h

theorem State.coolFrame_slots (s : State) (f : Nat) : (s.coolFrame f).enl.slots = s.enl.slots := by
  unfold State.coolFrame
  split
  · rfl
  · rw [State.putEnt_enl]; rfl

/-- The sweep stands at its next frame. -/
def State.sweepTo (s : State) (pos : Nat) : State := { s with enl := { s.enl with decayPos := pos, decayOn := true } }

theorem heatDecayVisitRun_visits {s : State} (hd : s.fget kEnlHeat fEnlHeat_DECAY ≠ 0) (hn : (s.tiered.2 - s.tiered.1) / 4096 ≠ 0)
    (hp : s.fget kPwrPkg fPwrPkg_PS ≠ 2) : heatDecayVisitRun s =
      ((s.coolFrame (s.tiered.1 / 4096 + s.heatPos)).sweepTo ((s.heatPos + 1) % ((s.tiered.2 - s.tiered.1) / 4096))).evt 15 0x50 6 := by
  unfold heatDecayVisitRun
  exact if_neg (by rintro (h | h | h); exacts [hd h, hn h, hp h])

/-- A heat visit halves the heat of one frame, and the sweep goes on (R259). -/
theorem heatDecayVisit_completes {s : State} (hs : s.stopped = false) (hd : s.fget kEnlHeat fEnlHeat_DECAY ≠ 0)
    (hn : (s.tiered.2 - s.tiered.1) / 4096 ≠ 0) (hp : s.fget kPwrPkg fPwrPkg_PS ≠ 2) {f : Nat} (hf : f = s.tiered.1 / 4096 + s.heatPos) :
    Completes .heatDecayVisit s fun t =>
      t.ent f = (if (s.ent f).tier = 3 ∨ (s.ent f).heat = 0 then s.ent f else { s.ent f with heat := (s.ent f).heat / 2 }) ∧
      (∀ g, g ≠ f → t.ent g = s.ent g) ∧ t.enl.decayPos = (s.heatPos + 1) % ((s.tiered.2 - s.tiered.1) / 4096) ∧ t.enl.decayOn = true ∧
      t = { s.coolFrame f with enl := t.enl, pcs := t.pcs, pending := s.pending } ∧ t.enl.slots = s.enl.slots := by
  subst hf
  refine completes_run' (f := heatDecayVisitRun) rfl hs (heatDecayVisitRun_visits hd hn hp) ?_
  rw [State.evt_eq]
  exact ⟨s.ent_coolFrame _, fun g hg => s.ent_coolFrame_ne hg, rfl, rfl, rfl, s.coolFrame_slots _⟩

/-! ### Tiered accesses (R27, R255, R258, R283, R292) -/

/-- An access whose key context is in error meets the fault first. -/
def State.afterFault (s : State) (a : TierAccess) : State := if a.ctxErr then s.keyFault a.key a.dark else s

theorem tieredAccessRun_up {s : State} (a : TierAccess) (h : s.down = false) : tieredAccessRun a s = (s.afterFault a).tieredOk a :=
  if_neg (by simp [h])

/-- An access to a line for which another waits is held behind it. -/
theorem State.tieredOk_behind {u : State} {a : TierAccess} (h : u.enl.held.any (fun b => decide (b.line = a.line)) = true) :
    u.tieredOk a = { u with enl := { u.enl with held := u.enl.held ++ [a] } } := if_pos h

/-- What the home sees of an access that the Enlarger has served, or holds. -/
def State.serveEnd (u : State) (a : TierAccess) : EnlRes → State
  | .wait => u.holdAccess a
  | .deferred => u.emit (.defr 0 a.line)
  | .line d p _ => u.emit (.reply 16 a.line d p false)

theorem State.tieredOk_served {u : State} {a : TierAccess} (h : u.enl.held.any (fun b => decide (b.line = a.line)) = false)
    (h1 : u.t1Access a = none) :
    u.tieredOk a = ((if a.write then u.enlWrite a else u.enlRead a false).2.serveEnd a
      (if a.write then u.enlWrite a else u.enlRead a false).1).zciFlush := by
  unfold State.tieredOk
  rw [if_neg (by rw [h]; exact Bool.false_ne_true), h1]
  rcases (if a.write then u.enlWrite a else u.enlRead a false) with ⟨r, v⟩
  cases r <;> rfl

theorem State.tieredOk_tier1 {u : State} {a : TierAccess} {k : Nat} (h : u.enl.held.any (fun b => decide (b.line = a.line)) = false)
    (h1 : u.t1Access a = some k) : u.tieredOk a = u.t1Send a k := by
  unfold State.tieredOk
  rw [if_neg (by rw [h]; exact Bool.false_ne_true), h1]

/-- The package once a write to tier 1 has been placed in its medium. -/
def State.t1Placed (u : State) (a : TierAccess) : State := if a.write then (u.enlWrite a).2 else u

theorem State.t1Send_eq {u v : State} {a : TierAccess} (k : Nat) (hv : v = u.t1Placed a) : u.t1Send a k =
    { v with fio := { v.fio with tag := v.fio.tag + 1, t1 := v.fio.t1 ++ [⟨v.fio.tag, a, k, some (v.lineSeal a.key a.line)⟩] },
             out := v.out ++ [.portReq (v.t1Port (keyMa k + (a.line % 64) * 64)).1 v.fio.tag (v.t1Port (keyMa k + (a.line % 64) * 64)).2
               a.write (if a.write then (v.mediaRead 1 (keyMa k + (a.line % 64) * 64)).wire else 0) false] } := by
  subst hv; rfl

/-! ### Completions from tier 1 (R302, R348) -/

section
variable {s u : State} {tag : Nat} {x : T1Pend} (hx : s.fio.t1.find? (fun t => t.tag = tag) = some x)
  (hu : u = { s with fio := { s.fio with t1 := s.fio.t1.filter (fun y => y.tag ≠ tag) } }) (data : Line) (poison : Bool)
include hx hu

theorem tier1MemoryCompletionRun_write (hw : x.a.write = true) :
    tier1MemoryCompletionRun tag data poison s = (u.emit (.reply 16 x.a.line 0 false false)).zciFlush := by
  subst hu
  unfold tier1MemoryCompletionRun
  simp only [hx, hw, if_true]
  rfl

theorem tier1MemoryCompletionRun_read (hw : x.a.write = false) {ma : Nat} (hma : ma = keyMa x.k + (x.a.line % 64) * 64) {v : State}
    (hv : v = if poison then u.mediaWrite 1 ma ⟨0, none, true⟩
      else if (u.mediaRead 1 ma).sealed.isNone then u.mediaWrite 1 ma ⟨data, none, false⟩ else u) {d : Line × Bool}
    (hd : d = (v.mediaRead 1 ma).opened (x.sealed.getD (v.lineSeal x.a.key x.a.line))) :
    tier1MemoryCompletionRun tag data poison s =
      (((((v.remapLook (x.a.line / 64) (v.framed (x.a.line / 64 / 512)) x.a.dark).mediaEvt x.k x.a.dark false).evtW x.a.dark 0x52 1).emit
        (.reply 16 x.a.line d.1 d.2 false)).zciFlush) := by
  subst hd hv hma hu
  unfold tier1MemoryCompletionRun
  simp only [hx, hw, Bool.false_eq_true, if_false]
  rfl

end

/-! ### Lanes of the Condenser (R304, R305) -/

section
variable {s : State} {compress : Bool} {j : CdnJob}
  (hj : s.cdnFill.cdn.find? (fun j => decide (j.compress = compress) && j.lane && !s.cdnFill.jobPaused j) = some j)
include hj

theorem segmentCompleteRun_goesOn (h : 65536 < j.left) {u : State} (hu : u = (s.cdnFill.evt 15 0x51 11).evtBy 15 0x51 6 1024) :
    segmentCompleteRun compress s =
      { u with cdn := u.cdn.map (fun x => if x.id = j.id then { x with left := j.left - 65536 } else x) } := by
  subst hu
  unfold segmentCompleteRun
  simp only [hj]
  rw [if_pos h, Nat.min_eq_right (Nat.le_of_lt h)]

theorem segmentCompleteRun_ends (h : j.left ≤ 65536) {o : ZOut} (ho : s.cdnFill.zci.outs.find? (fun o => o.id = j.id) = some o)
    {r : Bool × State} (hr : r = s.cdnFill.cdnEnd j o.z) :
    segmentCompleteRun compress s = if r.1 then ((r.2.evt 15 0x51 11).evtBy 15 0x51 6 (j.left / 64)).zciFlush else r.2 := by
  unfold segmentCompleteRun
  simp only [hj]
  rw [if_neg (Nat.not_lt.mpr h), Nat.min_eq_left h, ho]
  dsimp only
  rw [← hr]
  rcases r with ⟨done, v⟩
  cases done <;> rfl

end

/-- Settles O37, row by row. -/
theorem enlargerEventsComplete : Obligations.EnlargerEventsComplete := by
  unfold Obligations.EnlargerEventsComplete
  refine ⟨fun s n hs hd h => completes_runs hs rfl (migrationSlotFreeRun_free hd h),
    fun s e r hs h hst => evacuationResume_completes hs h hst,
    fun s e r hs h hu => completes_runs hs rfl (evacuationCompleteRun_empty h hu),
    fun s hs hd hn hp => heatDecayVisit_completes hs hd hn hp rfl,
    fun s u a hw hs hd hu => ?access,
    fun s tag data poison x hs hx => ⟨fun hw => completes_runs hs rfl (tier1MemoryCompletionRun_write hx rfl data poison hw),
      fun hw => completes_runs hs rfl (tier1MemoryCompletionRun_read hx rfl data poison hw rfl rfl rfl)⟩,
    fun s compress j hs hj => ⟨fun h => completes_runs hs rfl (segmentCompleteRun_goesOn hj h rfl),
      fun o h ho => completes_runs hs rfl (segmentCompleteRun_ends hj h ho rfl)⟩⟩
  case access =>
    have run : tieredAccessRun a s = u.tieredOk a := by rw [tieredAccessRun_up a hd, hu]; rfl
    refine ⟨fun h => ?behind, fun h h1 => ?served, fun k h h1 => ?tier1⟩
    case behind => exact completes_with rfl hw hs (run.trans (State.tieredOk_behind h))
    case served => exact completes_with rfl hw hs (run.trans (State.tieredOk_served h h1))
    case tier1 => exact completes_with rfl hw hs (run.trans ((State.tieredOk_tier1 h h1).trans (State.t1Send_eq k rfl)))

end Sys2Proof.Machine
end

section
/-! SUPPORT.
Flexible I/O (R41, R102, R340–R346, R352, R355, R360–R362, R591): configuration requests and completions, containment, IDE keys,
port links, Sceuc-X links and the fabric window. -/

namespace Sys2Proof.Machine

/-! ### Configuration requests (R102, R342) -/

theorem configRequestRun_noGroup {s : State} {bus : Nat} (dev off : Nat) (write : Bool) (data : Word) (h : s.busGroup bus = none) :
    configRequestRun bus dev off write data s = s.emit (.config bus dev off (BitVec.allOnes 64) true) := by
  unfold configRequestRun; rw [h]

/-- A register of a port's own lies behind a group's bus, at one of two offsets. -/
theorem State.ownConfig_some {s : State} {bus dev off q : Nat} (h : s.ownConfig bus dev off = some q) :
    (∃ g, s.busGroup bus = some g) ∧ (off = 0x48 ∨ off = 0x68) := by
  obtain ⟨g, hg, h⟩ := Option.bind_eq_some_iff.mp h
  obtain ⟨⟨-, -, -, -, hoff⟩, -⟩ := Option.ite_none_right_eq_some.mp h
  exact ⟨⟨g, hg⟩, hoff⟩

theorem configRequestRun_own {s : State} {bus dev off q : Nat} (write : Bool) (data : Word) (h : s.ownConfig bus dev off = some q) :
    configRequestRun bus dev off write data s =
      if write then s.ctlWrite q off data else (s.ctlRead q off).2.emit (.config bus dev off (s.ctlRead q off).1 false) := by
  obtain ⟨⟨g, hg⟩, -⟩ := State.ownConfig_some h
  unfold configRequestRun; rw [hg, h]

section
variable {s : State} {bus dev off g : Nat} (hg : s.busGroup bus = some g) (ho : s.ownConfig bus dev off = none)
include hg ho

theorem configRequestRun_leaves (write : Bool) (data : Word) (h : s.portState (s.groupPort g) ≠ 3) :
    configRequestRun bus dev off write data s =
      (s.portSend (s.groupPort g) (bus <<< 20 + dev <<< 12 + off) write (BitVec.ofNat 512 data.toNat) false).2 := by
  unfold configRequestRun
  rw [hg, ho]
  exact if_neg h

theorem configRequestRun_contained (data : Word) (h : s.portState (s.groupPort g) = 3) :
    configRequestRun bus dev off false data s = (s.portFail (s.groupPort g)).2.emit
      (.config bus dev off (BitVec.ofNat 64 (s.portFail (s.groupPort g)).1.1.toNat) false) := by
  unfold configRequestRun
  rw [hg, ho]
  exact if_pos h

end

theorem State.portCtl_ctlWrite_ne (s : State) {q p : Nat} (off : Nat) (v : Word) (h : p ≠ q) :
    (s.ctlWrite q off v).portCtl p = s.portCtl p := SMap.get_put_ne _ _ _ h

theorem State.portCtl_ctlWrite (s : State) (q off : Nat) (v : Word) : (s.ctlWrite q off v).portCtl q =
    if off = 0x48 then BitVec.ofNat 3 ((s.portCtl q).toNat / 2 * 2 + bitsOf v 4 1)
    else BitVec.ofNat 3 ((s.portCtl q).toNat % 2 + bitsOf v 8 2 * 2) := SMap.get_put_eq _ _ _ _

theorem bitsOf_lt (v : Word) (lo w : Nat) : bitsOf v lo w < 2 ^ w := Nat.mod_lt _ (Nat.two_pow_pos w)

/-- A write of Device Control sets Enable Relaxed Ordering and keeps the other enables. -/
theorem State.ctlWrite_control (s : State) (q : Nat) (v : Word) :
    ((s.ctlWrite q 0x48 v).portCtl q).toNat = (s.portCtl q).toNat / 2 * 2 + bitsOf v 4 1 := by
  have hb := bitsOf_lt v 4 1
  have hc := (s.portCtl q).isLt
  rw [State.portCtl_ctlWrite, if_pos rfl, BitVec.toNat_ofNat, Nat.mod_eq_of_lt (by omega)]

/-- A write of Device Control 2 sets the two IDO enables and keeps the other. -/
theorem State.ctlWrite_control2 (s : State) (q : Nat) (v : Word) :
    ((s.ctlWrite q 0x68 v).portCtl q).toNat = (s.portCtl q).toNat % 2 + bitsOf v 8 2 * 2 := by
  have hb := bitsOf_lt v 8 2
  rw [State.portCtl_ctlWrite, if_neg (by decide), BitVec.toNat_ofNat, Nat.mod_eq_of_lt (by omega)]

theorem State.ctlRead_snd (s : State) (q off : Nat) : (s.ctlRead q off).2 = { s with free := s.free + 1 } := rfl

/-- Device Control shows Enable Relaxed Ordering in bit 4. -/
theorem State.ctlRead_control (s : State) (q : Nat) : (s.ctlRead q 0x48).1.getLsbD 4 = (s.portCtl q).getLsbD 0 := by
  have key (c : BitVec 3) : (BitVec.ofNat 64 (c.toNat % 2 * 16)).getLsbD 4 = c.getLsbD 0 := by revert c; decide
  unfold State.ctlRead
  simp only [if_true, BitVec.getLsbD_and, BitVec.getLsbD_or, key]
  simp

/-- Device Control 2 shows the two IDO enables in bits 8 and 9. -/
theorem State.ctlRead_control2 (s : State) (q : Nat) :
    (s.ctlRead q 0x68).1.getLsbD 8 = (s.portCtl q).getLsbD 1 ∧ (s.ctlRead q 0x68).1.getLsbD 9 = (s.portCtl q).getLsbD 2 := by
  have key (c : BitVec 3) : (BitVec.ofNat 64 (c.toNat / 2 * 256)).getLsbD 8 = c.getLsbD 1 ∧
      (BitVec.ofNat 64 (c.toNat / 2 * 256)).getLsbD 9 = c.getLsbD 2 := by revert c; decide
  unfold State.ctlRead
  dsimp only
  rw [if_neg (by decide)]
  simp only [BitVec.getLsbD_and, BitVec.getLsbD_or, key]
  simp

/-- A request that leaves takes the next tag, and its event is counted. -/
theorem State.portSend_frame (s : State) (p addr : Nat) (write : Bool) (data : Line) :
    (s.portSend p addr write data false).2 = { s with
      fio := { s.fio with tag := s.fio.tag + 1 }, pcs := (s.portSend p addr write data false).2.pcs,
      out := s.out ++ [.portReq p s.fio.tag addr write data false] } := by
  unfold State.portSend
  dsimp only
  rw [State.evt_eq]
  rfl

/-! ### Completions (R343) -/

/-- A count draws on no free value. -/
theorem State.fresh_evt (s : State) (d b i : Nat) : (s.evt d b i).fresh = (s.fresh.1, { s.fresh.2 with pcs := (s.evt d b i).pcs }) := by
  conv_lhs => rw [State.evt_eq]
  rfl

theorem pcieCompletionRun_success {s : State} {port tag : Nat} {w : Nat × DevWait} (h : s.devWaiter port tag = some w) (data : Word) :
    pcieCompletionRun port tag data true s = (s.evt 15 (0x10 + port / 4) 2).devDone w (BitVec.ofNat 512 data.toNat) false := by
  unfold pcieCompletionRun; rw [h]; rfl

theorem pcieCompletionRun_failure {s : State} {port tag : Nat} {w : Nat × DevWait} (h : s.devWaiter port tag = some w) (data : Word) :
    pcieCompletionRun port tag data false s =
      ({ s.fresh.2 with pcs := (s.evt 15 (0x10 + port / 4) 2).pcs } : State).devDone w (BitVec.ofNat 512 s.fresh.1.toNat) false := by
  unfold pcieCompletionRun
  rw [h]
  simp only [State.fresh_evt, Bool.false_eq_true, if_false]

theorem completionTimeoutRun_waited {s : State} {port tag : Nat} {w : Nat × DevWait} (h : s.devWaiter port tag = some w) :
    completionTimeoutRun port tag s = (s.portFail port).2.devDone w (s.portFail port).1.1 (s.portFail port).1.2 := by
  unfold completionTimeoutRun; rw [h]

/-- A core once one of its device loads has its data. -/
def Core.devGiven (c : Core) (w : DevWait) (x : Line × Bool) : Core :=
  { c with dev := c.dev.map fun (d : DevWait) => if d = w then { d with done := some x } else d }

theorem State.devDone_eq (s : State) (w : Nat × DevWait) (d : Line) (p : Bool) :
    s.devDone w d p = s.setCore w.1 ((s.core w.1).devGiven w.2 (d, p)) := rfl

theorem State.portFail_data (s : State) (p : Nat) :
    (s.portFail p).1 = if s.fon (kFioGcfg (p / 4)) fFioGcfg_CTOPOIS then (0, true) else (BitVec.allOnes 512, false) := by
  unfold State.portFail
  dsimp only
  cases s.fon (kFioGcfg (p / 4)) fFioGcfg_CTOPOIS <;> rfl

/-- A completion gives the load that waits its data; its core alone changes. -/
theorem pcieCompletion_given {s u v : State} {c : Instr} {port : Nat} {f : State → State} {w : Nat × DevWait} {x : Line × Bool}
    (he : exec c s = runs (wfPort port) f s) (hp : port < 32) (hs : s.stopped = false) (hu : u = { v with pcs := u.pcs })
    (hv : v.cores = s.cores) (hq : v.pending = s.pending) (hf : f s = u.devDone w x.1 x.2) :
    Completes c s fun t => t.core w.1 = (s.core w.1).devGiven w.2 x ∧ (∀ n, n ≠ w.1 → t.core n = s.core n) ∧
      t = { v with cores := t.cores, pcs := t.pcs } := by
  have hc (n : Nat) : u.core n = s.core n := by rw [hu]; unfold State.core; rw [← hv]
  have hup : u.pending = s.pending := (congrArg State.pending hu).trans hq
  unfold Completes
  rw [he]
  refine completes_run (decide_eq_true hp) hs (hf.trans (State.devDone_eq ..)) hup ⟨?_, fun n hn => ?_, ?_⟩
  · rw [State.core_setCore_eq, hc]
  · rw [State.core_setCore_ne _ _ hn, hc]
  · rw [hu]; rfl

/-! ### Containment (R344, R345, R591) and IDE keys (R346) -/

theorem kFioPstat_ne_kEvt (port i : Nat) : kFioPstat (port / 4) (port % 4) ≠ kEvt 15 (0x10 + port / 4) i := by
  simp only [kFioPstat, kEvt, pcsKey]; omega

theorem State.portState_evt (s : State) (port i : Nat) :
    (s.evt 15 (0x10 + port / 4) i).portState port = s.portState port := by
  unfold State.portState State.fget
  rw [State.evt_rd_ne _ _ _ _ (kFioPstat_ne_kEvt port i)]

theorem State.setPerst_eq (s : State) (port : Nat) (on : Bool) :
    s.setPerst port on = { s with pins := (s.setPerst port on).pins, out := (s.setPerst port on).out } := by
  unfold State.setPerst
  split <;> rfl

theorem State.portState_setPerst (s : State) (port : Nat) (on : Bool) (p : Nat) : (s.setPerst port on).portState p = s.portState p := by
  rw [State.setPerst_eq]; rfl

theorem State.setPort_frame (s : State) (p st w g : Nat) : s.setPort p st w g = { s with pcs := (s.setPort p st w g).pcs } := rfl

theorem State.rd_setPort_ne (s : State) (p st w g : Nat) {k : Nat} (h : k ≠ kFioPstat (p / 4) (p % 4)) :
    (s.setPort p st w g).rd k = s.rd k := by
  unfold State.setPort
  dsimp only
  rw [State.rd_fput_ne _ _ _ h, State.rd_fput_ne _ _ _ h, State.rd_fput_ne _ _ _ h]

/-- A port that enters containment: its state, its cause, PERST_N and its event (R344, R591). -/
def State.contained (s : State) (port : Nat) (r : BitVec 8) : State :=
  (({ s.setPort port 3 0 0 with fio := { s.fio with dpc := SMap.set s.fio.dpc port r.toNat } } : State).setPerst port true).evt
    15 (0x10 + port / 4) 9

theorem State.portState_contained (s : State) (port : Nat) (r : BitVec 8) : (s.contained port r).portState port = 3 := by
  unfold State.contained
  rw [State.portState_evt, State.portState_setPerst]
  exact setPort_state s port 3 0 0 (by decide)

theorem dpcTriggerRun_root {s : State} {port : Nat} (r : BitVec 8) (hr : s.isRoot (port / 4) = true) (ht : s.portThere port = true)
    (h3 : s.portState port ≠ 3) : dpcTriggerRun port r s =
      (((((s.contained port r).raise { cls := 2, kind := 0x52, agent := port, detail := r.toNat }).failWaiters port).dropInbound
        port).containT1 port) :=
  if_neg (by simp [hr, ht, h3])

theorem dpcReleaseRun_released {s : State} {port : Nat} (h : s.portState port = 3) :
    dpcReleaseRun port none s = { s.setPort port 0 0 0 with fio := { s.fio with dpc := s.fio.dpc.del port } } :=
  if_neg (not_not_intro h)

theorem dpcReleaseRun_retriggered {s : State} {port : Nat} (r : BitVec 8) (h : s.portState port = 3) :
    dpcReleaseRun port (some r) s = { s with fio := { s.fio with dpc := SMap.set s.fio.dpc port r.toNat } } :=
  if_neg (not_not_intro h)

/-- A release takes the port out of containment and forgets the cause; a trigger in the same cycle prevails (R344). -/
theorem dpcRelease_completes {s : State} {port : Nat} (hp : port < 32) (hs : s.stopped = false) (h3 : s.portState port = 3) :
    Completes (.dpcRelease port none) s (fun t =>
      t.portState port = 0 ∧ SMap.find t.fio.dpc port = none ∧ (∀ p, p ≠ port → SMap.find t.fio.dpc p = SMap.find s.fio.dpc p) ∧
      (∀ k, k ≠ kFioPstat (port / 4) (port % 4) → t.rd k = s.rd k) ∧
      t = { s with pcs := t.pcs, fio := { s.fio with dpc := t.fio.dpc } }) ∧
    ∀ r : BitVec 8, Completes (.dpcRelease port (some r)) s fun t =>
      t = { s with fio := { s.fio with dpc := t.fio.dpc } } ∧ SMap.find t.fio.dpc port = some r.toNat := by
  refine ⟨?released, fun r => ?retriggered⟩
  case released =>
    refine completes_run (f := dpcReleaseRun port none) (decide_eq_true hp) hs (dpcReleaseRun_released h3) rfl ?_
    exact ⟨setPort_state s port 0 0 0 (by decide), SMap.find_del_eq _ _, fun p hne => SMap.find_del_ne _ hne,
      fun k hk => State.rd_setPort_ne s port 0 0 0 hk, rfl⟩
  case retriggered =>
    refine completes_run (f := dpcReleaseRun port (some r)) (decide_eq_true hp) hs (dpcReleaseRun_retriggered r h3) rfl ?_
    exact ⟨rfl, SMap.find_set_eq _ _ _⟩

/-- IDE keys of root ports are installed and cleared slot by slot (R346). -/
theorem ideKeys_complete {s : State} {port : Nat} (slot : BitVec 6) (key : BitVec 256) (iv : BitVec 64) (hp : port < 32)
    (hs : s.stopped = false) :
    (s.isRoot (port / 4) = true → Completes (.ideKeyInstall port slot key iv) s fun t =>
      SMap.find t.fio.ide (port * 64 + slot.toNat) = some (key, iv) ∧
      (∀ k, k ≠ port * 64 + slot.toNat → SMap.find t.fio.ide k = SMap.find s.fio.ide k) ∧
      t = { s with fio := { s.fio with ide := t.fio.ide } }) ∧
    Completes (.ideKeyClear port slot) s fun t =>
      SMap.find t.fio.ide (port * 64 + slot.toNat) = none ∧
      (∀ k, k ≠ port * 64 + slot.toNat → SMap.find t.fio.ide k = SMap.find s.fio.ide k) ∧
      t = { s with fio := { s.fio with ide := t.fio.ide } } := by
  refine ⟨fun hr => ?install, ?clear⟩
  case install =>
    refine completes_run (f := ideKeyInstallRun port slot key iv) (decide_eq_true hp) hs (if_neg (by simp [hr])) rfl ?_
    exact ⟨SMap.find_set_eq _ _ _, fun k hk => SMap.find_set_ne _ _ hk, rfl⟩
  case clear =>
    refine completes_run (f := ideKeyClearRun port slot) (decide_eq_true hp) hs rfl rfl ?_
    exact ⟨SMap.find_del_eq _ _, fun k hk => SMap.find_del_ne _ hk, rfl⟩

end Sys2Proof.Machine
end

section
/-! SUPPORT.
Links of Flexible I/O (R41, R339–R342, R352, R355, R359–R362, R425): ports up and down, the Sceuc-X link from its training to its
loss, and the fabric window; with them the rows of the ports are complete. -/

namespace Sys2Proof.Machine

/-! ### Frames of the registers and the outputs -/

theorem rd_out (s : State) (o : List Out) (k : Nat) : ({ s with out := o } : State).rd k = s.rd k := rfl

theorem fget_out (s : State) (o : List Out) (k : Nat) (f : Fld) : ({ s with out := o } : State).fget k f = s.fget k f := rfl

theorem pcsOut_after_out {s u t : State} (h : u = { s with out := u.out }) (h' : t = { u with pcs := t.pcs, out := t.out }) :
    t = { s with pcs := t.pcs, out := t.out } := h'.trans (by rw [h])

theorem pcsOut_pending {s t : State} (h : t = { s with pcs := t.pcs, out := t.out }) : t.pending = s.pending := by rw [h]

/-! ### The state of a Sceuc-X link (R360, R362) -/

theorem State.xWidth_lt (s : State) (g : Nat) : s.xWidth g < 2 ^ fFioXstat_WIDTH.w := by
  unfold State.xWidth
  split
  · decide
  · split <;> decide

/-- A Sceuc-X link enters a state with the width of its good lanes. -/
def State.xSet (s : State) (g st : Nat) : State :=
  (s.fput (kFioXstat g) fFioXstat_STATE st).fput (kFioXstat g) fFioXstat_WIDTH (s.xWidth g)

theorem State.xSet_state (s : State) (g : Nat) {st : Nat} (h : st < 2 ^ fFioXstat_STATE.w) :
    (s.xSet g st).fget (kFioXstat g) fFioXstat_STATE = st := by
  rw [State.xSet, State.fget_fput_ne _ _ _ _ _ (by decide) (by decide), State.fget_fput _ _ _ _ (by decide), Nat.mod_eq_of_lt h]

theorem State.xSet_width (s : State) (g st : Nat) : (s.xSet g st).fget (kFioXstat g) fFioXstat_WIDTH = s.xWidth g := by
  rw [State.xSet, State.fget_fput _ _ _ _ (by decide), Nat.mod_eq_of_lt (s.xWidth_lt g)]

theorem State.rd_xSet_ne (s : State) (g st : Nat) {k : Nat} (h : k ≠ kFioXstat g) : (s.xSet g st).rd k = s.rd k := by
  rw [State.xSet, State.rd_fput_ne _ _ _ h, State.rd_fput_ne _ _ _ h]

/-! ### Port links (R339, R340, R378) -/

section
variable {s : State} {port : Nat} (w : BitVec 8) (gen : BitVec 4)

section
variable (hl : s.fon (kFioGcfg (port / 4)) fFioGcfg_LOCK = true) (hn : s.portLanes port ≠ 0)
include hl hn

/-- Once the role is locked and the port has lanes, the role decides what a trained link does. -/
theorem portLinkUpRun_locked : portLinkUpRun port w gen s = match s.role (port / 4) with
    | 1 | 2 => if s.portState port = 3 ∨ gen = 0#4 ∨ 6 < gen.toNat then s
      else ((s.setPort port 2 (min w.toNat (s.portLanes port)) gen.toNat).setPerst port false).evt 15 (0x10 + port / 4) 6
    | 3 => if gen = 6#4 then (s.setPort port 2 (min w.toNat (s.portLanes port)) 6).setPerst port false else s
    | 4 => match s.lendOfGroup (port / 4) with
      | some fn =>
        if (s.setLf fn { s.lf fn with link := 2 }).lendFrozen fn then s.setLf fn { s.lf fn with link := 2 }
        else (s.setLf fn { s.lf fn with link := 2 }).fput (kLndStat fn) fLndStat_STATE 2
      | none => s
    | 5 => if decide (s.fget (kFioXstat (port / 4)) fFioXstat_STATE = 0) && !s.fio.xdown.contains (port / 4) &&
          decide (s.xWidth (port / 4) > 0) then
        if s.boot.effFixed then (s.xSet (port / 4) 1).sendEffcap (port / 4) else s.xSet (port / 4) 1
      else s
    | _ => s := by
  unfold portLinkUpRun
  exact if_neg (by simp [hl, hn])

theorem portLinkUpRun_root (hr : s.isRoot (port / 4) = true) (h3 : s.portState port ≠ 3) (h1 : 1 ≤ gen.toNat) (h6 : gen.toNat ≤ 6) :
    portLinkUpRun port w gen s =
      ((s.setPort port 2 (min w.toNat (s.portLanes port)) gen.toNat).setPerst port false).evt 15 (0x10 + port / 4) 6 := by
  have h0 : gen ≠ 0#4 := by rintro rfl; exact absurd h1 (by decide)
  have hc : ¬ (s.portState port = 3 ∨ gen = 0#4 ∨ 6 < gen.toNat) := by simp [h3, h0, h6]
  rw [portLinkUpRun_locked w gen hl hn]
  rcases of_decide_eq_true hr with h | h <;> rw [h] <;> exact if_neg hc

theorem portLinkUpRun_fabric (hr : s.role (port / 4) = 3) (hg : gen = 6#4) : portLinkUpRun port w gen s =
    (s.setPort port 2 (min w.toNat (s.portLanes port)) gen.toNat).setPerst port false := by
  rw [portLinkUpRun_locked w gen hl hn, hr]
  subst hg
  exact if_pos rfl

theorem portLinkUpRun_lend {fn : Nat} (hr : s.role (port / 4) = 4) (hf : s.lendOfGroup (port / 4) = some fn) (hz : s.lendFrozen fn = false) :
    portLinkUpRun port w gen s = (s.setLf fn { s.lf fn with link := 2 }).fput (kLndStat fn) fLndStat_STATE 2 := by
  rw [portLinkUpRun_locked w gen hl hn, hr, hf]
  exact if_neg (show ¬ s.lendFrozen fn = true by simp [hz])

theorem portLinkUpRun_socket (hr : s.role (port / 4) = 5) (h0 : s.fget (kFioXstat (port / 4)) fFioXstat_STATE = 0)
    (hd : s.fio.xdown.contains (port / 4) = false) (hx : 0 < s.xWidth (port / 4)) : portLinkUpRun port w gen s =
      if s.boot.effFixed then (s.xSet (port / 4) 1).sendEffcap (port / 4) else s.xSet (port / 4) 1 := by
  rw [portLinkUpRun_locked w gen hl hn, hr]
  exact if_pos (by simp [h0, hx]; simpa using hd)

end

theorem portLinkDownRun_port (hr : s.isRoot (port / 4) = true ∨ s.role (port / 4) = 3) (h3 : s.portState port ≠ 3) :
    portLinkDownRun port s = s.setPort port 0 0 0 := by
  have hr : (s.role (port / 4) = 1 ∨ s.role (port / 4) = 2) ∨ s.role (port / 4) = 3 := hr.imp_left of_decide_eq_true
  unfold portLinkDownRun
  dsimp only
  rcases hr with (h | h) | h <;> rw [h] <;> exact if_neg h3

theorem portLinkDownRun_lend {fn : Nat} (hr : s.role (port / 4) = 4) (hf : s.lendOfGroup (port / 4) = some fn) (hq : (s.lf fn).reqs ≠ []) :
    portLinkDownRun port s = (s.setLf fn { s.lf fn with link := 0 }).lendFreeze fn 5 := by
  unfold portLinkDownRun
  dsimp only
  rw [hr, hf]
  exact if_pos (by simp [hq])

theorem portLinkDownRun_socket (hr : s.role (port / 4) = 5) (h2 : s.fget (kFioXstat (port / 4)) fFioXstat_STATE = 2) :
    portLinkDownRun port s = s.socketDown (port / 4) 0 := by
  unfold portLinkDownRun
  dsimp only
  rw [hr, h2]
  rfl

end

/-! ### Sceuc-X links that train (R41, R360) -/

theorem kMgtEffcap_ne_kFioXstat (g : Nat) : kMgtEffcap ≠ kFioXstat g := by
  simp only [kFioXstat, kMgtEffcap, pcsKey]; omega

/-- A Sceuc-X link that has trained shows its width, and the package sends its set where that is fixed (R41). -/
theorem socketUp_completes {s : State} {port : Nat} (w : BitVec 8) (gen : BitVec 4) (hp : port < 32) (hs : s.stopped = false)
    (hl : s.fon (kFioGcfg (port / 4)) fFioGcfg_LOCK = true) (hn : s.portLanes port ≠ 0) (hr : s.role (port / 4) = 5)
    (h0 : s.fget (kFioXstat (port / 4)) fFioXstat_STATE = 0) (hd : s.fio.xdown.contains (port / 4) = false) (hx : 0 < s.xWidth (port / 4)) :
    Completes (.portLinkUp port w gen) s fun t =>
      t.fget (kFioXstat (port / 4)) fFioXstat_STATE = 1 ∧ t.fget (kFioXstat (port / 4)) fFioXstat_WIDTH = s.xWidth (port / 4) ∧
      (∀ k, k ≠ kFioXstat (port / 4) → t.rd k = s.rd k) ∧ t = { s with pcs := t.pcs, out := t.out } ∧
      t.out = s.out ++ if s.boot.effFixed then [.socketMsg (port / 4) 1 (s.rd kMgtEffcap) 0] else [] := by
  have run : portLinkUpRun port w gen s = { s.xSet (port / 4) 1 with
      out := s.out ++ if s.boot.effFixed then [.socketMsg (port / 4) 1 (s.rd kMgtEffcap) 0] else [] } := by
    rw [portLinkUpRun_socket w gen hl hn hr h0 hd hx]
    split
    · rw [State.sendEffcap, State.rd_xSet_ne _ _ _ (kMgtEffcap_ne_kFioXstat _)]; rfl
    · rw [List.append_nil]; rfl
  refine completes_run (f := portLinkUpRun port w gen) (decide_eq_true hp) hs run rfl ?_
  exact ⟨(fget_out ..).trans (State.xSet_state s _ (by decide)), (fget_out ..).trans (State.xSet_width ..),
    fun k hk => (rd_out ..).trans (State.rd_xSet_ne s _ _ hk), rfl, rfl⟩

/-! ### Sceuc-X links that join (R41, R360, R361, R425) -/

/-- This package has sent its set over a link, or sends it now. -/
def State.xSent (s : State) (g : Nat) : State := if s.fget (kFioXstat g) fFioXstat_STATE = 1 then s else s.sendEffcap g

theorem State.xSent_frame (s : State) (g : Nat) : s.xSent g = { s with out := (s.xSent g).out } := by
  unfold State.xSent
  split <;> rfl

theorem State.rd_xSent (s : State) (g k : Nat) : (s.xSent g).rd k = s.rd k := by rw [State.xSent_frame]; rfl

theorem State.sock_xSent (s : State) (g : Nat) : (s.xSent g).sock = s.sock := by rw [State.xSent_frame]; rfl

theorem State.xWidth_xSent (s : State) (g h : Nat) : (s.xSent g).xWidth h = s.xWidth h := by rw [State.xSent_frame]; rfl

/-- What this package keeps of the Darkroom range that its peer sends. -/
def rangeWord (range : Word) : Word :=
  fWldDrrange_V.put (fWldDrrange_BASE.put (fWldDrrange_TOP.put 0 (fWldDrrange_TOP.get range)) (fWldDrrange_BASE.get range))
    (fWldDrrange_V.get range)

theorem rangeWord_valid (range : Word) : fWldDrrange_V.get (rangeWord range) = fWldDrrange_V.get range := by
  rw [rangeWord, Fld.get_put _ _ _ (by decide), Nat.mod_eq_of_lt (Fld.get_lt _ _)]

theorem rangeWord_base (range : Word) : fWldDrrange_BASE.get (rangeWord range) = fWldDrrange_BASE.get range := by
  rw [rangeWord, Fld.get_put_ne _ _ _ _ (by decide) (by decide), Fld.get_put _ _ _ (by decide), Nat.mod_eq_of_lt (Fld.get_lt _ _)]

theorem rangeWord_top (range : Word) : fWldDrrange_TOP.get (rangeWord range) = fWldDrrange_TOP.get range := by
  rw [rangeWord, Fld.get_put_ne _ _ _ _ (by decide) (by decide), Fld.get_put_ne _ _ _ _ (by decide) (by decide),
    Fld.get_put _ _ _ (by decide), Nat.mod_eq_of_lt (Fld.get_lt _ _)]

/-- A link that joins: the peer's Darkroom range is kept, and this package's is sent. -/
def State.xJoined (s : State) (g j : Nat) (range : Word) : State :=
  ((s.wr (kWldDrrange j) (rangeWord range)).xSet g 2).emit
    (.socketMsg g 2 ((s.wr (kWldDrrange j) (rangeWord range)).rd (kWldDrrange s.sock)) 0)

theorem State.xJoined_frame (s : State) (g j : Nat) (range : Word) : s.xJoined g j range =
    { s with pcs := (s.xJoined g j range).pcs, out := (s.xJoined g j range).out } := rfl

theorem State.xJoined_state (s : State) (g j : Nat) (range : Word) :
    (s.xJoined g j range).fget (kFioXstat g) fFioXstat_STATE = 2 := by
  rw [State.xJoined, State.fget_emit, State.xSet_state _ _ (by decide)]

theorem State.xJoined_width (s : State) (g j : Nat) (range : Word) :
    (s.xJoined g j range).fget (kFioXstat g) fFioXstat_WIDTH = s.xWidth g := by
  rw [State.xJoined, State.fget_emit, State.xSet_width]; rfl

theorem kWldDrrange_ne_kFioXstat {j g : Nat} (hj : j < 4) : kWldDrrange j ≠ kFioXstat g := by
  simp only [kWldDrrange, kFioXstat, pcsKey]; omega

theorem State.rd_xJoined_range (s : State) (g j : Nat) {i : Nat} (hi : i < 4) (range : Word) :
    (s.xJoined g j range).rd (kWldDrrange i) = (s.wr (kWldDrrange j) (rangeWord range)).rd (kWldDrrange i) := by
  rw [State.xJoined, State.rd_emit, State.rd_xSet_ne _ _ _ (kWldDrrange_ne_kFioXstat hi)]

theorem State.rd_xJoined_ne (s : State) (g j : Nat) (range : Word) {k : Nat} (hx : k ≠ kFioXstat g) (hr : k ≠ kWldDrrange j) :
    (s.xJoined g j range).rd k = s.rd k := by
  rw [State.xJoined, State.rd_emit, State.rd_xSet_ne _ _ _ hx, State.rd_wr_ne _ _ hr]

section
variable {s : State} {g : Nat} (ps pp : BitVec 2) (cap : Word) (mode : Bool) (range : Word) (hr : s.role g = 5)
  (hw : s.boot.windowOpen = true) (he : s.boot.effFixed = true) (h2 : s.fget (kFioXstat g) fFioXstat_STATE < 2) (hx : s.xWidth g ≠ 0)
  (hd : s.fio.xdown.contains g = false) (hl : s.home.lost.contains (12 + s.fget (kFioGcfg g) fFioGcfg_PEER) = false)
include hr hw he h2 hx hd hl

/-- The checks of a join, in their order. -/
theorem sceucXJoinRun_checks : sceucXJoinRun g ps pp cap mode range s =
    if ps.toNat ≠ s.fget (kFioGcfg g) fFioGcfg_PEER ∨ pp.toNat ≠ s.sock then
      (s.xSent g).holdSocket g 1 (BitVec.ofNat 64 s.sock) (BitVec.ofNat 64 ps.toNat)
    else if cap ≠ s.rd kMgtEffcap then (s.xSent g).holdSocket g 2 (s.rd kMgtEffcap) cap
    else if mode ≠ s.fon kHaGctl fHaGctl_MODE then
      (s.xSent g).holdSocket g 2 (if s.fon kHaGctl fHaGctl_MODE then 1 else 0) (if mode then 1 else 0)
    else (s.xSent g).xJoined g ps.toNat range := by
  have hgate : ¬ (s.role g ≠ 5 ∨ !s.boot.windowOpen ∨ !s.boot.effFixed ∨ s.fget (kFioXstat g) fFioXstat_STATE ≥ 2 ∨ s.xWidth g = 0 ∨
      s.fio.xdown.contains g ∨ s.home.lost.contains (12 + s.fget (kFioGcfg g) fFioGcfg_PEER)) := by
    rw [hr, hw, he, hd, hl]; simp [hx, h2]
  unfold sceucXJoinRun
  rw [if_neg hgate]
  dsimp only
  rw [show (if s.fget (kFioXstat g) fFioXstat_STATE = 1 then s else s.sendEffcap g) = s.xSent g from rfl]
  simp only [State.fget, State.fon, State.rd_xSent, State.sock_xSent]
  rfl

/-- A link joins where the peer, its set and its mode agree; the ranges are exchanged. -/
theorem sceucXJoin_joins (hg : g < 8) (hs : s.stopped = false) (hps : ps.toNat = s.fget (kFioGcfg g) fFioGcfg_PEER)
    (hpp : pp.toNat = s.sock) (hcap : cap = s.rd kMgtEffcap) (hm : mode = s.fon kHaGctl fHaGctl_MODE) :
    Completes (.sceucXJoin g ps pp cap mode range) s fun t =>
      t.fget (kFioXstat g) fFioXstat_STATE = 2 ∧ t.fget (kFioXstat g) fFioXstat_WIDTH = s.xWidth g ∧
      fWldDrrange_V.get (t.rd (kWldDrrange ps.toNat)) = fWldDrrange_V.get range ∧
      fWldDrrange_BASE.get (t.rd (kWldDrrange ps.toNat)) = fWldDrrange_BASE.get range ∧
      fWldDrrange_TOP.get (t.rd (kWldDrrange ps.toNat)) = fWldDrrange_TOP.get range ∧
      (∀ k, k ≠ kFioXstat g → k ≠ kWldDrrange ps.toNat → t.rd k = s.rd k) ∧ t = { s with pcs := t.pcs, out := t.out } ∧
      t.out = (s.xSent g).out ++ [.socketMsg g 2 (t.rd (kWldDrrange s.sock)) 0] := by
  have run : sceucXJoinRun g ps pp cap mode range s = (s.xSent g).xJoined g ps.toNat range := by
    rw [sceucXJoinRun_checks ps pp cap mode range hr hw he h2 hx hd hl, if_neg (by simp [hps, hpp]), if_neg (by simp [hcap]),
      if_neg (by simp [hm])]
  have hself : ((s.xSent g).xJoined g ps.toNat range).rd (kWldDrrange ps.toNat) = rangeWord range := by
    rw [State.rd_xJoined_range _ _ _ ps.isLt, State.rd_wr_eq]
  have hframe := pcsOut_after_out (s.xSent_frame g) ((s.xSent g).xJoined_frame g ps.toNat range)
  refine completes_run (f := sceucXJoinRun g ps pp cap mode range) (decide_eq_true hg) hs run (pcsOut_pending hframe) ?_
  refine ⟨State.xJoined_state .., ?width, ?valid, ?base, ?top, fun k hk hj => ?others, hframe, ?sent⟩
  case width => rw [State.xJoined_width, State.xWidth_xSent]
  case valid => rw [hself, rangeWord_valid]
  case base => rw [hself, rangeWord_base]
  case top => rw [hself, rangeWord_top]
  case others => rw [State.rd_xJoined_ne _ _ _ _ hk hj, State.rd_xSent]
  case sent =>
    rw [← hpp, State.rd_xJoined_range _ _ _ pp.isLt, hpp, ← s.sock_xSent g]
    rfl

end

/-! ### Sceuc-X links that are up (R362) -/

section
variable {s : State} {g : Nat} (h2 : s.fget (kFioXstat g) fFioXstat_STATE = 2)
include h2

theorem sceucXLaneFailRun_lost {a b : Bool} (h : (a && !s.laneOut g 0 8 || b && !s.laneOut g 8 8) = false) :
    sceucXLaneFailRun g a b s = s.socketDown g 0 := by
  unfold sceucXLaneFailRun
  rw [if_neg (not_not_intro h2)]
  exact if_neg (by rw [h]; exact Bool.false_ne_true)

theorem sceucXLaneFailRun_narrows {a b : Bool} (h : (a && !s.laneOut g 0 8 || b && !s.laneOut g 8 8) = true) {u : State}
    (hu : u = (s.fput (kFioXstat g) fFioXstat_WIDTH 8).evt 15 (0x10 + g) 6) :
    sceucXLaneFailRun g a b s = u.config 9 15 (0x10 + g) [(u.rd (kFioXstat g)).toNat] := by
  subst hu
  unfold sceucXLaneFailRun
  rw [if_neg (not_not_intro h2)]
  exact if_pos h

/-- The replays of a link in a row without progress are counted. -/
def State.xReplays (s : State) (g n : Nat) : State :=
  ({ s with fio := { s.fio with xreps := SMap.put (fun _ => 0) s.fio.xreps g n } } : State).evt 15 (0x10 + g) 7

theorem sceucXReplayRun_progress : sceucXReplayRun g true s = s.xReplays g 0 := by
  unfold sceucXReplayRun
  rw [if_neg (not_not_intro h2)]
  simp only [if_true, if_neg (show ¬ 0 ≥ 8 by decide)]
  rfl

theorem sceucXReplayRun_counts (h : SMap.get (fun _ => 0) s.fio.xreps g < 7) :
    sceucXReplayRun g false s = s.xReplays g (SMap.get (fun _ => 0) s.fio.xreps g + 1) := by
  have h8 : ¬ SMap.get (fun _ => 0) s.fio.xreps g + 1 ≥ 8 := by omega
  unfold sceucXReplayRun
  rw [if_neg (not_not_intro h2)]
  simp only [Bool.false_eq_true, if_false, if_neg h8]
  rfl

/-- The eighth takes the link down. -/
theorem sceucXReplayRun_eighth (h : 7 ≤ SMap.get (fun _ => 0) s.fio.xreps g) :
    sceucXReplayRun g false s = (s.xReplays g 0).socketDown g 4 := by
  have h8 : SMap.get (fun _ => 0) s.fio.xreps g + 1 ≥ 8 := by omega
  unfold sceucXReplayRun
  rw [if_neg (not_not_intro h2)]
  simp only [Bool.false_eq_true, if_false, if_pos h8]
  rfl

end

/-- A replay that does not take the link down changes the count alone. -/
theorem sceucXReplay_completes {s : State} {g n : Nat} {progress : Bool} (hg : g < 8) (hs : s.stopped = false)
    (run : sceucXReplayRun g progress s = s.xReplays g n) : Completes (.sceucXReplay g progress) s fun t =>
      SMap.get (fun _ => 0) t.fio.xreps g = n ∧ t = { s with fio := { s.fio with xreps := t.fio.xreps }, pcs := t.pcs } := by
  rw [State.xReplays, State.evt_eq] at run
  refine completes_run (f := sceucXReplayRun g progress) (decide_eq_true hg) hs run rfl ?_
  exact ⟨SMap.get_put_eq _ _ _ _, rfl⟩

/-! ### The fabric window (R352, R355) -/

/-- An access that its window admits goes out to the endpoint. -/
def State.fabSent (s : State) (a : FabricAccess) (i fa : Nat) : State :=
  { s with
    fio := { s.fio with tag := s.fio.tag + 1, outs := s.fio.outs ++
      [{ tag := s.fio.tag, hpa := a.hpa, entry := i, gen := s.fwtGen i, write := a.write, atom := a.atom, home := false, core := none }] }
    out := s.out ++ [.fabricReq s.fio.tag fa a.write a.atom a.data (BitVec.allOnes 64) false] }

theorem fabricWindowAccessRun_admitted {s : State} {a : FabricAccess} {i fa : Nat} (h : s.fabCheck a.hpa a.write a.atom = some (i, fa)) :
    fabricWindowAccessRun a s = { s.fabSent a i fa with pcs := (fabricWindowAccessRun a s).pcs } := by
  unfold fabricWindowAccessRun State.fabIssue
  rw [h]
  dsimp only
  rw [if_neg Bool.false_ne_true, State.evt_eq]
  rfl

section
variable {s : State} {a : FabricAccess} (h : s.fabCheck a.hpa a.write a.atom = none)
include h

/-- A refused write is dropped as a Deferred error. -/
theorem fabricWindowAccessRun_dropped (hw : a.write = true) (ha : a.atom = false) :
    fabricWindowAccessRun a s = (s.evt 15 0x18 3).deferredErr 0x50 (some a.hpa) none false 0xFFFF := by
  unfold fabricWindowAccessRun State.fabIssue
  rw [h, hw, ha]
  rfl

/-- A refused read or atomic answers poison. -/
theorem fabricWindowAccessRun_poisoned (hr : a.write = false ∨ a.atom = true) :
    fabricWindowAccessRun a s = (s.evt 15 0x18 3).emit (.reply 0 (a.hpa / 64) 0 true false) := by
  have hw : (a.write && !a.atom) = false := by rcases hr with h | h <;> simp [h]
  unfold fabricWindowAccessRun State.fabIssue
  rw [h]
  simp only [hw, Bool.or_false, Bool.false_eq_true, if_false]

end

/-! ### The rows of the ports -/

theorem configRequests_complete (s : State) (bus dev off : Nat) (write : Bool) (data : Word) (hb : bus < 256) (hd : dev < 256)
    (ho : off < 4096) (hs : s.stopped = false) :
    (s.busGroup bus = none → Completes (.configRequest bus dev off write data) s fun t =>
      t = { s with out := s.out ++ [.config bus dev off (BitVec.allOnes 64) true] }) ∧
    (∀ q, s.ownConfig bus dev off = some q →
      Completes (.configRequest bus dev off true data) s (fun t =>
        t = { s with fio := { s.fio with ctl := t.fio.ctl } } ∧ (∀ p, p ≠ q → t.portCtl p = s.portCtl p) ∧
        (off = 0x48 → (t.portCtl q).toNat = (s.portCtl q).toNat / 2 * 2 + bitsOf data 4 1) ∧
        (off = 0x68 → (t.portCtl q).toNat = (s.portCtl q).toNat % 2 + bitsOf data 8 2 * 2)) ∧
      Completes (.configRequest bus dev off false data) s (fun t => ∃ w : Word,
        t = { s with free := t.free, out := s.out ++ [.config bus dev off w false] } ∧
        (off = 0x48 → w.getLsbD 4 = (s.portCtl q).getLsbD 0) ∧
        (off = 0x68 → w.getLsbD 8 = (s.portCtl q).getLsbD 1 ∧ w.getLsbD 9 = (s.portCtl q).getLsbD 2))) ∧
    (∀ g, s.busGroup bus = some g → s.ownConfig bus dev off = none → s.portState (s.groupPort g) ≠ 3 →
      Completes (.configRequest bus dev off write data) s fun t =>
        t.out = s.out ++ [.portReq (s.groupPort g) s.fio.tag (bus <<< 20 + dev <<< 12 + off) write (BitVec.ofNat 512 data.toNat) false] ∧
        t = { s with fio := { s.fio with tag := s.fio.tag + 1 }, pcs := t.pcs, out := t.out }) ∧
    (∀ g, s.busGroup bus = some g → s.ownConfig bus dev off = none → s.portState (s.groupPort g) = 3 →
      Completes (.configRequest bus dev off false data) s fun t =>
        let f := s.portFail (s.groupPort g)
        t = { f.2 with out := f.2.out ++ [.config bus dev off (BitVec.ofNat 64 f.1.1.toNat) false], pending := s.pending }) := by
  have hw : (decide (bus < 256) && decide (dev < 256) && decide (off < 4096)) = true := by simp [hb, hd, ho]
  refine ⟨fun hn => ?noGroup, fun q hq => ⟨?ownWrite, ?ownRead⟩, fun g hg hq h3 => ?leaves, fun g hg hq h3 => ?contained⟩
  case noGroup => exact completes_run (f := configRequestRun bus dev off write data) hw hs (configRequestRun_noGroup _ _ _ _ hn) rfl rfl
  case ownWrite =>
    refine completes_run (f := configRequestRun bus dev off true data) hw hs (configRequestRun_own true data hq) rfl ?_
    exact ⟨rfl, fun p hp => s.portCtl_ctlWrite_ne off data hp, by rintro rfl; exact s.ctlWrite_control q data,
      by rintro rfl; exact s.ctlWrite_control2 q data⟩
  case ownRead =>
    refine completes_run (f := configRequestRun bus dev off false data) hw hs (configRequestRun_own false data hq) rfl ?_
    exact ⟨(s.ctlRead q off).1, rfl, by rintro rfl; exact s.ctlRead_control q, by rintro rfl; exact s.ctlRead_control2 q⟩
  case leaves =>
    refine completes_run (f := configRequestRun bus dev off write data) hw hs
      ((configRequestRun_leaves hg hq write data h3).trans (State.portSend_frame ..)) rfl ?_
    exact ⟨rfl, rfl⟩
  case contained => exact completes_with rfl hw hs (configRequestRun_contained hg hq data h3)

/-- Settles O39, row by row. -/
theorem portCommandsComplete : Obligations.PortCommandsComplete := by
  unfold Obligations.PortCommandsComplete
  refine ⟨⟨configRequests_complete, fun s port tag data w hp hs hw => ?completions, fun s port r hp hs hr ht h3 => ?dpc,
    fun s port hp hs h3 => dpcRelease_completes hp hs h3, fun s port slot key iv hp hs => ideKeys_complete slot key iv hp hs⟩,
    fun s port w gen hp hs hl hn => ?up, fun s port hp hs => ?down, fun s g hg hs h2 => ?socket,
    fun s g ps pp cap mode range hg hs hr hw he h2 hx hd hl => ?join, fun s a hw hs => ?fabric⟩
  case completions =>
    refine ⟨?success, ?failure, ?timeout⟩
    case success =>
      exact pcieCompletion_given rfl hp hs (s.evt_eq _ _ _) rfl rfl (pcieCompletionRun_success hw data)
    case failure =>
      exact pcieCompletion_given rfl hp hs rfl rfl rfl (pcieCompletionRun_failure hw data)
    case timeout =>
      exact completes_run' (f := completionTimeoutRun port tag) (decide_eq_true hp) hs (completionTimeoutRun_waited hw)
        ⟨rfl, s.portFail_data port⟩
  case dpc =>
    exact completes_run' (f := dpcTriggerRun port r) (decide_eq_true hp) hs (dpcTriggerRun_root r hr ht h3)
      ⟨s.portState_contained port r, rfl⟩
  case up =>
    have hok : wfPort port = true := decide_eq_true hp
    refine ⟨fun hr h3 h1 h6 => ⟨setPort_state s port 2 _ _ (by decide),
        completes_with rfl hok hs (portLinkUpRun_root w gen hl hn hr h3 h1 h6)⟩,
      fun hr hg => ⟨setPort_state s port 2 _ _ (by decide), completes_with rfl hok hs (portLinkUpRun_fabric w gen hl hn hr hg)⟩,
      fun fn hr hf hz => completes_run (f := portLinkUpRun port w gen) hok hs (portLinkUpRun_lend w gen hl hn hr hf hz) rfl rfl,
      fun hr h0 hd hx => socketUp_completes w gen hp hs hl hn hr h0 hd hx⟩
  case down =>
    have hok : wfPort port = true := decide_eq_true hp
    exact ⟨fun hr h3 => completes_run (f := portLinkDownRun port) hok hs (portLinkDownRun_port hr h3) rfl
        ⟨rfl, setPort_state s port 0 0 0 (by decide)⟩,
      fun fn hr hf hq => completes_with rfl hok hs (portLinkDownRun_lend hr hf hq),
      fun hr h2 => completes_with rfl hok hs (portLinkDownRun_socket hr h2)⟩
  case socket =>
    have hok : wfGroup g = true := decide_eq_true hg
    exact ⟨completes_with (f := sceucXLockTimeoutRun g) rfl hok hs (if_neg (not_not_intro h2)),
      fun a b h => completes_with rfl hok hs (sceucXLaneFailRun_lost h2 h),
      fun a b h => completes_with rfl hok hs (sceucXLaneFailRun_narrows h2 h rfl),
      sceucXReplay_completes hg hs (sceucXReplayRun_progress h2),
      fun h => sceucXReplay_completes hg hs (sceucXReplayRun_counts h2 h),
      fun h => completes_with rfl hok hs (sceucXReplayRun_eighth h2 h)⟩
  case join =>
    have hok : wfGroup g = true := decide_eq_true hg
    have run := sceucXJoinRun_checks ps pp cap mode range hr hw he h2 hx hd hl
    exact ⟨fun hps hpp hcap hm => sceucXJoin_joins ps pp cap mode range hr hw he h2 hx hd hl hg hs hps hpp hcap hm,
      fun h => completes_with rfl hok hs (run.trans (if_pos h)),
      fun hps hpp hcap => completes_with rfl hok hs (run.trans ((if_neg (by simp [hps, hpp])).trans (if_pos hcap))),
      fun hps hpp hcap hm => completes_with rfl hok hs
        (run.trans ((if_neg (by simp [hps, hpp])).trans ((if_neg (by simp [hcap])).trans (if_pos hm))))⟩
  case fabric =>
    refine ⟨fun i fa h => ?admitted, fun h => ⟨fun hr ha => completes_with rfl hw hs (fabricWindowAccessRun_dropped h hr ha),
      fun hr => completes_with rfl hw hs (fabricWindowAccessRun_poisoned h hr)⟩⟩
    case admitted =>
      exact completes_run (f := fabricWindowAccessRun a) hw hs (fabricWindowAccessRun_admitted h) rfl ⟨rfl, rfl, rfl⟩

end Sys2Proof.Machine
end

section
/-! SUPPORT.
The step of the queue, and the arithmetic of the atomics as operations on bit vectors (R75, R105). -/

namespace Sys2Proof.Machine

/-! ### The step -/

/-- On an empty queue the tick passes, and the queue stays empty (log 1). -/
theorem step_of_pending_nil {s : State} (h : s.pending = []) : step s = .next { s.tick with pending := [] } := by
  unfold step
  rw [h]
  exact congrArg (fun p : List Instr => (Host.Outcome.next { s.tick with pending := p } : Res)) h

/-- Settles O1, by the two forms of the queue. -/
theorem stepRunsCommand : Obligations.StepRunsCommand :=
  ⟨fun _ _ _ h => step_of_pending_cons h, fun _ h => step_of_pending_nil h⟩

/-! ### The arithmetic of the atomics -/

/-- The signed reading of an operand, as the model's comparisons make it. -/
theorem signed_eq_toInt {n : Nat} (hn : n = 4 ∨ n = 8) (a : BitVec (8 * n)) :
    (if a.toNat ≥ 2 ^ (8 * n) / 2 then (a.toNat : Int) % ((2 ^ (8 * n) : Nat) : Int) - ((2 ^ (8 * n) : Nat) : Int)
      else (a.toNat : Int)) = a.toInt := by
  have ha := a.isLt
  rw [BitVec.toInt_eq_toNat_cond]
  obtain rfl | rfl := hn <;> (split <;> split) <;> omega

/-- A choice between two vectors, made on their numbers. -/
theorem ofNat_ite_toNat {w : Nat} (p : Prop) [Decidable p] (a b : BitVec w) :
    BitVec.ofNat w (if p then a.toNat else b.toNat) = if p then a else b := by
  split <;> simp

/-- Settles O15, operation by operation. -/
theorem atomicArithmetic : Obligations.AtomicArithmetic := by
  intro n hn a b c
  have ha := Nat.mod_eq_of_lt a.isLt
  have hb := Nat.mod_eq_of_lt b.isLt
  have hc := Nat.mod_eq_of_lt c.isLt
  simp only [amoCompute, ha, hb, hc, signed_eq_toInt hn, Nat.min_def, ofNat_ite_toNat, ← BitVec.toNat_inj]
  refine ⟨?swap, ?add, ?and, ?or, ?xor, ?min, ?max, ?umin, ?umax, ?cas⟩
  case swap | add => simp
  case and => rw [BitVec.toNat_and, BitVec.toNat_ofNat, Nat.mod_eq_of_lt (Nat.and_lt_two_pow _ b.isLt)]
  case or => rw [BitVec.toNat_or, BitVec.toNat_ofNat, Nat.mod_eq_of_lt (Nat.or_lt_two_pow a.isLt b.isLt)]
  case xor => rw [BitVec.toNat_xor, BitVec.toNat_ofNat, Nat.mod_eq_of_lt (Nat.xor_lt_two_pow a.isLt b.isLt)]
  case min | max | umin | cas => trivial
  case umax => rw [Nat.max_comm, Nat.max_def, ofNat_ite_toNat]

end Sys2Proof.Machine
end

section
/-! SUPPORT.
The order of an instruction's checks (R55, R56, R60, R62): fetch, encoding, guard, and the checks after it. -/

namespace Sys2Proof.Machine

/-! ### The checks that an instruction names -/

/-- An exception that a check raises: it saves the address of its instruction, as calls do not (R59). -/
def Trap.Faults (e : Trap) : Prop := ¬ (e.cause = cScall ∨ e.cause = cHcall ∨ e.cause = cDcall)

theorem Trap.faults_of_cause {e : Trap} {n : Nat} (h : e.cause = n) (hn : n < cScall ∨ cIrq ≤ n) : e.Faults := by
  unfold Trap.Faults
  simp only [cScall, cHcall, cDcall, cIrq] at *
  omega

theorem State.srTrap_faults {s : State} {n sr : Nat} {w : Bool} {e : Trap} (h : s.srTrap n sr w = some e) : e.Faults := by
  have key : e.cause = cUndef ∨ e.cause = cPriv := by
    unfold State.srTrap at h
    dsimp only at h
    split at h
    · cases h; exact .inl rfl
    · split at h
      · cases h; exact .inl rfl
      · split at h <;> split at h
        · cases h; exact .inl rfl
        · split at h
          · split at h <;> cases h; exact .inr rfl
          · cases h
        · cases h; exact .inl rfl
        · split at h <;> cases h; exact .inr rfl
  rcases key with h | h <;> exact Trap.faults_of_cause h (by decide)

theorem State.flushTrap_faults {s : State} {n l : Nat} {e : Trap} (h : s.flushTrap n l = some e) : e.Faults := by
  unfold State.flushTrap at h
  dsimp only at h
  split at h <;> cases h
  exact Trap.faults_of_cause (n := cPriv) rfl (by decide)

theorem State.alignEarly_faults {s : State} {x : Insn} {ra rn : Reg} {m : Nat} {e : Trap} (h : s.alignEarly x ra rn m = some e) : e.Faults := by
  unfold State.alignEarly State.alignTrap at h
  split at h
  · cases h
  · split at h <;> cases h
    exact Trap.faults_of_cause (n := cMisal) rfl (by decide)

/-- Which checks of a state register and of alignment the instructions name. -/
theorem insnOf_checks {s : State} {c : Instr} {x : Insn} {k : Chk} (h : insnOf s c = some (x, k)) :
    (k.sys = none ∨ (∃ sr w, k.sys = s.srTrap x.core sr w) ∨ ∃ l, k.sys = s.flushTrap x.core l) ∧
      (k.align = none ∨ ∃ ra rn m, k.align = s.alignEarly x ra rn m) := by
  cases c with
  | loadInsn y m | storeInsn y m =>
    simp only [insnOf] at h
    split at h <;> cases h
    exact ⟨.inl rfl, .inl rfl⟩
  | mfsr | mtsr | ipiSend | atomctlClr | extclaim => cases h; exact ⟨.inr (.inl ⟨_, _, rfl⟩), .inl rfl⟩
  | wflush => cases h; exact ⟨.inr (.inr ⟨_, rfl⟩), .inl rfl⟩
  | cmorClean | cmorCleaninv | cmorInval | tlbir | tlbirIpa | amoSwap | amoAdd | amoAnd | amoOr | amoXor | amoMin | amoMax | amoUmin
  | amoUmax | cas | cas128 => cases h; exact ⟨.inl rfl, .inr ⟨_, _, _, rfl⟩⟩
  | _ => cases h <;> exact ⟨.inl rfl, .inl rfl⟩

theorem insnOf_trap_faults {s u : State} {c : Instr} {x : Insn} {k : Chk} {e : Trap} (h : insnOf s c = some (x, k))
    (ht : u.insnTrap x k = some e) : e.Faults := by
  obtain ⟨hs, ha⟩ := insnOf_checks h
  refine insnTrap_cause ⟨fun e he => ?_, fun e he => ?_⟩ ht
  · rcases hs with hs | ⟨_, _, hs⟩ | ⟨_, hs⟩ <;> rw [hs] at he
    · cases he
    · exact State.srTrap_faults he
    · exact State.flushTrap_faults he
  · rcases ha with ha | ⟨_, _, _, ha⟩ <;> rw [ha] at he
    · cases he
    · exact State.alignEarly_faults he

/-! ### An instruction as far as its checks -/

section
variable {s u : State} {x : Insn} {k : Chk} {body : State → Got (Option Word) × State} {e : Trap}
  (hr : s.coreReady x.core = true) (hw : (s.core x.core).waiting = false) (he : x.err = none)
include hr hw he

theorem State.insn_fetch_trap (hf : s.fetch x = (.trap e, u)) (hc : e.Faults) :
    s.insn x k body = u.takeTrap x.core e (s.core x.core).pc x.len := by
  simp only [State.insn, he, State.arraysCheck, hr, State.awake, hw, hf, Bool.not_true, Bool.not_false, Bool.false_eq_true, if_true, if_false,
    if_neg hc]

variable (hf : s.fetch x = (.ok (), u))
include hf

theorem State.insn_invalid (hv : validInsn x k = false) : s.insn x k body = u.takeTrap x.core undefTrap (s.core x.core).pc x.len := by
  simp only [State.insn, he, State.arraysCheck, hr, State.awake, hw, hf, hv, Bool.not_true, Bool.not_false, Bool.false_eq_true, if_true, if_false]
  rfl

variable (hv : validInsn x k = true)
include hv

theorem State.insn_guarded (hg : u.pr x.core x.pred = x.neg) : s.insn x k body = u.finishInsn x (s.core x.core).pc none := by
  simp only [State.insn, he, State.arraysCheck, hr, State.awake, hw, hf, hv, hg, Bool.not_true, Bool.not_false, Bool.false_eq_true, if_true,
    if_false, beq_self_eq_true]

theorem State.insn_checked (hg : u.pr x.core x.pred ≠ x.neg) (ht : u.insnTrap x k = some e) (hc : e.Faults) :
    s.insn x k body = u.takeTrap x.core e (s.core x.core).pc x.len := by
  simp only [State.insn, he, State.arraysCheck, hr, State.awake, hw, hf, hv, ht, beq_eq_false_iff_ne.mpr hg, Bool.not_true, Bool.not_false,
    Bool.false_eq_true, if_true, if_false, if_neg hc]

end

/-- Settles O5: each check in its turn, on the one form that instruction rows have. -/
theorem instructionChecksComeFirst : Obligations.InstructionChecksComeFirst := by
  intro s c x k hi hwf hs hr hw he
  obtain ⟨f, body, hx, hb⟩ := insn_shape hi
  have done : ∀ {u : State}, s.insn x k body = u → Completes c s fun t => t = { u with pending := s.pending } := fun hu => by
    unfold Completes
    rw [hx]
    exact completes_run' hwf hs (hb.trans hu) rfl
  have fetch : ∀ u e, s.fetch x = (.trap e, u) → e.cause = cFetch ∨ e.cause = cPoison → Completes c s fun t =>
      t = { u.takeTrap x.core e (s.core x.core).pc x.len with pending := s.pending } := fun u e hf hc =>
    done (State.insn_fetch_trap hr hw he hf (by rcases hc with h | h <;> exact Trap.faults_of_cause h (by decide)))
  refine ⟨fun y a i hf => ?fault, fun hf => ?poison, fetch, fun u hf => ⟨fun hv => ?encoding, fun hv hg => ?guard, fun hv hg e ht => ?checks⟩,
    fun hf hv hg => ?skipped⟩
  case fault => exact fetch s _ (by unfold State.fetch; rw [hf]) (.inl rfl)
  case poison => exact fetch s _ (by unfold State.fetch; rw [hf]) (.inr rfl)
  case encoding => exact done (State.insn_invalid hr hw he hf hv)
  case guard => exact done (State.insn_guarded hr hw he hf hv hg)
  case checks => exact done (State.insn_checked hr hw he hf hv hg ht (insnOf_trap_faults hi ht))
  case skipped =>
    have hok : s.fetch x = (.ok (), s) := by unfold State.fetch; rw [hf]
    unfold Completes
    rw [hx]
    refine completes_run hwf hs (hb.trans (State.insn_guarded hr hw he hok hv hg)) (State.finishInsn_pending ..) ?_
    exact ⟨State.finishInsn_coreOnly rfl (fun _ _ => rfl) none, State.core_finishInsn ..⟩

end Sys2Proof.Machine
end

section
/-! SUPPORT.
Calls, breaks and interrupts (R59–R64, R430, R435): each takes its exception at the level that Table 2-6 and R64 give. -/

namespace Sys2Proof.Machine

/-! ### The level and the world of an exception -/

/-- An exception with no level and no IPA of its own goes to S, or stays at a higher level; H of the Darkroom is M (R60, R435). -/
theorem State.trapLevel_default (s : State) (n : Nat) {e : Trap} (ht : e.target = none) (hi : e.ipa = none) :
    s.trapLevel n e =
      if max (s.core n).level 1 = 2 ∧ (s.core n).darkW = true then 3 else max (s.core n).level 1 := by
  unfold State.trapLevel
  simp only [ht, hi, Option.isSome_none, Bool.false_eq_true, false_and, if_false]

theorem State.trapLevel_target (s : State) (n : Nat) {e : Trap} {l : Nat} (ht : e.target = some l) :
    s.trapLevel n e = if l = 2 ∧ (s.core n).darkW = true then 3 else l := by
  unfold State.trapLevel
  simp only [ht]

theorem State.TrapTaken.frame {s t : State} {n l len : Nat} {e : Trap} {epc : Word} (h : s.TrapTaken t n e l epc len) :
    t = { s with cores := t.cores, pcs := t.pcs } := by
  obtain ⟨-, -, -, -, -, -, -, -, -, -, -, -, -, hf, -⟩ := h
  exact hf

/-- An entry at M on a compute core is in the Darkroom world (R430). -/
theorem State.TrapTaken.darkroom {s t : State} {n len : Nat} {e : Trap} {epc : Word} (h : s.TrapTaken t n e 3 epc len) (hn : n < 216) :
    (t.core n).darkW = true ∧ (t.core n).level = 3 := by
  obtain ⟨-, -, -, -, -, hst, -⟩ := h
  have hd : s.trapDark n 3 = true := by
    unfold State.trapDark
    rw [if_neg (by omega)]
    rfl
  rw [hd] at hst
  exact dark_of_status (by decide) hst

/-- An instruction that passes its checks is not undefined. -/
theorem State.Executes.defined {s : State} {x : Insn} {k : Chk} (h : s.Executes x k) : k.undef = false := by
  obtain ⟨-, -, -, -, -, -, -, ht, -⟩ := h
  cases hu : k.undef
  · rfl
  · simp [State.insnTrap, hu] at ht

/-! ### The rows -/

theorem scall_completes (s : State) (x : Insn) (imm : BitVec 16) (h : s.Executes x { gpr := false }) (hf : s.freeFrames x.core ≠ 0) :
    Completes (.scall x imm) s fun t =>
      ∃ l, (l = if max (s.core x.core).level 1 = 2 ∧ (s.core x.core).darkW then 3 else max (s.core x.core).level 1) ∧
        s.TrapTaken t x.core { cause := 0x10, syn := imm.toNat } l (s.nextPc x) x.len := by
  obtain ⟨t, he, ht⟩ := trap_completes (e := { cause := cScall, syn := imm.toNat }) h hf rfl
  rw [if_pos (.inl rfl)] at ht
  exact ⟨t, he, _, State.trapLevel_default s x.core rfl rfl, ht⟩

theorem brk_completes (s : State) (x : Insn) (imm : BitVec 16) (h : s.Executes x { gpr := false }) (hf : s.freeFrames x.core ≠ 0) :
    Completes (.brk x imm) s fun t =>
      ∃ l, (l = if max (s.core x.core).level 1 = 2 ∧ (s.core x.core).darkW then 3 else max (s.core x.core).level 1) ∧
        s.TrapTaken t x.core { cause := 0x14, syn := imm.toNat } l (s.core x.core).pc x.len := by
  obtain ⟨t, he, ht⟩ := trap_completes (e := { cause := cBrk, syn := imm.toNat }) h hf rfl
  rw [if_neg (show ¬ (cBrk = cScall ∨ cBrk = cHcall ∨ cBrk = cDcall) by decide)] at ht
  exact ⟨t, he, _, State.trapLevel_default s x.core rfl rfl, ht⟩

theorem hcall_completes (s : State) (x : Insn) (imm : BitVec 16)
    (h : s.Executes x { gpr := false, undef := decide ((s.core x.core).level = 0) || (s.core x.core).darkW || decide (x.core ≥ 216) })
    (hf : s.freeFrames x.core ≠ 0) :
    Completes (.hcall x imm) s fun t => s.TrapTaken t x.core { cause := 0x11, syn := imm.toNat, target := some 2 } 2 (s.nextPc x) x.len := by
  obtain ⟨t, he, ht⟩ := trap_completes (e := { cause := cHcall, syn := imm.toNat, target := some 2 }) h hf rfl
  have hd : (s.core x.core).darkW = false := by
    have := h.defined
    simp only [Bool.or_eq_false_iff] at this
    exact this.1.2
  rw [if_pos (.inr (.inl rfl)), State.trapLevel_target s x.core rfl, hd, if_neg (by simp)] at ht
  exact ⟨t, (run_congr rfl).trans he, ht⟩

theorem dcall_completes (s : State) (x : Insn) (imm : BitVec 16)
    (h : s.Executes x { gpr := false, undef := decide ((s.core x.core).level = 0) || decide (x.core ≥ 216) || !s.fon kWldCtl fWldCtl_MONEN })
    (hf : s.freeFrames x.core ≠ 0) :
    Completes (.dcall x imm) s fun t =>
      s.TrapTaken t x.core { cause := 0x12, syn := imm.toNat, target := some 3 } 3 (s.nextPc x) x.len ∧
      (t.core x.core).darkW = true ∧ (t.core x.core).level = 3 := by
  obtain ⟨t, he, ht⟩ := trap_completes (e := { cause := cDcall, syn := imm.toNat, target := some 3 }) h hf rfl
  have hn : x.core < 216 := by
    have := h.defined
    simp only [Bool.or_eq_false_iff, decide_eq_false_iff_not] at this
    exact Nat.lt_of_not_ge this.1.2
  rw [if_pos (.inr (.inr rfl)), State.trapLevel_target s x.core rfl, if_neg (by omega)] at ht
  exact ⟨t, (run_congr rfl).trans he, ht, ht.darkroom hn⟩

/-- An interrupt that may be taken now, between instructions (R63, R64). -/
theorem interruptRun_takes {s : State} {n code d l : Nat} {rest : List (Nat × Nat)} (hr : s.coreReady n = true)
    (hw : (s.core n).waiting = false) (hm : s.midInsn n = false) (hi : s.irqs n = (code, d) :: rest) (hl : s.irqLevel n = some l) :
    interruptRun n s = s.takeTrap n { cause := cIrq, syn := code - 1, target := some l } (s.core n).pc 0 := by
  unfold interruptRun State.awake
  simp [hr, hm, hi, hl, hw]

theorem interrupt_completes (s : State) (n code d l : Nat) (rest : List (Nat × Nat)) (hn : wfCore n = true) (hs : s.stopped = false)
    (hr : s.coreReady n = true) (hw : (s.core n).waiting = false) (hm : s.midInsn n = false) (hf : s.freeFrames n ≠ 0)
    (hi : s.irqs n = (code, d) :: rest) (hl : s.irqLevel n = some l) :
    Completes (.interrupt n) s fun t => s.TrapTaken t n { cause := 0x18, syn := code - 1, target := some l }
      (if l = 2 ∧ (s.core n).darkW then 3 else l) (s.core n).pc 0 := by
  have ht := s.takeTrap_taken n { cause := cIrq, syn := code - 1, target := some l } (s.core n).pc 0 hf
  rw [State.trapLevel_target s n rfl] at ht
  exact completes_run hn hs (interruptRun_takes hr hw hm hi hl) (by rw [ht.frame]) ht

/-- Settles O8, row by row. -/
theorem trapInstructionsComplete : Obligations.TrapInstructionsComplete :=
  ⟨scall_completes, hcall_completes, dcall_completes, brk_completes, interrupt_completes⟩

end Sys2Proof.Machine
end

section
/-! SUPPORT.
The window ring (R46–R50, R72, R79): calls and returns, spills that make room, flushes, and moves between a window and its parent. -/

namespace Sys2Proof.Machine

/-! ### The ring -/

theorem frames_cases (n : Nat) : frames n = 16 ∨ frames n = 8 := by unfold frames; split <;> simp

theorem spillUntil_free {s : State} {n k : Nat} (h : k ≤ s.freeFrames n) : State.spillUntil (frames n) s n k = (.ok (), s) := by
  obtain ⟨f, hf⟩ := frames_pos n
  rw [hf]
  exact spill_none f s n k h

theorem State.parentWin_compute (s : State) {n : Nat} (hn : n < 216) : s.parentWin n = ((s.core n).cwp + 15) % 16 := by
  unfold State.parentWin frames
  rw [if_pos hn]; rfl

theorem State.slide_win (s : State) (n own : Nat) : ((s.slide n own).core n).win =
    zeroWin (zeroWin (s.core n).win (((s.core n).cwp + 1) % frames n) 8) (((s.core n).cwp + 2) % frames n) 0 := by
  simp only [State.slide, State.core_setCore_eq]

/-- The m registers and the t-frame of a window just entered read as zero (R47). -/
theorem State.slide_regAt_high (s : State) (n own : Nat) {r : Nat} (h1 : 16 ≤ r) (h2 : r < 32) :
    (s.slide n own).regAt n r (((s.core n).cwp + 1) % frames n) = 0 := by
  unfold State.regAt
  dsimp only
  rw [if_neg (by omega), if_neg (by omega), s.slide_win, zeroWin_get, zeroWin_get]
  have hT : (((s.core n).cwp + 1) % frames n + 1) % frames n = ((s.core n).cwp + 2) % frames n := by rw [Nat.mod_add_mod]
  unfold physReg
  by_cases h24 : r < 24
  · rw [if_pos h24]
    have hm : (16 * (((s.core n).cwp + 1) % frames n) + (r - 8)) / 16 = ((s.core n).cwp + 1) % frames n ∧
        8 ≤ (16 * (((s.core n).cwp + 1) % frames n) + (r - 8)) % 16 := by omega
    rw [if_pos hm]
    split <;> rfl
  · rw [if_neg h24, hT, if_pos (by omega)]

/-- The registers that all windows share stand through a slide. -/
theorem State.slide_regAt_global (s : State) (n own : Nat) {r : Nat} (h : r < 8) (w w' : Nat) :
    (s.slide n own).regAt n r w = s.regAt n r w' := by
  simp only [State.regAt, h, if_true]
  rw [State.core_slide]

theorem State.core_unslide (s : State) (n : Nat) :
    (s.unslide n).core n = { s.core n with cwp := s.parentWin n, owners := ((s.unslide n).core n).owners } := by
  simp only [State.unslide, State.core_setCore_eq]

theorem State.unslide_regAt (s : State) (n r w : Nat) : (s.unslide n).regAt n r w = s.regAt n r w := by
  simp only [State.regAt]; rw [State.core_unslide]

theorem State.unslide_pr (s : State) (n : Nat) (p : PReg) : (s.unslide n).pr n p = s.pr n p := by
  simp only [State.pr]; rw [State.core_unslide]

/-! ### Calls (R46, R47) -/

/-- The address after a call, which the callee finds in n7. -/
def State.backOf (u : State) (x : Insn) : Word := pcOf ((u.core x.core).pc + BitVec.ofNat 64 x.len)

/-- The state of a call after its spills: the window is the callee's, and n7 holds the return address. -/
def State.called (u : State) (x : Insn) : State :=
  let v := u.slide x.core (u.core x.core).self
  v.setRegAt x.core 15 (v.core x.core).cwp (u.backOf x)

theorem State.callTo_eq {s u : State} {x : Insn} (tgt : Word) (h : State.spillUntil (frames x.core) s x.core 3 = (.ok (), u)) :
    s.callTo x tgt = (.ok (some tgt), u.called x) := by
  unfold State.callTo
  dsimp only
  rw [h]
  rfl

/-- CALL and CALLR end in the state of the call, at its target; `u` is the state after the spills. -/
theorem callTo_completes {s u : State} {x : Insn} {k : Chk} {c : Instr} {tgt : State → Word} {P : State → Prop} (h : s.Executes x k)
    (hc : exec c s = runs x.wf (fun s => s.insn x k fun s => s.callTo x (tgt s)) s)
    (hu : State.spillUntil (frames x.core) s x.core 3 = (.ok (), u))
    (hP : P { (u.called x).finishInsn x (s.core x.core).pc (some (tgt s)) with pending := s.pending }) : Completes c s P := by
  unfold Completes
  rw [hc]
  exact completes_ok' h (State.callTo_eq _ hu) hP

section
variable (u : State) (x : Insn) (pc : Word) (g : Option Word)

theorem State.called_cwp : ((u.called x).core x.core).cwp = ((u.core x.core).cwp + 1) % frames x.core := by
  unfold State.called
  rw [State.core_setRegAt]
  show ((u.slide x.core (u.core x.core).self).core x.core).cwp = _
  rw [State.core_slide]

theorem State.called_frame : u.called x = { u with cores := (u.called x).cores } := by
  unfold State.called
  rw [State.setRegAt_eq, State.slide_eq]
  rfl

theorem State.called_core_ne {m : Nat} (hm : m ≠ x.core) : (u.called x).core m = u.core m :=
  (State.core_setRegAt_ne _ _ _ _ _ hm).trans (State.core_setCore_ne _ _ hm)

theorem State.called_end_cwp : (((u.called x).finishInsn x pc g).core x.core).cwp = ((u.core x.core).cwp + 1) % frames x.core := by
  rw [State.core_finishInsn]; exact u.called_cwp x

theorem State.called_end_frame : CoresPcs u ((u.called x).finishInsn x pc g) :=
  (show CoresPcs u (u.called x) from u.called_frame x).trans (coresPcs_finishInsn ..)

theorem State.called_end_core_ne {m : Nat} (hm : m ≠ x.core) : ((u.called x).finishInsn x pc g).core m = u.core m := by
  rw [State.core_finishInsn_ne _ _ _ _ hm, u.called_core_ne x hm]

theorem State.called_regAt (r w : Nat) : (u.called x).regAt x.core r w =
    if (15 : Nat) ≠ 0 ∧ (if r < 8 then r = 15 else 8 ≤ 15 ∧ physReg x.core r w = physReg x.core 15 (((u.core x.core).cwp + 1) % frames x.core))
      then u.backOf x else (u.slide x.core (u.core x.core).self).regAt x.core r w := by
  unfold State.called
  dsimp only
  rw [State.regAt_setRegAt, State.core_slide]

/-- n7 of the callee's window holds the return address. -/
theorem State.called_end_back : ((u.called x).finishInsn x pc g).regAt x.core 15 (((u.core x.core).cwp + 1) % frames x.core) = u.backOf x := by
  rw [State.finishInsn_regAt, State.called_regAt, if_pos (by simp)]

theorem State.called_end_global {r : Nat} (h : r < 8) (w : Nat) :
    ((u.called x).finishInsn x pc g).regAt x.core r w = u.regAt x.core r (u.core x.core).cwp := by
  rw [State.finishInsn_regAt, State.called_regAt, if_neg (by rw [if_pos h]; omega)]
  exact State.slide_regAt_global u _ _ h _ _

/-- The callee's m registers and t-frame read as zero. -/
theorem State.called_end_high {r : Nat} (h1 : 16 ≤ r) (h2 : r < 32) :
    ((u.called x).finishInsn x pc g).regAt x.core r (((u.core x.core).cwp + 1) % frames x.core) = 0 := by
  have hp : physReg x.core r (((u.core x.core).cwp + 1) % frames x.core) ≠ physReg x.core 15 (((u.core x.core).cwp + 1) % frames x.core) :=
    fun e => by have := physReg_inj (by omega) h2 (by omega) (by omega) e; omega
  rw [State.finishInsn_regAt, State.called_regAt, if_neg (by rw [if_neg (by omega)]; simp [hp])]
  exact State.slide_regAt_high u _ _ h1 h2

end

theorem exec_call (s : State) (x : Insn) (disp : Word) :
    exec (.call x disp) s = runs x.wf (fun s => s.insn x { gpr := false } fun s => s.callTo x ((s.core x.core).pc + disp)) s := rfl

theorem exec_callr (s : State) (x : Insn) (rs : Reg) :
    exec (.callr x rs) s = runs x.wf (fun s => s.insn x {} fun s => s.callTo x (s.src x rs)) s := rfl

/-- What CALL and CALLR leave of the state `u` after their spills. -/
theorem call_general {s u : State} {x : Insn} {k : Chk} {c : Instr} {tgt : State → Word} (h : s.Executes x k)
    (hc : exec c s = runs x.wf (fun s => s.insn x k fun s => s.callTo x (tgt s)) s)
    (hu : State.spillUntil (frames x.core) s x.core 3 = (.ok (), u)) :
    Completes c s fun t =>
      (t.core x.core).pc = pcOf (tgt s) ∧ (t.core x.core).cwp = ((u.core x.core).cwp + 1) % frames x.core ∧
      t.regAt x.core 15 (t.core x.core).cwp = pcOf ((u.core x.core).pc + BitVec.ofNat 64 x.len) ∧
      (u.pending = s.pending → t = { u with cores := t.cores, pcs := t.pcs }) ∧
      ∀ m, m ≠ x.core → t.core m = u.core m := by
  refine callTo_completes h hc hu ?_
  have hw := u.called_end_cwp x (s.core x.core).pc (some (tgt s))
  have hb := u.called_end_back x (s.core x.core).pc (some (tgt s))
  have hf := u.called_end_frame x (s.core x.core).pc (some (tgt s))
  generalize ht : (u.called x).finishInsn x (s.core x.core).pc (some (tgt s)) = t at hw hb hf
  refine ⟨?pc, hw, ?back, fun hp => ?frame, fun m hm => ?others⟩
  case pc => subst ht; exact congrArg Core.pc (State.core_finishInsn ..)
  case back => rw [← hw] at hb; exact hb
  case frame => rw [hf, ← hp]
  case others => subst ht; exact u.called_end_core_ne x _ _ hm

/-- Where three frames are free a call spills nothing, and the package but the core's window state stands. -/
theorem call_resident {s : State} {x : Insn} {k : Chk} {c : Instr} {tgt : State → Word} (h : s.Executes x k)
    (hc : exec c s = runs x.wf (fun s => s.insn x k fun s => s.callTo x (tgt s)) s) (hf : 3 ≤ s.freeFrames x.core) :
    Completes c s fun t =>
      s.CoreOnly t x (pcOf (tgt s)) ∧ (t.core x.core).cwp = ((s.core x.core).cwp + 1) % frames x.core ∧
      t.regAt x.core 15 (t.core x.core).cwp = s.nextPc x ∧
      (∀ r, 1 ≤ r → r < 8 → t.regAt x.core r (t.core x.core).cwp = s.regAt x.core r (s.core x.core).cwp) ∧
      (∀ r, 16 ≤ r → r < 32 → t.regAt x.core r (t.core x.core).cwp = 0) := by
  have hu := spillUntil_free hf
  unfold Completes
  rw [hc]
  refine completes_ok h (State.callTo_eq _ hu) (by rw [s.called_frame]) ?_
  rw [s.called_end_cwp]
  exact ⟨State.finishInsn_coreOnly (s.called_frame x) (fun m hm => s.called_core_ne x hm) _, rfl, s.called_end_back x _ _,
    fun r _ h8 => s.called_end_global x _ _ h8 _, fun r h1 h2 => s.called_end_high x _ _ h1 h2⟩

/-- The window of a call on a compute core, whose ring has 16 frames. -/
theorem call_slides {s u : State} {x : Insn} {k : Chk} {c : Instr} {tgt : State → Word} (hn : x.core < 216) (h : s.Executes x k)
    (hc : exec c s = runs x.wf (fun s => s.insn x k fun s => s.callTo x (tgt s)) s)
    (hu : State.spillUntil (frames x.core) s x.core 3 = (.ok (), u)) :
    Completes c s fun t =>
      let w := (u.core x.core).cwp
      (t.core x.core).pc = pcOf (tgt s) ∧ (t.core x.core).cwp = (w + 1) % 16 ∧
      (∀ i, i < 7 → t.regAt x.core (8 + i) ((w + 1) % 16) = u.regAt x.core (24 + i) w) ∧
      t.regAt x.core 15 ((w + 1) % 16) = pcOf ((u.core x.core).pc + BitVec.ofNat 64 x.len) ∧
      t.regAt x.core 31 w = pcOf ((u.core x.core).pc + BitVec.ofNat 64 x.len) ∧
      ∀ r, 16 ≤ r → r < 32 → t.regAt x.core r ((w + 1) % 16) = 0 := by
  have hF : frames x.core = 16 := by unfold frames; rw [if_pos hn]
  refine callTo_completes h hc hu ?_
  have hw := u.called_end_cwp x (s.core x.core).pc (some (tgt s))
  have hb := u.called_end_back x (s.core x.core).pc (some (tgt s))
  have hz := fun r => @State.called_end_high u x (s.core x.core).pc (some (tgt s)) r
  rw [hF] at hw hb hz
  obtain ⟨hr, h31⟩ := call_ring u x (s.core x.core).pc (tgt s) (u.backOf x) hn
  exact ⟨congrArg Core.pc (State.core_finishInsn ..), hw, hr, hb, h31, hz⟩

/-! ### Returns (R46, R48) -/

/-- RET ends in the caller's window, at the address that n7 held. -/
theorem ret_general {s u : State} {x : Insn} (h : s.Executes x { gpr := false }) (hu : s.needParent x.core = (.ok (), u)) :
    Completes (.ret x) s fun t =>
      (t.core x.core).pc = pcOf (s.regAt x.core 15 (s.core x.core).cwp) ∧ (t.core x.core).cwp = u.parentWin x.core ∧
      (∀ r w, t.regAt x.core r w = u.regAt x.core r w) ∧
      (u.pending = s.pending → t = { u with cores := t.cores, pcs := t.pcs }) ∧
      ∀ m, m ≠ x.core → t.core m = u.core m := by
  refine completes_ok' (u := u.unslide x.core) (g := some (s.regAt x.core 15 (s.core x.core).cwp)) h (by dsimp only; rw [hu]; rfl) ?_
  have hf : CoresPcs u ((u.unslide x.core).finishInsn x (s.core x.core).pc (some (s.regAt x.core 15 (s.core x.core).cwp))) :=
    (coresPcs_unslide _ _).trans (coresPcs_finishInsn ..)
  have hr := fun r w => (State.finishInsn_regAt (u.unslide x.core) x (s.core x.core).pc (some (s.regAt x.core 15 (s.core x.core).cwp)) r w).trans
    (State.unslide_regAt u _ r w)
  have hcore := State.core_finishInsn (u.unslide x.core) x (s.core x.core).pc (some (s.regAt x.core 15 (s.core x.core).cwp))
  have hne := fun m hm => (State.core_finishInsn_ne (u.unslide x.core) x (s.core x.core).pc (some (s.regAt x.core 15 (s.core x.core).cwp))
    (m := m) hm).trans (State.core_setCore_ne u _ hm)
  generalize (u.unslide x.core).finishInsn x (s.core x.core).pc (some (s.regAt x.core 15 (s.core x.core).cwp)) = t at *
  refine ⟨congrArg Core.pc hcore, ?cwp, hr, fun hp => by rw [hf, ← hp], hne⟩
  case cwp =>
    rw [State.core_unslide] at hcore
    exact congrArg Core.cwp hcore

theorem ret_resident {s : State} {x : Insn} (h : s.Executes x { gpr := false }) (hr : 3 ≤ s.resident x.core) :
    Completes (.ret x) s fun t =>
      s.CoreOnly t x (pcOf (s.regAt x.core 15 (s.core x.core).cwp)) ∧ (t.core x.core).cwp = s.parentWin x.core ∧
      s.SameRegs t x.core ∧ s.SamePreds t x.core := by
  refine completes_ok (u := s.unslide x.core) (g := some (s.regAt x.core 15 (s.core x.core).cwp)) h
    (by dsimp only; rw [s.needParent_resident _ hr]; rfl) rfl ?_
  refine ⟨State.finishInsn_coreOnly rfl (fun m hm => State.core_setCore_ne _ _ hm) _, ?_, fun r w => ?_, fun p => ?_⟩
  · rw [State.core_finishInsn, State.core_unslide]; rfl
  · rw [State.finishInsn_regAt, State.unslide_regAt]
  · rw [State.finishInsn_pr, State.unslide_pr]

/-! ### WKEEP and WFLUSH (R50, R79) -/

/-- An instruction that leaves its core and the package as they were but for the PC. -/
theorem completes_idle {s : State} {x : Insn} {k : Chk} {body : State → Got (Option Word) × State} (h : s.Executes x k)
    (hb : body s = (.ok none, s)) : ∃ t, runs x.wf (fun s => s.insn x k body) s = .next t ∧
      s.CoreOnly t x (s.nextPc x) ∧ t.core x.core = (s.core x.core).past (s.nextPc x) :=
  completes_ok h hb rfl ⟨State.finishInsn_coreOnly rfl (fun _ _ => rfl) none, State.core_finishInsn ..⟩

theorem wkeep_idle {s : State} {x : Insn} (h : s.Executes x { gpr := false }) (hf : 2 ≤ s.freeFrames x.core) :
    Completes (.wkeep x) s fun t => s.CoreOnly t x (s.nextPc x) ∧ t.core x.core = (s.core x.core).past (s.nextPc x) :=
  completes_idle h (by rw [spillUntil_free hf]; rfl)

/-- With one free frame one spill makes the second. -/
theorem spillUntil_once {s u : State} {n : Nat} (h1 : s.freeFrames n = 1) (hs : s.spill n = (.ok (), u)) (h2 : 2 ≤ u.freeFrames n) :
    State.spillUntil (frames n) s n 2 = (.ok (), u) := by
  obtain ⟨f, hf⟩ : ∃ f, frames n = f + 2 := by rcases frames_cases n with h | h <;> exact ⟨_, h⟩
  rw [hf]
  unfold State.spillUntil
  rw [if_neg (by omega), hs]
  exact spill_none f u n 2 h2

theorem wkeep_spills {s u : State} {x : Insn} (h : s.Executes x { gpr := false }) (h1 : s.freeFrames x.core = 1)
    (hs : s.spill x.core = (.ok (), u)) (h2 : 2 ≤ u.freeFrames x.core) :
    Completes (.wkeep x) s fun t => t = { u.finishInsn x (s.core x.core).pc none with pending := s.pending } :=
  completes_ok' h (by rw [spillUntil_once h1 hs h2]; rfl) rfl

theorem wflush_ends {s u : State} {x : Insn} {level : BitVec 2} {upto : Option Nat}
    (h : s.Executes x { gpr := false, sys := s.flushTrap x.core level.toNat })
    (hu : State.flushFrames (frames x.core) s x.core level.toNat (upto.getD (frames x.core)) = (.ok true, u)) :
    Completes (.wflush x level upto) s fun t => t = { u.finishInsn x (s.core x.core).pc none with pending := s.pending } :=
  completes_congr (f := wflushRun x level upto) _ rfl (completes_ok' h (by rw [hu]; rfl) rfl)

/-- Where no resident frame belongs to the level there is nothing to flush. -/
theorem flushFrames_none {s : State} {n level most : Nat}
    (h : ∀ k, k < s.resident n → (s.core n).owner (((s.core n).oldest + k) % frames n) / 2 ≠ level) :
    State.flushFrames (frames n) s n level most = (.ok true, s) := by
  obtain ⟨f, hf⟩ := frames_pos n
  have hn : ((List.range (s.resident n)).map fun k => ((s.core n).oldest + k) % frames n).any
      (fun f => decide ((s.core n).owner f / 2 = level)) = false := by
    simpa using h
  rw [show State.flushFrames (frames n) s n level most = State.flushFrames (f + 1) s n level most by rw [← hf]]
  unfold State.flushFrames
  dsimp only
  rw [hn, if_pos (by simp)]

theorem wflush_idle {s : State} {x : Insn} {level : BitVec 2} {upto : Option Nat}
    (h : s.Executes x { gpr := false, sys := s.flushTrap x.core level.toNat })
    (hn : ∀ k, k < s.resident x.core → (s.core x.core).owner (((s.core x.core).oldest + k) % frames x.core) / 2 ≠ level.toNat) :
    Completes (.wflush x level upto) s fun t => s.CoreOnly t x (s.nextPc x) ∧ t.core x.core = (s.core x.core).past (s.nextPc x) :=
  completes_congr (f := wflushRun x level upto) _ rfl (completes_idle h (by rw [flushFrames_none hn]; rfl))

/-! ### WPMOV (R72) -/

/-- The end of an instruction that wrote one general register, of whatever window. -/
theorem State.finishInsn_setRegAt (s : State) (x : Insn) (r w : Nat) (v : Word) :
    let t := (s.setRegAt x.core r w v).finishInsn x (s.core x.core).pc none
    s.CoreOnly t x (s.nextPc x) ∧ (s.core x.core).RegsOnly (t.core x.core) ∧ s.SamePreds t x.core ∧ s.RegWritten t x.core r w v := by
  refine ⟨State.finishInsn_coreOnly (State.setRegAt_eq ..) (fun m hm => State.core_setRegAt_ne _ _ _ _ _ hm) none, ?_, fun p => ?_, fun r' w' => ?_⟩
  · unfold Core.RegsOnly
    rw [State.core_finishInsn, State.core_setRegAt]
    rfl
  · rw [State.finishInsn_pr, State.setRegAt_pr]
  · rw [State.finishInsn_regAt, State.regAt_setRegAt]
    exact ⟨fun h => if_pos h, fun h => if_neg h⟩

theorem wpmov_completes {s : State} {x : Insn} {rd rs : Reg} {dir : Bool} {r w : Nat} {v : Word} (h : s.Executes x {})
    (hr : 3 ≤ s.resident x.core) (hb : (if dir then s.setRegAt x.core rd.toNat (s.parentWin x.core) (s.src x rs)
      else s.dst x rd (s.regAt x.core rs.toNat (s.parentWin x.core))) = s.setRegAt x.core r w v) :
    Completes (.wpmov x rd rs dir) s fun t =>
      s.CoreOnly t x (s.nextPc x) ∧ (s.core x.core).RegsOnly (t.core x.core) ∧ s.SamePreds t x.core ∧ s.RegWritten t x.core r w v := by
  refine completes_ok (u := s.setRegAt x.core r w v) (g := none) h ?_ (State.setRegAt_pending ..) (s.finishInsn_setRegAt x r w v)
  rw [s.needParent_resident _ hr, ← hb]
  rfl

/-! ### The rows -/

/-- Settles O10: the ring of 16 frames of a compute core. -/
theorem callSlidesTheWindow : Obligations.CallSlidesTheWindow := by
  refine ⟨fun s u x c tgt hn hc hfree hspill => ?call, fun s u x hn h hu => ?ret⟩
  case call =>
    have hu : State.spillUntil (frames x.core) s x.core 3 = (.ok (), u) := by
      rcases Nat.lt_or_ge (s.freeFrames x.core) 3 with h | h
      · exact hspill h
      · rw [hfree h]; exact spillUntil_free h
    rcases hc with ⟨disp, rfl, rfl, h⟩ | ⟨rs, rfl, rfl, h⟩
    · exact call_slides (tgt := fun s => (s.core x.core).pc + disp) hn h (exec_call s x disp) hu
    · exact call_slides (tgt := fun s => s.src x rs) hn h (exec_callr s x rs) hu
  case ret =>
    obtain ⟨t, he, hpc, hw, -⟩ := ret_general h hu
    exact ⟨t, he, hpc, hw.trans (u.parentWin_compute hn)⟩

/-- Settles O11, row by row. -/
theorem windowInstructionsComplete : Obligations.WindowInstructionsComplete := by
  refine ⟨fun s u x disp h hu => call_general (tgt := fun s => (s.core x.core).pc + disp) h (exec_call s x disp) hu,
    fun s x disp h hf => call_resident (tgt := fun s => (s.core x.core).pc + disp) h (exec_call s x disp) hf,
    fun s u x rs h hu => call_general (tgt := fun s => s.src x rs) h (exec_callr s x rs) hu, fun s x rs h hf => ?callr,
    fun s u x h hu => ret_general h hu, fun s x h hr => ret_resident h hr, fun s x h hf => wkeep_idle h hf, fun s u x h h1 hs h2 => wkeep_spills h h1 hs h2,
    fun s u x level upto h hu => wflush_ends h hu, fun s x level upto h hn => wflush_idle h hn,
    fun s x rd rs h hr => wpmov_completes h hr rfl, fun s x rd rs h hr => wpmov_completes h hr rfl⟩
  case callr =>
    obtain ⟨t, he, hc, hw, hb, -⟩ := call_resident (tgt := fun s => s.src x rs) h (exec_callr s x rs) hf
    exact ⟨t, he, hc, hw, hb⟩

end Sys2Proof.Machine
end

section
/-! SUPPORT.
TLBIR (R142) while its core holds the line of a near atomic (R111): the invalidation itself leaves that attempt standing, which
the next PC alone ends. -/

namespace Sys2Proof.Machine

/-! ### The removal leaves an attempt of a near atomic -/

theorem State.tlbRemove_nearTry (s : State) (n : Nat) (l : Bool) (g : TlbEnt → Bool) (w1 w2 : WalkEnt → Bool) :
    ((s.tlbRemove n l g w1 w2).core n).nearTry = (s.core n).nearTry := by
  unfold State.tlbRemove
  rw [State.core_setCore_eq]

/-- A core that has lost translations as an instruction's end leaves it awaits no line for a near atomic. -/
theorem Core.TlbsLess.nearTry {c d : Core} {all : Bool} {gone : TlbEnt → Prop} {w1 w2 : WalkEnt → Prop} (h : c.TlbsLess d all gone w1 w2) :
    d.nearTry = none := by
  obtain ⟨hd, -⟩ := h
  rw [hd]
  rfl

/-! ### The counterexample -/

/-- Service core 217 runs at level S; a near atomic of it waits for line 0, and c2 holds 4096. -/
def tlbirState : State :=
  State.reset.setCore 217 { Core.resetSp false with released := true, nearTry := some (0, false), c := [(2, 4096)] }

/-- A valid instruction of four bytes, with a true guard, on service core 217. -/
def tlbirInsn : Insn := ⟨217, 0, false, 0, 0, 0, 4, true, .ok, none⟩

theorem tlbirState_executes : tlbirState.Executes tlbirInsn { level := 1, align := tlbirState.alignEarly tlbirInsn 1 2 4096 } := by
  unfold State.Executes
  decide +kernel

theorem tlbirState_ra : tlbirState.src tlbirInsn 1 = 0 := by decide +kernel
theorem tlbirState_rn : tlbirState.src tlbirInsn 2 = 4096 := by decide +kernel
theorem tlbirState_nearTry : (tlbirState.core tlbirInsn.core).nearTry = some (0, false) := by decide +kernel

/-- Refutes O18: its clause of TLBIR holds the core straight after the removals, before the instruction ends, to a core whose
instruction has ended; where a near atomic of the core still waits for its line, the removals leave that attempt as it is. -/
theorem not_tlbInstructionsComplete : ¬ Obligations.TlbInstructionsComplete := by
  intro h
  obtain ⟨-, -, -, -, -, -, -, tlbir, -⟩ := h
  obtain ⟨t, -, less, -⟩ := tlbir tlbirState tlbirInsn 1 2 false tlbirState_executes
    (by rw [tlbirState_ra]; rfl) (by rw [tlbirState_rn]; rfl) (by rw [tlbirState_rn]; decide)
  have gone := less.nearTry
  have kept : ((tlbirState.tlbVa tlbirInsn.core false false (tlbirState.src tlbirInsn 1).toNat (tlbirState.src tlbirInsn 2).toNat).core
      tlbirInsn.core).nearTry = some (0, false) :=
    (State.tlbRemove_nearTry ..).trans tlbirState_nearTry
  rw [gone] at kept
  cases kept

end Sys2Proof.Machine
end

section
/-! SUPPORT.
State registers (R66–R68, R113, R357, R431, R548): what MFSR reads, what MTSR writes, and inter-core interrupts. -/

namespace Sys2Proof.Machine

/-! ### Reads -/

/-- What a read of a state register finds where it neither claims a vector nor draws a value (R66). -/
def State.srValue (s : State) (n k : Nat) : Word :=
  if k = 0x001 then BitVec.ofNat 64 s.time else if k = 0x002 then BitVec.ofNat 64 (s.sysCore n)
  else if k = 0x011 then s.wstate n
  else if 0x040 ≤ k ∧ k < 0x060 then s.rd (evtrdKey n (k - 0x040))
  else if k = 0xD01 then s.rd (kWldDrrange s.sock) else (s.core n).srv k

theorem State.srRead_value (s : State) {n sr : Nat} (hx : s.srReach n sr ≠ 0x434) (hn : n < 216 ∨ s.srReach n sr ≠ 2) :
    s.srRead n sr = (s.srValue n (s.srReach n sr), s) := by
  unfold State.srRead State.srValue
  dsimp only
  generalize s.srReach n sr = k at hx hn
  rw [if_neg hx]
  by_cases h2 : k = 2
  · subst h2; simp [hn.resolve_right (fun h => h rfl)]
  · rw [if_neg h2, if_neg h2]; split_ifs <;> rfl

/-- A service core has no number that the Darkroom world replaces. -/
theorem State.srReach_service (s : State) {n : Nat} (hn : 216 ≤ n) (sr : Nat) : s.srReach n sr = sr := by
  unfold State.srReach
  exact if_neg (by omega)

theorem State.srRead_sysCore_service (s : State) {n : Nat} (hn : 216 ≤ n) : s.srRead n 2 = s.fresh := by
  unfold State.srRead
  rw [s.srReach_service hn]
  dsimp only
  rw [if_neg (by decide), if_pos rfl, if_neg (by omega)]

/-- MFSR ends as the write of its destination in the state that the read leaves. -/
theorem mfsr_completes {s : State} {x : Insn} {rd : Reg} {sr : BitVec 12} {P : State → Prop}
    (h : s.Executes x { sys := s.srTrap x.core sr.toNat false }) (hp : (s.srRead x.core sr.toNat).2.pending = s.pending)
    (hP : P (((s.srRead x.core sr.toNat).2.dst x rd (s.srRead x.core sr.toNat).1).finishInsn x (s.core x.core).pc none)) :
    ∃ t, runs x.wf (mfsrRun x rd sr) s = .next t ∧ P t :=
  completes_congr (f := mfsrRun x rd sr) _ rfl (completes_simply h ((State.setRegAt_pending ..).trans hp) hP)

theorem mfsr_reads {s : State} {x : Insn} {rd : Reg} {sr : BitVec 12} (h : s.Executes x { sys := s.srTrap x.core sr.toNat false })
    {v : Word} (hr : s.srRead x.core sr.toNat = (v, s)) :
    ∃ t, runs x.wf (mfsrRun x rd sr) s = .next t ∧
      s.CoreOnly t x (s.nextPc x) ∧ (s.core x.core).RegsOnly (t.core x.core) ∧ s.SamePreds t x.core ∧
      s.RegWritten t x.core rd.toNat (s.dstWin x) v := by
  refine mfsr_completes h (by rw [hr]) ?_
  rw [hr]
  obtain ⟨hc, hr, hw, hp⟩ := s.finishInsn_dst x rd v
  exact ⟨hc, hr, hp, hw⟩

theorem mfsr_service_number (s : State) (x : Insn) (rd : Reg) (h : s.Executes x { sys := s.srTrap x.core 2 false }) (hn : 216 ≤ x.core) :
    Completes (.mfsr x rd 2) s fun t =>
      t = { s with cores := t.cores, pcs := t.pcs, free := s.free + 1 } ∧ (t.core x.core).pc = s.nextPc x ∧
      s.RegWritten t x.core rd.toNat (s.dstWin x) (Config.freeValue s.free) := by
  have hr : s.srRead x.core (2 : BitVec 12).toNat = s.fresh := s.srRead_sysCore_service hn
  refine mfsr_completes h (by rw [hr]; rfl) ?_
  rw [hr]
  obtain ⟨⟨hf, -, -, hpc⟩, -, hw, -⟩ := s.fresh.2.finishInsn_dst x rd s.fresh.1
  exact ⟨hf, hpc, hw⟩

/-! ### EXTCLAIM (R357) -/

theorem State.extClaim_some {s : State} {n v : Nat} (hv : v < 256) (h : (s.core n).ext.getLsbD v = true)
    (hl : ∀ w, w < v → (s.core n).ext.getLsbD w = false) :
    s.extClaim n = (BitVec.ofNat 64 v, s.setCore n { s.core n with ext := (s.core n).ext &&& ~~~ BitVec.ofNat 256 (2 ^ v) }) := by
  unfold State.extClaim
  dsimp only
  rw [lowBit_some hv h hl]

theorem State.extClaim_none {s : State} {n : Nat} (h : (s.core n).ext = 0) : s.extClaim n = (0, s) := by
  unfold State.extClaim
  dsimp only
  rw [h, show lowBit (0 : BitVec 256).toNat 256 = none by simp [lowBit]]

theorem clearBit_getLsbD {n : Nat} (a : BitVec n) (v w : Nat) :
    (a &&& ~~~ BitVec.ofNat n (2 ^ v)).getLsbD w = (decide (w ≠ v) && a.getLsbD w) := by
  by_cases hw : w < n
  · simp only [BitVec.getLsbD_and, BitVec.getLsbD_not, BitVec.getLsbD_ofNat, Nat.testBit_two_pow, hw, decide_true, Bool.true_and]
    by_cases e : w = v
    · simp [e]
    · simp [e, Ne.symm e]
  · rw [BitVec.getLsbD_of_ge _ _ (by omega), BitVec.getLsbD_of_ge _ _ (by omega), Bool.and_false]

theorem setBit_getLsbD {n : Nat} (a : BitVec n) {v w : Nat} (hw : w < n) :
    (a ||| BitVec.ofNat n (2 ^ v)).getLsbD w = (decide (w = v) || a.getLsbD w) := by
  simp only [BitVec.getLsbD_or, BitVec.getLsbD_ofNat, Nat.testBit_two_pow, hw, decide_true, Bool.true_and]
  rw [Bool.or_comm]
  simp only [eq_comm]

theorem State.srRead_claim {s : State} {n sr : Nat} (h : s.srReach n sr = 0x434) : s.srRead n sr = s.extClaim n := by
  unfold State.srRead
  dsimp only
  rw [h]
  rfl

/-- The end of an instruction that wrote one register after it put its core into state `c`, which keeps the registers. -/
theorem State.finishInsn_setCore_dst {s : State} {x : Insn} {c : Core} (hc : c.c = (s.core x.core).c) (hw : c.win = (s.core x.core).win)
    (hp : c.preds = (s.core x.core).preds) (hcwp : c.cwp = (s.core x.core).cwp) (r : Reg) (v : Word) :
    let t := ((s.setCore x.core c).dst x r v).finishInsn x (s.core x.core).pc none
    s.CoreOnly t x (s.nextPc x) ∧ s.SamePreds t x.core ∧ s.RegWritten t x.core r.toNat (s.dstWin x) v ∧
      t.core x.core = ({ c with c := (t.core x.core).c, win := (t.core x.core).win }).past (s.nextPc x) := by
  have hwin : (s.setCore x.core c).dstWin x = s.dstWin x := by
    unfold State.dstWin State.parentWin; rw [State.core_setCore_eq, hcwp]
  have hdst : (s.setCore x.core c).dst x r v = (s.setCore x.core c).setRegAt x.core r.toNat (s.dstWin x) v := by rw [← hwin]; rfl
  rw [hdst]
  intro t
  have ht : t.core x.core = _ := State.core_finishInsn ((s.setCore x.core c).setRegAt x.core r.toNat (s.dstWin x) v) x (s.core x.core).pc none
  rw [State.core_setRegAt, State.core_setCore_eq] at ht
  have hu : (s.setCore x.core c).setRegAt x.core r.toNat (s.dstWin x) v =
      { s with cores := ((s.setCore x.core c).setRegAt x.core r.toNat (s.dstWin x) v).cores } := State.setRegAt_eq ..
  refine ⟨State.finishInsn_coreOnly hu (fun m hm => ?_) none, fun p => ?_, fun r' w' => ?_, ?_⟩
  · rw [State.core_setRegAt_ne _ _ _ _ _ hm, State.core_setCore_ne _ _ hm]
  · unfold State.pr; rw [ht]; show (decide (p = 0) || c.preds.getLsbD p.toNat) = _; rw [hp]
  · have hreg : (s.setCore x.core c).regAt x.core r' w' = s.regAt x.core r' w' := by
      unfold State.regAt; rw [State.core_setCore_eq]; dsimp only; rw [hc, hw]
    rw [State.finishInsn_regAt, State.regAt_setRegAt, hreg]
    exact ⟨fun h => if_pos h, fun h => if_neg h⟩
  · rw [ht]; rfl

theorem extclaim_claims (s : State) (x : Insn) (rd : Reg) (v : Nat) (h : s.Executes x { sys := s.srTrap x.core 0x434 false })
    (hr : s.srReach x.core 0x434 = 0x434) (hv : v < 256) (hb : (s.core x.core).ext.getLsbD v = true)
    (hl : ∀ w, w < v → (s.core x.core).ext.getLsbD w = false) :
    Completes (.extclaim x rd) s fun t =>
      s.CoreOnly t x (s.nextPc x) ∧ s.SamePreds t x.core ∧
      s.RegWritten t x.core rd.toNat (s.dstWin x) (BitVec.ofNat 64 v) ∧
      (∀ w, (t.core x.core).ext.getLsbD w = (decide (w ≠ v) && (s.core x.core).ext.getLsbD w)) ∧
      t.core x.core = ({ s.core x.core with c := (t.core x.core).c, win := (t.core x.core).win, ext := (t.core x.core).ext }).past (s.nextPc x) := by
  have hread : s.srRead x.core (0x434#12).toNat = _ := (State.srRead_claim hr).trans (State.extClaim_some hv hb hl)
  refine mfsr_completes h (by rw [hread]; rfl) ?_
  rw [hread]
  obtain ⟨hc, hp, hw, ht⟩ := State.finishInsn_setCore_dst (s := s) (x := x)
    (c := { s.core x.core with ext := (s.core x.core).ext &&& ~~~ BitVec.ofNat 256 (2 ^ v) }) rfl rfl rfl rfl rd (BitVec.ofNat 64 v)
  have hext := congrArg Core.ext ht
  refine ⟨hc, hp, hw, fun w => ?ext, ?core⟩
  case ext => exact (congrArg (BitVec.getLsbD · w) hext).trans (clearBit_getLsbD _ v w)
  case core => rw [hext]; exact ht

theorem extclaim_none (s : State) (x : Insn) (rd : Reg) (h : s.Executes x { sys := s.srTrap x.core 0x434 false })
    (hr : s.srReach x.core 0x434 = 0x434) (he : (s.core x.core).ext = 0) :
    Completes (.extclaim x rd) s fun t =>
      s.CoreOnly t x (s.nextPc x) ∧ (s.core x.core).RegsOnly (t.core x.core) ∧ s.SamePreds t x.core ∧
      s.RegWritten t x.core rd.toNat (s.dstWin x) 0 :=
  mfsr_reads (sr := 0x434#12) h ((State.srRead_claim hr).trans (State.extClaim_none he))

/-! ### Writes (R66, R67, R113) -/

/-- The value of a state register after a write of `v` over `w` (R66, R67): IPIPEND clears, and CSTAT has only IE and VEN. -/
def srWritten (k : Nat) (w v : Word) : Word :=
  if k = 0x431 then w &&& ~~~ v else if k = 0x400 then (w &&& ~~~ 0x300#64) ||| (v &&& 0x300#64) else v &&& srMask k

theorem State.srWrite_readOnly {s : State} {n sr : Nat} (h : [0x001, 0x002, 0x011, 0x434, 0xD01].contains (s.srReach n sr) = true) (v : Word) :
    s.srWrite n sr v = (.ok (), s) := by
  unfold State.srWrite
  exact if_pos h

theorem State.srWrite_stores {s : State} {n sr : Nat} {v : Word}
    (h : [0x001, 0x002, 0x011, 0x434, 0xD01, 0x430].contains (s.srReach n sr) = false) :
    s.srWrite n sr v =
      let u := s.setCore n ((s.core n).setSr (s.srReach n sr) (srWritten (s.srReach n sr) ((s.core n).srv (s.srReach n sr)) v))
      (.ok (), if s.srReach n sr = 0x441 ∧ v.getLsbD 8 then u.predReset n else u) := by
  unfold State.srWrite srWritten
  dsimp only
  generalize s.srReach n sr = k at h
  have hro : ([0x001, 0x002, 0x011, 0x434, 0xD01].contains k) = false := by
    simp only [List.contains_eq_mem, List.mem_cons, List.not_mem_nil, or_false, decide_eq_false_iff_not] at h ⊢
    omega
  have hipi : k ≠ 0x430 := by rintro rfl; simp at h
  rw [hro, if_neg (by decide), if_neg hipi]
  by_cases h1 : k = 0x431
  · simp [h1]
  by_cases h2 : k = 0x400
  · simp [h2]
  simp only [if_neg h1, if_neg h2]

/-- An MTSR whose write is done in state `u` ends there. -/
theorem mtsrInsn_completes {s u : State} {x : Insn} {rs : Reg} {sr : Nat} {P : State → Prop}
    (h : s.Executes x { sys := s.srTrap x.core sr true }) (hw : s.srWrite x.core sr (s.src x rs) = (.ok (), u)) (hp : u.pending = s.pending)
    (hP : P (u.finishInsn x (s.core x.core).pc none)) : ∃ t, runs x.wf (fun s => s.mtsrInsn x rs sr) s = .next t ∧ P t :=
  completes_congr (f := fun s => s.mtsrInsn x rs sr) _ rfl
    (completes_ok (body := fun s => endUnit (s.srWrite x.core sr (s.src x rs))) h (by rw [hw]; rfl) hp hP)

theorem mtsr_readOnly (s : State) (x : Insn) (rs : Reg) (sr : BitVec 12) (h : s.Executes x { sys := s.srTrap x.core sr.toNat true })
    (hro : [0x001, 0x002, 0x011, 0x434, 0xD01].contains (s.srReach x.core sr.toNat) = true) :
    Completes (.mtsr x rs sr) s fun t => s.CoreOnly t x (s.nextPc x) ∧ t.core x.core = (s.core x.core).past (s.nextPc x) :=
  mtsrInsn_completes h (State.srWrite_readOnly hro _) rfl ⟨State.finishInsn_coreOnly rfl (fun _ _ => rfl) none, State.core_finishInsn ..⟩

/-- The end of an instruction that put its core into state `c`, which keeps the registers. -/
theorem State.finishInsn_core {s u : State} {x : Insn} {c : Core} (hu : u = { s with cores := u.cores })
    (hne : ∀ m, m ≠ x.core → u.core m = s.core m) (hcore : u.core x.core = c) (hc : c.c = (s.core x.core).c) (hw : c.win = (s.core x.core).win)
    (hp : c.preds = (s.core x.core).preds) :
    let t := u.finishInsn x (s.core x.core).pc none
    s.CoreOnly t x (s.nextPc x) ∧ s.SameRegs t x.core ∧ s.SamePreds t x.core ∧ t.core x.core = c.past (s.nextPc x) := by
  intro t
  have ht : t.core x.core = c.past (s.nextPc x) := by rw [← hcore]; exact State.core_finishInsn ..
  refine ⟨State.finishInsn_coreOnly hu hne none, regsOf_coreOnly (by rw [ht]; exact hc) (by rw [ht]; exact hw), fun p => ?_, ht⟩
  unfold State.pr; rw [ht]; show (decide (p = 0) || c.preds.getLsbD p.toNat) = _; rw [hp]

theorem mtsr_writes (s : State) (x : Insn) (rs : Reg) (sr : Nat) (h : s.Executes x { sys := s.srTrap x.core sr true })
    (hw : [0x001, 0x002, 0x011, 0x434, 0xD01, 0x430].contains (s.srReach x.core sr) = false) :
    ∃ t, runs x.wf (fun s => s.mtsrInsn x rs sr) s = .next t ∧
      s.CoreOnly t x (s.nextPc x) ∧ s.SameRegs t x.core ∧ s.SamePreds t x.core ∧
      let k := s.srReach x.core sr
      let v := s.src x rs
      let c := (s.core x.core).setSr k (srWritten k ((s.core x.core).srv k) v)
      t.core x.core = Core.past (if k = 0x441 ∧ v.getLsbD 8 then
        { c with pred := [], sb := c.sb.map fun (e : SbEnt) => { e with trains := false } } else c) (s.nextPc x) := by
  refine mtsrInsn_completes h (State.srWrite_stores hw) (by split <;> rfl) ?_
  dsimp only
  by_cases hc : s.srReach x.core sr = 0x441 ∧ (s.src x rs).getLsbD 8 = true
  · rw [if_pos hc, if_pos hc]
    refine State.finishInsn_core rfl (fun m hm => ?_) ?_ rfl rfl rfl
    · exact (State.core_setCore_ne _ _ hm).trans (State.core_setCore_ne _ _ hm)
    · simp only [State.predReset, State.core_setCore_eq]
  · rw [if_neg hc, if_neg hc]
    exact State.finishInsn_core rfl (fun m hm => State.core_setCore_ne _ _ hm) (State.core_setCore_eq ..) rfl rfl rfl

theorem mtsr_completes (s : State) (x : Insn) (rs : Reg) (sr : BitVec 12) (h : s.Executes x { sys := s.srTrap x.core sr.toNat true })
    (hw : [0x001, 0x002, 0x011, 0x434, 0xD01, 0x430].contains (s.srReach x.core sr.toNat) = false) :
    Completes (.mtsr x rs sr) s fun t =>
      s.CoreOnly t x (s.nextPc x) ∧ s.SameRegs t x.core ∧ s.SamePreds t x.core ∧
      (let k := s.srReach x.core sr.toNat
       let v := s.src x rs
       let w := (s.core x.core).srv k
       (t.core x.core).srv k = srWritten k w v ∧ (∀ j, j ≠ k → (t.core x.core).srv j = (s.core x.core).srv j) ∧
       ((k ≠ 0x441 ∨ v.getLsbD 8 = false) →
         t.core x.core = ({ s.core x.core with sr := (t.core x.core).sr }).past (s.nextPc x))) := by
  obtain ⟨t, he, hc, hr, hp, ht⟩ := mtsr_writes s x rs sr.toNat h hw
  have hsr : (t.core x.core).sr = ((s.core x.core).setSr (s.srReach x.core sr.toNat)
      (srWritten (s.srReach x.core sr.toNat) ((s.core x.core).srv (s.srReach x.core sr.toNat)) (s.src x rs))).sr := by
    rw [ht]; split <;> rfl
  have hsrv : ∀ j, (t.core x.core).srv j = _ := fun j => congrArg (SMap.get srReset · j) hsr
  refine ⟨t, he, hc, hr, hp, (hsrv _).trans (Core.srv_setSr_eq ..), fun j hj => (hsrv j).trans (Core.srv_setSr_ne _ _ hj), fun hn => ?_⟩
  rw [hsr, ht, if_neg (fun hh => hn.elim (fun n => n hh.1) (fun n => by rw [hh.2] at n; cases n))]
  rfl

theorem atomctlClr_completes (s : State) (x : Insn) (rs : Reg) (h : s.Executes x { sys := s.srTrap x.core 0x441 true })
    (hk : s.srReach x.core 0x441 = 0x441) (hb : (s.src x rs).getLsbD 8 = true) :
    Completes (.atomctlClr x rs) s fun t =>
      s.CoreOnly t x (s.nextPc x) ∧ s.SameRegs t x.core ∧ s.SamePreds t x.core ∧
      (t.core x.core).pred = [] ∧ (t.core x.core).srv 0x441 = s.src x rs &&& 3#64 ∧
      (∀ j, j ≠ 0x441 → (t.core x.core).srv j = (s.core x.core).srv j) ∧
      t.core x.core = ({ s.core x.core with
        sr := (t.core x.core).sr, pred := [],
        sb := (s.core x.core).sb.map fun (e : SbEnt) => { e with trains := false } }).past (s.nextPc x) := by
  obtain ⟨t, he, hc, hr, hp, ht⟩ := mtsr_writes s x rs 0x441 h (by rw [hk]; decide)
  dsimp only at ht
  rw [hk, if_pos ⟨rfl, hb⟩] at ht
  refine ⟨t, he, hc, hr, hp, by rw [ht]; rfl, ?_, fun j hj => ?_, by rw [ht]; rfl⟩
  · rw [ht]; exact Core.srv_setSr_eq (s.core x.core) 0x441 _
  · rw [ht]; exact Core.srv_setSr_ne (s.core x.core) _ hj

/-! ### Inter-core interrupts (R68) -/

theorem Core.srv_past (c : Core) (pc : Word) (j : Nat) : (c.past pc).srv j = c.srv j := rfl

/-- An IPI with tag `tag` becomes pending at core `m`. -/
def State.ipiPend (s : State) (tag m : Nat) : State :=
  s.setCore m ((s.core m).setSr 0x431 ((s.core m).srv 0x431 ||| BitVec.ofNat 64 (2 ^ tag)))

/-- The sender notes in NOTARGET whether its IPI had no target. -/
def State.ipiNote (s : State) (n : Nat) (missing : Bool) : State :=
  s.setCore n ((s.core n).setSr 0x430 (if missing then BitVec.ofNat 64 (2 ^ 63) else 0))

/-- Whether an IPI reaches a core of this package. -/
def State.ipiReaches (s : State) (m : Nat) : Bool := !s.coreOut m && !s.fon (kCoreId m) fCoreId_RETIRED

/-- The sockets of the other packages that the memory map names. -/
def State.otherSockets (s : State) : List Nat := (s.plat.memmap.filter (fun m => m.kind = 7)).map (·.socket)

theorem State.ipiReaches_iff (s : State) (m : Nat) :
    s.ipiReaches m = true ↔ s.coreOut m = false ∧ s.fon (kCoreId m) fCoreId_RETIRED = false := by
  unfold State.ipiReaches; simp

/-- An IPI of core `n` to every other core of this package. -/
def State.ipiAll (s : State) (n tag : Nat) : State :=
  s.each ((List.range 216).filter (fun m => decide (m ≠ n) && s.ipiReaches m)) (fun s => s.ipiPend tag)

section
variable {s : State} {n : Nat} {v : Word}

theorem State.ipiSend_all (h : v.getLsbD 10 = true) : s.ipiSend n v =
    State.ipiNote { s.ipiAll n (bitsOf v 16 6) with
      out := (s.ipiAll n (bitsOf v 16 6)).out ++ s.otherSockets.map fun j => .ipi (1024 + j) (bitsOf v 16 6) } n false := by
  rw [← State.emits]
  unfold State.ipiSend; dsimp only; rw [if_pos h]; rfl

variable (h : v.getLsbD 10 = false)
include h

theorem State.ipiSend_here (hs : bitsOf v 0 10 / 216 = s.sock) (hr : s.ipiReaches (bitsOf v 0 10 % 216) = true) :
    s.ipiSend n v = (s.ipiPend (bitsOf v 16 6) (bitsOf v 0 10 % 216)).ipiNote n false := by
  unfold State.ipiSend; dsimp only; rw [if_neg (Bool.eq_false_iff.mp h), if_pos hs]; exact if_pos hr

theorem State.ipiSend_absent (hs : bitsOf v 0 10 / 216 = s.sock) (hr : ¬ s.ipiReaches (bitsOf v 0 10 % 216) = true) :
    s.ipiSend n v = s.ipiNote n true := by
  unfold State.ipiSend; dsimp only; rw [if_neg (Bool.eq_false_iff.mp h), if_pos hs]; exact if_neg hr

theorem State.ipiSend_away (hs : bitsOf v 0 10 / 216 ≠ s.sock) (ho : s.otherSockets.contains (bitsOf v 0 10 / 216) = true) :
    s.ipiSend n v = (s.emit (.ipi (bitsOf v 0 10) (bitsOf v 16 6))).ipiNote n false := by
  unfold State.ipiSend; dsimp only; rw [if_neg (Bool.eq_false_iff.mp h), if_neg hs]; exact if_pos ho

theorem State.ipiSend_nowhere (hs : bitsOf v 0 10 / 216 ≠ s.sock) (ho : s.otherSockets.contains (bitsOf v 0 10 / 216) = false) :
    s.ipiSend n v = s.ipiNote n true := by
  unfold State.ipiSend; dsimp only; rw [if_neg (Bool.eq_false_iff.mp h), if_neg hs]; exact if_neg (Bool.eq_false_iff.mp ho)

end

/-- An IPI to several cores: each of them has it pending, and nothing else changes. -/
theorem State.ipiPend_each {l : List Nat} (hl : l.Nodup) (s : State) (tag : Nat) :
    s.each l (fun s => s.ipiPend tag) = { s with cores := (s.each l (fun s => s.ipiPend tag)).cores } ∧
    ∀ j, (s.each l (fun s => s.ipiPend tag)).core j =
      if j ∈ l then (s.core j).setSr 0x431 ((s.core j).srv 0x431 ||| BitVec.ofNat 64 (2 ^ tag)) else s.core j := by
  induction l generalizing s with
  | nil => exact ⟨rfl, fun j => rfl⟩
  | cons m l ih =>
    obtain ⟨hm, hl⟩ := List.nodup_cons.mp hl
    obtain ⟨hf, hc⟩ := ih hl (s.ipiPend tag m)
    refine ⟨hf, fun j => (hc j).trans ?_⟩
    by_cases hj : j = m
    · subst hj
      rw [if_neg hm, if_pos (List.mem_cons_self ..), State.ipiPend, State.core_setCore_eq]
    · rw [State.ipiPend, State.core_setCore_ne _ _ hj]
      simp only [List.mem_cons, hj, false_or]

theorem State.ipiAll_spec (s : State) (n tag : Nat) :
    s.ipiAll n tag = { s with cores := (s.ipiAll n tag).cores } ∧
    (∀ j, j < 216 → j ≠ n → s.ipiReaches j = true →
      (s.ipiAll n tag).core j = (s.core j).setSr 0x431 ((s.core j).srv 0x431 ||| BitVec.ofNat 64 (2 ^ tag))) ∧
    ∀ j, 216 ≤ j ∨ j = n ∨ s.ipiReaches j ≠ true → (s.ipiAll n tag).core j = s.core j := by
  obtain ⟨hf, hc⟩ := State.ipiPend_each (l := (List.range 216).filter (fun m => decide (m ≠ n) && s.ipiReaches m))
    (List.nodup_range.filter _) s tag
  have hmem : ∀ j, j ∈ (List.range 216).filter (fun m => decide (m ≠ n) && s.ipiReaches m) ↔ j < 216 ∧ j ≠ n ∧ s.ipiReaches j = true :=
    fun j => by rw [List.mem_filter, List.mem_range, Bool.and_eq_true, decide_eq_true_eq]
  refine ⟨hf, fun j hj hn hr => (hc j).trans (if_pos ((hmem j).mpr ⟨hj, hn, hr⟩)), fun j h => (hc j).trans (if_neg fun hm => ?_)⟩
  obtain ⟨hj, hn, hr⟩ := (hmem j).mp hm
  exact h.elim (by omega) (fun h => h.elim hn (fun h => h hr))

/-- With no store in its buffer a core waits for none. -/
theorem State.sbEmpty_nil {s : State} {n : Nat} (h : (s.core n).sb = []) : s.sbEmpty n = (.ok (), s) := by
  have hd : State.sbDrain (s.core n).sb.length s n = (true, s) := by
    rw [h]; unfold State.sbDrain; simp [h]
  unfold State.sbEmpty
  rw [hd]

/-- IPI_SEND once the stores before it are performed: it ends in the state that the sending leaves. -/
theorem ipiSend_completes {s : State} {x : Insn} {rs : Reg} {P : State → Prop} (h : s.Executes x { sys := s.srTrap x.core 0x430 true })
    (hk : s.srReach x.core 0x430 = 0x430) (hsb : (s.core x.core).sb = []) {u : State} {b : Bool}
    (hu : s.ipiSend x.core (s.src x rs) = u.ipiNote x.core b) (hp : u.pending = s.pending)
    (hP : P ((u.ipiNote x.core b).finishInsn x (s.core x.core).pc none)) : Completes (.ipiSend x rs) s P := by
  refine mtsrInsn_completes (u := u.ipiNote x.core b) h ?_ hp hP
  unfold State.srWrite
  dsimp only
  rw [hk, if_neg (by decide), if_pos rfl, State.sbEmpty_nil hsb]
  exact congrArg (Prod.mk (Got.ok ())) hu

/-- The sender after its note, where the IPI left it as it was. -/
theorem State.ipiNote_end_core {s u : State} {x : Insn} (b : Bool) (hc : u.core x.core = s.core x.core) :
    ((u.ipiNote x.core b).finishInsn x (s.core x.core).pc none).core x.core =
      ((s.core x.core).setSr 0x430 (if b then BitVec.ofNat 64 (2 ^ 63) else 0)).past (s.nextPc x) := by
  rw [State.core_finishInsn, State.ipiNote, State.core_setCore_eq, hc]
  rfl

theorem State.ipiNote_end_core_ne (u : State) {x : Insn} (b : Bool) (pc : Word) {j : Nat} (hj : j ≠ x.core) :
    ((u.ipiNote x.core b).finishInsn x pc none).core j = u.core j := by
  rw [State.core_finishInsn_ne _ _ _ _ hj, State.ipiNote, State.core_setCore_ne _ _ hj]

theorem State.ipiNote_end_frame (u : State) (x : Insn) (b : Bool) (pc : Word) : CoresPcs u ((u.ipiNote x.core b).finishInsn x pc none) :=
  (show CoresPcs u (u.ipiNote x.core b) from rfl).trans (coresPcs_finishInsn ..)

/-- The package after an IPI that changed at most the cores and the outputs. -/
theorem State.ipiNote_end_out {s u : State} (hu : u = { s with cores := u.cores, out := u.out }) (x : Insn) (pc : Word) :
    let t := (u.ipiNote x.core false).finishInsn x pc none
    t = { s with cores := t.cores, pcs := t.pcs, out := t.out } ∧ t.out = u.out := by
  intro t
  have hf : t = { u with cores := t.cores, pcs := t.pcs } := State.ipiNote_end_frame u x false pc
  have hout : t.out = u.out := by rw [hf]
  refine ⟨?_, hout⟩
  rw [hout]
  exact hf.trans (congrArg (fun u : State => { u with cores := t.cores, pcs := t.pcs }) hu)

/-- An IPI that reaches no other core changes its sender alone. -/
theorem State.ipiNote_coreOnly (s : State) (x : Insn) (b : Bool) :
    s.CoreOnly ((s.ipiNote x.core b).finishInsn x (s.core x.core).pc none) x (s.nextPc x) :=
  State.finishInsn_coreOnly rfl (fun _ hm => State.core_setCore_ne _ _ hm) none

theorem ipiArrivalRun_pends {s : State} {n : Nat} {tag : BitVec 6} (hr : (s.core n).released = true) (ho : n < 216 → s.coreOut n = false) :
    ipiArrivalRun n tag s = s.ipiPend tag.toNat n := by
  unfold ipiArrivalRun
  dsimp only
  refine if_neg ?_
  by_cases hn : n < 216 <;> simp [hr, hn]
  exact ho hn

theorem ipiArrival_completes (s : State) (n : Nat) (tag : BitVec 6) (hn : wfCore n = true) (hs : s.stopped = false)
    (hr : (s.core n).released = true) (ho : n < 216 → s.coreOut n = false) :
    Completes (.ipiArrival n tag) s fun t =>
      t = { s with cores := t.cores } ∧ (∀ m, m ≠ n → t.core m = s.core m) ∧
      t.core n = { s.core n with sr := (t.core n).sr } ∧
      (∀ i, i < 64 → ((t.core n).srv 0x431).getLsbD i = (decide (i = tag.toNat) || ((s.core n).srv 0x431).getLsbD i)) ∧
      ∀ j, j ≠ 0x431 → (t.core n).srv j = (s.core n).srv j := by
  have hc : (s.ipiPend tag.toNat n).core n = _ := State.core_setCore_eq ..
  refine completes_run hn hs (ipiArrivalRun_pends hr ho) rfl ⟨rfl, fun m hm => State.core_setCore_ne _ _ hm, ?_, fun i hi => ?_, fun j hj => ?_⟩
  · rw [hc]; rfl
  · rw [hc, Core.srv_setSr_eq, setBit_getLsbD _ hi]
  · rw [hc, Core.srv_setSr_ne _ _ hj]

/-- Settles O7, row by row. -/
theorem stateRegisterInstructionsComplete : Obligations.StateRegisterInstructionsComplete := by
  refine ⟨fun s x rd sr h hx hn => mfsr_reads h (s.srRead_value hx hn), mfsr_service_number, mtsr_completes, mtsr_readOnly, atomctlClr_completes,
    extclaim_claims, extclaim_none, fun s x rs h hk hsb => ⟨fun hv hs ht hm => ?other, fun hv hs ht hm => ?self, fun hv hs ht => ?absent,
    fun hv hs ho => ?away, fun hv hs ho => ?nowhere, fun hv => ?all⟩, ipiArrival_completes⟩
  case other =>
    refine ipiSend_completes h hk hsb (State.ipiSend_here hv hs ((s.ipiReaches_iff _).mpr ht)) rfl ⟨?_, fun j hj hjm => ?_, ?_, ?_⟩
    · exact State.ipiNote_end_frame (s.ipiPend _ _) x false _
    · exact (State.ipiNote_end_core_ne _ _ _ hj).trans (State.core_setCore_ne _ _ hjm)
    · exact (State.ipiNote_end_core_ne _ _ _ hm).trans (State.core_setCore_eq ..)
    · exact State.ipiNote_end_core false (State.core_setCore_ne _ _ (Ne.symm hm))
  case self =>
    have hc : ((s.ipiPend (bitsOf (s.src x rs) 16 6) (bitsOf (s.src x rs) 0 10 % 216)).core (bitsOf (s.src x rs) 0 10 % 216)) = _ :=
      State.core_setCore_eq ..
    refine ipiSend_completes h hk hsb (State.ipiSend_here hv hs ((s.ipiReaches_iff _).mpr ht)) rfl ⟨?_, ?_, ?_⟩
    · exact State.finishInsn_coreOnly rfl
        (fun j hj => (State.core_setCore_ne _ _ hj).trans (State.core_setCore_ne _ _ (by rw [hm]; exact hj))) none
    all_goals
      rw [hm] at hc ⊢
      rw [State.core_finishInsn, State.ipiNote, State.core_setCore_eq, hc, Core.srv_past]
    · rw [Core.srv_setSr_ne _ _ (by decide), Core.srv_setSr_eq]
    · rw [Core.srv_setSr_eq]; rfl
  case absent =>
    refine ipiSend_completes h hk hsb (State.ipiSend_absent hv hs (fun hr => ht ((s.ipiReaches_iff _).mp hr))) rfl
      ⟨s.ipiNote_coreOnly x true, State.ipiNote_end_core true rfl⟩
  case away =>
    obtain ⟨hf, hout⟩ := State.ipiNote_end_out (u := s.emit (.ipi (bitsOf (s.src x rs) 0 10) (bitsOf (s.src x rs) 16 6))) rfl x (s.core x.core).pc
    refine ipiSend_completes h hk hsb (State.ipiSend_away hv hs ho) rfl ⟨hf, hout, fun j hj => ?_, ?_⟩
    · exact State.ipiNote_end_core_ne _ _ _ hj
    · exact State.ipiNote_end_core false rfl
  case nowhere =>
    exact ipiSend_completes h hk hsb (State.ipiSend_nowhere hv hs ho) rfl ⟨s.ipiNote_coreOnly x true, State.ipiNote_end_core true rfl⟩
  case all =>
    obtain ⟨hf, hpend, hkeep⟩ := s.ipiAll_spec x.core (bitsOf (s.src x rs) 16 6)
    have hsend := State.ipiSend_all (s := s) (n := x.core) hv
    generalize s.ipiAll x.core (bitsOf (s.src x rs) 16 6) = u at hf hpend hkeep hsend
    obtain ⟨hframe, hout⟩ := State.ipiNote_end_out (s := s)
      (u := { u with out := u.out ++ s.otherSockets.map fun j => .ipi (1024 + j) (bitsOf (s.src x rs) 16 6) }) (by rw [hf]) x (s.core x.core).pc
    have hp : u.pending = s.pending := by rw [hf]
    refine ipiSend_completes h hk hsb hsend hp ⟨hframe, hout.trans ?_, fun j hj hne ht => ?_, fun j hne ht => ?_, ?_⟩
    · rw [hf]; rfl
    · rw [State.ipiNote_end_core_ne _ _ _ hne]
      exact (congrArg (Core.srv · 0x431) (hpend j hj hne ((s.ipiReaches_iff j).mpr ht))).trans (Core.srv_setSr_eq ..)
    · rw [State.ipiNote_end_core_ne _ _ _ hne]
      exact hkeep j (ht.imp id fun h => .inr fun hr => h ((s.ipiReaches_iff j).mp hr))
    · exact State.ipiNote_end_core false (hkeep _ (.inr (.inl rfl)))

end Sys2Proof.Machine
end

section
/-! SUPPORT.
Returns and waits: ERET (R65, R433), WFI (R504) and the timer's interrupt (R436). -/

namespace Sys2Proof.Machine

/-! ### The end of a wait -/

/-- A timer interrupt that is pending is among the wake sources. -/
theorem State.irq_of_timer {s : State} {n : Nat} (h : s.timerIrq n = true) : s.irq n = true := by
  unfold State.irq State.irqs
  rw [h]
  simp

theorem timerInterruptRun_wakes {s : State} {n : Nat} (ht : s.timerIrq n = true) (hr : (s.core n).released = true) (hh : s.wakeHeld n = false)
    (hw : (s.core n).waiting = true) (hc : n ≥ 216 ∨ s.cstate n = 0) :
    timerInterruptRun n s = s.setCore n { s.core n with waiting := false } := by
  have hclk : (decide (n ≥ 216) || decide (s.cstate n = 0)) = true := by simpa using hc
  have hawake : s.awake n = (true, s.setCore n { s.core n with waiting := false }) := by
    unfold State.awake
    dsimp only
    rw [hw, State.irq_of_timer ht, hclk]
    rfl
  unfold timerInterruptRun
  rw [ht, hr, hh, hawake]
  rfl

/-! ### WFI -/

/-- WFI with no store waiting ends in the state that the wait leaves. -/
theorem wfi_completes {s u : State} {x : Insn} {P : State → Prop} (h : s.Executes x { gpr := false, level := 1 }) (hsb : (s.core x.core).sb = [])
    (hu : (if s.irq x.core then s else s.coreSleep x.core) = u) (hp : u.pending = s.pending)
    (hP : P (u.finishInsn x (s.core x.core).pc none)) : Completes (.wfi x) s P :=
  completes_ok h (by rw [State.sbEmpty_nil hsb]; exact congrArg (Prod.mk (Got.ok none)) hu) hp hP

theorem wfi_pending (s : State) (x : Insn) (h : s.Executes x { gpr := false, level := 1 }) (hsb : (s.core x.core).sb = [])
    (hi : s.irq x.core = true) :
    Completes (.wfi x) s fun t => s.CoreOnly t x (s.nextPc x) ∧ t.core x.core = (s.core x.core).past (s.nextPc x) :=
  wfi_completes h hsb (if_pos hi) rfl ⟨State.finishInsn_coreOnly rfl (fun _ _ => rfl) none, State.core_finishInsn ..⟩

section
variable {s : State} {n : Nat}

/-- A wait with clocks running changes no power state. -/
theorem State.coreSleep_running (h : n ≥ 216 ∨ (s.core n).darkW = true) : s.coreSleep n = s.setCore n { s.core n with waiting := true } := by
  unfold State.coreSleep
  exact if_pos h

variable (hn : n < 216) (hd : (s.core n).darkW = false)
include hn hd

/-- The core state that WFIC selects, where the caches stay (R504). -/
theorem State.coreSleep_clocked (hw : s.fget (kPwrCctl n) fPwrCctl_WFIC ≠ 2) :
    s.coreSleep n = (s.setCore n { s.core n with waiting := true }).fput (kPwrCctl n) fPwrCctl_CSTATE
      (if s.fget (kPwrCctl n) fPwrCctl_WFIC = 1 then 2 else 1) := by
  have hw' : (s.setCore n { s.core n with waiting := true }).fget (kPwrCctl n) fPwrCctl_WFIC ≠ 2 := hw
  unfold State.coreSleep
  dsimp only
  rw [if_neg (by rw [hd]; simp [hn]), if_neg hw', if_neg hw']
  rfl

theorem State.coreSleep_empty (hw : s.fget (kPwrCctl n) fPwrCctl_WFIC = 2) (hl : (s.core n).caches.l2 = []) (hb : s.home.wbuf = [])
    (he : s.home.evq = []) :
    let v := (s.setCore n { s.core n with waiting := true }).fput (kPwrCctl n) fPwrCctl_CSTATE 3
    s.coreSleep n = v.setCaches n { (v.core n).caches with l1i := [], l1d := [], vc := [], sbuf := [] } := by
  intro v
  have hw' : (s.setCore n { s.core n with waiting := true }).fget (kPwrCctl n) fPwrCctl_WFIC = 2 := hw
  have hcaches : (v.core n).caches.l2 = [] := by
    rw [show v.core n = _ from State.core_setCore_eq ..]; exact hl
  have hdrain : v.drainCore n = v.setCaches n { (v.core n).caches with l1i := [], l1d := [], vc := [], sbuf := [] } := by
    unfold State.drainCore
    dsimp only
    rw [hcaches, State.each_nil, hcaches]
  have hwb : ∀ c, (v.setCaches n c).drainWb = v.setCaches n c := fun c => by
    unfold State.drainWb
    split
    · rfl
    · have h1 : (v.setCaches n c).home.evq = [] := he
      have h2 : (v.setCaches n c).home.wbuf = [] := hb
      rw [h1]; dsimp only [List.foldl_nil]; rw [h2]; rfl
  unfold State.coreSleep
  dsimp only
  rw [if_neg (by rw [hd]; simp [hn]), if_pos hw', if_neg (by rw [hw']; decide), if_pos hw', hdrain, hwb]

end

/-- The count of completed instructions is no power register. -/
theorem kPwrCctl_ne_kEvt (n i : Nat) (hi : i < 2) : kPwrCctl n ≠ kEvt (n / 18) (n % 18) i := by
  unfold kPwrCctl kEvt pcsKey
  omega

theorem State.cstate_finishInsn (u : State) (x : Insn) (pc : Word) (g : Option Word) : (u.finishInsn x pc g).cstate x.core = u.cstate x.core := by
  unfold State.cstate State.fget
  rw [State.rd_finishInsn_ne _ _ _ _ (kPwrCctl_ne_kEvt _ _ (by decide))]

theorem wfi_running (s : State) (x : Insn) (h : s.Executes x { gpr := false, level := 1 }) (hsb : (s.core x.core).sb = [])
    (hi : s.irq x.core = false) (hr : x.core ≥ 216 ∨ (s.core x.core).darkW = true) :
    Completes (.wfi x) s fun t =>
      s.CoreOnly t x (s.nextPc x) ∧ t.core x.core = ({ s.core x.core with waiting := true }).past (s.nextPc x) := by
  refine wfi_completes h hsb ((if_neg (by simp [hi])).trans (State.coreSleep_running hr)) rfl ?_
  obtain ⟨hc, -, -, ht⟩ := State.finishInsn_core (s := s) (x := x) (c := { s.core x.core with waiting := true }) rfl
    (fun m hm => State.core_setCore_ne _ _ hm) (State.core_setCore_eq ..) rfl rfl rfl
  exact ⟨hc, ht⟩

theorem wfi_clocked (s : State) (x : Insn) (h : s.Executes x { gpr := false, level := 1 }) (hsb : (s.core x.core).sb = [])
    (hi : s.irq x.core = false) (hn : x.core < 216) (hd : (s.core x.core).darkW = false) (hw : s.fget (kPwrCctl x.core) fPwrCctl_WFIC ≠ 2) :
    Completes (.wfi x) s fun t =>
      t = { s with cores := t.cores, pcs := t.pcs } ∧ (∀ m, m ≠ x.core → t.core m = s.core m) ∧
      t.core x.core = ({ s.core x.core with waiting := true }).past (s.nextPc x) ∧
      t.cstate x.core = (if s.fget (kPwrCctl x.core) fPwrCctl_WFIC = 1 then 2 else 1) := by
  refine wfi_completes h hsb ((if_neg (by simp [hi])).trans (State.coreSleep_clocked hn hd hw)) rfl ⟨?_, fun m hm => ?_, ?_, ?_⟩
  · exact coresPcs_finishInsn ..
  · exact (State.core_finishInsn_ne _ _ _ _ hm).trans (State.core_setCore_ne _ _ hm)
  · rw [State.core_finishInsn, State.core_fput, State.core_setCore_eq]; rfl
  · rw [State.cstate_finishInsn, State.cstate, State.fget_fput _ _ _ _ (by decide)]
    split <;> rfl

theorem wfi_empty (s : State) (x : Insn) (h : s.Executes x { gpr := false, level := 1 }) (hsb : (s.core x.core).sb = [])
    (hi : s.irq x.core = false) (hn : x.core < 216) (hd : (s.core x.core).darkW = false) (hw : s.fget (kPwrCctl x.core) fPwrCctl_WFIC = 2)
    (hl : (s.core x.core).caches.l2 = []) (hb : s.home.wbuf = []) (he : s.home.evq = []) :
    Completes (.wfi x) s fun t =>
      t = { s with cores := t.cores, pcs := t.pcs } ∧ (∀ m, m ≠ x.core → t.core m = s.core m) ∧
      t.core x.core = ({ s.core x.core with waiting := true, caches :=
        { (s.core x.core).caches with l1i := [], l1d := [], vc := [], sbuf := [] } }).past (s.nextPc x) ∧
      t.cstate x.core = 3 := by
  refine wfi_completes h hsb ((if_neg (by simp [hi])).trans (State.coreSleep_empty hn hd hw hl hb he)) rfl ⟨?_, fun m hm => ?_, ?_, ?_⟩
  · exact coresPcs_finishInsn ..
  · exact (State.core_finishInsn_ne _ _ _ _ hm).trans ((State.core_setCore_ne _ _ hm).trans (State.core_setCore_ne _ _ hm))
  · rw [State.core_finishInsn, State.setCaches, State.core_setCore_eq, State.core_fput, State.core_setCore_eq]; rfl
  · rw [State.cstate_finishInsn]
    exact State.fget_fput (s.setCore x.core _) (kPwrCctl x.core) fPwrCctl_CSTATE 3 (by decide)

/-! ### ERET (R65, R433) -/

/-- Whether an ERET leaves the Darkroom: from M to a level below, with no monitor call under way. -/
def State.eretExits (s : State) (n : Nat) (es : Word) : Bool :=
  decide ((s.core n).level = 3 ∧ es.toNat % 4 < 3) && !((s.core n).srv 0xD00).getLsbD 0

/-- Whether an ERET is undefined: to a level above, to H of the Darkroom, or out of a sealed die. -/
def State.eretBad (s : State) (n : Nat) (es : Word) : Bool :=
  decide (1 ≤ (s.core n).level) &&
    (decide (es.toNat % 4 > (s.core n).level) || (decide ((s.core n).level = 3 ∧ es.toNat % 4 = 2) && ((s.core n).srv 0xD00).getLsbD 0) ||
      (s.eretExits n es && s.sealedCore n))

/-- IE, VEN and the level of a saved status, in the world that the core is in. -/
def State.restored (u : State) (n : Nat) (es : Word) : State :=
  u.setCore n ((u.core n).setSr 0x400 (((u.core n).srv 0x400 &&& 0x80000000#64) ||| (es &&& 0x303#64)))

/-- ERET, defined and with the frame below resident; `v` is the state after the move of the window. -/
theorem eret_completes {s v : State} {x : Insn} {b : Nat} {es : Word} {P : State → Prop} (h : s.Executes x { gpr := false, level := 1 })
    (hb : b = excBase x.core (s.core x.core).level (s.core x.core).darkW) (he : es = (s.core x.core).srv (b + 1)) (hbad : s.eretBad x.core es = false)
    (hr : 3 ≤ s.resident x.core) (hv : (if s.eretExits x.core es then s.worldExit x.core (es.toNat % 4) else s.unslide x.core) = v)
    (hp : v.pending = s.pending) (hP : P ((v.restored x.core es).finishInsn x (s.core x.core).pc (some ((v.core x.core).srv b)))) :
    Completes (.eret x) s P := by
  subst he hb
  have hrun : eretRun x s = s.insn x { gpr := false, level := 1, undef := s.eretBad x.core _ } _ := rfl
  rw [hbad] at hrun
  refine completes_congr (f := eretRun x) _ hrun (completes_ok h ?_ (u := v.restored x.core _) hp hP)
  have hframe : ∀ own, s.needFrame x.core own = (.ok (), s) := fun own => by unfold State.needFrame; exact if_neg (by omega)
  dsimp only
  rw [hframe]
  subst hv
  rfl

section
variable (u : State) (n : Nat) (es : Word)

theorem State.core_restored : (u.restored n es).core n = { u.core n with sr := ((u.restored n es).core n).sr } := by
  unfold State.restored; rw [State.core_setCore_eq]; rfl

theorem State.restored_srv : ((u.restored n es).core n).srv 0x400 = ((u.core n).srv 0x400 &&& 0x80000000#64) ||| (es &&& 0x303#64) := by
  unfold State.restored; rw [State.core_setCore_eq]; exact Core.srv_setSr_eq ..

theorem State.restored_srv_ne {j : Nat} (hj : j ≠ 0x400) : ((u.restored n es).core n).srv j = (u.core n).srv j := by
  unfold State.restored; rw [State.core_setCore_eq]; exact Core.srv_setSr_ne _ _ hj

theorem State.restored_level : ((u.restored n es).core n).level = es.toNat % 4 := by
  unfold Core.level
  rw [show SMap.get srReset ((u.restored n es).core n).sr 0x400 = _ from u.restored_srv n es]
  exact status_level _ _ _ (by decide)

theorem State.restored_darkW : ((u.restored n es).core n).darkW = (u.core n).darkW := by
  unfold Core.darkW
  rw [show SMap.get srReset ((u.restored n es).core n).sr 0x400 = _ from u.restored_srv n es]
  exact status_dark _ _

/-- IE and VEN are those of the saved status. -/
theorem State.restored_enables {i : Nat} (hi : i = 8 ∨ i = 9) : (((u.restored n es).core n).srv 0x400).getLsbD i = es.getLsbD i := by
  rw [u.restored_srv]
  rcases hi with rfl | rfl <;> simp

end

/-! ### The exit from the Darkroom (R433) -/

/-- What a world exit leaves of the core's registers: c5 to c7 and the frames of the running and of Darkroom code are zeroed. -/
theorem worldExit_regs (s : State) (n l : Nat) :
    ((s.worldExit n l).core n).c = (s.core n).c.filter (fun p => p.1 < 5) ∧
    ((s.worldExit n l).core n).win = ((List.range (s.resident n)).map fun k => ((s.core n).oldest + k) % frames n).foldl
      (fun v f => if decide (f = (s.core n).cwp ∨ f = ((s.core n).cwp + 1) % frames n) || decide ((s.core n).owner f % 2 = 1) then zeroWin v f 0 else v)
      (s.core n).win ∧
    ((s.worldExit n l).core n).pred = [] := by
  unfold State.worldExit
  simp only [State.core_evt, State.predReset, State.unslide, State.core_setCore_eq, Core.setSr]
  exact ⟨trivial, trivial, trivial⟩

theorem worldExit_core_ne (s : State) (n l : Nat) {m : Nat} (hm : m ≠ n) : (s.worldExit n l).core m = s.core m := by
  unfold State.worldExit
  simp only [State.core_evt, State.predReset, State.unslide]
  simp only [State.core_setCore_ne _ _ hm]

/-- A world exit counts one event of the package. -/
theorem worldExit_rd (s : State) (n l : Nat) {k : Nat} (hk : k ≠ kEvt 15 2 5) : (s.worldExit n l).rd k = s.rd k := by
  unfold State.worldExit
  exact State.evt_rd_ne _ _ _ _ hk

/-- A zeroed register stays zero while other frames are zeroed. -/
theorem foldl_zeroWin_keeps {g : Nat → Bool} {k : Nat} (l : List Nat) (w : SMap Word) (h : SMap.get (fun _ => 0) w k = 0) :
    SMap.get (fun _ => 0) (l.foldl (fun v f => if g f then zeroWin v f 0 else v) w) k = 0 := by
  induction l generalizing w with
  | nil => exact h
  | cons f l ih =>
    refine ih _ ?_
    dsimp only
    split
    · rw [zeroWin_get, h, ite_self]
    · exact h

theorem foldl_zeroWin_zero {g : Nat → Bool} {k : Nat} {l : List Nat} (hk : k / 16 ∈ l) (hg : g (k / 16) = true) (w : SMap Word) :
    SMap.get (fun _ => 0) (l.foldl (fun v f => if g f then zeroWin v f 0 else v) w) k = 0 := by
  obtain ⟨a, b, rfl⟩ := List.append_of_mem hk
  rw [List.foldl_append, List.foldl_cons]
  refine foldl_zeroWin_keeps b _ ?_
  rw [if_pos hg, zeroWin_get, if_pos ⟨rfl, Nat.zero_le _⟩]

/-- With three frames resident the current window's frame and its t-frame are among them. -/
theorem State.resident_top {s : State} {n f : Nat} (h : 3 ≤ s.resident n)
    (hf : f = ((s.core n).cwp + 1) % frames n ∨ f = (s.core n).cwp ∧ f < frames n) :
    f ∈ (List.range (s.resident n)).map fun k => ((s.core n).oldest + k) % frames n := by
  have hd : s.resident n = ((s.core n).cwp + 1 + frames n - (s.core n).oldest) % frames n + 1 := rfl
  rw [List.mem_map]
  rcases frames_cases n with hF | hF <;> rw [hF] at hd hf ⊢
  all_goals
    rcases hf with hf | ⟨hf, hlt⟩
    · exact ⟨s.resident n - 1, List.mem_range.mpr (by omega), by omega⟩
    · exact ⟨s.resident n - 2, List.mem_range.mpr (by omega), by omega⟩

theorem get_filterKeys (w : SMap Word) (p : Nat → Bool) (k : Nat) :
    SMap.get (fun _ => 0) (w.filter fun e => p e.1) k = if p k then SMap.get (fun _ => 0) w k else 0 := by
  induction w with
  | nil => simp [SMap.get]
  | cons e r ih =>
    obtain ⟨j, v⟩ := e
    rw [List.filter_cons]
    by_cases hj : j = k
    · subst hj
      by_cases hp : p j = true
      · simp [hp, SMap.get]
      · rw [if_neg hp, ih, if_neg hp, if_neg hp]
    · have hskip : SMap.get (fun _ => 0) ((j, v) :: r) k = SMap.get (fun _ => 0) r k := by simp [SMap.get, hj]
      rw [hskip, ← ih]
      split
      · simp [SMap.get, hj]
      · rfl

/-- The frames of the running code read as zero after a world exit. -/
theorem worldExit_frame_zero (s : State) (n l : Nat) {f i : Nat} (h : 3 ≤ s.resident n)
    (hf : f = ((s.core n).cwp + 1) % frames n ∨ f = (s.core n).cwp ∧ f < frames n) (hi : i < 16) :
    SMap.get (fun _ => 0) ((s.worldExit n l).core n).win (16 * f + i) = 0 := by
  have hq : (16 * f + i) / 16 = f := by omega
  rw [(worldExit_regs s n l).2.1]
  refine foldl_zeroWin_zero (by rw [hq]; exact State.resident_top h hf) ?_ _
  rw [hq]
  rcases hf with hf | ⟨hf, -⟩ <;> simp [hf]

theorem eret_stays (s : State) (x : Insn) :
    let c := s.core x.core
    let b := excBase x.core c.level c.darkW
    let es := c.srv (b + 1)
    s.Executes x { gpr := false, level := 1 } → 1 ≤ c.level → es.toNat % 4 ≤ c.level →
    (c.level = 3 → es.toNat % 4 = 3 ∨ (es.toNat % 4 < 2 ∧ (c.srv 0xD00).getLsbD 0 = true)) → 3 ≤ s.resident x.core →
    Completes (.eret x) s fun t =>
      s.CoreOnly t x (pcOf (c.srv b)) ∧ (t.core x.core).level = es.toNat % 4 ∧ (t.core x.core).darkW = c.darkW ∧
      (t.core x.core).cwp = s.parentWin x.core ∧
      t.core x.core = ({ c with sr := (t.core x.core).sr, cwp := (t.core x.core).cwp, owners := (t.core x.core).owners }).past
        (pcOf (c.srv b)) ∧
      (∀ j, j ≠ 0x400 → (t.core x.core).srv j = c.srv j) ∧
      (∀ i, i = 8 ∨ i = 9 → ((t.core x.core).srv 0x400).getLsbD i = es.getLsbD i) := by
  intro c b es h hl hle hm hr
  have hexit : s.eretExits x.core es = false := by
    unfold State.eretExits
    by_cases h3 : c.level = 3
    · rcases hm h3 with h | ⟨-, h⟩
      · simp [h]
      · rw [show (s.core x.core).srv 0xD00 = c.srv 0xD00 from rfl, h]; simp
    · rw [show (s.core x.core).level = c.level from rfl]; simp [h3]
  have hbad : s.eretBad x.core es = false := by
    unfold State.eretBad
    have hnot : ¬ ((s.core x.core).level = 3 ∧ es.toNat % 4 = 2) := fun ⟨h3, h2⟩ => by rcases hm h3 with h | ⟨h, -⟩ <;> omega
    rw [hexit, decide_eq_false hnot, decide_eq_false (Nat.not_lt.mpr hle)]
    simp
  have hsame : (s.unslide x.core).core x.core = { s.core x.core with cwp := s.parentWin x.core, owners := ((s.unslide x.core).core x.core).owners } :=
    State.core_unslide ..
  have hsr : ∀ j, ((s.unslide x.core).core x.core).srv j = c.srv j := fun j => by rw [hsame]; rfl
  refine eret_completes (v := s.unslide x.core) (es := es) h rfl rfl hbad hr (by rw [hexit]; rfl) rfl ?_
  have ht := State.core_finishInsn ((s.unslide x.core).restored x.core es) x (s.core x.core).pc
    (some (((s.unslide x.core).core x.core).srv b))
  have hc := State.finishInsn_coreOnly (s := s) (u := (s.unslide x.core).restored x.core es) (x := x) rfl
    (fun m hm => (State.core_setCore_ne _ _ hm).trans (State.core_setCore_ne _ _ hm)) (some (((s.unslide x.core).core x.core).srv b))
  generalize ((s.unslide x.core).restored x.core es).finishInsn x (s.core x.core).pc (some (((s.unslide x.core).core x.core).srv b)) = t at ht hc
  rw [hsr] at ht hc
  refine ⟨hc, ?_, ?_, ?_, ?_, fun j hj => ?_, fun i hi => ?_⟩
  · rw [ht]; exact State.restored_level ..
  · rw [ht]; refine (State.restored_darkW ..).trans ?_; rw [hsame]; rfl
  · rw [ht, State.core_restored, hsame]; rfl
  · rw [ht, State.core_restored, hsame]; rfl
  · rw [ht]; exact (State.restored_srv_ne _ _ _ hj).trans (hsr j)
  · rw [ht]; exact State.restored_enables _ _ _ hi

theorem eret_exits (s : State) (x : Insn) :
    let c := s.core x.core
    let es := c.srv 0xC21
    s.Executes x { gpr := false, level := 1 } → c.level = 3 → es.toNat % 4 < 3 → (c.srv 0xD00).getLsbD 0 = false →
    s.sealedCore x.core = false → 3 ≤ s.resident x.core →
    Completes (.eret x) s fun t =>
      t = { s with cores := t.cores, pcs := t.pcs } ∧ (∀ m, m ≠ x.core → t.core m = s.core m) ∧
      (∀ k, k ≠ kEvt (x.core / 18) (x.core % 18) 1 → k ≠ kEvt 15 2 5 → t.rd k = s.rd k) ∧
      (t.core x.core).pc = pcOf (c.srv 0xC20) ∧ (t.core x.core).level = es.toNat % 4 ∧ (t.core x.core).darkW = false ∧
      (∀ i, i = 8 ∨ i = 9 → ((t.core x.core).srv 0x400).getLsbD i = es.getLsbD i) ∧
      (∀ j, j ≠ 0x400 → (t.core x.core).srv j = c.srv j) ∧ (t.core x.core).pred = [] ∧
      (∀ r w, 5 ≤ r → r < 8 → t.regAt x.core r w = 0) ∧ (∀ r w, r < 5 → t.regAt x.core r w = s.regAt x.core r w) ∧
      (∀ i, i < 16 → (c.cwp < frames x.core → SMap.get (fun _ => 0) (t.core x.core).win (16 * c.cwp + i) = 0) ∧
        SMap.get (fun _ => 0) (t.core x.core).win (16 * ((c.cwp + 1) % frames x.core) + i) = 0) ∧
      (∀ r, t.vreg x.core r = 0) ∧ (∀ p, p ≠ 0 → t.pr x.core p = false) ∧ (t.core x.core).cwp = s.parentWin x.core := by
  intro c es h hl hlt hm hseal hr
  have hb : (0xC20 : Nat) = excBase x.core (s.core x.core).level (s.core x.core).darkW := by
    unfold excBase; exact (if_pos hl).symm
  have hexit : s.eretExits x.core es = true := by
    unfold State.eretExits
    rw [decide_eq_true ⟨hl, hlt⟩, show ((s.core x.core).srv 0xD00).getLsbD 0 = false from hm]
    rfl
  have hbad : s.eretBad x.core es = false := by
    unfold State.eretBad
    rw [hexit, hseal, decide_eq_false (show ¬ es.toNat % 4 > (s.core x.core).level from by rw [show (s.core x.core).level = 3 from hl]; omega),
      show ((s.core x.core).srv 0xD00).getLsbD 0 = false from hm]
    simp
  obtain ⟨hv, hpreds, hcwp, hsr, hst⟩ := worldExit_core s x.core (es.toNat % 4)
  obtain ⟨hc, -, hpred⟩ := worldExit_regs s x.core (es.toNat % 4)
  have hzero := fun f i => @worldExit_frame_zero s x.core (es.toNat % 4) f i hr
  have hne := fun m hm => @worldExit_core_ne s x.core (es.toNat % 4) m hm
  have hrd := fun k hk => @worldExit_rd s x.core (es.toNat % 4) k hk
  have hf := worldExit_frame s x.core (es.toNat % 4)
  refine eret_completes (v := s.worldExit x.core (es.toNat % 4)) (es := es) h hb rfl hbad hr (by rw [hexit]; rfl) (by rw [hf]) ?_
  generalize s.worldExit x.core (es.toNat % 4) = v at *
  have ht := State.core_finishInsn (v.restored x.core es) x (s.core x.core).pc (some ((v.core x.core).srv 0xC20))
  have htne := fun m hm => State.core_finishInsn_ne (v.restored x.core es) x (s.core x.core).pc (some ((v.core x.core).srv 0xC20)) (m := m) hm
  have htrd := fun k hk => State.rd_finishInsn_ne (v.restored x.core es) x (s.core x.core).pc (some ((v.core x.core).srv 0xC20)) (k := k) hk
  have htf : CoresPcs (v.restored x.core es) _ := coresPcs_finishInsn (v.restored x.core es) x (s.core x.core).pc (some ((v.core x.core).srv 0xC20))
  generalize (v.restored x.core es).finishInsn x (s.core x.core).pc (some ((v.core x.core).srv 0xC20)) = t at *
  rw [hsr _ (by decide)] at ht
  have hwin : (t.core x.core).win = (v.core x.core).win := by rw [ht, State.core_restored]; rfl
  have hregs : (t.core x.core).c = c.c.filter (fun p => p.1 < 5) := by rw [ht, State.core_restored]; exact hc
  refine ⟨hf.trans ((show CoresPcs v (v.restored x.core es) from rfl).trans htf), fun m hm => ?others, fun k hk hk' => ?pcs, ?pc, ?level, ?world,
    fun i hi => ?enables, fun j hj => ?srs, ?pred, fun r w h5 h8 => ?high, fun r w h5 => ?low, fun i hi => ⟨fun hlt => ?frame, ?tframe⟩,
    fun r => ?vreg, fun p hp => ?preds, ?cwp⟩
  case others => exact (htne m hm).trans ((State.core_setCore_ne _ _ hm).trans (hne m hm))
  case pcs => exact (htrd k hk).trans (hrd k hk')
  case pc => rw [ht]; rfl
  case level => rw [ht]; exact State.restored_level ..
  case world =>
    rw [ht]
    refine (State.restored_darkW ..).trans ?_
    unfold Core.darkW
    rw [show SMap.get srReset (v.core x.core).sr 0x400 = _ from hst]
    simp
  case enables => rw [ht]; exact State.restored_enables _ _ _ hi
  case srs => rw [ht]; exact (State.restored_srv_ne _ _ _ hj).trans (hsr j hj)
  case pred => rw [ht, State.core_restored]; exact hpred
  case high =>
    unfold State.regAt
    dsimp only
    rw [if_neg (by omega), if_pos h8, hregs, get_filterKeys c.c (fun k => decide (k < 5)), if_neg (by simpa using h5)]
  case low =>
    unfold State.regAt
    dsimp only
    rw [if_pos (show r < 8 by omega), if_pos (show r < 8 by omega), hregs, get_filterKeys c.c (fun k => decide (k < 5)),
      if_pos (decide_eq_true h5)]
  case frame => rw [hwin]; exact hzero _ _ (.inr ⟨rfl, hlt⟩) hi
  case tframe => rw [hwin]; exact hzero _ _ (.inl rfl) hi
  case vreg =>
    have : (t.core x.core).v = [] := by rw [ht, State.core_restored]; exact hv
    unfold State.vreg
    rw [this]
    rfl
  case preds =>
    have hone : (t.core x.core).preds = 1 := by rw [ht, State.core_restored]; exact hpreds
    have hp' : p.toNat ≠ 0 := fun e => hp (BitVec.eq_of_toNat_eq e)
    unfold State.pr
    rw [hone, decide_eq_false hp, Bool.false_or]
    simp [BitVec.getLsbD_one, hp']
  case cwp => rw [ht, State.core_restored]; exact hcwp

/-- Settles O9, row by row. -/
theorem waitAndReturnComplete : Obligations.WaitAndReturnComplete :=
  ⟨fun _ _ hn hs ht hr hh hw hc => completes_run hn hs (timerInterruptRun_wakes ht hr hh hw hc) rfl rfl,
    wfi_pending, wfi_running, wfi_clocked, wfi_empty, eret_stays, eret_exits⟩

end Sys2Proof.Machine
end

section
/-! SUPPORT.
Cache maintenance (R77, R78, R171–R176): CMO and CMOR on memory that is not Normal-WB, on a line that nobody holds, and ICINV. -/

namespace Sys2Proof.Machine

/-! ### An access that the core's own translations grant -/

theorem State.xlSelf_hit {s : State} {n acc va : Nat} {l : Xlat} (h : s.Translates n acc va l) (ha : acc ≠ 2) : s.xlSelf n acc va = (.ok l, s) := by
  obtain ⟨r, e, hr, he, hg, rfl⟩ := h
  dsimp only at he hg
  have ht : s.translate n acc (s.core n).level (s.core n).darkW false va =
      (.ok ⟨(e.pa + (va - e.base)) % 2 ^ 52, e.key, s.typeOf n r.code acc e, if e.s2 then e.lv2 else e.lv1,
        if e.s2 then some (e.ipa + (va - e.base)) else none⟩, s) := by
    unfold State.translate
    rw [hr]
    dsimp only
    rw [decide_eq_false ha]
    rw [List.find?_append] at he
    cases hl : (s.core n).tlbs.locked.find? (fun t => t.tags r va) with
    | some k =>
      rw [hl, Option.some_or] at he
      cases he
      dsimp only
      rw [if_pos hg]
    | none =>
      rw [hl, Option.none_or] at he
      dsimp only
      rw [if_neg (by decide), he]
      dsimp only
      rw [if_pos hg]
  unfold State.xlSelf State.xl
  rw [ht]

theorem CmoOp.acc_ne_fetch (op : CmoOp) : op.acc ≠ 2 := by
  unfold CmoOp.acc; split <;> decide

section
variable {s u : State} {n : Nat} (h : RegFileOnly s u n)
include h

theorem RegFileOnly.regimeOf (level : Nat) (dark spec : Bool) (va : Nat) : u.regimeOf n level dark spec va = s.regimeOf n level dark spec va := by
  unfold State.regimeOf; rw [h.core]; rfl

theorem RegFileOnly.xacc (acc level : Nat) (dark : Bool) : u.xacc n acc level dark = s.xacc n acc level dark := by
  unfold State.xacc; rw [h.core]; rfl

theorem RegFileOnly.typeOf (code acc : Nat) (e : TlbEnt) : u.typeOf n code acc e = s.typeOf n code acc e := by
  unfold State.typeOf; rw [h.core]; rfl

/-- The registers of a core do not govern its translations. -/
theorem RegFileOnly.translates {acc va : Nat} {l : Xlat} (ht : s.Translates n acc va l) : u.Translates n acc va l := by
  obtain ⟨r, e, hr, he, hg, hl⟩ := ht
  have hlevel : (u.core n).level = (s.core n).level := by rw [h.core]; rfl
  have hdark : (u.core n).darkW = (s.core n).darkW := by rw [h.core]; rfl
  have htlbs : (u.core n).tlbs = (s.core n).tlbs := by rw [h.core]
  refine ⟨r, e, ?_, ?_, ?_, ?_⟩
  · rw [h.regimeOf, hlevel, hdark]; exact hr
  · rw [htlbs]; exact he
  · dsimp only; rw [h.xacc, hlevel, hdark]; exact hg
  · rw [h.typeOf]; exact hl

end

/-! ### Registers that an instruction reads and writes (R78) -/

/-- Of the package only the general registers of one core may differ. -/
structure GprsOnly (s u : State) (n : Nat) : Prop where
  eq : u = { s with cores := u.cores }
  ne : ∀ m, m ≠ n → u.core m = s.core m
  core : u.core n = { s.core n with c := (u.core n).c, win := (u.core n).win }

theorem GprsOnly.refl (s : State) (n : Nat) : GprsOnly s s n := ⟨rfl, fun _ _ => rfl, rfl⟩

theorem GprsOnly.trans {s u w : State} {n : Nat} (h : GprsOnly s u n) (h' : GprsOnly u w n) : GprsOnly s w n := by
  refine ⟨?_, fun m hm => (h'.ne m hm).trans (h.ne m hm), ?_⟩
  · rw [h'.eq, h.eq]
  · rw [h'.core, h.core]

theorem GprsOnly.regFile {s u : State} {n : Nat} (h : GprsOnly s u n) : RegFileOnly s u n := ⟨h.eq, h.ne, by rw [h.core]⟩

theorem gprsOnly_dstSrc (s : State) (x : Insn) (r : Reg) (v : Word) : GprsOnly s (s.dstSrc x r v) x.core :=
  ⟨State.setRegAt_eq .., fun _ h => State.core_setRegAt_ne _ _ _ _ _ h, State.core_setRegAt ..⟩

/-- The window of an instruction's source registers (R72). -/
def State.srcWin (s : State) (x : Insn) : Nat := if x.win.getLsbD 1 then s.parentWin x.core else (s.core x.core).cwp

theorem GprsOnly.srcWin {s u : State} {x : Insn} (h : GprsOnly s u x.core) : u.srcWin x = s.srcWin x := by
  have hc : (u.core x.core).cwp = (s.core x.core).cwp := by rw [h.core]
  unfold State.srcWin State.parentWin; rw [hc]

/-- A register written for an instruction's later steps reads as what was written, and every other as before. -/
theorem State.src_dstSrc (s : State) (x : Insn) (r q : Reg) (v : Word) (hr : r ≠ 0) :
    (s.dstSrc x r v).src x q = if q = r then v else s.src x q := by
  have hw : (s.dstSrc x r v).srcWin x = s.srcWin x := (gprsOnly_dstSrc s x r v).srcWin
  show (s.setRegAt x.core r.toNat (s.srcWin x) v).regAt x.core q.toNat ((s.dstSrc x r v).srcWin x) = _
  rw [hw, State.regAt_setRegAt]
  have hr' : r.toNat ≠ 0 := fun e => hr (BitVec.eq_of_toNat_eq e)
  have lr : r.toNat < 32 := r.isLt
  have lq : q.toNat < 32 := q.isLt
  by_cases e : q = r
  · subst e
    rw [if_pos rfl, if_pos ⟨hr', by split <;> [rfl; exact ⟨by omega, rfl⟩]⟩]
  · have hne : q.toNat ≠ r.toNat := fun h => e (BitVec.eq_of_toNat_eq h)
    rw [if_neg e, if_neg]
    · rfl
    · rintro ⟨-, h⟩
      split at h
      · exact hne h
      · exact hne (physReg_inj (by omega) lq h.1 lr h.2)

theorem State.finishInsn_src (u : State) (x : Insn) (pc : Word) (g : Option Word) (q : Reg) : (u.finishInsn x pc g).src x q = u.src x q := by
  unfold State.src State.parentWin
  rw [State.finishInsn_regAt, State.core_finishInsn]
  rfl

/-- The end of an instruction that wrote general registers of its core alone. -/
theorem GprsOnly.finishInsn {s u : State} {x : Insn} (h : GprsOnly s u x.core) :
    let t := u.finishInsn x (s.core x.core).pc none
    s.CoreOnly t x (s.nextPc x) ∧ (s.core x.core).RegsOnly (t.core x.core) ∧ s.SamePreds t x.core := by
  refine ⟨State.finishInsn_coreOnly h.eq h.ne none, ?_, fun p => ?_⟩
  · unfold Core.RegsOnly
    rw [State.core_finishInsn, h.core]
    rfl
  · rw [State.finishInsn_pr]; unfold State.pr; rw [h.core]

/-! ### A line that nobody holds, at its home -/

/-- Of the package only the home slices, registers and counters of the Package Control Space, and the lists of waits for media
may differ. -/
def SlicesPcs (s u : State) : Prop := u = { s with pcs := u.pcs, enl := u.enl, home := { s.home with slices := u.home.slices } }

theorem SlicesPcs.trans {s u w : State} (h : SlicesPcs s u) (h' : SlicesPcs u w) : SlicesPcs s w := by
  unfold SlicesPcs at *
  generalize w.pcs = p, w.enl = e, w.home.slices = l at *
  rw [h', h]

theorem slicesPcs_evtBy (s : State) (d b i k : Nat) : SlicesPcs s (s.evtBy d b i k) := by
  unfold SlicesPcs; rw [State.evtBy_eq]

theorem slicesPcs_putTrans (s : State) (t : Trans) : SlicesPcs s (s.putTrans t) := rfl

theorem slicesPcs_delTrans (s : State) (line : Nat) : SlicesPcs s (s.delTrans line) := by
  unfold State.delTrans State.fed State.setStarved SlicesPcs
  dsimp only
  split <;> rfl

theorem SlicesPcs.dirFind {s u : State} (h : SlicesPcs s u) (line : Nat) : u.dirFind line = s.dirFind line := by
  unfold State.dirFind; rw [h]

/-- With nothing in the write-back buffer and no notice waiting there is nothing to send. -/
theorem State.drainWb_empty {s : State} (hw : s.home.wbuf = []) (he : s.home.evq = []) : s.drainWb = s := by
  unfold State.drainWb
  rw [he]
  dsimp only [List.foldl_nil]
  rw [hw]
  exact ite_self _

/-- The maintenance requests that read nothing of a line that nobody holds (R171, R172). -/
def ReqKind.Maintains (k : ReqKind) : Prop := k = .cmc ∨ k = .cmi ∨ k = .cmci

theorem State.begin_quiet {s : State} {p : Pend} (hd : s.dirFind p.req.line = none) (hk : haEvent p.kind = none) (hr : p.req.rt = false) :
    ∃ c, s.begin' p = (Trans.fresh p, (s.evtBy 15 (0x80 + lineSlice p.req.line) 8 c).putTrans (Trans.fresh p)) := by
  refine ⟨if p.req.dark && !s.drCount then 0 else 0, ?_⟩
  unfold State.begin'
  dsimp only
  rw [hd, hk, hr]
  rfl

theorem State.homeFinish_quiet {s : State} {p : Pend} (hd : s.dirFind p.req.line = none) (hk : p.kind.Maintains) :
    s.homeFinish (Trans.fresh p) = (.done, s.delTrans p.req.line) := by
  have hclear : (s.delTrans p.req.line).clearLost p.req.line = s.delTrans p.req.line := by
    unfold State.clearLost; rw [(slicesPcs_delTrans s _).dirFind, hd]
  have hend : ∀ e, s.closeEnd (Trans.fresh p) e .done = (.done, s.delTrans p.req.line) := fun e => by
    have hr : (Trans.fresh p).req.line = p.req.line := rfl
    unfold State.closeEnd State.dirEnd
    cases e <;> simp only [hr, hd, hclear]
  unfold State.homeFinish
  rw [show s.lostFirst (Trans.fresh p) = (some (Trans.fresh p), s) from rfl]
  obtain ⟨k, r, m, v⟩ := p
  dsimp only at hd hend ⊢
  rcases hk with h | h | h <;> dsimp only at h <;> subst h
  all_goals
    rw [show (Trans.fresh ⟨_, r, m, v⟩).req.line = r.line from rfl, hd]
    exact hend _

theorem State.openTrans_quiet {s : State} {p : Pend} (hd : s.dirFind p.req.line = none) (hk : p.kind.Maintains) (hr : p.req.rt = false) :
    ∃ u, s.openTrans p = (.ans .done, u) ∧ SlicesPcs s u := by
  have hev : haEvent p.kind = none := by rcases hk with h | h | h <;> rw [h] <;> rfl
  obtain ⟨c, hb⟩ := State.begin_quiet hd hev hr
  have hw : SlicesPcs s ((s.evtBy 15 (0x80 + lineSlice p.req.line) 8 c).putTrans (Trans.fresh p)) :=
    (slicesPcs_evtBy ..).trans (slicesPcs_putTrans ..)
  generalize (s.evtBy 15 (0x80 + lineSlice p.req.line) 8 c).putTrans (Trans.fresh p) = w at hb hw
  refine ⟨_, ?_, hw.trans (slicesPcs_delTrans w p.req.line)⟩
  have hlocal : w.answerLocal (Trans.fresh p) = (Trans.fresh p, w) := rfl
  have hsend : w.sendSnoops (Trans.fresh p) = w := rfl
  unfold State.openTrans
  dsimp only
  rw [hb, hlocal, ite_self]
  dsimp only
  rw [hsend, if_pos (show (Trans.fresh p).await.isEmpty = true from rfl), State.homeFinish_quiet ((hw.dirFind _).trans hd) hk]

theorem State.start_quiet {s : State} {k : ReqKind} {r : HomeReq} {m : ReqMode} (hq : s.Quiet r.line) (hk : k.Maintains)
    (hdark : r.dark = true ∨ s.ownDark (r.line * 64) = false) (hs : r.spec = false) (hr : r.rt = false) :
    ∃ u, s.start (.fresh k r m) true = (.ans .done, u) ∧ SlicesPcs s u := by
  obtain ⟨hdown, hl, htr, hwt, hpk, -, -, -, -, hd⟩ := hq
  have hheld : s.lineHeld r.line = false := by unfold State.lineHeld State.transOf; rw [htr, hd]; rfl
  have holder : s.olderWaits r.line = false := by unfold State.olderWaits; dsimp only; rw [hwt, hpk]; rfl
  have hfull : s.sliceFull r.line r.dark = false := by
    unfold State.sliceFull State.transLimit
    dsimp only
    rw [htr, hpk]
    split_ifs <;> rfl
  have hadmit := State.admit_opens (k := k) (fresh := true) hdown hl hdark hs hheld (by rw [holder]; rfl) hfull
  have hgo : ¬ (k.allocates = true ∧ s.dirFind r.line = none) := by rcases hk with h | h | h <;> subst h <;> simp [ReqKind.allocates]
  rw [if_neg hgo] at hadmit
  obtain ⟨u, hu, hsu⟩ := State.openTrans_quiet (s := s) (p := .fresh k r m) hd hk hr
  refine ⟨u, ?_, hsu⟩
  have hstart : s.start (.fresh k r m) true = s.homeStart (.fresh k r m) true := by
    unfold State.start
    rcases hl with h | h <;> rw [show (Pend.fresh k r m).req.line = r.line from rfl, h]
  rw [hstart]
  unfold State.homeStart
  dsimp only
  rw [show s.homeAdmit (Pend.fresh k r m).kind (Pend.fresh k r m).req true = _ from hadmit]
  exact hu

theorem State.homeSync_quiet {s : State} {k : ReqKind} {r : HomeReq} (hq : s.Quiet r.line) (hk : k.Maintains)
    (hdark : r.dark = true ∨ s.ownDark (r.line * 64) = false) (hs : r.spec = false) (hr : r.rt = false) :
    ∃ u, s.homeSync k r = (.done, u) ∧ SlicesPcs s u := by
  obtain ⟨u, hu, hsu⟩ := State.start_quiet (m := .held) hq hk hdark hs hr
  obtain ⟨-, -, htr, hwt, hpk, hwb, hev, hask, hrep, -⟩ := hq
  refine ⟨u, ?_, hsu⟩
  have hun : k.uncached = false := by rcases hk with h | h | h <;> subst h <;> rfl
  have htake : s.takeHeld k r = none := by unfold State.takeHeld; rw [hrep]; rfl
  have hway : s.underWay k r = false := by unfold State.underWay; dsimp only; rw [htr, hwt, hpk, hask]; rfl
  have hdrain : u.drainWb = u := State.drainWb_empty (by rw [hsu]; exact hwb) (by rw [hsu]; exact hev)
  unfold State.homeSync
  dsimp only
  rw [hun, Bool.false_and, if_neg (by decide), State.drainWb_empty hwb hev, htake]
  dsimp only
  rw [hway, if_neg (by decide), hu]
  dsimp only
  rw [hdrain]

/-! ### Maintenance of one line (R171–R173, R175) -/

/-- Maintenance of memory that is not Normal-WB does nothing (R171). -/
theorem State.cmoLine_other {s : State} {n : Nat} {op : CmoOp} {l : Xlat} (h : l.type ≠ 0) : s.cmoLine n op l = (.ok (), s) := by
  unfold State.cmoLine
  dsimp only
  rw [decide_eq_false h, Bool.false_and]
  cases s.lineKind (l.hpa / 64) <;> rfl

theorem State.cmoVa_other {s : State} {n va : Nat} {op : CmoOp} {l : Xlat} (h : s.Translates n op.acc va l) (ht : l.type ≠ 0) :
    s.cmoVa n op va = (.ok (), s) := by
  unfold State.cmoVa
  rw [State.xlSelf_hit h op.acc_ne_fetch]
  exact State.cmoLine_other ht

theorem State.cmoMiss_none {s : State} {n line : Nat} {b : Bool} (h : s.missAt n line = false) : s.cmoMiss n line b = (false, s) := by
  unfold State.cmoMiss
  dsimp only
  rw [h]
  rfl

theorem State.cmoOwn_none {s : State} {n line : Nat} (hn : n < 216) (h : (s.core n).caches.l2Find line = none) (dark d : Bool) :
    s.cmoOwn n line dark d = s := by
  have hm : (s.core n).caches.merge line = (s.core n).caches := by
    unfold CoreCaches.merge; rw [h]; cases (s.core n).caches.dirtySector line <;> rfl
  unfold State.cmoOwn
  dsimp only
  rw [if_neg (by omega), hm, h]

theorem State.coreDark_compute {s : State} {n : Nat} (hn : n < 216) : s.coreDark n = (s.core n).darkW := by
  unfold State.coreDark; rw [if_neg (by omega), if_neg (by omega)]

/-- What a maintenance of a line asks of a home: its request kind. -/
def CmoOp.request : CmoOp → ReqKind
  | .clean => .cmc
  | .inval => .cmi
  | .cleaninv => .cmci
  | .zero => .cmz

/-- The request of a core's maintenance at the home of a line, with its answer. -/
def State.cmoAsk (s : State) (n : Nat) (l : Xlat) (k : ReqKind) (dark : Bool) : Got Unit × State :=
  match s.homeSync k (coreReq s n (l.hpa / 64) l.key dark false (decide (k = .cmz))) with
  | (.wait, s) => (.wait, s)
  | (_, s) => (.ok (), s)

/-- What maintenance does once the stores before it are performed and no miss is open on its line. -/
def State.cmoAct (s : State) (n : Nat) (op : CmoOp) (l : Xlat) : Got Unit × State :=
  let line := l.hpa / 64
  let dark := s.coreDark n
  match op with
  | .clean => s.cmoAsk n l .cmc dark
  | .inval => (s.cmoOwn n line dark true).drainWb.cmoAsk n l .cmi dark
  | .cleaninv => (s.cmoOwn n line dark false).drainWb.cmoAsk n l .cmci dark
  | .zero =>
    match (if n ≥ 216 then SMap.find s.spCache line else (s.core n).caches.current line) with
    | some e => if seen e dark && decide (e.st = .m ∨ e.st = .e) then (.ok (), s.writeOwned n e 0 (BitVec.allOnes 64)) else s.cmoAsk n l .cmz dark
    | none => s.cmoAsk n l .cmz dark

section
variable {s : State} {n : Nat} {op : CmoOp} {l : Xlat} (hn : n < 216) (ht : l.type = 0) (hc : s.Cacheable (l.hpa / 64))
  (hsb : (s.core n).sb = []) (hm : s.missAt n (l.hpa / 64) = false)
include hn ht hc hsb hm

theorem State.cmoLine_acts : s.cmoLine n op l = s.cmoAct n op l := by
  have hscr : (decide (l.type = 0) && !inScratch n l.hpa) = true := by
    unfold inScratch; rw [decide_eq_true ht, decide_eq_false (by omega)]; rfl
  have htouch : s.spTouch n = s := by unfold State.spTouch; exact if_neg (by omega)
  unfold State.cmoLine
  dsimp only
  rw [hscr, State.sbEmpty_nil hsb]
  dsimp only [andThen]
  rw [htouch, State.cmoMiss_none hm]
  rcases hc with h | h <;> rw [h] <;> rfl

/-- CLEAN, INVAL and CLEANINV of a line that nobody holds complete at its home (R171, R172). -/
theorem State.cmoLine_quiet (hop : op ≠ .zero) (hq : s.Quiet (l.hpa / 64))
    (hd : s.coreDark n = true ∨ s.ownDark (l.hpa / 64 * 64) = false) (hl : (s.core n).caches.l2Find (l.hpa / 64) = none) :
    ∃ u, s.cmoLine n op l = (.ok (), u) ∧ SlicesPcs s u := by
  rw [State.cmoLine_acts hn ht hc hsb hm]
  have hask : ∀ k : ReqKind, k.Maintains → ∃ u, s.cmoAsk n l k (s.coreDark n) = (.ok (), u) ∧ SlicesPcs s u := fun k hk => by
    obtain ⟨u, hu, hsu⟩ := State.homeSync_quiet (s := s)
      (r := coreReq s n (l.hpa / 64) l.key (s.coreDark n) false (decide (k = .cmz))) hq hk hd rfl rfl
    exact ⟨u, by unfold State.cmoAsk; rw [hu], hsu⟩
  obtain ⟨-, -, -, -, -, hwb, hev, -⟩ := hq
  unfold State.cmoAct
  cases op with
  | zero => exact absurd rfl hop
  | clean => exact hask .cmc (.inl rfl)
  | inval => dsimp only; rw [State.cmoOwn_none hn hl, State.drainWb_empty hwb hev]; exact hask .cmi (.inr (.inl rfl))
  | cleaninv => dsimp only; rw [State.cmoOwn_none hn hl, State.drainWb_empty hwb hev]; exact hask .cmci (.inr (.inr rfl))

/-- ZERO of a line that the core owns writes it (R173). -/
theorem State.cmoLine_zero {e : CLine} (ho : s.Owns n (l.hpa / 64) e) : s.cmoLine n .zero l = (.ok (), s.writeOwned n e 0 (BitVec.allOnes 64)) := by
  obtain ⟨-, hcur, hseen, hst, -⟩ := ho
  rw [State.cmoLine_acts hn ht hc hsb hm]
  unfold State.cmoAct
  dsimp only
  rw [if_neg (by omega), hcur]
  dsimp only
  rw [State.coreDark_compute hn, hseen, decide_eq_true hst]
  rfl

end

/-! ### CMO -/

/-- An instruction's end leaves the queue of waiting commands as its operation does. -/
theorem State.finishInsn_withPending {s u : State} (h : u.pending = s.pending) (x : Insn) (pc : Word) (g : Option Word) :
    { u.finishInsn x pc g with pending := s.pending } = u.finishInsn x pc g := by
  rw [← h]
  exact congrArg (fun q => { u.finishInsn x pc g with pending := q }) (State.finishInsn_pending u x pc g).symm

theorem cmo_exec : ∀ c ∈ [(Instr.cmoClean, CmoOp.clean, 0), (.cmoInval, .inval, 1), (.cmoCleaninv, .cleaninv, 0), (.cmoZero, .zero, 0)],
    ∀ (x : Insn) (ra : Reg) (s : State), exec (c.1 x ra) s = runs x.wf (fun s => s.cmo x c.2.1 ra) s ∧
      c.2.2 = if c.2.1 = .inval then 1 else 0 := by
  intro c hc x ra s
  simp only [List.mem_cons, List.not_mem_nil, or_false] at hc
  rcases hc with rfl | rfl | rfl | rfl <;> exact ⟨rfl, rfl⟩

/-- CMO ends as the maintenance of its line does. -/
theorem cmo_completes {s u : State} {x : Insn} {op : CmoOp} {ra : Reg} {P : State → Prop} (h : s.Executes x { level := if op = .inval then 1 else 0 })
    (hu : s.cmoVa x.core op (s.src x ra).toNat = (.ok (), u)) (hP : P { u.finishInsn x (s.core x.core).pc none with pending := s.pending }) :
    ∃ t, runs x.wf (fun s => s.cmo x op ra) s = .next t ∧ P t :=
  completes_ok' (body := fun s => endUnit (s.cmoVa x.core op (s.src x ra).toNat)) h (by rw [hu]; rfl) hP

theorem State.cmoVa_quiet {s : State} {n va : Nat} {op : CmoOp} {l : Xlat} (hop : op ≠ .zero) (h : s.Translates n op.acc va l) (ht : l.type = 0)
    (hn : n < 216) (hsb : (s.core n).sb = []) (hm : s.missAt n (l.hpa / 64) = false) (hq : s.Quiet (l.hpa / 64))
    (hd : s.coreDark n = true ∨ s.ownDark (l.hpa / 64 * 64) = false) (hl : (s.core n).caches.l2Find (l.hpa / 64) = none) :
    ∃ u, s.cmoVa n op va = (.ok (), u) ∧ SlicesPcs s u := by
  obtain ⟨u, hu, hsu⟩ := State.cmoLine_quiet hn ht hq.2.1 hsb hm hop hq hd hl
  refine ⟨u, ?_, hsu⟩
  unfold State.cmoVa
  rw [State.xlSelf_hit h op.acc_ne_fetch]
  exact hu

theorem SlicesPcs.core {s u : State} (h : SlicesPcs s u) (n : Nat) : u.core n = s.core n := by unfold State.core; rw [h]

/-- The caches, the directory and the memories after maintenance that changed no more than home slices, and what then changed
one core alone. -/
theorem SlicesPcs.cachesAsBefore {s u t : State} {n : Nat} (h : SlicesPcs s u) (hf : CoresPcs u t) (hne : ∀ m, m ≠ n → t.core m = u.core m) :
    s.CachesAsBefore t n := by
  have hl3 : t.l3 = s.l3 := by rw [hf, h]
  refine ⟨fun m hm => (hne m hm).trans (h.core m), ?_, ?_, ?_, ?_, ?_, ?_, fun g => by unfold State.l3Of; rw [hl3]⟩
  all_goals rw [hf, h]

/-! ### CMOR (R78) -/

theorem cmor_exec : ∀ c ∈ [(Instr.cmorClean, CmoOp.clean, 0), (.cmorInval, .inval, 1), (.cmorCleaninv, .cleaninv, 0)],
    ∀ (x : Insn) (ra rn : Reg) (s : State), exec (c.1 x ra rn none) s = runs x.wf (fun s => s.cmor x c.2.1 ra rn none) s ∧
      (c.2.2 = if c.2.1 = .inval then 1 else 0) ∧ c.2.1 ≠ .zero := by
  intro c hc x ra rn s
  simp only [List.mem_cons, List.not_mem_nil, or_false] at hc
  rcases hc with rfl | rfl | rfl <;> exact ⟨rfl, rfl, by decide⟩

/-- CMOR of an aligned range ends as the maintenance of its lines does. -/
theorem cmor_completes {s u : State} {x : Insn} {op : CmoOp} {ra rn : Reg} {P : State → Prop}
    (h : s.Executes x { level := if op = .inval then 1 else 0, align := s.alignEarly x ra rn 64 })
    (ha : (s.src x ra).toNat % 64 = 0) (hn : (s.src x rn).toNat % 64 = 0)
    (hu : State.cmorLoop ((s.src x rn).toNat / 64) s x op ra rn = (.ok (), u))
    (hP : P { u.finishInsn x (s.core x.core).pc none with pending := s.pending }) :
    ∃ t, runs x.wf (fun s => s.cmor x op ra rn none) s = .next t ∧ P t := by
  refine completes_congr (f := fun s => s.cmor x op ra rn none) _ rfl (completes_ok' (u := u) (g := none) h ?_ hP)
  have halign : s.alignTrap x ra rn 64 = none := by unfold State.alignTrap; exact if_neg (by omega)
  rw [halign]
  dsimp only
  rw [Option.getD_none, Nat.min_self, hu]
  exact congrArg (Prod.mk · u) (if_pos rfl)

/-- One line of a CMOR, after which ra and rn describe the remainder. -/
theorem State.cmorLoop_line {s u : State} {x : Insn} {op : CmoOp} {ra rn : Reg} (k : Nat) (hr : s.src x rn ≠ 0)
    (hu : s.cmoVa x.core op (s.src x ra).toNat = (.ok (), u)) :
    State.cmorLoop (k + 1) s x op ra rn = State.cmorLoop k ((u.dstSrc x ra (s.src x ra + 64)).dstSrc x rn (s.src x rn - 64)) x op ra rn := by
  rw [State.cmorLoop, if_neg hr, hu]
  rfl

/-- CMOR over memory that is not Normal-WB does nothing but move its registers to the end of the range (R171). -/
theorem State.cmorLoop_other {x : Insn} {op : CmoOp} {ra rn : Reg} (ha : ra ≠ 0) (hn : rn ≠ 0) (hd : ra ≠ rn) (k : Nat) :
    ∀ s : State, (s.src x rn).toNat = 64 * k →
      (∀ i, i < k → ∃ l, s.Translates x.core op.acc (s.src x ra + BitVec.ofNat 64 (64 * i)).toNat l ∧ l.type ≠ 0) →
      ∃ u, State.cmorLoop k s x op ra rn = (.ok (), u) ∧ GprsOnly s u x.core ∧ u.src x ra = s.src x ra + s.src x rn ∧ u.src x rn = 0 := by
  induction k with
  | zero =>
    intro s hk _
    have h0 : s.src x rn = 0 := BitVec.eq_of_toNat_eq hk
    exact ⟨s, rfl, .refl .., by rw [h0]; exact (BitVec.add_zero _).symm, h0⟩
  | succ k ih =>
    intro s hk ht
    have hr : s.src x rn ≠ 0 := fun e => by rw [e] at hk; simp at hk
    obtain ⟨l, hl, hty⟩ := ht 0 (by omega)
    rw [show s.src x ra + BitVec.ofNat 64 (64 * 0) = s.src x ra from BitVec.add_zero _] at hl
    have hstep := State.cmorLoop_line (ra := ra) (rn := rn) k hr (State.cmoVa_other hl hty)
    have hgprs : GprsOnly s ((s.dstSrc x ra (s.src x ra + 64)).dstSrc x rn (s.src x rn - 64)) x.core :=
      (gprsOnly_dstSrc ..).trans (gprsOnly_dstSrc ..)
    have hra : ((s.dstSrc x ra (s.src x ra + 64)).dstSrc x rn (s.src x rn - 64)).src x ra = s.src x ra + 64 := by
      rw [State.src_dstSrc _ _ _ _ _ hn, if_neg hd, State.src_dstSrc _ _ _ _ _ ha, if_pos rfl]
    have hrn : ((s.dstSrc x ra (s.src x ra + 64)).dstSrc x rn (s.src x rn - 64)).src x rn = s.src x rn - 64 := by
      rw [State.src_dstSrc _ _ _ _ _ hn, if_pos rfl]
    generalize (s.dstSrc x ra (s.src x ra + 64)).dstSrc x rn (s.src x rn - 64) = v at hstep hgprs hra hrn
    obtain ⟨u, hu, hgu, hua, hun⟩ := ih v (by rw [hrn]; bv_omega) fun i hi => by
      obtain ⟨l, hl, hty⟩ := ht (i + 1) (by omega)
      refine ⟨l, hgprs.regFile.translates ?_, hty⟩
      rw [hra, show s.src x ra + 64 + BitVec.ofNat 64 (64 * i) = s.src x ra + BitVec.ofNat 64 (64 * (i + 1)) by
        rw [BitVec.add_assoc]; congr 1; apply BitVec.eq_of_toNat_eq; simp; omega]
      exact hl
    refine ⟨u, hstep.trans hu, hgprs.trans hgu, ?_, hun⟩
    rw [hua, hra, hrn]
    bv_omega

/-! ### ICINV (R174) -/

/-- A core's L1I without a line. -/
def State.icinv (u : State) (n line : Nat) : State :=
  u.setCaches n { (u.core n).caches with l1i := (u.core n).caches.l1i.filter (fun p => p.2.line ≠ line) }

/-- The core at the end of an ICINV. -/
theorem State.icinv_end_core (u : State) (x : Insn) (line : Nat) (pc : Word) :
    let d := ((u.icinv x.core line).finishInsn x pc none).core x.core
    (∀ p, p ∈ d.caches.l1i ↔ p ∈ (u.core x.core).caches.l1i ∧ p.2.line ≠ line) ∧
    d = ({ u.core x.core with caches := { (u.core x.core).caches with l1i := d.caches.l1i } }).past (pcOf (pc + BitVec.ofNat 64 x.len)) := by
  dsimp only
  rw [State.core_finishInsn, State.icinv, State.setCaches, State.core_setCore_eq]
  exact ⟨fun p => by simp [Core.past], rfl⟩

theorem icinv_general (s u : State) (x : Insn) (ra : Reg) (l : Xlat) (h : s.Executes x {}) (hl : s.xlSelf x.core 0 (s.src x ra).toNat = (.ok l, u)) :
    Completes (.icinv x ra) s fun t =>
      (t.core x.core).pc = s.nextPc x ∧ (∀ n, n ≠ x.core → t.core n = u.core n) ∧
      (∀ p, p ∈ (t.core x.core).caches.l1i ↔ p ∈ (u.core x.core).caches.l1i ∧ p.2.line ≠ l.hpa / 64) ∧
      t.core x.core = ({ u.core x.core with caches := { (u.core x.core).caches with l1i := (t.core x.core).caches.l1i } }).past (s.nextPc x) := by
  obtain ⟨hl1i, hcore⟩ := u.icinv_end_core x (l.hpa / 64) (s.core x.core).pc
  refine completes_ok' (u := u.icinv x.core (l.hpa / 64)) (g := none) h (by dsimp only; rw [hl]; rfl)
    ⟨congrArg Core.pc hcore, fun n hn => ?_, hl1i, hcore⟩
  exact (State.core_finishInsn_ne _ _ _ _ hn).trans (State.core_setCore_ne _ _ hn)

theorem icinv_hit (s : State) (x : Insn) (ra : Reg) (l : Xlat) (h : s.Executes x {}) (hl : s.Translates x.core 0 (s.src x ra).toNat l) :
    Completes (.icinv x ra) s fun t =>
      s.CoreOnly t x (s.nextPc x) ∧
      (∀ p, p ∈ (t.core x.core).caches.l1i ↔ p ∈ (s.core x.core).caches.l1i ∧ p.2.line ≠ l.hpa / 64) ∧
      t.core x.core = ({ s.core x.core with caches := { (s.core x.core).caches with l1i := (t.core x.core).caches.l1i } }).past (s.nextPc x) := by
  obtain ⟨hl1i, hcore⟩ := s.icinv_end_core x (l.hpa / 64) (s.core x.core).pc
  refine completes_ok (u := s.icinv x.core (l.hpa / 64)) (g := none) h (by dsimp only; rw [State.xlSelf_hit hl (by decide)]; rfl) rfl
    ⟨?_, hl1i, hcore⟩
  exact State.finishInsn_coreOnly rfl (fun m hm => State.core_setCore_ne _ _ hm) none

theorem icinvAll_completes (s : State) (x : Insn) (h : s.Executes x { level := 1 }) :
    Completes (.icinvAll x) s fun t =>
      s.CoreOnly t x (s.nextPc x) ∧
      t.core x.core = ({ s.core x.core with caches := { (s.core x.core).caches with l1i := [] } }).past (s.nextPc x) := by
  refine completes_simply h rfl ?_
  obtain ⟨hc, -, -, ht⟩ := State.finishInsn_core (s := s) (x := x) (c := { s.core x.core with caches := { (s.core x.core).caches with l1i := [] } })
    rfl (fun m hm => State.core_setCore_ne _ _ hm) (State.core_setCore_eq ..) rfl rfl rfl
  exact ⟨hc, ht⟩

/-! ### The rows -/

/-- Settles O16, row by row. -/
theorem cacheMaintenanceComplete : Obligations.CacheMaintenanceComplete := by
  refine ⟨fun c hc s x ra h => ?cmo, fun s x ra l e h hl ht hk hsb hm ho => ?zero, fun c hc s x ra rn h ha hr => ?cmor,
    icinv_general, icinv_hit, icinvAll_completes⟩
  case cmo =>
    obtain ⟨hexec, hlevel⟩ := cmo_exec c hc x ra s
    rw [hlevel] at h
    have ends : ∀ {u : State} {P : State → Prop}, s.cmoVa x.core c.2.1 (s.src x ra).toNat = (.ok (), u) →
        P { u.finishInsn x (s.core x.core).pc none with pending := s.pending } → Completes (c.1 x ra) s P := fun hu hP => by
      unfold Completes
      rw [hexec]
      exact cmo_completes h hu hP
    refine ⟨fun u hu => ends hu rfl, fun l hl ht => ends (State.cmoVa_other hl ht) ?other, fun l hz hl ht hn hsb hm hq hd hf => ?quiet⟩
    case other =>
      rw [State.finishInsn_withPending rfl]
      exact ⟨State.finishInsn_coreOnly rfl (fun _ _ => rfl) none, State.core_finishInsn ..⟩
    case quiet =>
      obtain ⟨u, hu, hsu⟩ := State.cmoVa_quiet hz hl ht hn hsb hm hq hd hf
      refine ends hu ?_
      rw [State.finishInsn_withPending (by rw [hsu])]
      refine ⟨hsu.cachesAsBefore (coresPcs_finishInsn ..) fun m hm => State.core_finishInsn_ne _ _ _ _ hm, ?_⟩
      rw [State.core_finishInsn, hsu.core]
      rfl
  case zero =>
    refine cmo_completes (op := .zero) h ?_ rfl
    unfold State.cmoVa
    rw [show CmoOp.zero.acc = 1 from rfl, State.xlSelf_hit hl (by decide)]
    exact State.cmoLine_zero ho.1 ht hk hsb hm ho
  case cmor =>
    obtain ⟨hexec, hlevel, hz⟩ := cmor_exec c hc x ra rn s
    rw [hlevel] at h
    have ends : ∀ {u : State} {P : State → Prop}, State.cmorLoop ((s.src x rn).toNat / 64) s x c.2.1 ra rn = (.ok (), u) →
        P { u.finishInsn x (s.core x.core).pc none with pending := s.pending } → Completes (c.1 x ra rn none) s P := fun hu hP => by
      unfold Completes
      rw [hexec]
      exact cmor_completes h ha hr hu hP
    refine ⟨fun u hu => ends hu rfl, fun h0 h1 hne hl => ?other, fun l h0 h1 hne h64 hl ht hn hsb hm hq hd hf => ?quiet⟩
    case other =>
      obtain ⟨u, hu, hg, hua, hun⟩ := State.cmorLoop_other h0 h1 hne _ s (by omega) hl
      refine ends hu ?_
      rw [State.finishInsn_withPending (by rw [hg.eq])]
      obtain ⟨ho, hregs, hpreds⟩ := hg.finishInsn
      exact ⟨ho, hregs, hpreds, (State.finishInsn_src ..).trans hua, (State.finishInsn_src ..).trans hun⟩
    case quiet =>
      obtain ⟨u, hu, hsu⟩ := State.cmoVa_quiet hz hl ht hn hsb hm hq hd hf
      have hline := State.cmorLoop_line (ra := ra) (rn := rn) 0 (by rw [h64]; decide) hu
      have hg : GprsOnly u ((u.dstSrc x ra (s.src x ra + 64)).dstSrc x rn (s.src x rn - 64)) x.core :=
        (gprsOnly_dstSrc ..).trans (gprsOnly_dstSrc ..)
      have hua : ((u.dstSrc x ra (s.src x ra + 64)).dstSrc x rn (s.src x rn - 64)).src x ra = s.src x ra + 64 := by
        rw [State.src_dstSrc _ _ _ _ _ h1, if_neg hne, State.src_dstSrc _ _ _ _ _ h0, if_pos rfl]
      have hun : ((u.dstSrc x ra (s.src x ra + 64)).dstSrc x rn (s.src x rn - 64)).src x rn = 0 := by
        rw [State.src_dstSrc _ _ _ _ _ h1, if_pos rfl, h64]; rfl
      generalize (u.dstSrc x ra (s.src x ra + 64)).dstSrc x rn (s.src x rn - 64) = v at hline hg hua hun
      have hcore : (v.finishInsn x (s.core x.core).pc none).core x.core = (v.core x.core).past (s.nextPc x) := State.core_finishInsn ..
      refine ends (u := v) (by rw [h64]; exact hline) ?_
      rw [State.finishInsn_withPending (by rw [hg.eq, hsu])]
      refine ⟨hsu.cachesAsBefore (CoresPcs.trans (show CoresPcs u v by unfold CoresPcs; rw [hg.eq]) (coresPcs_finishInsn ..)) fun m hm => ?_,
        by rw [hcore]; rfl, ?_, (State.finishInsn_src ..).trans hua, (State.finishInsn_src ..).trans hun⟩
      · exact (State.core_finishInsn_ne _ _ _ _ hm).trans (hg.ne m hm)
      · rw [hcore, hg.core, hsu.core]
        rfl

end Sys2Proof.Machine
end

section
/-! SUPPORT.
Device requests (R103, R147–R149, R196, R197), the interrupt window (R356, R357) and doorbells (R388, R391). -/

namespace Sys2Proof.Machine

/-! ### The interrupt window (R356) -/

/-- An aligned 4-byte write of a vector for a core in service signals it. -/
theorem State.intWindow_signals {s : State} {off : Nat} {data : Word} (ha : off % 4 = 0) (hn : off / 4 < 216) (h1 : 1 ≤ data.toNat)
    (hv : data.toNat < 256) (ho : s.coreOut (off / 4) = false) (hr : s.fon (kCoreId (off / 4)) fCoreId_RETIRED = false) :
    s.intWindow off 4 data = (true, s.vec (off / 4) data.toNat) := by
  unfold State.intWindow
  dsimp only
  refine if_neg ?_
  rw [ho, hr]
  simp only [Bool.false_eq_true, or_false]
  omega

theorem interruptWindowWrite_completes (s : State) (n v : Nat) (hn : n < 216) (h1 : 1 ≤ v) (hv : v < 256) (hs : s.stopped = false)
    (ho : s.coreOut n = false) (hr : s.fon (kCoreId n) fCoreId_RETIRED = false) :
    Completes (.interruptWindowWrite (4 * n) 4 (BitVec.ofNat 64 v)) s fun t =>
      t = s.setCore n { s.core n with ext := (t.core n).ext } ∧
      ∀ i, i < 256 → (t.core n).ext.getLsbD i = (decide (i = v) || (s.core n).ext.getLsbD i) := by
  have hoff : 4 * n / 4 = n := by omega
  have hdata : (BitVec.ofNat 64 v).toNat = v := by simp only [BitVec.toNat_ofNat]; omega
  have hw : s.intWindow (4 * n) 4 (BitVec.ofNat 64 v) = (true, s.vec n v) := by
    have h := State.intWindow_signals (s := s) (off := 4 * n) (data := BitVec.ofNat 64 v)
    rw [hoff, hdata] at h
    exact h (by omega) hn h1 hv ho hr
  have hext : ((s.vec n v).core n).ext = (s.core n).ext ||| BitVec.ofNat 256 (2 ^ v) := congrArg Core.ext (State.core_setCore_eq ..)
  refine completes_run (f := interruptWindowWriteRun (4 * n) 4 (BitVec.ofNat 64 v)) rfl hs (congrArg Prod.snd hw) rfl ⟨?_, fun i hi => ?_⟩
  · rw [hext]; rfl
  · rw [hext, setBit_getLsbD _ hi]

/-! ### What the arrival of a request leaves alone (R507) -/

theorem State.pkgTouch_eq (s : State) (c d : Nat) : s.pkgTouch c d = { s with pcs := (s.pkgTouch c d).pcs } := by
  unfold State.pkgTouch State.lastWake
  split
  · dsimp only
    rw [State.evt_eq]
    rfl
  · rfl

/-- The registers that an access to the package in PS2 does not change. -/
theorem State.pkgTouch_rd_ne (s : State) (c d : Nat) {k : Nat} (hp : k ≠ kPwrPkg) (h0 : k ≠ kPwrLastwake0) (h1 : k ≠ kPwrLastwake1)
    (he : k ≠ kEvt 15 5 6) : (s.pkgTouch c d).rd k = s.rd k := by
  unfold State.pkgTouch State.lastWake
  split
  · dsimp only
    rw [State.evt_rd_ne _ _ _ _ he, State.rd_wr_ne _ _ h1, State.rd_wr_ne _ _ h0, State.rd_fput_ne _ _ _ hp]
  · rfl

/-- The state in which a request that arrives alone is translated: the package has left PS2, and the queue is the request. -/
def State.taken (s : State) (d : Dma) (k : InKind) : State :=
  { s.pkgTouch 5 d.group with fio := { (s.pkgTouch 5 d.group).fio with inq := [⟨d, k, none, none⟩] } }

theorem State.taken_eq (s : State) (d : Dma) (k : InKind) :
    s.taken d k = { s with pcs := (s.pkgTouch 5 d.group).pcs, fio := { s.fio with inq := [⟨d, k, none, none⟩] } } := by
  unfold State.taken
  rw [State.pkgTouch_eq]

/-- A request that is the only one makes its step, and what remains of it is the queue. -/
theorem State.inbound_alone {s : State} {d : Dma} (k : InKind) (ht : s.dmaTaken d = true) (ha : d.ats = false) (hq : s.fio.inq = []) :
    s.inbound d k =
      let r := (s.taken d k).inStep [] ⟨d, k, none, none⟩
      { r.2 with fio := { r.2.fio with inq := r.1.toList } } := by
  have hq' : (s.pkgTouch 5 d.group).fio.inq = [] := by rw [State.pkgTouch_eq]; exact hq
  unfold State.inbound
  rw [ht, ha, if_neg (by decide)]
  dsimp only
  rw [if_neg (by decide), hq']
  rfl

/-! ### Translation by what the IOTU holds (R147, R148) -/

/-- The kind of access of a request, as the IOTU checks it. -/
def InKind.access : InKind → Nat
  | .read => 0
  | .atomic _ _ _ _ => 3
  | _ => 1

/-- Whether a request may land in the interrupt window. -/
def InKind.interrupts : InKind → Bool
  | .msi _ => true
  | _ => false

/-- The counter of the IOTU's requests is none of its registers. -/
theorem kIotu_ne_kEvt {src : Nat} (h : src ≤ 8) :
    kIotuCtl ≠ kEvt 15 0x48 0 ∧ kIotuSictbase ≠ kEvt 15 0x48 0 ∧ kIotuDctbase src ≠ kEvt 15 0x48 0 := by
  refine ⟨by decide, by decide, ?_⟩
  unfold kIotuDctbase kEvt pcsKey
  omega

/-- A cached device context is found without a read of its table. -/
theorem State.devCtx_cached {s : State} {src rid : Nat} {c : DevCtx} (he : s.fon kIotuCtl fIotuCtl_EN = true)
    (hv : (if src = 8 then s.rd kIotuSictbase else s.rd (kIotuDctbase src)).getLsbD 0 = true)
    (hc : s.iotu.ctxs.find? (fun c => c.src = src * 65536 + rid) = some c) : s.devCtx src rid = (.ok c, s) := by
  unfold State.devCtx
  dsimp only
  rw [he, hv, if_neg (by decide), hc]

theorem State.devCtx_disabled {s : State} (src rid : Nat) (he : s.fon kIotuCtl fIotuCtl_EN = false) : s.devCtx src rid = (.fault 0 none, s) := by
  unfold State.devCtx
  dsimp only
  rw [he]
  rfl

/-- A cached translation that grants the access is used, and only counted. -/
theorem State.iotuXlateFor_hit {s : State} {src rid addr acc h k : Nat} {msi : Bool} (hsrc : src ≤ 8)
    (hit : s.IotuHit src rid addr acc msi h k) : s.iotuXlateFor msi src rid addr acc = (.ok (h, k), s.evt 15 0x48 0) := by
  obtain ⟨c, e, hen, hv, hc, he, hg, rfl, rfl, hl⟩ := hit
  obtain ⟨hctl, hsict, hdct⟩ := kIotu_ne_kEvt hsrc
  have hd : (s.evt 15 0x48 0).devCtx src rid = (.ok c, s.evt 15 0x48 0) := by
    refine State.devCtx_cached ?_ ?_ ?_
    · unfold State.fon; rw [State.evt_rd_ne _ _ _ _ hctl]; exact hen
    · rw [State.evt_rd_ne _ _ _ _ hsict, State.evt_rd_ne _ _ _ _ hdct]; exact hv
    · rw [State.evt_iotu]; exact hc
  have hmap : ∀ a, (s.evt 15 0x48 0).mapOf a = s.mapOf a := fun a => by unfold State.mapOf; rw [State.evt_plat]
  have htier : ∀ a, (s.evt 15 0x48 0).isTiered a = s.isTiered a := fun a => by unfold State.isTiered; rw [hmap]
  unfold State.iotuXlateFor
  rw [hd]
  dsimp only at he hg hl ⊢
  rw [State.evt_iotu, he]
  dsimp only
  rw [hg, htier, hmap, Bool.true_and]
  have hkey : (if !c.w0.getLsbD 1 && !c.w0.getLsbD 2 then bitsOf c.w0 48 14 else e.key) =
      if c.w0.getLsbD 1 || c.w0.getLsbD 2 then e.key else bitsOf c.w0 48 14 := by
    cases c.w0.getLsbD 1 <;> cases c.w0.getLsbD 2 <;> rfl
  rcases hl with ht | ⟨m, hm, hk⟩
  · rw [ht]
    exact congrArg (fun k => (Xl.ok (_, k), s.evt 15 0x48 0)) hkey
  · have hlands : (decide (m.kind = 5) || (msi && decide (m.kind = 3))) = true := by
      rcases hk with h5 | ⟨hmsi, h3⟩
      · rw [h5]; rfl
      · rw [hmsi, h3]; rfl
    rw [hm]
    dsimp only
    rw [hlands, Bool.or_true]
    exact congrArg (fun k => (Xl.ok (_, k), s.evt 15 0x48 0)) hkey

theorem State.dmaXlate_hit {s : State} {d : Dma} {x : InKind} {h k : Nat} (hg : d.group ≤ 8)
    (hit : s.IotuHit d.group d.rid d.addr.toNat x.access x.interrupts h k) : s.dmaXlate d x = (.ok (h, k), s.evt 15 0x48 0) := by
  have hx := State.iotuXlateFor_hit hg hit
  unfold State.dmaXlate
  cases x <;> (dsimp only [InKind.access, InKind.interrupts] at hx ⊢; rw [hx])

/-- A request without a device context is aborted and logged (R149). -/
theorem State.dmaXlate_disabled {s : State} (d : Dma) (he : s.fon kIotuCtl fIotuCtl_EN = false) :
    s.dmaXlate d .read = (.fault (syn 0 0 0 0 false false) none,
      ((s.evt 15 0x48 0).iotuFault d.addr.toNat d.group d.rid (syn 0 0 0 0 false false)).dmaDone d 0 false 2) := by
  have he' : (s.evt 15 0x48 0).fon kIotuCtl fIotuCtl_EN = false := by
    unfold State.fon; rw [State.evt_rd_ne _ _ _ _ (by decide)]; exact he
  have hx : s.iotuXlateFor false d.group d.rid d.addr.toNat 0 = (.fault (syn 0 0 0 0 false false) none, s.evt 15 0x48 0) := by
    unfold State.iotuXlateFor; rw [State.devCtx_disabled _ _ he']
  unfold State.dmaXlate
  dsimp only
  rw [hx]

/-! ### A request that arrives alone -/

/-- A row of a device request is its arrival. -/
def Arrives (c : Instr) (d : Dma) (x : InKind) : Prop := ∀ s, exec c s = runs d.wf (fun s => s.inbound d x) s

section
variable {c : Instr} {s : State} {d : Dma} {x : InKind} (hc : Arrives c d x) (hd : d.wf = true) (hs : s.stopped = false)
  (ht : s.dmaTaken d = true) (ha : d.ats = false) (hq : s.fio.inq = [])
include hc hd hs ht ha hq

theorem Arrives.completes_step {r : Option Inbound × State} (hr : (s.taken d x).inStep [] ⟨d, x, none, none⟩ = r) :
    Completes c s fun t => t = { r.2 with fio := { r.2.fio with inq := r.1.toList }, pending := s.pending } := by
  unfold Completes
  rw [hc]
  refine completes_run' (f := fun s => s.inbound d x) hd hs (State.inbound_alone x ht ha hq) ?_
  rw [hr]

/-- A request that is translated by what the IOTU holds is performed. -/
theorem Arrives.completes_sent {h k : Nat} {r : Option Inbound × State}
    (hit : (s.pkgTouch 5 d.group).IotuHit d.group d.rid d.addr.toNat x.access x.interrupts h k)
    (hr : ((s.taken d x).evt 15 0x48 0).inSend ⟨d, x, some (h, k), none⟩ h k = r) :
    Completes c s fun t => t = { r.2 with fio := { r.2.fio with inq := r.1.toList }, pending := s.pending } := by
  refine hc.completes_step hd hs ht ha hq (.trans ?_ hr)
  have hg : d.group ≤ 8 := by
    unfold Dma.wf wfGroup at hd
    simp only [Bool.and_eq_true, decide_eq_true_eq] at hd
    omega
  unfold State.inStep
  dsimp only
  rw [State.dmaXlate_hit (s := s.taken d x) hg hit]
  rfl

/-- One that its home is asked for remains until its home has performed it. -/
theorem Arrives.completes_asked {h k : Nat} {w : State} {q : ReqKind} {r : HomeReq} {m : ReqMode}
    (hit : (s.pkgTouch 5 d.group).IotuHit d.group d.rid d.addr.toNat x.access x.interrupts h k)
    (hr : ((s.taken d x).evt 15 0x48 0).inSend ⟨d, x, some (h, k), none⟩ h k = w.inAsk ⟨d, x, some (h, k), none⟩ q r m) :
    Completes c s fun t => t = { w.inboundOpen ⟨d, x, some (h, k), none⟩ q r m with pending := s.pending } := by
  have ho : w.inboundOpen ⟨d, x, some (h, k), none⟩ q r m =
      (let p := w.inAsk ⟨d, x, some (h, k), none⟩ q r m; { p.2 with fio := { p.2.fio with inq := p.1.toList } }) := by
    unfold State.inboundOpen State.inAsk
    dsimp only
    split <;> rfl
  rw [ho]
  exact hc.completes_sent hd hs ht ha hq hit hr

end

theorem dmaWrite_arrives (d : Dma) (data : Line) (mask : BitVec 64) : Arrives (.dmaWrite d data mask) d (.write data mask) := fun _ => rfl
theorem dmaRead_arrives (d : Dma) : Arrives (.dmaRead d) d .read := fun _ => rfl
theorem dmaAtomicop_arrives (d : Dma) (op : AmoOp) (size : Nat) (operand compare : BitVec 128) :
    Arrives (.dmaAtomicop d op size operand compare) d (.atomic op size operand compare) := fun _ => rfl
theorem msiWrite_arrives (d : Dma) (data : Word) : Arrives (.msiWrite d data) d (.msi data) := fun _ => rfl

/-- An MSI whose translated address lies in the interrupt window signals its vector there (R148, R356). -/
theorem State.inSend_msi {s : State} {d : Dma} {data : Word} {h : Nat} (k : Nat) {m : MapRec} (hm : s.mapOf h = some m) (h3 : m.kind = 3)
    (hl : d.len = 4) (ha : (h - m.base) % 4 = 0) (hn : (h - m.base) / 4 < 216) (h1 : 1 ≤ data.toNat) (hv : data.toNat < 256)
    (ho : s.coreOut ((h - m.base) / 4) = false) (hr : s.fon (kCoreId ((h - m.base) / 4)) fCoreId_RETIRED = false) :
    s.inSend ⟨d, .msi data, some (h, k), none⟩ h k = (none, (s.vec ((h - m.base) / 4) data.toNat).evt 15 (0x10 + d.group) 12) := by
  unfold State.inSend
  dsimp only
  rw [hm]
  dsimp only
  rw [if_pos h3, hl, State.intWindow_signals ha hn h1 hv ho hr]
  rfl

/-- The identity of a compute core stands in its own die. -/
theorem kCoreId_lt {n : Nat} (h : n < 216) : kCoreId n < pcsKey 15 0 0 := by
  unfold kCoreId pcsKey
  omega

/-- The arrival of a request leaves the registers of the compute dies alone. -/
theorem State.taken_evt_rd (s : State) (d : Dma) (x : InKind) {j : Nat} (h : j < pcsKey 15 0 0) :
    ((s.taken d x).evt 15 0x48 0).rd j = s.rd j := by
  unfold pcsKey at h
  refine (State.evt_rd_ne _ _ _ _ (by unfold kEvt pcsKey; omega)).trans (State.pkgTouch_rd_ne s 5 d.group ?_ ?_ ?_ ?_) <;>
    simp only [kPwrPkg, kPwrLastwake0, kPwrLastwake1, kEvt, pcsKey] <;> omega

theorem msiWrite_completes {s : State} {d : Dma} {h k : Nat} {data : Word} {m : MapRec} (hd : d.wf = true) (hs : s.stopped = false)
    (ht : s.dmaTaken d = true) (ha : d.ats = false) (hq : s.fio.inq = [])
    (hit : (s.pkgTouch 5 d.group).IotuHit d.group d.rid d.addr.toNat 1 true h k) (hm : s.mapOf h = some m) (h3 : m.kind = 3)
    (hl : d.len = 4) (hal : (h - m.base) % 4 = 0) (hn : (h - m.base) / 4 < 216) (h1 : 1 ≤ data.toNat) (hv : data.toNat < 256)
    (ho : s.coreOut ((h - m.base) / 4) = false) (hr : s.fon (kCoreId ((h - m.base) / 4)) fCoreId_RETIRED = false) :
    Completes (.msiWrite d data) s fun t =>
      let w := (((s.taken d (.msi data)).evt 15 0x48 0).vec ((h - m.base) / 4) data.toNat).evt 15 (0x10 + d.group) 12
      t = { w with fio := { w.fio with inq := [] }, pending := s.pending } := by
  refine (msiWrite_arrives d data).completes_sent hd hs ht ha hq hit (State.inSend_msi k ?_ h3 hl hal hn h1 hv ?_ ?_)
  · rw [State.evt_eq, State.taken_eq]; exact hm
  · rw [State.evt_eq, State.taken_eq]; exact ho
  · unfold State.fon; rw [State.taken_evt_rd _ _ _ (kCoreId_lt hn)]; exact hr

theorem dmaRead_disabled {s : State} {d : Dma} (hd : d.wf = true) (hs : s.stopped = false)
    (ht : s.dmaTaken d = true) (ha : d.ats = false) (hq : s.fio.inq = []) (he : s.fon kIotuCtl fIotuCtl_EN = false) :
    Completes (.dmaRead d) s fun t =>
      let w := (((s.taken d .read).evt 15 0x48 0).iotuFault d.addr.toNat d.group d.rid (syn 0 0 0 0 false false)).dmaDone d 0 false 2
      t = { w with fio := { w.fio with inq := [] }, pending := s.pending } := by
  have he' : (s.taken d .read).fon kIotuCtl fIotuCtl_EN = false := by
    have hrd : (s.taken d .read).rd kIotuCtl = s.rd kIotuCtl :=
      State.pkgTouch_rd_ne s 5 d.group (by decide) (by decide) (by decide) (by decide)
    unfold State.fon; rw [hrd]; exact he
  refine (dmaRead_arrives d).completes_step hd hs ht ha hq (r := (none, _)) ?_
  unfold State.inStep
  dsimp only
  rw [State.dmaXlate_disabled d he']
  rfl

/-! ### Requests that are marked as translated (R149) -/

theorem State.inbound_ats {s : State} {d : Dma} (x : InKind) (ht : s.dmaTaken d = true) (ha : d.ats = true) :
    s.inbound d x =
      let u := (s.pkgTouch 5 d.group).evt 15 0x48 7
      match x with
      | .read | .atomic _ _ _ _ => u.dmaDone d 0 false 1
      | _ => u := by
  unfold State.inbound
  rw [ht, ha]
  rfl

theorem State.pkgTouch_pending (s : State) (c d : Nat) : (s.pkgTouch c d).pending = s.pending := by rw [State.pkgTouch_eq]

/-! ### Doorbells (R388, R391, R416) -/

/-- What an admitted write of SQTAIL or RQHEAD does to a queue pair that has a ring. -/
theorem State.doorbell_admitted {s : State} {a : Agent} {qp : Nat} {p : QPair} {off : Nat} (v : Nat) (hadm : s.dbAdmits a qp = true)
    (hp : s.pair qp = some p) (hoff : off = 0 ∨ off = 4) :
    s.doorbell a qp off 4 v =
      let u := s.evt 15 0x1C 0
      if p.st = 4 then u
      else if v ≥ 2 ^ p.qlog then u.fput (kZciQstat qp) fZciQstat_DBERR 1
      else if off = 0 then u.setPair qp (some { p with tail := v })
      else u.setPair qp (some { p with rqhead := v }) := by
  have hp' : (s.evt 15 0x1C 0).pair qp = some p := by unfold State.pair; rw [State.evt_zci]; exact hp
  have hcond : (p.st = 4 ∨ 4 ≠ 4 ∨ (off ≠ 0 ∧ off ≠ 4)) ↔ p.st = 4 := by omega
  unfold State.doorbell
  rw [hadm, if_neg (by decide)]
  dsimp only
  rw [hp']
  dsimp only
  simp only [hcond]

/-- A queue pair that is set reads so, and no other pair changes. -/
theorem State.evt_setPair_pairs (s : State) (d b i qp : Nat) (p : QPair) :
    ((s.evt d b i).setPair qp (some p)).pair qp = some p ∧ ∀ q, q ≠ qp → ((s.evt d b i).setPair qp (some p)).pair q = s.pair q := by
  obtain ⟨hp, hne⟩ := setPair_pair (s.evt d b i) qp p
  refine ⟨hp, fun q hq => (hne q hq).trans ?_⟩
  unfold State.pair; rw [State.evt_zci]

section
variable {s : State} {a : Agent} {qp : Nat} {v : BitVec 32} {p : QPair} (ha : a.wf = true) (hq : qp < 8192) (hs : s.stopped = false)
  (hadm : s.dbAdmits a qp = true) (hp : s.pair qp = some p)
include ha hq hs hadm hp

/-- A queue pair that is being reset ignores its doorbells (R416). -/
theorem doorbells_ignored (h4 : p.st = 4) :
    Completes (.sqtail a qp v) s (fun t => t = s.evt 15 0x1C 0) ∧ Completes (.rqhead a qp v) s (fun t => t = s.evt 15 0x1C 0) := by
  have hwf : (a.wf && wfQp qp) = true := Bool.and_eq_true_iff.mpr ⟨ha, decide_eq_true hq⟩
  exact ⟨completes_run (f := sqtailRun a qp v) hwf hs ((State.doorbell_admitted _ hadm hp (.inl rfl)).trans (if_pos h4)) (State.evt_pending ..) rfl,
    completes_run (f := rqheadRun a qp v) hwf hs ((State.doorbell_admitted _ hadm hp (.inr rfl)).trans (if_pos h4)) (State.evt_pending ..) rfl⟩

theorem sqtail_stores (h4 : p.st ≠ 4) (hv : v.toNat < 2 ^ p.qlog) :
    Completes (.sqtail a qp v) s fun t =>
      t = { (s.evt 15 0x1C 0).setPair qp (some { p with tail := v.toNat }) with pending := s.pending } ∧
      t.pair qp = some { p with tail := v.toNat } ∧ ∀ q, q ≠ qp → t.pair q = s.pair q := by
  refine completes_run' (f := sqtailRun a qp v) (Bool.and_eq_true_iff.mpr ⟨ha, decide_eq_true hq⟩) hs
    ((State.doorbell_admitted v.toNat hadm hp (.inl rfl)).trans ?_) ⟨rfl, State.evt_setPair_pairs s 15 0x1C 0 qp _⟩
  dsimp only
  rw [if_neg h4, if_neg (by omega), if_pos rfl]

theorem rqhead_stores (h4 : p.st ≠ 4) (hv : v.toNat < 2 ^ p.qlog) :
    Completes (.rqhead a qp v) s fun t =>
      t = { (s.evt 15 0x1C 0).setPair qp (some { p with rqhead := v.toNat }) with pending := s.pending } ∧
      t.pair qp = some { p with rqhead := v.toNat } ∧ ∀ q, q ≠ qp → t.pair q = s.pair q := by
  refine completes_run' (f := rqheadRun a qp v) (Bool.and_eq_true_iff.mpr ⟨ha, decide_eq_true hq⟩) hs
    ((State.doorbell_admitted v.toNat hadm hp (.inr rfl)).trans ?_) ⟨rfl, State.evt_setPair_pairs s 15 0x1C 0 qp _⟩
  dsimp only
  rw [if_neg h4, if_neg (by omega), if_neg (by decide)]

theorem sqtail_beyond (h4 : p.st ≠ 4) (hv : 2 ^ p.qlog ≤ v.toNat) :
    Completes (.sqtail a qp v) s fun t => t = (s.evt 15 0x1C 0).fput (kZciQstat qp) fZciQstat_DBERR 1 := by
  refine completes_run (f := sqtailRun a qp v) (t := (s.evt 15 0x1C 0).fput (kZciQstat qp) fZciQstat_DBERR 1)
    (Bool.and_eq_true_iff.mpr ⟨ha, decide_eq_true hq⟩) hs ((State.doorbell_admitted v.toNat hadm hp (.inl rfl)).trans ?_)
    (State.evt_pending ..) rfl
  dsimp only
  rw [if_neg h4, if_pos hv]

end

/-- Settles O24, request by request. -/
theorem inboundRequestsComplete : Obligations.InboundRequestsComplete := by
  refine ⟨interruptWindowWrite_completes, fun s d h k hd hs ht ha hq => ?alone, fun s d r k l q c nf hk => rfl,
    fun s d hd hs ht ha => ?readAts, fun s d data mask hd hs ht ha => ?writeAts,
    fun s a qp v p ha hq hs hadm hp => ⟨doorbells_ignored ha hq hs hadm hp,
      fun h4 hv => ⟨sqtail_stores ha hq hs hadm hp h4 hv, rqhead_stores ha hq hs hadm hp h4 hv⟩⟩,
    fun s a qp v p ha hq hs hadm hp => sqtail_beyond ha hq hs hadm hp⟩
  case alone =>
    refine ⟨fun data mask hit => ?_, fun hit => ?_, fun op size operand compare hit => ?_,
      fun data m hit => msiWrite_completes hd hs ht ha hq hit, dmaRead_disabled hd hs ht ha hq⟩
    · exact (dmaWrite_arrives d data mask).completes_asked hd hs ht ha hq hit rfl
    · exact (dmaRead_arrives d).completes_asked hd hs ht ha hq hit rfl
    · exact (dmaAtomicop_arrives d op size operand compare).completes_asked hd hs ht ha hq hit rfl
  case readAts =>
    refine completes_run (f := dmaReadRun d) hd hs (State.inbound_ats .read ht ha) ?_ rfl
    exact (State.evt_pending ..).trans (s.pkgTouch_pending ..)
  case writeAts =>
    refine completes_run (f := dmaWriteRun d data mask) hd hs (State.inbound_ats (.write data mask) ht ha) ?_ rfl
    exact (State.evt_pending ..).trans (s.pkgTouch_pending ..)

end Sys2Proof.Machine
end

section
/-! SUPPORT.
ZCI_NOP, ZCI_IDENTIFY, ZCI_QUEUE_SET (R390, R411) and the IOTU invalidations of class 0x04 (R151, R152). -/

namespace Sys2Proof.Machine

/-! ### A command that is not taken yet (R402) -/

theorem ztake_again {s v : State} {h : Handler} {z : ZCmd} (hz : s.ZReady z) (hh : h s.zid z (s.zstarted z) = (.again, v)) :
    s.ztake h z = s.zwaits z v := by
  rw [ztake_begins s h z hz]
  unfold State.zbegin
  rw [show h (s.zciFlush.zout z).id (s.zciFlush.zout z).z (s.zstarted z) = (.again, v) from hh]
  rfl

/-- A row whose command waits. -/
theorem completes_again {c : Instr} {ok : Bool} {f : State → State} {h : Handler} {z : ZCmd} {s v : State} (hok : ok = true)
    (hz : s.ZReady z) (he : exec c s = runs ok f s) (hf : f s = s.ztake h z) (hh : h s.zid z (s.zstarted z) = (.again, v)) :
    Completes c s fun t => t = { s.zwaits z v with pending := s.pending } := by
  unfold Completes; rw [he]
  exact completes_run' (f := f) hok hz.1.1 (hf.trans (ztake_again hz hh)) rfl

/-! ### ZCI_NOP and ZCI_IDENTIFY -/

theorem zciNop_completes {s : State} {z : ZCmd} (hz : s.ZReady z) (h : z.is 0x0002 = true) :
    Completes (.zciNop z) s fun t => t = { s.zdone z (s.zstarted z) 0 [] with pending := s.pending } :=
  completes_done (h := hNop) (f := zciNopRun z) h hz rfl rfl rfl

/-- On a boot mailbox that owes nothing the reply is all that leaves the package. -/
theorem zciNop_mailbox {s : State} {z : ZCmd} (hz : s.ZReady z) (h : z.is 0x0002 = true) (h0 : z.qp = 0) (hf : s.zci.finals = [])
    (hr : s.zci.reps = []) : Completes (.zciNop z) s fun t =>
      t.out = s.out ++ [.mailbox (BitVec.ofNat 256 (leNat (replyBytes ⟨0, z.tag, 0, 0, [], z.ioc⟩ true))) s.zci.mailOut] := by
  obtain ⟨t, he, rfl⟩ := zciNop_completes hz h
  have hp : zpath z 1 = false := by unfold zpath; rw [ZCmd.is_opcode h]; rfl
  obtain ⟨hout, hfin, hrep, hmail⟩ := zstarted_frame hp hf hr
  refine ⟨_, he, ?_⟩
  show (s.zdone z (s.zstarted z) 0 []).out = _
  rw [zdone_mailbox h0 hfin hrep, hout, hmail]

theorem zciIdentify_completes {s : State} {z : ZCmd} (hz : s.ZReady z) (h : z.is 0x0001 = true) :
    let u := s.zstarted z
    Completes (.zciIdentify z) s fun t => t = { s.zdone z u 0 (leBytes 8 (u.rd kMgtEffcap).toNat ++ leBytes 2 z.qp ++
      leBytes 1 (u.srcOf z.qp) ++ [0] ++ leBytes 2 ((u.ownerOf z.qp).getD 0xFFFF)) with pending := s.pending } := by
  refine completes_done (h := hIdentify) (f := zciIdentifyRun z) h hz rfl rfl ?_
  unfold hIdentify
  dsimp only
  cases (s.zstarted z).ownerOf z.qp <;> rfl

/-! ### ZCI_QUEUE_SET (R390, R411) -/

/-- A request of the ZCI's engine, which holds no copy of a line, takes the answer that has come for it. -/
theorem State.homeSync_answered {s u : State} {k : ReqKind} {r : HomeReq} {a : HomeAns} (hsrc : r.src = 3) (h : s.Answered u [(k, r)] [a]) :
    s.homeSync k r = (a, u) := by
  obtain ⟨rest, hw, he, -, -, hrep, rfl⟩ := h
  have hrep' : s.home.replies = ⟨k, r, a⟩ :: rest := hrep
  have htake : s.takeHeld k r = some (a, { s with home := { s.home with replies := rest } }) := by
    unfold State.takeHeld
    rw [hrep']
    simp
  have hown : (k.uncached && decide (r.src = 1 ∨ r.src = 2)) = false := by rw [hsrc]; simp
  unfold State.homeSync
  dsimp only
  rw [hown, if_neg (by decide), State.drainWb_empty hw he, htake]

theorem State.CtxRead.readCtx {s u : State} {qp src : Nat} {r : Option QPair} (h : s.CtxRead u qp src r) :
    s.readCtx qp src = (some r, u) := by
  unfold State.readCtx
  rcases h with ⟨hh, rfl, rfl⟩ | ⟨hh, d, p, c, nf, ha, rfl⟩
  · rw [hh]; rfl
  · rw [hh, if_neg (by decide)]
    unfold State.uncRead
    rw [State.homeSync_answered rfl ha]

/-- One context more is read, behind those that were. -/
def ctxStep (src : Nat) (a : Option (Option (List (Nat × QPair))) × State) (q : Nat) : Option (Option (List (Nat × QPair))) × State :=
  match a.1 with
  | some (some l) => match a.2.readCtx q src with
    | (some (some p), s) => (some (some (l ++ [(q, p)])), s)
    | (some none, s) => (some none, s)
    | (none, s) => (none, s)
  | _ => a

theorem State.readCtxs_eq (s : State) (qs : List Nat) (src : Nat) : s.readCtxs qs src = qs.foldl (ctxStep src) (some (some []), s) := rfl

/-- Contexts that have been read and enable their pairs are gathered in order. -/
theorem CtxsRead.foldl_ctxStep {src : Nat} {qs : List Nat} {s u : State} {l m : List (Nat × QPair)}
    (h : CtxsRead src qs s u (l.map fun p => (p.1, some p.2))) : qs.foldl (ctxStep src) (some (some m), s) = (some (some (m ++ l)), u) := by
  induction qs generalizing s l m with
  | nil =>
    obtain ⟨rfl, hl⟩ := h
    rw [List.map_eq_nil_iff.mp hl, List.append_nil]
    rfl
  | cons q qs ih =>
    obtain ⟨v, r, n, hr, hrest, hl⟩ := h
    obtain ⟨p, l, rfl, hp, rfl⟩ := List.map_eq_cons_iff.mp hl
    obtain ⟨rfl, rfl⟩ := Prod.mk.inj hp
    have hstep : ctxStep src (some (some m), s) p.1 = (some (some (m ++ [p])), v) := by
      unfold ctxStep
      dsimp only
      rw [hr.readCtx]
    rw [List.foldl_cons, hstep, ih hrest, List.append_assoc]
    rfl

section
variable {u : State} {z : ZCmd} {first count : Nat} (hf : first = z.f 16 2) (hc : count = z.f 18 2) (hl : first + count ≤ 8192)
  (hset : ∀ q, first ≤ q → q < first + count → u.settable q = true)
include hf hc hl hset

/-- The parameters that ZCI_QUEUE_SET accepts. -/
theorem queueSet_params {op : Nat} (ho : op ≤ 1) : ¬ (op > 1 ∨ z.f 16 2 + z.f 18 2 > 8192 ∨
    (!((List.range (z.f 18 2)).map (z.f 16 2 + ·)).all fun q => u.settable q) = true) := by
  subst hf hc
  have hall : (((List.range (z.f 18 2)).map (z.f 16 2 + ·)).all fun q => u.settable q) = true := by
    rw [List.all_eq_true]
    intro q hq
    obtain ⟨i, hi, rfl⟩ := List.mem_map.mp hq
    exact hset _ (Nat.le_add_right ..) (Nat.add_lt_add_left (List.mem_range.mp hi) _)
  rw [hall]
  simp only [Bool.not_true, Bool.false_eq_true, or_false]
  omega

/-- OP 0 enables the pairs whose contexts it has read. -/
theorem hQueueSet_enables (id : Nat) (ho : z.f 20 1 = 0) {l : List (Nat × QPair)} {v : State}
    (hr : CtxsRead 5 (((List.range count).map (first + ·)).filter fun q => (u.pair q).isNone) u v (l.map fun p => (p.1, some p.2))) :
    hQueueSet id z u = (doneOk, l.foldl (fun s p => s.setPair p.1 (some p.2)) v) := by
  have hp := queueSet_params hf hc hl hset (op := z.f 20 1) (by omega)
  have hread : u.readCtxs _ 5 = (some (some l), v) := (State.readCtxs_eq ..).trans hr.foldl_ctxStep
  subst hf hc
  unfold hQueueSet
  dsimp only
  rw [if_neg hp, if_pos ho, hread]

/-- OP 1 stops the pairs, and is done once they have drained. -/
theorem hQueueSet_stops (id : Nat) (ho : z.f 20 1 = 1) :
    hQueueSet id z u =
      let v := ((List.range count).map (first + ·)).foldl (fun w q => w.stopPair q id) u
      if v.draining id then (.later, v) else (doneOk, v) := by
  have hp := queueSet_params hf hc hl hset (op := z.f 20 1) (by omega)
  subst hf hc
  unfold hQueueSet
  dsimp only
  rw [if_neg hp, if_neg (by omega)]

end

/-! ### The IOTU invalidations (R151, R152) -/

theorem State.iotuInv_ends {s : State} {f : Nat × TlbEnt → Bool} (h : (s.iotuDrop f).inPump.iotuOpen = false) :
    s.iotuInv f = (doneOk, (s.iotuDrop f).inPump.evt 15 0x48 6) := by
  unfold State.iotuInv
  dsimp only
  rw [h]
  rfl

theorem State.iotuInv_waits {s : State} {f : Nat × TlbEnt → Bool} (h : (s.iotuDrop f).inPump.iotuOpen = true) :
    s.iotuInv f = (.again, (s.iotuDrop f).inPump) := by
  unfold State.iotuInv
  dsimp only
  rw [h]
  rfl

/-- A row that drops translations of state `u` ends once every request translated before it has been performed. -/
theorem iotuInv_completes {c : Instr} {ok : Bool} {g : State → State} {h : Handler} {z : ZCmd} {s u : State} {f : Nat × TlbEnt → Bool}
    (hok : ok = true) (hz : s.ZReady z) (he : exec c s = runs ok g s) (hg : g s = s.ztake h z)
    (hh : h s.zid z (s.zstarted z) = u.iotuInv f) :
    let v := (u.iotuDrop f).inPump
    (v.iotuOpen = false → Completes c s fun t => t = { s.zdone z (v.evt 15 0x48 6) 0 [] with pending := s.pending }) ∧
    (v.iotuOpen = true → Completes c s fun t => t = { s.zwaits z v with pending := s.pending }) :=
  ⟨fun hv => completes_done hok hz he hg (hh.trans (State.iotuInv_ends hv)),
    fun hv => completes_again hok hz he hg (hh.trans (State.iotuInv_waits hv))⟩

/-- Of an aligned range IOTU_INV_VA drops the translations with bytes in it. -/
theorem hIotuVa_aligned (id : Nat) {z : ZCmd} (u : State) (ha : z.f 24 8 % 4096 = 0 ∧ z.f 32 8 % 4096 = 0) :
    hIotuVa id z u = if z.f 32 8 = 0 then (doneOk, u) else u.iotuInv fun p => decide (p.2.vmid = z.f 16 2) &&
      (decide (z.f 20 1 % 2 = 1) || decide (p.2.asid = some (z.f 18 2))) && p.2.meets (z.f 24 8) (z.f 32 8) := by
  unfold hIotuVa
  dsimp only
  exact if_neg (by omega)

/-- Of an aligned range IOTU_INV_IPA drops the translations of its VMID. -/
theorem hIotuIpa_aligned (id : Nat) {z : ZCmd} (u : State) (ha : z.f 24 8 % 4096 = 0 ∧ z.f 32 8 % 4096 = 0) :
    hIotuIpa id z u = if z.f 32 8 = 0 then (doneOk, u) else u.iotuInv fun p => decide (p.2.vmid = z.f 16 2) := by
  unfold hIotuIpa
  dsimp only
  exact if_neg (by omega)

/-- A row over a range drops nothing when the range is empty. -/
theorem iotuRange_completes {c : Instr} {ok : Bool} {g : State → State} {h : Handler} {z : ZCmd} {s : State} {f : Nat × TlbEnt → Bool}
    (hok : ok = true) (hz : s.ZReady z) (he : exec c s = runs ok g s) (hg : g s = s.ztake h z)
    (hh : h s.zid z (s.zstarted z) = if z.f 32 8 = 0 then (doneOk, s.zstarted z) else (s.zstarted z).iotuInv f) :
    (z.f 32 8 = 0 → Completes c s fun t => t = { s.zdone z (s.zstarted z) 0 [] with pending := s.pending }) ∧
    (z.f 32 8 ≠ 0 →
      let v := ((s.zstarted z).iotuDrop f).inPump
      (v.iotuOpen = false → Completes c s fun t => t = { s.zdone z (v.evt 15 0x48 6) 0 [] with pending := s.pending }) ∧
      (v.iotuOpen = true → Completes c s fun t => t = { s.zwaits z v with pending := s.pending })) :=
  ⟨fun h0 => completes_done hok hz he hg (hh.trans (if_pos h0)), fun h0 => iotuInv_completes hok hz he hg (hh.trans (if_neg h0))⟩

/-- IOTU_INV_DEVICE drops the context of its source and every translation made under it. -/
theorem hIotuDevice_drops (id : Nat) {z : ZCmd} (u : State) (hs : z.f 16 1 ≤ 8) :
    hIotuDevice id z u =
      ({ u with iotu := { u.iotu with ctxs := u.iotu.ctxs.filter (fun c => c.src ≠ z.f 16 1 * 65536 + z.f 18 2) } } : State).iotuInv
        (fun p => p.1 = z.f 16 1 * 65536 + z.f 18 2) := by
  unfold hIotuDevice
  dsimp only
  exact if_neg (by omega)

/-- Settles O43, row by row. -/
theorem basicZciCommandsComplete : Obligations.BasicZciCommandsComplete := by
  intro s z hz
  dsimp only
  refine ⟨fun h => ⟨zciNop_completes hz h, zciNop_mailbox hz h⟩, zciIdentify_completes hz,
    fun first count hf hc hl hset => ⟨fun h ho l v hr => ?enable, fun h => ?disable⟩, fun c f hcf hwf ha => ?invalidate,
    fun h hs => iotuInv_completes (h := hIotuDevice) (g := iotuInvDeviceRun z) h hz rfl rfl (hIotuDevice_drops _ _ hs)⟩
  case enable =>
    exact completes_done (h := hQueueSet) (f := zciQueueSetEnableRun z) h hz rfl rfl (hQueueSet_enables hf hc hl hset _ ho hr)
  case disable =>
    have hh := hQueueSet_stops hf hc hl hset s.zid (isOp_field h)
    exact ⟨fun hd => completes_done (h := hQueueSet) (f := zciQueueSetDisableRun z) h hz rfl rfl (hh.trans (if_neg (by rw [hd]; decide))),
      fun hd => completes_later (h := hQueueSet) (f := zciQueueSetDisableRun z) h hz rfl rfl (hh.trans (if_pos hd))⟩
  case invalidate =>
    simp only [List.mem_cons, Prod.mk.injEq, List.not_mem_nil, or_false] at hcf
    rcases hcf with ⟨rfl, rfl⟩ | ⟨rfl, rfl⟩ | ⟨rfl, rfl⟩ | ⟨rfl, rfl⟩
    · obtain ⟨hempty, hdrop⟩ := iotuRange_completes (c := .iotuInvVa z) (h := hIotuVa) (g := iotuInvVaRun z) hwf hz rfl rfl
        (hIotuVa_aligned _ _ (ha (.inl rfl)))
      exact ⟨fun h => hempty h.2, fun h => hdrop fun h0 => h ⟨.inl rfl, h0⟩⟩
    · obtain ⟨hempty, hdrop⟩ := iotuRange_completes (c := .iotuInvIpa z) (h := hIotuIpa) (g := iotuInvIpaRun z) hwf hz rfl rfl
        (hIotuIpa_aligned _ _ (ha (.inr rfl)))
      exact ⟨fun h => hempty h.2, fun h => hdrop fun h0 => h ⟨.inr rfl, h0⟩⟩
    · refine ⟨fun h => ?_, fun _ => iotuInv_completes (h := hIotuVmid) (g := iotuInvVmidRun z) hwf hz rfl rfl rfl⟩
      rcases h.1 with h | h <;> cases h
    · refine ⟨fun h => ?_, fun _ => iotuInv_completes (h := hIotuAll) (g := iotuInvAllRun z) hwf hz rfl rfl rfl⟩
      rcases h.1 with h | h <;> cases h

end Sys2Proof.Machine
end

section
/-! SUPPORT.
Register rows with a behaviour of their own: what each register does with a value that has been stored, and the rows that
write it (R149, R163, R168, R231, R259, R348, R351, R390, R442, R450, R490, R492, R497, R515, R546). -/

namespace Sys2Proof.Machine

/-! ### What a stored value starts, register by register -/

section
variable {s : State} {k : Nat} {d : RegDef} {old new v m : Word}

theorem State.pcsAfter_l1cCtl (h : d.name = "L1C_CTL") :
    s.pcsAfter k d old new v m = some (s.writeL1c (18 * pcsDie k + (pcsBlock k - 0x40)) old new) := by
  simp only [State.pcsAfter, h]

theorem State.pcsAfter_iotuFstat (h : d.name = "IOTU_FSTAT") :
    s.pcsAfter k d old new v m = some (if (v &&& m).getLsbD 63 then s.iotuPop else s) := by
  simp only [State.pcsAfter, h]

theorem State.pcsAfter_sclCtl (h : d.name = "SCL_CTL") :
    s.pcsAfter k d old new v m =
      some (if (v &&& m).getLsbD 63 then s.retrain (if pcsDie k = 15 then pcsBlock k - 0x30 else pcsDie k) false else s) := by
  simp only [State.pcsAfter, h]

theorem State.pcsAfter_enlHeat (h : d.name = "ENL_HEAT") :
    s.pcsAfter k d old new v m = some (if m.getLsbD 32 then s.decayRestart new else s) := by
  simp only [State.pcsAfter, h]

theorem State.pcsAfter_fwtData1 (h : d.name = "FWT_DATA1") :
    s.pcsAfter k d old new v m = some (s.fwtCommit (s.rd kFwtData0) new) := by
  simp only [State.pcsAfter, h]

theorem State.pcsAfter_zciCtl (h : d.name = "ZCI_CTL") :
    s.pcsAfter k d old new v m = if m.getLsbD 0 then s.writeHqen (new.getLsbD 0) else some s := by
  simp only [State.pcsAfter, h]

theorem State.pcsAfter_wldWdog (h : d.name = "WLD_WDOG") :
    s.pcsAfter k d old new v m = some (if (v &&& m).getLsbD 63 then s.kick else s) := by
  simp only [State.pcsAfter, h]

theorem State.pcsAfter_ssmBankpwr (h : d.name = "SSM_BANKPWR") :
    s.pcsAfter k d old new v m = some (s.bankpwrApply ((pcsOff k - 0x20) / 8) new) := by
  simp only [State.pcsAfter, h]

theorem State.pcsAfter_clkCdctl (h : d.name = "CLK_CDCTL") : s.pcsAfter k d old new v m = some (s.pwrEval (pcsDie k)) := by
  simp only [State.pcsAfter, h]

theorem State.pcsAfter_pwrDctl (h : d.name = "PWR_DCTL") : s.pcsAfter k d old new v m = some (s.pwrEval (pcsDie k)) := by
  simp only [State.pcsAfter, h]

theorem State.pcsAfter_pwrIodv (h : d.name = "PWR_IODV") : s.pcsAfter k d old new v m = some (s.pwrEval railIod) := by
  simp only [State.pcsAfter, h]

/-- L3C_LOCK is special only in what it stores. -/
theorem State.pcsAfter_l3cLock (h : d.name = "L3C_LOCK") : s.pcsAfter k d old new v m = some s := by
  simp [State.pcsAfter, h]

/-- A mask of more than 8 ways is ignored, but for LOCK's error bit (R168). -/
theorem pcsIgnores_l3cLock (h : d.name = "L3C_LOCK") :
    pcsIgnores d old new = if ones16 new.toNat > 8 then old ||| BitVec.ofNat 64 (2 ^ 63) else new := by
  simp [pcsIgnores, h]

end

/-! ### Rows that write a register -/

/-- A row that writes 8 bytes of a register completes with what the register does with the value that it has stored. -/
theorem State.Reaches.completes {s u t : State} {a : Agent} {k : Nat} {d : RegDef} {v : Word} {c : Instr} {ok : Bool} {f : State → State}
    (hr : s.Reaches u a k d v) (he : exec c s = runs ok f s) (hok : ok = true) (hs : s.stopped = false) (hf : f s = s.pcsWrite a k 8 v)
    (ht : (u.wr k (u.regAfter k d v)).pcsAfter k d (u.rd k) (u.regAfter k d v) v (BitVec.allOnes 64) = some t) :
    Completes c s fun x => x = { t with pending := s.pending } :=
  completes_with he hok hs (hf.trans (State.pcsWrite_reaches hr ht))

/-- A row that writes a register without a behaviour of its own stores the value. -/
theorem State.Reaches.completes_plain {s u : State} {a : Agent} {k : Nat} {d : RegDef} {v : Word} {c : Instr} {ok : Bool}
    {f : State → State} (hr : s.Reaches u a k d v) (he : exec c s = runs ok f s) (hok : ok = true) (hs : s.stopped = false)
    (hf : f s = s.pcsWrite a k 8 v) (hd : pcsSpecial.contains d.name = false) :
    Completes c s fun t => t = { u.wr k (u.regAfter k d v) with pending := s.pending } :=
  hr.completes he hok hs hf (State.pcsAfter_plain _ _ _ _ _ _ _ hd)

/-- A row that completes with a known state completes with what holds of that state. -/
theorem Completes.of_eq {c : Instr} {s t : State} {P : State → Prop} (h : Completes c s fun x => x = t) (hP : P t) : Completes c s P := by
  obtain ⟨_, he, rfl⟩ := h
  exact ⟨_, he, hP⟩

/-- A value that writes 1 to bit 63 and the other bits back as they are. -/
theorem getLsbD_63_or_bit63 (v : Word) : ((v ||| BitVec.ofNat 64 (2 ^ 63)) &&& BitVec.allOnes 64).getLsbD 63 = true := by
  rw [BitVec.and_allOnes, BitVec.getLsbD_or, show (BitVec.ofNat 64 (2 ^ 63)).getLsbD 63 = true by decide, Bool.or_true]

theorem State.iotuPop_log (s : State) : s.iotuPop.iotu.log = s.iotu.log.drop 1 := by
  unfold State.iotuPop
  dsimp only
  split <;> rfl

theorem State.fwtCommit_fwtEnt (s : State) (w0 w1 : Word) :
    (s.fwtCommit w0 w1).fwtEnt (s.fget kFwtSel fFwtSel_INDEX) = (fFwtData0_FAIL.put w0 0, w1) := by
  unfold State.fwtCommit State.fwtEnt
  rw [State.evt_fio]
  exact SMap.get_put_eq _ _ _ _

section
variable {s u : State} {a : Agent} {d : RegDef} (ha : a.wf = true) (hs : s.stopped = false)
include ha hs

/-- L3C_LOCK_WRITE (R168). -/
theorem l3cLockWrite_completes {i : Nat} {v : Word} (hi : i < 192) (hr : s.Reaches u a (kL3cLock i) d v) (hn : d.name = "L3C_LOCK") :
    Completes (.l3cLockWrite a i v) s fun t =>
      t = { u.wr (kL3cLock i) (if ones16 (d.written (u.pcsLocked (kL3cLock i) d) (u.rd (kL3cLock i)) v (BitVec.allOnes 64)).toNat > 8
        then u.rd (kL3cLock i) ||| BitVec.ofNat 64 (2 ^ 63)
        else d.written (u.pcsLocked (kL3cLock i) d) (u.rd (kL3cLock i)) v (BitVec.allOnes 64)) with pending := s.pending } := by
  have h := hr.completes (c := .l3cLockWrite a i v) (f := l3cLockWriteRun a i v) rfl (by simp [ha, hi]) hs rfl (State.pcsAfter_l3cLock hn)
  rwa [State.regAfter, pcsIgnores_l3cLock hn] at h

/-- IOTU_FSTAT_POP (R149): the oldest entry leaves the fault log. -/
theorem iotuFstatPop_completes (hr : s.Reaches u a kIotuFstat d (BitVec.ofNat 64 (2 ^ 63))) (hn : d.name = "IOTU_FSTAT") :
    Completes (.iotuFstatPop a) s fun t =>
      t = { (u.wr kIotuFstat (u.regAfter kIotuFstat d (BitVec.ofNat 64 (2 ^ 63)))).iotuPop with pending := s.pending } ∧
      t.iotu.log = u.iotu.log.drop 1 :=
  (hr.completes (f := iotuFstatPopRun a) rfl ha hs rfl
    ((State.pcsAfter_iotuFstat hn).trans (congrArg some (if_pos (by decide))))).of_eq ⟨rfl, State.iotuPop_log _⟩

/-- FWT_COMMIT (R351): the staged words become the entry that FWT_SEL names. -/
theorem fwtCommit_completes {v : Word} (hr : s.Reaches u a kFwtData1 d v) (hn : d.name = "FWT_DATA1") :
    Completes (.fwtCommit a v) s fun t =>
      t = { (u.wr kFwtData1 (u.regAfter kFwtData1 d v)).fwtCommit (u.rd kFwtData0) (u.regAfter kFwtData1 d v) with pending := s.pending } ∧
      t.fwtEnt (u.fget kFwtSel fFwtSel_INDEX) = (fFwtData0_FAIL.put (u.rd kFwtData0) 0, u.regAfter kFwtData1 d v) := by
  have hw0 : (u.wr kFwtData1 (u.regAfter kFwtData1 d v)).rd kFwtData0 = u.rd kFwtData0 := State.rd_wr_ne u _ (by decide)
  have hsel : (u.wr kFwtData1 (u.regAfter kFwtData1 d v)).fget kFwtSel fFwtSel_INDEX = u.fget kFwtSel fFwtSel_INDEX :=
    congrArg fFwtSel_INDEX.get (State.rd_wr_ne u _ (by decide))
  refine (hr.completes (f := fwtCommitRun a v) rfl ha hs rfl (State.pcsAfter_fwtData1 hn)).of_eq ?_
  rw [hw0, ← hsel]
  exact ⟨rfl, State.fwtCommit_fwtEnt _ _ _⟩

/-- WATCHDOG_KICK (R450). -/
theorem watchdogKick_completes (hr : s.Reaches u a kWldWdog d (s.rd kWldWdog ||| BitVec.ofNat 64 (2 ^ 63))) (hn : d.name = "WLD_WDOG") :
    Completes (.watchdogKick a) s fun t =>
      t.wld = { u.wld with kicked := u.time, warned := false } ∧ t = { u with wld := t.wld, pcs := t.pcs, pending := s.pending } := by
  refine (hr.completes (f := watchdogKickRun a) rfl ha hs rfl
    ((State.pcsAfter_wldWdog hn).trans (congrArg some (if_pos (getLsbD_63_or_bit63 _))))).of_eq ?_
  unfold State.kick
  rw [State.evt_eq]
  exact ⟨rfl, rfl⟩

/-- EVT_CNT_WRITE (R546). -/
theorem evtCntWrite_completes {off : BitVec 26} {v : Word} (hlo : 0x3000 ≤ pcsOff off.toNat) (hhi : pcsOff off.toNat < 0x3100)
    (hr : s.Reaches u a off.toNat d v) (hn : d.name = "EVT_CNT") :
    Completes (.evtCntWrite a off v) s fun t => t = { u.wr off.toNat (u.regAfter off.toNat d v) with pending := s.pending } :=
  hr.completes_plain (f := evtCntWriteRun a off v) rfl ha hs (if_pos ⟨hlo, hhi⟩) (by rw [hn]; decide)

end

/-! ### HQEN (R390) -/

/-- Writing 1 to HQEN of a running queue pair 2 leaves it. -/
theorem State.writeHqen_running {v : State} (hp : (v.pair 2).isSome = true) : v.writeHqen true = some v := by
  unfold State.writeHqen
  rw [if_pos rfl, if_pos hp]

/-- A context that has been read and fails shows CTXERR; one that enables its pair starts it. -/
theorem State.writeHqen_read {v w : State} {r : Option QPair} (hp : v.pair 2 = none) (hr : v.CtxRead w 2 2 r) :
    v.writeHqen true = some (match r with
      | none => w.fput (kZciQstat 2) fZciQstat_CTXERR 1
      | some p => w.setPair 2 (some p)) := by
  unfold State.writeHqen
  rw [if_pos rfl, if_neg (by rw [hp]; decide), hr.readCtx]
  cases r <;> rfl

/-- A context within the bounds of Table 13-2 enables its pair, empty and RUNNING. -/
theorem State.ctxOf_enables (w : State) (x : Line) :
    let w0 : Word := BitVec.ofNat 64 (lineField x 0 8)
    let q := bitsOf w0 4 4
    let sq := lineField x 8 8
    let rq := lineField x 16 8
    w0.getLsbD 0 = true → 4 ≤ q → q ≤ 12 → sq % (64 * 2 ^ q) = 0 → rq % (32 * 2 ^ q) = 0 →
    w.rangeTiered sq (64 * 2 ^ q) = true → w.rangeDaylight sq (64 * 2 ^ q) = true →
    w.rangeTiered rq (32 * 2 ^ q) = true → w.rangeDaylight rq (32 * 2 ^ q) = true → ∀ src,
    ∃ p, w.ctxOf x false src = some p ∧ p.st = 1 ∧ p.head = 0 ∧ p.tail = 0 ∧ p.qlog = q ∧ p.sq = sq ∧ p.rq = rq ∧
      p.vec = bitsOf w0 16 16 ∧ p.key = bitsOf w0 32 14 ∧ p.ie = w0.getLsbD 8 := by
  dsimp only
  intro hv hlo hhi hsq hrq hst hsd hrt hrd src
  have hq : ¬ (bitsOf (BitVec.ofNat 64 (lineField x 0 8)) 4 4 < 4 ∨ bitsOf (BitVec.ofNat 64 (lineField x 0 8)) 4 4 > 12) := by omega
  unfold State.ctxOf
  simp only [hv, hq, hsq, hrq, hst, hsd, hrt, hrd]
  exact ⟨_, if_neg (by simp), rfl, rfl, rfl, rfl, rfl, rfl, rfl, rfl, rfl⟩

section
variable {s u : State} {a : Agent} {d : RegDef} (ha : a.wf = true) (hs : s.stopped = false) (hn : d.name = "ZCI_CTL")
include ha hs hn

/-- HQEN_ENABLE does what the stored 1 does, unless it waits. -/
theorem hqenEnable_completes {t : State} (hr : s.Reaches u a kZciCtl d 1) (h1 : (u.regAfter kZciCtl d 1).getLsbD 0 = true)
    (ht : (u.wr kZciCtl (u.regAfter kZciCtl d 1)).writeHqen true = some t) :
    Completes (.hqenEnable a) s fun x => x = { t with pending := s.pending } :=
  hr.completes (f := hqenEnableRun a) rfl ha hs rfl
    ((State.pcsAfter_zciCtl hn).trans ((if_pos (by decide)).trans (by rw [h1, ht])))

theorem hqenDisable_completes (hr : s.Reaches u a kZciCtl d 0) (h0 : (u.regAfter kZciCtl d 0).getLsbD 0 = false) :
    Completes (.hqenDisable a) s fun t =>
      t = { (u.wr kZciCtl (u.regAfter kZciCtl d 0)).stopPair 2 hqenId with pending := s.pending } :=
  hr.completes (f := hqenDisableRun a) rfl ha hs rfl
    ((State.pcsAfter_zciCtl hn).trans ((if_pos (by decide)).trans (by rw [h0]; rfl)))

/-- HQEN starts queue pair 2 from the context that its line holds. -/
theorem hqenEnable_starts {w : State} {p : QPair} (hr : s.Reaches u a kZciCtl d 1) (h1 : (u.regAfter kZciCtl d 1).getLsbD 0 = true)
    (hp : (u.wr kZciCtl (u.regAfter kZciCtl d 1)).pair 2 = none)
    (hc : (u.wr kZciCtl (u.regAfter kZciCtl d 1)).CtxRead w 2 2 (some p)) :
    Completes (.hqenEnable a) s fun t => t = { w.setPair 2 (t.pair 2) with pending := s.pending } ∧ t.pair 2 = some p := by
  refine (hqenEnable_completes ha hs hn hr h1 (State.writeHqen_read hp hc)).of_eq ?_
  have hpair : (w.setPair 2 (some p)).pair 2 = some p := (setPair_pair w 2 p).1
  exact ⟨congrArg (fun q => ({ w.setPair 2 q with pending := s.pending } : State)) hpair.symm, hpair⟩

end

/-! ### SSM_CTL.LOCK (R490) -/

/-- No hold refuses a write of a register without a behaviour of its own. -/
theorem State.pcsHeld_plain (s : State) (a : Agent) (k : Nat) {d : RegDef} (new : Word) (hd : pcsSpecial.contains d.name = false) :
    s.pcsHeld a k d new = false := by
  have hname : d.name ≠ "SSM_BANKPWR" := by
    intro h
    rw [h] at hd
    exact absurd hd (by decide)
  unfold State.pcsHeld
  rw [decide_eq_false hname]
  rfl

/-- An admitted write of the upper 4 bytes of a register of the IOD reaches its upper half alone (R10). -/
theorem State.pcsWrite_upperHalf {s : State} {a : Agent} {k : Nat} {d : RegDef} (value : Word) (hdev : a ≠ .device) (hk : k % 8 = 0)
    (hreg : regDefAt k = some d) (hd : pcsSpecial.contains d.name = false) (hiod : pcsDie k ≥ 12) (hadm : s.pcsAdmits a k = true)
    (htest : s.pcsTested k = false) :
    s.pcsWrite a (k + 4) 4 value = s.wr k (d.written (s.pcsLocked k d) (s.rd k) (value <<< 32) (0xFFFFFFFF#64 <<< 32)) := by
  have hreach : ¬ (a = .device ∨ ((4 : Nat) ≠ 4 ∧ (4 : Nat) ≠ 8) ∨ (k + 4) % 4 ≠ 0) := by
    rintro (h | h | h)
    · exact hdev h
    · exact h.1 rfl
    · omega
  have hword : (k + 4) / 8 * 8 = k := by omega
  have hbyte : 8 * ((k + 4) % 8) = 32 := by omega
  have hpath : s.pcsPath k = (.open, s) := State.pcsPath_open (by unfold State.PathOpen; exact (if_pos hiod).mpr rfl)
  have htry : s.pcsTry a (k + 4) 4 value =
      some (s.wr k (d.written (s.pcsLocked k d) (s.rd k) (value <<< 32) (0xFFFFFFFF#64 <<< 32))) := by
    unfold State.pcsTry pcsMask
    simp only [hword, hreach, hbyte, hreg, hadm, hpath, htest, State.pcsHeld_plain _ _ _ _ hd, pcsIgnores_plain _ _ _ hd,
      State.pcsAfter_plain _ _ _ _ _ _ _ hd]
    rfl
  unfold State.pcsWrite
  rw [htry]

/-- SSM_CTL_LOCK leaves the lower half of SSM_CTL, which holds SECURE. -/
theorem ssmCtlLock_completes {s : State} {a : Agent} {d : RegDef} (ha : a.wf = true) (hs : s.stopped = false) (hdev : a ≠ .device)
    (hreg : regDefAt kSsmCtl = some d) (hn : d.name = "SSM_CTL") (hadm : s.pcsAdmits a kSsmCtl = true) (htest : s.pcsTested kSsmCtl = false) :
    Completes (.ssmCtlLock a) s fun t => t = s.wr kSsmCtl (d.written (s.pcsLocked kSsmCtl d) (s.rd kSsmCtl) (BitVec.ofNat 64 (2 ^ 63))
      (0xFFFFFFFF#64 <<< 32)) := by
  have hplain : pcsSpecial.contains d.name = false := by rw [hn]; decide
  exact completes_run (f := ssmCtlLockRun a) ha hs
    (State.pcsWrite_upperHalf 0x80000000#64 hdev (by decide) hreg hplain (by decide) hadm htest) rfl rfl

/-! ### The rows -/

/-- Settles O23, row by row. -/
theorem registerRowsComplete : Obligations.RegisterRowsComplete := by
  refine ⟨fun s u a c v d ha hs hc hr hn => ?l1cCtl, fun _ _ _ _ _ _ ha hs => l3cLockWrite_completes ha hs, fun _ _ _ _ => iotuFstatPop_completes,
    fun s u a e d ha hw hs hr hn => ?retrain, fun s u a v d ha hs hr hn => ?decay, fun s u a v d ha hs hr hn => ?t1Range,
    fun _ _ _ _ _ ha hs => fwtCommit_completes ha hs, fun s u a i w v d ha hs hi hw hr hn => ?hold, fun _ _ _ _ => watchdogKick_completes,
    fun s u a r v d ha hs h2 hr hn => ?bankpwr, fun s u a n v d ha hs h12 hr hn => ?target,
    fun s u a n v d ha hs h12 hr hn => ?guardDie, fun s u a v d ha hs hr hn => ?guardIod, fun _ _ _ _ _ _ ha hs => evtCntWrite_completes ha hs,
    fun s u a d ha hs hr hn => ?hqenOn, fun _ _ _ _ ha hs hr hn => hqenDisable_completes ha hs hn hr, fun _ _ _ => ssmCtlLock_completes⟩
  case l1cCtl =>
    exact hr.completes (f := l1cCtlWriteRun a c v) rfl (by simp [ha, wfCompute, hc]) hs rfl (State.pcsAfter_l1cCtl hn)
  case retrain =>
    exact hr.completes (f := retrainRun a e) rfl (by simp [ha, hw]) hs rfl
      ((State.pcsAfter_sclCtl hn).trans (congrArg some (if_pos (getLsbD_63_or_bit63 _))))
  case decay =>
    exact hr.completes (f := decayWriteRun a v) rfl ha hs rfl ((State.pcsAfter_enlHeat hn).trans (congrArg some (if_pos (by decide))))
  case t1Range => exact hr.completes_plain (f := t1RangeActivateRun a v) rfl ha hs rfl (by rw [hn]; decide)
  case hold => exact hr.completes_plain (f := wldHoldWriteRun a i w v) rfl (by simp [ha, hi, hw]) hs rfl (by rw [hn]; decide)
  case bankpwr => exact hr.completes (f := ssmBankpwrWriteRun a r v) rfl (by simp [ha, h2]) hs rfl (State.pcsAfter_ssmBankpwr hn)
  case target => exact hr.completes (f := targetWriteRun a n v) rfl (by simp [ha, wfCd, h12]) hs rfl (State.pcsAfter_clkCdctl hn)
  case guardDie =>
    have hk : (if n = 15 then kPwrIodv else kPwrDctl n) = kPwrDctl n := if_neg (by omega)
    refine hr.completes (f := guardWriteRun a n v) rfl (by simp [ha, wfDie, h12]) hs ?_ (State.pcsAfter_pwrDctl hn)
    unfold guardWriteRun
    rw [hk]
  case guardIod => exact hr.completes (f := guardWriteRun a 15 v) rfl (by simp [ha, wfDie]) hs rfl (State.pcsAfter_pwrIodv hn)
  case hqenOn =>
    intro v tb line h1
    refine ⟨fun hp => hqenEnable_completes ha hs hn hr h1 (State.writeHqen_running hp), fun hp hno => ?_, ?_⟩
    · have hheld : v.ctxHeld 2 = false := Bool.and_eq_false_iff.mpr hno
      exact hqenEnable_completes ha hs hn hr h1 (State.writeHqen_read hp (.inl ⟨hheld, rfl, rfl⟩))
    · intro w x c nf hp hon htier hans w0 q sq rq hv hlo hhi hsq hrq hst hsd hrt hrd
      obtain ⟨p, hctx, hfields⟩ := w.ctxOf_enables x hv hlo hhi hsq hrq hst hsd hrt hrd 2
      have hheld : v.ctxHeld 2 = true := Bool.and_eq_true_iff.mpr ⟨hon, htier⟩
      obtain ⟨t, he, ht, hpair⟩ := hqenEnable_starts ha hs hn hr h1 hp (.inr ⟨hheld, x, false, c, nf, hans, hctx.symm⟩)
      exact ⟨t, he, ht, p, hpair, hfields⟩

end Sys2Proof.Machine
end

section
/-! SUPPORT.
The home slice of a line (R179), what sending a message leaves alone, and the requests that a home takes (R178, R180, R186, R188,
R191, R204, R209, R312, R426, R522). -/

namespace Sys2Proof.Machine

/-! ### The home slice (R179) -/

/-- The line of an HPA has the HPA's five bits from bit 6 + 5k, whatever the HPA's offset in its line. -/
theorem line_group {hpa : Nat} (h : hpa < 2 ^ 52) (k : Nat) :
    ((hpa / 64 * 64 % 2 ^ 52) >>> (6 + 5 * k)) % 32 = (hpa >>> (6 + 5 * k)) &&& 0x1F := by
  have hmod : hpa / 64 * 64 % 2 ^ 52 = hpa / 64 * 64 := Nat.mod_eq_of_lt (by omega)
  have hline : (hpa / 64 * 64) >>> 6 = hpa >>> 6 := by
    simp only [Nat.shiftRight_eq_div_pow]
    exact Nat.mul_div_cancel _ (by decide)
  rw [hmod, Nat.shiftRight_add, hline, ← Nat.shiftRight_add]
  exact (Nat.and_two_pow_sub_one_eq_mod _ 5).symm

/-- Settles O25, group by group of the exclusive or. -/
theorem homeSliceOfALine : Obligations.HomeSliceOfALine := by
  unfold Obligations.HomeSliceOfALine lineSlice haSlice
  intro hpa h
  exact List.foldl_ext _ _ _ fun slice k _ => congrArg (slice ^^^ ·) (line_group h k)

/-! ### What a message over a link leaves alone -/

/-- Of the package only the links, the Package Control Space, the uninterpreted sequence of slots and the outputs may differ. -/
def SendsOnly (s u : State) : Prop := u = { s with pcs := u.pcs, links := u.links, free := u.free, out := u.out }

theorem SendsOnly.refl (s : State) : SendsOnly s s := rfl

theorem SendsOnly.trans {s u w : State} (h : SendsOnly s u) (h' : SendsOnly u w) : SendsOnly s w := by
  unfold SendsOnly at *
  generalize w.pcs = p, w.links = l, w.free = f, w.out = o at *
  rw [h', h]

theorem SendsOnly.home {s u : State} (h : SendsOnly s u) : u.home = s.home := by rw [h]

theorem sendsOnly_foldl {α : Type} (f : State → α → State) (hf : ∀ s a, SendsOnly s (f s a)) (l : List α) (s : State) :
    SendsOnly s (l.foldl f s) :=
  List.foldlRecOn (motive := SendsOnly s) l f (SendsOnly.refl s) fun _ ht a _ => ht.trans (hf _ a)

theorem sendsOnly_setLk (s : State) (e : LinkEnd) (x : LinkSt) : SendsOnly s (s.setLk e x) := rfl
theorem sendsOnly_emit (s : State) (o : Out) : SendsOnly s (s.emit o) := rfl
theorem sendsOnly_lkMsg (s : State) (e : LinkEnd) (code : Nat) (a b : Word) : SendsOnly s (s.lkMsg e code a b) := rfl
theorem sendsOnly_sendFlit (s : State) (e : LinkEnd) (typ seq slotv body : Nat) : SendsOnly s (s.sendFlit e typ seq slotv body) := rfl

theorem sendsOnly_evtL (s : State) (e : LinkEnd) (i n : Nat) : SendsOnly s (s.evtL e i n) := by
  unfold State.evtL SendsOnly
  split <;> rw [State.evtBy_eq]

theorem sendsOnly_auditCounts (s : State) (e : LinkEnd) : SendsOnly s (s.auditCounts e) :=
  (sendsOnly_lkMsg s e _ _ _).trans (sendsOnly_foldl _ (fun _ _ => sendsOnly_lkMsg _ _ _ _ _) _ _)

theorem sendsOnly_sendSeq (s : State) (e : LinkEnd) (f : LinkFlit) : SendsOnly s (s.sendSeq e f) := by
  unfold State.sendSeq
  dsimp only
  split
  · exact (sendsOnly_sendFlit s e _ _ _ _).trans (sendsOnly_auditCounts _ e)
  · exact sendsOnly_sendFlit s e _ _ _ _

theorem sendsOnly_drawCredits {s u : State} {e : LinkEnd} {cls n : Nat} {l : List (Nat × Bool)}
    (h : s.drawCredits e cls n = some (l, u)) : SendsOnly s u := by
  unfold State.drawCredits at h
  dsimp only at h
  split at h
  · cases h
  · cases h; rfl

theorem sendsOnly_lkSend {s u : State} {e : LinkEnd} {m : LinkMsg} (h : s.lkSend e m = some u) : SendsOnly s u := by
  unfold State.lkSend at h
  dsimp only at h
  split at h
  · cases h
  · split at h
    · cases h
      exact (sendsOnly_setLk s e _).trans (sendsOnly_sendSeq _ e _)
    · split at h
      · cases h
      · split at h
        · cases h
        · next l w hw =>
          have hslots : SendsOnly w { w with free := w.free + 1 } := rfl
          have hflit (f : LinkFlit) (x : LinkSt) : SendsOnly s ((({ w with free := w.free + 1 } : State).setLk e x).sendSeq e f) :=
            (((sendsOnly_drawCredits hw).trans hslots).trans (sendsOnly_setLk _ e x)).trans (sendsOnly_sendSeq _ e f)
          cases h
          split
          · exact (hflit _ _).trans (sendsOnly_emit _ _)
          · exact hflit _ _

theorem sendsOnly_lkPump (s : State) (e : LinkEnd) : SendsOnly s (s.lkPump e) := by
  unfold State.lkPump
  refine SendsOnly.trans ?_ (sendsOnly_setLk _ e _)
  refine List.foldlRecOn (motive := fun a : List LinkMsg × State => SendsOnly s a.2) _ _ (SendsOnly.refl s) fun a ha m _ => ?_
  split
  · exact ha
  · split
    · next h => exact ha.trans (sendsOnly_lkSend h)
    · exact ha

theorem sendsOnly_sendCtl (s : State) (e : LinkEnd) (cmd : Nat) : SendsOnly s (s.sendCtl e cmd) := by
  unfold State.sendCtl
  dsimp only
  split
  · exact SendsOnly.refl s
  · exact (sendsOnly_setLk s e _).trans (sendsOnly_lkPump _ e)

theorem sendsOnly_retrain (s : State) (n : Nat) (attr : Bool) : SendsOnly s (s.retrain n attr) := by
  have hone (u : State) (e : LinkEnd) (x : LinkSt) :
      SendsOnly u (((((u.setLkState e 3).fadd (kSclStat e) fSclStat_RETRAINS 1).setLk e x).evtL e 11 1).lkMsg e 1 0 0) := by
    have hstart : SendsOnly u (((u.setLkState e 3).fadd (kSclStat e) fSclStat_RETRAINS 1).setLk e x) := rfl
    exact (hstart.trans (sendsOnly_evtL _ e 11 1)).trans (sendsOnly_lkMsg _ e _ _ _)
  unfold State.retrain
  dsimp only
  split
  · exact SendsOnly.refl s
  · exact (hone s _ _).trans (hone _ _ _)

theorem sendsOnly_linkWake (s : State) (e : LinkEnd) : SendsOnly s (s.linkWake e) := by
  unfold State.linkWake
  dsimp only
  split
  · exact (sendsOnly_lkMsg s e _ _ _).trans (sendsOnly_retrain _ e.link false)
  · exact SendsOnly.refl s

theorem sendsOnly_lkMessage (s : State) (e : LinkEnd) (cls slots : Nat) (o : Out) : SendsOnly s (s.lkMessage e cls slots o) := by
  have hctl (u : State) (b : Bool) : SendsOnly u (if b then u.sendCtl e 8 else u) := by
    cases b
    · exact SendsOnly.refl u
    · exact sendsOnly_sendCtl u e 8
  unfold State.lkMessage
  dsimp only
  split
  · exact SendsOnly.refl s
  · exact (((sendsOnly_setLk s e _).trans (hctl _ _)).trans (sendsOnly_linkWake _ e)).trans (sendsOnly_lkPump _ e)

theorem sendsOnly_toAgent (s : State) (a cls : Nat) (o : Out) : SendsOnly s (s.toAgent a cls none o) := by
  unfold State.toAgent
  split
  · exact sendsOnly_lkMessage s _ _ _ _
  · exact sendsOnly_emit s o

theorem sendsOnly_sendSnoops (s : State) (t : Trans) : SendsOnly s (s.sendSnoops t) :=
  sendsOnly_foldl _ (fun _ _ => sendsOnly_toAgent _ _ _ _) _ _

theorem SendsOnly.transOf {s u : State} (h : SendsOnly s u) (line : Nat) : u.transOf line = s.transOf line := by
  unfold State.transOf State.slice
  rw [h.home]

/-! ### The rows that bring a message to a home slice -/

/-- What a home slice does with a message that meets no error. -/
def State.homeGets (s : State) (k : ReqKind) (r : HomeReq) : State := match k with
  | .evc => s.evictMsg r none
  | .evd => s.evictMsg r (some r.data)
  | _ => s.request k r

/-- The messages that carry a line, and so may meet an error of a data buffer (Table 9-10). -/
def ReqKind.Carries (k : ReqKind) : Prop := k = .wrf ∨ k = .wrp ∨ k = .evd

theorem State.homeGets_request (s : State) {k : ReqKind} (r : HomeReq) (hc : k ≠ .evc) (hd : k ≠ .evd) : s.homeGets k r = s.request k r := by
  unfold State.homeGets
  split
  · exact absurd rfl hc
  · exact absurd rfl hd
  · rfl

/-- A WrF writes every byte, whatever error it meets. -/
theorem wrfRun_eq (r : HomeReq) (s : State) :
    wrfRun r s = s.homeTakes .wrf { r with mask := BitVec.allOnes 64 } fun r s => s.homeGets .wrf r := by
  unfold wrfRun State.homeTakes
  dsimp only
  cases r.err with
  | none => rfl
  | some e => cases e <;> rfl

theorem homeReqOf_runs {c : Instr} {k : ReqKind} {r : HomeReq} (h : homeReqOf c = some (k, r)) :
    ∃ ok, (∀ s, exec c s = runs ok (fun s => s.homeTakes k r fun r s => s.homeGets k r) s) ∧
      (r.wf = true → r.bufferOk = true ∨ k.Carries → ok = true) := by
  have hplain (ho : r.wf = true) (hb : r.bufferOk = true ∨ k.Carries) (hk : ¬ k.Carries) : (r.wf && r.bufferOk) = true := by
    rw [ho, hb.resolve_right hk]; rfl
  unfold homeReqOf at h
  split at h
  case h_5 q => cases h; exact ⟨q.wf, fun s => run_congr (wrfRun_eq q s), fun hw _ => hw⟩
  case h_6 => cases h; exact ⟨r.wf, fun _ => rfl, fun hw _ => hw⟩
  case h_13 => cases h; exact ⟨r.wf, fun _ => rfl, fun hw _ => hw⟩
  case h_14 => cases h
  all_goals
    cases h
    exact ⟨r.wf && r.bufferOk, fun _ => rfl, fun hw hb => hplain hw hb (by simp [ReqKind.Carries])⟩

/-- A message to a home slice completes with what the slice does with it. -/
theorem homeRow_completes {c : Instr} {k : ReqKind} {r : HomeReq} {s : State} (h : homeReqOf c = some (k, r)) (hw : r.wf = true)
    (hb : r.bufferOk = true ∨ k.Carries) (hs : s.stopped = false) :
    Completes c s fun t => t = { s.homeTakes k r fun r s => s.homeGets k r with pending := s.pending } := by
  obtain ⟨ok, he, hok⟩ := homeReqOf_runs h
  exact completes_with (he s) (hok hw hb) hs rfl

theorem HomeReq.bufferOk_of_none {r : HomeReq} (h : r.err = none) : r.bufferOk = true := by unfold HomeReq.bufferOk; rw [h]

/-- A message that meets no error. -/
theorem homeRow_completes_ok {c : Instr} {k : ReqKind} {r : HomeReq} {s : State} (h : homeReqOf c = some (k, r)) (hw : r.wf = true)
    (he : r.err = none) (hs : s.stopped = false) : Completes c s fun t => t = { s.homeGets k r with pending := s.pending } := by
  rw [← State.homeTakes_ok s k r (fun r s => s.homeGets k r) he]
  exact homeRow_completes h hw (.inl (HomeReq.bufferOk_of_none he)) hs

/-- An uncorrectable error in a directory or transaction entry takes the domain down (R209, R522). -/
theorem State.homeTakes_entry (s : State) (k : ReqKind) {r : HomeReq} (f : HomeReq → State → State) {dir : Bool} {i : Nat}
    (h : r.err = some (.entry dir i)) :
    s.homeTakes k r f =
      s.domainDown 7 (msgType k) r.agent r.line s.sock (elem 15 ((if dir then 0xA0 else 0x80) + lineSlice r.line) 4 i) := by
  unfold State.homeTakes; rw [h]

/-- An error in a data buffer is recorded, and the request goes on, poisoned where the error was not corrected (Table 9-10). -/
theorem State.homeTakes_buffer (s : State) (k : ReqKind) {r : HomeReq} (f : HomeReq → State → State) {i : Nat} {b : Bool}
    (h : r.err = some (.buffer i b)) :
    s.homeTakes k r f = f { r with err := none, poison := r.poison || b }
      (s.raise { cls := if b then 1 else 0, kind := 0x55, element := elem 15 (0x80 + lineSlice r.line) 5 i, recovered := !b,
                 hpa := some (r.line * 64), dark := r.dark }) := by
  unfold State.homeTakes; rw [h]

/-! ### A request arrives at its home -/

/-- A request of a die or of the service cores is outstanding from its arrival on (R204). -/
def State.asking (s : State) (k : ReqKind) (r : HomeReq) : State :=
  if r.agent < 12 ∨ r.agent = 16 then { s with home := { s.home with asked := s.home.asked ++ [Pend.fresh k r .msg] } } else s

theorem State.asking_eq (s : State) (k : ReqKind) (r : HomeReq) :
    s.asking k r = { s with home := { s.home with asked := (s.asking k r).home.asked } } := by
  unfold State.asking; split <;> rfl

theorem State.asking_lineKind (s : State) (k : ReqKind) (r : HomeReq) (line : Nat) : (s.asking k r).lineKind line = s.lineKind line := by
  rw [State.asking_eq]; rfl

theorem State.asking_cacheable {s : State} {k : ReqKind} {r : HomeReq} {line : Nat} : (s.asking k r).Cacheable line ↔ s.Cacheable line := by
  unfold State.Cacheable; rw [State.asking_lineKind]

/-- A request for a line that is homed here is taken up at its slice. -/
theorem State.request_cacheable {s : State} {k : ReqKind} {r : HomeReq} (hd : s.down = false) (hl : s.home.lost.contains r.agent = false)
    (hc : s.Cacheable r.line) : s.request k r = (s.asking k r).homeOpen (.fresh k r .msg) := by
  unfold State.request State.asking
  rw [hd, hl, if_neg (by decide)]
  dsimp only
  split
  · rfl
  · rcases hc with h | h <;> rw [h]

/-- A request whose line has an open transaction waits behind it (R191). -/
theorem State.homeOpen_held {s : State} {k : ReqKind} {r : HomeReq} (hd : s.down = false) (hc : s.Cacheable r.line)
    (hk : r.dark = true ∨ s.ownDark (r.line * 64) = false) (hh : s.lineHeld r.line = true) :
    s.homeOpen (.fresh k r .msg) = s.setSlice (lineSlice r.line) { s.slice (lineSlice r.line) with
      waiting := (s.slice (lineSlice r.line)).waiting ++ [Pend.fresh k r .msg] } := by
  have hrefuse : s.darkRefusal k r = none := by
    unfold State.darkRefusal
    rcases hk with h | h <;> simp [h]
  have hadmit : s.homeAdmit k r true = (.busy, s) := by
    unfold State.homeAdmit
    rw [hd, hrefuse, hh]
    rcases hc with h | h <;> rw [h] <;> rfl
  have hstart : s.start (.fresh k r .msg) true = (.wait none, s) := by
    have hhome : s.start (.fresh k r .msg) true = s.homeStart (.fresh k r .msg) true := by
      unfold State.start
      rcases hc with h | h <;> simp only [Pend.fresh, h]
    rw [hhome]
    unfold State.homeStart Pend.fresh
    dsimp only
    rw [hadmit]
  unfold State.homeOpen
  rw [hstart]
  rfl

/-- Opening a request places at most an entry: the lost agents stand (R180, R207). -/
theorem State.Opens.lost {s u : State} {k : ReqKind} {r : HomeReq} (h : s.Opens u k r) : u.home.lost = s.home.lost := by
  obtain ⟨-, -, -, -, -, -, -, hu⟩ := h
  split at hu
  · obtain ⟨w, -, rfl⟩ := hu
    unfold State.dirPlace State.evtDir
    rw [State.evtW_eq]
    rfl
  · rw [hu]

/-- A transaction awaits the agents that are snooped and not lost (R208, Table 6-5). -/
theorem State.mem_begin_await {s : State} {p : Pend} {a : Nat} (h : a ∈ (s.begin' p).1.await) :
    a ∉ s.home.lost ∧ (snoopsOf p.kind p.req ((s.dirFind p.req.line).map (·.2))).1.contains a = true := by
  obtain ⟨hmem, hlost⟩ := List.mem_filter.mp (show a ∈ (snoopsOf p.kind p.req ((s.dirFind p.req.line).map (·.2))).1.filter
    (fun a => !s.home.lost.contains a) from h)
  exact ⟨by simpa using hlost, List.contains_iff_mem.mpr hmem⟩

/-- Settles O26: a request that its home opens runs as `State.homeOpen_opens` says; one that finds its line held joins the queue. -/
theorem homeRequestsComplete : Obligations.HomeRequestsComplete := by
  unfold Obligations.HomeRequestsComplete
  refine ⟨?arrives, ?entry, ?buffer⟩
  case arrives =>
    intro c k r s v u hc hevc hevd hw herr hs hd hl hv
    obtain rfl : v = s.asking k r := hv
    have hrow := homeRow_completes_ok hc hw herr hs
    rw [State.homeGets_request s r hevc hevd] at hrow
    refine ⟨fun hopen => ?_, fun hcache hdark hheld => ?_⟩
    · have ⟨_, hcache, _⟩ := hopen
      rw [State.request_cacheable hd hl (State.asking_cacheable.mp hcache), State.homeOpen_opens hopen] at hrow
      refine ⟨fun hawait => ?_, fun hnone => ?_⟩
      · dsimp only at hrow
        rw [if_neg hawait] at hrow
        refine hrow.of_eq ⟨rfl, ?_, fun a ha => ?_⟩
        · obtain ⟨-, -, -, htrans⟩ := State.begin_trans u (Pend.fresh k r .msg)
          exact ((sendsOnly_sendSnoops _ _).transOf r.line).trans htrans
        · obtain ⟨hnot, hsn⟩ := State.mem_begin_await ha
          refine ⟨fun hm => hnot ?_, hsn⟩
          rw [hopen.lost, State.asking_eq]
          exact hm
      · dsimp only at hrow
        rwa [if_pos hnone] at hrow
    · rw [State.request_cacheable hd hl hcache, State.homeOpen_held (by rw [State.asking_eq]; exact hd) (State.asking_cacheable.mpr hcache)
        (hdark.imp_right fun h => by rw [State.asking_eq]; exact h) (by rw [State.asking_eq]; exact hheld)] at hrow
      exact hrow
  case entry =>
    intro c k r s dir i hc hw herr hs
    have hrow := homeRow_completes (s := s) hc hw (.inl (by unfold HomeReq.bufferOk; rw [herr])) hs
    rwa [State.homeTakes_entry s k _ herr] at hrow
  case buffer =>
    intro r q s u i b hw herr hs hq hu
    subst hq hu
    have hrow {c : Instr} {k : ReqKind} {x : HomeReq} (hc : homeReqOf c = some (k, x)) (hx : x.wf = true) (hk : k.Carries)
        (hex : x.err = some (.buffer i b)) := State.homeTakes_buffer s k (fun r s => s.homeGets k r) hex ▸ homeRow_completes hc hx (.inr hk) hs
    exact ⟨hrow rfl hw (.inr (.inl rfl)) herr, hrow (c := .wrf r) rfl hw (.inl rfl) herr, hrow rfl hw (.inr (.inr rfl)) herr⟩

end Sys2Proof.Machine
end

section
/-! SUPPORT.
Eviction notices at the home (R183, R190, R193, R194, R199, R209). -/

namespace Sys2Proof.Machine

/-! ### A credit of a slice (R190) -/

/-- What a credit that an agent uses leaves of its slice. -/
theorem State.setCredit_slice (s : State) (line a n : Nat) :
    (s.setCredit line a n).slice (lineSlice line) =
      { s.slice (lineSlice line) with evUsed := SMap.put (fun _ => 0) (s.slice (lineSlice line)).evUsed a n } :=
  State.slice_setSlice_eq _ _ _

@[simp] theorem State.setCredit_transOf (s : State) (line a n : Nat) : (s.setCredit line a n).transOf line = s.transOf line := by
  unfold State.transOf; rw [State.setCredit_slice]

@[simp] theorem State.setCredit_crossed (s : State) (line a n : Nat) :
    ((s.setCredit line a n).slice (lineSlice line)).crossed = (s.slice (lineSlice line)).crossed := by rw [State.setCredit_slice]

/-! ### What an eviction notice meets at its slice -/

/-- The notice that a message brings. -/
def noticeOf (r : HomeReq) (d : Option Line) : WbEnt := ⟨r.agent, r.line, d, r.poison, r.key, r.dark, false, none⟩

section
variable {s : State} {r : HomeReq} {d : Option Line}

/-- A snoop answer has carried the notice's data: it is only acknowledged (R194). -/
theorem State.evArrives_crossed (hx : (s.slice (lineSlice r.line)).crossed.contains (r.agent, r.line) = true) :
    s.evArrives (noticeOf r d) = .ack (s.setSlice (lineSlice r.line) { s.slice (lineSlice r.line) with
      crossed := (s.slice (lineSlice r.line)).crossed.erase (r.agent, r.line) }) := if_pos hx

variable (hx : (s.slice (lineSlice r.line)).crossed.contains (r.agent, r.line) = false)
include hx

/-- Any other notice meets what stands on its line. -/
theorem State.evArrives_uncrossed :
    s.evArrives (noticeOf r d) = match s.transOf r.line with
      | some t => if t.await.contains r.agent then .served ((s.putTrans (t.noticed d r)).evtHa r.line r.dark 9) else .wait
      | none => match s.dirFind r.line with
        | some (_, e) => if decide (e.own = some r.agent) && (d.isSome || decide (e.st = .x)) then .ack (s.takeEvict (noticeOf r d)) else .stray
        | none => .stray :=
  if_neg (by rw [Bool.not_eq_true]; exact hx)

/-- The owner's notice is taken where no transaction is open (R190). -/
theorem State.evArrives_owner {k : Nat} {e : DirEnt} (ht : s.transOf r.line = none) (hf : s.dirFind r.line = some (k, e))
    (ho : e.own = some r.agent) (hd : d.isSome = true ∨ e.st = .x) :
    s.evArrives (noticeOf r d) = .ack (s.takeEvict (noticeOf r d)) := by
  rw [State.evArrives_uncrossed hx, ht, hf]
  exact if_pos (by simpa [ho] using hd)

/-- Nothing expects the notice of an agent that does not own the line (R209). -/
theorem State.evArrives_stranger (ht : s.transOf r.line = none) (ho : ∀ k e, s.dirFind r.line = some (k, e) → e.own ≠ some r.agent) :
    s.evArrives (noticeOf r d) = .stray := by
  rw [State.evArrives_uncrossed hx, ht]
  cases hf : s.dirFind r.line with
  | none => rfl
  | some p => exact if_neg (by simp [ho p.1 p.2 hf])

/-- A transaction that awaits the sender takes the data, unless it has some, and owes EvAck (R194). -/
theorem State.evArrives_awaited {t : Trans} (ht : s.transOf r.line = some t) (ha : r.agent ∈ t.await) :
    s.evArrives (noticeOf r d) = .served ((s.putTrans (t.noticed d r)).evtHa r.line r.dark 9) := by
  rw [State.evArrives_uncrossed hx, ht]
  exact if_pos (List.contains_iff_mem.mpr ha)

/-- A transaction that has the sender's answer is over first (R190). -/
theorem State.evArrives_answered {t : Trans} (ht : s.transOf r.line = some t) (ha : r.agent ∉ t.await) :
    s.evArrives (noticeOf r d) = .wait := by
  rw [State.evArrives_uncrossed hx, ht]
  exact if_neg fun h => ha (List.contains_iff_mem.mp h)

end

/-! ### Its way from the message -/

/-- The slice has counted the sender's credit (R190). -/
def State.credited (s : State) (r : HomeReq) : State := s.setCredit r.line r.agent (s.evCredit r.line r.agent + 1)

/-- What a home slice does with a notice, once it is known what became of it. -/
def State.evConcludes (s : State) (r : HomeReq) (d : Option Line) : EvTake → State
  | .ack u => u.toAgent r.agent 2 none (.evAck r.agent r.line)
  | .served u => u
  | .wait => { s.credited r with home := { (s.credited r).home with evq := s.home.evq ++ [noticeOf r d] } }
  | .stray => s.domainDown 8 (if d.isSome then 0x0D else 0x0C) r.agent r.line s.sock

/-- A notice for a line that is homed here, with its credit and without one (R190, R209). -/
theorem State.evictMsg_local {s : State} {r : HomeReq} {d : Option Line} (hd : s.down = false) (hl : s.home.lost.contains r.agent = false)
    (hk : ∀ j, s.lineKind r.line ≠ .remote j) :
    s.evictMsg r d =
      s.evConcludes r d (if 2 ≤ s.evCredit r.line r.agent then .stray else (s.credited r).evArrives (noticeOf r d)) := by
  have hbody : s.evictMsg r d = if 2 ≤ s.evCredit r.line r.agent then s.evConcludes r d .stray
      else s.evConcludes r d ((s.credited r).evArrives (noticeOf r d)) := by
    unfold State.evictMsg
    rw [hd, hl, if_neg (by decide)]
    dsimp only
    split
    · next j h => exact absurd h (hk j)
    · rfl
  rw [hbody, apply_ite (s.evConcludes r d)]

/-- At a proxy a notice of this package's agents goes on to the line's home (R199). -/
theorem State.evictMsg_remote {s : State} {r : HomeReq} {d : Option Line} {j : Nat} (hd : s.down = false)
    (hl : s.home.lost.contains r.agent = false) (hk : s.lineKind r.line = .remote j) (ha : r.agent < 12 ∨ r.agent = 16) :
    s.evictMsg r d = ({ s with home := { s.home with wbuf := s.home.wbuf ++ [noticeOf r d] } } : State).drainWb := by
  unfold State.evictMsg
  rw [hd, hl, if_neg (by decide), hk]
  exact if_pos ha

/-- The row of a notice with or without data completes with what the slice does with it. -/
theorem evictionNotice_completes {s : State} {r : HomeReq} (d : Option Line) (hw : r.wf = true) (he : r.err = none) (hs : s.stopped = false) :
    Completes (match d with | none => .evc r | some x => .evd { r with data := x }) s fun t =>
      t = { s.evictMsg r d with pending := s.pending } := by
  cases d with
  | none => exact homeRow_completes_ok (k := .evc) rfl hw he hs
  | some x => exact homeRow_completes_ok (k := .evd) (r := { r with data := x }) rfl hw he hs

/-- Settles O27: what the notice meets at its slice, case by case. -/
theorem evictionNoticesComplete : Obligations.EvictionNoticesComplete := by
  unfold Obligations.EvictionNoticesComplete
  intro s r d hw herr hs hd hl
  have hrow := evictionNotice_completes d hw herr hs
  refine ⟨fun hk => ⟨fun hno => ?noCredit, fun hcr => ?credit⟩, fun j hk ha => ?proxy⟩
  case noCredit =>
    rw [State.evictMsg_local hd hl hk, if_pos hno] at hrow
    exact hrow
  case proxy =>
    rw [State.evictMsg_remote hd hl hk ha] at hrow
    exact hrow
  case credit =>
    rw [State.evictMsg_local hd hl hk, if_neg (Nat.not_le.mpr hcr)] at hrow
    have hcrossed : ((s.credited r).slice (lineSlice r.line)).crossed = (s.slice (lineSlice r.line)).crossed :=
      State.setCredit_crossed s r.line r.agent _
    have htrans : (s.credited r).transOf r.line = s.transOf r.line := State.setCredit_transOf s r.line r.agent _
    refine ⟨fun hx => ?_, fun hx => ⟨fun k e ht hf ho hdata => ?_, fun ht ho => ?_, fun tr ht ha => ?_, fun tr ht ha => ?_⟩⟩
    · rw [State.evArrives_crossed ((congrArg (·.contains (r.agent, r.line)) hcrossed).trans hx)] at hrow
      exact hrow
    all_goals replace hx := (congrArg (·.contains (r.agent, r.line)) hcrossed).trans hx
    · rw [State.evArrives_owner hx (htrans.trans ht) hf ho hdata] at hrow
      exact hrow
    · rw [State.evArrives_stranger hx (htrans.trans ht) ho] at hrow
      exact hrow
    · rw [State.evArrives_awaited hx (htrans.trans ht) ha] at hrow
      have hline := State.transOf_line ht
      refine hrow.of_eq ⟨?_, ?_⟩
      · have hput := State.transOf_putTrans (s.credited r) (tr.noticed d r)
        rw [show (tr.noticed d r).req.line = r.line from hline] at hput
        rw [State.evConcludes, evtHa_eq]
        exact hput
      · rw [State.evConcludes, evtHa_eq]
        rfl
    · rw [State.evArrives_answered hx (htrans.trans ht) ha] at hrow
      exact hrow

end Sys2Proof.Machine
end

section
/-! SUPPORT.
Home timers, the end of the coherent domain, the directory sweep and fabric completions (R203–R209, R355). -/

namespace Sys2Proof.Machine

/-! ### Domain-down (R205, R206) -/

/-- A row that takes the domain down raises FATAL. -/
theorem domainDown_completes {c : Instr} {ok : Bool} {f : State → State} {s : State} {cause msg agent line origin : Nat}
    (he : exec c s = runs ok f s) (hok : ok = true) (hs : s.stopped = false) (hd : s.down = false)
    (hf : f s = s.domainDown cause msg agent line origin) :
    Completes c s fun t => t = { s.domainDown cause msg agent line origin with pending := s.pending } ∧ t.pins.fatal = true :=
  (completes_with he hok hs hf).of_eq ⟨rfl, domainDown_fatal _ _ _ _ _ _ hd⟩

theorem domainDownNotice_completes (s : State) (j : BitVec 2) (hs : s.stopped = false) (hd : s.down = false) :
    Completes (.domainDownNotice j) s fun t =>
      t = { s.domainDown 6 0 (12 + j.toNat) 0 j.toNat with pending := s.pending } ∧ t.pins.fatal = true :=
  domainDown_completes (ok := true) (f := domainDownNoticeRun j) rfl rfl hs hd rfl

/-- Safelight extends the three records of the domain's end, once (R206). -/
theorem domainDownExtension_completes (s : State) (hs : s.stopped = false) (hd : s.down = true) (hup : s.boot.sp0Up = true)
    (hlog : s.boot.log.any (fun l => l.bytes.take 2 = [0x0A, 0]) = false) :
    Completes .domainDownExtension s fun t =>
      t = { s.extend 0x0A 7 (leBytes 8 (s.rd kHaDdrec0).toNat ++ (leBytes 8 (s.rd kHaDdrec1).toNat ++ leBytes 8 (s.rd kHaDdrec2).toNat))
        with pending := s.pending } := by
  refine completes_with (ok := true) (f := domainDownExtensionRun) rfl rfl hs ?_
  unfold domainDownExtensionRun
  rw [hd, hup, hlog, if_pos (by decide)]
  simp only [List.flatMap_cons, List.flatMap_nil, List.append_nil]

/-! ### Snoop and request timers (R205, R207) -/

section
variable {s : State} {line agent : Nat} {tr : Trans}

/-- In native mode, and of the service cores in both modes, silence takes the domain down (log 59). -/
theorem snoopTimeout_down (hl : wfLine line = true) (ha : agent < 17) (hs : s.stopped = false) (hd : s.down = false)
    (ht : s.transOf line = some tr) (hm : agent ∈ tr.await) (h : s.fon kHaGctl fHaGctl_MODE = false ∨ agent = 16) :
    Completes (.snoopTimeout line agent) s fun t =>
      t = { s.domainDown 1 (msgType tr.kind) agent line s.sock with pending := s.pending } ∧ t.pins.fatal = true := by
  refine domainDown_completes (f := snoopTimeoutRun line agent) rfl (by simp [hl, wfAgent, ha]) hs hd ?_
  unfold snoopTimeoutRun
  rw [hd, if_neg (by decide), ht]
  dsimp only
  rw [if_pos (List.contains_iff_mem.mpr hm), if_neg (by rcases h with h | h <;> simp [h])]

/-- In Cydric poison mode the silence of a die or a socket loses it (R207). -/
theorem snoopTimeout_loses (hl : wfLine line = true) (ha : agent < 17) (hs : s.stopped = false) (hd : s.down = false)
    (ht : s.transOf line = some tr) (hm : agent ∈ tr.await) (h : s.fon kHaGctl fHaGctl_MODE = true) (hsp : agent ≠ 16) :
    Completes (.snoopTimeout line agent) s fun t => t = { s.agentLost agent with pending := s.pending } := by
  refine completes_with (f := snoopTimeoutRun line agent) rfl (by simp [hl, wfAgent, ha]) hs ?_
  unfold snoopTimeoutRun
  rw [hd, if_neg (by decide), ht]
  dsimp only
  rw [if_pos (List.contains_iff_mem.mpr hm), if_pos (by simp [h, hsp])]

theorem requestTimeout_completes (s : State) (agent line : Nat) (ha : agent < 17) (hl : wfLine line = true) (hs : s.stopped = false)
    (hd : s.down = false) (h : s.asks agent line = true) :
    Completes (.requestTimeout agent line) s fun t =>
      t = { s.domainDown 3 (match s.transOf line with | some t => msgType t.kind | none => 0) agent line s.sock with pending := s.pending } ∧
      t.pins.fatal = true := by
  refine domainDown_completes (f := requestTimeoutRun agent line) rfl (by simp [hl, wfAgent, ha]) hs hd ?_
  unfold requestTimeoutRun
  rw [hd, if_neg (by decide)]
  exact if_pos h

/-! ### Memory timers (R205, R207) -/

/-- A finished transaction is settled by the answer that it gives. -/
theorem State.settle_given (s : State) {t : Trans} (ha : t.await = []) (hg : t.granted = false) :
    s.settle t = State.given (s.homeFinish t) t.pend := by
  unfold State.settle State.given
  rw [ha, hg]
  exact if_pos rfl

/-- The memory timer of a transaction that waits for its memory. -/
theorem memoryTimeoutRun_trans (hd : s.down = false) (ht : s.transOf line = some tr) (ha : tr.await = []) (hg : tr.granted = false)
    (hf : tr.fabric = false) :
    memoryTimeoutRun line s =
      (let u := (s.deferredErr 0x74 (some (line * 64)) (some tr.req.key) (s.isDark (line * 64)) 0x1F).fed line
       if s.fon kHaGctl fHaGctl_MODE then
         if tr.kind = .atf then (u.closeEnd tr none (.reply 0 true false false)).2.deliver tr.pend (.reply 0 true false false)
         else State.given (u.homeFinish { tr with mem := some (0, true), dropped := true }) tr.pend
       else s.domainDown 2 (msgType tr.kind) 0x1F line s.sock) := by
  have hsettle (u : State) : u.settle { tr with mem := some (0, true), dropped := true } =
      State.given (u.homeFinish { tr with mem := some (0, true), dropped := true }) tr.pend := State.settle_given u ha hg
  have hwaits : (tr.await.isEmpty && !tr.granted && !tr.fabric) = true := by rw [ha, hg, hf]; rfl
  unfold memoryTimeoutRun
  rw [hd, if_neg (by decide), ht]
  dsimp only
  rw [if_pos hwaits, hsettle]
  rfl

/-- The memory timer of an access or a copy that waits in the Enlarger. -/
theorem memoryTimeoutRun_held (hd : s.down = false) (ht : s.transOf line = none)
    (hw : (∃ a, a ∈ s.enl.held ∧ a.line = line) ∨ (s.copyOf line).isSome = true) :
    memoryTimeoutRun line s = if s.fon kHaGctl fHaGctl_MODE then (s.heldTimeout line).zciFlush
      else s.domainDown 2 (if (s.copyOf line).isSome then 0x0E else 0) 0x1F line s.sock := by
  have hwaits : ((s.enl.held.find? (fun a => decide (a.line = line))).isNone && (s.copyOf line).isNone) = false := by
    rcases hw with ⟨a, hmem, hline⟩ | hcopy
    · rw [Bool.and_eq_false_iff]
      refine .inl (Option.isNone_eq_false_iff.mpr (List.find?_isSome.mpr ⟨a, hmem, decide_eq_true hline⟩))
    · rw [Option.isNone_eq_false_iff.mpr hcopy, Bool.and_false]
  unfold memoryTimeoutRun
  rw [hd, if_neg (by decide), ht]
  dsimp only
  rw [hwaits, if_neg (by decide)]

end

/-! ### The directory sweep (R203, R208) -/

/-- The lines of the 16 ways that the next visit of a slice serves. -/
def State.sweepLines (s : State) (n : Nat) : List Nat :=
  (s.home.dir.filter fun p => decide ((n * 32768 + (s.slice n).sweep) * 16 ≤ p.1 ∧
    p.1 < (n * 32768 + (s.slice n).sweep) * 16 + 16)).map (·.2.line)

/-- The state in which those ways have been served. -/
def State.sweptSet (s : State) (n : Nat) : State :=
  (s.sweepLines n).foldl (fun s l => (s.clearLost l).snoopLost l) (s.evt 15 (0xA0 + n) 4)

/-- A sweep moves on to the next set, and ends with the last. -/
def Slice.sweptOn (x : Slice) : Slice := if x.sweep = 32767 then { x with sweep := 0, passes := x.passes - 1 } else { x with sweep := x.sweep + 1 }

theorem sweepSetVisitRun_eq {s : State} {n : Nat} (hd : s.down = false) (hp : (s.slice n).passes ≠ 0) :
    sweepSetVisitRun n s =
      (let v := (s.sweptSet n).setSlice n ((s.sweptSet n).slice n).sweptOn
       v.fput kHaGstat fHaGstat_SWEEP (if v.home.slices.any (fun p => p.2.passes ≠ 0) then 1 else 0)) := by
  unfold sweepSetVisitRun
  rw [hd]
  exact if_neg (by simpa using hp)

/-- SWEEP shows whether a sweep runs. -/
theorem State.fget_sweep (s : State) (b : Bool) : (s.fput kHaGstat fHaGstat_SWEEP (if b then 1 else 0)).fget kHaGstat fHaGstat_SWEEP = 1 ↔ b = true := by
  rw [State.fget_fput _ _ _ _ (by decide)]
  cases b <;> decide

theorem sweepSetVisit_completes (s : State) (n : Nat) (hn : n < 32) (hs : s.stopped = false) (hd : s.down = false)
    (hp : (s.slice n).passes ≠ 0) :
    Completes (.sweepSetVisit n) s fun t =>
      t.slice n = ((s.sweptSet n).slice n).sweptOn ∧ (∀ m, m ≠ n → t.slice m = (s.sweptSet n).slice m) ∧
      t.home.dir = (s.sweptSet n).home.dir ∧ t.media = (s.sweptSet n).media ∧
      (t.fget kHaGstat fHaGstat_SWEEP = 1 ↔ ∃ p, p ∈ t.home.slices ∧ p.2.passes ≠ 0) := by
  refine (completes_with (f := sweepSetVisitRun n) rfl (decide_eq_true hn) hs (sweepSetVisitRun_eq hd hp)).of_eq
    ⟨State.slice_setSlice_eq _ _ _, fun m hm => State.slice_setSlice_ne _ _ hm, rfl, rfl, (State.fget_sweep _ _).trans ?_⟩
  simp only [List.any_eq_true, decide_eq_true_eq]
  rfl

/-! ### Fabric completions (R355) -/

theorem fabricCompletion_ends (s : State) (tag : Nat) (data : Line) (err : Bool) (o : FabOut) (hs : s.stopped = false)
    (ho : s.fabOut tag = some o) :
    Completes (.fabricCompletion tag data err) s (fun t => t = { s.fabEnd o data err with pending := s.pending }) ∧
    Completes (.fabricCompletionTimeout tag) s (fun t => t = { (s.evt 15 0x18 5).fabEnd o 0 true with pending := s.pending }) := by
  refine ⟨completes_with (ok := true) (f := fabricCompletionRun tag data err) rfl rfl hs ?_,
    completes_with (ok := true) (f := fabricCompletionTimeoutRun tag) rfl rfl hs ?_⟩
  · unfold fabricCompletionRun; rw [ho]
  · unfold fabricCompletionTimeoutRun; rw [ho]

/-- A late completion is discarded (R19). -/
theorem fabricCompletion_late (s : State) (tag : Nat) (data : Line) (err : Bool) (hs : s.stopped = false) (ho : s.fabOut tag = none) :
    Completes (.fabricCompletion tag data err) s fun t => t = s :=
  completes_with (ok := true) (f := fabricCompletionRun tag data err) (u := s) rfl rfl hs (by unfold fabricCompletionRun; rw [ho])

/-- Settles O30, row by row. -/
theorem homeTimersComplete : Obligations.HomeTimersComplete := by
  unfold Obligations.HomeTimersComplete
  refine ⟨⟨fun s line agent tr hl ha hs hd ht => ?trans, fun s line hl hs hd ht hw => ?held, requestTimeout_completes,
    domainDownNotice_completes, domainDownExtension_completes⟩, sweepSetVisit_completes, fabricCompletion_ends, fabricCompletion_late⟩
  case trans =>
    refine ⟨snoopTimeout_down hl ha hs hd ht, snoopTimeout_loses hl ha hs hd ht, fun hnone hg hf hmode => ?_,
      fun hnone hg hf hmode => ⟨fun hk => ?_, fun hk => ?_⟩⟩
    all_goals have hrun := memoryTimeoutRun_trans hd ht hnone hg hf
    · exact domainDown_completes (f := memoryTimeoutRun line) rfl hl hs hd (hrun.trans (if_neg (by simp [hmode])))
    · exact completes_with (f := memoryTimeoutRun line) rfl hl hs (hrun.trans ((if_pos hmode).trans (if_neg hk)))
    · exact completes_with (f := memoryTimeoutRun line) rfl hl hs (hrun.trans ((if_pos hmode).trans (if_pos hk)))
  case held =>
    have hrun := memoryTimeoutRun_held hd ht hw
    exact ⟨fun hmode => domainDown_completes (f := memoryTimeoutRun line) rfl hl hs hd (hrun.trans (if_neg (by simp [hmode]))),
      fun hmode => completes_with (f := memoryTimeoutRun line) rfl hl hs (hrun.trans (if_pos hmode))⟩

end Sys2Proof.Machine
end

section
/-! SUPPORT.
Flits that arrive at a link end (R215, R216, R219, R220, R223, R565), and what an accepted link-control flit does (R227, R228,
R236, R237, R246; log 26). -/

namespace Sys2Proof.Machine

/-! ### What becomes of a flit (R216, R219, R223) -/

section
variable {s : State} {e : LinkEnd} {f : Flit} (hup : s.lkUp e = true)
include hup

theorem State.rxFlit_badCrc (hcrc : crcOk f = false) : s.rxFlit e f = (.none, (s.evtL e 3 1).sendNak e) := by
  unfold State.rxFlit
  rw [if_neg (by simp [hup]), if_pos (by simp [hcrc])]

variable (hcrc : crcOk f = true)
include hcrc

/-- A flit whose CRC passes has its header taken first, whatever its type. -/
theorem State.rxFlit_reserved (ht : 3 < hdr (headerOf f) 60 4) :
    s.rxFlit e f = (.none, (s.lkHeader e (headerOf f)).retrain e.link false) := by
  unfold State.rxFlit
  rw [if_neg (by simp [hup]), if_neg (by simp [hcrc])]
  exact if_pos ht

theorem State.rxFlit_null (ht : hdr (headerOf f) 60 4 = 0) : s.rxFlit e f = (.header, s.lkHeader e (headerOf f)) := by
  unfold State.rxFlit
  rw [if_neg (by simp [hup]), if_neg (by simp [hcrc])]
  dsimp only
  rw [if_neg (by omega), if_pos ht]

/-- A NAK acknowledges what comes before the flit that it names. -/
theorem State.rxFlit_nak (ht : hdr (headerOf f) 60 4 = 2) :
    s.rxFlit e f = (.header,
      let seq := hdr (headerOf f) 48 12
      let w := (s.lkHeader e (headerOf f)).lkAck e ((seq + 4095) % 4096)
      if (w.lk e).inReplay seq then w else w.replayFrom e seq) := by
  unfold State.rxFlit
  rw [if_neg (by simp [hup]), if_neg (by simp [hcrc])]
  dsimp only
  rw [if_neg (by omega), if_neg (by omega), if_pos ht]

section
variable {w : State} (ht : hdr (headerOf f) 60 4 = 1)
include ht

/-- The flit that is expected, discarded by Agitation. -/
theorem State.rxFlit_agitated (ha : (s.lkHeader e (headerOf f)).agtNak e = (true, w))
    (hseq : hdr (headerOf f) 48 12 = ((s.lkHeader e (headerOf f)).lk e).expect) :
    s.rxFlit e f = (.none, (w.setLk e { (s.lkHeader e (headerOf f)).lk e with nakFor := none }).sendNak e) := by
  unfold State.rxFlit
  rw [if_neg (by simp [hup]), if_neg (by simp [hcrc])]
  dsimp only
  rw [if_neg (by omega), if_neg (by omega), if_neg (by omega), ha, if_pos rfl, if_pos hseq]

/-- A flit that is not the one expected is a duplicate where it lies less than half the sequence space back. -/
theorem State.rxFlit_unexpected (ha : (s.lkHeader e (headerOf f)).agtNak e = (false, w))
    (hseq : hdr (headerOf f) 48 12 ≠ ((s.lkHeader e (headerOf f)).lk e).expect) :
    s.rxFlit e f = (.none,
      if (((s.lkHeader e (headerOf f)).lk e).expect + 4096 - hdr (headerOf f) 48 12 - 1) % 4096 < 2048 then w.evtL e 6 1
      else w.sendNak e) := by
  unfold State.rxFlit
  rw [if_neg (by simp [hup]), if_neg (by simp [hcrc])]
  dsimp only
  rw [if_neg (by omega), if_neg (by omega), if_neg (by omega), ha, if_neg Bool.false_ne_true, if_neg hseq]
  exact (apply_ite (Prod.mk Rx.none) _ _ _).symm

end

end

/-! ### PROT (R219, R246) -/

theorem protRun_discarded {s u : State} {e : LinkEnd} {f : Flit} (h : s.rxFlit e f = (.none, u)) : protRun e f s = u := by
  unfold protRun
  rw [h]

/-- An accepted PROT flit is counted, and ends a power request that is under way. -/
theorem protRun_accepted {s u : State} {e : LinkEnd} {f : Flit} (h : s.Accepts u e f) (ht : hdr (headerOf f) 60 4 = 1) :
    protRun e f s =
      let w := u.evtL e 2 1
      if (w.lk e).pmSent || (w.lk e).pmOk then (w.setLk e { w.lk e with pmSent := false, pmOk := false }).sendCtl e 8 else w := by
  unfold protRun
  rw [State.rxFlit_accepts h]
  exact if_neg (fun hn => hn ht)

/-- Settles O31: what a flit brings, by its CRC, its type and its place in the sequence. -/
theorem flitsAreReceived : Obligations.FlitsAreReceived := by
  unfold Obligations.FlitsAreReceived
  intro s e f hw hs hup
  refine ⟨fun hcrc => ?badCrc, fun hcrc ht => ?reserved, fun hcrc ht => ?null, fun hcrc ht => ?nak, fun hcrc ht b w ha => ?sequenced,
    fun ht u hacc => ?accepted⟩
  case badCrc => exact completes_with (f := flitCrcFailureRun e f) rfl hw hs (congrArg Prod.snd (State.rxFlit_badCrc hup hcrc))
  case reserved => exact completes_with (f := reservedTypeFlitRun e f) rfl hw hs (congrArg Prod.snd (State.rxFlit_reserved hup hcrc ht))
  case null => exact completes_with (f := nullFlitRun e f) rfl hw hs (congrArg Prod.snd (State.rxFlit_null hup hcrc ht))
  case nak =>
    have hrun : nakRun e f s = _ := congrArg Prod.snd (State.rxFlit_nak hup hcrc ht)
    exact (completes_with (c := .nak e f) rfl hw hs hrun :)
  case sequenced =>
    have hprot {t : State} (hrun : protRun e f s = t) : Completes (.prot e f) s fun x => x = { t with pending := s.pending } :=
      completes_with rfl hw hs hrun
    refine ⟨?duplicate, ?gap, ?agitated⟩
    case duplicate =>
      rintro rfl hseq hback
      exact hprot ((protRun_discarded (State.rxFlit_unexpected hup hcrc ht ha hseq)).trans (if_pos hback))
    case gap =>
      rintro rfl hseq hahead
      exact hprot ((protRun_discarded (State.rxFlit_unexpected hup hcrc ht ha hseq)).trans (if_neg (Nat.not_lt.mpr hahead)))
    case agitated =>
      rintro rfl hseq
      exact hprot (protRun_discarded (State.rxFlit_agitated hup hcrc ht ha hseq))
  case accepted =>
    have hrun := protRun_accepted hacc ht
    refine ⟨fun hsent hok => completes_with rfl hw hs (hrun.trans (if_neg ?_)),
      fun hreq => completes_with rfl hw hs (hrun.trans (if_pos ?_))⟩
    · simp [hsent, hok]
    · simpa using hreq

/-! ### Control flits (R227, R228, R236, R237, R246) -/

theorem State.onCtl_accepts {s u : State} {e : LinkEnd} {f : Flit} {cmd : Nat} (h : s.Accepts u e f) (hc : isCtl f cmd = true)
    (k : State → State) : s.onCtl e f cmd k = k u := by
  unfold State.onCtl
  rw [State.rxFlit_accepts h]
  exact if_pos hc

/-- The row of an accepted control flit completes with what its command does. -/
theorem State.Accepts.ctl_completes {s u t : State} {e : LinkEnd} {f : Flit} {cmd : Nat} {c : Instr} {k : State → State}
    (h : s.Accepts u e f) (he : exec c s = runs e.wf (fun s => s.onCtl e f cmd k) s) (hw : e.wf = true) (hs : s.stopped = false)
    (hc : isCtl f cmd = true) (hk : k u = t) : Completes c s fun x => x = { t with pending := s.pending } :=
  completes_with he hw hs ((State.onCtl_accepts h hc k).trans hk)

/-- Settles O32, command by command. -/
theorem linkControlFlitsComplete : Obligations.LinkControlFlitsComplete := by
  unfold Obligations.LinkControlFlitsComplete
  intro s u e f hw hs hacc
  refine ⟨fun shared reserved hc => ?audit, fun m hc => ?widthReq, fun m hc hreq => ?widthAck, fun q hc => ?widthWdraw,
    fun hc hopen => ?mapswitch, fun hc => ?pmReq, fun hc hsent => ?pmAck, fun hc => ?pmNak⟩
  case audit => exact hacc.ctl_completes rfl hw hs hc rfl
  case widthReq =>
    refine ⟨fun hnone => ?answers, fun hreq hcd => ?withdraws, fun hreq hiod => ?stands⟩
    case answers => exact hacc.ctl_completes rfl hw hs hc (if_pos hnone)
    case withdraws => exact hacc.ctl_completes rfl hw hs hc ((if_neg (by omega)).trans (if_pos ⟨hreq, by simp [hcd]⟩))
    case stands => exact hacc.ctl_completes rfl hw hs hc ((if_neg (by omega)).trans (if_neg (by simp [hiod])))
  case widthAck => exact hacc.ctl_completes rfl hw hs hc (if_pos hreq)
  case widthWdraw => exact hacc.ctl_completes (t := u.lkMsg e 14 (q.setWidth 64) 0) rfl hw hs hc rfl
  case mapswitch => exact hacc.ctl_completes rfl hw hs hc (if_neg hopen)
  case pmReq =>
    refine ⟨fun hsent => ?crosses, fun hsent hidle => ?agrees, fun hsent hidle => ?refuses⟩
    case crosses => exact hacc.ctl_completes rfl hw hs hc (if_pos hsent)
    case agrees => exact hacc.ctl_completes rfl hw hs hc ((if_neg (by simp [hsent])).trans (if_pos hidle))
    case refuses => exact hacc.ctl_completes rfl hw hs hc ((if_neg (by simp [hsent])).trans (if_neg (by simp [hidle])))
  case pmAck => exact hacc.ctl_completes rfl hw hs hc (if_pos hsent)
  case pmNak => exact hacc.ctl_completes rfl hw hs hc rfl

end Sys2Proof.Machine
end

section
/-! SUPPORT.
What happens at a link end without a flit: its timers and audits (R222, R227), low power (R245, R246, R247) and the bursts of the
stream role (R240–R243; log 27). -/

namespace Sys2Proof.Machine

/-! ### Control flits that an end may send (R221, R227) -/

theorem State.lkState_of_lkUp {s : State} {e : LinkEnd} (h : s.lkUp e = true) : s.lkState e ≠ 0 := by
  intro h0
  simp [State.lkUp, h0] at h

theorem State.pwr_of_lkUp {s : State} {e : LinkEnd} (h : s.lkUp e = true) : s.fget (kSclStat e) fSclStat_PWR < 2 :=
  of_decide_eq_true (Bool.and_eq_true_iff.mp h).2

/-- An end at which a message has come to wait behind the others. -/
def LinkSt.queued (x : LinkSt) (m : LinkMsg) : LinkSt := { x with queue := x.queue ++ [m] }

theorem State.sendCtl_queues {s : State} {e : LinkEnd} {cmd : Nat} (h : s.lkState e ≠ 0) :
    s.sendCtl e cmd = (s.setLk e ((s.lk e).queued ⟨5, 1, cmd, none⟩)).lkPump e := if_neg h

/-- An end that may send sends a control flit as a sequenced flit of its own. -/
theorem State.lkSend_ctl {s : State} {e : LinkEnd} {m : LinkMsg} (hup : s.lkUp e = true) (hroom : (s.lk e).replay.length < 256)
    (hres : (s.lk e).resend = []) (hm : 5 ≤ m.cls) :
    ∃ x, s.lkSend e m = some ((s.setLk e x).sendSeq e ⟨(s.lk e).next, 3, m.body, [], true⟩) := by
  unfold State.lkSend
  dsimp only
  rw [if_neg (by simp [hup, hres, hroom]), if_pos hm]
  exact ⟨_, rfl⟩

/-- A message that alone waits at an end is sent, and nothing waits. -/
theorem State.lkPump_one {s t : State} {e : LinkEnd} {m : LinkMsg} (hq : (s.lk e).queue = [m]) (h : s.lkSend e m = some t) :
    s.lkPump e = t.setLk e { t.lk e with queue := [] } := by
  unfold State.lkPump
  rw [hq, List.foldl_cons, List.foldl_nil]
  dsimp only
  rw [h]
  rfl

/-- The counts that an AUDIT carries are what the end has returned so far. -/
theorem State.auditCounts_eq (s : State) (e : LinkEnd) :
    s.auditCounts e = { s with out := s.out ++ (.linkMsg e.iod e.link 10 5 (BitVec.ofNat 64 (s.lk e).sentSh) ::
      (List.range 5).map fun c => .linkMsg e.iod e.link 10 (BitVec.ofNat 64 c) (BitVec.ofNat 64 ((s.lk e).sentRes.getD c 0))) } := by
  unfold State.auditCounts
  refine (State.emits _ _ _).trans ?_
  simp only [State.lkMsg, State.emit, List.append_assoc, List.singleton_append]

theorem State.sendFlit_out (s : State) (e : LinkEnd) (typ seq slotv body : Nat) :
    ∃ f : Flit, (s.sendFlit e typ seq slotv body).out = s.out ++ [.flit e.iod e.link f] := ⟨_, rfl⟩

/-- The flit of an AUDIT is followed by its counts. -/
theorem State.sendSeq_audit (s : State) (e : LinkEnd) (n : Nat) :
    s.sendSeq e ⟨n, 3, 5, [], true⟩ = (s.sendFlit e 3 n 1 5).auditCounts e := by
  unfold State.sendSeq
  exact if_pos ⟨rfl, rfl⟩

/-- An AUDIT that alone waits at an end that may send leaves, with its counts. -/
theorem State.lkPump_audit {s : State} {e : LinkEnd} (hup : s.lkUp e = true) (hq : (s.lk e).queue = [⟨5, 1, 5, none⟩])
    (hroom : (s.lk e).replay.length < 256) (hres : (s.lk e).resend = []) :
    ∃ (u : State) (f : Flit), u.out = s.out ++ [.flit e.iod e.link f] ∧
      s.lkPump e = (u.auditCounts e).setLk e { (u.auditCounts e).lk e with queue := [] } := by
  obtain ⟨x, hsend⟩ := State.lkSend_ctl (m := ⟨5, 1, 5, none⟩) hup hroom hres (Nat.le_refl 5)
  rw [State.sendSeq_audit] at hsend
  obtain ⟨f, hf⟩ := State.sendFlit_out (s.setLk e x) e 3 (s.lk e).next 1 5
  exact ⟨_, f, hf, State.lkPump_one hq hsend⟩

/-- AUDIT at an end that may send it: the flit leaves, and after it the counts that the end now shows. -/
theorem State.sendCtl_audit {s : State} {e : LinkEnd} (hup : s.lkUp e = true) (hq : (s.lk e).queue = [])
    (hroom : (s.lk e).replay.length < 256) (hres : (s.lk e).resend = []) :
    ∃ f : Flit, (s.sendCtl e 5).out = s.out ++
      .flit e.iod e.link f :: .linkMsg e.iod e.link 10 5 (BitVec.ofNat 64 ((s.sendCtl e 5).lk e).sentSh) ::
      (List.range 5).map (fun c => .linkMsg e.iod e.link 10 (BitVec.ofNat 64 c)
        (BitVec.ofNat 64 (((s.sendCtl e 5).lk e).sentRes.getD c 0))) := by
  have hlk := State.lk_setLk_eq s e ((s.lk e).queued ⟨5, 1, 5, none⟩)
  obtain ⟨u, f, hout, hpump⟩ := State.lkPump_audit (s := s.setLk e ((s.lk e).queued ⟨5, 1, 5, none⟩)) hup
    (by rw [hlk, LinkSt.queued, hq]; rfl) (by rw [hlk]; exact hroom) (by rw [hlk]; exact hres)
  rw [State.sendCtl_queues (State.lkState_of_lkUp hup), hpump, State.lk_setLk_eq, State.auditCounts_eq]
  exact ⟨f, (congrArg (· ++ _) hout).trans (List.append_assoc _ [_] _)⟩

theorem auditSend_completes {s : State} {e : LinkEnd} (hw : e.wf = true) (hs : s.stopped = false) (hup : s.lkUp e = true) :
    Completes (.auditSend e) s fun t => t = { s.sendCtl e 5 with pending := s.pending } ∧
      ((s.lk e).queue = [] → (s.lk e).replay.length < 256 → (s.lk e).resend = [] → ∃ f : Flit, t.out = s.out ++
        .flit e.iod e.link f :: .linkMsg e.iod e.link 10 5 (BitVec.ofNat 64 (t.lk e).sentSh) ::
        (List.range 5).map (fun c => .linkMsg e.iod e.link 10 (BitVec.ofNat 64 c) (BitVec.ofNat 64 ((t.lk e).sentRes.getD c 0)))) :=
  (completes_with (f := auditSendRun e) rfl hw hs (if_pos hup)).of_eq ⟨rfl, State.sendCtl_audit hup⟩

/-! ### LP1 (R245) -/

/-- Show a power state at an end that is not in LP2 or LP3. -/
def State.showPwr (s : State) (v : Nat) (e : LinkEnd) : State :=
  if s.fget (kSclStat e) fSclStat_PWR < 2 then s.fput (kSclStat e) fSclStat_PWR v else s

theorem State.showLp1_eq (s : State) (n : Nat) :
    let v := if (s.lk ⟨true, n⟩).lp1 || (s.lk ⟨false, n⟩).lp1 then 1 else 0
    s.showLp1 n = (s.showPwr v ⟨true, n⟩).showPwr v ⟨false, n⟩ := rfl

theorem State.showPwr_pending (s : State) (v : Nat) (e : LinkEnd) : (s.showPwr v e).pending = s.pending := by
  unfold State.showPwr
  split <;> rfl

theorem State.showLp1_pending (s : State) (n : Nat) : (s.showLp1 n).pending = s.pending := by
  rw [State.showLp1_eq, State.showPwr_pending, State.showPwr_pending]

theorem State.fget_showPwr {s : State} {e : LinkEnd} (h : s.fget (kSclStat e) fSclStat_PWR < 2) :
    (s.showPwr 1 e).fget (kSclStat e) fSclStat_PWR = 1 := by
  unfold State.showPwr
  rw [if_pos h]
  exact State.fget_fput _ _ _ _ (by decide)

theorem State.fget_showPwr_ne (s : State) (v : Nat) {e : LinkEnd} {k : Nat} (g : Fld) (h : k ≠ kSclStat e) :
    (s.showPwr v e).fget k g = s.fget k g := by
  unfold State.showPwr
  split
  · exact State.fget_fput_other _ _ _ _ h
  · rfl

/-- An end whose direction is in LP1 shows it. -/
theorem State.fget_showLp1 {s : State} {e : LinkEnd} (hw : e.wf = true) (hlp : (s.lk e).lp1 = true)
    (hp : s.fget (kSclStat e) fSclStat_PWR < 2) : (s.showLp1 e.link).fget (kSclStat e) fSclStat_PWR = 1 := by
  have hne := kSclStat_ne (n := e.link) (of_decide_eq_true hw)
  obtain ⟨iod, n⟩ := e
  have hshow : s.showLp1 n = (s.showPwr 1 ⟨true, n⟩).showPwr 1 ⟨false, n⟩ := by
    rw [State.showLp1_eq, if_pos (by cases iod <;> simp [hlp])]
  rw [hshow]
  cases iod with
  | true => rw [State.fget_showPwr_ne _ _ _ hne, State.fget_showPwr hp]
  | false => exact State.fget_showPwr (by rw [State.fget_showPwr_ne _ _ _ hne.symm]; exact hp)

theorem lp1Entry_completes {s : State} {e : LinkEnd} (hw : e.wf = true) (hs : s.stopped = false) (hup : s.lkUp e = true)
    (hen : s.fon (kSclPm e) fSclPm_LP1EN = true) (hlp : (s.lk e).lp1 = false)
    (hfree : s.fget (kSclStat e) (if e.iod then fSclStat_PDN else fSclStat_PUP) <
      s.fget (kSclStat e) (if e.iod then fSclStat_WDN else fSclStat_WUP)) :
    Completes (.lp1Entry e) s fun t =>
      t = ((s.setLk e { s.lk e with lp1 := true }).showLp1 e.link).lkMsg e 7 1 0 ∧ t.fget (kSclStat e) fSclStat_PWR = 1 := by
  refine completes_run (f := lp1EntryRun e) hw hs (if_pos (by simp [hup, hen, hlp, hfree])) (State.showLp1_pending _ _) ⟨rfl, ?_⟩
  exact State.fget_showLp1 hw (by rw [State.lk_setLk_eq]) (State.pwr_of_lkUp hup)

/-! ### The wake pattern (R246, R247) -/

/-- A link is a source that wakes its die (Table 17-5), and retrains where it slept. -/
theorem wakePatternRun_rouses {s : State} {e : LinkEnd} (h0 : s.dstate e.link ≠ 0) (hp : s.parked e.link = false)
    (ho : s.dieOut e.link = false) :
    wakePatternRun e s =
      let u := s.dieRouse e.link [(4, e.link)]
      if u.linkActive e.link && u.lkAsleep e then u.retrain e.link false else u := by
  have hdie : dieWakeRun e.link [(4, e.link)] s = s.dieRouse e.link [(4, e.link)] := if_neg (by simp [h0, hp, ho, wakeCodes])
  unfold wakePatternRun
  rw [hdie]

theorem wakePatternRun_awake {s : State} {e : LinkEnd} (h : s.dstate e.link = 0) (ha : s.linkActive e.link = true)
    (hl : s.lkAsleep e = true) : wakePatternRun e s = s.retrain e.link false := by
  have hdie : dieWakeRun e.link [(4, e.link)] s = s := if_pos (by simp [h])
  unfold wakePatternRun
  rw [hdie]
  exact if_pos (by simp [ha, hl])

/-! ### Bursts (R240–R243) -/

section
variable {s : State} {e : LinkEnd} {b : BurstMsg} (hup : s.lkUp e = true) (ht : b.tag.toNat < 64)
include hup ht

theorem burstRun_badCrc (hcrc : crc32p (BurstBytes b) ≠ b.crc) :
    burstRun e b s = (s.evtL e 10 1).lkMsg e 6 (BitVec.ofNat 64 b.tag.toNat) 0 := by
  unfold burstRun
  dsimp only
  rw [if_neg (by simp only [hup, Bool.not_true, Bool.false_or, decide_eq_true_eq]; omega), if_pos hcrc]

theorem burstRun_taken (hcrc : crc32p (BurstBytes b) = b.crc) (hlo : 1 ≤ b.lines.length) (hhi : b.lines.length ≤ 32)
    (huse : b.use.toNat = SMap.get (fun _ => 0) (s.lk e).rxUse b.tag.toNat) :
    burstRun e b s = (s.setLk e { s.lk e with
      rxUse := SMap.put (fun _ => 0) (s.lk e).rxUse b.tag.toNat ((b.use.toNat + 1) % 16),
      rxBuf := SMap.put (fun _ => []) (s.lk e).rxBuf b.tag.toNat b.lines,
      rxOpen := (s.lk e).rxOpen.filter (fun o => o ≠ b.tag.toNat) }).lkMsg e 2 (BitVec.ofNat 64 b.tag.toNat) 0 := by
  unfold burstRun
  dsimp only
  rw [if_neg (by simp only [hup, Bool.not_true, Bool.false_or, decide_eq_true_eq]; omega), if_neg (fun hn => hn hcrc),
    if_pos ⟨huse, hlo, hhi⟩]

/-- A burst that is taken is buffered under its tag, advances the tag's USE, ends its timer and is answered with SBA. -/
theorem burst_completes_taken (hw : e.wf = true) (hs : s.stopped = false) (hcrc : crc32p (BurstBytes b) = b.crc)
    (hlo : 1 ≤ b.lines.length) (hhi : b.lines.length ≤ 32) (huse : b.use.toNat = SMap.get (fun _ => 0) (s.lk e).rxUse b.tag.toNat) :
    Completes (.burst e b) s fun t =>
      t = { s with links := t.links, out := s.out ++ [.linkMsg e.iod e.link 2 (BitVec.ofNat 64 b.tag.toNat) 0] } ∧
      t.lk e = { s.lk e with rxUse := (t.lk e).rxUse, rxBuf := (t.lk e).rxBuf,
                             rxOpen := (s.lk e).rxOpen.filter (fun o => o ≠ b.tag.toNat) } ∧
      SMap.get (fun _ => 0) (t.lk e).rxUse b.tag.toNat = (b.use.toNat + 1) % 16 ∧
      SMap.get (fun _ => []) (t.lk e).rxBuf b.tag.toNat = b.lines ∧
      (∀ g, g ≠ b.tag.toNat → SMap.get (fun _ => 0) (t.lk e).rxUse g = SMap.get (fun _ => 0) (s.lk e).rxUse g ∧
        SMap.get (fun _ => []) (t.lk e).rxBuf g = SMap.get (fun _ => []) (s.lk e).rxBuf g) ∧
      ∀ f, endKey f ≠ endKey e → t.lk f = s.lk f := by
  refine completes_run (f := burstRun e b) hw hs (burstRun_taken hup ht hcrc hlo hhi huse) rfl ⟨rfl, ?_⟩
  rw [lk_msg, State.lk_setLk_eq]
  exact ⟨rfl, SMap.get_put_eq _ _ _ _, SMap.get_put_eq _ _ _ _,
    fun g hg => ⟨SMap.get_put_ne _ _ _ hg, SMap.get_put_ne _ _ _ hg⟩, fun f hf => State.lk_setLk_ne s _ hf⟩

end

/-- SBA frees the tag, and nothing else changes. -/
theorem sba_completes (s : State) (e : LinkEnd) (g : BitVec 6) (hw : e.wf = true) (hs : s.stopped = false) :
    Completes (.sba e g) s fun t =>
      t = { s with links := t.links } ∧ (∀ f, endKey f ≠ endKey e → t.lk f = s.lk f) ∧ t.lk e = { s.lk e with tags := (t.lk e).tags } ∧
      ∀ u, u ∈ (t.lk e).tags ↔ u ∈ (s.lk e).tags ∧ u.tag ≠ g.toNat := by
  refine completes_run (f := sbaRun e g) hw hs rfl rfl ⟨rfl, fun f hf => State.lk_setLk_ne s _ hf, ?_⟩
  rw [sbaRun, State.lk_setLk_eq]
  exact ⟨rfl, fun u => by simp only [List.mem_filter, decide_eq_true_eq]⟩

/-- The tags of an end once a re-request for one of them has been counted. -/
def LinkSt.asking (x : LinkSt) (u : TagUse) : List TagUse :=
  x.tags.map fun (v : TagUse) => if v.tag = u.tag then { v with asked := v.asked + 1 } else v

/-- SBR for a tag in use: two re-requests are answered, the third fails. -/
theorem sbrRun_found {s : State} {e : LinkEnd} {g : BitVec 6} {u : TagUse}
    (h : (s.lk e).tags.find? (fun u => u.tag = g.toNat) = some u) :
    sbrRun e g s =
      let v := s.setLk e { s.lk e with tags := (s.lk e).asking u }
      if u.asked < 2 then
        v.emit (.burst e.iod e.link u.tag u.use u.lines (crc32p (BurstBytes ⟨BitVec.ofNat 8 u.tag, BitVec.ofNat 8 u.use, u.lines, 0⟩)))
      else if u.asked = 2 then v.burstFails e u else v := by
  unfold sbrRun
  dsimp only
  rw [h]
  rfl

/-- Settles O34, row by row. -/
theorem linkEventsComplete : Obligations.LinkEventsComplete := by
  unfold Obligations.LinkEventsComplete
  refine ⟨fun s e hw hs => ⟨fun f l hup hrep => ?replay, auditSend_completes hw hs, fun hwid hrep hup => ?drained,
      fun hidle hsent hok => ?lp2, lp1Entry_completes hw hs, fun h0 hp ho => ?wakesDie, fun h0 ha hl => ?wakesLink⟩,
    fun s e hw hs => ⟨fun b hup ht hcrc => ?bad, fun b hup ht => burst_completes_taken hup ht hw hs,
      fun g hup => ⟨fun hopen => ?timeout, fun hclosed => ?noTimer⟩, fun g => sba_completes s e g hw hs,
      fun g u hu => ⟨fun hless => ?again, fun h2 => ?fails⟩⟩⟩
  case replay =>
    refine completes_with (f := replayTimeoutRun e) rfl hw hs ?_
    unfold replayTimeoutRun
    rw [if_neg (by simp [hup]), hrep]
  case drained => exact completes_with (f := replayBufferDrainedRun e) rfl hw hs (if_pos ⟨hwid, by simp [hrep], hup⟩)
  case lp2 => exact completes_with (f := lp2IdleRun e) rfl hw hs (if_pos (by simp [hidle, hsent, hok]))
  case wakesDie => exact completes_with (f := wakePatternRun e) rfl hw hs (wakePatternRun_rouses h0 hp ho)
  case wakesLink => exact completes_with (f := wakePatternRun e) rfl hw hs (wakePatternRun_awake h0 ha hl)
  case bad => exact completes_with (f := burstRun e b) rfl hw hs (burstRun_badCrc hup ht hcrc)
  case timeout => exact completes_with (f := burstTimeoutRun e g) rfl hw hs (if_pos (by simp only [hup, hopen, Bool.and_self]))
  case noTimer => exact completes_with (f := burstTimeoutRun e g) (u := s) rfl hw hs (if_neg (by simp only [hup, hclosed]; decide))
  case again => exact completes_run (f := sbrRun e g) hw hs ((sbrRun_found hu).trans (if_pos hless)) rfl rfl
  case fails =>
    have hrun := (sbrRun_found hu).trans ((if_neg (by omega)).trans (if_pos h2))
    exact (completes_with (c := .sbr e g) rfl hw hs hrun :)

end Sys2Proof.Machine
end

section
/-! SUPPORT.
Planned retirement (R531, R533, Table 18-6), a die that resets itself (R535; log 47) and the release of ERR_N (R586). -/

namespace Sys2Proof.Machine

/-! ### Planned retirement (R531, R533) -/

section
variable {s : State} {u : UnitId} (hst : (s.unit u.die u.block).st = .retiring)
include hst

/-- The steps of a retirement start once Safelight runs and no hold covers the unit. -/
theorem plannedRetirementStartRun_starts (hnew : (s.unit u.die u.block).started = false) (hsafe : s.safelight = true)
    (hhold : s.heldUnit u.die u.block = none) : plannedRetirementStartRun u s = s.retireSteps u.die u.block :=
  if_pos (by simp [hst, hnew, hsafe, hhold])

/-- A retirement whose steps are done: the unit is RETIRED and recorded, and with its last core a die begins to retire. -/
theorem retirementCompleteRun_ends {v : State} (hbegun : (s.unit u.die u.block).started = true)
    (hready : s.retireReady u.die u.block = true)
    (hv : v = ((((s.setUnit u.die u.block .retired).retireEnd u.die u.block).retireRecord u.die u.block (s.unit u.die u.block).cause).raise
      { cls := 2, kind := 0x11, element := (s.unit u.die u.block).cause.getD noElem, lost := true, counts := false })) :
    retirementCompleteRun u s =
      if u.die < 12 ∧ u.block < 0x12 ∧ (List.range 18).all (fun l => decide ((v.unit u.die l).st = .retired)) then
        v.planRetire u.die 0xFF (s.unit u.die u.block).cause else v := by
  subst hv
  exact if_pos (by simp [hst, hbegun, hready])

end

/-! ### A die that resets itself (R535) -/

theorem dieSelfResetRun_inService {s : State} {die : Nat} (h : s.dieOut die = false) :
    dieSelfResetRun die s =
      (((s.raise { cls := 2, kind := 0x24, agent := die, syn0 := s.rd (kSclUpmask ⟨true, die⟩), syn1 := s.rd (kSclDnmask ⟨true, die⟩) }).dieReset
        die).dieGone die).fullTrainDie die :=
  if_neg (by simp [h])

/-- Settles O59, row by row. -/
theorem retirementComplete : Obligations.RetirementComplete := by
  unfold Obligations.RetirementComplete
  refine ⟨fun s u hw hs hst => ⟨fun hnew hsafe hhold => ?starts, fun hbegun hready v hv => ?ends⟩, fun s die hdie hs hout => ?selfReset,
    fun s hs => ⟨fun herr => ?asserted, fun herr => ?released⟩⟩
  case starts =>
    exact completes_with (f := plannedRetirementStartRun u) rfl hw hs (plannedRetirementStartRun_starts hst hnew hsafe hhold)
  case ends => exact completes_with (f := retirementCompleteRun u) rfl hw hs (retirementCompleteRun_ends hst hbegun hready hv)
  case selfReset =>
    exact completes_with (f := dieSelfResetRun die) rfl (decide_eq_true hdie) hs (dieSelfResetRun_inService hout)
  case asserted => exact completes_run (ok := true) (f := errNReleaseRun) rfl hs (if_pos herr) rfl rfl
  case released => exact completes_run (ok := true) (f := errNReleaseRun) rfl hs (if_neg (by simp [herr])) rfl rfl

end Sys2Proof.Machine
end

section
/-! SUPPORT.
Slots of the Enlarger at work (R260, R262–R266, R268, R276, R298, R299): what one event of a slot does in the cases that the slot
decides. -/

namespace Sys2Proof.Machine

/-- A slot that has one line more behind it. -/
def Slot.past (x : Slot) (line : Nat) : Slot := { x with moved := x.moved ||| BitVec.ofNat 64 (2 ^ line) }

/-! ### Lines of a move (R260, R262, R263, R276) -/

/-- A slot may copy a line: it neither drains nor is closed, the line is not behind it, and its home has nothing open on it. -/
def State.CopyOpen (s : State) (x : Slot) (line : Nat) : Prop :=
  x.draining = false ∧ x.closed = false ∧ x.moved.getLsbD line = false ∧ s.lineBusy (x.frame * 64 + line) = false

/-- The frame switches when the slot has its last line. -/
def State.switchLast (u : State) (n : Nat) (y : Slot) : State := if y.moved = BitVec.allOnes 64 then u.switchCopy n y else u

/-- The parity of the copy buffer has failed over a line of a frame (R262). -/
def State.copyParity (s : State) (f line : Nat) (dark : Bool) : State :=
  (s.evtW dark 0x50 27).raise { cls := 1, kind := 0x43, hpa := some (f * 4096 + line * 64), dark := dark }

section
variable {s : State} {n line : Nat} {x : Slot} (hx : SMap.find s.enl.slots n = some x) (hd : s.down = false) (ho : s.CopyOpen x line)
include hx hd ho

/-- A line of an uncompressed move is copied as it stands, or as poison where the parity of the copy buffer fails. -/
theorem State.copyLine_copies (hk : x.kind = .copy) (hg : s.dstGone x = false) (parity : Bool) :
    s.copyLine n line parity false =
      let u := s.mediaWrite (keyTier x.dst) (keyMa x.dst + line * 64)
        (if parity then ⟨0, none, true⟩ else s.mediaRead (keyTier x.src) (keyMa x.src + line * 64))
      ((if parity then u.copyParity x.frame line (s.isDark (x.frame <<< 12)) else u).setSlot n (x.past line)).switchLast n (x.past line) := by
  obtain ⟨hdr, hcl, hmv, hb⟩ := ho
  unfold State.copyLine
  simp only [hx, hd, hdr, hcl, hmv, hb, hk, hg, Bool.or_false, Bool.false_eq_true, if_false, State.switchLast, State.copyParity, Slot.past]

theorem State.copyLine_abandons (hk : x.kind = .copy) (hg : s.dstGone x = true) (parity : Bool) :
    s.copyLine n line parity false = s.abandonSlot n x .aborted := by
  obtain ⟨hdr, hcl, hmv, hb⟩ := ho
  unfold State.copyLine
  simp only [hx, hd, hdr, hcl, hmv, hb, hk, hg, Bool.or_false, Bool.false_eq_true, if_false, if_true]

/-- A line of a compressing move is staged as the frame's key reads it; the last one closes the slot. -/
theorem State.copyLine_stages {p : Nat} (hk : x.kind = .compress p) {d : Line × Bool}
    (hl : d = s.getLine x.src (x.frame * 64 + line) (s.ent x.frame).fkey) :
    s.copyLine n line false false = s.setSlot n { x.past line with
      staging := SMap.set x.staging line ⟨d.1, d.2, false⟩, closed := decide ((x.past line).moved = BitVec.allOnes 64) } := by
  subst hl
  obtain ⟨hdr, hcl, hmv, hb⟩ := ho
  unfold State.copyLine
  simp only [hx, hd, hdr, hcl, hmv, hb, hk, Bool.or_false, Bool.false_eq_true, if_false, Slot.past]

end

/-! ### Drained sources (R260) -/

theorem State.sourceFree_frees {s : State} {n : Nat} {x : Slot} (hx : SMap.find s.enl.slots n = some x) (hdr : x.draining = true)
    (hk : ∀ r, x.kind ≠ .rekey r ∧ x.kind ≠ .rekeyBlob r) (ht : ∀ p, p ∈ s.fio.t1 → p.k ≠ x.src) :
    s.sourceFree n = ((s.freeFrame x.src).delSlot n).unframeRegion (x.frame / 512) := by
  have hidle : (x.draining && !s.fio.t1.any (fun p => decide (p.k = x.src))) = true := by
    simpa [hdr] using ht
  unfold State.sourceFree
  simp only [hx, hidle, if_true]
  cases h : x.kind with
  | rekey r => exact absurd h (hk r).1
  | rekeyBlob r => exact absurd h (hk r).2
  | copy | compress _ | decompress | unitCopy => rfl

/-! ### Rekeyed lines and blobs (R298, R299) -/

/-- The line at a media address, written under OLD with a tweak, is written again under KEY. -/
def State.rewrap (s : State) (c : KeyCtx) (tier ma tweak : Nat) : State :=
  s.mediaWrite tier ma ⟨((s.mediaRead tier ma).opened (c.seal' false tweak)).1, some (c.seal' true tweak),
    ((s.mediaRead tier ma).opened (c.seal' false tweak)).2⟩

/-- A rekey slot has one line more behind it, and finishes its frame with the last. -/
def State.rekeyPast (u : State) (n r : Nat) (y : Slot) : State :=
  let v := (u.setSlot n y).evtW (u.isDark (y.frame <<< 12)) 0x52 6
  if y.moved = BitVec.allOnes 64 then v.rekeyDone n r y false else v

theorem State.rekeyLine_rewraps {s : State} {n line r : Nat} {x : Slot} (hx : SMap.find s.enl.slots n = some x) (hd : s.down = false)
    (hk : x.kind = .rekey r) (hdr : x.draining = false) (hmv : x.moved.getLsbD line = false) (hb : s.lineBusy (x.frame * 64 + line) = false) :
    s.rekeyLine n line false =
      (s.rewrap (s.ctx (s.ent x.frame).fkey) (keyTier (s.ent x.frame).mediaOf) (keyMa (s.ent x.frame).mediaOf + line * 64)
        ((x.frame * 64 + line) * 64)).rekeyPast n r (x.past line) := by
  unfold State.rekeyLine
  simp only [hx, hk, hd, hdr, hmv, hb, Bool.or_false, Bool.false_eq_true, if_false, State.rekeyPast, State.rewrap, Slot.past]

/-- A blob under KEY; one that was not sealed under OLD fails its check from now on. -/
def Blob.rewrap (b : Blob) (c : KeyCtx) (f : Nat) : Blob :=
  { b with bad := b.bad || decide (b.sealed ≠ c.seal' false (blobTweak f)), sealed := c.seal' true (blobTweak f) }

theorem Blob.rewrap_eq (b : Blob) (c : KeyCtx) (f : Nat) :
    b.rewrap c f = if b.sealed = c.seal' false (blobTweak f) then { b with sealed := c.seal' true (blobTweak f) }
      else { b with bad := true, sealed := c.seal' true (blobTweak f) } := by
  unfold Blob.rewrap
  split
  case isTrue h => simp [h]
  case isFalse h => simp [h]

theorem State.rekeyBlobDone_rewraps {s : State} {n r : Nat} {x : Slot} {b : Blob} (hx : SMap.find s.enl.slots n = some x)
    (hd : s.down = false) (hk : x.kind = .rekeyBlob r) (hdr : x.draining = false) {e : FrameEnt} (he : e = s.ent x.frame)
    (hb : s.blob e.pool e.unit = some b) :
    s.rekeyBlobDone n =
      ((({ s with blobs := SMap.set s.blobs (blobKey e.pool e.unit) (b.rewrap (s.ctx e.fkey) x.frame) } : State).evtBy 15 0x52 2 e.units).rekeyDone
        n r x true) := by
  subst he
  unfold State.rekeyBlobDone
  simp only [hx, hk, hd, hdr, hb, Bool.or_false, Bool.false_eq_true, if_false, Blob.rewrap_eq]

/-! ### Unit copies (R275) -/

/-- A blob, where there is one, stands in other units; `lost`: its old ones were. -/
def State.placeBlob (u : State) (k : Nat) (lost : Bool) : Option Blob → State
  | some b => { u with blobs := SMap.set u.blobs k { b with bad := b.bad || lost } }
  | none => u

/-- A unit copy is counted, also as a frame of an evacuation where it is one. -/
def State.unitCopied (w : State) (x : Slot) : State :=
  (if x.evac then (w.evt 15 0x50 13).evt 15 0x50 18 else w.evt 15 0x50 13).cmdCount x.cmd .moved true

theorem State.unitCopyDone_moves {s : State} {n : Nat} {x : Slot} (hx : SMap.find s.enl.slots n = some x) (hd : s.down = false)
    (hk : x.kind = .unitCopy) (hdr : x.draining = false) (hg : s.dstGone x = false) {e : FrameEnt} (he : e = s.ent x.frame) :
    s.unitCopyDone n =
      (((((s.freeUnits e.pool e.unit e.units).placeBlob x.dst (s.mediaDead e.pool (e.unit * 512)) (s.blob e.pool e.unit)).putEnt x.frame
        { e with pool := x.dst >>> 40, unit := x.dst % 2 ^ 40, move := false }).delSlot n).unitCopied x) := by
  subst he
  unfold State.unitCopyDone
  simp only [hx, hk, hd, hdr, hg, ne_eq, not_true_eq_false, Bool.false_eq_true, or_self, if_false]
  cases s.blob (s.ent x.frame).pool (s.ent x.frame).unit <;> rfl

/-! ### Lines of a decompression (R266, R268) -/

/-- A decompressing slot produces a line, and its frame switches with the last. -/
def State.decompNext (s : State) (n : Nat) (x : Slot) (i : Nat) : State :=
  (s.produce n x i).2.switchDecomp n (s.produce n x i).1

section
variable {s : State} {n i : Nat} {x : Slot} (hx : SMap.find s.enl.slots n = some x) (hd : s.down = false) (hk : x.kind = .decompress)
  (hg : s.dstGone x = false) (hi : (List.range 64).find? (fun i => !x.moved.getLsbD i) = some i)
include hx hd hk hg hi

theorem State.decompLine_produces : s.decompLine n false = s.decompNext n x i := by
  unfold State.decompLine
  simp only [hx, hk, hd, hg, hi, ne_eq, not_true_eq_false, Bool.false_eq_true, or_self, if_false, Bool.and_false, Bool.false_and,
    State.decompNext]

/-- A blob whose check fails is recorded with its first line, and every line is poisoned. -/
theorem State.decompLine_fails (h0 : x.moved = 0) (hb : x.bad = false) :
    s.decompLine n true = (s.blobFailed x.frame (s.ent x.frame)).decompNext n { x with bad := true } i := by
  rw [h0] at hi
  unfold State.decompLine
  simp only [hx, hk, hd, hg, hb, hi, h0, ne_eq, not_true_eq_false, Bool.false_eq_true, or_self, if_false, decide_true, Bool.and_true,
    Bool.not_false, if_true, State.decompNext]

end

/-! ### The end of a compressing move (R263, R265) -/

/-- The blob that a compressing slot's lines make. -/
def Slot.toBlob (x : Slot) (units : Nat) (key : Seal) : Blob :=
  { lines := x.lines, poison := x.pmap, units := units, sealed := key, bad := false }

/-- The blob of a compressing slot stands in its units, and the frame's entry names them (R263). -/
def State.blobPlaced (w : State) (x : Slot) (e : FrameEnt) (p u units : Nat) : State :=
  ({ w with blobs := SMap.set w.blobs (blobKey p u) (x.toBlob units (w.blobSeal e.fkey x.frame)) } : State).putEnt x.frame
    { e with tier := 2, unit := u, units := units, pool := p, move := false, incomp := false }

section
variable {s v : State} {n p : Nat} {x : Slot} (hx : SMap.find s.enl.slots n = some x) (hd : s.down = false) (hk : x.kind = .compress p)
  (hc : x.closed = true) (hdr : x.draining = false) (hv : v = s.evtW (s.isDark (x.frame <<< 12)) 0x51 4)
  {e : FrameEnt} (he : e = s.ent x.frame) {size : Nat} (hz : size = Config.blobPayload x.lines)
include hx hd hk hc hdr hv he hz

theorem State.compressDone_incompressible (h : 3568 < size) :
    s.compressDone n = (((v.evtW (s.isDark (x.frame <<< 12)) 0x50 11).evtW (s.isDark (x.frame <<< 12)) 0x51 12).endCompress n x
      { e with incomp := true } .incomp) := by
  subst hv he hz
  unfold State.compressDone
  simp only [hx, hk, hd, hdr, hc, Bool.or_false, Bool.not_true, Bool.false_eq_true, if_false]
  exact if_pos h

theorem State.compressDone_nospace (h : size ≤ 3568)
    (hn : v.atQuota p (groupOf e.fkey) = true ∨ v.allocUnits p (ceilDiv (16 + size) 512) x.frame = none) :
    s.compressDone n = v.endCompress n x e .nospace := by
  subst hv he hz
  unfold State.compressDone
  simp only [hx, hk, hd, hdr, hc, Bool.or_false, Bool.not_true, Bool.false_eq_true, if_false, if_neg (Nat.not_lt.mpr h)]
  rcases hn with hq | ha
  · exact if_pos hq
  · rw [ha]; exact ite_self _

theorem State.compressDone_places {u : Nat} {w : State} (h : size ≤ 3568) (hq : v.atQuota p (groupOf e.fkey) = false)
    (ha : v.allocUnits p (ceilDiv (16 + size) 512) x.frame = some (u, w)) :
    s.compressDone n =
      ((((((w.blobPlaced x e p u (ceilDiv (16 + size) 512)).useMedia x.src (some (.slot n))).setSlot n
        { x with draining := true, staging := [] }).evtBy 15 0x52 2 (ceilDiv (16 + size) 512)).evtW (s.isDark (x.frame <<< 12)) 0x50 10).cmdCount
          x.cmd .moved true) := by
  subst hv he hz
  unfold State.compressDone
  simp only [hx, hk, hd, hdr, hc, hq, ha, Bool.or_false, Bool.not_true, Bool.false_eq_true, if_false, if_neg (Nat.not_lt.mpr h),
    State.blobPlaced, Slot.toBlob]

end

/-- Settles O36, event by event. -/
theorem moveStepsComplete : Obligations.MoveStepsComplete := by
  intro s n line x hn hline hs hd hx
  have hslot : wfSlot n = true := decide_eq_true hn
  have hplace : (wfSlot n && decide (line < 64)) = true := by rw [hslot, decide_eq_true hline]; rfl
  dsimp only
  refine ⟨fun ho hk hg => ⟨?copy, ?parity⟩, fun ho hk hg b => ?abandoned, fun p ho hk => ?staged, fun hdr hk ht => ?drained,
    fun r hk hdr hmv hb => ?rekeyed, fun r b hk hdr hb => ?rekeyedBlob, fun hk hdr hg => ?unitCopy,
    fun i hk hg hi => ⟨?decompressed, fun h0 hb => ?failed⟩,
    fun p hk hc hdr => ⟨fun h => ?incompressible, fun h hn => ?nospace, fun u w h hq ha => ?compressed⟩⟩
  case copy => exact completes_with rfl hplace hs (congrArg State.zciFlush (State.copyLine_copies hx hd ho hk hg false))
  case parity => exact completes_with rfl hplace hs (congrArg State.zciFlush (State.copyLine_copies hx hd ho hk hg true))
  case abandoned => exact completes_with rfl hplace hs (congrArg State.zciFlush (State.copyLine_abandons hx hd ho hk hg b))
  case staged => exact completes_with rfl hplace hs (congrArg State.zciFlush (State.copyLine_stages hx hd ho hk rfl))
  case drained => exact completes_with rfl hslot hs (congrArg State.zciFlush (State.sourceFree_frees hx hdr hk ht))
  case rekeyed => exact completes_with rfl hplace hs (congrArg State.zciFlush (State.rekeyLine_rewraps hx hd hk hdr hmv hb))
  case rekeyedBlob => exact completes_with rfl hslot hs (congrArg State.zciFlush (State.rekeyBlobDone_rewraps hx hd hk hdr rfl hb))
  case unitCopy => exact completes_with rfl hslot hs (congrArg State.zciFlush (State.unitCopyDone_moves hx hd hk hdr hg rfl))
  case decompressed => exact completes_with rfl hslot hs (congrArg State.zciFlush (State.decompLine_produces hx hd hk hg hi))
  case failed => exact completes_with rfl hslot hs (congrArg State.zciFlush (State.decompLine_fails hx hd hk hg hi h0 hb))
  case incompressible =>
    exact completes_with rfl hslot hs (congrArg State.zciFlush (State.compressDone_incompressible hx hd hk hc hdr rfl rfl rfl h))
  case nospace => exact completes_with rfl hslot hs (congrArg State.zciFlush (State.compressDone_nospace hx hd hk hc hdr rfl rfl rfl h hn))
  case compressed => exact completes_with rfl hslot hs (congrArg State.zciFlush (State.compressDone_places hx hd hk hc hdr rfl rfl rfl h hq ha))

end Sys2Proof.Machine
end

section
/-! SUPPORT.
Answers that have come for several requests of the ZCI's engine, and the buffers of commands that they have written (R86, R402,
Table 13-6; log 22). -/

namespace Sys2Proof.Machine

/-! ### Several requests as one (R86) -/

/-- The answers to several requests come one after the other. -/
theorem State.Answered.cons {s u : State} {p : ReqKind × HomeReq} {l : List (ReqKind × HomeReq)} {a : HomeAns} {as : List HomeAns}
    (h : s.Answered u (p :: l) (a :: as)) : ∃ v, s.Answered v [p] [a] ∧ v.Answered u l as := by
  obtain ⟨rest, hw, he, hlen, hwait, hrep, rfl⟩ := h
  rw [List.mem_cons, not_or] at hwait
  refine ⟨{ s with home := { s.home with replies := (l.zip as).map (fun p => ⟨p.1.1, p.1.2, p.2⟩) ++ rest } },
    ⟨_, hw, he, rfl, ?_, hrep, rfl⟩, rest, hw, he, Nat.succ.inj hlen, hwait.2, rfl, rfl⟩
  exact fun h => hwait.1 (List.mem_singleton.mp h)

/-- One request more is made, behind those that were. -/
def askStep (a : List (ReqKind × HomeReq × HomeAns) × State) (p : ReqKind × HomeReq) : List (ReqKind × HomeReq × HomeAns) × State :=
  (a.1 ++ [(p.1, p.2, (a.2.homeSync p.1 p.2).1)], (a.2.homeSync p.1 p.2).2)

/-- Answers that have come are taken in the order of their requests. -/
theorem State.Answered.foldl_askStep {l : List (ReqKind × HomeReq)} {as : List HomeAns} {s u : State}
    (m : List (ReqKind × HomeReq × HomeAns)) (hsrc : ∀ p ∈ l, p.2.src = 3) (h : s.Answered u l as) :
    l.foldl askStep (m, s) = (m ++ (l.zip as).map (fun q => (q.1.1, q.1.2, q.2)), u) := by
  induction l generalizing s m as with
  | nil =>
    obtain ⟨rest, -, -, -, -, hrep, rfl⟩ := h
    have hkept : s.home.replies = rest := hrep
    rw [List.foldl_nil, List.zip_nil_left, List.map_nil, List.append_nil, ← hkept]
  | cons p l ih =>
    cases as with
    | nil => obtain ⟨-, -, -, hlen, -⟩ := h; cases hlen
    | cons a as =>
      obtain ⟨v, hfirst, hrest⟩ := h.cons
      have hstep : askStep (m, s) p = (m ++ [(p.1, p.2, a)], v) := by
        unfold askStep
        rw [State.homeSync_answered (hsrc p (List.mem_cons_self ..)) hfirst]
      rw [List.foldl_cons, hstep, ih _ (fun q hq => hsrc q (List.mem_cons_of_mem _ hq)) hrest, List.append_assoc]
      rfl

theorem State.homeAll_eq (s : State) (l : List (ReqKind × HomeReq)) : s.homeAll l =
    let r := l.foldl askStep ([], s)
    if r.1.all (fun x => decide (x.2.2 ≠ .wait)) then (some (r.1.map (·.2.2)), r.2)
    else (none, r.1.foldl (fun s x => if x.2.2 = .wait then s else s.holdAns ⟨x.1, x.2.1, .held, none⟩ x.2.2) r.2) := rfl

/-- Requests of the ZCI's engine whose answers have come take them together. -/
theorem State.homeAll_answered {s u : State} {l : List (ReqKind × HomeReq)} {as : List HomeAns} (hsrc : ∀ p ∈ l, p.2.src = 3)
    (h : s.Answered u l as) : s.homeAll l = (some as, u) := by
  have hfold := h.foldl_askStep [] hsrc
  obtain ⟨-, -, -, hlen, hwait, -, -⟩ := h
  have hall : ((l.zip as).map (fun q => (q.1.1, q.1.2, q.2))).all (fun x => decide (x.2.2 ≠ .wait)) = true := by
    simp only [List.all_map, List.all_eq_true, Function.comp_apply, decide_eq_true_eq]
    exact fun q hq hw => hwait (hw ▸ (List.of_mem_zip hq).2)
  have has : ((l.zip as).map (fun q => (q.1.1, q.1.2, q.2))).map (·.2.2) = as := by
    rw [List.map_map]
    exact List.map_snd_zip (Nat.le_of_eq hlen)
  rw [State.homeAll_eq, hfold]
  dsimp only
  rw [List.nil_append, if_pos hall, has]

/-! ### Buffers that have been written (R402) -/

theorem putReqs_zci (addr key : Nat) (dark : Bool) (bytes : List Byte) : ∀ p ∈ putReqs Who.zci addr key dark bytes, p.2.src = 3 := by
  intro p hp
  unfold putReqs at hp
  obtain ⟨q, -, rfl⟩ := List.mem_map.mp hp
  rfl

theorem State.RangeWritten.uncPut {s u : State} {addr key : Nat} {dark : Bool} {bytes : List Byte}
    (h : s.RangeWritten u Who.zci addr key dark bytes) : s.uncPut Who.zci addr key dark bytes = (true, u) := by
  obtain ⟨as, ha⟩ := h
  unfold State.uncPut
  rw [State.homeAll_answered (putReqs_zci addr key dark bytes) ha]

/-- One page more of a buffer of a service is written; `n` numbers its owner. -/
def pageStep (n base : Nat) (bytes : List Byte) (a : BufRes × State) (p : Nat × Nat) : BufRes × State :=
  match a.1 with
  | .ok _ _ => match a.2.iotuXlate 8 n p.1 1 with
    | (.ok (h, k), s) =>
      let r := (s.logPages n p.1 p.2).uncPut Who.zci h k false (sliceB bytes (p.1 - base) p.2)
      (if r.1 then .ok [] false else .wait, r.2)
    | (.fault y _, s) => (.fault y, s.iotuFault p.1 8 n y)
    | (_, s) => (.wait, s)
  | _ => a

theorem PagesWritten.foldl_pageStep {n base : Nat} {bytes : List Byte} {l : List (Nat × Nat)} {s u : State}
    (h : PagesWritten n base bytes l s u) : l.foldl (pageStep n base bytes) (.ok [] false, s) = (.ok [] false, u) := by
  induction l generalizing s with
  | nil => exact congrArg (Prod.mk _) h.symm
  | cons p l ih =>
    obtain ⟨v, a, k, hit, hput, hrest⟩ := h
    have hx : s.iotuXlate 8 n p.1 1 = (.ok (a, k), s.evt 15 0x48 0) := State.iotuXlateFor_hit (Nat.le_refl 8) hit
    have hstep : pageStep n base bytes (.ok [] false, s) p = (.ok [] false, v) := by
      unfold pageStep
      dsimp only
      rw [hx]
      dsimp only
      rw [hput.uncPut]
      rfl
    rw [List.foldl_cons, hstep, ih hrest]

/-- A buffer all of whose bytes are visible has been written. -/
theorem State.BufWritten.zwrite {s u : State} {z : ZCmd} {addr : Nat} {bytes : List Byte} (h : s.BufWritten u z addr bytes) :
    s.zwrite z addr bytes = (.ok [] false, u) := by
  obtain ⟨hok, h⟩ := h
  unfold State.zwrite
  simp only [hok, Bool.not_true, Bool.false_eq_true, if_false]
  split
  case h_1 h0 =>
    rw [if_pos h0] at h
    rw [h]
  case h_2 h6 =>
    rw [h6, if_neg (by decide), if_pos rfl] at h
    exact h.foldl_pageStep
  case h_3 h0 h6 =>
    rw [if_neg h0, if_neg h6] at h
    split
    case isTrue ha => rw [if_pos ha] at h; rw [h]; rfl
    case isFalse ha => rw [if_neg ha] at h; rw [h.uncPut]; rfl

end Sys2Proof.Machine
end

section
/-! SUPPORT.
Commands of class 0x10 (R271, R272, R274, R277–R281, Table 8-6): what each handler does with parameters that it accepts.
TIER_REPORT writes all its records in the step that takes it (log 24). -/

namespace Sys2Proof.Machine

/-! ### Records of regions (R280) -/

/-- The records of one region more are written. -/
def reportStep (z : ZCmd) (f : Nat) (a : BufRes × State) (i : Nat) : BufRes × State :=
  match a.1 with
  | .ok _ _ => a.2.zwrite z (z.f 32 8 + 1024 * i) (a.2.regionRecords (f + 512 * i))
  | _ => a

theorem RegionsWritten.foldl_reportStep {z : ZCmd} {f : Nat} {l : List Nat} {s u : State} (h : RegionsWritten z f l s u) :
    l.foldl (reportStep z f) (.ok [] false, s) = (.ok [] false, u) := by
  induction l generalizing s with
  | nil => exact congrArg (Prod.mk _) h.symm
  | cons i l ih =>
    obtain ⟨v, hw, hrest⟩ := h
    have hstep : reportStep z f (.ok [] false, s) i = (.ok [] false, v) := hw.zwrite
    rw [List.foldl_cons, hstep, ih hrest]

theorem RegionsWritten.reportRegions {z : ZCmd} {f n : Nat} {s u : State} (h : RegionsWritten z f (List.range n) s u) :
    s.reportRegions z f n = (.ok [] false, u) := h.foldl_reportStep

/-! ### The handlers -/

/-- The totals that TIER_QUERY writes (Table 8-7). -/
theorem hTierQuery_totals (id : Nat) {z : ZCmd} {u w : State} (h0 : z.f 16 1 = 0) {t0 f0 t1 f1 units remap : Nat}
    (ht : u.enlTotals = (t0, f0, t1, f1, units, remap))
    (hw : u.BufWritten w z (z.f 24 8) ([t0, f0, t1, f1, units, u.enl.pools.length, remap,
      (u.tiered.2 - u.tiered.1) / 4096 - (u.enl.frames.filter (fun p => p.2.tier ≠ 3)).length].flatMap (leBytes 8))) :
    hTierQuery id z u = (doneOk, w) := by
  unfold hTierQuery
  dsimp only
  rw [if_neg (by omega), ht]
  dsimp only
  rw [if_pos h0, hw.zwrite]

/-- The charges of a group that TIER_QUERY writes (Table 8-7). -/
theorem hTierQuery_charges (id : Nat) {z : ZCmd} {u w : State} (h1 : z.f 16 1 = 1)
    (hw : u.BufWritten w z (z.f 24 8) ([u.charged 0 (z.f 17 1), u.charged 1 (z.f 17 1), u.chargedUnits (z.f 17 1),
      (u.quota (z.f 17 1)).1, (u.quota (z.f 17 1)).2, SMap.get (fun _ => 0) u.enl.overq (z.f 17 1), 0, 0].flatMap (leBytes 8))) :
    hTierQuery id z u = (doneOk, w) := by
  unfold hTierQuery
  dsimp only
  rw [if_neg (by omega), if_neg (by omega), hw.zwrite]

theorem hTierReport_writes (id : Nat) {z : ZCmd} {u w : State} {n : Nat} (hn : n = z.f 24 4) (ha : z.f 16 8 % 2 ^ 21 = 0) (h1 : 1 ≤ n)
    (h2 : n ≤ 1024) (ht : u.inTiered (z.f 16 8) (n * 2 ^ 21) = true) (hd : u.tierDark z (z.f 16 8) (n * 2 ^ 21) = false)
    (hf : u.tierFull = false) (hb : u.bufOk z (z.f 32 8) (1024 * n) = true) (hw : RegionsWritten z (z.f 16 8 / 4096) (List.range n) u w) :
    hTierReport id z u = (doneOk, w) := by
  subst hn
  have hok : ¬ (z.f 16 8 % 2 ^ 21 ≠ 0 ∨ z.f 24 4 < 1 ∨ z.f 24 4 > 1024 ∨ (!u.inTiered (z.f 16 8) (z.f 24 4 * 2 ^ 21)) = true) := by
    rw [ht]; simp only [Bool.not_true, Bool.false_eq_true, or_false]; omega
  unfold hTierReport
  dsimp only
  rw [if_neg hok, hd, if_neg (by decide), hf, if_neg (by decide), hb, if_neg (by decide), hw.reportRegions]

/-- A command whose range passes the checks does what it is for. -/
theorem tierRange_admits {bad : ZCmd → Bool} {limit : Bool} {k : Nat → ZCmd → Nat → Nat → State → ZDo × State} (id : Nat) {z : ZCmd} {u : State}
    (hr : u.TierRange z) (hb : bad z = false) (hl : (limit && u.tierFull) = false) :
    tierRange bad limit k id z u = k id z (z.f 16 8 / 4096) (z.f 24 4) u := by
  obtain ⟨ha, h1, h2, ht, hd⟩ := hr
  have hok : ¬ (z.f 16 8 % 4096 ≠ 0 ∨ z.f 24 4 < 1 ∨ z.f 24 4 > 262144 ∨ (!u.inTiered (z.f 16 8) (z.f 24 4 * 4096)) = true ∨ bad z = true) := by
    rw [ht, hb]; simp only [Bool.not_true, Bool.false_eq_true, or_false]; omega
  unfold tierRange
  dsimp only
  rw [if_neg hok, hd, if_neg (by decide), hl, if_neg (by decide)]

/-- The media that TIER_EVACUATE may name: a set in service of tier 0, an active range of tier 1. -/
def State.Evacuable (u : State) (tier k : Nat) : Prop :=
  (tier = 0 ∧ k < u.plat.sets.length ∧ u.enl.withheld.contains k = false) ∨
  (tier = 1 ∧ k < u.plat.t1.length ∧ k < 64 ∧ (u.rd kFioT1act).getLsbD k = true)

theorem hTierEvacuate_starts (id : Nat) {z : ZCmd} {u : State} {tier k : Nat} (ht : tier = z.f 16 1) (hk : k = z.f 18 2)
    (he : u.Evacuable tier k) (hw : u.enl.withdrawn.contains (tier * 256 + k) = false) (hf : u.tierFull = false) :
    hTierEvacuate id z u = (.later, (u.tierQueue id .evacuate 0 0).evacStart tier k (some id) false) := by
  subst ht hk
  have hset : ¬ (z.f 16 1 = 0 ∧ (z.f 18 2 ≥ u.plat.sets.length ∨ u.enl.withheld.contains (z.f 18 2) = true)) := by
    rintro ⟨h0, hbad⟩
    rcases he with ⟨-, hlt, hheld⟩ | ⟨h1, -⟩
    · rw [hheld] at hbad; rcases hbad with h | h
      · omega
      · cases h
    · omega
  have hrange : ¬ (z.f 16 1 = 1 ∧ (z.f 18 2 ≥ u.plat.t1.length ∨ z.f 18 2 ≥ 64 ∨ (!(u.rd kFioT1act).getLsbD (z.f 18 2)) = true)) := by
    rintro ⟨h1, hbad⟩
    rcases he with ⟨h0, -⟩ | ⟨-, hlt, h64, hact⟩
    · omega
    · rw [hact] at hbad; rcases hbad with h | h | h
      · omega
      · omega
      · cases h
  have htier : ¬ z.f 16 1 > 1 := by rcases he with ⟨h0, -⟩ | ⟨h1, -⟩ <;> omega
  unfold hTierEvacuate
  dsimp only
  rw [if_neg htier, if_neg hset, if_neg hrange, hw, if_neg (by decide), hf, if_neg (by decide)]

/-! ### TIER_CANCEL (R281) -/

/-- The class 0x10 command that TIER_CANCEL `z`, outstanding as `id`, names by its TAG. -/
def State.tierNamed (u : State) (id : Nat) (z : ZCmd) : Option TierCmd :=
  (u.zci.outs.find? (fun o => decide (o.z.qp = z.qp ∧ o.id ≠ id) && decide (o.z.tag = z.f 16 2))).bind
    (fun o => u.enl.cmds.find? (fun c => c.id = o.id))

/-- A command that loses the frames it has not started. -/
def TierCmd.cut (c : TierCmd) : TierCmd := { c with left := 0, aborted := c.aborted + c.left }

/-- The queued command `c` loses the frames it has not started, and ends where none is under way. -/
def State.cutCmd (u : State) (c : TierCmd) : State :=
  let v : State := { u with enl := { u.enl with cmds := u.enl.cmds.map fun (x : TierCmd) => if x.id = c.id then c.cut else x } }
  if c.cut.active = 0 then v.cmdFinish c.cut else v

theorem hTierCancel_unnamed {id : Nat} {z : ZCmd} {u : State} (h : u.tierNamed id z = none) :
    hTierCancel id z u = (.done 0 (leBytes 4 0), u) := by
  unfold State.tierNamed at h
  unfold hTierCancel
  dsimp only
  rw [h]

/-- Neither an evacuation nor a report, which is done in the step that takes it (log 24), has frames to lose. -/
theorem hTierCancel_frameless {id : Nat} {z : ZCmd} {u : State} {c : TierCmd} (h : u.tierNamed id z = some c)
    (hk : c.kind = .evacuate ∨ ∃ i, c.kind = .report i) : hTierCancel id z u = (.done 0 (leBytes 4 0), u) := by
  unfold State.tierNamed at h
  unfold hTierCancel
  dsimp only
  rw [h]
  dsimp only
  rcases hk with hk | ⟨i, hk⟩ <;> rw [hk]

theorem hTierCancel_cuts {id : Nat} {z : ZCmd} {u : State} {c : TierCmd} (h : u.tierNamed id z = some c) (he : c.kind ≠ .evacuate)
    (hr : ∀ i, c.kind ≠ .report i) : hTierCancel id z u = (.done 0 (leBytes 4 c.left), u.cutCmd c) := by
  unfold State.tierNamed at h
  unfold hTierCancel
  dsimp only
  rw [h]
  cases hk : c.kind with
  | evacuate => exact absurd hk he
  | report i => exact absurd hk (hr i)
  | move _ _ | pin _ _ | discard => simp only [hk, State.cutCmd, TierCmd.cut]

/-- Settles O44, command by command. -/
theorem tierCommandsComplete : Obligations.TierCommandsComplete := by
  intro s z hz
  dsimp only
  refine ⟨fun h => ⟨fun t0 f0 t1 f1 units remap w h0 ht hw => ?totals, fun w h1 hw => ?charges⟩,
    fun h ha h1 h2 ht hd hf hb w hw => ?report,
    fun hr hf => ⟨fun h hp => ?move, fun h hp => ?pin, fun h => ?discard⟩, fun h hr => ?unpin, fun h => ?quota,
    fun tier k h ht hk he hw hf => ?evacuate,
    fun h => ⟨fun hn => ?unnamed, fun c hn hk => ?frameless, fun c hn he hr => ?cut⟩⟩
  case totals => exact completes_done (h := hTierQuery) (f := tierQueryRun z) h hz rfl rfl (hTierQuery_totals _ h0 ht hw)
  case charges => exact completes_done (h := hTierQuery) (f := tierQueryRun z) h hz rfl rfl (hTierQuery_charges _ h1 hw)
  case report =>
    exact completes_done (h := hTierReport) (f := tierReportRun z) h hz rfl rfl (hTierReport_writes _ rfl ha h1 h2 ht hd hf hb hw)
  case move =>
    exact completes_later (h := hTierMove) (f := tierMoveRun z) h hz rfl rfl
      (tierRange_admits _ hr (decide_eq_false (Nat.not_lt.mpr hp)) hf)
  case pin =>
    exact completes_later (h := hTierPin) (f := tierPinRun z) h hz rfl rfl
      (tierRange_admits _ hr (decide_eq_false (Nat.not_lt.mpr hp)) hf)
  case discard => exact completes_later (h := hTierDiscard) (f := tierDiscardRun z) h hz rfl rfl (tierRange_admits _ hr rfl hf)
  case unpin => exact completes_done (h := hTierUnpin) (f := tierUnpinRun z) h hz rfl rfl (tierRange_admits _ hr rfl rfl)
  case quota => exact completes_done (h := hTierSetQuota) (f := tierSetQuotaRun z) h hz rfl rfl rfl
  case evacuate =>
    exact completes_later (h := hTierEvacuate) (f := tierEvacuateRun z) h hz rfl rfl (hTierEvacuate_starts _ ht hk he hw hf)
  case unnamed => exact completes_done (h := hTierCancel) (f := tierCancelRun z) h hz rfl rfl (hTierCancel_unnamed hn)
  case frameless => exact completes_done (h := hTierCancel) (f := tierCancelRun z) h hz rfl rfl (hTierCancel_frameless hn hk)
  case cut => exact completes_done (h := hTierCancel) (f := tierCancelRun z) h hz rfl rfl (hTierCancel_cuts hn he hr)

end Sys2Proof.Machine
end

section
/-! SUPPORT.
Buffers of commands that have been read (R86, R402, Table 13-6; log 22), and what a read of scratch memory leaves alone. -/

namespace Sys2Proof.Machine

/-! ### Buffers that have been read (R402) -/

theorem State.RangeRead.uncBytes {s u : State} {addr len key : Nat} {dark : Bool} {b : List Byte} {p : Bool}
    (h : s.RangeRead u Who.zci addr len key dark b p) : s.uncBytes Who.zci addr len key dark = (some (b, p), u) := by
  obtain ⟨l, ha, rfl, rfl⟩ := h
  have hsrc : ∀ q ∈ (linePieces (len / 64 + 2) addr len).map (fun q => (ReqKind.rdc, uncReq Who.zci q.1 key dark)), q.2.src = 3 := by
    intro q hq
    obtain ⟨a, -, rfl⟩ := List.mem_map.mp hq
    rfl
  unfold State.uncBytes
  dsimp only
  rw [State.homeAll_answered hsrc ha]

/-- One page more of a buffer of a service is read; `n` numbers its owner. -/
def pageReadStep (n : Nat) (a : BufRes × State) (p : Nat × Nat) : BufRes × State :=
  match a.1 with
  | .ok b x => match a.2.iotuXlate 8 n p.1 0 with
    | (.ok (h, k), s) => (match s.uncBytes Who.zci h p.2 k false with
      | (some (c, y), s) => (.ok (b ++ c) (x || y), s)
      | (none, s) => (.wait, s))
    | (.fault y _, s) => (.fault y, s.iotuFault p.1 8 n y)
    | (_, s) => (.wait, s)
  | _ => a

/-- The pages that have been read follow the bytes `m` before them. -/
theorem PagesRead.foldl_pageReadStep {n : Nat} {l : List (Nat × Nat)} {s u : State} {b m : List Byte} {p x : Bool}
    (h : PagesRead n l s u b p) : l.foldl (pageReadStep n) (.ok m x, s) = (.ok (m ++ b) (x || p), u) := by
  induction l generalizing s b m p x with
  | nil =>
    obtain ⟨rfl, rfl, rfl⟩ := h
    rw [List.append_nil, Bool.or_false]
    rfl
  | cons q l ih =>
    obtain ⟨v, a, k, b1, p1, b2, p2, hit, hget, hrest, rfl, rfl⟩ := h
    have hx : s.iotuXlate 8 n q.1 0 = (.ok (a, k), s.evt 15 0x48 0) := State.iotuXlateFor_hit (Nat.le_refl 8) hit
    have hstep : pageReadStep n (.ok m x, s) q = (.ok (m ++ b1) (x || p1), v) := by
      unfold pageReadStep
      dsimp only
      rw [hx]
      dsimp only
      rw [hget.uncBytes]
    rw [List.foldl_cons, hstep, ih hrest, List.append_assoc, Bool.or_assoc]

/-- A buffer whose bytes have come has been read. -/
theorem State.BufRead.zread {s u : State} {z : ZCmd} {addr len : Nat} {b : List Byte} {p : Bool} (h : s.BufRead u z addr len b p) :
    s.zread z addr len = (.ok b p, u) := by
  obtain ⟨hok, h⟩ := h
  unfold State.zread
  simp only [hok, Bool.not_true, Bool.false_eq_true, if_false]
  split
  case h_1 h0 =>
    rw [if_pos h0] at h
    obtain ⟨hlen, rfl, rfl, rfl⟩ := h
    exact if_pos hlen
  case h_2 h6 =>
    rw [h6, if_neg (by decide), if_pos rfl] at h
    exact (h.foldl_pageReadStep (m := []) (x := false)).trans (by rw [List.nil_append, Bool.false_or])
  case h_3 h0 h6 =>
    rw [if_neg h0, if_neg h6] at h
    split
    case isTrue ha => rw [if_pos ha] at h; rw [h]
    case isFalse ha => rw [if_neg ha] at h; rw [h.uncBytes]

/-! ### A buffer that is read leaves the key contexts alone -/

/-- What one access more leaves alone, all of them do. -/
theorem foldl_dks {α β : Type} {f : α × State → β → α × State} (hf : ∀ a x, (f a x).2.dks = a.2.dks) (l : List β) (a : α × State) :
    (l.foldl f a).2.dks = a.2.dks := by
  induction l generalizing a with
  | nil => rfl
  | cons x l ih => rw [List.foldl_cons, ih, hf]

theorem State.wldRefuse_dks (s : State) (w : Bool) (space src agent line : Nat) : (s.wldRefuse w space src agent line).dks = s.dks := by
  unfold State.wldRefuse
  dsimp only
  split <;> simp only [State.wr_dks, State.evt_dks]

theorem State.ssmTurn_dks (s : State) (a : ScratchAccess) : (s.ssmTurn a).dks = s.dks := by
  unfold State.ssmTurn
  split
  · rw [State.evtW_dks]
  · rw [State.evtW_dks]
    split
    · rfl
    · rw [State.evtW_dks]

/-- A read that meets no error only counts and, where it is refused, is held as refused. -/
theorem State.ssmOne_read_dks (s : State) (sp : Option Nat) (off size data : Nat) : (s.ssmOne sp off size false data none).2.dks = s.dks := by
  unfold State.ssmOne State.ssmServe
  dsimp only
  split
  · rw [State.wldRefuse_dks, State.ssmTurn_dks]
  · exact State.ssmTurn_dks ..

theorem State.ssmWake_dks (s : State) (b : Nat) : (s.ssmWake b).dks = s.dks := by
  unfold State.ssmWake
  split <;> rfl

theorem State.each_ssmWake_dks (s : State) (l : List Nat) : (s.each l State.ssmWake).dks = s.dks := by
  unfold State.each
  induction l generalizing s with
  | nil => rfl
  | cons b l ih => rw [List.foldl_cons, ih, State.ssmWake_dks]

theorem State.ssmReady_dks (s : State) (off len : Nat) : (s.ssmReady off len).2.dks = s.dks := by
  unfold State.ssmReady
  split
  · rfl
  · exact State.each_ssmWake_dks ..

theorem State.ssmLoad_dks (s : State) (sp : Option Nat) (off len : Nat) : (s.ssmLoad sp off len).2.dks = s.dks := by
  have hready := s.ssmReady_dks off len
  unfold State.ssmLoad
  split
  case h_1 h => rw [h] at hready; exact hready
  case h_2 h =>
    rw [h] at hready
    refine (foldl_dks (fun a p => ?_) _ _).trans hready
    exact State.ssmOne_read_dks ..

theorem State.RangeRead.dks {s u : State} {w : Who} {addr len key : Nat} {dark : Bool} {b : List Byte} {p : Bool}
    (h : s.RangeRead u w addr len key dark b p) : u.dks = s.dks := by
  obtain ⟨_, ⟨_, -, -, -, -, -, rfl⟩, -, -⟩ := h
  rfl

theorem PagesRead.dks {n : Nat} {l : List (Nat × Nat)} {s u : State} {b : List Byte} {p : Bool} (h : PagesRead n l s u b p) :
    u.dks = s.dks := by
  induction l generalizing s b p with
  | nil => obtain ⟨rfl, -, -⟩ := h; rfl
  | cons q l ih =>
    obtain ⟨v, a, k, b1, p1, b2, p2, -, hget, hrest, -, -⟩ := h
    rw [ih hrest, hget.dks, State.evt_dks]

theorem State.BufRead.dks {s u : State} {z : ZCmd} {addr len : Nat} {b : List Byte} {p : Bool} (h : s.BufRead u z addr len b p) :
    u.dks = s.dks := by
  obtain ⟨-, h⟩ := h
  split at h
  · obtain ⟨-, rfl, -, -⟩ := h; rfl
  split at h
  · exact h.dks
  split at h
  · exact (congrArg (fun r => r.2.dks) h).symm.trans (State.ssmLoad_dks ..)
  · exact h.dks

end Sys2Proof.Machine
end

section
/-! SUPPORT.
Commands of class 0x12 (R288, R294, R296, R297, R299, R302, R303, R594, Table 9-6): what each handler does with parameters that
it accepts. KEY_ERASE keeps ALG and WORLD (log 43). -/

namespace Sys2Proof.Machine

/-! ### Key pairs and quotes -/

/-- A pair that a command names, drawn or unwrapped, is the new pair (R594). -/
theorem State.KeyGiven.newKey {s u : State} {z : ZCmd} {p : KeyPair} (h : s.KeyGiven u z p) : s.newKey z = (.inr p, u) := by
  obtain ⟨alg, k1, k2⟩ := p
  obtain ⟨hstrong, h⟩ := h
  unfold State.newKey
  dsimp only at hstrong h ⊢
  cases hw : isWrapped z with
  | false =>
    rw [hw, if_neg (by decide)] at h
    obtain ⟨rfl, rfl, rfl, rfl⟩ := h
    rw [Bool.not_false, if_pos rfl, if_neg hstrong]
  | true =>
    rw [hw, if_pos rfl] at h
    obtain ⟨b, r, hread, hopen, hversion, rfl, halg, hkey, hreserved, hhigh, rfl, rfl⟩ := h
    have hblock : ¬ (leNat (sliceB r 0 1) ≠ 1 ∨ leNat (sliceB r 1 1) > 1 ∨ leNat (sliceB r 4 12) ≠ 0 ∨
        leNat (sliceB r 1 1) = 1 ∧ (leNat (sliceB r 32 16) ≠ 0 ∨ leNat (sliceB r 64 16) ≠ 0)) := by
      rintro (hv | ha | hr | ⟨h1, hh⟩)
      · exact hv hversion
      · exact Nat.not_lt.mpr halg ha
      · exact hr hreserved
      · exact hh.elim (· (hhigh h1).1) (· (hhigh h1).2)
    rw [Bool.not_true, if_neg (by decide), hread.zread]
    dsimp only
    rw [hread.dks, hopen]
    dsimp only
    rw [if_neg hblock, if_neg (not_not_intro hkey), if_neg hstrong]

/-- A package with an identity key quotes. -/
theorem State.quote_isSome {s : State} {mask : BitVec 32} {nonce : List Byte} (h : s.wld.idPriv.isSome = true) :
    (s.quote mask nonce).1.isSome = true := by
  obtain ⟨d, hd⟩ := Option.isSome_iff_exists.mp h
  unfold State.quote
  rw [hd]
  rfl

/-! ### The handlers -/

/-- KEY_TRANSPORT writes the public transport key and the quote over it (R294). -/
theorem hKeyTransport_writes (id : Nat) {z : ZCmd} {u w : State} (hi : u.wld.idPriv.isSome = true)
    (hb : u.bufOk z (z.f 24 8) (z.f 32 4) = true) (hl : 512 ≤ z.f 32 4) {q : Option (List Byte) × State}
    (hq : q = u.quote 0x1FF#32 (sm3 (sm2Pub u.dks.tpriv.toNat)))
    (hw : q.2.BufWritten w z (z.f 24 8) (sm2Pub u.dks.tpriv.toNat ++ q.1.getD [])) :
    hKeyTransport id z u = (.done 0 (leBytes 4 512), w) := by
  have hsome : q.1.isSome = true := hq ▸ State.quote_isSome hi
  obtain ⟨o, v⟩ := q
  obtain ⟨b, rfl⟩ := Option.isSome_iff_exists.mp hsome
  have hnone : u.wld.idPriv.isNone = false := by rw [← Option.not_isSome, hi]; rfl
  unfold hKeyTransport
  dsimp only
  rw [hnone, if_neg (by decide), hb, if_neg (by decide), if_neg (Nat.not_lt.mpr hl), ← hq]
  dsimp only
  rw [show v.zwrite z (z.f 24 8) (sm2Pub u.dks.tpriv.toNat ++ b) = _ from hw.zwrite]

/-- KEY_LOAD makes an EMPTY context LOADED with the pair that it names (R296). -/
theorem hKeyLoad_loads (id : Nat) {z : ZCmd} {u v : State} {p : KeyPair}
    (hc : u.keyCheck z false true (some fun w => decide (w ≤ 1) && !(decide (u.srcOf z.qp = 2) && decide (w ≠ 0))) = none)
    (h0 : (u.ctx (keyIdOf z)).st = 0) (hp : u.KeyGiven v z p) :
    hKeyLoad id z u = (doneOk, ((v.setCtx (keyIdOf z) { KeyCtx.empty with
      st := 1, alg := p.alg, dark := decide (z.f 20 1 = 1), k1 := p.k1, k2 := p.k2, gen := (u.ctx (keyIdOf z)).gen + 1 }).dksShow).evt 15 0x52 8) := by
  unfold hKeyLoad
  dsimp only
  rw [hc]
  dsimp only
  rw [if_neg (not_not_intro h0), hp.newKey]
  rfl

/-- The rotation that KEY_ROTATE starts in state `v` for the command outstanding as `id` (R297, R299). -/
def State.keyRot (v : State) (id : Nat) (z : ZCmd) : Rot :=
  ⟨keyIdOf z, z.f 40 8 / 4096, z.f 48 8, z.f 40 8 / 4096, z.f 40 8 / 4096, [], 0, 0, 0, 0, id, v.dks.rots.foldl (fun a q => max a (q.2.order + 1)) 0⟩

/-- A context that rotates: its pair has become OLD, and `p` is the new one (R297). -/
def KeyCtx.rotated (c : KeyCtx) (p : KeyPair) : KeyCtx :=
  { c with st := 2, alg := p.alg, k1 := p.k1, k2 := p.k2, oalg := c.alg, o1 := c.k1, o2 := c.k2, gen := c.gen + 1 }

/-- KEY_ROTATE takes the lowest free entry `e` for its rotation (R297, R299). -/
theorem hKeyRotate_starts (id : Nat) {z : ZCmd} {u v : State} {p : KeyPair} {e : Nat} (hc : u.keyCheck z false true none = none)
    (h1 : (u.ctx (keyIdOf z)).st = 1) (ha : z.f 40 8 % 4096 = 0) (hn : 1 ≤ z.f 48 8) (hm : z.f 48 8 ≤ 2 ^ 33)
    (ht : u.inTiered (z.f 40 8) (z.f 48 8 * 4096) = true)
    (hd : u.srcOf z.qp = 2 → u.hasDarkRegion (z.f 40 8) (z.f 48 8 * 4096) = false)
    (he : firstGap (u.dks.rots.map (·.1)) 0 16 = some e) (hp : u.KeyGiven v z p) :
    hKeyRotate id z u =
      (.later, (((v.setCtx (keyIdOf z) ((u.ctx (keyIdOf z)).rotated p)).setRot e (v.keyRot id z)).rotAdvance e).dksShow) := by
  have hrange : ¬ (z.f 40 8 % 4096 ≠ 0 ∨ z.f 48 8 = 0 ∨ z.f 48 8 > 2 ^ 33 ∨ (!u.inTiered (z.f 40 8) (z.f 48 8 * 4096)) = true) := by
    rw [ht]; simp only [Bool.not_true, Bool.false_eq_true, or_false]; omega
  have hworld : ¬ (u.srcOf z.qp = 2 ∧ u.hasDarkRegion (z.f 40 8) (z.f 48 8 * 4096) = true) := by
    rintro ⟨hsrc, hdark⟩
    rw [hd hsrc] at hdark
    cases hdark
  unfold hKeyRotate
  dsimp only
  rw [hc]
  dsimp only
  rw [if_neg (not_not_intro h1), if_neg hrange, if_neg hworld, he]
  dsimp only
  rw [hp.newKey]
  rfl

/-- Context `k` EMPTY and both its pairs zero, ALG and WORLD as they were (R302, log 43). -/
def State.erased (v : State) (k : Nat) : State :=
  (v.setCtx k { v.ctx k with st := 0, k1 := 0, k2 := 0, oalg := 0, o1 := 0, o2 := 0 }).dksShow

/-- The context of KEY_ERASE has been erased, a rotation of it ended before (R302). -/
def State.KeyErased (u v : State) (k : Nat) : Prop :=
  (u.rotOf k = none ∧ v = u.erased k) ∨ ∃ e r, u.rotOf k = some (e, r) ∧ v = (u.rotEnd e r zNotPermitted dErased).erased k

/-- KEY_ERASE is done when no tier-1 access under the key ID is outstanding, and is not taken before (R302). -/
theorem hKeyErase_erases (id : Nat) {z : ZCmd} {u v : State} (hc : u.keyCheck z false false none = none) (hv : u.KeyErased v (keyIdOf z)) :
    hKeyErase id z u = if v.fio.t1.any (fun t => decide (t.a.key = keyIdOf z)) then (.again, v) else (doneOk, v.evt 15 0x52 9) := by
  unfold hKeyErase
  dsimp only
  rw [hc]
  dsimp only
  rcases hv with ⟨hr, rfl⟩ | ⟨e, r, hr, rfl⟩
  · rw [hr]; rfl
  · rw [hr]; rfl

/-- KEY_QUERY returns what the context shows of itself (R303). -/
theorem hKeyQuery_shows (id : Nat) {z : ZCmd} {u : State} (hc : u.keyCheck z true false none = none) :
    hKeyQuery id z u = (.done 0 ([BitVec.ofNat 8 (u.ctx (keyIdOf z)).st, BitVec.ofNat 8 (u.ctx (keyIdOf z)).alg,
      if (u.ctx (keyIdOf z)).dark then 1 else 0, 0] ++ leBytes 2 (u.ctx (keyIdOf z)).gen.toNat), u) := by
  unfold hKeyQuery
  dsimp only
  rw [hc]

/-- Settles O45, command by command. -/
theorem keyCommandsComplete : Obligations.KeyCommandsComplete := by
  intro s z hz
  dsimp only
  refine ⟨fun h hi hb hl q w hq hw => ?transport, fun h hc h0 p v hp => ?load,
    fun h hc h1 ha hn hm ht hd e p v he hp => ?rotate, fun h hc v hv => ?erase, fun h hc => ?query⟩
  case transport =>
    exact completes_done (h := hKeyTransport) (f := keyTransportRun z) h hz rfl rfl (hKeyTransport_writes _ hi hb hl hq hw)
  case load => exact completes_done (h := hKeyLoad) (f := keyLoadRun z) h hz rfl rfl (hKeyLoad_loads _ hc h0 hp)
  case rotate =>
    exact completes_later (h := hKeyRotate) (f := keyRotateRun z) h hz rfl rfl (hKeyRotate_starts _ hc h1 ha hn hm ht hd he hp)
  case erase =>
    have hh := hKeyErase_erases s.zid hc hv
    exact ⟨fun hfree => completes_done (h := hKeyErase) (f := keyEraseRun z) h hz rfl rfl (hh.trans (if_neg (Bool.eq_false_iff.mp hfree))),
      fun hopen => completes_again (h := hKeyErase) (f := keyEraseRun z) h hz rfl rfl (hh.trans (if_pos hopen))⟩
  case query => exact completes_done (h := hKeyQuery) (f := keyQueryRun z) h hz rfl rfl (hKeyQuery_shows _ hc)

end Sys2Proof.Machine
end

section
/-! SUPPORT.
Commands of class 0x11 (R304, R305, R310, Table 9-7): how a service command starts its job. -/

namespace Sys2Proof.Machine

/-- The dictionary of a command has been read as it begins, where it names one. -/
theorem State.DictRead.cdnDict {s u : State} {z : ZCmd} {b : List Byte} (h : s.DictRead u z b) : s.cdnDict z = (.ok b false, u) := by
  unfold State.DictRead at h
  unfold State.cdnDict
  split at h
  case isTrue hd => rw [if_pos hd, h.zread]
  case isFalse hd =>
    obtain ⟨rfl, rfl⟩ := h
    exact if_neg hd

/-- A job goes behind those that wait, and the lanes are filled (R305). -/
def State.cdnQueue (s : State) (j : CdnJob) : State := ({ s with cdn := s.cdn ++ [j] } : State).cdnFill.evt 15 0x51 9

theorem hCdn_starts (id : Nat) {z : ZCmd} {compress : Bool} {u v w : State} {input dict : List Byte}
    (hs : u.fon kCdnCtl fCdnCtl_SVCEN = true) (hc : cdnBad z compress = none) (hb : u.bufOk z (z.f 32 8) (z.f 40 4) = true)
    (hi : u.BufRead v z (z.f 16 8) (z.f 24 4) input false) (hd : v.DictRead w z dict) :
    hCdn compress id z u = (.later, w.cdnQueue (cdnJob id z compress input dict)) := by
  unfold hCdn
  rw [hs, if_neg (by decide), hc]
  dsimp only
  rw [hb, if_neg (by decide), hi.zread]
  dsimp only
  rw [hd.cdnDict]
  rfl

/-- Settles O46: both rows start their job in one way. -/
theorem condenserCommandsComplete : Obligations.CondenserCommandsComplete := by
  intro s z hz
  dsimp only
  intro hs c compress hcc hwf hbad hb input v dict w hi hd
  have hstart := hCdn_starts s.zid hs hbad hb hi hd
  simp only [List.mem_cons, Prod.mk.injEq, List.not_mem_nil, or_false] at hcc
  rcases hcc with ⟨rfl, rfl⟩ | ⟨rfl, rfl⟩
  · exact completes_later (h := hCdnCompress) (f := cdnCompressRun z) hwf hz rfl rfl hstart
  · exact completes_later (h := hCdnDecompress) (f := cdnDecompressRun z) hwf hz rfl rfl hstart

end Sys2Proof.Machine
end

section
/-! SUPPORT.
The DDR5 channels (R316, R323–R336): what an access counts at its bank, what a read answers, what an alerted channel holds, and
how refresh, scrub and re-measurement advance. -/

namespace Sys2Proof.Machine

/-! ### What an access leaves alone but the activation counts of its channel (R334) -/

/-- From `s` to `t` events were counted, and activations at channel `ch`; nothing else changed. -/
structure State.CountsRows (s t : State) (ch : Nat) : Prop where
  frame : t = { s with pcs := t.pcs, chans := t.chans }
  self : t.chan ch = { s.chan ch with raa := (t.chan ch).raa }
  others : ∀ c, c ≠ ch → t.chan c = s.chan c

theorem State.CountsRows.trans {s t u : State} {ch : Nat} (h : s.CountsRows t ch) (h' : t.CountsRows u ch) : s.CountsRows u ch where
  frame := h'.frame.trans (by rw [h.frame])
  self := h'.self.trans (by rw [h.self])
  others c hc := (h'.others c hc).trans (h.others c hc)

/-- Counting events counts no activation. -/
theorem State.countsRows_of_pcs {s t : State} (h : t = { s with pcs := t.pcs }) (ch : Nat) : s.CountsRows t ch := by
  have hc : ∀ c, t.chan c = s.chan c := fun c => by rw [h]; rfl
  exact ⟨h.trans (by rw [h]), by rw [hc], fun c _ => hc c⟩

theorem State.countsRows_evtW (s : State) (ch : Nat) (w : Bool) (b i : Nat) : s.CountsRows (s.evtW w b i) ch :=
  State.countsRows_of_pcs (s.evtW_eq w b i) ch

theorem State.countsRows_setRaa (s : State) (ch b n : Nat) : s.CountsRows (s.setRaa ch b n) ch where
  frame := rfl
  self := by simp [State.setRaa]
  others _ hc := State.chan_setChan_ne _ _ hc

theorem State.countsRows_rfm (s : State) (ch im b : Nat) : s.CountsRows (s.rfm ch im b) ch :=
  (s.countsRows_setRaa ch b _).trans (State.countsRows_of_pcs (State.evt_eq ..) ch)

/-- RFM under a condition counts rows whether or not it is issued. -/
theorem State.countsRows_rfmIf (s : State) (c : Prop) [Decidable c] (ch im b : Nat) : s.CountsRows (if c then s.rfm ch im b else s) ch := by
  split
  · exact s.countsRows_rfm ch im b
  · exact State.countsRows_of_pcs rfl ch

theorem State.countsRows_rowOpen (s : State) (ch addr : Nat) : s.CountsRows (s.rowOpen ch addr) ch := by
  unfold State.rowOpen
  dsimp only
  split
  · exact s.countsRows_evtW ..
  · exact (((s.countsRows_evtW ..).trans (State.countsRows_rfmIf ..)).trans (State.countsRows_setRaa ..)).trans (State.countsRows_rfmIf ..)

section
variable {s t : State} {ch : Nat} (h : s.CountsRows t ch)
include h

theorem State.CountsRows.pending : t.pending = s.pending := by rw [h.frame]
theorem State.CountsRows.out : t.out = s.out := by rw [h.frame]
theorem State.CountsRows.media : t.media = s.media := by rw [h.frame]
theorem State.CountsRows.mline (k : Nat) : t.mline k = s.mline k := by unfold State.mline; rw [h.media]
theorem State.CountsRows.chanRec (c : Nat) : t.chanRec c = s.chanRec c := by rw [h.frame]; rfl
theorem State.CountsRows.chanKey (c addr : Nat) : t.chanKey c addr = s.chanKey c addr := by rw [h.frame]; rfl
theorem State.CountsRows.panics : t.panics ch = s.panics ch := by unfold State.panics; rw [h.self]

theorem State.CountsRows.eraseOutcome (o : ReadOutcome) : t.eraseOutcome ch o = s.eraseOutcome ch o := by
  have he : (t.chan ch).erased = (s.chan ch).erased := by rw [h.self]
  cases o <;> simp only [State.eraseOutcome, he]

end

/-! ### The activation counts (R334) -/

theorem ChanRec.rfm_pos {r : ChanRec} {im mm : Nat} (h : r.rfm = some (im, mm)) : 1 ≤ im ∧ 1 ≤ mm := by
  unfold ChanRec.rfm at h
  split at h
  · simp only [Option.some.injEq, Prod.mk.injEq] at h; omega
  · cases h

theorem State.raaOf_congr {s t : State} {ch : Nat} (h : t.chan ch = s.chan ch) (b : Nat) : t.raaOf ch b = s.raaOf ch b := by
  unfold State.raaOf; rw [h]

theorem State.raaOf_setRaa (s : State) (ch b n c : Nat) : (s.setRaa ch b n).raaOf ch c = if c = b then n else s.raaOf ch c := by
  unfold State.raaOf State.setRaa
  rw [State.chan_setChan_eq]
  split
  · next h => rw [h]; exact SMap.get_put_eq ..
  · next h => exact SMap.get_put_ne _ _ _ h

/-- RFM lowers the count of its bank by RAAIMT and no other (log 65). -/
theorem State.raaOf_rfm (s : State) (ch im b c : Nat) :
    (s.rfm ch im b).raaOf ch c = if c = b then s.raaOf ch b - im else s.raaOf ch c :=
  (State.raaOf_congr (State.chan_evt ..) c).trans (s.raaOf_setRaa ch b _ c)

theorem State.raaOf_rfmIf (s : State) (p : Prop) [Decidable p] (ch im b c : Nat) :
    (if p then s.rfm ch im b else s).raaOf ch c = if c = b ∧ p then s.raaOf ch b - im else s.raaOf ch c := by
  by_cases hp : p
  · simp only [hp, if_true, and_true, State.raaOf_rfm]
  · simp only [hp, if_false, and_false]

/-- The count that an access leaves at its bank, from the count before: RFM at RAAIMT × RAAMMT, the activation, and RFM at
RAAIMT outside panic. -/
def raaAfter (im mm : Nat) (panic : Bool) (n : Nat) : Nat :=
  let n := (if n ≥ im * mm then n - im else n) + 1
  if n ≥ im ∧ !panic then n - im else n

theorem raaAfter_calm {im mm n : Nat} (hm : 1 ≤ mm) (hn : n < im) : raaAfter im mm false n = if n + 1 = im then 0 else n + 1 := by
  have hle : im ≤ im * mm := Nat.le_mul_of_pos_right im hm
  have hlow : ¬ n ≥ im * mm := by omega
  simp only [raaAfter, hlow, if_false, Bool.not_false, and_true]
  split <;> split <;> omega

theorem raaAfter_panic_le {im mm n : Nat} (hi : 1 ≤ im) (hm : 1 ≤ mm) (hn : n ≤ im * mm) : raaAfter im mm true n ≤ im * mm := by
  have hle : im ≤ im * mm := Nat.le_mul_of_pos_right im hm
  simp only [raaAfter, Bool.not_true, Bool.false_eq_true, and_false, if_false]
  split <;> omega

section
variable {s : State} {ch : Nat} (addr : Nat)

theorem State.chan_rowOpen_noRfm (h : (s.chanRec ch).rfm = none) : (s.rowOpen ch addr).chan ch = s.chan ch := by
  have hr : ((s.evtW (s.chanDark ch addr) (0x60 + ch) 4).chanRec ch).rfm = none := by rw [(s.countsRows_evtW ..).chanRec (ch := ch)]; exact h
  unfold State.rowOpen
  simp only [hr]
  exact evtW_chan ..

theorem State.raaOf_rowOpen {im mm : Nat} (h : (s.chanRec ch).rfm = some (im, mm)) (c : Nat) : (s.rowOpen ch addr).raaOf ch c =
    if c = bankAt ch addr then raaAfter im mm (s.panics ch) (s.raaOf ch (bankAt ch addr)) else s.raaOf ch c := by
  have he := s.countsRows_evtW ch (s.chanDark ch addr) (0x60 + ch) 4
  have hraa := State.raaOf_congr (s := s) (ch := ch) (evtW_chan s (s.chanDark ch addr) (0x60 + ch) 4 ch)
  have hrec : ((s.evtW (s.chanDark ch addr) (0x60 + ch) 4).chanRec ch).rfm = some (im, mm) := by rw [he.chanRec]; exact h
  have hpan : ∀ (p : Prop) [Decidable p] (b n : Nat),
      ((if p then (s.evtW (s.chanDark ch addr) (0x60 + ch) 4).rfm ch im b else s.evtW (s.chanDark ch addr) (0x60 + ch) 4).setRaa ch b n).panics ch =
        s.panics ch := fun p _ b n => ((he.trans (State.countsRows_rfmIf ..)).trans (State.countsRows_setRaa ..)).panics
  unfold State.rowOpen
  simp only [hrec, State.raaOf_rfmIf, State.raaOf_setRaa, hpan, hraa]
  unfold raaAfter
  by_cases hc : c = bankAt ch addr
  · simp [hc]
  · simp [hc]

end

/-! ### RFM at a refresh (R334) -/

/-- A key that does not read as the default is listed with the value that it reads. -/
theorem SMap.mem_of_get_ne {α : Type} (d : Nat → α) (m : SMap α) {k : Nat} (h : SMap.get d m k ≠ d k) : (k, SMap.get d m k) ∈ m := by
  induction m with
  | nil => exact absurd rfl h
  | cons p r ih =>
    obtain ⟨j, v⟩ := p
    unfold SMap.get at h ⊢
    split
    · next hj => rw [hj]; exact List.mem_cons_self
    · next hj => rw [if_neg hj] at h; exact List.mem_cons_of_mem _ (ih h)

theorem State.countsRows_foldl_rfm (ch im : Nat) (l : List (Nat × Nat)) (s : State) :
    s.CountsRows (l.foldl (fun s p => s.rfm ch im p.1) s) ch := by
  induction l generalizing s with
  | nil => exact State.countsRows_of_pcs rfl ch
  | cons p l ih => exact (s.countsRows_rfm ch im p.1).trans (ih _)

/-- RFM to the banks of a list raises no count, and lowers by RAAIMT at least the count of each bank that it lists. -/
theorem State.raaOf_foldl_rfm_le (ch im b : Nat) (l : List (Nat × Nat)) (s : State) :
    (l.foldl (fun s p => s.rfm ch im p.1) s).raaOf ch b ≤ s.raaOf ch b ∧
      ∀ n, (b, n) ∈ l → (l.foldl (fun s p => s.rfm ch im p.1) s).raaOf ch b ≤ s.raaOf ch b - im := by
  induction l generalizing s with
  | nil => exact ⟨Nat.le_refl _, fun n hn => absurd hn List.not_mem_nil⟩
  | cons p l ih =>
    obtain ⟨hle, hlow⟩ := ih (s.rfm ch im p.1)
    rw [List.foldl_cons]
    rw [State.raaOf_rfm] at hle hlow
    by_cases hb : b = p.1
    · rw [if_pos hb, ← hb] at hle
      rw [← hb]
      exact ⟨by omega, fun _ _ => hle⟩
    · rw [if_neg hb] at hle hlow
      refine ⟨hle, fun n hn => hlow n ?_⟩
      rcases List.mem_cons.mp hn with rfl | hn
      · exact absurd rfl hb
      · exact hn

theorem State.countsRows_rfmDue (s : State) (ch : Nat) : s.CountsRows (s.rfmDue ch) ch := by
  unfold State.rfmDue
  split
  · exact State.countsRows_of_pcs rfl ch
  · exact State.countsRows_foldl_rfm ..

/-- Where no count has reached twice RAAIMT, the RFM that is due leaves every count below RAAIMT. -/
theorem State.raaOf_rfmDue_lt {s : State} {ch im mm : Nat} (h : (s.chanRec ch).rfm = some (im, mm)) (h2 : ∀ b, s.raaOf ch b < 2 * im) (b : Nat) :
    (s.rfmDue ch).raaOf ch b < im := by
  have hi := (ChanRec.rfm_pos h).1
  have hb := h2 b
  unfold State.rfmDue
  simp only [h]
  obtain ⟨hle, hlow⟩ := State.raaOf_foldl_rfm_le ch im b ((s.chan ch).raa.filter (fun p => decide (p.2 ≥ im))) s
  by_cases hdue : im ≤ s.raaOf ch b
  · have hmem : (b, s.raaOf ch b) ∈ (s.chan ch).raa := SMap.mem_of_get_ne (fun _ => 0) _ (by show s.raaOf ch b ≠ 0; omega)
    have := hlow _ (List.mem_filter.mpr ⟨hmem, decide_eq_true hdue⟩)
    omega
  · omega

/-! ### Reads and writes (R323, R325, R326, R332) -/

theorem chanAccess_wf {ch : Nat} {a : ChanAccess} (hch : ch < 16) (ha : a.wf = true) : (wfChan ch && a.wf) = true := by
  rw [ha, Bool.and_true]; exact decide_eq_true hch

/-- The row of an access is opened, and a real-time access counted as one (event 5). -/
def State.accessOpened (s : State) (ch addr : Nat) (rt : Bool) : State :=
  if rt then (s.rowOpen ch addr).evtW (s.chanDark ch addr) (0x60 + ch) 5 else s.rowOpen ch addr

/-- An access is counted: a read at event 1, a write at event 2. -/
def State.accessCounted (s : State) (ch addr : Nat) (rt : Bool) (i : Nat) : State :=
  (s.accessOpened ch addr rt).evtW (s.chanDark ch addr) (0x60 + ch) i

theorem State.countsRows_accessOpened (s : State) (ch addr : Nat) (rt : Bool) : s.CountsRows (s.accessOpened ch addr rt) ch :=
  (s.countsRows_rowOpen ch addr).trans (State.countsRows_of_pcs (State.evtWif_eq ..) ch)

theorem State.countsRows_accessCounted (s : State) (ch addr : Nat) (rt : Bool) (i : Nat) : s.CountsRows (s.accessCounted ch addr rt i) ch :=
  (s.countsRows_accessOpened ch addr rt).trans (State.countsRows_evtW ..)

theorem State.chan_accessCounted (s : State) (ch addr : Nat) (rt : Bool) (i : Nat) :
    (s.accessCounted ch addr rt i).chan ch = (s.rowOpen ch addr).chan ch := by
  unfold State.accessCounted State.accessOpened
  rw [evtW_chan, State.evtWif_eq]
  rfl

theorem State.chanDo_read (s : State) (ch : Nat) {q : ChanCmd} (h : q.write = false) :
    s.chanDo ch q = (((s.accessCounted ch q.addr q.rt 1).chanRead ch q.addr q.found 1).2.emit (.chanData ch q.addr
      ((s.accessCounted ch q.addr q.rt 1).chanRead ch q.addr q.found 1).1.wire
      ((s.accessCounted ch q.addr q.rt 1).chanRead ch q.addr q.found 1).1.poison)) := by
  unfold State.chanDo
  dsimp only
  rw [if_neg (Bool.eq_false_iff.mp h)]
  rfl

theorem State.chanDo_write (s : State) (ch : Nat) {q : ChanCmd} (h : q.write = true) :
    s.chanDo ch q = (s.accessCounted ch q.addr q.rt 2).setMline (s.chanKey ch q.addr)
      (if q.poison then ⟨0, none, true⟩ else ⟨q.data, none, false⟩) := by
  rw [← (s.countsRows_accessOpened ch q.addr q.rt).chanKey]
  exact if_pos h

section
variable {u : State} {ch addr : Nat} {o : ReadOutcome} (kind : Nat)

/-- A read that meets no error, or a poisoned line, returns what the line holds (R325). -/
theorem State.chanRead_clean (h : (u.mline (u.chanKey ch addr)).poison = true ∨ u.eraseOutcome ch o = .clean) :
    u.chanRead ch addr o kind = (u.mline (u.chanKey ch addr), u) := by
  unfold State.chanRead
  dsimp only
  split
  · rfl
  · next hp => rw [h.resolve_left hp]

section
variable {d : Nat} (hp : (u.mline (u.chanKey ch addr)).poison = false)
include hp

theorem State.chanRead_corrected (h : u.eraseOutcome ch o = .corrected d) : u.chanRead ch addr o kind =
    (u.mline (u.chanKey ch addr), (u.evtW (u.chanDark ch addr) (0x60 + ch) 10).dramErr ch addr 0 0x30 (devOf d) false) := by
  unfold State.chanRead
  dsimp only
  rw [if_neg (Bool.eq_false_iff.mp hp), h]

theorem State.chanRead_uncorrectable (h : u.eraseOutcome ch o = .uncorrectable d) : u.chanRead ch addr o kind =
    (⟨0, none, true⟩, (((u.evtW (u.chanDark ch addr) (0x60 + ch) 11).errLog ch kind addr (devOf d)).setMline (u.chanKey ch addr)
      ⟨0, none, true⟩).dramErr ch addr 1 0x31 (devOf d) false) := by
  unfold State.chanRead
  dsimp only
  rw [if_neg (Bool.eq_false_iff.mp hp), h]

end

end

section
variable {s : State} {ch : Nat} {a : ChanAccess} (hch : ch < 16) (hs : s.stopped = false) (hup : s.chanUp ch = true) (ha : a.wf = true)
include hch hs hup ha

section
variable (hal : (s.chan ch).alerted = false) (h0 : (s.chan ch).attempts = 0)
include hal h0

theorem mcRead_clean {o : ReadOutcome} (h : (s.mline (s.chanKey ch a.addr)).poison = true ∨ s.eraseOutcome ch o = .clean) :
    Completes (.mcRead ch a o) s fun t =>
      t.out = s.out ++ [.chanData ch a.addr (s.mline (s.chanKey ch a.addr)).wire (s.mline (s.chanKey ch a.addr)).poison] ∧
      t = { s with pcs := t.pcs, out := t.out, chans := t.chans } ∧ t.chan ch = { s.chan ch with raa := (t.chan ch).raa } ∧
      ∀ c, c ≠ ch → t.chan c = s.chan c := by
  have hc := s.countsRows_accessCounted ch a.addr a.rt 1
  have hread : (s.accessCounted ch a.addr a.rt 1).chanRead ch a.addr o 1 = (s.mline (s.chanKey ch a.addr), s.accessCounted ch a.addr a.rt 1) := by
    rw [← hc.chanKey, ← hc.mline] at h ⊢
    rw [← hc.eraseOutcome] at h
    exact State.chanRead_clean 1 h
  refine completes_run (f := mcReadRun ch a o) (chanAccess_wf hch ha) hs ((State.chanArrive_do hup hal h0 _).trans (State.chanDo_read s ch rfl)) ?_ ?_
  · rw [hread]; exact hc.pending
  · rw [hread]
    exact ⟨congrArg (· ++ _) hc.out, by rw [hc.frame]; rfl, hc.self, hc.others⟩

/-- A read completes with what the counted access reads. -/
theorem mcRead_completes {o : ReadOutcome} {m : MLine} {v : State} {p : Bool}
    (h : (s.accessCounted ch a.addr a.rt 1).chanRead ch a.addr o 1 = (m, v)) (hp : m.poison = p) :
    Completes (.mcRead ch a o) s fun t => t = { v.emit (.chanData ch a.addr m.wire p) with pending := s.pending } :=
  completes_with rfl (chanAccess_wf hch ha) hs
    ((State.chanArrive_do hup hal h0 _).trans ((State.chanDo_read s ch rfl).trans (by rw [h, hp])))

theorem mcWrite_completes (data : Line) (poison : Bool) : Completes (.mcWrite ch a data poison) s fun t =>
    t.mline (s.chanKey ch a.addr) = (if poison then ⟨0, none, true⟩ else ⟨data, none, false⟩) ∧
    (∀ k, k ≠ s.chanKey ch a.addr → t.mline k = s.mline k) ∧ t = { s with pcs := t.pcs, media := t.media, chans := t.chans } ∧
    t.chan ch = { s.chan ch with raa := (t.chan ch).raa } ∧ (∀ c, c ≠ ch → t.chan c = s.chan c) ∧
    ((s.chanRec ch).rfm = none → (t.chan ch).raa = (s.chan ch).raa) ∧
    (∀ im mm, (s.chanRec ch).rfm = some (im, mm) →
      (s.panics ch = false → s.raaOf ch (bankAt ch a.addr) < im →
        t.raaOf ch (bankAt ch a.addr) = (if s.raaOf ch (bankAt ch a.addr) + 1 = im then 0 else s.raaOf ch (bankAt ch a.addr) + 1)) ∧
      (s.panics ch = true → s.raaOf ch (bankAt ch a.addr) ≤ im * mm → t.raaOf ch (bankAt ch a.addr) ≤ im * mm) ∧
      ∀ b, b ≠ bankAt ch a.addr → t.raaOf ch b = s.raaOf ch b) := by
  have hc := s.countsRows_accessCounted ch a.addr a.rt 2
  have hopen := s.chan_accessCounted ch a.addr a.rt 2
  have hcount : ∀ {im mm} (_ : (s.chanRec ch).rfm = some (im, mm)) (b : Nat), (s.accessCounted ch a.addr a.rt 2).raaOf ch b =
      if b = bankAt ch a.addr then raaAfter im mm (s.panics ch) (s.raaOf ch (bankAt ch a.addr)) else s.raaOf ch b :=
    fun h b => (State.raaOf_congr hopen b).trans (State.raaOf_rowOpen a.addr h b)
  refine completes_run (f := mcWriteRun ch a data poison) (chanAccess_wf hch ha) hs
    ((State.chanArrive_do hup hal h0 _).trans (State.chanDo_write s ch rfl)) hc.pending
    ⟨State.mline_setMline_eq .., fun k hk => (State.mline_setMline_ne _ _ hk).trans (hc.mline k), ?frame, hc.self, hc.others, ?noRfm, ?rfm⟩
  case frame => rw [hc.frame]; rfl
  case noRfm => exact fun h => congrArg Chan.raa (hopen.trans (State.chan_rowOpen_noRfm a.addr h))
  case rfm =>
    intro im mm h
    obtain ⟨hi, hm⟩ := ChanRec.rfm_pos h
    refine ⟨fun hpan hlt => ?calm, fun hpan hle => ?panic, fun b hb => (hcount h b).trans (if_neg hb)⟩
    case calm => exact (hcount h _).trans ((if_pos rfl).trans (by rw [hpan]; exact raaAfter_calm hm hlt))
    case panic => exact le_of_eq_of_le ((hcount h _).trans (if_pos rfl)) (by rw [hpan]; exact raaAfter_panic_le hi hm hle)

end

end

/-! ### What a channel shows of its queue (R329, R330) -/

theorem State.chanShow_pending (s : State) (ch : Nat) : (s.chanShow ch).pending = s.pending := by rw [State.chanShow_eq]

theorem State.chanShow_media (s : State) (ch : Nat) : (s.chanShow ch).media = s.media := by rw [State.chanShow_eq]

/-- Showing a channel's queue changes at most the age panic of the channel. -/
theorem State.chan_chanShow_agePanic (s : State) (ch : Nat) :
    (s.chanShow ch).chan ch = { s.chan ch with agePanic := ((s.chanShow ch).chan ch).agePanic } := by
  rw [State.chan_chanShow]
  split <;> rfl

/-- Age panic stays while a real-time entry waits. -/
theorem State.chan_chanShow_urgent {s : State} {ch : Nat} (h : (s.chan ch).queue.any (·.rt) = true) : (s.chanShow ch).chan ch = s.chan ch := by
  rw [State.chan_chanShow]
  obtain ⟨q, hq, hrt⟩ := List.any_eq_true.mp h
  exact if_neg fun h0 => List.not_mem_nil ((List.length_eq_zero_iff.mp h0) ▸ List.mem_filter.mpr ⟨hq, hrt⟩)

/-- PANIC of MC_STAT shows whether panic holds. -/
theorem State.fget_chanShow_panic (s : State) (ch : Nat) :
    (s.chanShow ch).fget (kMcStat ch) fMcStat_PANIC = if (s.chanShow ch).panics ch then 1 else 0 := by
  unfold State.panics
  rw [State.chan_chanShow]
  unfold State.chanShow
  dsimp only
  rw [State.fget_fput_ne _ _ _ _ _ (by decide) (by decide), State.fget_fput _ _ _ _ (by decide)]
  split <;> split <;> rfl

/-! ### ALERT_n (R327) -/

section
variable {s : State} {ch : Nat}

theorem State.chanUp_state (h : s.chanUp ch = true) : s.fget (kMcStat ch) fMcStat_STATE = 2 := of_decide_eq_true h

/-- An alerted channel holds a command behind those that wait. -/
theorem State.chanArrive_alerted (hup : s.chanUp ch = true) (hal : (s.chan ch).alerted = true) (q : ChanCmd) :
    s.chanArrive ch q = (s.setChan ch { s.chan ch with queue := (s.chan ch).queue ++ [q] }).chanShow ch := by
  have hlive : ¬ s.fget (kMcStat ch) fMcStat_STATE = 4 := by rw [State.chanUp_state hup]; decide
  unfold State.chanArrive
  simp only [hlive, hup, hal, if_false, if_true, Bool.not_true, Bool.false_eq_true]

theorem alertRun_holds (hup : s.chanUp ch = true) (hal : (s.chan ch).alerted = false) (h : (s.chan ch).attempts < 4) :
    alertRun ch s = s.setChan ch { s.chan ch with alerted := true } := by
  unfold alertRun
  simp [hup, hal, Nat.not_le.mpr h]

theorem alertRun_fourth (hup : s.chanUp ch = true) (hal : (s.chan ch).alerted = false) (h : 4 ≤ (s.chan ch).attempts) :
    alertRun ch s = s.chanDown ch 3 0 := by
  unfold alertRun
  simp [hup, hal, h]

variable (hch : ch < 16) (hs : s.stopped = false) (hup : s.chanUp ch = true)
include hch hs hup

theorem alert_holds (hal : (s.chan ch).alerted = false) (h : (s.chan ch).attempts < 4) : Completes (.alert ch) s fun t =>
    t.chan ch = { s.chan ch with alerted := true } ∧ (∀ c, c ≠ ch → t.chan c = s.chan c) ∧ t = { s with chans := t.chans } :=
  completes_run (f := alertRun ch) (decide_eq_true hch) hs (alertRun_holds hup hal h) rfl
    ⟨State.chan_setChan_eq .., fun _ hc => State.chan_setChan_ne _ _ hc, rfl⟩

theorem mcWrite_held {a : ChanAccess} (data : Line) (poison : Bool) (ha : a.wf = true) (hal : (s.chan ch).alerted = true) :
    Completes (.mcWrite ch a data poison) s fun t => t.media = s.media ∧
      (t.chan ch).queue = (s.chan ch).queue ++ [⟨a.addr, a.rt, true, data, poison, .clean⟩] := by
  refine completes_run (f := mcWriteRun ch a data poison) (chanAccess_wf hch ha) hs (State.chanArrive_alerted hup hal _)
    (State.chanShow_pending ..) ⟨State.chanShow_media .., ?_⟩
  rw [State.chan_chanShow_agePanic, State.chan_setChan_eq]

omit hup

theorem alertTimeout_completes (hal : (s.chan ch).alerted = true) :
    Completes (.alertTimeout ch) s fun t => t = { s.chanDown ch 4 0 with pending := s.pending } :=
  completes_with (f := alertTimeoutRun ch) rfl (decide_eq_true hch) hs (if_pos hal)

theorem alertClear_completes (hal : (s.chan ch).alerted = true) : Completes (.alertClear ch) s fun t =>
    let c := s.chan ch
    let u := (((s.fadd (kMcStat ch) fMcStat_RETRIES 1).evt 15 (0x60 + ch) 12).setChan ch
      { c with alerted := false, attempts := c.attempts + 1, queue := [] })
    t = { ((u.each (serveOrder (c.lendPanic || c.agePanic) c.queue) fun s q => s.chanDo ch q).chanShow ch) with pending := s.pending } := by
  refine completes_with (f := alertClearRun ch) rfl (decide_eq_true hch) hs ?_
  unfold alertClearRun
  exact if_neg (by simp [hal])

end

/-! ### Refresh (R333) -/

section
variable {s : State} {ch rank : Nat}

/-- The intervals that a rank owes. -/
def State.owedBy (s : State) (ch rank : Nat) : Nat := SMap.get (fun _ => 0) (s.chan ch).owed rank

/-- A rank owes `n` intervals from now on. -/
def State.setOwed (s : State) (ch rank n : Nat) : State :=
  (s.setChan ch { s.chan ch with owed := SMap.put (fun _ => 0) (s.chan ch).owed rank n }).chanShow ch

theorem State.chan_setOwed (s : State) (ch rank n : Nat) : (s.setOwed ch rank n).chan ch =
    { s.chan ch with owed := SMap.put (fun _ => 0) (s.chan ch).owed rank n, agePanic := ((s.setOwed ch rank n).chan ch).agePanic } := by
  unfold State.setOwed
  rw [State.chan_chanShow_agePanic, State.chan_setChan_eq]

theorem State.setOwed_pending (s : State) (ch rank n : Nat) : (s.setOwed ch rank n).pending = s.pending := State.chanShow_pending ..

theorem State.setOwed_media (s : State) (ch rank n : Nat) : (s.setOwed ch rank n).media = s.media := State.chanShow_media ..

theorem State.setOwed_chanRec (s : State) (ch rank n c : Nat) : (s.setOwed ch rank n).chanRec c = s.chanRec c := by
  unfold State.setOwed; rw [State.chanShow_set]; rfl

theorem State.owedBy_setOwed (s : State) (ch rank n r : Nat) :
    (s.setOwed ch rank n).owedBy ch r = if r = rank then n else s.owedBy ch r := by
  unfold State.owedBy
  rw [State.chan_setOwed]
  split
  · next h => rw [h]; exact SMap.get_put_eq ..
  · next h => exact SMap.get_put_ne _ _ _ h

theorem State.raaOf_setOwed (s : State) (ch rank n b : Nat) : (s.setOwed ch rank n).raaOf ch b = s.raaOf ch b := by
  unfold State.raaOf
  rw [State.chan_setOwed]

variable (hup : s.chanUp ch = true)
include hup

theorem refreshRun_alerted (hal : (s.chan ch).alerted = true) : refreshRun ch rank s = s.setOwed ch rank (min 4 (s.owedBy ch rank + 1)) := by
  unfold refreshRun
  exact (if_neg (by simp [hup])).trans (if_pos hal)

variable (hal : (s.chan ch).alerted = false) (h0 : (s.chan ch).attempts = 0)
include hal h0

/-- Outside an alert panic decides whether a refresh is postponed. -/
theorem refreshRun_running : refreshRun ch rank s = if s.panics ch then
      if s.owedBy ch rank < 4 then s.setOwed ch rank (s.owedBy ch rank + 1) else s.evt 15 (0x60 + ch) 7
    else ((s.setOwed ch rank 0).evtBy 15 (0x60 + ch) 7 (s.owedBy ch rank + 1)).rfmDue ch := by
  unfold refreshRun
  rw [if_neg (by simp [hup])]
  dsimp only
  rw [if_neg (Bool.eq_false_iff.mp hal), State.alertSettle_none h0]
  rfl

theorem refreshRun_panic (hpan : s.panics ch = true) (h : s.owedBy ch rank < 4) :
    refreshRun ch rank s = s.setOwed ch rank (s.owedBy ch rank + 1) :=
  (refreshRun_running hup hal h0).trans ((if_pos hpan).trans (if_pos h))

/-- The refresh that is due is performed, and the RFM with it. -/
theorem refreshRun_performs (hpan : s.panics ch = false) : refreshRun ch rank s =
    ((s.setOwed ch rank 0).evtBy 15 (0x60 + ch) 7 (s.owedBy ch rank + 1)).rfmDue ch :=
  (refreshRun_running hup hal h0).trans (if_neg (Bool.eq_false_iff.mp hpan))

end

section
variable {s : State} {ch rank : Nat} (hch : ch < 16) (hs : s.stopped = false) (hup : s.chanUp ch = true) (hr : rank < 4)
include hch hr

theorem refresh_wf : (wfChan ch && decide (rank < 4)) = true := by
  rw [decide_eq_true hr, Bool.and_true]; exact decide_eq_true hch

include hs hup

theorem refresh_alerted (hal : (s.chan ch).alerted = true) : Completes (.refresh ch rank) s fun t =>
    t.owedBy ch rank = min 4 (s.owedBy ch rank + 1) ∧ t.media = s.media :=
  completes_run (f := refreshRun ch rank) (refresh_wf hch hr) hs (refreshRun_alerted hup hal) (State.setOwed_pending ..)
    ⟨(State.owedBy_setOwed ..).trans (if_pos rfl), State.setOwed_media ..⟩

variable (hal : (s.chan ch).alerted = false) (h0 : (s.chan ch).attempts = 0)
include hal h0

theorem refresh_postponed (hpan : s.panics ch = true) (h : s.owedBy ch rank < 4) : Completes (.refresh ch rank) s fun t =>
    t.owedBy ch rank = s.owedBy ch rank + 1 ∧ t.media = s.media :=
  completes_run (f := refreshRun ch rank) (refresh_wf hch hr) hs (refreshRun_panic hup hal h0 hpan h) (State.setOwed_pending ..)
    ⟨(State.owedBy_setOwed ..).trans (if_pos rfl), State.setOwed_media ..⟩

theorem refresh_performed (hpan : s.panics ch = false) : Completes (.refresh ch rank) s fun t =>
    t.owedBy ch rank = 0 ∧ t.media = s.media ∧
    (∀ im mm, (s.chanRec ch).rfm = some (im, mm) → (∀ b, s.raaOf ch b < 2 * im) → ∀ b, t.raaOf ch b < im) ∧
    ∀ r, r ≠ rank → t.owedBy ch r = s.owedBy ch r := by
  have hevt : (s.setOwed ch rank 0).CountsRows ((s.setOwed ch rank 0).evtBy 15 (0x60 + ch) 7 (s.owedBy ch rank + 1)) ch :=
    State.countsRows_of_pcs (State.evtBy_eq ..) ch
  have hc := hevt.trans (State.countsRows_rfmDue _ ch)
  have howed := fun r => (congrArg (fun c : Chan => SMap.get (fun _ => 0) c.owed r) hc.self).trans (s.owedBy_setOwed ch rank 0 r)
  have hraa := fun b => (State.raaOf_congr (evtBy_chan (s.setOwed ch rank 0) 15 (0x60 + ch) 7 (s.owedBy ch rank + 1) ch) b).trans
    (s.raaOf_setOwed ch rank 0 b)
  refine completes_run (f := refreshRun ch rank) (refresh_wf hch hr) hs (refreshRun_performs hup hal h0 hpan)
    (hc.pending.trans (State.setOwed_pending ..))
    ⟨(howed rank).trans (if_pos rfl), hc.media.trans (State.setOwed_media ..), fun im mm h h2 => ?_, fun r hne => (howed r).trans (if_neg hne)⟩
  have hrec := (hevt.chanRec ch).trans (s.setOwed_chanRec ch rank 0 ch)
  exact State.raaOf_rfmDue_lt ((congrArg ChanRec.rfm hrec).trans h) fun b => by rw [hraa]; exact h2 b

end

/-! ### MR4, panic age and scrub (R330, R333, R335) -/

section
variable {s : State} {ch : Nat} (hch : ch < 16) (hs : s.stopped = false) (hup : s.chanUp ch = true)
include hch hs hup

theorem mr4Poll_completes (hot : List Bool) : Completes (.mr4Poll ch hot) s fun t =>
    t = { s with chans := t.chans } ∧ (∀ c, c ≠ ch → t.chan c = s.chan c) ∧ t.chan ch = { s.chan ch with hot := (t.chan ch).hot } ∧
    (t.chan ch).hot = (hot.take (s.chanRec ch).physRanks).zipIdx.foldl
      (fun (m : SMap Bool) p => SMap.put (fun _ => false) m p.2 p.1) (s.chan ch).hot := by
  refine completes_run (f := mr4PollRun ch hot) (decide_eq_true hch) hs (if_neg (by simp [hup])) rfl
    ⟨rfl, fun _ hc => State.chan_setChan_ne _ _ hc, ?_, ?_⟩ <;> rw [State.chan_setChan_eq]

theorem panicAge_completes (hage : s.fget (kMcRtctl ch) fMcRtctl_AGE ≠ 0) (hq : (s.chan ch).queue.any (·.rt) = true) :
    Completes (.panicAge ch) s fun t =>
      t.chan ch = { s.chan ch with agePanic := true } ∧ t.fget (kMcStat ch) fMcStat_PANIC = 1 ∧
      (∀ c, c ≠ ch → t.chan c = s.chan c) ∧ t = { s with chans := t.chans, pcs := t.pcs } := by
  have hself : (((s.setChan ch { s.chan ch with agePanic := true }).chanShow ch).chan ch) = { s.chan ch with agePanic := true } :=
    (State.chan_chanShow_urgent (by rw [State.chan_setChan_eq]; exact hq)).trans (State.chan_setChan_eq ..)
  refine completes_run (f := panicAgeRun ch) (decide_eq_true hch) hs (if_pos ⟨hup, hage, hq⟩) (State.chanShow_pending ..)
    ⟨hself, ?_, fun c hc => (State.chan_chanShow_ne _ hc).trans (State.chan_setChan_ne _ _ hc), State.chanShow_set ..⟩
  rw [State.fget_chanShow_panic, if_pos (by unfold State.panics; rw [hself]; exact Bool.or_true _)]

variable (hal : (s.chan ch).alerted = false) (hpan : s.panics ch = false) (h0 : (s.chan ch).attempts = 0)
include hal hpan h0

theorem scrubRead_completes (o : ReadOutcome) (hset : (s.setOf ch).isSome = true) (hh : s.fget (kMcScrub ch) fMcScrub_HOURS ≠ 0)
    (hps : s.fget kPwrPkg fPwrPkg_PS ≠ 2) :
    let pos := s.fget (kMcScrub ch) fMcScrub_POS
    let r := ((s.rowOpen ch (pos * 64)).chanRead ch (pos * 64) o 2).2.evt 15 (0x60 + ch) 13
    Completes (.scrubRead ch o) s fun t =>
      t = { r.fput (kMcScrub ch) fMcScrub_POS (if pos + 1 < ((s.chanRec ch).capacity - 1048576) / 64 then pos + 1 else 0)
        with pending := s.pending } := by
  refine completes_with (f := scrubReadRun ch o) rfl (decide_eq_true hch) hs ?_
  unfold scrubReadRun
  rw [if_neg (by simp [hup, hal, hpan, hh, hps, Option.isSome_iff_ne_none.mp hset])]
  dsimp only
  rw [State.alertSettle_none h0]

end

/-! ### Re-measurement (R336, R337) -/

theorem Fld.put_get (f : Fld) (v : Word) : f.put v (f.get v) = v := by
  refine BitVec.eq_of_getLsbD_eq fun j hj => ?_
  rw [Fld.put_getLsbD f v _ j hj, Fld.get_testBit]
  split
  · next h => rw [Nat.add_sub_of_le h.1, decide_eq_true (by omega), Bool.true_and]
  · rfl

/-- A field set under a condition, as a word: else the field is put back as it was. -/
theorem State.rd_fputIf (s : State) (c : Prop) [Decidable c] (k : Nat) (f : Fld) (n : Nat) :
    (if c then s.fput k f n else s).rd k = f.put (s.rd k) (if c then n else s.fget k f) := by
  split
  · exact State.rd_wr_eq ..
  · exact (Fld.put_get ..).symm

theorem State.fget_fputIf_ne (s : State) (c : Prop) [Decidable c] (k : Nat) (f g : Fld) (n : Nat) (hg : g.lo + g.w ≤ 64)
    (h : g.lo + g.w ≤ f.lo ∨ f.lo + f.w ≤ g.lo) : (if c then s.fput k f n else s).fget k g = s.fget k g := by
  split
  · exact State.fget_fput_ne _ _ _ _ _ hg h
  · rfl

theorem State.fputIf_eq (s : State) (c : Prop) [Decidable c] (k : Nat) (f : Fld) (n : Nat) :
    (if c then s.fput k f n else s) = { s with pcs := (if c then s.fput k f n else s).pcs } := by
  split <;> rfl

/-- A lane's registers after its sweep: the windows found, and each delay where its centre has moved by `shift` steps or more. -/
def State.laneSet (s : State) (k shift : Nat) (r x : Nat × Nat) : State :=
  let rd := s.fget k fMcFocus_RDDLY
  let wd := s.fget k fMcFocus_WRDLY
  let s := (s.fput k fMcFocus_RDWIN r.2).fput k fMcFocus_WRWIN x.2
  let s := if delayDiff r.1 rd ≥ shift then s.fput k fMcFocus_RDDLY r.1 else s
  if delayDiff x.1 wd ≥ shift then s.fput k fMcFocus_WRDLY x.1 else s

theorem State.laneSet_eq (s : State) (k shift : Nat) (r x : Nat × Nat) :
    s.laneSet k shift r x = { s with pcs := (s.laneSet k shift r x).pcs } := by
  unfold State.laneSet
  dsimp only
  rw [State.fputIf_eq, State.fputIf_eq]
  rfl

theorem State.rd_laneSet (s : State) (k shift : Nat) (r x : Nat × Nat) : (s.laneSet k shift r x).rd k =
    fMcFocus_WRDLY.put (fMcFocus_RDDLY.put (fMcFocus_WRWIN.put (fMcFocus_RDWIN.put (s.rd k) r.2) x.2)
      (if delayDiff r.1 (s.fget k fMcFocus_RDDLY) ≥ shift then r.1 else s.fget k fMcFocus_RDDLY))
      (if delayDiff x.1 (s.fget k fMcFocus_WRDLY) ≥ shift then x.1 else s.fget k fMcFocus_WRDLY) := by
  -- the windows leave the delays as they were
  have hrd : ((s.fput k fMcFocus_RDWIN r.2).fput k fMcFocus_WRWIN x.2).fget k fMcFocus_RDDLY = s.fget k fMcFocus_RDDLY :=
    (State.fget_fput_ne _ _ _ _ _ (by decide) (by decide)).trans (State.fget_fput_ne _ _ _ _ _ (by decide) (by decide))
  have hwr : ((s.fput k fMcFocus_RDWIN r.2).fput k fMcFocus_WRWIN x.2).fget k fMcFocus_WRDLY = s.fget k fMcFocus_WRDLY :=
    (State.fget_fput_ne _ _ _ _ _ (by decide) (by decide)).trans (State.fget_fput_ne _ _ _ _ _ (by decide) (by decide))
  unfold State.laneSet
  dsimp only
  rw [State.rd_fputIf, State.fget_fputIf_ne _ _ _ _ _ _ (by decide) (by decide), State.rd_fputIf, hrd, hwr]
  simp only [State.fput, State.rd_wr_eq]

theorem kMcFocus_ne_kEvt {ch i n : Nat} (hi : i < 1000) : kMcFocus ch i ≠ kEvt 15 (0x60 + ch) n := by
  simp only [kMcFocus, kEvt, pcsKey]; omega

section
variable {s : State} {ch : Nat} (hup : s.chanUp ch = true) (hal : (s.chan ch).alerted = false) (hpan : s.panics ch = false)
  (h0 : (s.chan ch).attempts = 0) (hper : s.fget (kMcRemeas ch) fMcRemeas_PERIOD ≠ 0) (hps : s.fget kPwrPkg fPwrPkg_PS ≠ 2)
include hup hal hpan h0 hper hps

theorem remeasurementStepRun_idle : remeasurementStepRun ch [] s =
    (s.setChan ch { s.chan ch with rank := ((s.chan ch).rank + 1) % max 1 (s.chanRec ch).physRanks, window := none }).evt 15 (0x60 + ch) 14 := by
  unfold remeasurementStepRun
  rw [if_neg (by simp [hup, hal, hpan, hper, hps])]
  dsimp only
  rw [State.alertSettle_none h0]
  rfl

/-- One lane is swept: its registers are set, and the rank is counted as done. -/
theorem remeasurementStepRun_lane {w : LaneSweep} {k : Nat} {r x : Nat × Nat} (hk : k = kMcFocus ch ((s.chan ch).rank * 10))
    (hr : r = recentre (s.fget k fMcFocus_RDDLY) w.read) (hx : x = recentre (s.fget k fMcFocus_WRDLY) w.write) (hr12 : 12 ≤ r.2) (hx12 : 12 ≤ x.2) :
    ∃ c, remeasurementStepRun ch [w] s =
      ((s.laneSet k (max 1 (s.fget (kMcRemeas ch) fMcRemeas_SHIFT)) r x).setChan ch c).evt 15 (0x60 + ch) 14 := by
  subst hk hr hx
  unfold remeasurementStepRun
  rw [if_neg (by simp [hup, hal, hpan, hper, hps])]
  dsimp only
  rw [State.alertSettle_none h0]
  simp only [State.each, List.take_succ_cons, List.take_nil, List.zipIdx_cons, List.zipIdx_nil, List.foldl_cons, List.foldl_nil, Nat.add_zero]
  rw [if_neg (by omega)]
  exact ⟨_, rfl⟩

variable (hch : ch < 16) (hs : s.stopped = false)
include hch hs

theorem remeasurementStep_idle : Completes (.remeasurementStep ch []) s fun t =>
    t.chan ch = { s.chan ch with rank := ((s.chan ch).rank + 1) % max 1 (s.chanRec ch).physRanks, window := none } ∧
    t = { s with chans := t.chans, pcs := t.pcs } ∧ ∀ c, c ≠ ch → t.chan c = s.chan c := by
  refine completes_run (f := remeasurementStepRun ch []) (decide_eq_true hch) hs (remeasurementStepRun_idle hup hal hpan h0 hper hps)
    (State.evt_pending ..) ⟨(evt_chan ..).trans (State.chan_setChan_eq ..), ?_, fun c hc => (evt_chan ..).trans (State.chan_setChan_ne _ _ hc)⟩
  rw [State.evt_eq]
  rfl

theorem remeasurementStep_lane {w : LaneSweep} {k : Nat} {r x : Nat × Nat} (hrank : (s.chan ch).rank < 4) (hk : k = kMcFocus ch ((s.chan ch).rank * 10))
    (hr : r = recentre (s.fget k fMcFocus_RDDLY) w.read) (hx : x = recentre (s.fget k fMcFocus_WRDLY) w.write) (hr12 : 12 ≤ r.2) (hx12 : 12 ≤ x.2) :
    Completes (.remeasurementStep ch [w]) s fun t =>
      t.rd k = (s.laneSet k (max 1 (s.fget (kMcRemeas ch) fMcRemeas_SHIFT)) r x).rd k ∧ t = { s with chans := t.chans, pcs := t.pcs } := by
  obtain ⟨c, hrun⟩ := remeasurementStepRun_lane hup hal hpan h0 hper hps hk hr hx hr12 hx12
  have hne : k ≠ kEvt 15 (0x60 + ch) 14 := hk ▸ kMcFocus_ne_kEvt (by omega)
  refine completes_run (f := remeasurementStepRun ch [w]) (decide_eq_true hch) hs hrun ?_ ⟨State.evt_rd_ne _ _ _ _ hne, ?_⟩ <;>
    rw [State.evt_eq, State.laneSet_eq] <;> rfl

end

/-- Settles O38, row by row; what an access does to its channel is `State.CountsRows`. -/
theorem channelCommandsComplete : Obligations.ChannelCommandsComplete := by
  unfold Obligations.ChannelCommandsComplete
  refine ⟨fun s ch hch hs hup => ⟨fun a o ha hal h0 => mcRead_clean hch hs hup ha hal h0, fun a o d ha hal h0 => ?errors,
      fun a data poison ha hal h0 => mcWrite_completes hch hs hup ha hal h0 data poison, fun hal => alert_holds hch hs hup hal,
      fun hal h4 => completes_with rfl (decide_eq_true hch) hs (alertRun_fourth hup hal h4),
      fun a data poison ha hal => mcWrite_held hch hs hup data poison ha hal, alertTimeout_completes hch hs, alertClear_completes hch hs⟩,
    fun s ch hch hs hup => ⟨fun rank hr hal => refresh_alerted hch hs hup hr hal,
      fun rank hr hal h0 hpan => refresh_postponed hch hs hup hr hal h0 hpan,
      fun rank hr hal h0 hpan => refresh_performed hch hs hup hr hal h0 hpan, mr4Poll_completes hch hs hup,
      panicAge_completes hch hs hup, fun o hal hpan hset h0 hh hps => scrubRead_completes hch hs hup hal hpan h0 o hset hh hps,
      fun hal hpan h0 hper hps => remeasurementStep_idle hup hal hpan h0 hper hps hch hs, fun w hrank hal hpan h0 hper hps => ?lane⟩⟩
  case errors =>
    intro v u hp
    exact ⟨fun h => mcRead_completes hch hs hup ha hal h0 (State.chanRead_uncorrectable 1 hp h) rfl,
      fun h => mcRead_completes hch hs hup ha hal h0 (State.chanRead_corrected 1 hp h) hp⟩
  case lane =>
    intro k r x shift hr12 hx12
    have h := remeasurementStep_lane hup hal hpan h0 hper hps hch hs hrank rfl rfl rfl hr12 hx12
    rw [State.rd_laneSet] at h
    exact h

end Sys2Proof.Machine
end

section
/-! SUPPORT.
A held package (R582, R587), what reset leaves (R58, R582), locks (R573) and the admission of register writes (R441). -/

namespace Sys2Proof.Machine

/-! ### A held package -/

theorem State.effect_self {s : State} {f : State → State} (h : f s = s) : s.effect f = s :=
  effect_of_pending h rfl

theorem State.tick_stopped {s : State} (h : s.stopped = true) : s.tick = s := if_pos h

/-- Settles O3: every row but the supply and reset rows has the one form that a held package ignores. -/
theorem heldPackageStandsStill : Obligations.HeldPackageStandsStill := by
  intro s hs
  refine ⟨fun c hwf hsup => ?_, fun hp => ?_⟩
  · rcases exec_shape c with ⟨f, hf⟩ | ⟨hsup', -⟩
    · exact ⟨s, (hf s).trans (runs_stopped hwf hs), rfl⟩
    · rw [hsup] at hsup'; cases hsup'
  · unfold step
    rw [hp]
    exact congrArg _ (State.effect_self (State.tick_stopped hs))

/-! ### Reset -/

theorem State.core_reset (n : Nat) : State.reset.core n = coreReset n := rfl

theorem coreReset_unreleased (n : Nat) : (coreReset n).released = false ∧ (coreReset n).cwp = 0 ∧ (coreReset n).sb = [] := by
  unfold coreReset
  split <;> exact ⟨rfl, rfl, rfl⟩

theorem coreReset_compute {n : Nat} (h : n < 216) : coreReset n = Core.reset := if_pos h

theorem State.resident_reset {n : Nat} (h : n < 216) : State.reset.resident n = 2 := by
  unfold State.resident frames
  rw [State.core_reset, coreReset_compute h, if_pos h]
  rfl

theorem State.xr_reset : ∀ i, i < 32 → State.reset.xr i = List.replicate 32 0 := by decide +kernel

/-- Settles O4, part by part of the reset state. -/
theorem resetState : Obligations.ResetState := by
  refine ⟨rfl, rfl, rfl, rfl, rfl, fun n _ => ?released, fun n hn => ?compute, fun _ => rfl, fun _ => rfl, State.xr_reset,
    by decide +kernel, by decide +kernel, by decide +kernel, by decide +kernel, by decide +kernel, Memory.wf_reset⟩
  case released => rw [State.core_reset]; exact coreReset_unreleased n
  case compute =>
    have hres := State.resident_reset hn
    rw [State.core_reset, coreReset_compute hn]
    refine ⟨rfl, rfl, rfl, rfl, rfl, rfl, fun f hf => ?_, hres⟩
    have : f = 0 ∨ f = 1 := by omega
    rcases this with rfl | rfl <;> rfl

/-! ### Locks (R573) -/

theorem State.pcsLocked_eq (s : State) (k : Nat) {d : RegDef} (h : d.name ≠ "FIO_FCTL") :
    s.pcsLocked k d = decide (s.rd k &&& BitVec.ofNat 64 d.lock ≠ 0) := if_neg h

/-- A word meets a mask exactly where they share a bit. -/
theorem and_ne_zero_iff (v : Word) (n : Nat) : v &&& BitVec.ofNat 64 n ≠ 0 ↔ ∃ j, j < 64 ∧ v.getLsbD j = true ∧ n.testBit j = true := by
  constructor
  · intro h
    by_contra hno
    push Not at hno
    refine h (BitVec.eq_of_getLsbD_eq fun j hj => ?_)
    have hj' := hno j hj
    simp only [BitVec.getLsbD_and, BitVec.getLsbD_ofNat, hj, decide_true, Bool.true_and]
    cases hv : v.getLsbD j
    · simp
    · simp [hj' hv]
  · rintro ⟨j, hj, hv, hn⟩ h0
    have hbit : (v &&& BitVec.ofNat 64 n).getLsbD j = true := by
      rw [BitVec.getLsbD_and, hv, BitVec.getLsbD_ofNat, hn, decide_eq_true hj]; rfl
    rw [h0] at hbit
    simp at hbit

section
variable {d : RegDef} (hd : lockSound d = true) (hn : d.name ≠ "FIO_FCTL")
include hd hn

/-- While the lock is clear an RWL field takes the written value. -/
theorem RegDef.written_unlocked_rwl (old v : Word) {i : Nat} (hi : i < 64) (h : d.rwl.testBit i = true) :
    (d.written false old v (BitVec.allOnes 64)).getLsbD i = v.getLsbD i := by
  obtain ⟨hrw, hrws, hc, hset⟩ := (lockSound_bit hd hn hi).2 h
  rw [RegDef.written_getLsbD _ _ _ _ _ hi]
  simp [hrw, hrws, hc, hset, h]

/-- While the lock is set an RWL field keeps its value. -/
theorem RegDef.written_locked_rwl (old v : Word) {i : Nat} (hi : i < 64) (h : d.rwl.testBit i = true) :
    (d.written true old v (BitVec.allOnes 64)).getLsbD i = old.getLsbD i := by
  obtain ⟨hrw, hrws, hc, hset⟩ := (lockSound_bit hd hn hi).2 h
  rw [RegDef.written_getLsbD _ _ _ _ _ hi]
  simp [hrw, hrws, hc, hset]

/-- A lock bit is set where it was set or is written 1. -/
theorem RegDef.written_lock (locked : Bool) (old v : Word) {i : Nat} (hi : i < 64) (h : d.lock.testBit i = true) :
    (d.written locked old v (BitVec.allOnes 64)).getLsbD i = (old.getLsbD i || v.getLsbD i) := by
  obtain ⟨hset, hc, hrw, hrws, hrwl⟩ := (lockSound_bit hd hn hi).1 h
  rw [RegDef.written_getLsbD _ _ _ _ _ hi]
  simp [hrw, hrws, hc, hset, hrwl]

/-- A lock that the written value sets is set. -/
theorem RegDef.written_locks {old v : Word} (locked : Bool) (h : v &&& BitVec.ofNat 64 d.lock ≠ 0) :
    d.written locked old v (BitVec.allOnes 64) &&& BitVec.ofNat 64 d.lock ≠ 0 := by
  obtain ⟨j, hj, hv, hl⟩ := (and_ne_zero_iff _ _).mp h
  exact (and_ne_zero_iff _ _).mpr ⟨j, hj, by rw [RegDef.written_lock hd hn _ _ _ hj hl, hv, Bool.or_true], hl⟩

/-- No write clears a lock. -/
theorem RegDef.written_stays_locked {old : Word} (v : Word) (locked : Bool) (h : old &&& BitVec.ofNat 64 d.lock ≠ 0) :
    d.written locked old v (BitVec.allOnes 64) &&& BitVec.ofNat 64 d.lock ≠ 0 := by
  obtain ⟨j, hj, ho, hl⟩ := (and_ne_zero_iff _ _).mp h
  exact (and_ne_zero_iff _ _).mpr ⟨j, hj, by rw [RegDef.written_lock hd hn _ _ _ hj hl, ho, Bool.true_or], hl⟩

end

/-- A write that reaches a register without a behaviour of its own completes with the word that its access codes give. -/
theorem registerWrite_plain {s u : State} {a : Agent} {off : BitVec 26} {v : Word} {d : RegDef} (ha : a.wf = true) (hs : s.stopped = false)
    (hr : s.Reaches u a off.toNat d v) (hd : pcsSpecial.contains d.name = false) (hp : u.pending = s.pending) {P : State → Prop}
    (hP : P (u.wr off.toNat (d.written (u.pcsLocked off.toNat d) (u.rd off.toNat) v (BitVec.allOnes 64)))) :
    Completes (.registerWrite a off 8 v) s P :=
  completes_run (f := registerWriteRun a off 8 v) ha hs (State.pcsWrite_plain hr hd) hp hP

/-- Settles O20: the access codes of a lock, before and after it is set. -/
theorem lockTakesWrittenValuesFirst : Obligations.LockTakesWrittenValuesFirst := by
  intro s u a off v d ha hs hr hd hn hp hfree hlock
  have hsound : lockSound d = true := by
    obtain ⟨-, -, hdef, -⟩ := hr
    exact regDefAt_lockSound hdef
  refine registerWrite_plain ha hs hr hd hp ?_
  rw [hfree, State.pcsLocked_eq _ _ hn, State.rd_wr_eq]
  have hset := RegDef.written_locks hsound hn (old := u.rd off.toNat) false hlock
  refine ⟨fun i hi h => RegDef.written_unlocked_rwl hsound hn _ _ hi h, decide_eq_true hset, fun s' u' a' v' ha' hs' hr' hp' hsame => ?_⟩
  have hlocked : u'.pcsLocked off.toNat d = true := by rw [State.pcsLocked_eq _ _ hn, hsame]; exact decide_eq_true hset
  refine registerWrite_plain ha' hs' hr' hd hp' ?_
  rw [hlocked, hsame, State.pcsLocked_eq _ _ hn, State.rd_wr_eq]
  exact ⟨fun i hi h => RegDef.written_locked_rwl hsound hn _ _ hi h, decide_eq_true (RegDef.written_stays_locked hsound hn v' true hset)⟩

/-! ### Admission (R441) -/

/-- The code of a core in WLD_PCSREF.AGENT. -/
def State.pcsRefAgent (s : State) (n : Nat) : Nat := if n > 216 then 1 else if (s.core n).darkW then 3 else 2

/-- WLD_PCSREF as the first dropped write leaves it (R441). -/
def pcsRefWord (v : Word) (agent die block off : Nat) : Word :=
  fWldPcsref_OFFSET.put (fWldPcsref_BLOCK.put (fWldPcsref_DIE.put (fWldPcsref_AGENT.put (fWldPcsref_VALID.put v 1) agent) die) block) off

theorem pcsRefWord_fields (v : Word) (agent die block off : Nat) :
    let w := pcsRefWord v agent die block off
    fWldPcsref_COUNT.get w = fWldPcsref_COUNT.get v ∧ fWldPcsref_VALID.get w = 1 ∧ fWldPcsref_AGENT.get w = agent % 2 ^ 3 ∧
      fWldPcsref_DIE.get w = die % 2 ^ 4 ∧ fWldPcsref_BLOCK.get w = block % 2 ^ 8 ∧ fWldPcsref_OFFSET.get w = off % 2 ^ 14 := by
  unfold pcsRefWord
  refine ⟨?_, ?_, ?_, ?_, ?_, ?_⟩ <;> simp (disch := decide) only [Fld.get_put_ne, Fld.get_put] <;> rfl

/-- A dropped write of a core before it is counted: WLD_PCSREF holds the first (R441). -/
def State.pcsRefHold (s : State) (n off : Nat) : State :=
  if fWldPcsref_VALID.on (s.rd kWldPcsref) then s else
    s.wr kWldPcsref (pcsRefWord (s.rd kWldPcsref) (s.pcsRefAgent n) (pcsDie off) (pcsBlock off) (pcsOff off))

theorem State.pcsRefuse_eq (s : State) (n off : Nat) :
    s.pcsRefuse (.core n) off = ((s.pcsRefHold n off).fadd kWldPcsref fWldPcsref_COUNT 1).evt 15 2 3 := rfl

theorem State.pcsRefHold_set {s : State} {n off : Nat} (h : s.fon kWldPcsref fWldPcsref_VALID = true) : s.pcsRefHold n off = s := if_pos h

theorem State.pcsRefHold_first {s : State} {n off : Nat} (h : s.fon kWldPcsref fWldPcsref_VALID = false) : s.pcsRefHold n off =
    s.wr kWldPcsref (pcsRefWord (s.rd kWldPcsref) (s.pcsRefAgent n) (pcsDie off) (pcsBlock off) (pcsOff off)) :=
  if_neg (Bool.eq_false_iff.mp h)

/-- What holds the first dropped write leaves the count alone, and the word is valid. -/
theorem State.pcsRefHold_spec (s : State) (n off : Nat) :
    PcsDiff s (s.pcsRefHold n off) ∧ (∀ k, k ≠ kWldPcsref → (s.pcsRefHold n off).rd k = s.rd k) ∧
      (s.pcsRefHold n off).fget kWldPcsref fWldPcsref_COUNT = s.fget kWldPcsref fWldPcsref_COUNT ∧
      (s.pcsRefHold n off).fon kWldPcsref fWldPcsref_VALID = true := by
  cases hv : s.fon kWldPcsref fWldPcsref_VALID
  case true => rw [State.pcsRefHold_set hv]; exact ⟨.refl s, fun _ _ => rfl, rfl, hv⟩
  case false =>
    rw [State.pcsRefHold_first hv]
    obtain ⟨hcount, hvalid, -⟩ := pcsRefWord_fields (s.rd kWldPcsref) (s.pcsRefAgent n) (pcsDie off) (pcsBlock off) (pcsOff off)
    refine ⟨rfl, fun k hk => State.rd_wr_ne s _ hk, ?_, ?_⟩
    · rw [State.fget, State.rd_wr_eq]; exact hcount
    · rw [State.fon, State.rd_wr_eq, Fld.on, hvalid]; rfl

theorem pcsDiff_fadd (s : State) (k : Nat) (f : Fld) (n : Nat) : PcsDiff s (s.fadd k f n) := rfl

/-- Counting a dropped write leaves every other register and the other fields of WLD_PCSREF alone. -/
theorem State.pcsRefuse_spec (s : State) (n off : Nat) :
    PcsDiff s (s.pcsRefuse (.core n) off) ∧ (∀ k, k ≠ kWldPcsref → k ≠ kEvt 15 2 3 → (s.pcsRefuse (.core n) off).rd k = s.rd k) ∧
      (s.pcsRefuse (.core n) off).rd kWldPcsref = fWldPcsref_COUNT.put ((s.pcsRefHold n off).rd kWldPcsref)
        (min (s.fget kWldPcsref fWldPcsref_COUNT + 1) (2 ^ fWldPcsref_COUNT.w - 1)) := by
  obtain ⟨hframe, hrd, hcount, -⟩ := s.pcsRefHold_spec n off
  rw [State.pcsRefuse_eq]
  refine ⟨(hframe.trans (pcsDiff_fadd _ _ _ _)).trans (pcsDiff_evt _ _ _ _), fun k hk he => ?_, ?_⟩
  · rw [State.evt_rd_ne _ _ _ _ he]
    exact (State.rd_fput_ne _ _ _ hk).trans (hrd k hk)
  · rw [State.evt_rd_ne _ _ _ _ (by decide), State.fadd, State.fput, State.rd_wr_eq, hcount]

/-- The fields of an address fit those of WLD_PCSREF. -/
theorem pcs_fields_fit (off : BitVec 26) : pcsDie off.toNat < 2 ^ 4 ∧ pcsBlock off.toNat < 2 ^ 8 ∧ pcsOff off.toNat < 2 ^ 14 := by
  refine ⟨?_, Nat.mod_lt _ (by decide), Nat.mod_lt _ (by decide)⟩
  rw [pcsDie, Nat.shiftRight_eq_div_pow]
  omega

theorem State.pcsRefAgent_lt (s : State) (n : Nat) : s.pcsRefAgent n < 2 ^ 3 := by
  unfold State.pcsRefAgent
  split
  · decide
  · split <;> decide

theorem State.pcsWrite_refused {s : State} {n : Nat} {off : BitVec 26} {v : Word} {d : RegDef} (h8 : off.toNat % 8 = 0)
    (hd : regDefAt off.toNat = some d) (ha : s.pcsAdmits (.core n) off.toNat = false) :
    s.pcsWrite (.core n) off.toNat 8 v = s.pcsRefuse (.core n) off.toNat := by
  have e : off.toNat / 8 * 8 = off.toNat := by omega
  have ht : s.pcsTry (.core n) off.toNat 8 v = some (s.pcsRefuse (.core n) off.toNat) := by
    unfold State.pcsTry
    dsimp only
    rw [if_neg (by simp [h8]), e, hd]
    dsimp only
    rw [ha]
    rfl
  unfold State.pcsWrite
  rw [ht]

/-- A write of a core that is not admitted: what it leaves (R441). -/
theorem registerWrite_refused {s : State} {n : Nat} {off : BitVec 26} {v : Word} {d : RegDef} (hn : wfCore n = true)
    (hs : s.stopped = false) (h8 : off.toNat % 8 = 0) (hd : regDefAt off.toNat = some d) (ha : s.pcsAdmits (.core n) off.toNat = false) :
    Completes (.registerWrite (.core n) off 8 v) s fun t =>
      t = { s with pcs := t.pcs } ∧ (∀ k, k ≠ kWldPcsref → k ≠ kEvt 15 2 3 → t.rd k = s.rd k) ∧
      t.fget kWldPcsref fWldPcsref_COUNT = min (s.fget kWldPcsref fWldPcsref_COUNT + 1) (2 ^ fWldPcsref_COUNT.w - 1) ∧
      t.fon kWldPcsref fWldPcsref_VALID = true ∧
      (s.fon kWldPcsref fWldPcsref_VALID = false →
        t.fget kWldPcsref fWldPcsref_AGENT = s.pcsRefAgent n ∧ t.fget kWldPcsref fWldPcsref_DIE = pcsDie off.toNat ∧
        t.fget kWldPcsref fWldPcsref_BLOCK = pcsBlock off.toNat ∧ t.fget kWldPcsref fWldPcsref_OFFSET = pcsOff off.toNat) := by
  obtain ⟨hframe, hrd, hword⟩ := s.pcsRefuse_spec n off.toNat
  obtain ⟨-, -, -, hvalid⟩ := s.pcsRefHold_spec n off.toNat
  refine completes_run (f := registerWriteRun (.core n) off 8 v) hn hs (State.pcsWrite_refused h8 hd ha) (by rw [hframe])
    ⟨hframe, hrd, ?_, ?_, fun hfirst => ?_⟩
  · rw [State.fget, hword, Fld.get_put _ _ _ (by decide)]
    exact Nat.mod_eq_of_lt (by simp only [fWldPcsref_COUNT]; omega)
  · rw [State.fon, hword, Fld.on, Fld.get_put_ne _ _ _ _ (by decide) (by decide)]
    exact hvalid
  · obtain ⟨-, -, hagent, hdie, hblock, hoff⟩ :=
      pcsRefWord_fields (s.rd kWldPcsref) (s.pcsRefAgent n) (pcsDie off.toNat) (pcsBlock off.toNat) (pcsOff off.toNat)
    obtain ⟨hdie', hblock', hoff'⟩ := pcs_fields_fit off
    simp only [State.fget, hword, State.pcsRefHold_first hfirst, State.rd_wr_eq]
    simp (disch := decide) only [Fld.get_put_ne]
    exact ⟨hagent.trans (Nat.mod_eq_of_lt (s.pcsRefAgent_lt n)), hdie.trans (Nat.mod_eq_of_lt hdie'),
      hblock.trans (Nat.mod_eq_of_lt hblock'), hoff.trans (Nat.mod_eq_of_lt hoff')⟩

/-- Table 14-5, agent by agent. -/
theorem State.pcsAdmits_core (s : State) (n k : Nat) : s.pcsAdmits (.core n) k = true ↔
    n = 216 ∨ (n < 216 ∧ (s.core n).darkW = true ∧ ¬ (pcsDie k = 15 ∧ pcsBlock k = 2 ∧ (pcsOff k = 8 ∨ pcsOff k = 0x18))) ∨
    (n < 216 ∧ (s.core n).darkW = false ∧ ¬ (pcsDie k = 15 ∧ pcsBlock k ∈ [1, 2, 3, 0x52, 0xB, 0xC])) ∨
    (216 < n ∧ ((0x3000 ≤ pcsOff k ∧ pcsOff k ≤ 0x3100) ∨ (pcsDie k = 15 ∧ pcsBlock k ∈ [5, 6, 7, 0xA]) ∨
      (pcsDie k ≠ 15 ∧ pcsBlock k ∈ [0x20, 0x21, 0x22]))) := by
  unfold State.pcsAdmits
  dsimp only
  rcases Nat.lt_trichotomy n 216 with h | h | h
  · rw [if_neg (by omega), if_neg (by omega)]
    cases (s.core n).darkW
    all_goals
      simp only [h, show ¬ n = 216 by omega, show ¬ 216 < n by omega, if_true, if_false, Bool.not_eq_true', Bool.and_eq_false_iff,
        decide_eq_false_iff_not, List.mem_cons, List.not_mem_nil, or_false, reduceCtorEq, true_and, false_and, false_or]
      tauto
  · simp [h]
  · rw [if_neg (by omega), if_pos h]
    by_cases h15 : pcsDie k = 15
    · simp [h, h15, show ¬ n = 216 by omega, show ¬ n < 216 by omega]
    · simp [h, h15, show ¬ n = 216 by omega, show ¬ n < 216 by omega]

/-- A read depends on its reader only by what the reader sees of Darkroom state. -/
theorem State.pcsRead_congr {s : State} {n m off : Nat} (size : Nat)
    (h : (s.pcsPath (off / 8 * 8)).2.deepAgent (.core n) = (s.pcsPath (off / 8 * 8)).2.deepAgent (.core m)) :
    s.pcsRead (.core n) off size = s.pcsRead (.core m) off size := by
  unfold State.pcsRead
  dsimp only
  simp only [reduceCtorEq, false_or]
  split
  · rfl
  · cases regDefAt (off / 8 * 8) with
    | none => rfl
    | some d =>
      dsimp only
      generalize s.pcsPath (off / 8 * 8) = p at h
      obtain ⟨p, v⟩ := p
      cases p
      case dark => rfl
      case wait => rfl
      · dsimp only at h ⊢
        rw [h]

theorem State.pcsRead_device (s : State) (off size : Nat) : s.pcsRead .device off size = (some 0, s) := by
  unfold State.pcsRead
  exact if_pos (.inl rfl)

theorem State.pcsWrite_device (s : State) (off size : Nat) (v : Word) : s.pcsWrite .device off size v = s := by
  have ht : s.pcsTry .device off size v = some s := by
    unfold State.pcsTry
    exact if_pos (.inl rfl)
  unfold State.pcsWrite
  rw [ht]

/-- Settles O21: the entries of Table 14-5, a dropped write, the reads of two cores, and a device. -/
theorem refusedRegisterWriteIsDropped : Obligations.RefusedRegisterWriteIsDropped :=
  ⟨fun s n k _ => s.pcsAdmits_core n k, fun _ _ _ _ _ hn hs h8 hd ha _ _ => registerWrite_refused hn hs h8 hd ha,
    fun _ _ _ _ size h => State.pcsRead_congr size h, fun s off size v hs => ⟨s.pcsRead_device _ _,
      completes_run (f := registerWriteRun .device off size v) rfl hs (s.pcsWrite_device _ _ _) rfl rfl⟩⟩

end Sys2Proof.Machine
end

section
/-! SUPPORT.
The Exposure Record's commands (R473–R481), the end of the boot window (R361, R458) and the remap store (R42, R454). -/

namespace Sys2Proof.Machine

/-! ### XR_READ and XR_QUOTE -/

/-- An output that fits its buffer is written whole (R480). -/
theorem State.xrWrite_writes {v w : State} {z : ZCmd} {len : Nat} {b res : List Byte} (hok : v.bufOk z (z.f 24 8) len = true)
    (hlen : b.length ≤ len) (hw : v.BufWritten w z (z.f 24 8) b) :
    v.xrWrite z len b res = (.done 0 (leBytes 4 b.length ++ leBytes 4 w.xrCount ++ res), w) := by
  unfold State.xrWrite
  rw [hok, if_neg (by decide), if_neg (Nat.not_lt.mpr hlen), hw.zwrite]

theorem hXrRead_registers (id : Nat) {z : ZCmd} {u : State} (h : z.f 16 1 = 0) :
    hXrRead id z u = u.xrWrite z (z.f 32 4) ((List.range 32).flatMap u.xr) [] := by
  unfold hXrRead
  rw [h]
  rfl

/-- The sequence number from which the next read of the log goes on. -/
theorem nextSeq_eq (l : List LogEnt) (d : Nat) : (match l with | e :: _ => e.seq | [] => d) = (l.head?.map (·.seq)).getD d := by
  cases l <;> rfl

/-- XR_READ of the log writes the entries that fit, at least one where there is one (R480). -/
theorem hXrRead_log (id : Nat) {z : ZCmd} {u : State} {l w : List LogEnt} (h : z.f 16 1 = 1)
    (hl : l = u.boot.log.filter (fun e => decide (e.seq ≥ z.f 20 4))) (hw : w = fitLog l (z.f 32 4)) (hfit : w = [] → l = [])
    (hok : u.bufOk z (z.f 24 8) (z.f 32 4) = true) : hXrRead id z u =
      u.xrWrite z (z.f 32 4) (w.flatMap (·.bytes)) (leBytes 4 (((l.drop w.length).head?.map (·.seq)).getD u.xrCount)) := by
  have hroom : (w.isEmpty && !l.isEmpty) = false := by
    rw [Bool.and_eq_false_iff, List.isEmpty_eq_false_iff, Bool.not_eq_false', List.isEmpty_iff]
    exact (Decidable.em (w = [])).symm.imp_right hfit
  subst hw hl
  unfold hXrRead
  rw [h]
  dsimp only
  rw [hok, if_neg (by decide), hroom, if_neg (by decide), ← nextSeq_eq]
  rfl

theorem hXrRead_identity (id : Nat) {z : ZCmd} {u : State} {d : BitVec 256} (h : z.f 16 1 = 2) (hd : u.wld.idPriv = some d) :
    hXrRead id z u = u.xrWrite z (z.f 32 4) (sm2Pub d.toNat ++ leBytes 8 u.fuses.serial.toNat) [] := by
  unfold hXrRead
  rw [h]
  dsimp only
  rw [hd]
  rfl

/-- XR_QUOTE writes the quote of a package that has an identity key (R481). -/
theorem hXrQuote_writes (id : Nat) {z : ZCmd} {u : State} {q : Option (List Byte) × State} (hi : u.wld.idPriv.isSome = true)
    (hok : u.bufOk z (z.f 24 8) (z.f 20 4) = true)
    (hsize : 160 + 32 * ((List.range 32).filter (fun i => (BitVec.ofNat 32 (z.f 16 4)).getLsbD i)).length ≤ z.f 20 4)
    (hq : q = u.quote (BitVec.ofNat 32 (z.f 16 4)) (leBytes 32 (z.f 32 32))) :
    hXrQuote id z u = q.2.xrWrite z (z.f 20 4) (q.1.getD []) [] := by
  have hsome : q.1.isSome = true := hq ▸ State.quote_isSome hi
  obtain ⟨o, v⟩ := q
  obtain ⟨b, rfl⟩ := Option.isSome_iff_exists.mp hsome
  have hnone : u.wld.idPriv.isNone = false := by rw [← Option.not_isSome, hi]; rfl
  unfold hXrQuote
  dsimp only
  rw [hnone, if_neg (by decide), hok, if_neg (by decide), if_neg (Nat.not_lt.mpr hsize), ← hq]
  rfl

/-! ### XR_EXTEND -/

/-- The SOFTWARE event of XR_EXTEND with the bytes of its description (R478). -/
def State.softEvent (u : State) (z : ZCmd) (desc : List Byte) (v : State) : State :=
  v.extend 14 (z.f 16 1)
    ([BitVec.ofNat 8 (if u.srcOf z.qp = 1 then 1 else if u.srcOf z.qp = 2 then 2 else 3), 0, 0, 0, 0, 0, 0, 0] ++ leBytes 32 (z.f 32 32) ++ desc)

section
variable {z : ZCmd} {u : State} (h16 : 16 ≤ z.f 16 1) (h32 : z.f 16 1 < 32) (hsrc : u.srcOf z.qp = 2 → 24 ≤ z.f 16 1) (hlen : z.f 20 4 ≤ 984)
include h16 h32 hsrc hlen

/-- Past its checks XR_EXTEND extends its event, with the bytes of the buffer where it names some. -/
theorem hXrExtend_admits (id : Nat) : hXrExtend id z u =
    if z.f 20 4 = 0 then (doneOk, u.softEvent z [] u)
    else match u.zread z (z.f 24 8) (z.f 20 4) with
      | (.ok _ true, s) => s.poisonedBuffer
      | (.ok b false, s) => (doneOk, u.softEvent z b s)
      | (r, s) => (r.fail, s) := by
  have hreg : (decide (16 ≤ z.f 16 1 ∧ z.f 16 1 < 32) && (decide (u.srcOf z.qp ≠ 2) || decide (24 ≤ z.f 16 1))) = true := by
    rw [decide_eq_true ⟨h16, h32⟩, Bool.true_and, Bool.or_eq_true, decide_eq_true_iff, decide_eq_true_iff]
    exact (Decidable.em (u.srcOf z.qp = 2)).symm.imp_right hsrc
  unfold hXrExtend
  dsimp only
  rw [hreg, if_neg (by decide), if_neg (Nat.not_lt.mpr hlen)]
  rfl

theorem hXrExtend_bare (id : Nat) (h0 : z.f 20 4 = 0) : hXrExtend id z u = (doneOk, u.softEvent z [] u) := by
  rw [hXrExtend_admits h16 h32 hsrc hlen, if_pos h0]

theorem hXrExtend_described (id : Nat) {b : List Byte} {v : State} (h0 : z.f 20 4 ≠ 0)
    (hb : u.BufRead v z (z.f 24 8) (z.f 20 4) b false) : hXrExtend id z u = (doneOk, u.softEvent z b v) := by
  rw [hXrExtend_admits h16 h32 hsrc hlen, if_neg h0, hb.zread]

end

/-! ### The boot window (R361, R458) -/

/-- The state in which the boot window has closed. -/
def State.windowShut (s : State) : State := { s with boot := { s.boot with windowOpen := false } }

/-- The socket groups that have not joined. -/
def State.absentGroups (u : State) : List Nat :=
  (List.range 8).filter fun g => decide (u.role g = 5 ∧ u.fget (kFioXstat g) fFioXstat_STATE ≠ 2)

/-- The words of the CAPABILITY event (R458). -/
def State.capabilityWords (v : State) : List Nat :=
  [v.fuses.iodWord.toNat] ++ ((List.range 12).map fun n => if v.dieOut n then 0 else (v.rd (kSclPeercap n)).toNat) ++
    [(v.rd kMgtCapmask).toNat, (v.rd kMgtEffcap).toNat]

theorem bootWindowCloseRun_open {s : State} (h : s.boot.windowOpen = true) (hc : s.boot.cdPhase = false) : bootWindowCloseRun s =
    if !s.windowShut.absentGroups.isEmpty then
      (s.windowShut.extend 8 5 [BitVec.ofNat 8 (s.windowShut.absentGroups.foldl (fun a g => a + 2 ^ g) 0)]).setStage 6
    else (s.windowShut.setStage 3).extend 7 5 ((s.windowShut.setStage 3).capabilityWords.flatMap (leBytes 8)) := by
  unfold bootWindowCloseRun
  rw [h, hc, if_neg (by decide)]
  rfl

theorem bootWindowClose_halts {s : State} (hs : s.stopped = false) (h : s.boot.windowOpen = true) (hc : s.boot.cdPhase = false)
    (hgone : s.windowShut.absentGroups ≠ []) : Completes .bootWindowClose s fun t =>
      t = { (s.windowShut.extend 8 5 [BitVec.ofNat 8 (s.windowShut.absentGroups.foldl (fun a g => a + 2 ^ g) 0)]).setStage 6 with
        pending := s.pending } :=
  completes_runs hs rfl ((bootWindowCloseRun_open h hc).trans (if_pos (by simp [hgone])))

theorem bootWindowClose_goes_on {s v : State} (hs : s.stopped = false) (h : s.boot.windowOpen = true) (hc : s.boot.cdPhase = false)
    (hgone : s.windowShut.absentGroups = []) (hv : v = s.windowShut.setStage 3) : Completes .bootWindowClose s fun t =>
      t = { v.extend 7 5 (v.capabilityWords.flatMap (leBytes 8)) with pending := s.pending } := by
  subst hv
  exact completes_runs hs rfl ((bootWindowCloseRun_open h hc).trans (if_neg (by simp [hgone])))

/-! ### The remap store (R42, R454) -/

/-- The state in which Focus has run on every set. -/
def State.focused (s : State) (failing : List Nat) : State := s.plat.sets.zipIdx.foldl (fun s p => s.focusSet failing p) s

/-- The region table's frames, where the tier has room for them. -/
def State.remapStore (u : State) : Option State := u.takeFrames (ceilDiv ((u.tiered.2 - u.tiered.1) / 0x200000 * 16) 4096)

theorem remapStoreTakenRun_memory {s : State} (ok : Bool) (failing : List Nat) (h : s.stage = 3) : remapStoreTakenRun ok failing s =
    match (if ok then (s.focused failing).remapStore else none) with
    | some v => ({ v with enl := { v.enl with up := true } }).setStage 4
    | none => ((s.focused failing).config 13 15 0x50 []).setStage 6 := by
  unfold remapStoreTakenRun
  rw [if_neg (not_not_intro h)]
  rfl

theorem remapStoreTaken_loads {s v : State} {failing : List Nat} (hs : s.stopped = false) (h : s.stage = 3)
    (hv : (s.focused failing).remapStore = some v) : Completes (.remapStoreTaken true failing) s fun t =>
      t = { ({ v with enl := { v.enl with up := true } }).setStage 4 with pending := s.pending } := by
  refine completes_runs (f := remapStoreTakenRun true failing) hs rfl ?_
  rw [remapStoreTakenRun_memory true failing h, if_pos rfl, hv]

theorem remapStoreTaken_halts {s : State} {ok : Bool} {failing : List Nat} (hs : s.stopped = false) (h : s.stage = 3)
    (hv : ok = false ∨ (s.focused failing).remapStore = none) : Completes (.remapStoreTaken ok failing) s fun t =>
      t = { ((s.focused failing).config 13 15 0x50 []).setStage 6 with pending := s.pending } := by
  have hnone : (if ok then (s.focused failing).remapStore else none) = none := by
    rcases hv with rfl | hv
    · rfl
    · rw [hv, ite_self]
  refine completes_runs (f := remapStoreTakenRun ok failing) hs rfl ?_
  rw [remapStoreTakenRun_memory ok failing h, hnone]

/-- Settles O51, row by row. -/
theorem exposureCommandsComplete : Obligations.ExposureCommandsComplete := by
  refine ⟨fun s z hz => ?commands, fun s hs ho hc => ⟨bootWindowClose_halts hs ho hc, fun hg v hv => bootWindowClose_goes_on hs ho hc hg hv⟩,
    fun s failing hs h3 u hu => ?store⟩
  case commands =>
    dsimp only
    refine ⟨fun h h0 hok hlen w hw => ?registers, fun h hfit hok hlen w hw => ?log, fun d h hd hok hlen w hw => ?identity,
      fun q h hi hb hsize hq hok hlen w hw => ?quote, fun h h16 h32 hsrc hmax => ⟨fun h0 => ?bare, fun b v h0 hb => ?described⟩⟩
    case registers =>
      exact completes_done (h := hXrRead) (f := xrReadRegistersRun z) h hz rfl rfl
        ((hXrRead_registers _ h0).trans (State.xrWrite_writes hok hlen hw))
    case log =>
      exact completes_done (h := hXrRead) (f := xrReadLogRun z) h hz rfl rfl
        ((hXrRead_log _ (isOp_field h) rfl rfl hfit hok).trans (State.xrWrite_writes hok hlen hw))
    case identity =>
      exact completes_done (h := hXrRead) (f := xrReadIdentityRun z) h hz rfl rfl
        ((hXrRead_identity _ (isOp_field h) hd).trans (State.xrWrite_writes hok hlen hw))
    case quote =>
      exact completes_done (h := hXrQuote) (f := xrQuoteRun z) h hz rfl rfl
        ((hXrQuote_writes _ hi hb hsize hq).trans (State.xrWrite_writes hok hlen hw))
    case bare => exact completes_done (h := hXrExtend) (f := xrExtendRun z) h hz rfl rfl (hXrExtend_bare h16 h32 hsrc hmax _ h0)
    case described =>
      exact completes_done (h := hXrExtend) (f := xrExtendRun z) h hz rfl rfl (hXrExtend_described h16 h32 hsrc hmax _ h0 hb)
  case store =>
    subst hu
    exact ⟨fun v hv => remapStoreTaken_loads hs h3 hv, fun ok hok => remapStoreTaken_halts hs h3 hok⟩

end Sys2Proof.Machine
end

section
/-! SUPPORT.
CXL.mem requests of the remote host at the Lend endpoint (R370–R378) and its expansion ROM (R366). -/

namespace Sys2Proof.Machine

/-! ### Answers that have come -/

/-- A request that holds no copy takes the answer that has come for it, unless a core makes it, whose own copy leaves first
(log 22). -/
theorem State.homeSync_taken {s u : State} {k : ReqKind} {r : HomeReq} {a : HomeAns} (hsrc : ¬ (r.src = 1 ∨ r.src = 2))
    (h : s.Answered u [(k, r)] [a]) : s.homeSync k r = (a, u) := by
  obtain ⟨rest, hw, he, -, -, hrep, rfl⟩ := h
  have hrep' : s.home.replies = ⟨k, r, a⟩ :: rest := hrep
  have htake : s.takeHeld k r = some (a, { s with home := { s.home with replies := rest } }) := by
    unfold State.takeHeld
    rw [hrep']
    simp
  have hown : (k.uncached && decide (r.src = 1 ∨ r.src = 2)) = false := by rw [decide_eq_false hsrc, Bool.and_false]
  unfold State.homeSync
  dsimp only
  rw [hown, if_neg (by decide), State.drainWb_empty hw he, htake]

theorem wfFn_of {fn : Nat} (h : fn < 2) : wfFn fn = true := decide_eq_true h

/-! ### Serving one request (R372) -/

/-- The request of the home that serves a request of the port (R371). -/
def LendReq.homeReq (q : LendReq) (fn : Nat) : HomeReq :=
  { uncReq (Who.lend fn) q.line q.key false with
    rt := true, data := q.data, poison := q.poison, mask := if q.kind = 1 then BitVec.allOnes 64 else q.mask }

theorem LendReq.homeReq_src (q : LendReq) (fn : Nat) : ¬ ((q.homeReq fn).src = 1 ∨ (q.homeReq fn).src = 2) := by
  show ¬ (5 = 1 ∨ 5 = 2)
  decide

section
variable {s v : State} {fn : Nat} {q : LendReq}

theorem State.lendDo_read {l : Line} {p f n : Bool} (hk : q.kind = 0) (h : s.Answered v [(.rdc, q.homeReq fn)] [.reply l p f n]) :
    s.lendDo fn q = (some (l, p), v) := by
  have htaken := State.homeSync_taken (q.homeReq_src fn) h
  unfold LendReq.homeReq at htaken
  unfold State.lendDo
  dsimp only
  rw [if_pos hk, htaken]

theorem State.lendDo_write {k : ReqKind} (h0 : q.kind ≠ 0) (hk : k = if q.kind = 1 then .wrf else .wrp)
    (h : s.Answered v [(k, q.homeReq fn)] [.done]) : s.lendDo fn q = (some (0, false), v) := by
  have htaken := State.homeSync_taken (q.homeReq_src fn) h
  unfold LendReq.homeReq at htaken
  unfold State.lendDo
  dsimp only
  rw [if_neg h0, ← hk, htaken]

/-- A request that is alone and whose answer has come is answered. -/
theorem State.lendServe_one {l : Line} {p : Bool} (hq : (s.lf fn).reqs = [q]) (h : s.lendDo fn q = (some (l, p), v)) :
    s.lendServe fn = v.lendAnswer fn q (decide ((s.ent (q.line / 64)).tier = 2)) l p := by
  unfold State.lendServe
  rw [hq]
  simp only [List.foldl_cons, List.foldl_nil, List.contains_nil, Bool.false_eq_true, if_false, h]

end

/-! ### A request arrives (R370, R374, R378) -/

theorem State.evtLnd_time (s : State) (fn i : Nat) : (s.evtLnd fn i).time = s.time := by
  unfold State.evtLnd; rw [State.evt_eq]

theorem State.lf_eachChan (s : State) (l : List Nat) (f : State → Nat → Chan) (fn : Nat) :
    (s.each l (fun s ch => s.setChan ch (f s ch))).lf fn = s.lf fn := by
  unfold State.lf; rw [each_chan_lend]

/-- Showing OCC and panic leaves the functions alone. -/
theorem State.lf_lendOcc (s : State) (fn n : Nat) : (s.lendOcc fn).lf n = s.lf n := by
  unfold State.lendOcc
  dsimp only
  split
  · rfl
  · exact State.lf_eachChan _ _ (fun s ch => { s.chan ch with lendPanic := _ }) n

/-- Where a request's address lies: its DPA, HPA and key ID, if a committed decoder and a lent range hold it (R370). -/
def State.lendPlace (s u : State) (fn addr : Nat) : Option (Nat × Nat × Nat) :=
  if (s.lf fn).memEn then ((s.lf fn).dpaOf (addr / 64 * 64)).bind (fun d => (u.lentAt fn d).map (fun p => (d, p.1, p.2))) else none

/-- A decode error (R370). -/
def State.lendMissed (u : State) (fn tag : Nat) (read : Bool) : State :=
  ((u.fadd (kLndStat fn) fLndStat_DECERR 1).evtLnd fn 5).lendFrozenAns fn tag read

/-- A port whose input buffer holds one request more. -/
def State.lendQueued (s u : State) (fn : Nat) (q : LendReq) : State :=
  (u.setLf fn { s.lf fn with reqs := (s.lf fn).reqs ++ [q] }).lendOcc fn

theorem State.lf_lendQueued (s u : State) (fn : Nat) (q : LendReq) : ((s.lendQueued u fn q).lf fn).reqs = (s.lf fn).reqs ++ [q] := by
  unfold State.lendQueued
  rw [State.lf_lendOcc, lf_setLf]

section
variable {s : State} {c : Instr} {fn addr tag kind : Nat} {data : Line} {mask : BitVec 64} {poison : Bool}

/-- The three request rows bring their request to one operation (R371). -/
theorem lendReq_row (hc : lendReqOf c = some (fn, addr, tag, kind, data, mask, poison)) :
    ∃ f, exec c s = runs (wfFn fn) f s ∧ f s = s.lendIn fn addr tag kind data mask poison := by
  cases c
  case memrd | memwr | memwrptl =>
    simp only [lendReqOf, Option.some.injEq, Prod.mk.injEq] at hc
    obtain ⟨rfl, rfl, rfl, rfl, rfl, rfl, rfl⟩ := hc
    exact ⟨_, rfl, rfl⟩
  all_goals exact absurd hc (by intro q; cases q)

/-- A request that the port takes is answered at once, misses, or joins the input buffer. -/
theorem State.lendIn_takes (hl : (s.lf fn).link = 2) (hx : (s.lf fn).cxr = false) (hn : (s.lf fn).reqs.length < 512)
    (ht : ∀ q, q ∈ (s.lf fn).reqs → q.tag ≠ tag) :
    s.lendIn fn addr tag kind data mask poison =
      (let u := s.evtLnd fn (if kind = 0 then 0 else 1)
       if u.lendFrozen fn then u.lendFrozenAns fn tag (decide (kind = 0))
       else match s.lendPlace u fn addr with
        | none => if (u.lendMissed fn tag (decide (kind = 0))).fon (kLndCtl fn) fLndCtl_DECFRZ then
            (u.lendMissed fn tag (decide (kind = 0))).lendFreeze fn 3 else u.lendMissed fn tag (decide (kind = 0))
        | some (d, h, k) => (s.lendQueued u fn ⟨tag, h / 64, k, d / 64 * 64, kind, data, mask, poison, s.time⟩).lendServe fn) := by
  have htag : (s.lf fn).reqs.any (fun q => q.tag = tag) = false := by
    rw [List.any_eq_false]
    exact fun q hq => by simpa using ht q hq
  unfold State.lendIn
  dsimp only
  rw [if_neg (by rw [hl, hx, htag]; simp; omega), State.evtLnd_time]
  rfl

end

/-! ### The rows -/

theorem lendAnswerTimeoutRun_finds {s : State} {fn tag : Nat} {q : LendReq} (hq : (s.lf fn).reqs.find? (fun q => q.tag = tag) = some q) :
    lendAnswerTimeoutRun fn tag s =
      (let v := (s.lendMiss fn (decide ((s.ent (q.line / 64)).tier = 2))).lendForget fn q
       let w := ((v.setLf fn { s.lf fn with reqs := (s.lf fn).reqs.filter (fun y => y.tag ≠ tag) }).lendPoisoned fn q).lendOcc fn
       if q.kind ≠ 0 || w.fon (kLndCtl fn) fLndCtl_TMOFRZ then w.lendFreeze fn 2 else w) := by
  unfold lendAnswerTimeoutRun
  dsimp only
  rw [hq]

theorem expansionRomReadRun_enabled {s : State} {fn : Nat} (off : Nat) (hl : (s.lf fn).link = 2) (hr : (s.lf fn).flr = false)
    (he : (s.lf fn).romEn = true) : expansionRomReadRun fn off s =
      s.emit (.lend fn 0 (lineOf (sliceB (s.lf fn).rom (off / 64 * 64) 64)) false false) := by
  unfold expansionRomReadRun
  dsimp only
  rw [if_neg (not_not_intro hl), hr, if_neg (by decide), he, if_neg (by decide)]

/-- Settles O40, row by row. -/
theorem lendRequestsComplete : Obligations.LendRequestsComplete := by
  refine ⟨fun s c fn addr tag kind data mask poison hc hf hs hl hx hn ht => ?request, fun s fn tag q hf hs hq => ?timeout,
    fun s fn off hf ho hs hl hr he => ?rom⟩
  case request =>
    obtain ⟨f, hexec, hrun⟩ := lendReq_row (s := s) hc
    have htake := hrun.trans (State.lendIn_takes (addr := addr) (kind := kind) (data := data) (mask := mask) (poison := poison) hl hx hn ht)
    dsimp only at htake ⊢
    generalize s.evtLnd fn (if kind = 0 then 0 else 1) = u at htake
    refine ⟨fun hfr => ?frozen, fun hfr hmiss => ?missed, fun d h k hfr hm hd hp => ⟨?queued, fun v l p hnone => ⟨?read, ?write, ?partly⟩⟩⟩
    case frozen =>
      rw [hfr, if_pos rfl] at htake
      exact completes_with hexec (wfFn_of hf) hs htake
    case missed =>
      have hplace : s.lendPlace u fn addr = none := by
        unfold State.lendPlace
        rcases hmiss with h | h
        · rw [h]; rfl
        · rw [h, ite_self]
      rw [hfr, if_neg (by decide), hplace] at htake
      exact completes_with hexec (wfFn_of hf) hs htake
    case queued =>
      have hplace : s.lendPlace u fn addr = some (d, h, k) := by
        unfold State.lendPlace
        rw [hm, if_pos rfl, hd, Option.bind_some, hp, Option.map_some]
      rw [hfr, if_neg (by decide), hplace] at htake
      exact completes_with hexec (wfFn_of hf) hs htake
    all_goals
      have hone : ((s.lendQueued u fn ⟨tag, h / 64, k, d / 64 * 64, kind, data, mask, poison, s.time⟩).lf fn).reqs = [_] :=
        (State.lf_lendQueued ..).trans (by rw [hnone]; rfl)
    case read =>
      rintro rfl ⟨f, n, ha⟩
      exact State.lendServe_one hone (State.lendDo_read rfl ha)
    case write =>
      rintro rfl ha
      exact State.lendServe_one hone (State.lendDo_write (k := .wrf) Nat.one_ne_zero rfl ha)
    case partly =>
      rintro rfl ha
      exact State.lendServe_one hone (State.lendDo_write (k := .wrp) (Nat.succ_ne_zero 1) rfl ha)
  case timeout =>
    exact completes_with (f := lendAnswerTimeoutRun fn tag) rfl (wfFn_of hf) hs (lendAnswerTimeoutRun_finds hq)
  case rom =>
    exact completes_run (f := expansionRomReadRun fn off) (by rw [wfFn_of hf, decide_eq_true ho]; rfl) hs (expansionRomReadRun_enabled off hl hr he) rfl rfl

end Sys2Proof.Machine
end

section
/-! SUPPORT.
The mailbox of a Lend function (R380), its DMA (R381, R382), resets (R383, R384, R592) and configuration writes (R364–R370). -/

namespace Sys2Proof.Machine

/-- The conditions under which a function takes a configuration write. -/
theorem lend_takes {s : State} {fn : Nat} (hl : (s.lf fn).link = 2) (hr : (s.lf fn).flr = false) : ¬ ((s.lf fn).link ≠ 2 ∨ (s.lf fn).flr = true) := by
  rw [hl, hr]; decide

section
variable {s : State} {fn : Nat} (hf : fn < 2) (hs : s.stopped = false)
include hf hs

/-- A row of a Lend function that leaves the queue alone. -/
theorem lendRow_completes {c : Instr} {f : State → State} {t : State} {P : State → Prop} (he : exec c s = runs (wfFn fn) f s) (hr : f s = t)
    (hp : t.pending = s.pending) (hP : P t) : Completes c s P := by
  unfold Completes
  rw [he]
  exact completes_run (wfFn_of hf) hs hr hp hP

/-! ### Commands of the mailbox (R380) -/

/-- A command that a free mailbox answers at once. -/
theorem mboxSay_completes (hm : s.mboxFree fn = true) {c : Instr} {op : Nat} {payload : State → List Byte} {b : List Byte}
    (he : exec c s = runs (wfFn fn) (fun s => s.mboxSay fn op payload) s) (hb : payload s = b) :
    Completes c s fun t => t = { s with out := s.out ++ [.lendMbox fn op 0 b] } :=
  lendRow_completes hf hs he (if_pos hm) rfl (by rw [← hb]; rfl)

theorem clearEventRecords_completes (hm : s.mboxFree fn = true) {hs' : List Nat} (hh : ((s.lf fn).events.take hs'.length).map (fun e => e.1) = hs') :
    Completes (.clearEventRecords fn hs') s fun t =>
      (t.lf fn).events = (s.lf fn).events.drop hs'.length ∧ t.lf fn = { s.lf fn with events := (t.lf fn).events } ∧
      t = { s with lend := t.lend, out := s.out ++ [.lendMbox fn 0x0101 0 []] } := by
  have hrun : clearEventRecordsRun fn hs' s =
      (s.setLf fn { s.lf fn with events := (s.lf fn).events.drop hs'.length }).mbox fn 0x0101 0 [] := by
    unfold clearEventRecordsRun
    rw [hm, if_neg (by decide)]
    exact if_pos hh
  refine lendRow_completes hf hs (f := clearEventRecordsRun fn hs') rfl hrun rfl ?_
  rw [lf_mbox, lf_setLf]
  exact ⟨rfl, rfl, rfl⟩

theorem setEventInterruptPolicy_completes (hm : s.mboxFree fn = true) (p : BitVec 32) :
    Completes (.setEventInterruptPolicy fn p) s fun t =>
      t.lf fn = { s.lf fn with policy := p } ∧ t = { s with lend := t.lend, out := s.out ++ [.lendMbox fn 0x0103 0 []] } :=
  lendRow_completes hf hs (f := setEventInterruptPolicyRun fn p) rfl (if_pos hm) rfl ⟨(lf_mbox ..).trans (lf_setLf ..), rfl⟩

theorem sanitize_completes (hm : s.mboxFree fn = true) (hb : (s.lf fn).bgRuns = false) : Completes (.sanitize fn) s fun t =>
    t = { ((((s.setLf fn { s.lf fn with bgOp := 0x4400, bgRuns := true }).mbox fn 0x4400 1 []).lendDiscardAll fn).lendTierDone fn)
      with pending := s.pending } := by
  refine completes_with (f := sanitizeRun fn) rfl (wfFn_of hf) hs ?_
  unfold sanitizeRun
  dsimp only
  rw [hm, if_neg (by decide), hb, if_neg (by decide)]

/-! ### DMA (R381, R382) -/

/-- A DMA command of the mailbox starts, or ends with Invalid Input where its length is not admitted. -/
theorem mboxDma_completes (hm : s.mboxFree fn = true) {c : Instr} {op addr len : Nat}
    (he : exec c s = runs (wfFn fn) (fun s => s.mboxDma fn op addr len) s) :
    (len % 64 = 0 → len ≤ 16777216 → Completes c s fun t =>
      t = { (s.setLf fn { s.lf fn with cmd := some ⟨op, addr, len, [], 0⟩ }).mboxStart fn with pending := s.pending }) ∧
    (len % 64 ≠ 0 ∨ 16777216 < len → Completes c s fun t => t = { s with out := s.out ++ [.lendMbox fn op 2 []] }) := by
  refine ⟨fun h64 hmax => completes_with he (wfFn_of hf) hs ?_, fun hbad => lendRow_completes hf hs (t := s.mbox fn op 2 []) he ?_ rfl rfl⟩
  · show s.mboxDma fn op addr len = _
    unfold State.mboxDma
    rw [hm, if_neg (by decide), if_neg (by omega)]
  · show s.mboxDma fn op addr len = _
    unfold State.mboxDma
    rw [hm, if_neg (by decide), if_pos hbad]

theorem mailboxDmaCompletion_completes {tag : Nat} {bytes : List Byte} {r : LendRead} {c : LendCmd}
    (hr : (s.lf fn).reads.find? (fun r => r.tag = tag) = some r) (hst : r.stale = false) (hc : (s.lf fn).cmd = some c) :
    let d : LendCmd := { c with got := SMap.set c.got r.off (sliceB bytes 0 r.len) }
    let u := s.setLf fn { s.lf fn with reads := (s.lf fn).reads.filter (fun y => y.tag ≠ tag), cmd := some d }
    Completes (.mailboxDmaCompletion fn tag bytes) s fun t =>
      t = { (if ((s.lf fn).reads.filter (fun y => y.tag ≠ tag)).any (fun y => !y.stale) then u else u.mboxDiscard fn d)
        with pending := s.pending } := by
  refine completes_with (f := mailboxDmaCompletionRun fn tag bytes) rfl (wfFn_of hf) hs ?_
  unfold mailboxDmaCompletionRun
  dsimp only
  rw [hr]
  dsimp only
  rw [hst, if_neg (by decide), hc]

theorem mailboxDmaTimeout_completes {tag : Nat} {r : LendRead} (hr : (s.lf fn).reads.find? (fun r => r.tag = tag) = some r)
    (hst : r.stale = false) : Completes (.mailboxDmaTimeout fn tag) s fun t =>
      t = { ((s.setLf fn ({ s.lf fn with reads := (s.lf fn).reads.filter (fun y => y.tag ≠ tag) } : LendFn).staleAll).mboxEnd fn 4).readsDone fn
        with pending := s.pending } := by
  refine completes_with (f := mailboxDmaTimeoutRun fn tag) rfl (wfFn_of hf) hs ?_
  unfold mailboxDmaTimeoutRun
  dsimp only
  rw [hr]
  dsimp only
  rw [hst, if_neg (by decide)]

theorem busMasterEnableClear_completes (hl : (s.lf fn).link = 2) (hr : (s.lf fn).flr = false) :
    Completes (.busMasterEnableClear fn) s fun t =>
      (t.lf fn).bme = false ∧ (t.lf fn).reads = (s.lf fn).reads.map (fun r => { r with stale := true }) ∧
      (t.lf fn).cmd = (s.lf fn).cmd.map (fun c => if c.phase = 1 then { c with phase := 2 } else c) ∧
      t.lf fn = { s.lf fn with bme := (t.lf fn).bme, reads := (t.lf fn).reads, cmd := (t.lf fn).cmd } ∧ t = { s with lend := t.lend } := by
  refine lendRow_completes hf hs (f := busMasterEnableClearRun fn) rfl (if_neg (lend_takes hl hr)) rfl ?_
  rw [lf_setLf]
  exact ⟨rfl, rfl, rfl, rfl, rfl⟩

theorem busMasterEnableSet_completes (hl : (s.lf fn).link = 2) (hr : (s.lf fn).flr = false) : Completes (.busMasterEnableSet fn) s fun t =>
    t = { ((s.setLf fn { s.lf fn with bme := true }).readsDone fn).mboxStart fn with pending := s.pending } :=
  completes_with (f := busMasterEnableSetRun fn) rfl (wfFn_of hf) hs (if_neg (lend_takes hl hr))

end

/-! ### Resets (R383, R384, R592) -/

theorem State.lendAbandon_lf (s : State) (fn n : Nat) : (s.lendAbandon fn).lf n = s.lf n := by
  unfold State.lendAbandon
  dsimp only
  split <;> rfl

/-- What a function-level reset leaves of its function (R383). -/
theorem lf_functionLevelReset (s : State) (fn : Nat) :
    ∃ a b, (((s.setLf fn { (s.lf fn).ioReset with rom := [], flr := true }).lendAbandon fn).lendResetDone fn).lf fn =
      { (s.lf fn).ioReset with rom := [], flr := a, cxr := b } := by
  obtain ⟨a, b, h⟩ := lendResetDone_lf ((s.setLf fn { (s.lf fn).ioReset with rom := [], flr := true }).lendAbandon fn) fn
  rw [State.lendAbandon_lf, lf_setLf] at h
  exact ⟨a, b, h⟩

section
variable {s : State} {fn : Nat} (hf : fn < 2) (hs : s.stopped = false)
include hf hs

theorem functionLevelReset_completes (hl : (s.lf fn).link = 2) : Completes (.functionLevelReset fn) s fun t =>
    t = { ((s.setLf fn { (s.lf fn).ioReset with rom := [], flr := true }).lendAbandon fn).lendResetDone fn with pending := s.pending } ∧
    (t.lf fn).cmd = none ∧ (t.lf fn).romEn = false ∧ (t.lf fn).bme = false ∧ (t.lf fn).rom = [] ∧
    (t.lf fn).memEn = (s.lf fn).memEn ∧ (t.lf fn).decs = (s.lf fn).decs ∧ (t.lf fn).reqs = (s.lf fn).reqs := by
  obtain ⟨a, b, h⟩ := lf_functionLevelReset s fn
  refine completes_run' (f := functionLevelResetRun fn) (wfFn_of hf) hs (if_neg (not_not_intro hl)) ⟨rfl, ?_⟩
  have hlf : ∀ u : State, ({ u with pending := s.pending } : State).lf fn = u.lf fn := fun _ => rfl
  rw [hlf, h]
  exact ⟨rfl, rfl, rfl, rfl, rfl, rfl, rfl⟩

theorem cxlReset_completes (mc : Bool) (hl : (s.lf fn).link = 2) : Completes (.cxlReset fn mc) s fun t =>
    let u := s.lendFlush fn
    let v := u.setLf fn { (u.lf fn).ioReset with memEn := false, decs := [], cxr := true }
    t = { (if mc then v.lendDiscardAll fn else v).lendTierDone fn with pending := s.pending } :=
  completes_with (f := cxlResetRun fn mc) rfl (wfFn_of hf) hs (if_neg (not_not_intro hl))

theorem lendPerst_completes (hg : (s.lendGroup fn).isSome = true) : Completes (.lendPerst fn) s fun t =>
    (t.lf fn).decs = [] ∧ (t.lf fn).memEn = false ∧ (t.lf fn).link = 0 ∧ (t.lf fn).bme = false ∧ (t.lf fn).cmd = none ∧
    t = { s.lendFreeze fn 5 with lend := t.lend, pending := s.pending } := by
  have hrun : lendPerstRun fn s = (s.lendFreeze fn 5).setLf fn
      { ((s.lendFreeze fn 5).lf fn).ioReset with decs := [], memEn := false, link := 0, flr := false, cxr := false } := by
    unfold lendPerstRun
    rw [← Option.not_isSome, hg]
    rfl
  refine completes_run' (f := lendPerstRun fn) (wfFn_of hf) hs hrun ?_
  generalize s.lendFreeze fn 5 = u
  have hlf : ∀ w : State, ({ w with pending := s.pending } : State).lf fn = w.lf fn := fun _ => rfl
  rw [hlf, lf_setLf]
  exact ⟨rfl, rfl, rfl, rfl, rfl, rfl⟩

/-! ### Configuration writes (R364–R370) -/

theorem lendConfigAccess_completes (hl : (s.lf fn).link = 2) (hr : (s.lf fn).flr = false) :
    (∀ b, Completes (.lendConfigAccess fn (.memEnable b)) s fun t => t = s.setLf fn { s.lf fn with memEn := b }) ∧
    (∀ b, Completes (.lendConfigAccess fn (.romEnable b)) s fun t => t = s.setLf fn { s.lf fn with romEn := b }) ∧
    (∀ i b n w g k, (s.lf fn).decOk i ⟨b, n, w, g, k⟩ = true → Completes (.lendConfigAccess fn (.decoder i b n w g k true)) s fun t =>
      t = s.setLf fn { s.lf fn with decs := SMap.set (s.lf fn).decs i ⟨b, n, w, g, k⟩ }) ∧
    (∀ i b n w g k, Completes (.lendConfigAccess fn (.decoder i b n w g k false)) s fun t =>
      t = s.setLf fn { s.lf fn with decs := (s.lf fn).decs.filter (fun p => decide (p.1 < i)) }) ∧
    (∀ v, Completes (.lendConfigAccess fn (.completionTimeout v)) s fun t => t = s.setLf fn { s.lf fn with cto := v }) ∧
    (∀ v, Completes (.lendConfigAccess fn (.maxReadRequest v)) s fun t => t = s.setLf fn { s.lf fn with mrrs := v }) ∧
    (∀ b, Completes (.lendConfigAccess fn (.d3hot b)) s fun t =>
      t = { (s.setLf fn { s.lf fn with d3 := b }).mboxStart fn with pending := s.pending }) := by
  have hflr : ¬ (s.lf fn).flr = true := by rw [hr]; decide
  have hwrite : ∀ {w : LendCfg} {t : State}, (lendConfigAccessRun fn w s = t) → t.pending = s.pending →
      Completes (.lendConfigAccess fn w) s fun u => u = t := fun h hp => lendRow_completes hf hs (f := lendConfigAccessRun fn _) rfl h hp rfl
  have hpass : ∀ {t v : State}, (if (s.lf fn).link ≠ 2 then s else if (s.lf fn).flr = true then v else t) = t := by
    intro t v; rw [if_neg (not_not_intro hl), if_neg hflr]
  refine ⟨fun b => hwrite hpass rfl, fun b => hwrite hpass rfl, fun i b n w g k hok => hwrite (hpass.trans (if_pos hok)) rfl,
    fun i b n w g k => hwrite hpass rfl, fun v => hwrite hpass rfl, fun v => hwrite hpass rfl, fun b => ?_⟩
  exact completes_with (f := lendConfigAccessRun fn (.d3hot b)) rfl (wfFn_of hf) hs hpass

end

/-- Settles O41, row by row. -/
theorem mailboxAndLendControlComplete : Obligations.MailboxAndLendControlComplete := by
  refine ⟨fun s fn hf hs hm => ?mailbox, fun s fn hf hs => ?control⟩
  case mailbox =>
    dsimp only
    have hsay := @mboxSay_completes s fn hf hs hm
    refine ⟨hsay rfl rfl, hsay rfl rfl, hsay rfl rfl, hsay rfl rfl, hsay rfl rfl, hsay rfl rfl, hsay rfl rfl, hsay rfl rfl, hsay rfl rfl,
      fun dpa len => hsay rfl rfl, fun l hl => clearEventRecords_completes hf hs hm hl, setEventInterruptPolicy_completes hf hs hm,
      sanitize_completes hf hs hm, fun addr len op c hc => ?dma⟩
    simp only [List.mem_cons, Prod.mk.injEq, List.not_mem_nil, or_false] at hc
    rcases hc with ⟨rfl, rfl⟩ | ⟨rfl, rfl⟩ | ⟨rfl, rfl⟩ <;> exact mboxDma_completes hf hs hm rfl
  case control =>
    exact ⟨fun tag bytes r c hr hst hc => mailboxDmaCompletion_completes hf hs hr hst hc,
      fun tag r hr hst => mailboxDmaTimeout_completes hf hs hr hst, busMasterEnableClear_completes hf hs, busMasterEnableSet_completes hf hs,
      functionLevelReset_completes hf hs, fun mc => cxlReset_completes hf hs mc, lendPerst_completes hf hs,
      lendConfigAccess_completes hf hs⟩

end Sys2Proof.Machine
end

section
/-! SUPPORT.
The commands of classes 0x18 (R366–R385) and 0x28 (R530–R542). -/

namespace Sys2Proof.Machine

/-! ### Class 0x18 -/

/-- The test of LEND_SET_RANGE over the other lent ranges finds none where none overlaps. -/
theorem any_others_false {p : Nat × Nat → Bool} {q : Nat × Nat} (h : ∀ f i, f < 2 → i < 16 → (f, i) ≠ q → p (f, i) = false) :
    ((([0, 1] : List Nat).flatMap (fun f => (List.range 16).map (fun i => (f, i)))).filter (fun x => x ≠ q)).any p = false := by
  rw [List.any_eq_false]
  intro x hx
  simp only [List.mem_filter, List.mem_flatMap, List.mem_map, List.mem_range, decide_eq_true_eq] at hx
  obtain ⟨⟨f, hf, i, hi, rfl⟩, hne⟩ := hx
  have hf2 : f < 2 := by simp only [List.mem_cons, List.not_mem_nil, or_false] at hf; omega
  rw [h f i hf2 hi hne]
  decide

section
variable {z : ZCmd} {u : State} (h1 : z.f 16 1 < 2) (h2 : (u.lendGroup (z.f 16 1)).isSome = true)
include h1 h2

/-- LEND_SET_RANGE with a SIZE of zero clears the range (R367). -/
theorem hLendSetRange_clears (id : Nat) (hr : z.f 17 1 ≤ 15) (hm : (u.lf (z.f 16 1)).memEn = false) (h0 : z.f 32 8 = 0) :
    hLendSetRange id z u = (doneOk, ((u.wr (kLndRangea (z.f 16 1) (z.f 17 1)) 0).wr (kLndRangeb (z.f 16 1) (z.f 17 1)) 0).config
      11 15 (0x1A + z.f 16 1) [z.f 17 1, 0, 0]) := by
  unfold hLendSetRange
  rw [onFunc_pass h1 h2]
  dsimp only
  simp only [if_neg (Nat.not_lt.mpr hr), h0, ne_eq, not_true_eq_false, false_and, if_false, hm, Bool.false_eq_true, if_true]
  rfl

/-- LEND_SET_RANGE stores a range that passes the checks of R367 to R369. -/
theorem hLendSetRange_stores (id : Nat) (hr : z.f 17 1 ≤ 15) (hm : (u.lf (z.f 16 1)).memEn = false) (h0 : z.f 32 8 ≠ 0)
    (hbase : z.f 24 8 % 2097152 = 0) (hsize : z.f 32 8 % 2097152 = 0) (htier : u.inTiered (z.f 24 8) (z.f 32 8) = true)
    (hdark : u.hasDarkRegion (z.f 24 8) (z.f 32 8) = false) (hkey : (u.ctx (z.f 18 2 % 16384)).dark = false)
    (hfree : ∀ f i, f < 2 → i < 16 → (f, i) ≠ (z.f 16 1, z.f 17 1) → ¬ ((u.lentRange f i).2.1 ≠ 0 ∧
      z.f 24 8 < (u.lentRange f i).1 + (u.lentRange f i).2.1 ∧ (u.lentRange f i).1 < z.f 24 8 + z.f 32 8)) {a b : Word}
    (ha : a = fLndRangea_KEYID.put (fLndRangea_BASE.put (fLndRangea_V.put 0 1) (z.f 24 8 >>> 21)) (z.f 18 2 % 16384))
    (hb : b = fLndRangeb_SIZE.put 0 (z.f 32 8 >>> 21)) :
    hLendSetRange id z u = (doneOk, ((u.wr (kLndRangea (z.f 16 1) (z.f 17 1)) a).wr (kLndRangeb (z.f 16 1) (z.f 17 1)) b).config
      11 15 (0x1A + z.f 16 1) [z.f 17 1, a.toNat, b.toNat]) := by
  have hhit := any_others_false (p := fun p => decide ((u.lentRange p.1 p.2).2.1 ≠ 0 ∧
    z.f 24 8 < (u.lentRange p.1 p.2).1 + (u.lentRange p.1 p.2).2.1 ∧ (u.lentRange p.1 p.2).1 < z.f 24 8 + z.f 32 8))
    fun f i hf hi hne => decide_eq_false (hfree f i hf hi hne)
  unfold hLendSetRange
  rw [onFunc_pass h1 h2]
  dsimp only at hhit ⊢
  rw [if_neg (Nat.not_lt.mpr hr), hhit, if_neg (by rw [hbase, hsize]; simp), htier, if_neg (by simp), hdark, hkey, if_neg (by simp), hm,
    if_neg (by decide), if_neg h0, if_neg h0, ← ha, ← hb]

theorem hLendQuery_does (id : Nat) : hLendQuery id z u = (.done 0
    ([BitVec.ofNat 8 (u.fget (kLndStat (z.f 16 1)) fLndStat_STATE), BitVec.ofNat 8 (u.fget (kLndStat (z.f 16 1)) fLndStat_CAUSE), 0, 0] ++
      leBytes 4 (min (2 ^ 32 - 1) (u.fget (kLndBudget (z.f 16 1)) fLndBudget_MISS2 + u.fget (kLndBudget (z.f 16 1)) fLndBudget_MISS01)) ++
      leBytes 4 (u.fget (kLndStat (z.f 16 1)) fLndStat_FROZANS)), u) := onFunc_pass h1 h2

theorem hLendFreeze_does (id : Nat) : hLendFreeze id z u = (doneOk, u.lendFreeze (z.f 16 1) 1) := onFunc_pass h1 h2

theorem hLendRelease_open (id : Nat) (hf : u.lendFrozen (z.f 16 1) = false) : hLendRelease id z u = (doneOk, u) := by
  unfold hLendRelease
  rw [onFunc_pass h1 h2, hf]
  rfl

/-- A frozen port is released where Table 12-3 lets its cause be. -/
theorem hLendRelease_frozen (id : Nat) (hf : u.lendFrozen (z.f 16 1) = true) (h6 : u.fget (kLndStat (z.f 16 1)) fLndStat_CAUSE ≠ 6)
    (h5 : ¬ (u.fget (kLndStat (z.f 16 1)) fLndStat_CAUSE = 5 ∧ (u.lf (z.f 16 1)).link ≠ 2)) :
    hLendRelease id z u = (doneOk, (u.fput (kLndStat (z.f 16 1)) fLndStat_STATE (u.lf (z.f 16 1)).link).fput
      (kLndStat (z.f 16 1)) fLndStat_CAUSE 0) := by
  unfold hLendRelease
  rw [onFunc_pass h1 h2]
  dsimp only
  rw [hf, if_neg (by decide)]
  split
  · contradiction
  · rw [if_neg h5]

theorem hLendRomLoad_loads (id : Nat) {b : List Byte} {v : State} (hrom : (u.lf (z.f 16 1)).romEn = false)
    (hb : u.BufRead v z (z.f 24 8) 65536 b false) : hLendRomLoad id z u =
      (doneOk, (v.setLf (z.f 16 1) { v.lf (z.f 16 1) with rom := b }).config 10 15 (0x1A + z.f 16 1) ((chunks 5 8 (sm3 b)).map leNat)) := by
  unfold hLendRomLoad
  rw [onFunc_pass h1 h2, hrom, if_neg (by decide), hb.zread]

end

/-! ### Class 0x28 -/

/-- The SEQ from which the next RAS_RECORDS goes on. -/
theorem nextRecord_eq (l : List ErrRec) (d : Nat) : (match l with | r :: _ => r.seq | [] => d) = (l.head?.map (·.seq)).getD d := by
  cases l <;> rfl

/-- RAS_RECORDS writes the records from FIRST on that the buffer holds (R530). -/
theorem hRasRecords_writes (id : Nat) {z : ZCmd} {u w : State} {l : List ErrRec} (hok : u.bufOk z (z.f 24 8) (z.f 32 4) = true)
    (h64 : 64 ≤ z.f 32 4) (hmod : z.f 32 4 % 64 = 0) (hl : l = u.ras.log.filter (fun r => decide (r.seq ≥ z.f 20 4)))
    (hw : u.BufWritten w z (z.f 24 8) ((l.take (z.f 32 4 / 64)).flatMap (·.bytes (decide (u.srcOf z.qp = 3))))) :
    hRasRecords id z u = (.done 0 (leBytes 4 (l.take (z.f 32 4 / 64)).length ++
      leBytes 4 (((l.drop (z.f 32 4 / 64)).head?.map (·.seq)).getD (u.fget kRasNextseq fRasNextseq_SEQ)) ++
      leBytes 4 (u.fget kRasLogstat fRasLogstat_LOST)), w) := by
  subst hl
  unfold hRasRecords
  dsimp only
  rw [hok, if_neg (by decide), if_neg (Nat.not_lt.mpr h64), if_neg (not_not_intro hmod), hw.zwrite, ← nextRecord_eq] <;> rfl

theorem hRasUnitState_does (id : Nat) {z : ZCmd} {u : State} (h : unitNamed (z.f 17 1) (z.f 18 1) = true) : hRasUnitState id z u =
    (.done 0 ((u.unit (z.f 17 1) (z.f 18 1)).result ++ leBytes 4 ((u.unit (z.f 17 1) (z.f 18 1)).perm.getD noElem)), u) := by
  unfold hRasUnitState
  rw [h, if_neg (by decide)]

/-- A hold binds the host firmware's commands only (R531, R538). -/
theorem noHold {u : State} {z : ZCmd} {o : Option Nat} (h : u.srcOf z.qp = 2 → o = none) :
    (if u.srcOf z.qp = 2 then o else none) = none := by
  split
  · next hs => exact h hs
  · rfl

/-- RAS_RETIRE plans the retirement of a unit that may be retired (R531). -/
theorem hRasRetire_plans (id : Nat) {z : ZCmd} {u : State} (h0 : z.f 16 1 = 0) (hn : unitNamed (z.f 17 1) (z.f 18 1) = true)
    (hr : u.retirable (z.f 17 1) (z.f 18 1) = true) (hg : z.f 20 2 = (u.unit (z.f 17 1) (z.f 18 1)).gen.toNat)
    (hh : u.srcOf z.qp = 2 → u.heldUnit (z.f 17 1) (z.f 18 1) = none) :
    hRasRetire id z u = (doneOk, u.planRetire (z.f 17 1) (z.f 18 1) none) := by
  have hop : hRasRetire id z u = hRetire id z u := by unfold hRasRetire; rw [h0]; rfl
  rw [hop]
  unfold hRetire
  dsimp only
  rw [hn, if_neg (by decide), hr, if_neg (by decide), if_neg (not_not_intro hg), noHold hh]

/-- RAS_RETIRE resets a die that is still (R538). -/
theorem hRasRetire_resets (id : Nat) {z : ZCmd} {u : State} (h1 : z.f 16 1 = 1) (hd : z.f 17 1 < 12) (hb : z.f 18 1 = 0xFF)
    (hg : z.f 20 2 = (u.unit (z.f 17 1) 0xFF).gen.toNat) (hh : u.srcOf z.qp = 2 → u.heldOn (z.f 17 1) = none)
    (hs : u.dieStill (z.f 17 1) = true) {v : State} (hv : v = u.dieReset (z.f 17 1)) :
    hRasRetire id z u = (doneOk, ({ v with ras := { v.ras with
      entry := SMap.set v.ras.entry (z.f 17 1) (BitVec.ofNat 64 (z.f 24 8)) } }).fullTrainDie (z.f 17 1)) := by
  have hop : hRasRetire id z u = hDieReset id z u := by unfold hRasRetire; rw [h1]; rfl
  rw [hop]
  unfold hDieReset
  dsimp only
  rw [if_neg (by omega : ¬ (z.f 17 1 ≥ 12 ∨ z.f 18 1 ≠ 0xFF)), if_neg (not_not_intro hg), noHold hh]
  dsimp only
  rw [hs, if_neg (by decide), ← hv]

theorem hRasClear_records (id : Nat) {z : ZCmd} {u : State} (h : z.f 16 1 = 0) : hRasClear id z u =
    (doneOk, ({ u with ras := { u.ras with log := u.ras.log.filter (fun r => decide (r.seq ≥ z.f 20 4)) } }).fput kRasLogstat
      fRasLogstat_HELD (u.ras.log.filter (fun r : ErrRec => decide (r.seq ≥ z.f 20 4))).length) := by
  unfold hRasClear
  rw [h]
  rfl

theorem hRasClear_element (id : Nat) {z : ZCmd} {u : State} (h : z.f 16 1 = 1) (hp : u.ras.perm.contains (z.f 20 4) = false) :
    hRasClear id z u = (doneOk, { u with ras := { u.ras with tracked := u.ras.tracked.filter (fun p => p.1 ≠ z.f 20 4) } }) := by
  have hop : hRasClear id z u = if u.ras.perm.contains (z.f 20 4) = true then (.fail zNotPermitted 0, u)
      else (doneOk, { u with ras := { u.ras with tracked := u.ras.tracked.filter (fun p => p.1 ≠ z.f 20 4) } }) := by
    unfold hRasClear; rw [h]; rfl
  rw [hop, hp, if_neg (by decide)]

/-- Settles O47, command by command. -/
theorem lendAndRasCommandsComplete : Obligations.LendAndRasCommandsComplete := by
  refine ⟨fun s z hz => ?lend, fun s z hz => ?ras⟩
  case lend =>
    intro u done fn hfn hlt hg
    subst hfn
    refine ⟨fun hwf hr hm => ⟨fun h0 => ?clear, fun base size key a b hb hs hk h0 hbm hsm ht hd hc hfree ha hb' => ?set⟩, fun hwf => ?query,
      fun hwf => ?freeze, fun hwf => ⟨fun hf => ?relOpen, fun hf h6 h5 => ?relFrozen⟩, fun hwf hrom b v hb => ?rom⟩
    case clear => exact completes_done (h := hLendSetRange) (f := lendSetRangeRun z) hwf hz rfl rfl (hLendSetRange_clears hlt hg _ hr hm h0)
    case set =>
      subst hb hs hk
      exact completes_done (h := hLendSetRange) (f := lendSetRangeRun z) hwf hz rfl rfl
        (hLendSetRange_stores hlt hg _ hr hm h0 hbm hsm ht hd hc hfree ha hb')
    case query => exact completes_done (h := hLendQuery) (f := lendQueryRun z) hwf hz rfl rfl (hLendQuery_does hlt hg _)
    case freeze => exact completes_done (h := hLendFreeze) (f := lendFreezeRun z) hwf hz rfl rfl (hLendFreeze_does hlt hg _)
    case relOpen => exact completes_done (h := hLendRelease) (f := lendReleaseRun z) hwf hz rfl rfl (hLendRelease_open hlt hg _ hf)
    case relFrozen => exact completes_done (h := hLendRelease) (f := lendReleaseRun z) hwf hz rfl rfl (hLendRelease_frozen hlt hg _ hf h6 h5)
    case rom => exact completes_done (h := hLendRomLoad) (f := lendRomLoadRun z) hwf hz rfl rfl (hLendRomLoad_loads hlt hg _ hrom hb)
  case ras =>
    refine ⟨fun hwf hok h64 hmod w hw => ?records, fun hwf hn => ?unit, fun hwf h0 hn hr hg hh => ?retire,
      fun hwf hd hb hg hh hs v hv => ?reset, fun hwf h0 => ?clearRecords, fun hwf hp => ?clearElement⟩
    case records => exact completes_done (h := hRasRecords) (f := rasRecordsRun z) hwf hz rfl rfl (hRasRecords_writes _ hok h64 hmod rfl hw)
    case unit => exact completes_done (h := hRasUnitState) (f := rasUnitStateRun z) hwf hz rfl rfl (hRasUnitState_does _ hn)
    case retire => exact completes_done (h := hRasRetire) (f := rasRetireRun z) hwf hz rfl rfl (hRasRetire_plans _ h0 hn hr hg hh)
    case reset =>
      exact completes_done (h := hRasRetire) (f := rasRetireDieResetRun z) hwf hz rfl rfl
        (hRasRetire_resets _ (isOp_field hwf) hd hb hg hh hs hv)
    case clearRecords => exact completes_done (h := hRasClear) (f := rasClearRecordsRun z) hwf hz rfl rfl (hRasClear_records _ h0)
    case clearElement =>
      exact completes_done (h := hRasClear) (f := rasClearElementRun z) hwf hz rfl rfl (hRasClear_element _ (isOp_field hwf) hp)

end Sys2Proof.Machine
end

section
/-! SUPPORT.
The checks that come before every ZCI command (R394–R400, R407). -/

namespace Sys2Proof.Machine

/-! ### The rows of the ZCI -/

/-- A command of class 0x20 is taken along the service firmware's path. -/
theorem zpath_power {z : ZCmd} {op : Nat} (h : z.is op = true) (hop : op ∈ [0x2001, 0x2002, 0x2003, 0x2004]) : zpath z 2 = true := by
  unfold zpath
  rw [ZCmd.is_opcode h]
  simp only [List.mem_cons, List.not_mem_nil, or_false] at hop
  rcases hop with rfl | rfl | rfl | rfl <;> rfl

/-- Every row of the ZCI performs its command with a handler of its own, those of class 0x20 by `zfirm`. -/
theorem zciRow_shape {c : Instr} {z : ZCmd} (h : zciRowOf c = some z) (hwf : c.wf = true) :
    ∃ f hd, (∀ s, exec c s = runs c.wf f s) ∧ ((∀ s, f s = s.ztake hd z) ∨ (zpath z 2 = true ∧ ∀ s, f s = s.zfirm hd z)) := by
  cases c
  all_goals cases h
  case pwrQuery => exact ⟨_, _, fun _ => rfl, .inr ⟨zpath_power hwf (by decide), fun _ => rfl⟩⟩
  case pwrSetLimit => exact ⟨_, _, fun _ => rfl, .inr ⟨zpath_power hwf (by decide), fun _ => rfl⟩⟩
  case pwrSetMaxps => exact ⟨_, _, fun _ => rfl, .inr ⟨zpath_power (ZCmd.isFirst_is hwf) (by decide), fun _ => rfl⟩⟩
  case pwrSetTarget => exact ⟨_, _, fun _ => rfl, .inr ⟨zpath_power (ZCmd.isOp_is hwf) (by decide), fun _ => rfl⟩⟩
  case park => exact ⟨_, _, fun _ => rfl, .inr ⟨zpath_power (ZCmd.isOp_is hwf) (by decide), fun _ => rfl⟩⟩
  case unpark => exact ⟨_, _, fun _ => rfl, .inr ⟨zpath_power (ZCmd.isOp_is hwf) (by decide), fun _ => rfl⟩⟩
  case grcReadSensors => exact ⟨_, _, fun _ => rfl, .inr ⟨zpath_power (ZCmd.isFirst_is hwf) (by decide), fun _ => rfl⟩⟩
  case grcReadWearLog => exact ⟨_, _, fun _ => rfl, .inr ⟨zpath_power (ZCmd.isOp_is hwf) (by decide), fun _ => rfl⟩⟩
  all_goals exact ⟨_, _, fun _ => rfl, .inl fun _ => rfl⟩

/-- A row of the ZCI whose command is not already accepted takes it. -/
theorem zciRow_takes {c : Instr} {z : ZCmd} {s : State} (h : zciRowOf c = some z) (hwf : c.wf = true)
    (hnew : zpath z 2 = true → ∀ o, o ∈ s.zciFlush.zci.outs → o.z ≠ z) :
    ∃ f hd, exec c s = runs c.wf f s ∧ f s = s.ztake hd z := by
  obtain ⟨f, hd, he, hf⟩ := zciRow_shape h hwf
  refine ⟨f, hd, he s, ?_⟩
  rcases hf with hf | ⟨hp, hf⟩
  · exact hf s
  · rw [hf, zfirm_fresh s hd z (hnew hp)]

/-! ### The checks -/

theorem ztake_busy (s : State) (h : Handler) (z : ZCmd) (hr : s.zciFlush.pairRuns z.qp = true) (h0 : z.qp = 0)
    (hb : s.zciFlush.boot.warm = true ∨ s.zciFlush.zci.outs.any (fun o => o.z.qp = 0) = true) :
    s.ztake h z = (s.zciFlush.queueRep z zBusy 0 [] true).zciFlush := by
  have hmail : (decide (z.qp = 0) && (s.zciFlush.boot.warm || s.zciFlush.zci.outs.any fun o => decide (o.z.qp = 0))) = true := by
    rw [decide_eq_true h0, Bool.true_and, Bool.or_eq_true]
    exact hb
  unfold State.ztake
  dsimp only
  rw [hr, if_neg (by decide), if_pos hmail]

section
variable {s : State} {z : ZCmd}

theorem zcheck_version (h : z.f 5 1 ≠ 1) : s.zcheck z = some (zBadParam, dVersion) := if_pos h

theorem zcheck_reserved (hv : z.f 5 1 = 1) (h : z.flags ≥ 8 ∨ z.f 8 8 ≠ 0 ∨ z.f 6 2 ≥ 4096) :
    s.zcheck z = some (zBadParam, dReserved) := (if_neg (not_not_intro hv)).trans (if_pos h)

theorem zcheck_source (hv : z.f 5 1 = 1) (hr : ¬ (z.flags ≥ 8 ∨ z.f 8 8 ≠ 0 ∨ z.f 6 2 ≥ 4096)) {p : Nat} {l : List Nat} {w : Bool}
    (ho : opInfo (z.f 0 2) = some (p, l, w)) (hl : l.contains (s.srcOf z.qp) = false) :
    s.zcheck z = some (zNotPermitted, dSource) := by
  unfold State.zcheck
  dsimp only
  rw [if_neg (not_not_intro hv), if_neg hr, ho]
  dsimp only
  rw [hl, if_pos (by decide)]

end

/-- Settles O42: every row takes its command by `ztake`, whose steps come in this order. -/
theorem zciChecksComeFirst : Obligations.ZciChecksComeFirst := by
  intro s c z hrow hwf hs hr hnew
  obtain ⟨f, hd, he, hf⟩ := zciRow_takes hrow hwf hnew
  refine ⟨fun h0 hb => ?busy, fun hmail => ?taken⟩
  case busy => exact completes_with he hwf hs (hf.trans (ztake_busy s hd z hr h0 hb))
  case taken =>
    intro fails
    have hfails : ∀ st d, s.zciFlush.zcheck z = some (st, d) → fails st d := fun st d hc =>
      completes_with he hwf hs (hf.trans (ztake_failed s hd z hr hmail st d hc))
    refine ⟨fun hv => hfails _ _ (zcheck_version hv), fun hv hres => hfails _ _ (zcheck_reserved hv hres),
      fun hv hres p l w ho hl => hfails _ _ (zcheck_source hv hres ho hl), hfails, fun hc => ⟨fun hh => ?held, fun hh hk => ?chain⟩⟩
    case held => exact completes_with he hwf hs (hf.trans (ztake_held s hd z ⟨hs, hr, hmail, hc⟩ hh))
    case chain => exact completes_with he hwf hs (hf.trans (ztake_chain s hd z ⟨hs, hr, hmail, hc⟩ hh hk))

end Sys2Proof.Machine
end

section
/-! SUPPORT.
The commands of class 0x20 (Table 17-6). -/

namespace Sys2Proof.Machine

/-! ### PWR_QUERY and PWR_SET_LIMIT -/

theorem hPwrQuery_results (id : Nat) {z : ZCmd} {u : State} (h : z.f 32 4 = 0) : hPwrQuery id z u = (.done 0 u.pwrResult, u) := if_pos h

theorem hPwrQuery_writes (id : Nat) {z : ZCmd} {u w : State} (h : 208 ≤ z.f 32 4)
    (hw : u.pwrRecords.2.BufWritten w z (z.f 24 8) u.pwrRecords.1) : hPwrQuery id z u = (.done 0 u.pwrResult, w) := by
  unfold hPwrQuery
  dsimp only
  rw [if_neg (by omega), if_neg (Nat.not_lt.mpr h), hw.zwrite]

theorem hPwrLimit_does (id : Nat) {z : ZCmd} {u : State} (h1 : 100 ≤ z.f 16 2) (h2 : z.f 16 2 ≤ 640) (h3 : z.f 16 2 ≤ z.f 18 2)
    (h4 : z.f 18 2 ≤ 800) (h5 : 10 ≤ z.f 20 4) (h6 : z.f 20 4 ≤ 10000) : hPwrLimit id z u =
      (doneOk, ((u.fput kPwrLimit fPwrLimit_PL1 (z.f 16 2)).fput kPwrLimit fPwrLimit_PL2 (z.f 18 2)).fput kPwrLimit fPwrLimit_TAU (z.f 20 4)) :=
  if_neg (by omega)

/-! ### PWR_SET_STATE -/

/-- OP 0 sets the deepest package state. -/
theorem hPwrState_maxps (id : Nat) {z : ZCmd} {u : State} (h : z.f 16 1 = 0) (hm : z.f 18 1 ≤ 2) :
    hPwrState id z u = (doneOk, u.fput kPwrPkg fPwrPkg_MAXPS (z.f 18 1)) := by
  unfold hPwrState
  rw [h]
  exact if_neg (Nat.not_lt.mpr hm)

/-- OP 1 sets the target of a die, which is evaluated. -/
theorem hPwrState_target (id : Nat) {z : ZCmd} {u : State} (h : z.f 16 1 = 1) (hd : z.f 17 1 < 12) (hlo : 32 ≤ z.f 20 2)
    (hhi : z.f 20 2 ≤ 168) : hPwrState id z u =
      (doneOk, (u.fput (kClkCdctl (z.f 17 1)) fClkCdctl_TARGET (z.f 20 2)).pwrEval (z.f 17 1)) := by
  unfold hPwrState
  rw [h]
  exact if_neg (by omega)

/-- A die without holds whose cores are all in C6 is parked (R506). -/
theorem State.park_parks {u : State} {z : ZCmd} {d : Nat} (hh : u.heldOn d = none) (hc : (dieCores d).all (u.coreDeep 3) = true) :
    u.park z d = (doneOk, (if u.dstate d = 2 then u else u.dieSleep d).fput (kPwrDctl d) fPwrDctl_PARKED 1) := by
  unfold State.park
  rw [hh]
  dsimp only
  rw [hc, if_neg (by decide)]

theorem hPwrState_park (id : Nat) {z : ZCmd} {u : State} (h : z.f 16 1 = 2) (hd : z.f 17 1 < 12) :
    hPwrState id z u = u.park z (z.f 17 1) := by
  unfold hPwrState
  rw [h]
  exact if_neg (by omega)

theorem hPwrState_unpark (id : Nat) {z : ZCmd} {u : State} (h : z.f 16 1 = 3) (hd : z.f 17 1 < 12) :
    hPwrState id z u = (doneOk, u.unpark (z.f 17 1)) := by
  unfold hPwrState
  rw [h]
  exact if_neg (by omega)

theorem State.unpark_idle {u : State} {d : Nat} (h : u.parked d = false) : u.unpark d = u := by
  unfold State.unpark
  rw [h, if_pos (by decide)]

section
variable {u : State} {d : Nat} (h : u.parked d = true)
include h

theorem State.unpark_out (ho : (u.fput (kPwrDctl d) fPwrDctl_PARKED 0).dieOut d = true) :
    u.unpark d = u.fput (kPwrDctl d) fPwrDctl_PARKED 0 := by
  unfold State.unpark
  dsimp only
  rw [h, if_neg (by decide), if_pos ho]

/-- A die in service that is unparked wakes, and each of its cores acts on what it waits for (R506). -/
theorem State.unpark_wakes (ho : (u.fput (kPwrDctl d) fPwrDctl_PARKED 0).dieOut d = false) :
    u.unpark d = ((u.fput (kPwrDctl d) fPwrDctl_PARKED 0).dieRouse d [(9, d)]).each (dieCores d) (fun s n => coreWakeRun n s) := by
  unfold State.unpark
  dsimp only
  rw [h, if_neg (by decide), ho, if_neg (by decide)]

end

/-! ### GRC_READ -/

/-- The bytes of GRC_READ, and the state in which they were read. -/
def State.grcBytes (u : State) (op : Nat) : List Byte × State := if op = 0 then (u.sensors, u) else u.wearLog

theorem hGrcRead_writes (id : Nat) {z : ZCmd} {u w : State} {op : Nat} {b : List Byte × State} (hop : z.f 16 1 = op) (h1 : op ≤ 1)
    (hb : u.grcBytes op = b) (hok : u.bufOk z (z.f 24 8) (z.f 32 4) = true) (hlen : b.1.length ≤ z.f 32 4)
    (hw : b.2.BufWritten w z (z.f 24 8) b.1) : hGrcRead id z u = (.done 0 (leBytes 4 b.1.length), w) := by
  unfold hGrcRead
  dsimp only
  rw [hop, if_neg (Nat.not_lt.mpr h1), hok, if_neg (by decide), ← State.grcBytes, hb, if_neg (Nat.not_lt.mpr hlen), hw.zwrite]

/-- Settles O52, command by command. -/
theorem powerCommandsComplete : Obligations.PowerCommandsComplete := by
  intro s z u e hz
  refine ⟨fun hwf => ⟨fun h0 => ?query, fun w hl hw => ?records⟩, fun pl1 pl2 tau hwf e1 e2 e3 h1 h2 h3 h4 h5 h6 => ?limit,
    fun hwf h0 hm => ?maxps, fun hwf hd hlo hhi => ?target, fun hwf hd hh hc => ?park, fun hwf hd => ?unpark,
    fun hok w => ⟨fun hwf h0 hl hw => ?sensors, fun hwf hl hw => ?wear⟩⟩
  case query => exact completes_firm (h := hPwrQuery) (f := pwrQueryRun z) hz hwf rfl rfl fun id => hPwrQuery_results id h0
  case records => exact completes_firm (h := hPwrQuery) (f := pwrQueryRun z) hz hwf rfl rfl fun id => hPwrQuery_writes id hl hw
  case limit =>
    subst e1 e2 e3
    exact completes_firm (h := hPwrLimit) (f := pwrSetLimitRun z) hz hwf rfl rfl fun id => hPwrLimit_does id h1 h2 h3 h4 h5 h6
  case maxps => exact completes_firm (h := hPwrState) (f := pwrSetMaxpsRun z) hz hwf rfl rfl fun id => hPwrState_maxps id h0 hm
  case target =>
    exact completes_firm (h := hPwrState) (f := pwrSetTargetRun z) hz hwf rfl rfl fun id => hPwrState_target id (isOp_field hwf) hd hlo hhi
  case park =>
    exact completes_firm (h := hPwrState) (f := parkRun z) hz hwf rfl rfl fun id =>
      (hPwrState_park id (isOp_field hwf) hd).trans (State.park_parks hh hc)
  case unpark =>
    have hdone : ∀ v, u.unpark (z.f 17 1) = v → Completes (.unpark z) s fun t => t = { e v [] with pending := s.pending } := fun v hv =>
      completes_firm (h := hPwrState) (f := unparkRun z) hz hwf rfl rfl fun id => hv ▸ hPwrState_unpark id (isOp_field hwf) hd
    refine ⟨fun hp => hdone _ (State.unpark_idle hp), fun hp v hv => ?_⟩
    subst hv
    exact ⟨fun ho => hdone _ (State.unpark_out hp ho), fun ho => hdone _ (State.unpark_wakes hp ho)⟩
  case sensors =>
    exact completes_firm (h := hGrcRead) (f := grcReadSensorsRun z) hz hwf rfl rfl fun id => hGrcRead_writes id h0 (by decide) (if_pos rfl) hok hl hw
  case wear =>
    exact completes_firm (h := hGrcRead) (f := grcReadWearLogRun z) hz hwf rfl rfl fun id =>
      hGrcRead_writes id (isOp_field hwf) (by decide) (if_neg (by decide)) hok hl hw

end Sys2Proof.Machine
end

section
/-! SUPPORT.
Scratch memory (R428, R482–R492): what an access does at its word, and the states of the banks. -/

namespace Sys2Proof.Machine

/-! ### An access at its word -/

section
variable {u : State} {a : ScratchAccess}

theorem ssmWordOp_read (h : a.amo = none) (hw : a.write = false) : u.ssmWordOp a =
    ((BitVec.ofNat 64 (fieldAt (u.ssmWord (a.offset / 8)) (a.offset % 8) a.size), u.ssmPoison (a.offset / 8)), u) := by
  unfold State.ssmWordOp
  rw [h]
  dsimp only
  rw [hw, if_neg (by decide)]

theorem ssmWordOp_writeWord (h : a.amo = none) (hw : a.write = true) (hs : a.size = 8) :
    u.ssmWordOp a = ((0, false), u.setSsm (a.offset / 8) a.data false) := by
  unfold State.ssmWordOp
  rw [h]
  dsimp only
  rw [if_pos hw, if_pos hs]

theorem ssmWordOp_writePart (h : a.amo = none) (hw : a.write = true) (hs : a.size ≠ 8) (hp : u.ssmPoison (a.offset / 8) = false) :
    u.ssmWordOp a = ((0, false), u.setSsm (a.offset / 8)
      (setAt (u.ssmWord (a.offset / 8)) (a.offset % 8) a.size a.data.toNat) false) := by
  unfold State.ssmWordOp
  rw [h]
  dsimp only
  rw [if_pos hw, if_neg hs, hp, if_neg (by decide)]

/-- A partial write of a poisoned word is dropped and recorded (R485). -/
theorem ssmWordOp_writePoisoned (h : a.amo = none) (hw : a.write = true) (hs : a.size ≠ 8) (hp : u.ssmPoison (a.offset / 8) = true) :
    u.ssmWordOp a = ((0, false), u.ssmErr a.sp.isNone a.offset (ssmDark a)) := by
  unfold State.ssmWordOp
  rw [h]
  dsimp only
  rw [if_pos hw, if_neg hs, if_pos hp]

/-- ADD and SWAP return the old value and store theirs (R488). -/
theorem ssmWordOp_atomic {op : AmoOp} (h : a.amo = some op) (hop : op = .add ∨ op = .swap) (hp : u.ssmPoison (a.offset / 8) = false) :
    u.ssmWordOp a = ((BitVec.ofNat 64 (fieldAt (u.ssmWord (a.offset / 8)) (a.offset % 8) a.size), false),
      (u.setSsm (a.offset / 8) (setAt (u.ssmWord (a.offset / 8)) (a.offset % 8) a.size
        (amoCompute op a.size (fieldAt (u.ssmWord (a.offset / 8)) (a.offset % 8) a.size) a.data.toNat 0)) false).evtW (ssmDark a) 4 3) := by
  unfold State.ssmWordOp
  rw [h]
  exact if_pos ⟨hop, hp⟩

/-- Any other atomic, or one of a poisoned word, changes nothing (R485, R488). -/
theorem ssmWordOp_atomicIdle {op : AmoOp} (h : a.amo = some op) (hop : (op ≠ .add ∧ op ≠ .swap) ∨ u.ssmPoison (a.offset / 8) = true) :
    u.ssmWordOp a = ((BitVec.ofNat 64 (fieldAt (u.ssmWord (a.offset / 8)) (a.offset % 8) a.size), u.ssmPoison (a.offset / 8)), u) := by
  unfold State.ssmWordOp
  rw [h]
  refine if_neg ?_
  rintro ⟨ho, hp⟩
  rcases hop with ⟨h1, h2⟩ | hop
  · exact ho.elim h1 h2
  · rw [hp] at hop; exact absurd hop (by decide)

end

/-! ### An access that waits, loses its turn or is refused -/

section
variable {s : State} {a : ScratchAccess} (ha : a.wf = true) (hs : s.stopped = false)
include ha hs

theorem scratchAccess_wiping (h : s.ssm.wiping = true) : Completes (.scratchAccess a) s fun t =>
    t = { s with ssm := { s.ssm with waiting := s.ssm.waiting ++ [a] } } :=
  completes_run' (f := scratchAccessRun a) ha hs (if_pos h) rfl

variable (h1 : s.ssm.wiping = false)
include h1

theorem scratchAccess_asleep (h : s.bankState (ssmBank a.offset) ≠ 0) {u : State} (hu : u = s.ssmWake (ssmBank a.offset)) :
    Completes (.scratchAccess a) s fun t => t = { u with ssm := { u.ssm with waiting := u.ssm.waiting ++ [a] }, pending := s.pending } := by
  refine completes_with (f := scratchAccessRun a) (u := { u with ssm := { u.ssm with waiting := u.ssm.waiting ++ [a] } }) rfl ha hs ?_
  unfold scratchAccessRun
  dsimp only
  rw [h1, if_neg (by decide), if_pos h, ← hu]

variable (h2 : s.bankState (ssmBank a.offset) = 0)
include h2

theorem scratchAccess_loses (h : s.ssmGrants a = false) : Completes (.scratchAccess a) s fun t => t = s := by
  refine completes_run' (f := scratchAccessRun a) (t := s) ha hs ?_ rfl
  unfold scratchAccessRun
  dsimp only
  rw [h1, if_neg (by decide), if_neg (not_not_intro h2), h, if_neg (by decide)]

/-- An access that R428 refuses returns zero, and the refusal is counted and held. -/
theorem scratchAccess_refused (h3 : s.ssmGrants a = true) {g : State} (hg : g = s.ssmTurn a)
    (hd : g.ssmDenied (decide (a.sp = some 0)) (ssmDark a) a.offset = true) : Completes (.scratchAccess a) s fun t =>
      t = { (g.wldRefuse (a.write || a.amo.isSome) 1 (if a.sp.isNone then 3 else 2) (a.sp.getD 0) (a.offset / 64)).emit
        (.scratch (a.sp.getD 4) a.offset 0 false) with pending := s.pending } :=
  scratch_served ha hs h1 h2 h3 hg (r := ((0, false), _)) (if_pos hd)

end

/-! ### The states of a bank (R492) -/

section
variable {s : State} (hs : s.stopped = false)
include hs

theorem correctedWordWriteback_completes {off : Nat} (hlt : off < 33554432) (h8 : off % 8 = 0) : Completes (.correctedWordWriteback off) s fun t =>
    t = { s with ssm := { s.ssm with pendingWb := s.ssm.pendingWb.filter (fun o => o ≠ off) } } := by
  refine completes_run' (f := correctedWordWritebackRun off) (decide_eq_true ⟨hlt, h8⟩) hs
    (t := { s with ssm := { s.ssm with pendingWb := s.ssm.pendingWb.filter (fun o => o ≠ off) } }) ?_ rfl
  unfold correctedWordWritebackRun
  rw [Nat.div_mul_cancel (Nat.dvd_of_mod_eq_zero h8)]

variable {b : Nat} (hb : b < 64)
include hb

theorem bankRetentionEntry_enters (ha : s.fon kSsmPwrctl fSsmPwrctl_AUTO = true) (h0 : s.bankState b = 0) :
    Completes (.bankRetentionEntry b) s fun t => t = s.setBank b 1 := by
  refine completes_run' (f := bankRetentionEntryRun b) (decide_eq_true hb) hs (if_pos ?_) rfl
  rw [ha, decide_eq_true h0]
  rfl

theorem bankRetentionEntry_stays (h : s.fon kSsmPwrctl fSsmPwrctl_AUTO = false ∨ s.bankState b ≠ 0) :
    Completes (.bankRetentionEntry b) s fun t => t = s := by
  refine completes_run' (f := bankRetentionEntryRun b) (t := s) (decide_eq_true hb) hs (if_neg ?_) rfl
  rw [Bool.and_eq_true, decide_eq_true_iff]
  rintro ⟨ha, h0⟩
  exact h.elim (fun h => absurd (ha.symm.trans h) (by decide)) fun h => h h0

theorem bankWake_idle (h : s.bankState b = 0 ∨ b ∉ s.ssm.waking) : Completes (.bankWake b) s fun t => t = s := by
  refine completes_run' (f := bankWakeRun b) (t := s) (decide_eq_true hb) hs (if_pos ?_) rfl
  simpa using h

/-- A bank that wakes is ON, and serves in order what waited for it. -/
theorem bankWake_serves (h0 : s.bankState b ≠ 0) (hw : b ∈ s.ssm.waking) {mine : List ScratchAccess} {dark : Bool} {u v : State}
    (hmine : mine = s.ssm.waiting.filter (fun a => ssmBank a.offset = b)) (hdark : dark = (!mine.isEmpty && mine.all ssmDark))
    (hu : u = (if s.bankState b = 2 then (s.wipeBank b).evtW dark 4 5 else s.evtW dark 4 4).setBank b 0)
    (hv : v = { u with ssm := { u.ssm with waking := u.ssm.waking.filter (fun x => x ≠ b),
                                           waiting := u.ssm.waiting.filter (fun a => ssmBank a.offset ≠ b) } }) :
    Completes (.bankWake b) s fun t => t = { v.each mine State.ssmPerform with pending := s.pending } := by
  refine completes_with (f := bankWakeRun b) rfl (decide_eq_true hb) hs ?_
  unfold bankWakeRun
  dsimp only
  rw [if_neg (by simpa using ⟨h0, hw⟩), ← hmine, ← hdark, ← hu, ← hv]

end

/-- Settles O54, case by case of an access and of a bank's state. -/
theorem scratchBanksServe : Obligations.ScratchBanksServe := by
  intro s hs
  refine ⟨fun a ha => ?access, setSsm_words s, fun off hlt h8 => correctedWordWriteback_completes hs hlt h8, fun b hb => ?bank⟩
  case access =>
    refine ⟨scratchAccess_wiping ha hs, fun h1 h2 u hu => scratchAccess_asleep ha hs h1 h2 hu, scratchAccess_loses ha hs,
      fun h1 h2 h3 g y hg hy => ⟨fun hd => ?refused, fun hd u w old p lo hu hw hold hp hlo => ?served⟩⟩
    case refused => rw [hy]; exact scratchAccess_refused ha hs h1 h2 h3 hg hd
    case served =>
      subst hw hold hp hlo
      have hop := @scratch_op_served s a ha hs h1 h2 h3 g u
      refine ⟨fun h hw => ?read, fun h hw h8 => ?word, fun h hw h8 hp => ?part, fun h hw h8 hp => ?poisoned, fun op h ho hp => ?atomic,
        fun op h ho => ?idle⟩
      case read => rw [hy]; exact hop hg hd hu (ssmWordOp_read h hw)
      case word => rw [hy]; exact hop hg hd hu (ssmWordOp_writeWord h hw h8)
      case part => rw [hy]; exact hop hg hd hu (ssmWordOp_writePart h hw h8 hp)
      case poisoned => rw [hy]; exact hop hg hd hu (ssmWordOp_writePoisoned h hw h8 hp)
      case atomic => rw [hy]; exact hop hg hd hu (ssmWordOp_atomic h ho hp)
      case idle => rw [hy]; exact hop hg hd hu (ssmWordOp_atomicIdle h ho)
  case bank =>
    exact ⟨bankRetentionEntry_enters hs hb, bankRetentionEntry_stays hs hb, bankWake_idle hs hb,
      fun h0 hw mine dark u v hm hd hu hv => bankWake_serves hs hb h0 hw hm hd hu hv⟩

end Sys2Proof.Machine
end

section
/-! SUPPORT.
Rails, clock hops, caps, monitors and Bracketing (R497–R517). -/

namespace Sys2Proof.Machine

/-! ### Rails and clock hops (R498–R500) -/

section
variable {s : State} (hs : s.stopped = false) {r : Nat}
include hs

/-- A raised rail goes on to the clock hop, unless the point is the IOD's, the present one or that of a stopped clock. -/
theorem avsbusComplete_raised (hr : r < 13) {n g : Nat} {u : State} (hx : (s.rail r).trans = .raising n g)
    (hu : u = (s.setVolt r (s.rail r).target).setRail r { s.rail r with expiries := 0 }) : Completes (.avsbusComplete r) s fun t =>
      t = { (if r = railIod ∨ n = u.neff r ∨ u.dieDark r = true then (u.setTrans r .idle).pwrEval r else u.setTrans r (.hopUp n g))
        with pending := s.pending } := by
  refine completes_with (f := avsbusCompleteRun r) rfl (decide_eq_true hr) hs ?_
  unfold avsbusCompleteRun
  simp only [hu, hx]

theorem avsbusComplete_lowered (hr : r < 13) {n g : Nat} {u : State} (hx : (s.rail r).trans = .lowering n g)
    (hu : u = (s.setVolt r (s.rail r).target).setRail r { s.rail r with expiries := 0 }) : Completes (.avsbusComplete r) s fun t =>
      t = { (u.setTrans r .idle).pwrEval r with pending := s.pending } := by
  refine completes_with (f := avsbusCompleteRun r) rfl (decide_eq_true hr) hs ?_
  unfold avsbusCompleteRun
  simp only [hu, hx]

/-- A completion or an expiry of a rail with no AVSBus command under way does nothing. -/
theorem avsbus_idle (hr : r < 13) (hx : ∀ n g, (s.rail r).trans ≠ .raising n g ∧ (s.rail r).trans ≠ .lowering n g) :
    Completes (.avsbusComplete r) s (fun t => t = s) ∧ Completes (.avsbusTimeout r) s fun t => t = s := by
  have hnone : avsbusCompleteRun r s = s ∧ avsbusTimeoutRun r s = s := by
    unfold avsbusCompleteRun avsbusTimeoutRun
    dsimp only
    cases h : (s.rail r).trans
    case raising n g => exact absurd h (hx n g).1
    case lowering n g => exact absurd h (hx n g).2
    all_goals exact ⟨rfl, rfl⟩
  exact ⟨completes_run' (f := avsbusCompleteRun r) (decide_eq_true hr) hs hnone.1 rfl,
    completes_run' (f := avsbusTimeoutRun r) (decide_eq_true hr) hs hnone.2 rfl⟩

/-- The third expiry in a row on a compute-die rail loses the die; after any other the point is evaluated again (R500). -/
theorem avsbusTimeout_expires (hr : r < 13) {n g : Nat} (hx : (s.rail r).trans = .raising n g ∨ (s.rail r).trans = .lowering n g)
    {u : State} (hu : u = s.avsExpire r) : Completes (.avsbusTimeout r) s fun t =>
      t = { (if r < 12 ∧ (u.rail r).expiries ≥ 3 then u.railLost r else u.pwrEval r) with pending := s.pending } := by
  refine completes_with (f := avsbusTimeoutRun r) rfl (decide_eq_true hr) hs ?_
  unfold avsbusTimeoutRun
  rcases hx with hx | hx <;> rw [hx, hu]

theorem clockHopComplete_up (hr : r < 12) {n g : Nat} (hx : (s.rail r).trans = .hopUp n g) : Completes (.clockHopComplete r) s fun t =>
    t = { ((s.hopTo r n).setTrans r .idle).pwrEval r with pending := s.pending } := by
  refine completes_with (f := clockHopCompleteRun r) rfl (decide_eq_true hr) hs ?_
  unfold clockHopCompleteRun
  rw [hx]

theorem clockHopComplete_down (hr : r < 12) {n g : Nat} (hx : (s.rail r).trans = .hopDown n g) : Completes (.clockHopComplete r) s fun t =>
    t = { (((s.hopTo r n).setGuard r g).setTrans r .idle).pwrEval r with pending := s.pending } := by
  refine completes_with (f := clockHopCompleteRun r) rfl (decide_eq_true hr) hs ?_
  unfold clockHopCompleteRun
  rw [hx]

theorem clockHopComplete_idle (hr : r < 12) (hx : ∀ n g, (s.rail r).trans ≠ .hopUp n g ∧ (s.rail r).trans ≠ .hopDown n g) :
    Completes (.clockHopComplete r) s fun t => t = s := by
  have hnone : clockHopCompleteRun r s = s := by
    unfold clockHopCompleteRun
    cases h : (s.rail r).trans
    case hopUp n g => exact absurd h (hx n g).1
    case hopDown n g => exact absurd h (hx n g).2
    all_goals rfl
  exact completes_run' (f := clockHopCompleteRun r) (decide_eq_true hr) hs hnone rfl

/-! ### Caps (R502, R503) -/

/-- The state in which the averages of a power sample stand. -/
def State.powerSampled (s : State) (m1 mt : Nat) : State :=
  ({ s with pwr := { s.pwr with mw1 := m1, mwTau := mt } }).fput kPwrPkg fPwrPkg_POWER (min m1 (2 ^ 32 - 1))

/-- The time from which NCAP may rise begins anew. -/
def State.ncapMark (s : State) : State := { s with pwr := { s.pwr with ncapAt := s.time } }

/-- The time from which TCAP of a die may rise begins anew. -/
def State.tcapMark (s : State) (d : Nat) : State := { s with pwr := { s.pwr with tcapAt := SMap.put (fun _ => 0) s.pwr.tcapAt d s.time } }

section
variable {m1 mt : Nat} {u : State} (hu : u = s.powerSampled m1 mt)
include hu

omit hs in
/-- What a power sample does once its averages are stored (R502). -/
theorem powerManagerSampleRun_eq : powerManagerSampleRun m1 mt s =
    if mt > u.pl1 * 1000 ∨ m1 > u.pl2 * 1000 then
      (if max 32 (u.fget kPwrPkg fPwrPkg_NCAP - 4) = u.fget kPwrPkg fPwrPkg_NCAP then u.ncapMark
        else (u.setNcap (max 32 (u.fget kPwrPkg fPwrPkg_NCAP - 4))).ncapMark.evt 15 5 4).pwrEvalAll
    else if mt * 100 < u.pl1 * 95000 ∧ m1 * 100 < u.pl2 * 95000 then
      if u.time ≥ u.pwr.ncapAt + 1000000 then (u.setNcap (min 168 (u.fget kPwrPkg fPwrPkg_NCAP + 1))).ncapMark.pwrEvalAll else u
    else u.ncapMark := by
  subst hu
  rfl

omit hu in
theorem completes_power {v : State} (h : powerManagerSampleRun m1 mt s = v) :
    Completes (.powerManagerSample m1 mt) s fun t => t = { v with pending := s.pending } :=
  completes_with (f := powerManagerSampleRun m1 mt) rfl rfl hs h

/-- Above a limit NCAP falls by 4, no lower than 32. -/
theorem powerManagerSample_above (h : mt > u.pl1 * 1000 ∨ m1 > u.pl2 * 1000) :
    (max 32 (u.fget kPwrPkg fPwrPkg_NCAP - 4) = u.fget kPwrPkg fPwrPkg_NCAP → Completes (.powerManagerSample m1 mt) s fun t =>
      t = { u.ncapMark.pwrEvalAll with pending := s.pending }) ∧
    (max 32 (u.fget kPwrPkg fPwrPkg_NCAP - 4) ≠ u.fget kPwrPkg fPwrPkg_NCAP → ∀ w, w = u.setNcap (max 32 (u.fget kPwrPkg fPwrPkg_NCAP - 4)) →
      Completes (.powerManagerSample m1 mt) s fun t => t = { (w.ncapMark.evt 15 5 4).pwrEvalAll with pending := s.pending }) := by
  have heq := powerManagerSampleRun_eq hu
  rw [if_pos h] at heq
  refine ⟨fun he => completes_power hs ?_, fun he w hw => completes_power hs ?_⟩
  · rw [heq, if_pos he]
  · rw [heq, if_neg he, hw]

/-- Below 95 per cent of both limits NCAP rises by 1 once 1 ms has passed. -/
theorem powerManagerSample_below (h1 : mt * 100 < u.pl1 * 95000) (h2 : m1 * 100 < u.pl2 * 95000) :
    (u.time < u.pwr.ncapAt + 1000000 → Completes (.powerManagerSample m1 mt) s fun t => t = { u with pending := s.pending }) ∧
    (u.pwr.ncapAt + 1000000 ≤ u.time → ∀ w, w = u.setNcap (min 168 (u.fget kPwrPkg fPwrPkg_NCAP + 1)) →
      Completes (.powerManagerSample m1 mt) s fun t => t = { w.ncapMark.pwrEvalAll with pending := s.pending }) := by
  have heq := powerManagerSampleRun_eq hu
  rw [if_neg (by omega), if_pos ⟨h1, h2⟩] at heq
  refine ⟨fun ht => completes_power hs ?_, fun ht w hw => completes_power hs ?_⟩
  · rw [heq, if_neg (Nat.not_le.mpr ht)]
  · rw [heq, if_pos ht, hw]

/-- Between the thresholds NCAP stands, and the 1 ms begins anew. -/
theorem powerManagerSample_between (h1 : mt ≤ u.pl1 * 1000) (h2 : m1 ≤ u.pl2 * 1000) (h : u.pl1 * 95000 ≤ mt * 100 ∨ u.pl2 * 95000 ≤ m1 * 100) :
    Completes (.powerManagerSample m1 mt) s fun t => t = { u with pwr := { u.pwr with ncapAt := u.time }, pending := s.pending } := by
  refine completes_power hs (v := u.ncapMark) ?_
  rw [powerManagerSampleRun_eq hu, if_neg (by omega), if_neg (by omega)]

end

section
variable {d : Nat} {T : Int} {u : State} (hu : u = { s with pwr := { s.pwr with junction := SMap.put (fun _ => (0 : Int)) s.pwr.junction d T } })
include hu

theorem thermalSample_iod (hd : d = 15) : Completes (.thermalSample d T) s fun t => t = { u with pending := s.pending } := by
  subst hd
  refine completes_with (f := thermalSampleRun 15 T) rfl rfl hs ?_
  rw [hu]
  rfl

variable (hd : d < 12)
include hd

omit hs in
/-- What a thermal sample of a compute die does once its reading is stored (R503). -/
theorem thermalSampleRun_eq : thermalSampleRun d T s =
    if T > 1000 then
      (if max 32 (u.fget (kClkCdctl d) fClkCdctl_TCAP - 4) = u.fget (kClkCdctl d) fClkCdctl_TCAP then
          (u.fput (kClkCdctl d) fClkCdctl_TCAP (max 32 (u.fget (kClkCdctl d) fClkCdctl_TCAP - 4))).tcapMark d
        else ((u.fput (kClkCdctl d) fClkCdctl_TCAP (max 32 (u.fget (kClkCdctl d) fClkCdctl_TCAP - 4))).tcapMark d).evt d 0x20 5).pwrEval d
    else if T ≤ 970 then
      if u.time ≥ SMap.get (fun _ => 0) u.pwr.tcapAt d + 1000000 then
        ((u.fput (kClkCdctl d) fClkCdctl_TCAP (min 168 (u.fget (kClkCdctl d) fClkCdctl_TCAP + 1))).tcapMark d).pwrEval d
      else u
    else u.tcapMark d := by
  subst hu
  exact if_neg (Nat.not_le.mpr hd)

omit hu in
theorem completes_thermal {v : State} (h : thermalSampleRun d T s = v) :
    Completes (.thermalSample d T) s fun t => t = { v with pending := s.pending } :=
  completes_with (f := thermalSampleRun d T) rfl (decide_eq_true (Or.inl hd)) hs h

/-- Above 100 °C TCAP falls by 4, no lower than 32. -/
theorem thermalSample_hot (hT : T > 1000) {w : State}
    (hw : w = u.fput (kClkCdctl d) fClkCdctl_TCAP (max 32 (u.fget (kClkCdctl d) fClkCdctl_TCAP - 4))) :
    (max 32 (u.fget (kClkCdctl d) fClkCdctl_TCAP - 4) = u.fget (kClkCdctl d) fClkCdctl_TCAP → Completes (.thermalSample d T) s fun t =>
      t = { (w.tcapMark d).pwrEval d with pending := s.pending }) ∧
    (max 32 (u.fget (kClkCdctl d) fClkCdctl_TCAP - 4) ≠ u.fget (kClkCdctl d) fClkCdctl_TCAP → Completes (.thermalSample d T) s fun t =>
      t = { ((w.tcapMark d).evt d 0x20 5).pwrEval d with pending := s.pending }) := by
  have heq := thermalSampleRun_eq hu hd
  rw [if_pos hT, ← hw] at heq
  refine ⟨fun he => completes_thermal hs hd ?_, fun he => completes_thermal hs hd ?_⟩
  · rw [heq, if_pos he]
  · rw [heq, if_neg he]

/-- At or below 97 °C TCAP rises by 1 once 1 ms has passed. -/
theorem thermalSample_cool (hT : T ≤ 970) :
    (u.time < SMap.get (fun _ => 0) u.pwr.tcapAt d + 1000000 → Completes (.thermalSample d T) s fun t => t = { u with pending := s.pending }) ∧
    (SMap.get (fun _ => 0) u.pwr.tcapAt d + 1000000 ≤ u.time →
      ∀ w, w = u.fput (kClkCdctl d) fClkCdctl_TCAP (min 168 (u.fget (kClkCdctl d) fClkCdctl_TCAP + 1)) →
      Completes (.thermalSample d T) s fun t => t = { (w.tcapMark d).pwrEval d with pending := s.pending }) := by
  have heq := thermalSampleRun_eq hu hd
  rw [if_neg (by omega), if_pos hT] at heq
  refine ⟨fun ht => completes_thermal hs hd ?_, fun ht w hw => completes_thermal hs hd ?_⟩
  · rw [heq, if_neg (Nat.not_le.mpr ht)]
  · rw [heq, if_pos ht, hw]

theorem thermalSample_warm (hlo : 970 < T) (hhi : T ≤ 1000) : Completes (.thermalSample d T) s fun t =>
    t = { u with pwr := { u.pwr with tcapAt := SMap.put (fun _ => 0) u.pwr.tcapAt d u.time }, pending := s.pending } := by
  refine completes_thermal hs hd (v := u.tcapMark d) ?_
  rw [thermalSampleRun_eq hu hd, if_neg (by omega), if_neg (by omega)]

end

/-! ### Monitors and Bracketing (R511–R514) -/

section
variable {d i : Nat} {v : BitVec 16} (hd : d < 12 ∨ d = 15) (hi : i < 64)
include hd hi

theorem greyCardSample_held (h : s.dieHeld d = true) : Completes (.greyCardSample d i v) s fun t => t = s :=
  completes_run' (f := greyCardSampleRun d i v) (by unfold wfDie; simpa using ⟨hd, hi⟩) hs (if_pos h) rfl

/-- A sample sets CUR and EXT; where it is the first that crosses the threshold, FLAG too with its record (R511, R512). -/
theorem greyCardSample_taken (h : s.dieHeld d = false) {k e e' : Nat} {u w : State} {cross : Bool} (hk : k = kGrcSens d i)
    (he : e = s.fget k fGrcSens_EXT)
    (he' : e' = (if isCpr d i then (if margin16 v.toNat < margin16 e then v.toNat else e) else max e v.toNat))
    (hu : u = ((s.fput k fGrcSens_CUR v.toNat).fput k fGrcSens_EXT e').evt d (grcBlock d) 0)
    (hw : w = (if isCpr d i then u.cprSeen d i (margin16 v.toNat) else u))
    (hc : cross = (if isCpr d i then decide (margin16 v.toNat < (w.fget kGrcCtl fGrcCtl_CPRWARN : Int))
      else decide (v.toNat ≥ w.fget kGrcCtl fGrcCtl_ROWARN))) :
    Completes (.greyCardSample d i v) s fun t => t = { (if (cross && !w.fon k fGrcSens_FLAG) = true then
      ((w.fput k fGrcSens_FLAG 1).evt d (grcBlock d) 1).marginRec 0x60 (d * 256 + i) else w) with pending := s.pending } := by
  refine completes_with (f := greyCardSampleRun d i v) rfl (by unfold wfDie; simpa using ⟨hd, hi⟩) hs ?_
  unfold greyCardSampleRun
  dsimp only
  rw [h, if_neg (by decide), ← hk, ← he, ← he', ← hu, ← hw, ← hc]

end

theorem bracketingPass_completes {b : Bool} {m : List (List Int)} (hb : b = true → s.stage = 3) {u : State}
    (hu : u = s.each ((List.range 12 ++ [15]).zip m) (fun s p => s.passSamples p.1 p.2)) : Completes (.bracketingPass b m) s fun t =>
      t = { ((((u.each (List.range 12) State.passDie).passIod).passChans).passLanes).fadd kGrcBrk fGrcBrk_PASSES 1 with pending := s.pending } := by
  refine completes_with (f := bracketingPassRun b m) rfl rfl hs ?_
  unfold bracketingPassRun
  dsimp only
  rw [if_neg (by simpa using hb), hu]

theorem bracketingPass_early (m : List (List Int)) (h : s.stage ≠ 3) : Completes (.bracketingPass true m) s fun t => t = s :=
  completes_run' (f := bracketingPassRun true m) rfl hs (if_pos (by simpa using h)) rfl

end

/-- Settles O57, row by row. -/
theorem railAndClockCommandsComplete : Obligations.RailAndClockCommandsComplete := by
  refine ⟨fun s hs r x hx => ?rails, fun s hs => ⟨fun m1 mt u cap p hp hu hcap => ?power, fun d T u cap p hd hp hu hcap => ?thermal,
    fun d i v hd hi => ?monitor, fun b m hb u hu => bracketingPass_completes hs hb hu, bracketingPass_early hs⟩⟩
  case rails =>
    subst hx
    refine ⟨fun hr => ⟨fun n g u hx hu => ?raised, fun n g u => avsbusComplete_lowered hs hr, avsbus_idle hs hr, fun n g u hx hu => ?expired⟩,
      fun hr => ⟨fun n g => clockHopComplete_up hs hr, fun n g => clockHopComplete_down hs hr, clockHopComplete_idle hs hr⟩⟩
    case raised =>
      have h := avsbusComplete_raised hs hr hx hu
      refine ⟨fun hc => by rwa [if_pos hc] at h, fun h1 h2 h3 => ?_⟩
      rwa [if_neg (by simp [h1, h2, h3])] at h
    case expired =>
      have h := avsbusTimeout_expires hs hr hx hu
      exact ⟨fun h1 h2 => by rwa [if_pos ⟨h1, h2⟩] at h, fun hc => by rwa [if_neg (by omega)] at h⟩
  case power =>
    subst hp hcap
    exact ⟨powerManagerSample_above hs hu, powerManagerSample_below hs hu, powerManagerSample_between hs hu⟩
  case thermal =>
    subst hp hcap
    refine ⟨thermalSample_iod hs hu, fun hd hT n w hn hw q hq => ?_, fun hd hT a ha => ?_, thermalSample_warm hs hu⟩
    · subst hn hq
      exact thermalSample_hot hs hu hd hT hw
    · subst ha
      have h := thermalSample_cool hs hu hd hT
      exact ⟨h.1, fun ht w q hw hq => hq ▸ h.2 ht w hw⟩
  case monitor =>
    refine ⟨greyCardSample_held hs hd hi, fun h k e e' u w hk he he' hu hw cross hc => ?_⟩
    have h := greyCardSample_taken hs hd hi h hk he he' hu hw hc
    refine ⟨fun hn => ?_, fun hx hf => ?_⟩
    · rwa [if_neg (by rcases hn with hn | hn <;> simp [hn])] at h
    · rwa [if_pos (by rw [hx, hf]; rfl)] at h

end Sys2Proof.Machine
end

section
/-! SUPPORT.
Core, die and package states (R504–R508, Tables 17-2 to 17-4). -/

namespace Sys2Proof.Machine

section
variable {s : State} (hs : s.stopped = false)
include hs

/-! ### Cores (R504) -/

section
variable {n : Nat} (hn : n < 220)
include hn

theorem completes_coreWake {v : State} (h : coreWakeRun n s = v) : Completes (.coreWake n) s fun t => t = { v with pending := s.pending } :=
  completes_with (f := coreWakeRun n) rfl (decide_eq_true hn) hs h

/-- A core that does not wait, has no wake condition or is held stays as it is. -/
theorem coreWake_stays (h : (s.core n).waiting = false ∨ s.irqs n = [] ∨ s.wakeHeld n = true) :
    Completes (.coreWake n) s fun t => t = s := by
  refine completes_coreWake hs hn (v := s) (if_pos ?_)
  rcases h with h | h | h <;> simp [h]

omit hs hn in
/-- The check of CORE_WAKE passes for a waiting core with a wake condition that nothing holds. -/
theorem coreWake_passes (h1 : (s.core n).waiting = true) (h2 : s.irqs n ≠ []) (h3 : s.wakeHeld n = false) :
    ¬ (!(s.core n).waiting || (s.irqs n).isEmpty || s.wakeHeld n) = true := by
  simp [h1, h2, h3]

variable (h1 : (s.core n).waiting = true) (h2 : s.irqs n ≠ []) (h3 : s.wakeHeld n = false)
include h1 h2 h3

theorem coreWake_shallow (h : 216 ≤ n ∨ s.cstate n = 0) : Completes (.coreWake n) s fun t =>
    t = s.setCore n { s.core n with waiting := false } := by
  refine completes_coreWake hs hn (v := s.setCore n { s.core n with waiting := false }) ?_
  unfold coreWakeRun
  dsimp only
  rw [if_neg (coreWake_passes h1 h2 h3), if_pos h]

/-- A core leaves its state after its die; C6 loses what Table 17-2 says. -/
theorem coreWake_leaves (hlt : n < 216) (h0 : s.cstate n ≠ 0) {u v : State}
    (hu : u = (if s.dstate (n / 18) ≠ 0 then s.dieRouse (n / 18) (s.irqs n) else s))
    (hv : v = (u.fput (kPwrCctl n) fPwrCctl_CSTATE 0).fput (kPwrCctl n) fPwrCctl_WAKE (wakePick (s.irqs n)).1) :
    Completes (.coreWake n) s fun t => t = { v.setCore n (if u.cstate n ≥ 2 then { s.core n with
      waiting := false, pred := [], tlbs := ⟨[], [], [], (s.core n).tlbs.locked, [], []⟩ } else { s.core n with waiting := false })
      with pending := s.pending } := by
  refine completes_coreWake hs hn ?_
  unfold coreWakeRun
  dsimp only
  rw [if_neg (coreWake_passes h1 h2 h3), if_neg (by omega : ¬ (n ≥ 216 ∨ s.cstate n = 0)), ← hu, ← hv]

end

/-! ### Dies (R505) -/

section
variable {d : Nat} (hd : d < 12)
include hd

theorem completes_dieEntry {v : State} (h : dieStateEntryRun d s = v) : Completes (.dieStateEntry d) s fun t => t = { v with pending := s.pending } :=
  completes_with (f := dieStateEntryRun d) rfl (decide_eq_true hd) hs h

theorem dieStateEntry_stays (h : s.dstate d = 2 ∨ s.dieOut d = true ∨ (s.heldOn d).isSome = true ∨ (dieCores d).any s.irq = true ∨
    s.fget (kPwrDctl d) fPwrDctl_MAXDS = 0) : Completes (.dieStateEntry d) s fun t => t = s := by
  refine completes_dieEntry hs hd (v := s) (if_pos ?_)
  simpa only [Bool.or_eq_true, decide_eq_true_eq, or_assoc] using h

omit hs hd in
/-- What a die does whose state may change: DS3 where MAXDS and its cores let it, DS1 from DS0 where they let that. -/
theorem dieStateEntryRun_eq (h1 : s.dstate d ≠ 2) (h2 : s.dieOut d = false) (h3 : s.heldOn d = none)
    (h4 : (dieCores d).any s.irq = false) (h5 : s.fget (kPwrDctl d) fPwrDctl_MAXDS ≠ 0) : dieStateEntryRun d s =
      if s.fget (kPwrDctl d) fPwrDctl_MAXDS ≥ 2 && (dieCores d).all (s.coreDeep 3) then s.dieSleep d
      else if s.dstate d = 0 && (dieCores d).all (s.coreDeep 2) then s.fput (kPwrDstat d) fPwrDstat_DSTATE 1 else s := by
  unfold dieStateEntryRun
  dsimp only
  rw [if_neg (by simp [h1, h2, h3, h4, h5])]

variable (h1 : s.dstate d ≠ 2) (h2 : s.dieOut d = false) (h3 : s.heldOn d = none) (h4 : (dieCores d).any s.irq = false)
  (h5 : s.fget (kPwrDctl d) fPwrDctl_MAXDS ≠ 0)
include h1 h2 h3 h4 h5

theorem dieStateEntry_sleeps (hm : 2 ≤ s.fget (kPwrDctl d) fPwrDctl_MAXDS) (hc : (dieCores d).all (s.coreDeep 3) = true) :
    Completes (.dieStateEntry d) s fun t => t = { s.dieSleep d with pending := s.pending } := by
  refine completes_dieEntry hs hd ?_
  rw [dieStateEntryRun_eq h1 h2 h3 h4 h5, if_pos (by rw [hc, decide_eq_true hm]; rfl)]

theorem dieStateEntry_idles (hm : s.fget (kPwrDctl d) fPwrDctl_MAXDS < 2 ∨ (dieCores d).all (s.coreDeep 3) = false) :
    (s.dstate d = 0 → (dieCores d).all (s.coreDeep 2) = true → Completes (.dieStateEntry d) s fun t =>
      t = s.fput (kPwrDstat d) fPwrDstat_DSTATE 1) ∧
    (s.dstate d ≠ 0 ∨ (dieCores d).all (s.coreDeep 2) = false → Completes (.dieStateEntry d) s fun t => t = s) := by
  have heq := dieStateEntryRun_eq h1 h2 h3 h4 h5
  rw [if_neg (by rcases hm with hm | hm <;> simp [hm])] at heq
  refine ⟨fun h0 hc => completes_run (f := dieStateEntryRun d) (decide_eq_true hd) hs ?_ (State.fput_pending _ _ _ _) rfl,
    fun hn => completes_dieEntry hs hd (v := s) ?_⟩
  · rw [heq, if_pos (by rw [hc, decide_eq_true h0]; rfl)]
  · rw [heq, if_neg (by rcases hn with hn | hn <;> simp [hn])]

end

theorem completes_dieWake {d : Nat} (hd : d < 12) {codes : List (Nat × Nat)} {v : State} (h : dieWakeRun d codes s = v) :
    Completes (.dieWake d codes) s fun t => t = { v with pending := s.pending } :=
  completes_with (f := dieWakeRun d codes) rfl (decide_eq_true hd) hs h

/-- A die wakes for a cause of Table 17-5 where it sleeps, is not parked and is in service. -/
theorem dieWake_completes {d : Nat} (hd : d < 12) (codes : List (Nat × Nat)) :
    (s.dstate d = 0 ∨ s.parked d = true ∨ s.dieOut d = true ∨ wakeCodes codes = [] → Completes (.dieWake d codes) s fun t => t = s) ∧
    (s.dstate d ≠ 0 → s.parked d = false → s.dieOut d = false → wakeCodes codes ≠ [] → Completes (.dieWake d codes) s fun t =>
      t = { s.dieRouse d (wakeCodes codes) with pending := s.pending }) := by
  refine ⟨fun h => completes_dieWake hs hd (v := s) (if_pos ?_), fun h1 h2 h3 h4 => completes_dieWake hs hd (if_neg ?_)⟩
  · simpa only [Bool.or_eq_true, decide_eq_true_eq, List.isEmpty_iff, or_assoc] using h
  · simp [h1, h2, h3, h4]

/-! ### The package (R507) -/

/-- Every die sleeps, is parked or is out of service. -/
def State.diesAsleep (s : State) : Bool := (List.range 12).all (fun d => decide (s.dstate d = 2) || s.parked d || s.dieOut d)

/-- Nothing outside the dies needs the package beyond PS1 (Table 17-4). -/
def State.pkgQuiet (s : State) : Bool := (List.range 2).all (fun fn => !(s.lf fn).memEn) && s.enl.slots.isEmpty &&
  (List.range 8).all (fun g => !(decide (s.role g = 5) && decide (s.fget (kFioXstat g) fFioXstat_STATE = 2)))

/-- The deepest state that MAXPS lets the package enter. -/
def State.pkgMost (s : State) : Nat := min 2 (s.fget kPwrPkg fPwrPkg_MAXPS)

/-- What wake causes do to the package, by its state. -/
def State.pkgExit (s : State) (l : List (Nat × Nat)) : Nat → State
  | 2 => (s.fput kPwrPkg fPwrPkg_PS 1).lastWake l
  | 1 => if (!s.diesAsleep) = true then (s.fput kPwrPkg fPwrPkg_PS 0).lastWake l else s
  | _ => s

omit hs in
theorem packageStateEntryRun_eq : packageStateEntryRun s =
    if (!s.diesAsleep) = true ∨ s.fget kPwrPkg fPwrPkg_PS ≥ s.pkgMost then s
    else if s.fget kPwrPkg fPwrPkg_PS = 0 then s.fput kPwrPkg fPwrPkg_PS 1
    else if s.pkgQuiet then s.fput kPwrPkg fPwrPkg_PS 2 else s := rfl

theorem packageStateEntry_stays (h : s.diesAsleep = false ∨ s.pkgMost ≤ s.fget kPwrPkg fPwrPkg_PS ∨
    (s.fget kPwrPkg fPwrPkg_PS ≠ 0 ∧ s.pkgQuiet = false)) : Completes .packageStateEntry s fun t => t = s := by
  refine completes_run' (f := packageStateEntryRun) (t := s) rfl hs ?_ rfl
  rw [packageStateEntryRun_eq]
  rcases h with h | h | ⟨h0, hq⟩
  · rw [if_pos (.inl (by rw [h]; rfl))]
  · rw [if_pos (.inr h)]
  · rw [if_neg h0, hq, if_neg Bool.false_ne_true, ite_self]

theorem packageStateEntry_deepens (ha : s.diesAsleep = true) (hlt : s.fget kPwrPkg fPwrPkg_PS < s.pkgMost)
    (hq : s.fget kPwrPkg fPwrPkg_PS = 0 ∨ s.pkgQuiet = true) : Completes .packageStateEntry s fun t =>
      t = s.fput kPwrPkg fPwrPkg_PS (if s.fget kPwrPkg fPwrPkg_PS = 0 then 1 else 2) := by
  refine completes_run (f := packageStateEntryRun) rfl hs ?_ (State.fput_pending _ _ _ _) rfl
  have hgo : ¬ ((!s.diesAsleep) = true ∨ s.fget kPwrPkg fPwrPkg_PS ≥ s.pkgMost) := by
    rw [ha]
    exact fun h => h.elim (by decide) (Nat.not_le.mpr hlt)
  rw [packageStateEntryRun_eq, if_neg hgo]
  by_cases h0 : s.fget kPwrPkg fPwrPkg_PS = 0
  · rw [if_pos h0, if_pos h0]
  · rw [if_neg h0, if_neg h0, if_pos (hq.resolve_left h0)]

omit hs in
/-- Some die is awake where not every die sleeps. -/
theorem diesAwake_eq : ((List.range 12).any fun d => !(decide (s.dstate d = 2) || s.parked d || s.dieOut d)) = !s.diesAsleep := by
  unfold State.diesAsleep
  rw [List.not_all_eq_any_not]

section
variable (codes : List (Nat × Nat))

theorem completes_packageExit {v : State} (h : packageStateExitRun codes s = v) :
    Completes (.packageStateExit codes) s fun t => t = { v with pending := s.pending } :=
  completes_with (f := packageStateExitRun codes) rfl rfl hs h

omit hs in
theorem packageStateExitRun_eq {ps : Nat} (hps : s.fget kPwrPkg fPwrPkg_PS = ps) (h : wakeCodes codes ≠ []) :
    packageStateExitRun codes s = s.pkgExit (wakeCodes codes) ps := by
  subst hps
  unfold packageStateExitRun
  dsimp only
  rw [if_neg (by simpa using h), diesAwake_eq]
  rfl

theorem packageStateExit_stays (h : wakeCodes codes = [] ∨ s.fget kPwrPkg fPwrPkg_PS = 0 ∨ s.fget kPwrPkg fPwrPkg_PS = 3 ∨
    (s.fget kPwrPkg fPwrPkg_PS = 1 ∧ s.diesAsleep = true)) : Completes (.packageStateExit codes) s fun t => t = s := by
  refine completes_packageExit hs codes (v := s) ?_
  by_cases hl : wakeCodes codes = []
  · exact if_pos (by simpa using hl)
  rcases h.resolve_left hl with h | h | ⟨h, ha⟩
  · exact packageStateExitRun_eq codes h hl
  · exact packageStateExitRun_eq codes h hl
  · exact (packageStateExitRun_eq codes h hl).trans (if_neg (by rw [ha]; decide))

theorem packageStateExit_fromPs2 (hl : wakeCodes codes ≠ []) (h : s.fget kPwrPkg fPwrPkg_PS = 2) : Completes (.packageStateExit codes) s fun t =>
    t = { (s.fput kPwrPkg fPwrPkg_PS 1).lastWake (wakeCodes codes) with pending := s.pending } :=
  completes_packageExit hs codes (packageStateExitRun_eq codes h hl)

theorem packageStateExit_fromPs1 (hl : wakeCodes codes ≠ []) (h : s.fget kPwrPkg fPwrPkg_PS = 1) (ha : s.diesAsleep = false) :
    Completes (.packageStateExit codes) s fun t =>
      t = { (s.fput kPwrPkg fPwrPkg_PS 0).lastWake (wakeCodes codes) with pending := s.pending } :=
  completes_packageExit hs codes ((packageStateExitRun_eq codes h hl).trans (if_pos (by rw [ha]; rfl)))

end
end

/-- Settles O58, state by state. -/
theorem sleepAndWakeComplete : Obligations.SleepAndWakeComplete := by
  intro s hs
  refine ⟨fun n c l hn hc hl => ?core, fun d hd most hm => ⟨?dieStays, ?dieEnters, dieWake_completes hs hd⟩, fun asleep ps most ha hps hm quiet hq => ?package⟩
  case core =>
    subst hc hl
    refine ⟨coreWake_stays hs hn, fun h1 h2 h3 => ⟨coreWake_shallow hs hn h1 h2 h3, fun hlt h0 u v hu hv => ?_⟩⟩
    have h := coreWake_leaves hs hn h1 h2 h3 hlt h0 hu hv
    refine ⟨fun hc => by rwa [if_neg (Nat.not_le.mpr hc)] at h, fun hc p d hp hd => ?_⟩
    subst hp hd
    rwa [if_pos hc] at h
  case dieStays => rw [hm]; exact dieStateEntry_stays hs hd
  case dieEnters =>
    rw [hm]
    exact fun h1 h2 h3 h4 h5 => ⟨dieStateEntry_sleeps hs hd h1 h2 h3 h4 h5, dieStateEntry_idles hs hd h1 h2 h3 h4 h5⟩
  case package =>
    subst ha hps hm hq
    refine ⟨packageStateEntry_stays hs, packageStateEntry_deepens hs, fun codes l hl => ?_⟩
    subst hl
    exact ⟨packageStateExit_stays hs codes, packageStateExit_fromPs2 hs codes, packageStateExit_fromPs1 hs codes⟩

end Sys2Proof.Machine
end

section
/-! SUPPORT.
Counters, the Contact Sheet, Test Strip and Agitation (spec/19). -/

namespace Sys2Proof.Machine

/-! ### The Contact Sheet's commands (R549, R550, R554) -/

theorem hCshStart_starts (id : Nat) {z : ZCmd} {u : State} (h1 : 100 ≤ z.f 20 4) (h2 : z.f 20 4 ≤ 1000000) (h3 : 2 ≤ z.f 32 4)
    (h4 : z.f 32 4 ≤ 65536) (hok : u.bufOk z (z.f 24 8) (z.f 32 4 * sheetSlot) = true)
    (hd : z.f 16 1 % 2 = 1 → (u.rd kMgtEffcap).getLsbD 18 = true) (hn : u.cnt.sheet = none) :
    hCshStart id z u = (doneOk, ((((u.wr kCshHead 0).fput kCshStat fCshStat_WRITTEN 0).fput kCshStat fCshStat_DELTA (z.f 16 1 % 2)).setSheet
      (some ⟨z, u.time, 0, none, 0, false, [], false, none⟩))) := by
  unfold hCshStart
  dsimp only
  rw [if_neg (by omega), hok, if_neg (by decide), if_neg (by rintro ⟨h, hf⟩; rw [hd h] at hf; exact absurd hf (by decide)), hn, if_neg (by decide)]

theorem hCshStop_idle (id : Nat) {z : ZCmd} {u : State} (h : u.cnt.sheet = none) : hCshStop id z u =
    (.done 0 (leBytes 4 (u.fget kCshStat fCshStat_WRITTEN) ++ leBytes 4 (u.fget kCshStat fCshStat_LOST)), u) := by
  unfold hCshStop
  rw [h]

/-- CSH_STOP takes the sample that is due and marks the Contact Sheet as stopped. -/
theorem hCshStop_stops (id : Nat) {z : ZCmd} {u v : State} {q r : SheetRun} (hq : u.cnt.sheet = some q) (hv : v = contactSheetSampleRun u)
    (hr : v.cnt.sheet = some r) :
    hCshStop id z u = (.later, (v.setSheet (some { r with stopped := true, stops := r.stops ++ [id] })).sheetEnd) := by
  unfold hCshStop
  rw [hq]
  dsimp only
  rw [← hv, hr]

theorem hSnapshot_writes (id : Nat) {z : ZCmd} {u w : State} {ks : List Nat} (hks : ks = countersOf (z.f 16 1) (z.f 17 1)) (hne : ks ≠ [])
    (hok : u.bufOk z (z.f 24 8) (z.f 32 4) = true) (hlen : 64 + 8 * ks.length ≤ z.f 32 4)
    (hw : u.BufWritten w z (z.f 24 8) (u.sheetHeader false true false 0 ks.length u.time 0 0 ++ ks.flatMap (fun k => leBytes 8 (u.counterVal k)))) :
    hSnapshot id z u = (.done 0 (leBytes 4 (64 + 8 * ks.length)), w) := by
  unfold hSnapshot
  dsimp only
  rw [← hks, if_neg (by simpa using hne), hok, if_neg (by decide), if_neg (Nat.not_lt.mpr hlen), hw.zwrite]

/-! ### Test Strip and Agitation (R556–R568) -/

theorem hTstRun_starts (id : Nat) {z : ZCmd} {u : State} {tg : Target} (hk : z.f 18 1 ≤ 2) (hn : z.f 20 2 ≠ 0 → 32 ≤ z.f 20 2 ∧ z.f 20 2 ≤ 168)
    (hlo : -100 ≤ margin16 (z.f 22 2)) (hhi : margin16 (z.f 22 2) ≤ 50) (h1 : 1 ≤ z.f 24 4) (h2 : z.f 24 4 ≤ 60000)
    (ht : targetOf (z.f 16 1) (z.f 17 1) = some tg) (hdie : tg ≠ .die → z.f 20 2 = 0 ∧ z.f 22 2 = 0) (hkind : tg.kinds.contains (z.f 18 1) = true)
    (hscan : z.f 18 1 = 1 → u.debugOpen = true) (hheld : u.heldUnit (z.f 16 1) (z.f 17 1) = none) (hfree : u.cnt.test = none)
    (hiso : u.isolated tg (z.f 16 1) (z.f 17 1) = true) :
    hTstRun id z u = (.later, u.testStart id (z.f 16 1) (z.f 17 1) (z.f 18 1) (z.f 20 2) (z.f 22 2)) := by
  have hpar : ¬ (z.f 18 1 > 2 ∨ (z.f 20 2 ≠ 0 ∧ (z.f 20 2 < 32 ∨ z.f 20 2 > 168)) ∨ margin16 (z.f 22 2) < -100 ∨ margin16 (z.f 22 2) > 50 ∨
      z.f 24 4 < 1 ∨ z.f 24 4 > 60000) := by omega
  have hpoint : ¬ (tg ≠ .die ∧ (z.f 20 2 ≠ 0 ∨ z.f 22 2 ≠ 0)) := fun ⟨hne, h⟩ => h.elim (absurd (hdie hne).1) (absurd (hdie hne).2)
  have hopen : ¬ ((!tg.kinds.contains (z.f 18 1)) = true ∨ (z.f 18 1 = 1 ∧ (!u.debugOpen) = true)) := by
    rw [hkind]
    rintro (h | ⟨h, hd⟩)
    · exact absurd h (by decide)
    · rw [hscan h] at hd; exact absurd hd (by decide)
  unfold hTstRun
  dsimp only
  rw [if_neg hpar, ht]
  dsimp only
  rw [if_neg hpoint, if_neg hopen, hheld]
  dsimp only
  rw [hfree, hiso, if_neg (by decide)]

theorem hTstResult_writes (id : Nat) {z : ZCmd} {u w : State} (hmod : z.f 32 4 % 16 = 0) (hok : u.bufOk z (z.f 24 8) (z.f 32 4) = true)
    {l : List TestEntry} (hl : l = (u.cnt.results.drop (z.f 20 2)).take (z.f 32 4 / 16)) (hw : u.BufWritten w z (z.f 24 8) (l.flatMap testBytes)) :
    hTstResult id z u = (.done 0 (leBytes 4 l.length), w) := by
  unfold hTstResult
  dsimp only
  rw [if_neg (not_not_intro hmod), hok, if_neg (by decide), ← hl, hw.zwrite]

theorem hAgtSet_sets (id : Nat) {z : ZCmd} {u : State} {every cls : Nat}
    (he : every = (if z.f 17 1 = 1 ∨ z.f 17 1 = 2 then 0 else z.f 22 2)) (hc : cls = (if z.f 17 1 = 1 then z.f 24 1 else 0))
    (hd : u.debugOpen = true) (hi : z.f 16 1 ≤ 63) (hfit : agtFits (z.f 17 1) (z.f 18 1) (z.f 19 1) (z.f 20 2) every cls = true)
    (hh : u.held (z.f 18 1) (z.f 19 1) = false) : hAgtSet id z u = (doneOk,
      (u.extend 11 8 (leBytes 1 1 ++ leBytes 1 (z.f 16 1) ++ leBytes 1 (z.f 17 1) ++ leBytes 1 (z.f 18 1) ++ leBytes 1 (z.f 19 1) ++
        leBytes 1 cls ++ leBytes 2 (z.f 20 2) ++ leBytes 2 every)).setAgt (z.f 16 1)
      (fAgtSlot_VALUE.put (fAgtSlot_EVERY.put (fAgtSlot_CLASS.put (fAgtSlot_BLOCK.put (fAgtSlot_DIE.put (fAgtSlot_KIND.put
        (fAgtSlot_V.put 0 1) (z.f 17 1)) (z.f 18 1)) (z.f 19 1)) cls) every) (z.f 20 2))) := by
  unfold hAgtSet
  dsimp only
  rw [← he, ← hc, hd, if_neg (by decide), hfit, if_neg (by simpa using hi), hh, if_neg (by decide)]

theorem hAgtClear_clears (id : Nat) {z : ZCmd} {u : State} (hi : z.f 16 1 ≤ 63 ∨ z.f 16 1 = 0xFF) : hAgtClear id z u =
    (doneOk, (u.extend 11 8 (leBytes 1 2 ++ leBytes 1 (z.f 16 1) ++ List.replicate 8 0)).each
      (if z.f 16 1 = 0xFF then List.range 64 else [z.f 16 1]) fun s j => s.setAgt j 0) := by
  unfold hAgtClear
  dsimp only
  rw [if_neg (by omega : ¬ (z.f 16 1 > 63 ∧ z.f 16 1 ≠ 0xFF))]

/-! ### Samples and sheets (R549–R551) -/

section
variable {s : State} {r : SheetRun} (hs : s.stopped = false) (hr : s.cnt.sheet = some r)
include hs hr

/-- A sample that is due is taken into the shadow copy, or lost where a sheet is being written or the buffer is full. -/
theorem contactSheetSample_due (hrun : r.stopped = false) (hdue : r.due ≤ s.time) :
    Completes .contactSheetSample s fun t => t = { s.takeSample r with pending := s.pending } := by
  refine completes_with (f := contactSheetSampleRun) rfl rfl hs ?_
  unfold contactSheetSampleRun
  rw [hr]
  exact if_neg (by rw [hrun]; exact fun h => h.elim (by decide) (Nat.not_lt.mpr hdue))

/-- A sheet whose bytes are written is counted, and signalled at half and all of the buffer. -/
theorem sheetWritten_counts {w : Sample} {v x : State} {n out : Nat} (hw : r.writing = some w)
    (hb : s.BufWritten v r.z (r.z.f 24 8 + (w.k % r.sheets) * sheetSlot) (s.sheetBytes r w))
    (hn : n = (v.fget kCshStat fCshStat_WRITTEN + 1) % 2 ^ 32) (hx : x = v.fput kCshStat fCshStat_WRITTEN n)
    (hout : out = (n + 2 ^ 32 - x.fget kCshHead fCshHead_CONSUMED) % 2 ^ 32) : Completes .sheetWritten s fun t =>
      t = { (((if out = r.sheets / 2 ∨ out = r.sheets then (x.vecSp 6).signal (r.z.f 36 2) else x).setSheet
        (some { r with writing := none, gap := false, last := some w })).sheetEnd).zciFlush with pending := s.pending } := by
  refine completes_with (f := sheetWrittenRun) rfl rfl hs ?_
  subst hout hx hn
  unfold sheetWrittenRun
  rw [hr]
  dsimp only
  rw [hw]
  dsimp only
  rw [hb.zwrite]

end

/-! ### The end of a test (R560, R561) -/

section
variable {s v : State} {t : TestRun} (ht : s.cnt.test = some t) {complete : Bool} {found : List TestEntry} (hv : v = s.testFinish complete found)
include ht hv

theorem testOver_core (hc : targetOf t.die t.block = some .core) : s.testOver complete found = (coreWakeRun (18 * t.die + t.block) v).zciFlush := by
  unfold State.testOver
  rw [ht]
  dsimp only
  rw [hc, hv]

theorem testOver_other (hc : targetOf t.die t.block ≠ some .core) : s.testOver complete found = v.zciFlush := by
  unfold State.testOver
  rw [ht, hv]
  dsimp only
  split
  · contradiction
  · rfl

end

/-- Settles O60, command by command and event by event. -/
theorem observationCommandsComplete : Obligations.ObservationCommandsComplete := by
  refine ⟨fun s z hz => ?commands, fun s r hs hr => ⟨fun hrun hdue => ?sample, fun w v hw hb => sheetWritten_counts hs hr hw hb rfl rfl rfl⟩,
    fun s found t hs ht c complete hc hwf => ?test⟩
  case commands =>
    refine ⟨fun hwf h1 h2 h3 h4 hok hd hn => ?start, fun hwf => ⟨fun h => ?stopIdle, fun q r v hq hv hr => ?stop⟩,
      fun hwf ks hks hne hok hlen w hw => ?snapshot,
      fun die blk kind n voff tg hwf e1 e2 e3 e4 e5 hk hn hlo hhi h1 h2 ht hdie hkind hscan hheld hfree hiso => ?run,
      fun hwf hmod hok w hw => ?result, fun i kind die blk value every cls hwf e1 e2 e3 e4 e5 he hc hd hi hfit hh => ?set,
      fun i hwf e1 hi => ?clear⟩
    case start => exact completes_done (h := hCshStart) (f := cshStartRun z) hwf hz rfl rfl (hCshStart_starts _ h1 h2 h3 h4 hok hd hn)
    case stopIdle => exact completes_done (h := hCshStop) (f := cshStopRun z) hwf hz rfl rfl (hCshStop_idle _ h)
    case stop => exact completes_later (h := hCshStop) (f := cshStopRun z) hwf hz rfl rfl (hCshStop_stops _ hq hv hr)
    case snapshot => exact completes_done (h := hSnapshot) (f := evtSnapshotRun z) hwf hz rfl rfl (hSnapshot_writes _ hks hne hok hlen hw)
    case run =>
      subst e1 e2 e3 e4 e5
      exact completes_later (h := hTstRun) (f := tstRunRun z) hwf hz rfl rfl
        (hTstRun_starts _ hk hn hlo hhi h1 h2 ht hdie hkind hscan hheld hfree hiso)
    case result => exact completes_done (h := hTstResult) (f := tstResultRun z) hwf hz rfl rfl (hTstResult_writes _ hmod hok rfl hw)
    case set =>
      subst e1 e2 e3 e4 e5
      exact completes_done (h := hAgtSet) (f := agtSetRun z) hwf hz rfl rfl (hAgtSet_sets _ he hc hd hi hfit hh)
    case clear =>
      subst e1
      exact completes_done (h := hAgtClear) (f := agtClearRun z) hwf hz rfl rfl (hAgtClear_clears _ hi)
  case sample =>
    have h := contactSheetSample_due hs hr hrun hdue
    unfold State.takeSample at h
    dsimp only at h
    refine ⟨fun hlost => by rwa [if_pos hlost] at h, fun hfree hroom => ?_⟩
    rwa [if_neg (by rw [hfree]; exact fun h => h.elim (by decide) hroom)] at h
  case test =>
    have hrun : ∀ {x}, s.testOver complete found = x → Completes c s fun y => y = { x with pending := s.pending } := by
      intro x hx
      simp only [List.mem_cons, Prod.mk.injEq, List.not_mem_nil, or_false] at hc
      rcases hc with ⟨rfl, rfl⟩ | ⟨rfl, rfl⟩
      · exact completes_with (f := testEndRun found) rfl hwf hs hx
      · exact completes_with (f := testTimeoutRun found) rfl hwf hs hx
    exact ⟨fun hcore => hrun (testOver_core ht rfl hcore), fun hother => hrun (testOver_other ht rfl hother)⟩

end Sys2Proof.Machine
end

section
/-! SUPPORT.
The end of a freeze, a reset and a queue drain (R390, R415–R420). -/

namespace Sys2Proof.Machine

/-! ### Contexts that are read again (R417) -/

/-- One context more is read again, behind those that were. -/
def renewStep (a : Option (List (Nat × Option QPair)) × State) (q : Nat) : Option (List (Nat × Option QPair)) × State :=
  match a.1 with
  | none => a
  | some l => match a.2.readCtx q 6 with
    | (some r, s) => (some (l ++ [(q, r)]), s)
    | (none, s) => (none, s)

theorem State.renewCtxs_eq (s : State) (i : Inst) : s.renewCtxs i = i.qps.foldl renewStep (some [], s) := rfl

/-- Contexts that have been read are gathered in order. -/
theorem CtxsRead.foldl_renewStep {qs : List Nat} {s u : State} {l m : List (Nat × Option QPair)} (h : CtxsRead 6 qs s u l) :
    qs.foldl renewStep (some m, s) = (some (m ++ l), u) := by
  induction qs generalizing s l m with
  | nil =>
    obtain ⟨rfl, rfl⟩ := h
    rw [List.append_nil]
    rfl
  | cons q qs ih =>
    obtain ⟨v, r, n, hr, hrest, rfl⟩ := h
    have hstep : renewStep (some m, s) q = (some (m ++ [(q, r)]), v) := by
      unfold renewStep
      dsimp only
      rw [hr.readCtx]
    rw [List.foldl_cons, hstep, ih hrest, List.append_assoc]
    rfl

theorem CtxsRead.renewCtxs {s u : State} {i : Inst} {l : List (Nat × Option QPair)} (h : CtxsRead 6 i.qps s u l) :
    s.renewCtxs i = (some l, u) := (State.renewCtxs_eq s i).trans h.foldl_renewStep

/-! ### A freeze and a reset end (R417, R420) -/

/-- The state in which number `n` of the services has an empty written-page log. -/
def State.wlogDrop (s : State) (n : Nat) : State := { s with zci := { s.zci with wlog := s.zci.wlog.filter (fun e => e.1 ≠ n) } }

section
variable {s u : State} {n : Nat} {i : Inst} (hn : n < 2048) (hs : s.stopped = false) (hu : u = s.zciFlush) (hi : u.inst n = some i)
  (hr : u.owesReplies n = false) (hw : u.zciWrites = false)
include hn hs hu hi hr hw

theorem sviFreezeComplete_completes (hop : i.op = 5) : Completes (.sviFreezeComplete n) s fun t =>
    t = { (((u.setInst n (some { i with st := 2, op := 0, opId := 0 })).final i.opId zDone 0 []).zciFlush) with pending := s.pending } := by
  refine completes_with (f := sviFreezeCompleteRun n) rfl (decide_eq_true hn) hs ?_
  unfold sviFreezeCompleteRun
  dsimp only
  rw [← hu, hi]
  dsimp only
  rw [hr, hw, if_neg (by simp [hop])]

omit hn hs in
/-- Past its waits the end of a reset frees the service, or renews the contexts of its pairs. -/
theorem sviResetCompleteRun_ends (hop : i.op = 2) (ho : u.instOuts n = []) : sviResetCompleteRun n s =
    if i.mode = 2 then
      ((((i.qps.foldl (fun s q => s.setPair q none) (u.wlogDrop n)).setInst n none).final i.opId zDone 0 (leBytes 4 i.count)).zciFlush)
    else match (u.wlogDrop n).renewCtxs i with
      | (none, s) => s
      | (some l, s) => (((l.foldl (State.renewPair n) s).setInst n
          (some { i with st := 1, op := 0, opId := 0, logging := false, overflow := false })).final i.opId zDone 0 (leBytes 4 i.count)).zciFlush := by
  unfold sviResetCompleteRun
  dsimp only
  rw [← hu, hi]
  dsimp only
  rw [hr, hw, ho, if_neg (by simp [hop])]
  rfl

theorem sviResetComplete_frees (hop : i.op = 2) (ho : u.instOuts n = []) (hm : i.mode = 2) : Completes (.sviResetComplete n) s fun t =>
    t = { ((((i.qps.foldl (fun s q => s.setPair q none) (u.wlogDrop n)).setInst n none).final i.opId zDone 0 (leBytes 4 i.count)).zciFlush)
      with pending := s.pending } := by
  refine completes_with (f := sviResetCompleteRun n) rfl (decide_eq_true hn) hs ?_
  rw [sviResetCompleteRun_ends hu hi hr hw hop ho, if_pos hm]

theorem sviResetComplete_renews (hop : i.op = 2) (ho : u.instOuts n = []) {l : List (Nat × Option QPair)} {v : State} (hm : i.mode ≠ 2)
    (hc : CtxsRead 6 i.qps (u.wlogDrop n) v l) : Completes (.sviResetComplete n) s fun t =>
      t = { ((((l.foldl (State.renewPair n) v).setInst n (some { i with st := 1, op := 0, opId := 0, logging := false, overflow := false })).final
        i.opId zDone 0 (leBytes 4 i.count)).zciFlush) with pending := s.pending } := by
  refine completes_with (f := sviResetCompleteRun n) rfl (decide_eq_true hn) hs ?_
  rw [sviResetCompleteRun_ends hu hi hr hw hop ho, if_neg hm, hc.renewCtxs]

end

/-! ### A queue pair has drained (R390, R415) -/

section
variable {s u v : State} {qp id : Nat} {p : QPair} (hq : qp < 8192) (hs : s.stopped = false) (hu : u = s.zciFlush) (hp : u.pair qp = some p)
  (hid : p.stopBy = some id) (hb : u.qpBusy qp id = false) (hv : v = u.setPair qp none)
include hq hs hu hp hid hb hv

/-- A drained pair is disabled; where it is the last for the command that stopped it, that command ends. -/
theorem queueDrainComplete_disables : Completes (.queueDrainComplete qp) s fun t => t = { (if v.draining id = true then v else
    ((v.zci.insts.foldl (fun s i => if i.2.op = 1 ∧ i.2.opId = id then s.setInst i.1 (some { i.2 with op := 0, opId := 0 }) else s) v).final
      id zDone 0 []).zciFlush) with pending := s.pending } := by
  refine completes_with (f := queueDrainCompleteRun qp) rfl (decide_eq_true hq) hs ?_
  unfold queueDrainCompleteRun
  dsimp only
  rw [← hu, hp]
  dsimp only
  rw [hid]
  dsimp only
  rw [hb, if_neg (by decide), ← hv]

end

/-- Settles O49, by the equations of the three completions. -/
theorem serviceCompletionsComplete : Obligations.ServiceCompletionsComplete := by
  refine ⟨fun s n i hn hs hi hr hw => ⟨sviFreezeComplete_completes hn hs rfl hi hr hw, fun hop ho => ?reset⟩,
    fun s qp p id hq hs hp hid hb => ?drain⟩
  case reset =>
    exact ⟨sviResetComplete_frees hn hs rfl hi hr hw hop ho, fun l v hm hc => sviResetComplete_renews hn hs rfl hi hr hw hop ho hm hc⟩
  case drain =>
    have h := queueDrainComplete_disables hq hs rfl hp hid hb rfl
    exact ⟨fun hd => by rwa [if_pos hd] at h, fun hd => by rwa [if_neg (by rw [hd]; decide)] at h⟩

end Sys2Proof.Machine
end

section
/-! SUPPORT.
Taking commands from the rings, the service firmware's path and the boot mailbox (R395–R407). -/

namespace Sys2Proof.Machine

/-! ### COMMAND_TAKE (R395, R397) -/

section
variable {u v : State} {qp : Nat} {p : QPair}

/-- The slot at HEAD that has been read. -/
theorem State.SlotRead.readSlot {b : List Byte} {x : Bool} (h : u.SlotRead v qp p b x) : u.readSlot qp p = (.ok b x, v) := by
  unfold State.SlotRead at h
  dsimp only at h
  unfold State.readSlot
  dsimp only
  cases ho : u.ownerOf qp with
  | some n =>
    rw [ho] at h
    obtain ⟨hpa, k, hit, hr⟩ := h
    have hx : u.iotuXlate 8 n (p.sq + 64 * p.head) 0 = (.ok (hpa, k), u.evt 15 0x48 0) := State.iotuXlateFor_hit (Nat.le_refl 8) hit
    dsimp only
    rw [hx]
    dsimp only
    rw [hr.uncBytes]
  | none =>
    rw [ho] at h
    obtain ⟨ht, hr⟩ := h
    dsimp only
    rw [if_pos ht, hr.uncBytes]

/-- A ring of the package's own that lies outside tiered memory is not read. -/
theorem readSlot_untiered (ho : u.ownerOf qp = none) (ht : u.rangeTiered (p.sq + 64 * p.head) 64 = false) :
    u.readSlot qp p = (.bad, u) := by
  unfold State.readSlot
  dsimp only
  rw [ho]
  dsimp only
  rw [ht, if_neg (by decide)]

end

/-- What follows the read of the slot at HEAD. -/
def takeSlot (qp : Nat) (p : QPair) : BufRes × State → State
  | (.ok b bad, v) =>
    if v.reserved qp + zneed ⟨qp, BitVec.ofNat 512 (leNat b), []⟩ > p.room then v.evt 15 0x1C 14
    else (v.ztake (if bad then fun _ _ s => s.poisonedBuffer else hAny) ⟨qp, BitVec.ofNat 512 (leNat b), []⟩).slotDone qp v.zci.nextId
  | (.wait, v) => v
  | (_, v) => v.pairError qp

section
variable {s u : State} {qp : Nat} {p : QPair} (hq : qp < 8192) (hs : s.stopped = false) (hu : u = s.zciFlush) (hp : u.pair qp = some p)
  (h1 : p.st = 1) (hne : p.head ≠ p.tail) (hm : u.atMaxout qp = false)
include hq hs hu hp h1 hne hm

omit hq hs in
/-- A RUNNING pair with a command at HEAD, whose service may have one more outstanding, reads its slot. -/
theorem commandTakeRun_reads : commandTakeRun qp s = takeSlot qp p (u.readSlot qp p) := by
  unfold commandTakeRun
  dsimp only
  rw [← hu, hp]
  dsimp only
  rw [hm, if_neg (by simp [h1, hne])]
  rfl

/-- A command is taken where the reply ring has room for its replies; otherwise the stall is counted. -/
theorem commandTake_takes {b : List Byte} {v : State} {z : ZCmd} (hr : u.SlotRead v qp p b false)
    (hz : z = ⟨qp, BitVec.ofNat 512 (leNat b), []⟩) :
    (v.reserved qp + zneed z ≤ p.room → Completes (.commandTake qp) s fun t =>
      t = { (v.ztake hAny z).slotDone qp v.zci.nextId with pending := s.pending }) ∧
    (p.room < v.reserved qp + zneed z → Completes (.commandTake qp) s fun t => t = { v.evt 15 0x1C 14 with pending := s.pending }) := by
  have hrun : commandTakeRun qp s = if v.reserved qp + zneed z > p.room then v.evt 15 0x1C 14
      else (v.ztake hAny z).slotDone qp v.zci.nextId := by
    rw [commandTakeRun_reads hu hp h1 hne hm, hr.readSlot, hz]
    rfl
  refine ⟨fun hroom => completes_with (f := commandTakeRun qp) rfl (decide_eq_true hq) hs ?_,
    fun hroom => completes_with (f := commandTakeRun qp) rfl (decide_eq_true hq) hs ?_⟩
  · rw [hrun, if_neg (Nat.not_lt.mpr hroom)]
  · rw [hrun, if_pos hroom]

theorem commandTake_faults (ho : u.ownerOf qp = none) (ht : u.rangeTiered (p.sq + 64 * p.head) 64 = false) :
    Completes (.commandTake qp) s fun t => t = { u.pairError qp with pending := s.pending } :=
  completes_with (f := commandTakeRun qp) rfl (decide_eq_true hq) hs
    ((commandTakeRun_reads hu hp h1 hne hm).trans (congrArg (takeSlot qp p) (readSlot_untiered ho ht)))

end

/-! ### FENCE_BEFORE_RELEASE (R398, R400) -/

/-- Whether the command is the first of its pair that a release lets begin. -/
def State.releasable (u : State) (qp : Nat) (o : ZOut) : Bool :=
  decide (o.z.qp = qp) && !o.begun && !o.sfWait && !o.paused && !u.zheld o

section
variable {s u : State} {qp : Nat} {o : ZOut} (hq : qp < 8192) (hs : s.stopped = false) (hu : u = s.zciFlush)
  (ho : u.zci.outs.find? (u.releasable qp) = some o)
include hq hs hu ho

theorem fenceBeforeRelease_broken (hk : u.chainBroken o = true) : Completes (.fenceBeforeRelease qp) s fun t =>
    t = { (u.endCmd o zNotPermitted dChain []).zciFlush with pending := s.pending } := by
  refine completes_with (f := fenceBeforeReleaseRun qp) rfl (decide_eq_true hq) hs ?_
  unfold fenceBeforeReleaseRun State.zrelease
  dsimp only
  rw [← hu]
  unfold State.releasable at ho
  rw [ho]
  dsimp only
  rw [if_pos hk]

/-- A command that is released begins with its handler; its ACCEPTED reply has been written unless its path is the service
firmware's. -/
theorem fenceBeforeRelease_begins (hk : u.chainBroken o = false) {r : Option State × State}
    (hr : u.zbegin hAny o (o.two && decide (qp ≠ 0) && decide (o.z.f 0 2 / 256 ≠ 0x20)) = r) :
    Completes (.fenceBeforeRelease qp) s fun t =>
      t = { (match r with | (some x, _) => x.zciFlush | (none, x) => x) with pending := s.pending } := by
  refine completes_with (f := fenceBeforeReleaseRun qp) rfl (decide_eq_true hq) hs ?_
  unfold fenceBeforeReleaseRun State.zrelease
  dsimp only
  rw [← hu]
  unfold State.releasable at ho
  rw [ho]
  dsimp only
  rw [hk, if_neg (by decide), hr] <;> rfl

end

/-- What a released command leaves that runs on, `w` where the service firmware is to accept it. -/
def State.zbegun (v : State) (o : ZOut) (w : Bool) : State := { v with zci := { v.zci with outs := v.zci.outs.map fun (x : ZOut) =>
  if x.id = o.id then { x with begun := true, sfWait := if w then true else x.sfWait } else x } }

section
variable {u v : State} {h : Handler} {o : ZOut}

/-- ACCEPTED is not written again for a command that is not the service firmware's. -/
theorem accepted_once {qp : Nat} (hqp : o.z.qp = qp) (hp : o.z.f 0 2 / 256 ≠ 0x20) :
    (o.two && !(o.two && decide (qp ≠ 0) && decide (o.z.f 0 2 / 256 ≠ 0x20)) && decide (o.z.qp ≠ 0)) = false := by
  rw [hqp, decide_eq_true hp]
  cases o.two <;> cases decide (qp ≠ 0) <;> rfl

variable {acc : Bool}

theorem zbegin_done {d : Nat} {r : List Byte} (hh : h o.id o.z u = (.done d r, v)) (ha : (o.two && !acc && decide (o.z.qp ≠ 0)) = false) :
    u.zbegin h o acc = (some (v.endCmd o zDone d r), v) := by
  unfold State.zbegin
  rw [hh]
  dsimp only
  rw [ha, if_neg (by decide)]

theorem zbegin_later (hh : h o.id o.z u = (.later, v)) (ha : (o.two && !acc && decide (o.z.qp ≠ 0)) = false) :
    u.zbegin h o acc = (some (v.zbegun o false), v) := by
  unfold State.zbegin
  rw [hh]
  dsimp only
  rw [ha, if_neg (by decide)]
  rfl

theorem zbegin_pass (hh : h o.id o.z u = (.pass, v)) : u.zbegin h o acc = (some ((v.zbegun o true).vecSp 2), v) := by
  unfold State.zbegin
  rw [hh]
  rfl

theorem zbegin_again (hh : h o.id o.z u = (.again, v)) : u.zbegin h o acc = (none, v) := by
  unfold State.zbegin
  rw [hh]

theorem zbegin_fail {st d : Nat} {x : ZOut} (hh : h o.id o.z u = (.fail st d, v)) (hx : v.zci.outs.find? (fun y => y.id = o.id) = some x) :
    u.zbegin h o acc = (some (v.endCmd x st d []), v) := by
  unfold State.zbegin
  rw [hh]
  dsimp only
  rw [hx]

theorem zbegin_failWith {st d : Nat} {r : List Byte} {x : ZOut} (hh : h o.id o.z u = (.failWith st d r, v))
    (hx : v.zci.outs.find? (fun y => y.id = o.id) = some x) : u.zbegin h o acc = (some (v.endCmd x st d r), v) := by
  unfold State.zbegin
  rw [hh]
  dsimp only
  rw [hx]

end

/-! ### The service firmware's path and Safelight's replies (R403–R405) -/

section
variable {s : State} (hs : s.stopped = false) {id : Nat}
include hs

section
variable {o : ZOut} (ho : s.zci.outs.find? (fun o => decide (o.id = id) && o.sfWait) = some o)
include ho

theorem sfAccept_accepts {u : State} (hu : u = { s with zci := { s.zci with
      outs := s.zci.outs.map fun (x : ZOut) => if x.id = id then { x with sfWait := false } else x } }) : Completes (.sfAccept id) s fun t =>
    t = { (if o.two && decide (o.z.qp ≠ 0) then u.queueRep o.z zAccepted 0 [] false else u).zciFlush with pending := s.pending } := by
  refine completes_with (f := sfAcceptRun id) rfl rfl hs ?_
  unfold sfAcceptRun
  rw [ho, hu]

theorem sfAcceptanceTimeout_ends : Completes (.sfAcceptanceTimeout id) s fun t =>
    t = { ((s.evt 15 0x1C 7).endCmd o zBusy dSfTimeout []).zciFlush with pending := s.pending } := by
  refine completes_with (f := sfAcceptanceTimeoutRun id) rfl rfl hs ?_
  unfold sfAcceptanceTimeoutRun
  rw [ho]

end

theorem sfPath_idle (ho : s.zci.outs.find? (fun o => decide (o.id = id) && o.sfWait) = none) :
    Completes (.sfAccept id) s (fun t => t = s) ∧ Completes (.sfAcceptanceTimeout id) s (fun t => t = s) := by
  refine ⟨completes_run' (f := sfAcceptRun id) (t := s) rfl hs ?_ rfl, completes_run' (f := sfAcceptanceTimeoutRun id) (t := s) rfl hs ?_ rfl⟩
  · unfold sfAcceptRun; rw [ho]
  · unfold sfAcceptanceTimeoutRun; rw [ho]

theorem firmwareReply_ends {st : BitVec 16} {d : BitVec 32} {r : BitVec 184} {o : ZOut}
    (ho : s.zciFlush.zci.outs.find? (fun o => decide (o.id = id) && o.begun && !o.sfWait) = some o) (hp : zpath o.z 0 = false) :
    Completes (.firmwareReply id st d r) s fun t =>
      t = { (s.zciFlush.endCmd o st.toNat d.toNat (leBytes 23 r.toNat)).zciFlush with pending := s.pending } := by
  refine completes_with (f := firmwareReplyRun id st d r) rfl rfl hs ?_
  unfold firmwareReplyRun
  dsimp only
  rw [ho]
  dsimp only
  split
  · next q hq =>
    unfold zpath at hp
    rw [hq] at hp
    exact absurd hp Bool.true_eq_false.mp
  · rfl

end

/-! ### The boot mailbox (R406, R407) -/

section
variable {s u v : State} {cmd : BitVec 512} {att : List Byte} (hs : s.stopped = false) (hu : u = s.pkgTouch 7 0)
include hs hu

theorem completes_mailbox (h : u.ztake hAny ⟨0, cmd, att⟩ = v) : Completes (.bootMailboxRequest cmd att) s fun t => t = { v with pending := s.pending } :=
  completes_with (f := bootMailboxRequestRun cmd att) rfl rfl hs (by rw [← h, hu]; rfl)

end

/-- Settles O53, event by event. -/
theorem commandTakingCompletes : Obligations.CommandTakingCompletes := by
  refine ⟨fun s qp hq hs => ⟨fun p hp h1 hne hm => ⟨fun b v z hr hz => commandTake_takes hq hs rfl hp h1 hne hm hr hz,
      commandTake_faults hq hs rfl hp h1 hne hm⟩, fun o ho => ⟨fenceBeforeRelease_broken hq hs rfl ho, fun hk => ?release⟩⟩,
    fun s hs => ⟨fun id o ho => ⟨fun u hu => sfAccept_accepts hs ho hu, sfAcceptanceTimeout_ends hs ho⟩, fun id ho => sfPath_idle hs ho,
      fun id st d r o ho hp => firmwareReply_ends hs ho hp, fun cmd att => ?mailbox⟩⟩
  case release =>
    have hqp : o.z.qp = qp := by
      have hfound := List.find?_some ho
      simp only [Bool.and_eq_true, decide_eq_true_eq] at hfound
      exact hfound.1.1.1.1
    have hgives := fun {r} => @fenceBeforeRelease_begins s s.zciFlush qp o hq hs rfl ho hk r
    intro h
    rcases hh : h with ⟨d, v⟩
    cases d
    case done d r => exact fun hpath => hgives (zbegin_done hh (accepted_once hqp hpath))
    case later => exact fun hpath => hgives (zbegin_later hh (accepted_once hqp hpath))
    case pass => exact hgives (zbegin_pass hh)
    case again => exact hgives (zbegin_again hh)
    case fail st d => exact fun x hx => hgives (zbegin_fail hh hx)
    case failWith st d r => exact fun x hx => hgives (zbegin_failWith hh hx)
  case mailbox =>
    intro u z hz h
    rcases hh : h with ⟨d, v⟩
    cases d
    case done d r => exact completes_mailbox hs rfl (ztake_done hz hh)
    case later => exact completes_mailbox hs rfl (ztake_later hz hh)
    case again => exact completes_mailbox hs rfl (ztake_again hz hh)
    all_goals exact trivial

end Sys2Proof.Machine
end

section
/-! SUPPORT.
FW_LOAD (R461) where SP0's cache holds the line that the chunk is written to: the write takes that copy out of the cache. -/

namespace Sys2Proof.Machine

/-! ### The counterexample -/

/-- A chunk with a header that names LOAD 0 and a SIZE of one byte, and that byte. -/
def chunkOfOne : List Byte := List.replicate 12 0 ++ leBytes 4 1 ++ List.replicate 240 0 ++ [0]

/-- A package in LOAD whose tiered memory is 1 GiB at 0 and whose Darkroom range ends at 0. -/
def loading : State :=
  (({ State.reset with plat := { State.reset.plat with memmap := [⟨0, 0x40000000, 0, 0, 0, 0⟩] } } : State).setStage 4).wr (kWldDrrange 0)
    (fWldDrrange_V.put 0 1)

/-- The write of the chunk's byte by Safelight. -/
def byteWrite : ReqKind × HomeReq := uncStore whoSafelight 0 0 true (lineOf [0]) (maskAt 0 1) false

/-- That package, where SP0 shares line 0 and the write is answered. -/
def sharingSp : State := { loading with
  spCache := [(0, ⟨0, .s, 0, false, 0, false⟩)]
  home := { loading.home with replies := [⟨byteWrite.1, byteWrite.2, .done⟩] } }

/-- FW_LOAD of that chunk for component 3 through the boot mailbox. -/
def loadChunk : ZCmd := ⟨0, BitVec.ofNat 512 (0x7F01 + 2 ^ 40 + 3 * 2 ^ (8 * 16) + 257 * 2 ^ (8 * 32)), chunkOfOne⟩

theorem sharingSp_ready : sharingSp.ZReady loadChunk := by
  unfold State.ZReady State.ZAdmits
  decide +kernel

theorem loadChunk_read : (sharingSp.zstarted loadChunk).BufRead (sharingSp.zstarted loadChunk) loadChunk (loadChunk.f 24 8) (loadChunk.f 32 4)
    (sliceB chunkOfOne (loadChunk.f 24 8) (loadChunk.f 32 4)) false := by
  have hfits : loadChunk.f 24 8 + loadChunk.f 32 4 ≤ loadChunk.attach.length := by decide +kernel
  exact ⟨by decide +kernel, hfits, rfl, rfl, rfl⟩

/-- The chunk as it stands in the image. -/
theorem loadChunk_bytes : ((sharingSp.zstarted loadChunk).image 3).take 0 ++ sliceB chunkOfOne (loadChunk.f 24 8) (loadChunk.f 32 4) = chunkOfOne := by
  decide +kernel

/-- The state in which the byte has been written, as the statement reads it. -/
def chunkWritten : State := { sharingSp.zstarted loadChunk with home := { (sharingSp.zstarted loadChunk).home with replies := [] } }

/-- The header names a place, and one byte of body follows it. -/
theorem chunkOfOne_body : ¬ ((chunkOfOne.take (256 + fieldB chunkOfOne 12 4)).drop (max 256 0) = [] ∨ chunkOfOne.length < 256 ∨
    (sharingSp.zstarted loadChunk).placed 3 (fieldB chunkOfOne 16 8) (fieldB chunkOfOne 12 4) = false ∨ 3 = 0) := by decide +kernel

theorem chunkOfOne_place : fieldB chunkOfOne 16 8 + max 256 0 - 256 = 0 ∧
    (chunkOfOne.take (256 + fieldB chunkOfOne 12 4)).drop (max 256 0) = [0] := by decide +kernel

theorem chunk_written : (sharingSp.zstarted loadChunk).RangeWritten chunkWritten whoSafelight 0 0 true [0] :=
  ⟨[.done], [], by decide +kernel, by decide +kernel, by decide +kernel, by decide +kernel, by decide +kernel, rfl⟩

/-- The model takes the line out of SP0's cache. -/
theorem loadChunk_clears : (match exec (.fwLoad loadChunk) sharingSp with | .next t => t.spCache.length | _ => 2) = 0 := by decide +kernel

/-- The statement leaves the line in SP0's cache. -/
theorem loadChunk_keeps : (sharingSp.zdone loadChunk (chunkWritten.setImage 3 (some ⟨chunkOfOne, chunkOfOne.length⟩)) 0
    (leBytes 4 chunkOfOne.length)).spCache.length = 1 := by decide +kernel

/-- The queue is no part of SP0's cache. -/
theorem spCache_of_queue {s t : State} {q : List Instr} (h : t = { s with pending := q }) : t.spCache = s.spCache := by rw [h]

/-- Refutes O50: its clause of FW_LOAD leaves every cache as it is. Safelight's write is an uncached request of SP0, which first takes
SP0's own copy of the line out of its cache (R186, R196); where SP0 shares that line, the copy is gone. -/
theorem not_bootCommandsComplete : ¬ Obligations.BootCommandsComplete := by
  intro h
  obtain ⟨-, -, -, -, load, -⟩ := h sharingSp loadChunk sharingSp_ready
  have hload := load 3 0 (by decide +kernel) (by decide +kernel) (by decide +kernel) (by decide +kernel) (by decide +kernel)
    (by decide +kernel) (by decide +kernel) (by decide +kernel) _ _ chunkWritten loadChunk_read
  rw [loadChunk_bytes] at hload
  have hoff : loadChunk.f 20 4 = 0 := by decide +kernel
  obtain ⟨t, he, ht⟩ := hload (by
    rw [hoff]
    unfold State.ChunkPlaced
    dsimp only
    rw [if_neg chunkOfOne_body, if_neg (by decide), if_neg (by decide), chunkOfOne_place.1, chunkOfOne_place.2]
    exact chunk_written)
  have hgone := loadChunk_clears
  rw [he] at hgone
  have hkept : t.spCache.length = 1 := (congrArg List.length (spCache_of_queue ht)).trans loadChunk_keeps
  exact absurd (hgone.symm.trans hkept) (by decide)

end Sys2Proof.Machine
end

section
/-! SUPPORT.
Atomics (R84, R85, R105–R109, R111): what a near atomic leaves of the package, how an atomic reaches its memory, and the ends of
AMO, CAS and CAS128. -/

namespace Sys2Proof.Machine

/-! ### What an access through a core's own caches changes -/

/-- Of the package only the Package Control Space and the caches and the contention predictor of one core may differ. -/
structure CachesOnly (s u : State) (n : Nat) : Prop where
  eq : CoresPcs s u
  ne : ∀ m, m ≠ n → u.core m = s.core m
  core : u.core n = { s.core n with caches := (u.core n).caches, pred := (u.core n).pred }

theorem CachesOnly.refl (s : State) (n : Nat) : CachesOnly s s n := ⟨.refl s, fun _ _ => rfl, rfl⟩

theorem CachesOnly.trans {s u w : State} {n : Nat} (h : CachesOnly s u n) (h' : CachesOnly u w n) : CachesOnly s w n :=
  ⟨h.eq.trans h'.eq, fun m hm => (h'.ne m hm).trans (h.ne m hm), by rw [h'.core, h.core]⟩

theorem cachesOnly_setCaches (s : State) (n : Nat) (c : CoreCaches) : CachesOnly s (s.setCaches n c) n :=
  ⟨coresPcs_setCore .., fun _ hm => State.core_setCore_ne _ _ hm, by unfold State.setCaches; rw [State.core_setCore_eq]⟩

theorem cachesOnly_of_cores {s u : State} (n : Nat) (h : CoresPcs s u) (hc : u.cores = s.cores) : CachesOnly s u n := by
  have hcore : ∀ m, u.core m = s.core m := fun m => by unfold State.core; rw [hc]
  exact ⟨h, fun m _ => hcore m, by rw [hcore]⟩

theorem cachesOnly_evtC (s : State) (n b i : Nat) : CachesOnly s (s.evtC n b i) n :=
  cachesOnly_of_cores n (coresPcs_evtC ..) (State.evtC_cores ..)

theorem cachesOnly_fput (s : State) (n k : Nat) (f : Fld) (v : Nat) : CachesOnly s (s.fput k f v) n :=
  cachesOnly_of_cores n rfl rfl

theorem cachesOnly_l1FillFrom (s : State) (n : Nat) (spot : Option Nat) (x : Sector) : CachesOnly s (s.l1FillFrom n spot x) n := by
  have put : ∀ f v c, CachesOnly s ((s.fput (kL1cLfsr n) f v).setCaches n c) n := fun f v c =>
    (cachesOnly_fput s n _ f v).trans (cachesOnly_setCaches _ n c)
  unfold State.l1FillFrom
  dsimp only
  split
  · exact cachesOnly_setCaches ..
  · split
    · exact cachesOnly_setCaches ..
    · split
      · exact put ..
      · exact put ..

theorem cachesOnly_l1Fill (s : State) (n : Nat) (x : Sector) : CachesOnly s (s.l1Fill n x) n := cachesOnly_l1FillFrom ..

theorem cachesOnly_l1Lookup (s : State) (n line : Nat) : CachesOnly s (s.l1Lookup n line).2 n := by
  have promote : ∀ c spot x i, CachesOnly s (((s.setCaches n c).l1FillFrom n spot x).evtC n 0x40 i) n := fun c spot x i =>
    (cachesOnly_setCaches s n c).trans ((cachesOnly_l1FillFrom _ n spot x).trans (cachesOnly_evtC ..))
  unfold State.l1Lookup
  dsimp only
  split
  · exact .refl s n
  · split
    · exact promote ..
    · split
      · exact promote ..
      · exact .refl s n

theorem cachesOnly_writeOwned {n : Nat} (hn : n < 216) (s : State) (l : CLine) (d : Line) (m : BitVec 64) :
    CachesOnly s (s.writeOwned n l d m) n := by
  unfold State.writeOwned
  dsimp only
  rw [if_neg (by omega)]
  refine CachesOnly.trans ?_ ((cachesOnly_l1Lookup ..).trans (cachesOnly_l1Fill ..))
  split
  · exact cachesOnly_setCaches ..
  · exact .refl s n

theorem cachesOnly_train (s : State) (n line : Nat) (b : Bool) : CachesOnly s (s.train n line b) n := by
  have hput : ∀ p, CachesOnly s (s.setCore n { s.core n with pred := p }) n := fun p =>
    ⟨coresPcs_setCore .., fun _ hm => State.core_setCore_ne _ _ hm, by rw [State.core_setCore_eq]⟩
  unfold State.train
  dsimp only
  split
  · exact (hput _).trans (cachesOnly_evtC ..)
  · exact hput _

theorem cachesOnly_l2Used (s : State) (n line : Nat) : CachesOnly s (s.l2Used n line) n := by
  unfold State.l2Used
  split
  · exact cachesOnly_setCaches ..
  · exact .refl s n

theorem cachesOnly_nearDone {n : Nat} (hn : n < 216) (s : State) (x : Xlat) (op : AmoOp) (size a b : Nat) (c : CLine) :
    CachesOnly s (s.nearDone n x op size a b c) n :=
  (cachesOnly_l2Used ..).trans ((cachesOnly_writeOwned hn ..).trans ((cachesOnly_evtC ..).trans (cachesOnly_train ..)))

section
variable {s u : State} {x : Insn} (h : CachesOnly s u x.core)
include h

theorem CachesOnly.pending : u.pending = s.pending := by rw [h.eq]

theorem CachesOnly.regAt (r w : Nat) : u.regAt x.core r w = s.regAt x.core r w := by unfold State.regAt; rw [h.core]

theorem CachesOnly.pr (p : PReg) : u.pr x.core p = s.pr x.core p := by unfold State.pr; rw [h.core]

theorem CachesOnly.dstWin : u.dstWin x = s.dstWin x := by
  have hc : (u.core x.core).cwp = (s.core x.core).cwp := by rw [h.core]
  unfold State.dstWin State.parentWin; rw [hc]

theorem CachesOnly.regWritten {t : State} {r w : Nat} {v : Word} (ht : u.RegWritten t x.core r w v) : s.RegWritten t x.core r w v :=
  fun r' w' => ⟨(ht r' w').1, fun hr => ((ht r' w').2 hr).trans (h.regAt r' w')⟩

end

/-! ### A line that the core owns (R106, R111) -/

/-- A core that owns a line obtains it at once (R182). -/
theorem State.ownLine_owned {s : State} {n line : Nat} {c : CLine} (h : s.Owns n line c) (key : Nat) (b : Bool) :
    s.ownLine n line key (s.core n).darkW b = (.line c false, s.l2Used n line) := by
  obtain ⟨hn, hcur, hseen, hst, -⟩ := h
  have hst' : c.st = .m ∨ c.st = .e := hst
  unfold State.ownLine State.l2Used
  dsimp only
  rw [if_neg (by omega), hcur]
  dsimp only
  rw [hseen, if_neg (by decide), if_pos hst']

/-- A near atomic on an owned line answers the old bytes (R105, R106). -/
theorem State.nearAtomic_owned {s : State} {n : Nat} {x : Xlat} {c : CLine} (h : s.Owns n (x.hpa / 64) c) (op : AmoOp) (size a b : Nat) :
    s.nearAtomic n x (s.core n).darkW op size a b = (.ok (lineField c.data (x.hpa % 64) size, false), s.nearDone n x op size a b c) := by
  have hown := State.ownLine_owned h x.key true
  obtain ⟨hn, hcur, hseen, hst, hp⟩ := h
  have hheld : (seen c (s.core n).darkW && decide (c.st = .m ∨ c.st = .e)) = true := by rw [hseen, decide_eq_true hst]; rfl
  have htry : ((s.l2Used n (x.hpa / 64)).core n).nearTry = (s.core n).nearTry := by rw [(cachesOnly_l2Used s n _).core]
  have hshared : ((s.l2Used n (x.hpa / 64)).core n).nearShared (x.hpa / 64) = (s.core n).nearShared (x.hpa / 64) := by
    unfold Core.nearShared; rw [htry]
  unfold State.nearAtomic State.nearDone
  dsimp only
  rw [hcur]
  dsimp only
  rw [if_pos hheld, hown]
  dsimp only
  rw [hp, hshared]
  rfl

/-- Settles O14: a near atomic finds its line owned, and its line is written as the home would. -/
theorem nearAtomicUpdatesLine : Obligations.NearAtomicUpdatesLine :=
  fun _ _ _ op size a b _ h => ⟨State.nearAtomic_owned h op size a b, _, rfl, rfl⟩

/-! ### How an atomic reaches its memory (R84, R105) -/

theorem State.ordFirst_ordered {s : State} {x : Insn} (h : s.Ordered x) : s.ordFirst x = (.ok (), s) := by
  obtain ⟨hrel, hfab⟩ := h
  have hnone : (x.kind.getLsbD 0 && (s.core x.core).sb.any (·.rel)) = false := by
    cases hk : x.kind.getLsbD 0 with
    | false => rfl
    | true => rw [hrel hk]; rfl
  have hgo : ¬ (x.kind ≠ 0 ∧ x.scope = 2 ∧ s.fabWaits x.core = true) := fun ⟨hk, hs, hw⟩ => by rw [hfab hk hs] at hw; cases hw
  unfold State.ordFirst State.sbFirst
  dsimp only
  rw [hnone]
  exact congrArg (Prod.mk · s) (if_neg hgo)

/-- A compute core's access wakes no part of the package (Table 17-5). -/
theorem State.spTouch_compute {s : State} {n : Nat} (hn : n < 216) : s.spTouch n = s := by unfold State.spTouch; exact if_neg (by omega)

/-- The store buffer entry of a posted atomic (R108). -/
def State.postedEnt (s : State) (x : Insn) (l : Xlat) (op : AmoOp) (size operand : Nat) : SbEnt :=
  { hpa := l.hpa, size := size, data := 0, type := l.type, key := l.key, dark := s.coreDark x.core, amo := some (op, operand),
    rel := decide (x.kind = 2), fab := decide (x.scope = 2), trains := true }

section
variable {s u : State} {x : Insn} {va hint size operand compare : Nat} {op : AmoOp} {posted : Bool} {l : Xlat} {old : Nat}
  (hn : x.core < 216) (ha : va % size = 0) (ho : s.Ordered x) (hl : s.Translates x.core 3 va l) (ht : l.type < 2)
  (hc : s.Cacheable (l.hpa / 64)) (hsb : (s.core x.core).sb = [])
include hn ha ho hl ht hc hsb

/-- An aligned atomic of a compute core that nothing holds up ends as it does where it is performed. -/
theorem State.atomicVa_performed
    (hr : (if s.goesFar x.core (l.hpa / 64) l.type hint then s.farAtomic x l (s.coreDark x.core) op size operand compare posted
      else s.nearAtomic x.core l (s.coreDark x.core) op size operand compare) = (.ok (old, false), u)) :
    s.atomicVa x va op size operand compare hint posted = (.ok old, u) := by
  have hscr : inScratch x.core l.hpa = false := by unfold inScratch; exact decide_eq_false (by omega)
  unfold State.atomicVa
  dsimp only
  rw [if_neg (not_not.mpr ha), State.ordFirst_ordered ho]
  dsimp only [andThen]
  rw [State.xlSelf_hit hl (by decide)]
  dsimp only
  rw [if_neg (by omega), hscr, if_neg (by decide), State.sbEmpty_nil hsb]
  dsimp only
  rw [hr]
  rcases hc with h | h <;> rw [h] <;> rfl

theorem State.atomicVa_near {c : CLine} (hf : s.goesFar x.core (l.hpa / 64) l.type hint = false) (hown : s.Owns x.core (l.hpa / 64) c) :
    s.atomicVa x va op size operand compare hint posted =
      (.ok (lineField c.data (l.hpa % 64) size), s.nearDone x.core l op size operand compare c) := by
  refine State.atomicVa_performed hn ha ho hl ht hc hsb ?_
  rw [hf, if_neg (by decide), State.coreDark_compute hn]
  exact State.nearAtomic_owned hown op size operand compare

/-- A posted atomic that goes far is put into the store buffer (R108). -/
theorem State.atomicVa_posted (hf : s.goesFar x.core (l.hpa / 64) l.type hint = true) :
    s.atomicVa x va op size operand compare hint true =
      (.ok 0, (s.evtC x.core 0 8).setCore x.core { s.core x.core with sb := [s.postedEnt x l op size operand] }) := by
  refine State.atomicVa_performed hn ha ho hl ht hc hsb ?_
  rw [if_pos hf]
  unfold State.farAtomic
  dsimp only
  rw [State.spTouch_compute hn, State.core_evtC, hsb]
  rfl

end

/-! ### The ends of the atomics -/

/-- What the end of an instruction with one destination register leaves of the state that its operation left. -/
theorem State.dst_finishInsn (u : State) (x : Insn) (r : Reg) (v pc : Word) :
    let t := (u.dst x r v).finishInsn x pc none
    CoresPcs u t ∧ (∀ m, m ≠ x.core → t.core m = u.core m) ∧ (t.core x.core).pc = pcOf (pc + BitVec.ofNat 64 x.len) ∧
      u.RegWritten t x.core r.toNat (u.dstWin x) v ∧ u.SamePreds t x.core := by
  refine ⟨(coresPcs_setRegAt ..).trans (coresPcs_finishInsn ..), fun m hm => ?_, ?_, fun r' w' => ?_, fun p => ?_⟩
  · exact (State.core_finishInsn_ne _ _ _ _ hm).trans (State.core_setRegAt_ne _ _ _ _ _ hm)
  · rw [State.core_finishInsn]; rfl
  · rw [State.finishInsn_regAt]
    have h := State.regAt_setRegAt u x.core r.toNat (u.dstWin x) v r' w'
    exact ⟨fun i => h.trans (if_pos i), fun i => h.trans (if_neg i)⟩
  · rw [State.finishInsn_pr]; exact State.setRegAt_pr ..

theorem State.dst_pending (u : State) (x : Insn) (r : Reg) (v : Word) : (u.dst x r v).pending = u.pending := State.setRegAt_pending ..

/-- An instruction with one destination whose access answers a value and leaves the queue of waiting commands as it was. -/
theorem completes_dst {s u : State} {x : Insn} {k : Chk} {body : State → Got (Option Word) × State} {rd : Reg} {v : Word}
    (h : s.Executes x k) (hb : body s = (.ok none, u.dst x rd v)) (hp : u.pending = s.pending) :
    ∃ t, runs x.wf (fun s => s.insn x k body) s = .next t ∧ (t.core x.core).pc = s.nextPc x ∧
      t = { u with cores := t.cores, pcs := t.pcs } ∧ (∀ m, m ≠ x.core → t.core m = u.core m) ∧
      u.RegWritten t x.core rd.toNat (u.dstWin x) v := by
  obtain ⟨hf, hne, hpc, hw, -⟩ := u.dst_finishInsn x rd v (s.core x.core).pc
  exact completes_ok h hb ((State.dst_pending ..).trans hp) ⟨hpc, hf, hne, hw⟩

/-- An instruction with one destination whose access changes no more than the core's caches and predictor. -/
theorem completes_dst_caches {s u : State} {x : Insn} {k : Chk} {body : State → Got (Option Word) × State} {rd : Reg} {v : Word}
    (h : s.Executes x k) (hb : body s = (.ok none, u.dst x rd v)) (hu : CachesOnly s u x.core) :
    ∃ t, runs x.wf (fun s => s.insn x k body) s = .next t ∧
      t = { (u.dst x rd v).finishInsn x (s.core x.core).pc none with pending := s.pending } ∧ (t.core x.core).pc = s.nextPc x ∧
      s.RegWritten t x.core rd.toNat (s.dstWin x) v ∧ s.SamePreds t x.core ∧ ∀ m, m ≠ x.core → t.core m = s.core m := by
  obtain ⟨-, hne, hpc, hw, hpr⟩ := u.dst_finishInsn x rd v (s.core x.core).pc
  refine completes_ok' h hb ⟨rfl, ?_⟩
  rw [State.finishInsn_withPending ((State.dst_pending ..).trans hu.pending)]
  rw [hu.dstWin] at hw
  exact ⟨hpc, hu.regWritten hw, fun p => (hpr p).trans (hu.pr p), fun m hm => (hne m hm).trans (hu.ne m hm)⟩

/-- What AMO does once its checks have passed. -/
def amoBody (op : AmoOp) (x : Insn) (rd ra rv : Reg) (hint : BitVec 2) (sz : Bool) (s : State) : Got (Option Word) × State :=
  andThen (s.atomicVa x (s.src x ra).toNat op (if sz then 4 else 8) (s.src x rv).toNat 0 hint.toNat
    (decide (rd = 0) && decide (x.kind = 0 ∨ x.kind = 2))) fun old s => (.ok none, s.dst x rd (if sz then sextW 32 old else BitVec.ofNat 64 old))

/-- Every AMO runs as the one of its operation (R105). -/
theorem amo_exec : ∀ c ∈ [(Instr.amoSwap, AmoOp.swap), (.amoAdd, .add), (.amoAnd, .and), (.amoOr, .or), (.amoXor, .xor), (.amoMin, .min),
      (.amoMax, .max), (.amoUmin, .umin), (.amoUmax, .umax)],
    ∀ (x : Insn) (rd ra rv : Reg) (hint : BitVec 2) (sz : Bool) (s : State),
      exec (c.1 x rd ra rv hint sz) s = runs x.wf (fun u => u.insn x
        { valid := decide (hint ≠ 3), ord := true, align := s.alignEarly x ra ra (if sz then 4 else 8) } (amoBody c.2 x rd ra rv hint sz)) s := by
  intro c hc x rd ra rv hint sz s
  have run : exec (c.1 x rd ra rv hint sz) s = runs x.wf (amoRun c.2 x rd ra rv hint sz) s := by
    simp only [List.mem_cons, List.not_mem_nil, or_false] at hc
    rcases hc with rfl | rfl | rfl | rfl | rfl | rfl | rfl | rfl | rfl <;> rfl
  rw [run]
  exact run_congr rfl

section
variable {c : (Insn → Reg → Reg → Reg → BitVec 2 → Bool → Instr) × AmoOp}
  (hc : c ∈ [(Instr.amoSwap, AmoOp.swap), (.amoAdd, .add), (.amoAnd, .and), (.amoOr, .or), (.amoXor, .xor), (.amoMin, .min),
    (.amoMax, .max), (.amoUmin, .umin), (.amoUmax, .umax)])
  {s : State} {x : Insn} {rd ra rv : Reg} {hint : BitVec 2} {sz : Bool}
  (h : s.Executes x { valid := decide (hint ≠ 3), ord := true, align := s.alignEarly x ra ra (if sz then 4 else 8) })
include hc h

/-- An AMO writes what its access answers. -/
theorem amo_general {u : State} {old : Nat}
    (hu : s.atomicVa x (s.src x ra).toNat c.2 (if sz then 4 else 8) (s.src x rv).toNat 0 hint.toNat
      (decide (rd = 0) && decide (x.kind = 0 ∨ x.kind = 2)) = (.ok old, u)) (hp : u.pending = s.pending) :
    Completes (c.1 x rd ra rv hint sz) s fun t =>
      (t.core x.core).pc = s.nextPc x ∧ t = { u with cores := t.cores, pcs := t.pcs } ∧ (∀ m, m ≠ x.core → t.core m = u.core m) ∧
      u.RegWritten t x.core rd.toNat (u.dstWin x) (if sz then sextW 32 old else BitVec.ofNat 64 old) := by
  unfold Completes
  rw [amo_exec c hc]
  exact completes_dst h (by unfold amoBody; rw [hu]; rfl) hp

variable (ha : (s.src x ra).toNat % (if sz then 4 else 8) = 0) (ho : s.Ordered x) {l : Xlat} (hl : s.Translates x.core 3 (s.src x ra).toNat l)
  (hsb : (s.core x.core).sb = [])
include ha ho hl hsb

theorem amo_near {k : CLine} (ht : l.type = 0) (hk : s.lineKind (l.hpa / 64) = .tiered)
    (hf : s.goesFar x.core (l.hpa / 64) l.type hint.toNat = false) (hown : s.Owns x.core (l.hpa / 64) k) :
    Completes (c.1 x rd ra rv hint sz) s fun t =>
      let old := lineField k.data (l.hpa % 64) (if sz then 4 else 8)
      let v := if sz then sextW 32 old else BitVec.ofNat 64 old
      t = { ((s.nearDone x.core l c.2 (if sz then 4 else 8) (s.src x rv).toNat 0 k).dst x rd v).finishInsn x (s.core x.core).pc none with
        pending := s.pending } ∧
      (t.core x.core).pc = s.nextPc x ∧ s.RegWritten t x.core rd.toNat (s.dstWin x) v ∧ s.SamePreds t x.core ∧
      ∀ m, m ≠ x.core → t.core m = s.core m := by
  unfold Completes
  rw [amo_exec c hc]
  refine completes_dst_caches h ?_ (cachesOnly_nearDone hown.1 ..)
  unfold amoBody
  rw [State.atomicVa_near hown.1 ha ho hl (by omega) (.inl hk) hsb hf hown]
  rfl

theorem amo_posted (hn : x.core < 216) (hrd : rd = 0) (hrel : x.kind.getLsbD 0 = false) (ht : l.type < 2) (hk : s.Cacheable (l.hpa / 64))
    (hf : s.goesFar x.core (l.hpa / 64) l.type hint.toNat = true) :
    Completes (c.1 x rd ra rv hint sz) s fun t =>
      t = { s with cores := t.cores, pcs := t.pcs } ∧ (∀ m, m ≠ x.core → t.core m = s.core m) ∧
      t.core x.core = ({ s.core x.core with sb := [s.postedEnt x l c.2 (if sz then 4 else 8) (s.src x rv).toNat] }).past (s.nextPc x) := by
  have hposted : (decide (rd = 0) && decide (x.kind = 0 ∨ x.kind = 2)) = true := by
    have hkind : x.kind = 0 ∨ x.kind = 2 := by
      rcases bitVec2_cases x.kind with e | e | e | e
      · exact .inl e
      · rw [e] at hrel; exact absurd hrel (by decide)
      · exact .inr e
      · rw [e] at hrel; exact absurd hrel (by decide)
    rw [decide_eq_true hrd, decide_eq_true hkind]; rfl
  have hbody : amoBody c.2 x rd ra rv hint sz s =
      (.ok none, (s.evtC x.core 0 8).setCore x.core { s.core x.core with sb := [s.postedEnt x l c.2 (if sz then 4 else 8) (s.src x rv).toNat] }) := by
    unfold amoBody
    rw [hposted, State.atomicVa_posted hn ha ho hl ht hk hsb hf, hrd]
    rfl
  unfold Completes
  rw [amo_exec c hc]
  refine completes_ok h hbody (State.evtC_pending ..) ⟨?_, fun m hm => ?_, ?_⟩
  · exact (coresPcs_evtC ..).trans ((coresPcs_setCore ..).trans (coresPcs_finishInsn ..))
  · exact (State.core_finishInsn_ne _ _ _ _ hm).trans ((State.core_setCore_ne _ _ hm).trans (State.core_evtC ..))
  · rw [State.core_finishInsn, State.core_setCore_eq]
    rfl

end

/-! ### CAS128 (R38, R80) -/

/-- The register after an even one. -/
theorem Reg.succ_of_even {r : Reg} (h : r.toNat % 2 = 0) : (r + 1).toNat = r.toNat + 1 := by
  have : r.toNat < 32 := r.isLt
  rw [BitVec.toNat_add, show (1 : BitVec 5).toNat = 1 from rfl]
  omega

theorem isReg_self {n r w : Nat} (h : r ≠ 0) : IsReg n r w r w := ⟨h, by split <;> [rfl; exact ⟨by omega, rfl⟩]⟩

/-- The state after the two destinations of CAS128 are written: the even register holds the low 8 bytes. -/
theorem State.dstPair_regAt (u : State) (x : Insn) (r : Reg) (lo hi : Word) (h : r.toNat % 2 = 0) :
    let t := (u.dst x r lo).dst x (r + 1) hi
    t.regAt x.core (r + 1).toNat (u.dstWin x) = hi ∧ (r ≠ 0 → t.regAt x.core r.toNat (u.dstWin x) = lo) := by
  have hw : (u.dst x r lo).dstWin x = u.dstWin x := (regFileOnly_setRegAt ..).dstWin
  have hs := Reg.succ_of_even h
  have hread := State.regAt_setRegAt (u.dst x r lo) x.core (r + 1).toNat (u.dstWin x) hi
  rw [show (u.dst x r lo).dst x (r + 1) hi = (u.dst x r lo).setRegAt x.core (r + 1).toNat (u.dstWin x) hi by rw [← hw]; rfl]
  refine ⟨(hread _ _).trans (if_pos (isReg_self (by omega))), fun hr => ?_⟩
  have hr0 : r.toNat ≠ 0 := fun e => hr (BitVec.eq_of_toNat_eq e)
  have hself := isReg_self (n := x.core) (w := u.dstWin x) hr0
  have hother : ¬ IsReg x.core (r + 1).toNat (u.dstWin x) r.toNat (u.dstWin x) := fun hit => by
    have := congrArg BitVec.toNat (hself.name_unique hit); omega
  exact ((hread _ _).trans (if_neg hother)).trans ((State.regAt_setRegAt u ..).trans (if_pos hself))

/-- What the end of a CAS128 leaves of the state that its access left. -/
theorem State.dstPair_finishInsn (u : State) (x : Insn) (r : Reg) (lo hi pc : Word) (h : r.toNat % 2 = 0) :
    let t := ((u.dst x r lo).dst x (r + 1) hi).finishInsn x pc none
    CoresPcs u t ∧ (∀ m, m ≠ x.core → t.core m = u.core m) ∧ (t.core x.core).pc = pcOf (pc + BitVec.ofNat 64 x.len) ∧
      t.regAt x.core (r + 1).toNat (u.dstWin x) = hi ∧ (r ≠ 0 → t.regAt x.core r.toNat (u.dstWin x) = lo) := by
  obtain ⟨hhi, hlo⟩ := u.dstPair_regAt x r lo hi h
  refine ⟨(coresPcs_setRegAt ..).trans ((coresPcs_setRegAt ..).trans (coresPcs_finishInsn ..)), fun m hm => ?_, ?_,
    (State.finishInsn_regAt ..).trans hhi, fun hr => (State.finishInsn_regAt ..).trans (hlo hr)⟩
  · exact (State.core_finishInsn_ne _ _ _ _ hm).trans
      ((State.core_setRegAt_ne _ _ _ _ _ hm).trans (State.core_setRegAt_ne _ _ _ _ _ hm))
  · rw [State.core_finishInsn]; rfl

/-- What CAS128 does once its checks have passed. -/
def cas128Body (x : Insn) (rd ra rexp rnew : Reg) (hint : BitVec 2) (s : State) : Got (Option Word) × State :=
  let pair (s : State) (r : Reg) : Nat := (s.src x r).toNat + (s.src x (r + 1)).toNat * 2 ^ 64
  andThen (s.atomicVa x (s.src x ra).toNat .cas128 16 (pair s rnew) (pair s rexp) hint.toNat false) fun old s =>
    (.ok none, (s.dst x rd (BitVec.ofNat 64 old)).dst x (rd + 1) (BitVec.ofNat 64 (old / 2 ^ 64)))

/-- CAS128 of even registers where the package has it (R38). -/
theorem cas128_exec {s : State} {x : Insn} {rd ra rexp rnew : Reg} (hint : BitVec 2) (hn : x.core < 216)
    (hcap : (s.rd kMgtEffcap).getLsbD 17 = true) (hd : rd.toNat % 2 = 0) (ha : ra.toNat % 2 = 0) (he : rexp.toNat % 2 = 0)
    (hw : rnew.toNat % 2 = 0) :
    exec (.cas128 x rd ra rexp rnew hint) s = runs x.wf (fun u => u.insn x
      { valid := decide (hint ≠ 3), ord := true, align := s.alignEarly x ra ra 16 } (cas128Body x rd ra rexp rnew hint)) s := by
  refine (show _ = runs x.wf (cas128Run x rd ra rexp rnew hint) s from rfl).trans (run_congr ?_)
  unfold cas128Run
  dsimp only
  rw [hd, ha, he, hw, hcap, decide_eq_false (show ¬ x.core ≥ 216 by omega)]
  simp only [decide_true, Bool.and_true, Bool.not_true, Bool.or_self]
  rfl

/-- Settles O13, row by row. -/
theorem atomicInstructionsComplete : Obligations.AtomicInstructionsComplete := by
  refine ⟨fun c hc s x rd ra rv hint sz => ?amo, fun s x rd ra rexp rnew hint => ?cas, fun s x rd ra rexp rnew hint => ?cas128⟩
  case amo =>
    intro n size va h ha ho
    exact ⟨fun l k hl ht hk hsb hf hown => amo_near hc h ha ho hl hsb ht hk hf hown,
      fun l hn hrd hrel hl ht hk hsb hf => amo_posted hc h ha ho hl hsb hn hrd hrel ht hk hf, fun u old hu hp => amo_general hc h hu hp⟩
  case cas =>
    intro n va h ha ho
    have run : ∀ {P : State → Prop}, (∃ t, runs x.wf (fun u => u.insn x { valid := decide (hint ≠ 3), ord := true, align := s.alignEarly x ra ra 8 }
        fun s => andThen (s.atomicVa x (s.src x ra).toNat .cas 8 (s.src x rnew).toNat (s.src x rexp).toNat hint.toNat false) fun old s =>
          (.ok none, s.dst x rd (BitVec.ofNat 64 old))) s = .next t ∧ P t) → Completes (.cas x rd ra rexp rnew hint) s P :=
      completes_congr (f := casRun x rd ra rexp rnew hint) _ rfl
    refine ⟨fun l k hl ht hk hsb hf hown => run (completes_dst_caches h ?_ (cachesOnly_nearDone hown.1 ..)),
      fun u old hu hp => run (completes_dst h ?_ hp)⟩
    · rw [State.atomicVa_near hown.1 ha ho hl (by omega) (.inl hk) hsb hf hown]; rfl
    · rw [hu]; rfl
  case cas128 =>
    intro n va new exp h ha ho hn hcap hrd hra hexp hnew
    refine ⟨fun l k hl ht hk hsb hf hown => ?near, fun u old hu hp => ?general⟩ <;> unfold Completes <;>
      rw [cas128_exec hint hn hcap hrd hra hexp hnew]
    case near =>
      have hu := State.atomicVa_near (op := .cas128) (size := 16) (operand := new) (compare := exp) (posted := false)
        hn ha ho hl (by omega) (.inl hk) hsb hf hown
      have hc := cachesOnly_nearDone hn s l .cas128 16 new exp k
      obtain ⟨-, hne, hpc, hhi, hlo⟩ := (s.nearDone x.core l .cas128 16 new exp k).dstPair_finishInsn x rd
        (BitVec.ofNat 64 (lineField k.data (l.hpa % 64) 16)) (BitVec.ofNat 64 (lineField k.data (l.hpa % 64) 16 / 2 ^ 64)) (s.core x.core).pc hrd
      refine completes_ok' h (by unfold cas128Body; dsimp only; rw [hu]; rfl) ⟨rfl, ?_⟩
      rw [State.finishInsn_withPending ((State.dst_pending ..).trans ((State.dst_pending ..).trans hc.pending))]
      rw [hc.dstWin] at hhi hlo
      exact ⟨hpc, hhi, hlo, fun m hm => (hne m hm).trans (hc.ne m hm)⟩
    case general =>
      obtain ⟨hf, hne, hpc, hhi, hlo⟩ := u.dstPair_finishInsn x rd (BitVec.ofNat 64 old) (BitVec.ofNat 64 (old / 2 ^ 64)) (s.core x.core).pc hrd
      exact completes_ok h (by unfold cas128Body; dsimp only; rw [hu]; rfl) ((State.dst_pending ..).trans ((State.dst_pending ..).trans hp))
        ⟨hpc, hf, hne, hhi, hlo⟩

end Sys2Proof.Machine
end

section
/-! SUPPORT.
Loads, stores and fences (R84, R87, R92–R97, R143): an access that lies in one page and one line, which the core's own caches or its
store buffer take, and the rows of LOAD, STORE, FENCE, FABRIC_FENCE_COMPLETE and TLBSYNC. -/

namespace Sys2Proof.Machine

/-! ### An access in one page and one line -/

theorem MemOp.size_pos {m : MemOp} (h : m.wf = true) : 0 < m.size := by
  unfold MemOp.wf at h
  split at h <;> simp only [decide_eq_true_eq] at h <;> omega

theorem MemOp.size_vec {m : MemOp} (h : m.wf = true) (hv : m.vec = true) : m.size = 64 := by
  unfold MemOp.wf at h
  rw [if_pos hv] at h
  exact of_decide_eq_true h

/-- A range inside one line is one piece. -/
theorem linePieces_single {a len : Nat} (k : Nat) (h0 : 0 < len) (h : a % 64 + len ≤ 64) :
    linePieces (k + 2) a len = [(a / 64, a % 64, len)] := by
  rw [linePieces, if_neg (by omega)]
  dsimp only
  rw [Nat.min_eq_left (by omega), Nat.sub_self, linePieces, if_pos rfl]

/-- A range inside one page is translated at once (R129). -/
theorem State.xlRange_page {s : State} {n acc va len : Nat} {l : Xlat} (ha : acc ≠ 2) (hl : s.Translates n acc va l) (h0 : 0 < len)
    (h : va % 4096 + len ≤ 4096) :
    State.xlRange 3 s n acc (s.core n).level (s.core n).darkW cData none va len = (.ok [(l, len)], s) := by
  have hx : s.xl n acc (s.core n).level (s.core n).darkW cData none va = (.ok l, s) := State.xlSelf_hit hl ha
  rw [State.xlRange, if_neg (by omega)]
  dsimp only
  rw [hx, Nat.min_eq_left (by omega), Nat.sub_self]
  dsimp only [andThen]
  rw [State.xlRange, if_pos rfl]

theorem State.notScratch {n : Nat} (hn : n < 216) (hpa : Nat) : inScratch n hpa = false := by unfold inScratch; exact decide_eq_false (by omega)

/-- A compute core's load of a line that its L1D holds (R153). -/
theorem State.loadLine_hit {s : State} {n line : Nat} {k : Sector} (hn : n < 216) (h : (s.core n).caches.l1Sector line = some k)
    (dark : Bool) (hd : dark = true ∨ k.dark = false) (key : Nat) (spec : Bool) :
    s.loadLine n line key dark spec = (.line ⟨line, .s, k.data, k.poison, k.key, k.dark⟩ false, s) := by
  have hhit : s.l1Lookup n line = (true, s) := by unfold State.l1Lookup; dsimp only; rw [h]; rfl
  have hseen : (dark || !k.dark) = true := by rcases hd with e | e <;> rw [e] <;> simp
  unfold State.loadLine
  dsimp only
  rw [if_neg (by omega), hhit, if_pos rfl, h]
  dsimp only
  rw [hseen, if_pos rfl]

section
variable {s : State} {n va len : Nat} {l : Xlat} (hn : n < 216) (h0 : 0 < len) (hp : va % 4096 + len ≤ 4096)
  (hline : l.hpa % 64 + len ≤ 64) (hc : s.Cacheable (l.hpa / 64))
include hn h0 hp hline hc

/-- A load of a line that the core's L1D holds answers the line's bytes with the core's own stores over them (R87). -/
theorem State.ldVa_hit {k : Sector} (hl : s.Translates n 0 va l) (ht : l.type = 0) (ha : s.amoPending n (l.hpa / 64) = false)
    (hk : (s.core n).caches.l1Sector (l.hpa / 64) = some k) (hd : (s.core n).darkW = true ∨ k.dark = false) (hpo : k.poison = false) :
    s.ldVa n va len = (.ok (leBytes len (lineField (s.overlay n (l.hpa / 64) k.data) (l.hpa % 64) len)), s) := by
  have hld : s.ldLine n (s.core n).darkW l.type l.key l.hpa len =
      (.ok (leBytes len (lineField (s.overlay n (l.hpa / 64) k.data) (l.hpa % 64) len), false), s) := by
    have hfree : (s.amoPending n (l.hpa / 64) || decide (l.type ≥ 2)) = false := by rw [ha, ht]; rfl
    unfold State.ldLine State.sbFirst
    dsimp only
    rw [State.spTouch_compute hn, hfree, if_neg (by decide)]
    dsimp only [andThen]
    rw [if_pos ht, State.loadLine_hit hn hk _ hd]
    dsimp only
    rw [hpo]
  have hpiece : s.ldPiece n (s.core n).darkW l len =
      (.ok (leBytes len (lineField (s.overlay n (l.hpa / 64) k.data) (l.hpa % 64) len), false), s) := by
    have haddr : l.hpa / 64 * 64 + l.hpa % 64 = l.hpa := by omega
    unfold State.ldPiece
    rw [State.notScratch hn, if_neg (by decide), linePieces_single 64 h0 hline]
    dsimp only [List.foldl_cons, List.foldl_nil, andThen]
    rw [haddr, hld]
    rcases hc with h | h <;> rw [h] <;> rfl
  unfold State.ldVa State.ldPieces
  dsimp only
  rw [State.xlRange_page (by decide) hl h0 hp]
  dsimp only [andThen, List.foldl_cons, List.foldl_nil]
  rw [hpiece]
  rfl

/-- A store to cacheable memory is put at the end of the core's store buffer (R87). -/
theorem State.stVa_buffers {bytes : List Byte} {rel fab : Bool} (hl : s.Translates n 1 va l) (hb : bytes.length = len) :
    s.stVa n va bytes rel fab = (.ok (), s.setCore n { s.core n with
      sb := (s.core n).sb ++ [({
        hpa := l.hpa, size := len, data := lineOf bytes, type := l.type, key := l.key, dark := (s.core n).darkW, amo := none, rel := rel,
        fab := fab, trains := false } : SbEnt)] }) := by
  have haddr : l.hpa / 64 * 64 + l.hpa % 64 = l.hpa := by omega
  have hpiece : s.stPiece n (s.core n).darkW l bytes rel fab = (.ok (), s.setCore n { s.core n with
      sb := (s.core n).sb ++ [({
        hpa := l.hpa, size := len, data := lineOf bytes, type := l.type, key := l.key, dark := (s.core n).darkW, amo := none, rel := rel,
        fab := fab, trains := false } : SbEnt)] }) := by
    unfold State.stPiece
    rw [State.notScratch hn, if_neg (by decide), hb, linePieces_single 64 h0 hline]
    dsimp only
    rw [State.spTouch_compute hn, List.map_singleton]
    dsimp only
    rw [haddr, Nat.sub_self, sliceB_whole _ _ hb]
    rcases hc with h | h <;> rw [h]
  unfold State.stVa State.stPieces
  dsimp only
  rw [hb, State.xlRange_page (by decide) hl h0 hp]
  dsimp only [andThen, List.foldl_cons, List.foldl_nil]
  rw [sliceB_whole _ _ hb, hpiece]

end

/-- The bytes of a field of a line spell it. -/
theorem leNat_lineField (d : Line) (off size : Nat) : leNat (leBytes size (lineField d off size)) = lineField d off size := by
  rw [leNat_leBytes]
  refine Nat.mod_eq_of_lt ?_
  unfold lineField fieldAt
  rw [show 256 ^ size = 2 ^ (8 * size) by rw [Nat.pow_mul]]
  exact Nat.mod_lt _ (Nat.two_pow_pos _)

theorem lineOf_lineField (d : Line) (off : Nat) : lineOf (leBytes 64 (lineField d off 64)) = BitVec.ofNat 512 (lineField d off 64) := by
  unfold lineOf
  rw [List.take_of_length_le (by rw [leBytes_length]), leNat_lineField]

/-! ### The rows -/

/-- LOAD as its prefix and its access end. -/
theorem loadInsn_ends {s v u : State} {x : Insn} {m : MemOp} {b : List Byte} {P : State → Prop} (h : s.Executes x (loadChk x m)) (hm : m.wf = true)
    (hs : m.spec = false) (ho : s.ordFirst x = (.ok (), v)) (hl : v.ldVa x.core (v.src x m.ra + m.off).toNat m.size = (.ok b, u))
    (hP : ∀ w, w = (if m.vec then u.setVreg x.core m.reg (lineOf b)
        else u.dst x m.reg (if m.signed then sextW (8 * m.size) (leNat b) else BitVec.ofNat 64 (leNat b))) →
      P { w.finishInsn x (s.core x.core).pc none with pending := s.pending }) : Completes (.loadInsn x m) s P := by
  refine completes_congr (f := loadInsnRun x m) _ (loadInsnRun_insn s x m hs) (completes_wf h hm (completes_ok' h ?_ (hP _ rfl)))
  rw [ho]
  dsimp only [andThen]
  rw [hl]

section
variable {s : State} {x : Insn} {m : MemOp} (h : s.Executes x (loadChk x m)) (hm : m.wf = true) (hs : m.spec = false)
include h hm hs

theorem loadInsn_general {v u : State} {b : List Byte} (hv : m.vec = false) (ho : s.ordFirst x = (.ok (), v))
    (hl : v.ldVa x.core (v.src x m.ra + m.off).toNat m.size = (.ok b, u)) (hp : u.pending = s.pending) :
    Completes (.loadInsn x m) s fun t =>
      (t.core x.core).pc = s.nextPc x ∧ t = { u with cores := t.cores, pcs := t.pcs } ∧ (∀ n, n ≠ x.core → t.core n = u.core n) ∧
      u.RegWritten t x.core m.reg.toNat (u.dstWin x)
        (if m.signed then sextW (8 * m.size) (leNat b) else BitVec.ofNat 64 (leNat b)) := by
  refine loadInsn_ends h hm hs ho hl fun w hw => ?_
  rw [hv, if_neg (by decide)] at hw
  subst hw
  obtain ⟨hf, hne, hpc, hw, -⟩ := u.dst_finishInsn x m.reg
    (if m.signed then sextW (8 * m.size) (leNat b) else BitVec.ofNat 64 (leNat b)) (s.core x.core).pc
  rw [State.finishInsn_withPending ((State.dst_pending ..).trans hp)]
  exact ⟨hpc, hf, hne, hw⟩

theorem loadInsn_vector {v u : State} {b : List Byte} (hv : m.vec = true) (ho : s.ordFirst x = (.ok (), v))
    (hl : v.ldVa x.core (v.src x m.ra + m.off).toNat m.size = (.ok b, u)) :
    Completes (.loadInsn x m) s fun t =>
      (t.core x.core).pc = s.nextPc x ∧ (∀ n, n ≠ x.core → t.core n = u.core n) ∧
      t.vreg x.core m.reg = lineOf b ∧ ∀ r, r ≠ m.reg → t.vreg x.core r = u.vreg x.core r := by
  refine loadInsn_ends h hm hs ho hl fun w hw => ?_
  rw [if_pos hv] at hw
  subst hw
  have hread : ∀ r, ((u.setVreg x.core m.reg (lineOf b)).finishInsn x (s.core x.core).pc none).vreg x.core r =
      if r = m.reg then lineOf b else u.vreg x.core r := fun r => (State.finishInsn_vreg ..).trans (State.vreg_setVreg ..)
  refine ⟨congrArg Core.pc (State.core_finishInsn ..), fun n hn => ?_, (hread _).trans (if_pos rfl), fun r hr => (hread r).trans (if_neg hr)⟩
  exact (State.core_finishInsn_ne _ _ _ _ hn).trans (State.core_setCore_ne _ _ hn)

theorem loadInsn_hit {l : Xlat} {k : Sector} (hn : x.core < 216) (ho : s.Ordered x) (hl : s.Translates x.core 0 (s.src x m.ra + m.off).toNat l)
    (ht : l.type = 0) (hp : (s.src x m.ra + m.off).toNat % 4096 + m.size ≤ 4096) (hline : l.hpa % 64 + m.size ≤ 64)
    (hc : s.Cacheable (l.hpa / 64)) (ha : s.amoPending x.core (l.hpa / 64) = false) (hk : (s.core x.core).caches.l1Sector (l.hpa / 64) = some k)
    (hd : (s.core x.core).darkW = true ∨ k.dark = false) (hpo : k.poison = false) :
    Completes (.loadInsn x m) s fun t =>
      let v := lineField (s.overlay x.core (l.hpa / 64) k.data) (l.hpa % 64) m.size
      s.CoreOnly t x (s.nextPc x) ∧
      (m.vec = false → (s.core x.core).RegsOnly (t.core x.core) ∧ s.SamePreds t x.core ∧
        s.RegWritten t x.core m.reg.toNat (s.dstWin x) (if m.signed then sextW (8 * m.size) v else BitVec.ofNat 64 v)) ∧
      (m.vec = true → t.core x.core = ({ s.core x.core with v := (t.core x.core).v }).past (s.nextPc x) ∧
        t.vreg x.core m.reg = BitVec.ofNat 512 v ∧ ∀ r, r ≠ m.reg → t.vreg x.core r = s.vreg x.core r) := by
  refine loadInsn_ends h hm hs (State.ordFirst_ordered ho) (State.ldVa_hit hn (MemOp.size_pos hm) hp hline hc hl ht ha hk hd hpo) fun w hw => ?_
  rw [leNat_lineField] at hw
  cases hv : m.vec with
  | false =>
    rw [hv, if_neg (by decide)] at hw
    subst hw
    obtain ⟨hcore, hregs, hwr, hpr⟩ := State.finishInsn_dst s x m.reg
      (if m.signed then sextW (8 * m.size) (lineField (s.overlay x.core (l.hpa / 64) k.data) (l.hpa % 64) m.size)
        else BitVec.ofNat 64 (lineField (s.overlay x.core (l.hpa / 64) k.data) (l.hpa % 64) m.size))
    rw [State.finishInsn_withPending (State.dst_pending ..)]
    exact ⟨hcore, fun _ => ⟨hregs, hpr, hwr⟩, nofun⟩
  | true =>
    have hsize := MemOp.size_vec hm hv
    rw [hv, if_pos rfl, hsize, lineOf_lineField] at hw
    subst hw
    have hread : ∀ v r, ((s.setVreg x.core m.reg v).finishInsn x (s.core x.core).pc none).vreg x.core r = if r = m.reg then v else s.vreg x.core r :=
      fun v r => (State.finishInsn_vreg ..).trans (State.vreg_setVreg ..)
    rw [State.finishInsn_withPending (regFileOnly_setVreg s x.core m.reg _).pending]
    refine ⟨State.finishInsn_coreOnly rfl (fun n hn => State.core_setCore_ne _ _ hn) none, nofun,
      fun _ => ⟨?_, ?_, fun r hr => (hread _ r).trans (if_neg hr)⟩⟩
    · rw [State.core_finishInsn]; unfold State.setVreg; rw [State.core_setCore_eq]; rfl
    · rw [hread, if_pos rfl, hsize]

end

/-- STORE as its access ends. -/
theorem storeInsn_ends {s u : State} {x : Insn} {m : MemOp} {P : State → Prop} (h : s.Executes x (storeChk x m)) (hm : m.wf = true) (hs : m.spec = false)
    (hu : s.stVa x.core (s.src x m.ra + m.off).toNat (if m.vec then lineBytes (s.vreg x.core m.reg) else leBytes m.size (s.src x m.reg).toNat)
      (decide (x.kind = 2)) (decide (x.scope = 2)) = (.ok (), u))
    (hP : P { u.finishInsn x (s.core x.core).pc none with pending := s.pending }) : Completes (.storeInsn x m) s P := by
  refine completes_congr (f := storeInsnRun x m) (fun s => s.insn x (storeChk x m) fun s => endUnit (s.stVa x.core (s.src x m.ra + m.off).toNat
    (if m.vec then lineBytes (s.vreg x.core m.reg) else leBytes m.size (s.src x m.reg).toNat) (decide (x.kind = 2)) (decide (x.scope = 2)))) ?_
    (completes_wf h hm (completes_ok' h ?_ hP))
  · unfold storeInsnRun; rw [hs]; rfl
  · rw [hu]; rfl

theorem storeInsn_buffers (s : State) (x : Insn) (m : MemOp) (l : Xlat) (h : s.Executes x (storeChk x m)) (hm : m.wf = true) (hs : m.spec = false)
    (hn : x.core < 216) (hl : s.Translates x.core 1 (s.src x m.ra + m.off).toNat l)
    (hp : (s.src x m.ra + m.off).toNat % 4096 + m.size ≤ 4096) (hline : l.hpa % 64 + m.size ≤ 64) (hc : s.Cacheable (l.hpa / 64)) :
    Completes (.storeInsn x m) s fun t =>
      s.CoreOnly t x (s.nextPc x) ∧
      t.core x.core = ({ s.core x.core with
        sb := (s.core x.core).sb ++ [({
          hpa := l.hpa, size := m.size, type := l.type, key := l.key, dark := (s.core x.core).darkW, amo := none,
          data := lineOf (if m.vec then lineBytes (s.vreg x.core m.reg) else leBytes m.size (s.src x m.reg).toNat),
          rel := decide (x.kind = 2), fab := decide (x.scope = 2), trains := false } : SbEnt)] }).past (s.nextPc x) := by
  have hb : (if m.vec then lineBytes (s.vreg x.core m.reg) else leBytes m.size (s.src x m.reg).toNat).length = m.size := by
    cases hv : m.vec with
    | false => rw [if_neg (by decide), leBytes_length]
    | true => rw [if_pos rfl, MemOp.size_vec hm hv]; exact leBytes_length ..
  refine storeInsn_ends h hm hs (State.stVa_buffers hn (MemOp.size_pos hm) hp hline hc hl hb) ?_
  rw [State.finishInsn_withPending (State.setCore_pending ..)]
  refine ⟨State.finishInsn_coreOnly rfl (fun n hn => State.core_setCore_ne _ _ hn) none, ?_⟩
  rw [State.core_finishInsn, State.core_setCore_eq]
  rfl

/-- A speculative store does nothing (R116). -/
theorem storeInsn_spec (s : State) (x : Insn) (m : MemOp) (hx : x.wf = true) (hm : m.wf = true) (hst : s.stopped = false) (hs : m.spec = true) :
    Completes (.storeInsn x m) s fun t => t = s := by
  refine completes_run (f := storeInsnRun x m) (t := s) (by rw [hx, hm]; rfl) hst ?_ rfl rfl
  unfold storeInsnRun; rw [hs]; rfl

/-! ### Fences (R92–R95) -/

/-- Whether a FENCE orders earlier stores. -/
def fenceStores (set : BitVec 4) : Bool := set.getLsbD 2 || set.getLsbD 3

/-- What the core of a FENCE awaits once its stores are performed (R94). -/
def State.fenceFabric (u : State) (n : Nat) (set : BitVec 4) (scope : BitVec 2) : List Nat :=
  if fenceStores set && decide (scope = 2) then (u.fio.outs.filter (fun (o : FabOut) => o.write && decide (o.core = some n))).map FabOut.tag
  else (u.core n).fabric

/-- The state that a FENCE leaves before its end. -/
def State.fenced (u : State) (n : Nat) (set : BitVec 4) (scope : BitVec 2) : State :=
  if fenceStores set && decide (scope = 2) then u.setCore n { u.core n with fabric := u.fenceFabric n set scope } else u

theorem State.core_fenced (u : State) (n : Nat) (set : BitVec 4) (scope : BitVec 2) :
    (u.fenced n set scope).core n = { u.core n with fabric := u.fenceFabric n set scope } := by
  unfold State.fenced
  split
  · exact State.core_setCore_eq ..
  · next h => unfold State.fenceFabric; rw [if_neg h]

theorem State.core_fenced_ne (u : State) {n m : Nat} (set : BitVec 4) (scope : BitVec 2) (h : m ≠ n) : (u.fenced n set scope).core m = u.core m := by
  unfold State.fenced
  split
  · exact State.core_setCore_ne _ _ h
  · rfl

theorem State.fenced_eq (u : State) (n : Nat) (set : BitVec 4) (scope : BitVec 2) :
    u.fenced n set scope = { u with cores := (u.fenced n set scope).cores } := by
  unfold State.fenced
  split <;> rfl

/-- FENCE as the stores before it end. -/
theorem fence_ends {s u : State} {x : Insn} {set : BitVec 4} {scope : BitVec 2} {P : State → Prop} (h : s.Executes x { gpr := false }) (h0 : set ≠ 0)
    (h3 : scope ≠ 3) (hst : fenceStores set = true → s.sbEmpty x.core = (.ok (), u) ∧
      (scope = 2 → u.home.wbuf.any (fun w => decide (w.core = some x.core)) = false)) (hld : fenceStores set = false → u = s)
    (hP : P { (u.fenced x.core set scope).finishInsn x (s.core x.core).pc none with pending := s.pending }) : Completes (.fence x set scope) s P := by
  have hvalid : decide (set ≠ 0 ∧ scope ≠ 3) = true := decide_eq_true ⟨h0, h3⟩
  refine completes_congr (f := fenceRun x set scope) (fun s => s.insn x { gpr := false } fun s =>
    if !fenceStores set then (.ok none, s)
    else andThen (s.sbEmpty x.core) fun _ s =>
      if scope ≠ 2 then (.ok none, s)
      else if s.home.wbuf.any (fun w => decide (w.core = some x.core)) then (.wait, s.drainWb)
      else (.ok none, s.setCore x.core { s.core x.core with
        fabric := (s.fio.outs.filter (fun o => o.write && decide (o.core = some x.core))).map (·.tag) })) ?_ (completes_ok' h ?_ hP)
  · unfold fenceRun; dsimp only; rw [hvalid]; rfl
  · unfold State.fenced State.fenceFabric
    cases hs : fenceStores set with
    | false => rw [hld hs]; rfl
    | true =>
      obtain ⟨hu, hw⟩ := hst hs
      rw [hu]
      dsimp only [andThen]
      by_cases h2 : scope = 2
      · rw [if_neg (not_not.mpr h2), hw h2, decide_eq_true h2]; rfl
      · rw [if_pos h2, decide_eq_false h2]; rfl

theorem fence_general (s u : State) (x : Insn) (set : BitVec 4) (scope : BitVec 2) (h : s.Executes x { gpr := false }) (h0 : set ≠ 0) (h3 : scope ≠ 3)
    (hst : fenceStores set = true → s.sbEmpty x.core = (.ok (), u) ∧
      (scope = 2 → u.home.wbuf.any (fun w => decide (w.core = some x.core)) = false)) (hld : fenceStores set = false → u = s) :
    Completes (.fence x set scope) s fun t =>
      (t.core x.core).pc = s.nextPc x ∧ (∀ n, n ≠ x.core → t.core n = u.core n) ∧ (t.core x.core).fabric = u.fenceFabric x.core set scope ∧
      t.core x.core = ({ u.core x.core with fabric := (t.core x.core).fabric }).past (s.nextPc x) := by
  have hcore : ((u.fenced x.core set scope).finishInsn x (s.core x.core).pc none).core x.core =
      ({ u.core x.core with fabric := u.fenceFabric x.core set scope }).past (s.nextPc x) := by
    rw [State.core_finishInsn, State.core_fenced]; rfl
  have hfab := congrArg Core.fabric hcore
  refine fence_ends h h0 h3 hst hld ⟨congrArg Core.pc hcore, fun n hn => ?_, hfab, ?_⟩
  · exact (State.core_finishInsn_ne _ _ _ _ hn).trans (State.core_fenced_ne _ _ _ hn)
  · exact hcore.trans (congrArg (fun f => ({ u.core x.core with fabric := f }).past (s.nextPc x)) hfab.symm)

theorem fence_empty (s : State) (x : Insn) (set : BitVec 4) (scope : BitVec 2) (h : s.Executes x { gpr := false }) (h0 : set ≠ 0) (h3 : scope ≠ 3)
    (hst : fenceStores set = true → (s.core x.core).sb = [] ∧
      (scope = 2 → s.home.wbuf.any (fun w => decide (w.core = some x.core)) = false)) :
    Completes (.fence x set scope) s fun t =>
      s.CoreOnly t x (s.nextPc x) ∧
      t.core x.core = ({ s.core x.core with fabric := s.fenceFabric x.core set scope }).past (s.nextPc x) := by
  refine fence_ends (u := s) h h0 h3 (fun hs => ⟨State.sbEmpty_nil (hst hs).1, (hst hs).2⟩) (fun _ => rfl) ?_
  rw [State.finishInsn_withPending (by rw [State.fenced_eq])]
  refine ⟨State.finishInsn_coreOnly (State.fenced_eq ..) (fun m hm => State.core_fenced_ne _ _ _ hm) none, ?_⟩
  rw [State.core_finishInsn, State.core_fenced]
  rfl

/-- FABRIC_FENCE_COMPLETE waits for the writes that its fence awaits (R95). -/
theorem fabricFenceComplete_waits (s : State) (n : Nat) (hn : wfCore n = true) (hst : s.stopped = false)
    (h : (s.core n).fabric.any (fun t => (s.fabOut t).isSome) = true) : Completes (.fabricFenceComplete n) s fun t => t = s :=
  completes_run (f := fabricFenceCompleteRun n) hn hst (if_pos h) rfl rfl

theorem fabricFenceComplete_ends (s : State) (n : Nat) (hn : wfCore n = true) (hst : s.stopped = false)
    (h : (s.core n).fabric.any (fun t => (s.fabOut t).isSome) = false) :
    Completes (.fabricFenceComplete n) s fun t => t = s.setCore n { s.core n with fabric := [] } :=
  completes_run (f := fabricFenceCompleteRun n) hn hst (if_neg (by rw [h]; decide)) rfl rfl

theorem tlbsync_ends (s u : State) (x : Insn) (h : s.Executes x { gpr := false, level := 1 }) (hu : s.sbEmpty x.core = (.ok (), u)) :
    Completes (.tlbsync x) s fun t => t = { u.finishInsn x (s.core x.core).pc none with pending := s.pending } :=
  completes_ok' (body := fun s => endUnit (s.sbEmpty x.core)) h (by rw [hu]; rfl) rfl

theorem tlbsync_empty (s : State) (x : Insn) (h : s.Executes x { gpr := false, level := 1 }) (hsb : (s.core x.core).sb = []) :
    Completes (.tlbsync x) s fun t => s.CoreOnly t x (s.nextPc x) ∧ t.core x.core = (s.core x.core).past (s.nextPc x) :=
  completes_ok (body := fun s => endUnit (s.sbEmpty x.core)) h (by rw [State.sbEmpty_nil hsb]; rfl) rfl
    ⟨State.finishInsn_coreOnly rfl (fun _ _ => rfl) none, State.core_finishInsn ..⟩

/-- Settles O12, row by row. -/
theorem memoryInstructionsComplete : Obligations.MemoryInstructionsComplete :=
  ⟨fun _ _ _ _ _ h hm hs hn ho hl ht hp hline hc ha hk hd hpo => loadInsn_hit h hm hs hn ho hl ht hp hline hc ha hk hd hpo,
    fun _ _ _ _ _ _ h hm hs hv ho hl hp => loadInsn_general h hm hs hv ho hl hp,
    fun _ _ _ _ _ _ h hm hs hv ho hl => loadInsn_vector h hm hs hv ho hl,
    fun s x m l h hm hs hn hl hp hline hc => storeInsn_buffers s x m l h hm hs hn hl hp hline hc,
    fun _ _ _ _ h hm hs hu => storeInsn_ends h hm hs hu rfl,
    storeInsn_spec, fence_general, fence_empty, fabricFenceComplete_ends, fabricFenceComplete_waits, tlbsync_ends, tlbsync_empty⟩

end Sys2Proof.Machine
end

section
/-! SUPPORT.
Prefetches, reissued demands and the requests of an L2 at its die's L3 slice (R114, R117, R155, R156, R162, R182). -/

namespace Sys2Proof.Machine

/-! ### Lines that the core's L2 holds -/

theorem CoreCaches.l2Find_of_current {c : CoreCaches} {line : Nat} {l : CLine} (h : c.current line = some l) : (c.l2Find line).isSome = true := by
  unfold CoreCaches.current at h
  cases hf : c.l2Find line with
  | none => rw [hf] at h; exact nomatch h
  | some _ => rfl

/-- The use of an L2 way moves no line of the L2 (R161). -/
theorem State.l2Find_l2Used (s : State) (n line q : Nat) : ((s.l2Used n line).core n).caches.l2Find q = (s.core n).caches.l2Find q := by
  unfold State.l2Used
  split
  · rw [State.setCaches, State.core_setCore_eq]; rfl
  · rfl

/-- A core reads a line that its L2 holds (R182). -/
theorem State.getLine'_held {s : State} {n line : Nat} {l : CLine} (hn : n < 216) (h : (s.core n).caches.current line = some l)
    (hs : seen l (s.core n).darkW = true) (key : Nat) (spec : Bool) (l1 : L1Of) :
    s.getLine' n line key (s.core n).darkW spec l1 = (.line l false, s.l2Used n line) := by
  unfold State.getLine' State.l2Used
  dsimp only
  rw [if_neg (by omega), h]
  dsimp only
  rw [if_pos hs]

/-! ### HARDWARE_PREFETCH (R114, R162) -/

/-- A prefetch for the L1D or the side buffer: its line, once it is there, is put into the structure. -/
def State.prefetchFill (s : State) (n line key : Nat) (put : State → Sector → State) : State :=
  match s.getLine' n line key (s.core n).darkW true .l1d with
  | (.line l nf, s) => if nf || ((s.core n).caches.l2Find line).isNone then s else put s ⟨line, l.data, l.poison, false, l.key, l.dark⟩
  | (_, s) => s

theorem State.prefetchFill_line {s u : State} {n line key : Nat} {l : CLine} (hu : s.getLine' n line key (s.core n).darkW true .l1d = (.line l false, u))
    (hl : ((u.core n).caches.l2Find line).isSome = true) (put : State → Sector → State) :
    s.prefetchFill n line key put = put u ⟨line, l.data, l.poison, false, l.key, l.dark⟩ := by
  unfold State.prefetchFill
  rw [hu]
  dsimp only
  rw [Option.isNone_eq_false_iff.mpr hl]
  rfl

section
variable {s : State} {n hpa key : Nat} (hn : n < 216) (hh : hpa < 2 ^ 52) (hk : key < 16384) (hst : s.stopped = false) (hr : s.coreReady n = true)
  (hw : (s.core n).waiting = false) (hc : s.Cacheable (hpa / 64))
include hn hh hk hst hr hw hc

/-- A prefetch of a core that runs, of memory that caches hold, does what its target does. -/
theorem hardwarePrefetch_acts {tgt : PfTarget} {t : State}
    (ht : (match tgt with
      | .l2 => if s.fon (kL2cCtl n) fL2cCtl_PFEN && ((s.core n).caches.l2Find (hpa / 64)).isNone then
          ((s.evtC n 0x58 2).getLine' n (hpa / 64) key (s.core n).darkW true .none).2 else s
      | .sideBuffer => if (s.fon (kL1cCtl n) fL1cCtl_PFEN && !(s.core n).caches.hasSector (hpa / 64)) && s.fon (kL1cCtl n) fL1cCtl_SBEN then
          s.prefetchFill n (hpa / 64) key (fun s x => s.sbFill n x) else s
      | .l1d => if s.fon (kL1cCtl n) fL1cCtl_PFEN && !(s.core n).caches.hasSector (hpa / 64) then
          s.prefetchFill n (hpa / 64) key (fun s x => s.l1Fill n x) else s) = t) :
    Completes (.hardwarePrefetch n hpa key tgt) s fun u => u = { t with pending := s.pending } := by
  have hwf : (wfCompute n && decide (hpa < 2 ^ 52) && wfKey key) = true := by
    unfold wfCompute wfKey; rw [decide_eq_true hn, decide_eq_true hh, decide_eq_true hk]; rfl
  refine completes_run' (f := hardwarePrefetchRun n hpa key tgt) hwf hst ?_ rfl
  subst ht
  unfold hardwarePrefetchRun
  dsimp only
  rw [hr, hw]
  rcases hc with h | h <;> rw [h] <;> rfl

theorem hardwarePrefetch_l2 (hp : s.fon (kL2cCtl n) fL2cCtl_PFEN = true) (hf : (s.core n).caches.l2Find (hpa / 64) = none) :
    Completes (.hardwarePrefetch n hpa key .l2) s fun t =>
      t = { ((s.evtC n 0x58 2).getLine' n (hpa / 64) key (s.core n).darkW true .none).2 with pending := s.pending } :=
  hardwarePrefetch_acts hn hh hk hst hr hw hc (by dsimp only; rw [hp, hf]; rfl)

theorem hardwarePrefetch_l1 (hp : s.fon (kL1cCtl n) fL1cCtl_PFEN = true) (hs : (s.core n).caches.hasSector (hpa / 64) = false) {l : CLine} {u : State}
    (hu : s.getLine' n (hpa / 64) key (s.core n).darkW true .l1d = (.line l false, u)) (hl : ((u.core n).caches.l2Find (hpa / 64)).isSome = true) :
    Completes (.hardwarePrefetch n hpa key .l1d) s (fun t =>
      t = { u.l1Fill n ⟨hpa / 64, l.data, l.poison, false, l.key, l.dark⟩ with pending := s.pending }) ∧
    (s.fon (kL1cCtl n) fL1cCtl_SBEN = true → Completes (.hardwarePrefetch n hpa key .sideBuffer) s (fun t =>
      t = { u.sbFill n ⟨hpa / 64, l.data, l.poison, false, l.key, l.dark⟩ with pending := s.pending })) := by
  refine ⟨hardwarePrefetch_acts hn hh hk hst hr hw hc ?_, fun hsb => hardwarePrefetch_acts hn hh hk hst hr hw hc ?_⟩
  · dsimp only; rw [hp, hs]; exact State.prefetchFill_line hu hl _
  · dsimp only; rw [hp, hs, hsb]; exact State.prefetchFill_line hu hl _

end

/-! ### DEMAND_REISSUE (R117) -/

/-- A deferred demand whose line is there is no longer deferred. -/
theorem demandReissue_line {s u : State} {n line key : Nat} {l : CLine} {nf : Bool} (hn : n < 216) (hl : line < 2 ^ 46)
    (hst : s.stopped = false) (hd : (s.core n).deferred.find? (fun p => p.1 = line) = some (line, key))
    (hu : s.loadLine n line key (s.core n).darkW false = (.line l nf, u)) :
    Completes (.demandReissue n line) s fun t =>
      (∀ p, p ∈ (t.core n).deferred ↔ p ∈ (u.core n).deferred ∧ p.1 ≠ line) ∧
      t = { u.setCore n { u.core n with deferred := (t.core n).deferred } with pending := s.pending } := by
  have hwf : (wfCompute n && wfLine line) = true := by unfold wfCompute wfLine; rw [decide_eq_true hn, decide_eq_true hl]; rfl
  have hrun : demandReissueRun n line s = u.setCore n { u.core n with deferred := (u.core n).deferred.filter (fun p => p.1 ≠ line) } := by
    unfold demandReissueRun
    dsimp only
    rw [hd]
    dsimp only
    rw [hu]
  refine completes_run' (f := demandReissueRun n line) hwf hst hrun ?_
  have hleft := congrArg Core.deferred (State.core_setCore_eq u n { u.core n with deferred := (u.core n).deferred.filter (fun p => p.1 ≠ line) })
  refine ⟨fun p => (Iff.of_eq (congrArg (p ∈ ·) hleft)).trans ?_,
    congrArg (fun d => { u.setCore n { u.core n with deferred := d } with pending := s.pending }) hleft.symm⟩
  rw [List.mem_filter, decide_eq_true_eq]

/-! ### L3_SLICE_REQUEST (R155, R156, R182) -/

theorem State.evtX_cores (s : State) (w : Bool) (d b i : Nat) : (s.evtX w d b i).cores = s.cores := by
  unfold State.evtX; split <;> simp

theorem State.evtX_l3 (s : State) (w : Bool) (d b i : Nat) : (s.evtX w d b i).l3 = s.l3 := by
  unfold State.evtX; split <;> simp

theorem State.evtX_l3Find (s : State) (w : Bool) (d b i die line : Nat) : (s.evtX w d b i).l3Find die line = s.l3Find die line := by
  unfold State.l3Find State.l3Of; rw [State.evtX_l3]

theorem State.evtX_holders (s : State) (w : Bool) (d b i die line : Nat) : (s.evtX w d b i).holders die line = s.holders die line := by
  unfold State.holders State.core; rw [State.evtX_cores]

/-- The counter of a slice's requests has counted one of a die's core (R438). -/
def State.l3Asked (s : State) (n line : Nat) (world : Bool) : State := s.evtX world (n / 18) (0x70 + l3Slice (line * 64)) 0

/-- The counters of a slice have counted a request that it does not serve (R438). -/
def State.l3Missed (s : State) (n line : Nat) (world : Bool) : State := (s.l3Asked n line world).evtX world (n / 18) (0x70 + l3Slice (line * 64)) 1

section
variable {s : State} {n line : Nat} {world : Bool} (hopen : s.l3Closed (l3Idx (n / 18) line) = false)
include hopen

theorem State.l3Read_held {k : Nat} {l : CLine} (hf : s.l3Find (n / 18) line = some (k, l)) (hs : seen l world = true) (key : Nat) :
    s.l3Read n line key world = (some { l with st := .s, key := key },
      ((s.l3Asked n line world).l3Set (n / 18) k { l with st := snoopNext .s l.st }).l2Fill n { l with st := .s, key := key }) := by
  unfold State.l3Read
  dsimp only
  rw [hopen, if_neg (by decide), State.evtX_l3Find, hf]
  dsimp only
  rw [if_pos hs]
  rfl

theorem State.l3Own_held {k : Nat} {l : CLine} (hf : s.l3Find (n / 18) line = some (k, l)) (hs : seen l world = true) (hst : l.st = .e ∨ l.st = .m)
    (hh : ∀ m, m ∈ s.holders (n / 18) line → m = n) (key : Nat) :
    s.l3Own n line key world = (some { l with st := .m, key := key },
      ((s.l3Asked n line world).l3Drop (n / 18) line).l2Fill n { l with st := .m, key := key }) := by
  have hother : (s.holders (n / 18) line).filter (· ≠ n) = [] := List.filter_eq_nil_iff.mpr fun m hm => by simp [hh m hm]
  have hserve : (seen l world && decide (l.st = .e ∨ l.st = .m)) = true := by rw [hs, decide_eq_true hst]; rfl
  unfold State.l3Own
  dsimp only
  rw [hopen, if_neg (by decide), State.evtX_l3Find, hf]
  dsimp only
  rw [if_pos hserve, State.evtX_holders, hother]
  rfl

theorem State.l3Read_none (hf : s.l3Find (n / 18) line = none) (key : Nat) : s.l3Read n line key world = (none, s.l3Missed n line world) := by
  unfold State.l3Read
  dsimp only
  rw [hopen, if_neg (by decide), State.evtX_l3Find, hf]
  rfl

theorem State.l3Own_none (hf : s.l3Find (n / 18) line = none) (key : Nat) : s.l3Own n line key world = (none, s.l3Missed n line world) := by
  unfold State.l3Own
  dsimp only
  rw [hopen, if_neg (by decide), State.evtX_l3Find, hf]
  rfl

end

/-- What the request of an L2 asks of its line's home. -/
def l3Request : L3Kind → ReqKind
  | .read => .rds
  | .write => .rdo
  | .upgrade => .upg

/-- What a slice answers the request of an L2. -/
def State.l3Ask (s : State) (n line : Nat) (kind : L3Kind) (key : Nat) (world : Bool) : Option CLine × State :=
  if kind = .read then s.l3Read n line key world else s.l3Own n line key world

section
variable {s : State} {n line key : Nat} {kind : L3Kind} {world spec : Bool} (hn : n < 216) (hl : line < 2 ^ 46) (hk : key < 16384)
  (hst : s.stopped = false) (hd : s.down = false) (hm : s.missAt n line = false) (hr : s.missRoom n line .none = true)
include hn hl hk hst hd hm hr

/-- A request of an L2 that may be made is served by the slice or becomes a miss and a request at the home. -/
theorem l3SliceRequest_acts {t : State}
    (ht : (match s.l3Ask n line kind key world with
      | (some _, u) => u
      | (none, u) => (u.missOpen n line key (decide (kind ≠ .read)) spec .none).request (l3Request kind)
          (coreReq u n line key world spec (decide (kind ≠ .read)))) = t) :
    Completes (.l3SliceRequest n line kind key world spec) s fun u => u = { t with pending := s.pending } := by
  have hwf : (wfCompute n && wfLine line && wfKey key) = true := by
    unfold wfCompute wfLine wfKey; rw [decide_eq_true hn, decide_eq_true hl, decide_eq_true hk]; rfl
  refine completes_run' (f := l3SliceRequestRun n line kind key world spec) hwf hst ?_ rfl
  subst ht
  have hgo : ¬ (s.down || s.missAt n line || !s.missRoom n line .none) = true := by rw [hd, hm, hr]; decide
  unfold l3SliceRequestRun State.l3Ask
  dsimp only
  rw [if_neg hgo]
  cases kind <;> rfl

theorem l3SliceRequest_served {l : CLine} {u : State} (hu : s.l3Ask n line kind key world = (some l, u)) :
    Completes (.l3SliceRequest n line kind key world spec) s fun t => t = { u with pending := s.pending } :=
  l3SliceRequest_acts hn hl hk hst hd hm hr (by rw [hu])

theorem l3SliceRequest_missed {u : State} (hu : s.l3Ask n line kind key world = (none, u)) :
    Completes (.l3SliceRequest n line kind key world spec) s fun t =>
      t = { (u.missOpen n line key (decide (kind ≠ .read)) spec .none).request (l3Request kind)
        (coreReq u n line key world spec (decide (kind ≠ .read))) with pending := s.pending } :=
  l3SliceRequest_acts hn hl hk hst hd hm hr (by rw [hu])

end

/-- Settles O17, row by row. -/
theorem cacheRequestsComplete : Obligations.CacheRequestsComplete := by
  refine ⟨fun s n hpa key hn hh hk hst hr hw hc hp hf => hardwarePrefetch_l2 hn hh hk hst hr hw hc hp hf,
    fun s n hpa key hn hh hk hst hr hw hc hp hs => ⟨fun l hl hsn => ?held, fun l u hu hl => hardwarePrefetch_l1 hn hh hk hst hr hw hc hp hs hu hl⟩,
    fun s n line key hn hl hst hd => ⟨fun k hk hv => ?hit, fun l nf u hu => ?answered⟩,
    fun s n line key kind world spec hn hl hk hst hd hm hr => ⟨fun k l hkind ho hf hs => ?read, fun k l hkind ho hf hs hlst hh => ?own, fun ho hf => ?miss⟩⟩
  case held =>
    refine hardwarePrefetch_l1 hn hh hk hst hr hw hc hp hs (State.getLine'_held hn hl hsn key true .l1d) ?_
    rw [State.l2Find_l2Used]
    exact CoreCaches.l2Find_of_current hl
  case hit => exact demandReissue_line hn hl hst hd (State.loadLine_hit hn hk _ hv key false)
  case answered => exact demandReissue_line hn hl hst hd hu
  case read =>
    exact l3SliceRequest_served hn hl hk hst hd hm hr ((if_pos hkind).trans (State.l3Read_held ho hf hs key))
  case own =>
    exact l3SliceRequest_served hn hl hk hst hd hm hr ((if_neg hkind).trans (State.l3Own_held ho hf hs hlst hh key))
  case miss =>
    have hask : s.l3Ask n line kind key world = (none, s.l3Missed n line world) := by
      unfold State.l3Ask
      split
      · exact State.l3Read_none ho hf key
      · exact State.l3Own_none ho hf key
    have hmiss := l3SliceRequest_missed (spec := spec) hn hl hk hst hd hm hr hask
    cases kind <;> exact hmiss

end Sys2Proof.Machine
end

section
/-! SUPPORT.
Messages at the home and requests that wait there (R117, R175, R187, R188, R190–R192, R194, R209). -/

namespace Sys2Proof.Machine

/-! ### The platform's words under a fill -/

theorem State.evtX_plat (s : State) (w : Bool) (d b i : Nat) : (s.evtX w d b i).plat = s.plat := by
  unfold State.evtX; split <;> simp

theorem State.evtC_plat (s : State) (n b i : Nat) : (s.evtC n b i).plat = s.plat := by rw [State.evtC_eq]

theorem State.pushWb_plat (s : State) (a : Nat) (l : CLine) : (s.pushWb a l).plat = s.plat := by
  unfold State.pushWb State.pushWbFor; split <;> rfl

theorem State.setL3_plat (s : State) (g : Nat) (m : SMap CLine) : (s.setL3 g m).plat = s.plat := rfl

theorem State.l3Alloc_plat (s : State) (n : Nat) (l : CLine) : (s.l3Alloc n l).plat = s.plat := by
  have counted (b : Prop) [Decidable b] (u : State) (i : Nat) (d : Bool) (die blk : Nat) :
      (if b then u.evtX d die blk i else u).plat = u.plat := by
    split
    · exact State.evtX_plat ..
    · rfl
  unfold State.l3Alloc
  dsimp only
  split
  · split <;> rfl
  · split
    · exact State.pushWb_plat ..
    · split
      · exact counted ..
      · split
        · rw [State.pushWb_plat, State.evtX_plat]; rfl
        · refine (counted ..).trans ((State.setL3_plat ..).trans ?_)
          split
          · rw [State.evtX_plat, State.pushWb_plat, State.evtX_plat]; rfl
          · rw [State.evtX_plat]; rfl

theorem State.l2Evict_plat (s : State) (n k : Nat) : (s.l2Evict n k).plat = s.plat := by
  unfold State.l2Evict
  dsimp only
  split
  · rfl
  · rw [State.l3Alloc_plat]
    split
    · rw [State.evtC_plat]; rfl
    · rfl

theorem State.l2Fill_plat (s : State) (n : Nat) (l : CLine) : (s.l2Fill n l).plat = s.plat := by
  unfold State.l2Fill
  dsimp only
  split
  · rfl
  · split
    · exact State.pushWb_plat ..
    · exact State.l2Evict_plat ..

theorem State.l1Fill_plat (s : State) (n : Nat) (x : Sector) : (s.l1Fill n x).plat = s.plat := by rw [(cachesOnly_l1Fill s n x).eq]

theorem State.ite_plat {c : Prop} [Decidable c] {s u v : State} (hu : u.plat = s.plat) (hv : v.plat = s.plat) :
    (if c then u else v).plat = s.plat := by
  split
  · exact hu
  · exact hv

theorem State.install_plat (s : State) (g : GrantMsg) (z spec : Bool) : (s.install g z spec).plat = s.plat := by
  unfold State.install
  split
  · rfl
  · dsimp only
    split
    · split
      · rfl
      · split <;> rfl
    · split
      · have hfill : ∀ (b : Bool) (l : CLine) (x : Sector),
            (if b then ((s.setCaches g.core ((s.core g.core).caches.dropUpper g.line)).l2Fill g.core l).l1Fill g.core x
              else (s.setCaches g.core ((s.core g.core).caches.dropUpper g.line)).l2Fill g.core l).plat = s.plat := fun b l x =>
          State.ite_plat ((State.l1Fill_plat ..).trans (State.l2Fill_plat ..)) (State.l2Fill_plat ..)
        exact State.ite_plat ((State.l3Alloc_plat ..).trans (hfill ..)) (hfill ..)
      · split <;> rfl

theorem State.missDone_plat (s : State) (p : Pend) : (s.missDone p).2.plat = s.plat := by
  unfold State.missDone; split <;> rfl

theorem State.noteShared_plat (s : State) (g : GrantMsg) : (s.noteShared g).plat = s.plat := by
  unfold State.noteShared
  dsimp only
  split
  · exact State.ite_plat rfl rfl
  · rfl

/-- Taking a grant leaves the package's socket number (R26). -/
theorem State.takeGrant_sock (s : State) (p : Pend) (g : GrantMsg) : (s.takeGrant p g).sock = s.sock := by
  refine congrArg Plat.socket (?_ : (s.takeGrant p g).plat = s.plat)
  unfold State.takeGrant
  dsimp only
  split
  · exact State.ite_plat (State.missDone_plat ..) (State.missDone_plat ..)
  · exact (State.noteShared_plat ..).trans (State.ite_plat (State.missDone_plat ..) ((State.install_plat ..).trans (State.missDone_plat ..)))

theorem wfAgent_of {a : Nat} (h : a < 17) : wfAgent a = true := decide_eq_true h

/-! ### Snoop answers (R194, R209) -/

/-- A transaction that still awaits an agent is left open. -/
theorem State.settle_open (s : State) {t : Trans} (h : t.await ≠ []) : s.settle t = s := by
  unfold State.settle
  rw [List.isEmpty_eq_false_iff.mpr h]
  rfl

section
variable {s : State} {line agent : Nat} (hs : s.stopped = false) (hd : s.down = false)

section
variable {a : SnoopAns} (hl : line < 2 ^ 46) (ha : agent < 17) (hlost : s.home.lost.contains agent = false)
include hs hd hl ha hlost

/-- An answer that a transaction awaits is taken into it, and ends it where it awaits nobody else (R194). -/
theorem snoopAnswer_expected {tr : Trans} (ht : s.transOf line = some tr) (hm : agent ∈ tr.await) :
    Completes (.snoopAnswer line agent a) s fun t =>
      t = { (s.takeAnswer tr agent a).2.settle (s.takeAnswer tr agent a).1 with pending := s.pending } := by
  refine completes_with (f := snoopAnswerRun line agent a) rfl (by rw [wfLine_of hl, wfAgent_of ha]; rfl) hs ?_
  unfold snoopAnswerRun
  rw [hd, hlost, if_neg (by decide), ht]
  exact if_pos (List.contains_iff_mem.mpr hm)

theorem snoopAnswer_stray (hno : ∀ tr, s.transOf line = some tr → agent ∉ tr.await) :
    Completes (.snoopAnswer line agent a) s fun t =>
      t = { s.domainDown 8 (match s.transOf line with | some tr => msgType tr.kind | none => 0) agent line s.sock with pending := s.pending } := by
  refine completes_with (f := snoopAnswerRun line agent a) rfl (by rw [wfLine_of hl, wfAgent_of ha]; rfl) hs ?_
  unfold snoopAnswerRun
  rw [hd, hlost, if_neg (by decide)]
  cases ht : s.transOf line with
  | none => rfl
  | some tr => exact if_neg (by rw [List.contains_iff_mem]; exact hno tr ht)

/-! ### CmpAck and EvAck (R188, R190, R209) -/

theorem cmpack_expected {tr : Trans} (ht : s.transOf line = some tr) (hg : tr.granted = true) (hr : tr.req.agent = agent) :
    Completes (.cmpack agent line) s fun t => t = { s.release line with pending := s.pending } := by
  refine completes_with (f := cmpackRun agent line) rfl (by rw [wfLine_of hl, wfAgent_of ha]; rfl) hs ?_
  unfold cmpackRun
  rw [hd, hlost, if_neg (by decide), ht]
  exact if_pos (by rw [hg, decide_eq_true hr]; rfl)

theorem cmpack_stray (hno : ∀ tr, s.transOf line = some tr → tr.granted = false ∨ tr.req.agent ≠ agent) :
    Completes (.cmpack agent line) s fun t =>
      t = { s.domainDown 8 (match s.transOf line with | some tr => msgType tr.kind | none => 0) agent line s.sock with pending := s.pending } := by
  refine completes_with (f := cmpackRun agent line) rfl (by rw [wfLine_of hl, wfAgent_of ha]; rfl) hs ?_
  unfold cmpackRun
  rw [hd, hlost, if_neg (by decide)]
  cases ht : s.transOf line with
  | none => rfl
  | some tr =>
    refine if_neg fun h => ?_
    obtain ⟨hg, hr⟩ := (Bool.and_eq_true _ _).mp h
    rcases hno tr ht with h | h
    · rw [h] at hg; cases hg
    · exact h (of_decide_eq_true hr)

theorem evack_expected (h : s.evCredit line agent ≠ 0 ∨ ∃ w, w ∈ s.home.wbuf ∧ w.sent = true ∧ w.agent = agent ∧ w.line = line) :
    Completes (.evack agent line) s fun t =>
      t.home.wbuf = s.home.wbuf.eraseP (fun w => decide (w.agent = agent) && decide (w.line = line)) ∧
      t.evCredit line agent = s.evCredit line agent - 1 ∧ (∀ a, a ≠ agent → t.evCredit line a = s.evCredit line a) ∧
      t = { s with home := t.home } ∧ t.home = { s.home with slices := t.home.slices, wbuf := t.home.wbuf } ∧
      t.slice (lineSlice line) = { s.slice (lineSlice line) with evUsed := (t.slice (lineSlice line)).evUsed } ∧
      ∀ n, n ≠ lineSlice line → t.slice n = s.slice n := by
  have hrun : evackRun agent line s = s.evAcked agent line := by
    unfold evackRun
    rw [hd, hlost, if_neg (by decide)]
    refine if_neg fun ⟨h0, hnone⟩ => h.elim (fun h => h h0) fun ⟨w, hw, hsent, hag, hli⟩ => ?_
    have hany : s.home.wbuf.any (fun w => w.sent && decide (w.agent = agent ∧ w.line = line)) = true :=
      List.any_eq_true.mpr ⟨w, hw, by rw [hsent, decide_eq_true ⟨hag, hli⟩]; rfl⟩
    rw [hany] at hnone
    cases hnone
  have hcredit : ∀ a, (s.evAcked agent line).evCredit line a =
      SMap.get (fun _ => 0) (SMap.put (fun _ => 0) (s.slice (lineSlice line)).evUsed agent (s.evCredit line agent - 1)) a := fun a =>
    congrArg (fun x : Slice => SMap.get (fun _ => 0) x.evUsed a) (s.setCredit_slice line agent (s.evCredit line agent - 1))
  refine completes_run (f := evackRun agent line) (by rw [wfLine_of hl, wfAgent_of ha]; rfl) hs hrun rfl
    ⟨rfl, (hcredit _).trans (SMap.get_put_eq ..), fun a hne => (hcredit a).trans (SMap.get_put_ne _ _ _ hne), rfl, rfl, ?_, fun n hn => ?_⟩
  · exact (s.setCredit_slice line agent _).trans (congrArg (fun e => { s.slice (lineSlice line) with evUsed := e })
      (congrArg Slice.evUsed (s.setCredit_slice line agent _)).symm)
  · exact State.slice_setSlice_ne _ _ hn

theorem evack_stray (h0 : s.evCredit line agent = 0) (hno : ∀ w, w ∈ s.home.wbuf → w.sent = true → w.agent = agent → w.line ≠ line) :
    Completes (.evack agent line) s fun t => t = { s.domainDown 8 0 agent line s.sock with pending := s.pending } := by
  have hnone : s.home.wbuf.any (fun w => w.sent && decide (w.agent = agent ∧ w.line = line)) = false :=
    List.any_eq_false.mpr fun w hw h => by
      obtain ⟨hsent, heq⟩ := (Bool.and_eq_true _ _).mp h
      obtain ⟨hag, hli⟩ := of_decide_eq_true heq
      exact hno w hw hsent hag hli
  refine completes_with (f := evackRun agent line) rfl (by rw [wfLine_of hl, wfAgent_of ha]; rfl) hs ?_
  unfold evackRun
  rw [hd, hlost, if_neg (by decide)]
  exact if_pos ⟨h0, by rw [hnone]; rfl⟩

end

/-! ### Def replies (R117, R201) -/

section
variable {core key : Nat} (hc : core < 220) (hl : line < 2 ^ 46) (hk : key < 16384)
include hs hd hc hl hk

theorem defReply_expected {p : Pend} (hp : s.askedBy core line (fun p => p.req.spec) = some p) (hloc : ∀ j, s.lineKind line ≠ .remote j) :
    Completes (.defReply core line key) s fun t =>
      (t.core core).deferred = (s.core core).deferred.filter (fun p => p.1 ≠ line) ++ [(line, key)] ∧
      (∀ m, m ∈ (t.core core).caches.misses ↔ m ∈ (s.core core).caches.misses ∧ m.line ≠ line) ∧
      t.home = { s.home with asked := s.home.asked.erase p } ∧
      (∀ n, n ≠ core → t.core n = s.core n) ∧ t = { s with cores := t.cores, pcs := t.pcs, home := t.home } := by
  have hkind : ((s.dropAsked p).noteDeferred core line key).lineKind line = s.lineKind line := by
    unfold State.noteDeferred State.lineKind State.mapOf; rw [State.evtC_plat]; rfl
  have hcore : ((s.dropAsked p).noteDeferred core line key).core core = { s.core core with
      deferred := (s.core core).deferred.filter (fun p => p.1 ≠ line) ++ [(line, key)],
      caches := { (s.core core).caches with misses := (s.core core).caches.misses.filter (fun m => m.line ≠ line) } } := by
    unfold State.noteDeferred; rw [State.core_evtC, State.core_setCore_eq]; rfl
  have hrun : defReplyRun core line key s = (s.dropAsked p).noteDeferred core line key := by
    unfold defReplyRun
    rw [hd, if_neg (by decide), hp]
    dsimp only
    rw [hkind]
    cases hlk : s.lineKind line with
    | remote j => exact absurd hlk (hloc j)
    | tiered | fabric | other => rfl
  refine completes_run (f := defReplyRun core line key) (by rw [wfLine_of hl, wfCore, wfKey, decide_eq_true hc, decide_eq_true hk]; rfl) hs hrun ?_
    ⟨congrArg Core.deferred hcore, fun m => ?_, ?_, fun n hn => ?_, ?_⟩
  · unfold State.noteDeferred; rw [State.evtC_pending]; rfl
  · rw [hcore, List.mem_filter, decide_eq_true_eq]
  · unfold State.noteDeferred; rw [State.evtC_eq]; rfl
  · unfold State.noteDeferred; exact (State.core_evtC ..).trans (State.core_setCore_ne _ _ hn)
  · unfold State.noteDeferred; rw [State.evtC_eq]; rfl

theorem defReply_stray (hp : s.askedBy core line (fun p => p.req.spec) = none) :
    Completes (.defReply core line key) s fun t => t = { s.domainDown 8 0 (coreAgent core) line s.sock with pending := s.pending } := by
  refine completes_with (f := defReplyRun core line key) rfl (by rw [wfLine_of hl, wfCore, wfKey, decide_eq_true hc, decide_eq_true hk]; rfl) hs ?_
  unfold defReplyRun
  rw [hd, if_neg (by decide), hp]

end

/-! ### Grants (R175, R188, R198) -/

/-- Whether a line is homed on another socket (R178). -/
def State.homedAway (s : State) (line : Nat) : Bool := match s.lineKind line with
  | .remote _ => true
  | _ => false

/-- A grant that no request expects takes the domain down; one that answers a request is taken by it (R188, R209). -/
theorem grantRun_eq (g : GrantMsg) (s : State) :
    grantRun g s = if s.down || s.home.lost.contains (coreAgent g.core) then s
      else match s.askedBy g.core g.line (fun p => s.homedAway g.line || p.kind.allocates) with
        | none => s.domainDown 8 0 (coreAgent g.core) g.line s.sock
        | some p =>
          if !p.kind.allocates then
            (s.dropAsked p).deliver p (if p.kind = .rdc ∨ p.kind = .atf then .reply (g.data.getD 0) g.poison g.shared g.noFill else .done)
          else (if s.homedAway g.line then
              (((s.dropAsked p).takeGrant p g).proxyGrant g (!((s.dropAsked p).missDone p).1 && !g.noFill)).emit
                (.cmpAck (12 + ((s.dropAsked p).takeGrant p g).sock) g.line)
            else ((s.dropAsked p).takeGrant p g).fromAgent (coreAgent g.core) none (.cmpAck (coreAgent g.core) g.line)).drainWb := rfl

section
variable {g : GrantMsg} (hg : g.wf = true) (hlost : s.home.lost.contains (coreAgent g.core) = false)
include hs hd hg hlost

/-- A grant that a request of this package expects is taken, installed and acknowledged. -/
theorem grant_expected {p : Pend} {u : State} (hp : s.askedBy g.core g.line (fun p => s.homedAway g.line || p.kind.allocates) = some p)
    (hu : (if !p.kind.allocates then
        (s.dropAsked p).deliver p (if p.kind = .rdc ∨ p.kind = .atf then .reply (g.data.getD 0) g.poison g.shared g.noFill else .done)
      else (if s.homedAway g.line then
          (((s.dropAsked p).takeGrant p g).proxyGrant g (!((s.dropAsked p).missDone p).1 && !g.noFill)).emit (.cmpAck (12 + s.sock) g.line)
        else ((s.dropAsked p).takeGrant p g).fromAgent (coreAgent g.core) none (.cmpAck (coreAgent g.core) g.line)).drainWb) = u) :
    Completes (.grant g) s fun t => t = { u with pending := s.pending } := by
  have hsock : ((s.dropAsked p).takeGrant p g).sock = s.sock := State.takeGrant_sock ..
  refine completes_with (f := grantRun g) rfl hg hs ?_
  rw [grantRun_eq, hd, hlost, if_neg (by decide), hp]
  dsimp only
  rw [hsock, hu]

theorem grant_stray (hp : s.askedBy g.core g.line (fun p => s.homedAway g.line || p.kind.allocates) = none) :
    Completes (.grant g) s fun t => t = { s.domainDown 8 0 (coreAgent g.core) g.line s.sock with pending := s.pending } := by
  refine completes_with (f := grantRun g) rfl hg hs ?_
  rw [grantRun_eq, hd, hlost, if_neg (by decide), hp]

end

end

/-! ### Waiting requests (R191, R192, R258) -/

/-- A request that opens has an answer or is open. -/
theorem State.openTrans_starts (s : State) (p : Pend) : (∃ a, (s.openTrans p).1 = .ans a) ∨ (s.openTrans p).1 = .opened := by
  unfold State.openTrans
  dsimp only
  generalize (if p.mode = .msg then s.begin' p else (s.begin' p).2.answerLocal (s.begin' p).1) = q
  split
  · split
    · exact .inr rfl
    · exact .inl ⟨_, rfl⟩
  · exact .inr rfl

/-- A request of a local line that its home admits is opened. -/
theorem State.start_go {s : State} {p : Pend} {fresh : Bool} (hloc : ∀ j, s.lineKind p.req.line ≠ .remote j)
    (h : s.homeAdmit p.kind p.req fresh = (.go, s)) : s.start p fresh = s.openTrans p := by
  have hstart : s.start p fresh = s.homeStart p fresh := by
    unfold State.start
    cases hlk : s.lineKind p.req.line with
    | remote j => exact absurd hlk (hloc j)
    | tiered | fabric | other => rfl
  rw [hstart]
  unfold State.homeStart
  dsimp only
  rw [h]

/-- A waiting request that its home admits leaves its queue and is opened. -/
theorem State.resumeAt_go {s : State} {n i : Nat} {p : Pend} (hp : (s.slice n).waiting[i]? = some p) (hloc : ∀ j, s.lineKind p.req.line ≠ .remote j)
    (hgo : (s.setSlice n { s.slice n with waiting := (s.slice n).waiting.eraseIdx i }).homeAdmit p.kind p.req false =
      (.go, s.setSlice n { s.slice n with waiting := (s.slice n).waiting.eraseIdx i })) :
    s.resumeAt n i false =
      match (s.setSlice n { s.slice n with waiting := (s.slice n).waiting.eraseIdx i }).openTrans p with
      | (.ans a, u) => u.deliver p a
      | (_, u) => u := by
  have hst := State.start_go (s := s.setSlice n { s.slice n with waiting := (s.slice n).waiting.eraseIdx i }) (fresh := false) hloc hgo
  unfold State.resumeAt
  dsimp only
  rw [if_neg (by decide), hp]
  dsimp only
  rw [if_neg (by decide), hst]
  generalize hq : (s.setSlice n { s.slice n with waiting := (s.slice n).waiting.eraseIdx i }).openTrans p = q
  obtain ⟨r, u⟩ := q
  have hr := State.openTrans_starts (s.setSlice n { s.slice n with waiting := (s.slice n).waiting.eraseIdx i }) p
  rw [hq] at hr
  rcases hr with ⟨a, h⟩ | h <;> dsimp only at h <;> subst h <;> rfl

section
variable {s : State} {n : Nat} (hn : n < 32) (hs : s.stopped = false) (hd : s.down = false)
include hn hs hd

theorem waitingRequestResume_completes : Completes (.waitingRequestResume n) s fun t => t = { s.resumeSlice n with pending := s.pending } :=
  completes_with (f := waitingRequestResumeRun n) rfl (decide_eq_true hn) hs (by unfold waitingRequestResumeRun; rw [hd]; rfl)

end

theorem State.resumeSlice_retry {s u : State} {n : Nat} (h : s.retrySlice n = some u) : s.resumeSlice n = u := by
  unfold State.resumeSlice; rw [h]

theorem State.resumeSlice_waiting {s : State} {n i : Nat} (h : s.retrySlice n = none) (hw : s.resumable (s.slice n).waiting false = some i) :
    s.resumeSlice n = s.resumeAt n i false := by
  unfold State.resumeSlice; rw [h]; dsimp only; rw [hw]

theorem State.resumeSlice_parked {s : State} {n i : Nat} (h : s.retrySlice n = none) (hw : s.resumable (s.slice n).waiting false = none)
    (hp : s.resumable (s.slice n).parked true = some i) : s.resumeSlice n = s.resumeAt n i true := by
  unfold State.resumeSlice; rw [h]; dsimp only; rw [hw]; dsimp only; rw [hp]

theorem State.retrySlice_idle {s : State} {n : Nat} (h : (s.slice n).trans = []) : s.retrySlice n = none := by
  unfold State.retrySlice; rw [h]; rfl

theorem starvedRequestResume_completes (s : State) (hs : s.stopped = false) (hd : s.down = false) :
    Completes .starvedRequestResume s fun t =>
      let u := s.each (List.range 32) fun s n => (s.retrySlice n).getD s
      t = { ({ u with enl := { u.enl with held := [] } } : State).each u.enl.held State.tieredOk with pending := s.pending } :=
  completes_with (ok := true) (f := starvedRequestResumeRun) rfl rfl hs (by unfold starvedRequestResumeRun; rw [hd]; rfl)

/-- Settles O29, message by message. -/
theorem homeMessagesComplete : Obligations.HomeMessagesComplete := by
  refine ⟨⟨fun s line agent a hl ha hs hd hlost => ⟨fun tr ht hm => ⟨fun hw => ?awaits, fun he hg => ?ends⟩, snoopAnswer_stray hs hd hl ha hlost⟩,
    fun s agent line ha hl hs hd hlost => ⟨fun tr ht hg hr => cmpack_expected hs hd hl ha hlost ht hg hr, cmpack_stray hs hd hl ha hlost⟩,
    fun s agent line ha hl hs hd hlost => ⟨evack_expected hs hd hl ha hlost, evack_stray hs hd hl ha hlost⟩,
    fun s core line key hc hl hk hs hd => ⟨fun p hp hloc => defReply_expected hs hd hc hl hk hp hloc, defReply_stray hs hd hc hl hk⟩,
    fun s g hg hs hd hlost => ⟨fun hloc => ?here, fun j p hlk hp => ?away⟩⟩,
    fun s u n hn hs hd hr => ?retry, fun s n i hn hs hd hr => ⟨fun hw => ?waiting, fun hw hp => ?parked⟩,
    fun s n i p hn hs hd hidle hw hp hloc hgo => ?go, starvedRequestResume_completes⟩
  case awaits =>
    refine (snoopAnswer_expected hs hd hl ha hlost ht hm).of_eq ?_
    rw [State.settle_open _ hw]
  case ends =>
    refine (snoopAnswer_expected hs hd hl ha hlost ht hm).of_eq ?_
    rw [State.settle_given _ he hg]
  case here =>
    have haway : s.homedAway g.line = false := by
      unfold State.homedAway
      cases hlk : s.lineKind g.line with
      | remote j => exact absurd hlk (hloc j)
      | tiered | fabric | other => rfl
    refine ⟨fun p hp hk => ?_, fun hp => ?_⟩
    · exact grant_expected hs hd hg hlost (by rw [haway]; exact hp) (by rw [hk, haway]; rfl)
    · exact grant_stray hs hd hg hlost (by rw [haway]; exact hp)
  case away =>
    have haway : s.homedAway g.line = true := by unfold State.homedAway; rw [hlk]
    have hask : s.askedBy g.core g.line (fun p => s.homedAway g.line || p.kind.allocates) = some p := by rw [haway]; exact hp
    refine ⟨fun hk => ?_, fun hk => ?_, fun hk => ?_⟩
    · exact grant_expected hs hd hg hlost hask (by rw [hk, haway]; rfl)
    · refine grant_expected hs hd hg hlost hask ?_
      rw [if_pos hk]
      rcases hk with h | h <;> rw [h] <;> rfl
    · refine grant_expected hs hd hg hlost hask ?_
      simp only [List.mem_cons, List.not_mem_nil, or_false] at hk
      rcases hk with h | h | h | h | h <;> rw [h] <;> rfl
  case retry =>
    rw [← State.resumeSlice_retry hr]
    exact waitingRequestResume_completes hn hs hd
  case waiting =>
    rw [← State.resumeSlice_waiting hr hw]
    exact waitingRequestResume_completes hn hs hd
  case parked =>
    rw [← State.resumeSlice_parked hr hw hp]
    exact waitingRequestResume_completes hn hs hd
  case go =>
    refine (waitingRequestResume_completes hn hs hd).of_eq ?_
    rw [State.resumeSlice_waiting (State.retrySlice_idle hidle) hw, State.resumeAt_go hp hloc hgo] <;> rfl

end Sys2Proof.Machine
end
